-- ==== Sys2Proof/Word.lean ====
section
/-! DEFINITION. The word types of the VG5124, its fixed-point rounding, and the sparse map in which
every array of the machine (memory, registers, per-channel state) is held.

A sparse map is a list of (key, value) pairs with keys strictly rising, and no pair whose value is the
default that an unlisted key reads as. Two maps with the same contents are then the same list. -/

namespace Sys2Proof

/-- A register or sample word (R5, Q1.31). -/
abbrev Word := BitVec 32
/-- A byte of memory. -/
abbrev Byte := BitVec 8
/-- A 64-bit Prehotrix bundle or cascade value (R73, R141). -/
abbrev DWord := BitVec 64
/-- An 80-bit accumulator in Q17.63 (R79). -/
abbrev Acc := BitVec 80

/-- floor(a / b) for a positive divisor. -/
def floorDiv (a : Int) (b : Nat) : Int := a / (b : Int)

/-- Round a / b to the nearest integer, ties to even, for a positive divisor (R81, R117, R136, R166). -/
def roundHalfEven (a : Int) (b : Nat) : Int :=
  let q := a / (b : Int)
  let r := a % (b : Int)
  if 2 * r < (b : Int) then q
  else if (b : Int) < 2 * r then q + 1
  else if q % 2 = 0 then q else q + 1

/-- Clamp to `-2^(n-1) .. 2^(n-1) - 1`. -/
def clampBits (n : Nat) (v : Int) : Int :=
  if v > 2 ^ (n - 1) - 1 then 2 ^ (n - 1) - 1
  else if v < -(2 ^ (n - 1)) then -(2 ^ (n - 1)) else v

/-- Whether `v` lies outside the range of an n-bit two's-complement number. -/
def outOfBits (n : Nat) (v : Int) : Bool :=
  decide (v > 2 ^ (n - 1) - 1) || decide (v < -(2 ^ (n - 1)))

/-- ceil(a / b) on natural numbers. -/
def ceilDiv (a b : Nat) : Nat := (a + b - 1) / b

/-- A value of a w-bit field that saturates at all ones (R9). -/
def satInc (w n : Nat) : Nat := if n + 1 < 2 ^ w then n + 1 else 2 ^ w - 1

/-- Bits `hi` down to `lo` of a word, as a number. -/
def bits (w : Word) (hi lo : Nat) : Nat := (w.toNat / 2 ^ lo) % 2 ^ (hi + 1 - lo)

/-- One bit of a word. -/
def bit (w : Word) (i : Nat) : Bool := w.getLsbD i

/-- The word with bits `hi` down to `lo` replaced by `v`. -/
def setBits (w : Word) (hi lo v : Nat) : Word :=
  let m := BitVec.ofNat 32 ((2 ^ (hi + 1 - lo) - 1) * 2 ^ lo)
  (w &&& ~~~m) ||| (BitVec.ofNat 32 ((v % 2 ^ (hi + 1 - lo)) * 2 ^ lo))

/-- The word with bit `i` replaced. -/
def setBit (w : Word) (i : Nat) (b : Bool) : Word :=
  if b then w ||| BitVec.ofNat 32 (2 ^ i) else w &&& ~~~(BitVec.ofNat 32 (2 ^ i))

/-- Bits `hi` down to `lo` of a word, read as a signed number. -/
def sbits (w : Word) (hi lo : Nat) : Int :=
  let v := bits w hi lo
  if v < 2 ^ (hi - lo) then (v : Int) else (v : Int) - 2 ^ (hi + 1 - lo)

/-- A Boolean as a number. -/
def b2n (b : Bool) : Nat := if b then 1 else 0

/-- Four lane values (R46, R49). -/
structure L4 (α : Type) where
  l0 : α
  l1 : α
  l2 : α
  l3 : α
deriving DecidableEq, Repr

/-- The value of one lane. -/
def L4.get {α : Type} (v : L4 α) (k : Fin 4) : α :=
  match k with
  | 0 => v.l0
  | 1 => v.l1
  | 2 => v.l2
  | 3 => v.l3

/-- The same value in every lane. -/
def L4.all {α : Type} (x : α) : L4 α := ⟨x, x, x, x⟩

/-- A lane value computed for each lane. -/
def L4.of {α : Type} (f : Fin 4 → α) : L4 α := ⟨f 0, f 1, f 2, f 3⟩

/-- A value computed from each lane's value. -/
def L4.map {α β : Type} (f : α → β) (v : L4 α) : L4 β := ⟨f v.l0, f v.l1, f v.l2, f v.l3⟩

/-- A lane vector with one lane replaced. -/
def L4.set {α : Type} (v : L4 α) (k : Fin 4) (x : α) : L4 α :=
  match k with
  | 0 => { v with l0 := x }
  | 1 => { v with l1 := x }
  | 2 => { v with l2 := x }
  | 3 => { v with l3 := x }

/-- The value a sparse map holds at a key: `d` where the key is not listed. -/
def sget {α : Type} (d : α) : List (Nat × α) → Nat → α
  | [], _ => d
  | (j, v) :: m, k => if j = k then v else sget d m k

/-- A sparse map with one key removed. -/
def sdel {α : Type} : List (Nat × α) → Nat → List (Nat × α)
  | [], _ => []
  | (j, v) :: m, k => if j = k then sdel m k else (j, v) :: sdel m k

/-- A sparse map with a value put at a key, in key order. -/
def sins {α : Type} : List (Nat × α) → Nat → α → List (Nat × α)
  | [], k, x => [(k, x)]
  | (j, v) :: m, k, x =>
    if j = k then (k, x) :: m else if k < j then (k, x) :: (j, v) :: m else (j, v) :: sins m k x

/-- Write a value at a key of a sparse map whose unlisted keys read `d`, keeping the canonical form. -/
def sset {α : Type} [DecidableEq α] (d : α) (m : List (Nat × α)) (k : Nat) (x : α) : List (Nat × α) :=
  if x = d then sdel m k else sins m k x

/-- The canonical form of a sparse map: keys strictly rising, and no listed value equal to the default
of its key. -/
def swf {α : Type} [DecidableEq α] (d : Nat → α) (m : List (Nat × α)) : Bool :=
  decide ((m.map Prod.fst).Pairwise (· < ·)) && m.all (fun kv => kv.2 != d kv.1)

/-- Numbers 0 to n - 1. -/
def upTo (n : Nat) : List Nat := List.range n

/-- The first number below `n` that satisfies `p`. -/
def findUpTo (n : Nat) (p : Nat → Bool) : Option Nat := (List.range n).find? p

end Sys2Proof
end

