-- ==== Sys2Proof/Syntax.lean ====
section
/-! DEFINITION. The commands of the block, whole: the Prehotrix operations of one bundle, the operand
types of the commands, and `Instr`, one constructor for each row of the opcode table. -/

namespace Sys2Proof

/-- Who issues a register access: the Bus Matrix master number of R190, and for HIF (master 6) whether
the request comes from PF1, the Guest (R351). -/
structure Req where
  master : Fin 12
  guest  : Bool
deriving DecidableEq, Repr

/-- The Owner function of the host (master HIF, PF0). -/
def Req.owner : Req := ⟨6, false⟩

/-- The `t` operand of MAC, MSB, MPY and MPYN: a D register, or the glide factor G (tg = 1, R78). -/
inductive MulT where
  | reg (t : Fin 16)
  | g
deriving DecidableEq, Repr

/-- EXT's rounding field (R76): 0b00 to 0b10. -/
inductive Rm where
  /-- Round to nearest, ties to even. -/
  | rne
  /-- Truncate toward minus infinity. -/
  | trunc
  /-- TPDF dither, then round to nearest even. -/
  | tpdf
deriving DecidableEq, Repr

/-- SEL's condition field, and the lane-0 conditions of BC (R76, R98): 0b000 to 0b101. -/
inductive Cond where
  | z | nz | n | nn | nOrZ | nnAndNz
deriving DecidableEq, Repr

/-- The arithmetic slot (R76). Fields the encoding forbids are not representable, but for NORM's d = c. -/
inductive ArithOp where
  | nop
  | mac (m : Fin 4) (s : Fin 16) (t : MulT)
  | msb (m : Fin 4) (s : Fin 16) (t : MulT)
  | mpy (m : Fin 4) (s : Fin 16) (t : MulT)
  | mpyn (m : Fin 4) (s : Fin 16) (t : MulT)
  | macl (m : Fin 4) (s t : Fin 16)
  | msbl (m : Fin 4) (s t : Fin 16)
  | clr (m : Fin 4)
  | lda (m : Fin 4) (s : Fin 16)
  | ext (d : Fin 16) (m : Fin 4) (sh : BitVec 5) (rm : Rm)
  | norm (d c : Fin 16) (m : Fin 4)
  | add (d s t : Fin 16)
  | sub (d s t : Fin 16)
  | min (d s t : Fin 16)
  | max (d s t : Fin 16)
  | sel (d s t : Fin 16) (cond : Cond)
  | cmp (s t : Fin 16)
  | and (d s t : Fin 16)
  | or (d s t : Fin 16)
  | xor (d s t : Fin 16)
  | shl (d s t : Fin 16)
  | asr (d s t : Fin 16)
  | scale (d s t : Fin 16)
  | expt (d s : Fin 16)
  | abs (d s : Fin 16)
  | neg (d s : Fin 16)
  | mov (d s : Fin 16)
  | addi (d s : Fin 16) (imm : BitVec 9)
  | cmpi (s : Fin 16) (imm : BitVec 9)
  | shli (d s : Fin 16) (imm : BitVec 5)
  | asri (d s : Fin 16) (imm : BitVec 5)
  | lsri (d s : Fin 16) (imm : BitVec 5)
  | bcst (d s : Fin 16) (k : Fin 4)
  | movi (d : Fin 16) (imm : BitVec 16) (h : Bool)
deriving DecidableEq, Repr

/-- A memory slot (R90): `i` names the pointer, `j` the modifier within the pointer's half. -/
inductive MemOp where
  | nop
  | ldq (r : Fin 16) (i : Fin 8) (j : Fin 4)
  | ldw (r : Fin 16) (i : Fin 8) (j : Fin 4)
  | stq (r : Fin 16) (i : Fin 8) (j : Fin 4)
  | stw (r : Fin 16) (i : Fin 8) (j : Fin 4)
  | ldr (r : Fin 16) (i : Fin 8) (j : Fin 4)
  | ldl (r : Fin 8) (i : Fin 8) (j : Fin 4)
  | str (r : Fin 16) (i : Fin 8) (j : Fin 4)
  | stl (r : Fin 8) (i : Fin 8) (j : Fin 4)
deriving DecidableEq, Repr

/-- The control slot, 16-bit and wide (R95, R96, R92). -/
inductive CtlOp where
  | nop
  | endSlice
  | rte
  | ei
  | di
  | gadv
  | gset (j : BitVec 5)
  | clrf (mask : BitVec 8)
  | pwait (t : Fin 16)
  | addp (i j : Fin 8)
  | mtp (i : Fin 8) (d : Fin 16)
  | mtn (i : Fin 8) (d : Fin 16)
  | mtl (i : Fin 8) (d : Fin 16)
  | ldpq (i : Fin 8) (q : BitVec 11)
  | setn (i : Fin 8) (imm : BitVec 10)
  | setl (i : Fin 8) (imm : BitVec 10)
  | bra (rel : BitVec 12)
  | bc (cond : Fin 8) (rel : BitVec 9)
  | djn (d : Fin 16) (rel : BitVec 8)
  | rpt (n : BitVec 12)
  | rptw (n : BitVec 16)
  | jmp (pc : BitVec 13)
  | setp (i : Fin 8) (addr : BitVec 16)
  | setnw (i : Fin 8) (imm : BitVec 16)
  | setlw (i : Fin 8) (imm : BitVec 16)
  | pget (t : Fin 16) (i : Fin 8) (s cnt : Fin 16)
  | pput (t : Fin 16) (i : Fin 8) (s cnt : Fin 16)
deriving DecidableEq, Repr

/-- One bundle (R73): the slots that issue in the same engine cycle. -/
structure Bundle where
  a : ArithOp
  x : MemOp
  y : MemOp
  c : CtlOp
deriving DecidableEq, Repr

/-- The complete no-operation (R74). -/
def Bundle.nop : Bundle := ⟨.nop, .nop, .nop, .nop⟩

/-- Which memory slot of a bundle an operation occupies. -/
inductive Slot where
  | x | y
deriving DecidableEq, Repr

/-- One beat of 32 bytes with its byte strobes (R191). For a read, the strobes name the bytes wanted. -/
structure Beat where
  data : BitVec 256
  strb : BitVec 32
deriving DecidableEq, Repr

/-- A Bus Matrix transaction: 1 to 16 beats from a 32-byte-aligned start (R191, R196). As a command's operand, of a
master with a narrow port, the burst of that port: beats of its width from a multiple of it, each in the low bytes of
its `Beat`, before the width converter packs and divides it (R190, R192). -/
structure Txn where
  master : Fin 12
  guest  : Bool
  write  : Bool
  locked : Bool
  addr   : BitVec 32
  beats  : List Beat
deriving DecidableEq, Repr

/-- Where Clove delivers: an engine's event interface or a house core (R206). -/
inductive Dest where
  | engine (e : Fin 32)
  | core (c : Fin 2)
deriving DecidableEq, Repr

/-- One serial-audio frame as the pins carry it (R223, R237): BCLK periods since the last frame start,
offset of the frame start from the master frame start in ns, engine cycles since the last frame start,
and the level of SDI at each rising and each falling BCLK edge that follows the WS edge of the frame start. -/
structure SapFrame where
  bclks   : Nat
  offset  : Int
  elapsed : Nat
  rise    : List Bool
  fall    : List Bool
deriving DecidableEq, Repr

/-- The preamble that opens an AES3 subframe (R241). -/
inductive Preamble where
  | x | y | z | none
deriving DecidableEq, Repr

/-- One AES3 subframe: time slots 4 to 31 as bits 0 to 27, and whether a biphase violation occurred (R242, R243). -/
structure Subframe where
  pre       : Preamble
  violation : Bool
  slots     : BitVec 28
deriving DecidableEq, Repr

/-- One AES3 frame: both subframes, the offset of its start from the master frame start in ns, and the
engine cycles since the last frame start (R241). -/
structure AesFrame where
  a : Subframe
  b : Subframe
  offset  : Int
  elapsed : Nat
deriving DecidableEq, Repr

/-- A frame as a network port receives it: its bytes from the destination address to the end of the FCS,
and what the line reported of it (R259, R268); or, with `sfd`, only the start of a frame, its first bit after the
SFD, of a preemptable frame where `frags` is not 0 (R260, R274); or the peer's answer to the verify exchange of
Clause 99, which carries no frame. -/
structure RxFrame where
  bytes    : List Byte
  codeErr  : Bool
  reasmErr : Bool
  frags    : Nat
  verified : Bool := false
  sfd      : Bool := false
deriving DecidableEq, Repr

/-- A Dongo frame's kind field (R314). -/
inductive DngKind where
  | audio | casc | time | event | mirror | ack | nak | hello | other
deriving DecidableEq, Repr

/-- A Dongo frame whose CRC-32 holds: its header fields and its payload (R314). -/
structure DngFrame where
  kind    : DngKind
  seq     : BitVec 12
  block   : Word
  chan    : BitVec 8
  cnt     : BitVec 8
  payload : List Byte
deriving DecidableEq, Repr

/-- A record on Anise's M path (R334, R335): a commit or status record as its eight words, or a delta
record as its header kind and body. -/
inductive AniRecord where
  | fixed (words : List Word)
  | delta (kind : BitVec 4) (body : List Byte)
deriving DecidableEq, Repr

/-- The two Anise paths (R328), or both at once (R339). -/
inductive AniPath where
  | h | m
deriving DecidableEq, Repr

/-- What R348 gives a function's configuration space: vendor and device ID, class code, subsystem IDs, the control of its
MSI-X capability, its maximum payload and read request size, and its AER uncorrectable error status. The spec gives no
offsets. PRESUMED, from PCI Express: assumption 113. -/
inductive CfgItem where
  | ids | classCode | subsystem | msixControl | deviceControl | aerStatus
deriving DecidableEq, Repr

/-- A host request TLP (R349, R372): a memory read or write with its byte enables, a read or write of the MSI-X BAR, or a
read or write of configuration space. -/
inductive Tlp where
  | read (fn : Fin 2) (addr : BitVec 32) (en : List Bool)
  | write (fn : Fin 2) (addr : BitVec 32) (data : List (Byte × Bool))
  | msixWrite (fn : Fin 2) (off : BitVec 14) (data : Word)
  | msixRead (fn : Fin 2) (off : BitVec 14)
  | cfgRead (fn : Fin 2) (item : CfgItem)
  | cfgWrite (fn : Fin 2) (item : CfgItem) (data : Word)
deriving DecidableEq, Repr

/-- A sample of what a power-on reset depends on: PORn and VDD_AON in mV (R389), with BOOT[1:0] (R381), and which of I/O
banks 0–4 have a supply of 3.3 V (R390). -/
structure PorPins where
  boot : BitVec 2
  io33 : BitVec 5
  porn : Bool
  aon  : Nat
deriving DecidableEq, Repr

/-- What the fuse array loads (R381 step 1): per unit hard repairs, IDs, key hash, minimum version,
debug lock, and whether an uncorrectable error was found. -/
structure Fuses where
  hard     : List (Nat × Nat)
  vendor   : BitVec 16
  subsys   : Word
  keyHash  : BitVec 256
  minVer   : Word
  dbgLock  : Bool
  eccErr   : Bool
  mfrCode  : BitVec 11
deriving DecidableEq, Repr

/-- What the self-test finds of one repair unit (R183): failing columns at step 1, and whether it still
fails at step 3. -/
structure UnitTest where
  unit      : Fin 728
  failCols  : Nat
  stillBad  : Bool
deriving DecidableEq, Repr

/-- The output pins with a boundary cell (R384, R387, R392), and TDO. -/
inductive Pin where
  | sapSdo (n : Fin 24) | sapBclk (n : Fin 24) | sapWs (n : Fin 24) | aesTx (n : Fin 8) | mclk (m : Fin 4) | wclkOut
  | hbTx | faultN | gpio (n : Fin 16) | qspiClk | qspiIo (n : Fin 4) | tdo
  | macTx (n : Fin 2) | dngTx (n lane : Fin 4) | pcieTx (lane : Fin 4)
deriving DecidableEq, Repr

/-- The TAP instructions of R384; PRELOAD with what is shifted into the boundary cells. -/
inductive JtagInstr where
  | bypass | idcode | extest | extestPulse | extestTrain
  | samplePreload (cells : List (Pin × Bool))
  | debug (t : Txn)
deriving DecidableEq, Repr

/-- The PTP messages an instance sends (R289): Sync as one-step or two-step, and the answers to a Delay_Req and a
Pdelay_Req. -/
inductive PtpMsg where
  | sync (oneStep : Bool)
  | announce | delayReq | pdelayReq | delayResp | pdelayResp
deriving DecidableEq, Repr

/-- One command of the block: one constructor for each row of the opcode table. -/
inductive Instr where
  /-- REGISTER_WRITE (R10). A write to a peripheral or engine register that has no row of its own is range-checked and either applied or rejected whole. -/
  | registerWrite (r : Req) (addr : BitVec 32) (data : Word) (be : BitVec 4)
  /-- READ_CLEAR (R403). A read of an RC field returns the current value and then clears or empties the field. -/
  | readClear (r : Req) (addr : BitVec 32)
  /-- FRAME_RUN (R40). A write setting SYS_FRM_CTRL.run to 1 starts the frame, cancels a pending stop, or restarts the frame after the final block. -/
  | frameRun (r : Req) (rate blen : BitVec 2)
  /-- FRAME_STOP (R41). A write clearing SYS_FRM_CTRL.run sets stop_pending so that the stop applies at the next block boundary. -/
  | frameStop (r : Req) (rate blen : BitVec 2)
  /-- FRAME_FORMAT_CHANGE (R39). A SYS_FRM_CTRL write that changes rate or blen while stopped is checked against the split and updates the window registers. -/
  | frameFormatChange (r : Req) (rate blen : BitVec 2) (run : Bool)
  /-- SPLIT_WRITE (R42). An accepted SYS_FRM_SPLIT write is held as pending and sets split_pending. -/
  | splitWrite (r : Req) (data : Word)
  /-- BLOCK_TICK (R37). The block tick ends one block and begins the next, and the device performs the ordered tick steps in cycle 0. -/
  | blockTick (pest : BitVec 16)
  /-- STRIP_WINDOW_CLOSE (R34). The Strip window closes at its computed cycle: running RT slices are halted and the Sum window opens. -/
  | stripWindowClose
  /-- MATRIX_BUS_COMPLETE (R132). The Matrix completes one bus's local sum for the block on its fixed cycle schedule. -/
  | matrixBusComplete (b : Fin 256)
  /-- CASCADE_DEADLINE (R143). At 8 cycles before the Sum window closes, cascade terms not yet arrived are treated as missing and ramp out. -/
  | cascadeDeadline
  /-- SUM_WINDOW_CLOSE (R136). The Sum window closes: ramp states update, held gain-memory accesses complete and the Bus window opens. -/
  | sumWindowClose
  /-- BUS_WINDOW_CLOSE (R34). The Bus window closes at its computed end: running RT Bus slices are halted and the transmit sinks are consumed. -/
  | busWindowClose
  /-- SLICE_START (R112). Once the slice's input fill is complete, the sequencer switches in the next eligible slice with the R46 register values. -/
  | sliceStart (e : Fin 32)
  /-- ROUTER_TAP_TRANSFER (R169). The Router port moves one tap quad into or out of DMEM in a free half-cycle. -/
  | routerTapTransfer (e : Fin 32)
  /-- EXTERNAL_DMEM_ACCESS (R52). An external access to DMEM or the exchange window is served in a free half-cycle or by priority on the external port. -/
  | externalDmemAccess (e : Fin 32) (quad : BitVec 14) (write : Bool) (strb : BitVec 16) (data : BitVec 128)
  /-- EVENT_TAKE (R65). At an eligible boundary the engine takes a delivered event and switches to the shadow set at ENG_EVT_VEC. -/
  | eventTake (e : Fin 32)
  /-- HANDLER_TIMEOUT (R67). A handler that has not finished its RTE within RCAP cycles faults with EVT_LONG and is abandoned. -/
  | handlerTimeout (e : Fin 32)
  /-- PIPELINE_RESULT_LAND (R58). An in-flight result reaches its register at its fixed latency, and the later-issued result wins a clash. -/
  | pipelineResultLand (e : Fin 32)
  /-- NOP (R74). A no-operation slot changes no state. -/
  | nop (e : Fin 32)
  /-- MAC (R79). Multiply two Q1.31 words and accumulate into Am with saturation lock. -/
  | mac (e : Fin 32) (m : Fin 4) (s : Fin 16) (t : MulT) (w : Bundle)
  /-- MSB (R79). Multiply and subtract the product from Am. -/
  | msb (e : Fin 32) (m : Fin 4) (s : Fin 16) (t : MulT) (w : Bundle)
  /-- MPY (R79). Load Am with the product and clear its lock. -/
  | mpy (e : Fin 32) (m : Fin 4) (s : Fin 16) (t : MulT) (w : Bundle)
  /-- MPYN (R79). Load Am with the negated product and clear its lock. -/
  | mpyn (e : Fin 32) (m : Fin 4) (s : Fin 16) (t : MulT) (w : Bundle)
  /-- MACL (R79). Accumulate a signed-by-unsigned low-word product for double-precision coefficients. -/
  | macl (e : Fin 32) (m : Fin 4) (s t : Fin 16) (w : Bundle)
  /-- MSBL (R79). Subtract a signed-by-unsigned low-word product from Am. -/
  | msbl (e : Fin 32) (m : Fin 4) (s t : Fin 16) (w : Bundle)
  /-- CLR (R86). Clear Am and its lock bit. -/
  | clr (e : Fin 32) (m : Fin 4) (w : Bundle)
  /-- LDA (R86). Load Am with a sign-extended word scaled by 2^32. -/
  | lda (e : Fin 32) (m : Fin 4) (s : Fin 16) (w : Bundle)
  /-- EXT (R81). Convert an accumulator to a 32-bit word with shift, rounding or dither, and saturation. -/
  | ext (e : Fin 32) (d : Fin 16) (m : Fin 4) (sh : BitVec 5) (rm : Rm) (w : Bundle)
  /-- NORM (R84). Normalise an accumulator into a mantissa and an exponent count. -/
  | norm (e : Fin 32) (d c : Fin 16) (m : Fin 4) (w : Bundle)
  /-- ADD (R86). Saturating add of two D registers. -/
  | add (e : Fin 32) (d s t : Fin 16) (w : Bundle)
  /-- SUB (R86). Saturating subtract of two D registers. -/
  | sub (e : Fin 32) (d s t : Fin 16) (w : Bundle)
  /-- MIN (R86). Signed minimum of two D registers. -/
  | min (e : Fin 32) (d s t : Fin 16) (w : Bundle)
  /-- MAX (R86). Signed maximum of two D registers. -/
  | max (e : Fin 32) (d s t : Fin 16) (w : Bundle)
  /-- SEL (R86). Select one of two registers by a flag condition. -/
  | sel (e : Fin 32) (d s t : Fin 16) (cond : Cond) (w : Bundle)
  /-- CMP (R86). Compare two registers and set Z and N. -/
  | cmp (e : Fin 32) (s t : Fin 16) (w : Bundle)
  /-- AND (R86). Bitwise AND. -/
  | and (e : Fin 32) (d s t : Fin 16) (w : Bundle)
  /-- OR (R86). Bitwise OR. -/
  | or (e : Fin 32) (d s t : Fin 16) (w : Bundle)
  /-- XOR (R86). Bitwise exclusive OR. -/
  | xor (e : Fin 32) (d s t : Fin 16) (w : Bundle)
  /-- SHL (R86). Shift left by a register amount. -/
  | shl (e : Fin 32) (d s t : Fin 16) (w : Bundle)
  /-- ASR (R86). Arithmetic shift right by a register amount. -/
  | asr (e : Fin 32) (d s t : Fin 16) (w : Bundle)
  /-- SCALE (R85). Scale a word by a clamped power of two, saturating on left shifts. -/
  | scale (e : Fin 32) (d s t : Fin 16) (w : Bundle)
  /-- EXPT (R85). Count redundant sign bits of a word. -/
  | expt (e : Fin 32) (d s : Fin 16) (w : Bundle)
  /-- ABS (R86). Saturating absolute value. -/
  | abs (e : Fin 32) (d s : Fin 16) (w : Bundle)
  /-- NEG (R86). Saturating negation. -/
  | neg (e : Fin 32) (d s : Fin 16) (w : Bundle)
  /-- MOV (R86). Copy one D register to another. -/
  | mov (e : Fin 32) (d s : Fin 16) (w : Bundle)
  /-- ADDI (R86). Add a signed immediate, modulo 2^32. -/
  | addi (e : Fin 32) (d s : Fin 16) (imm : BitVec 9) (w : Bundle)
  /-- CMPI (R86). Compare a register with an immediate. -/
  | cmpi (e : Fin 32) (s : Fin 16) (imm : BitVec 9) (w : Bundle)
  /-- SHLI (R86). Shift left by an immediate. -/
  | shli (e : Fin 32) (d s : Fin 16) (imm : BitVec 5) (w : Bundle)
  /-- ASRI (R86). Arithmetic shift right by an immediate. -/
  | asri (e : Fin 32) (d s : Fin 16) (imm : BitVec 5) (w : Bundle)
  /-- LSRI (R86). Logical shift right by an immediate. -/
  | lsri (e : Fin 32) (d s : Fin 16) (imm : BitVec 5) (w : Bundle)
  /-- BCST (R78). Broadcast lane k of Ds to Dd in every lane. -/
  | bcst (e : Fin 32) (d s : Fin 16) (k : Fin 4) (w : Bundle)
  /-- MOVI (R86). Load a 16-bit immediate, sign-extended or into the high half. -/
  | movi (e : Fin 32) (d : Fin 16) (imm : BitVec 16) (h : Bool) (w : Bundle)
  /-- LDQ (R91). Load a quad, one word per lane, with post-modification. -/
  | ldq (e : Fin 32) (sl : Slot) (r : Fin 16) (i : Fin 8) (j : Fin 4) (w : Bundle)
  /-- LDW (R91). Load one word and broadcast it to all lanes. -/
  | ldw (e : Fin 32) (sl : Slot) (r : Fin 16) (i : Fin 8) (j : Fin 4) (w : Bundle)
  /-- STQ (R91). Store a quad from the four lanes. -/
  | stq (e : Fin 32) (sl : Slot) (r : Fin 16) (i : Fin 8) (j : Fin 4) (w : Bundle)
  /-- STW (R91). Store one word from the lane that owns it. -/
  | stw (e : Fin 32) (sl : Slot) (r : Fin 16) (i : Fin 8) (j : Fin 4) (w : Bundle)
  /-- LDR (R91). Load a P or N register from DMEM. -/
  | ldr (e : Fin 32) (sl : Slot) (r : Fin 16) (i : Fin 8) (j : Fin 4) (w : Bundle)
  /-- LDL (R91). Load an L register from DMEM. -/
  | ldl (e : Fin 32) (sl : Slot) (r : Fin 8) (i : Fin 8) (j : Fin 4) (w : Bundle)
  /-- STR (R91). Store a P or N register to DMEM. -/
  | str (e : Fin 32) (sl : Slot) (r : Fin 16) (i : Fin 8) (j : Fin 4) (w : Bundle)
  /-- STL (R91). Store an L register to DMEM. -/
  | stl (e : Fin 32) (sl : Slot) (r : Fin 8) (i : Fin 8) (j : Fin 4) (w : Bundle)
  /-- LDPQ (R97). Set Pi to a quad offset from SB. -/
  | ldpq (e : Fin 32) (i : Fin 8) (q : BitVec 11) (w : Bundle)
  /-- SETN (R97). Set a modifier register from a short immediate. -/
  | setn (e : Fin 32) (i : Fin 8) (imm : BitVec 10) (w : Bundle)
  /-- SETL (R97). Set a circular length from a short immediate. -/
  | setl (e : Fin 32) (i : Fin 8) (imm : BitVec 10) (w : Bundle)
  /-- ADDP (R97). Post-modify a pointer by a modifier under R89. -/
  | addp (e : Fin 32) (i j : Fin 8) (w : Bundle)
  /-- MTP (R97). Move lane 0 of a D register to a pointer. -/
  | mtp (e : Fin 32) (i : Fin 8) (d : Fin 16) (w : Bundle)
  /-- MTN (R97). Move lane 0 of a D register to a modifier. -/
  | mtn (e : Fin 32) (i : Fin 8) (d : Fin 16) (w : Bundle)
  /-- MTL (R97). Move lane 0 of a D register to a length. -/
  | mtl (e : Fin 32) (i : Fin 8) (d : Fin 16) (w : Bundle)
  /-- EI (R103). Set the event permit. -/
  | ei (e : Fin 32) (w : Bundle)
  /-- DI (R103). Clear the event permit. -/
  | di (e : Fin 32) (w : Bundle)
  /-- GADV (R101). Advance the glide index. -/
  | gadv (e : Fin 32) (w : Bundle)
  /-- GSET (R101). Set the glide index. -/
  | gset (e : Fin 32) (j : BitVec 5) (w : Bundle)
  /-- CLRF (R97). Clear selected sticky sat and gov flags. -/
  | clrf (e : Fin 32) (mask : BitVec 8) (w : Bundle)
  /-- PWAIT (R63). Stall until the far request with tag t is complete. -/
  | pwait (e : Fin 32) (t : Fin 16) (w : Bundle)
  /-- BRA (R98). Relative branch with two delay slots. -/
  | bra (e : Fin 32) (rel : BitVec 12) (w : Bundle)
  /-- BC (R98). Conditional relative branch on lane-0 flags or on any gov or sat. -/
  | bc (e : Fin 32) (cond : Fin 8) (rel : BitVec 9) (w : Bundle)
  /-- DJN (R99). Decrement lane 0 of Dd and branch if the result is not zero. -/
  | djn (e : Fin 32) (d : Fin 16) (rel : BitVec 8) (w : Bundle)
  /-- RPT (R100). Repeat the next bundle n times. -/
  | rpt (e : Fin 32) (n : BitVec 12) (w : Bundle)
  /-- RPTW (R100). Repeat the next bundle up to 65,535 times. -/
  | rptw (e : Fin 32) (n : BitVec 16) (w : Bundle)
  /-- JMP (R98). Absolute jump with two delay slots. -/
  | jmp (e : Fin 32) (pc : BitVec 13) (w : Bundle)
  /-- SETP (R97). Set a pointer to an absolute word address. -/
  | setp (e : Fin 32) (i : Fin 8) (addr : BitVec 16) (w : Bundle)
  /-- SETNW (R97). Set a modifier from a 16-bit immediate. -/
  | setnw (e : Fin 32) (i : Fin 8) (imm : BitVec 16) (w : Bundle)
  /-- SETLW (R97). Set a length from a 16-bit immediate. -/
  | setlw (e : Fin 32) (i : Fin 8) (imm : BitVec 16) (w : Bundle)
  /-- END (R102). End the running slice after its bundle. -/
  | endSlice (e : Fin 32) (w : Bundle)
  /-- RTE (R66). Return from an event handler after two delay slots. -/
  | rte (e : Fin 32) (w : Bundle)
  /-- PGET (R92). Queue a far request that copies Pool quads into the exchange window. -/
  | pget (e : Fin 32) (t : Fin 16) (i : Fin 8) (s cnt : Fin 16) (w : Bundle)
  /-- PPUT (R92). Queue a far request that copies exchange-window quads into the Pool. -/
  | pput (e : Fin 32) (t : Fin 16) (i : Fin 8) (s cnt : Fin 16) (w : Bundle)
  /-- FAR_BEAT_SERVE (R197). A two-quad beat of a far request is served at its POOL target ahead of Bus Matrix beats. -/
  | farBeatServe (e : Fin 32)
  /-- FAR_REQUEST_COMPLETE (R62). A far request completes and frees its tag. -/
  | farRequestComplete (e : Fin 32)
  /-- SLICE_TABLE_COMMIT (R106). A write to ENG_SLT_COMMIT requests that the staged table be copied at the next boundary. -/
  | sliceTableCommit (r : Req) (e : Fin 32)
  /-- MIGRATION_START (R122). A start write arms a migration, or is refused with a code. -/
  | migrationStart (r : Req)
  /-- MIGRATION_ABORT (R127). An abort write ends the migration ABORTED or ABORT_LATE. -/
  | migrationAbort (r : Req)
  /-- MIGRATION_LOAD (R124). Before the destination's switch-in, the snapshot and the input history are loaded into the destination window. -/
  | migrationLoad
  /-- MIGRATION_COMPARE (R124). After both slices end in block k+2, the two windows are compared word by word. -/
  | migrationCompare
  /-- BUS_FLIP (R137). A write to MXM_FLIPn requests flips of buses at the next boundary. -/
  | busFlip (r : Req) (n : Fin 8) (flip : Word)
  /-- MORPH_ARM (R149). An arm write arms a morph slot, or is refused. -/
  | morphArm (r : Req) (m : Fin 4) (abort : Bool)
  /-- MORPH_ABORT (R156). An abort write requests a morph abort at the next boundary. -/
  | morphAbort (r : Req) (m : Fin 4)
  /-- BMX_TRANSACTION_ACCEPT (R202). A master's transaction is accepted at its port and checked for page crossing and protection. -/
  | bmxTransactionAccept (t : Txn)
  /-- BMX_ARBITRATION_GRANT (R194). A free target grants the waiting transaction with the highest priority, using round-robin among ties. -/
  | bmxArbitrationGrant (t : Fin 14)
  /-- BMX_BEAT_SERVE (R195). The granted target serves one beat of the transaction. -/
  | bmxBeatServe (t : Fin 16)
  /-- BMX_TRANSACTION_COMPLETE (R195). The target completes the last beat and is released. -/
  | bmxTransactionComplete (t : Fin 16)
  /-- LOCK_TIMEOUT (R196). A locked read with no write within BMX_LOCK_TO cycles releases its lock. -/
  | lockTimeout (t : Fin 14)
  /-- MASTER_RESET (R201). A reset master's ungranted transactions are discarded and its granted ones drain. -/
  | masterReset (m : Fin 12)
  /-- BMX_SLICE_APPLY (R199). A register-slice change takes effect when its port has nothing in flight. -/
  | bmxSliceApply (bit : Fin 32)
  /-- BMX_WINDOW_ATTR_WRITE (R203). A write to a window's ATTR brings the staged base and limit and the new attributes into force together. -/
  | bmxWindowAttrWrite (r : Req) (m : Fin 12) (w : Fin 16) (data : Word)
  /-- EVENT_POST (R209). A write to CLV_POSTp_HDR posts an event and sets RES to OK, BUSY or DENIED. -/
  | eventPost (r : Req) (p : Fin 4) (hdr : Word)
  /-- OUTBOX_POST (R210). Clove reads an engine outbox slot with origin 0b11, accepts or drops it, and writes word 0. -/
  | outboxPost (e : Fin 32) (o : Fin 8)
  /-- EVENT_DELIVER (R214). Clove picks a ready head for an engine or house core and writes it into a delivery slot. -/
  | eventDeliver (d : Dest)
  /-- TIMED_EVENT_DUE (R213). A Timed event becomes due when the STC reaches its stamp. -/
  | timedEventDue (flow : BitVec 12)
  /-- HOST_POP (R216). A write to CLV_HPOP moves a host flow's ready head into CLV_HREC. -/
  | hostPop (r : Req) (q : Fin 64)
  /-- SLOT_MASK_COMMIT (R229). A write to SAPn_COMMIT requests that the staged masks be copied at the next boundary. -/
  | slotMaskCommit (r : Req) (n : Fin 24)
  /-- GROUP_START (R236). A start bit in SAP_GRP_CTRL starts a group at the next boundary. -/
  | groupStart (r : Req) (start : BitVec 4)
  /-- GROUP_STOP (R236). A stop bit in SAP_GRP_CTRL stops a group at the next boundary. -/
  | groupStop (r : Req) (stop : BitVec 4)
  /-- SAP_FRAME (R237). A serial-port frame is received and checked for frame error, slip and lock. -/
  | sapFrame (n : Fin 24) (f : SapFrame)
  /-- SAP_CLOCK_LOSS (R237). No BCLK edge for the limit time marks the clock lost and invalidates samples. -/
  | sapClockLoss (n : Fin 24)
  /-- SAP_RING_WRITE (R233). The port writes a receive block and then its descriptor to the Pool ring. -/
  | sapRingWrite (n : Fin 24)
  /-- SAP_RING_FETCH (R235). The port fetches a transmit ring entry for the block that plays next. -/
  | sapRingFetch (n : Fin 24)
  /-- AES3_FRAME (R243). An AES3 frame is received and checked for violations, parity, block and slip. -/
  | aes3Frame (n : Fin 8) (f : AesFrame)
  /-- AES3_LOCK_LOSS (R243). Missing preambles or invalid subframes unlock the receiver and invalidate samples. -/
  | aes3LockLoss (n : Fin 8)
  /-- AES_TX_COMMIT (R248). A write to AES_TXn_COMMIT stages the channel-status and user bits for the next Z. -/
  | aesTxCommit (r : Req) (n : Fin 8)
  /-- AES_TX_BLOCK_START (R248). The transmitter sends a Z-preamble frame and applies committed channel status. -/
  | aesTxBlockStart (n : Fin 8)
  /-- SRC_COMMIT (R249). A write to SRC_COMMIT requests that staged converter assignments apply at the next boundary. -/
  | srcCommit (r : Req)
  /-- SRC_LOCK (R250). After 4,096 good input frames the converter channel locks and its output fades in. -/
  | srcLock (c : Fin 256)
  /-- MAC_FRAME_RECEIVE (R259). A received frame is checked, filtered and stored in a receive queue or handed to the stream engine. -/
  | macFrameReceive (n : Fin 2) (f : RxFrame)
  /-- MAC_TX_SELECT (R266). When the port can start a frame, it selects the highest eligible class and begins sending. -/
  | macTxSelect (n : Fin 2)
  /-- MAC_TX_COMPLETE (R265). The last bit leaves the port, the descriptor is written back and head advances. -/
  | macTxComplete (n : Fin 2)
  /-- SEG_ABORT (R273). A write to MACn_SEG_ABORT aborts the segmentation send at the head of a class. -/
  | segAbort (r : Req) (n : Fin 2) (abort : BitVec 8)
  /-- TIMESTAMP_POP (R274). A write to MACn_TSQ_POP moves the head stamp into the pop registers. -/
  | timestampPop (r : Req) (n : Fin 2)
  /-- GATE_LIST_COMMIT (R267). A write to MACn_GCL_COMMIT schedules the admin gate list. -/
  | gateListCommit (r : Req) (n : Fin 2)
  /-- GATE_LIST_ACTIVATE (R267). At the scheduled cycle instant the admin list becomes operational. -/
  | gateListActivate (n : Fin 2)
  /-- GATE_INTERVAL_END (R267). A gate-list interval ends and the gates change to the next entry. -/
  | gateIntervalEnd (n : Fin 2)
  /-- PAUSE_EXPIRE (R269). The pause time expires and transmission resumes. -/
  | pauseExpire (n : Fin 2)
  /-- PAUSE_WATCHDOG (R270). Continuous pause reaching the ceiling releases the express classes. -/
  | pauseWatchdog (n : Fin 2)
  /-- LINK_BLOCK_LOCK_TIMER (R256). Block lock held for 1 ms brings the link UP. -/
  | linkBlockLockTimer (n : Fin 2)
  /-- LINK_LOSS (R256). Loss of block lock or a high bit-error rate takes the link to ACQUIRE. -/
  | linkLoss (n : Fin 2)
  /-- REMOTE_FAULT_RECEIVE (R256). A received remote fault moves an UP link to RFAULT. -/
  | remoteFaultReceive (n : Fin 2)
  /-- REMOTE_FAULT_CLEAR (R256). 1 ms without remote fault returns the link to UP. -/
  | remoteFaultClear (n : Fin 2)
  /-- STREAM_PATH_DOWN (R285). A path with no packet for 8 packet times is marked down. -/
  | streamPathDown (s : Fin 128) (pathB : Bool)
  /-- PTP_OFFSET_REPORT (R308). The house firmware reports a port's STC offset from the grandmaster to Saffron. -/
  | ptpOffsetReport (port : Fin 2) (offset : Int) (clockClass clockAccuracy : BitVec 8)
  /-- PTP_ANNOUNCE_TIMEOUT (R290). Three missed Announce intervals report the PTP reference as lost. -/
  | ptpAnnounceTimeout (port : Fin 2)
  /-- STC_STEER_UPDATE (R292). Every microsecond Saffron updates the steer s and the phase slew p. -/
  | stcSteerUpdate
  /-- SAFFRON_WINDOW_END (R300). At the end of each 1 s window Saffron updates reference states, history and selection. -/
  | saffronWindowEnd (meas : List Int)
  /-- REFERENCE_LOS (R297). Loss of signal disqualifies a reference entry at once. -/
  | referenceLos (i : Fin 8)
  /-- STC_SET (R294). A write of STC_SET_CTRL.apply loads the STC while the frame is stopped. -/
  | stcSet (r : Req)
  /-- STC_SNAP (R312). A write to STC_SNAP latches the STC into the snapshot registers. -/
  | stcSnap (r : Req)
  /-- TIMED_START_ARM (R295). A write of arm arms a timed frame start at T_s. -/
  | timedStartArm (r : Req) (cancel : Bool)
  /-- TIMED_START_CANCEL (R295). A write of cancel disarms a timed start. -/
  | timedStartCancel (r : Req)
  /-- TIMED_START (R295). When the STC reaches T_s the device sets run to 1. -/
  | timedStart
  /-- DONGO_FRAME_RECEIVE (R315). A Dongo frame is received, CRC- and sequence-checked, and acted on by kind. -/
  | dongoFrameReceive (n : Fin 4) (bytes : List Byte)
  /-- DONGO_RX_TIMEOUT (R316). No frame for 1 µs takes the link out of UP. -/
  | dongoRxTimeout (n : Fin 4)
  /-- DONGO_TRAIN_TIMEOUT (R316). 10 ms without training success restarts training. -/
  | dongoTrainTimeout (n : Fin 4)
  /-- DONGO_ACK_TIMER (R315). The receiver sends a cumulative ACK at least every 256 ns. -/
  | dongoAckTimer (n : Fin 4)
  /-- DONGO_TIME_SEND (R321). A TIME frame is sent at every tick and every 10 µs. -/
  | dongoTimeSend (n : Fin 4)
  /-- DONGO_DELAY_MEASURE (R321). Each second the link delay is remeasured by a HELLO echo. -/
  | dongoDelayMeasure (n : Fin 4) (roundTrip : BitVec 17)
  /-- DONGO_EVENT_FORWARD (R323). The Dongo unit pops a ready record from its forwarding flow and sends it. -/
  | dongoEventForward (n : Fin 4)
  /-- HEARTBEAT_RECEIVE (R339). An HB_RX edge counts as valid input on path H. -/
  | heartbeatReceive (width : Nat)
  /-- ANISE_RECORD_RECEIVE (R336). A commit, status or delta record arrives on the M path and is verified or compared. -/
  | aniseRecordReceive (a : AniRecord)
  /-- ANISE_PATH_LOSS (R339). hb_to ticks without valid input mark a path lost, or the peer failed. -/
  | anisePathLoss (path : AniPath)
  /-- ANISE_TAKE (R341). ANI_CMD.take makes a standby take over. -/
  | aniseTake (r : Req)
  /-- ANISE_RELEASE (R342). ANI_CMD.release hands the active role to the standby in lockstep. -/
  | aniseRelease (r : Req)
  /-- MIRROR_COPY (R344). ANI_CMD.copy starts a mirror copy to a standby in LOST_SYNC. -/
  | mirrorCopy (r : Req)
  /-- MIRROR_COPY_ABORT (R345). ANI_CMD.copy_abort ends the mirror copy ABORTED or ABORT_LATE. -/
  | mirrorCopyAbort (r : Req)
  /-- MIRROR_SLICE_LOAD (R344). The standby loads a slice record before that slice's switch-in. -/
  | mirrorSliceLoad
  /-- PCIE_TLP_RECEIVE (R349). A host request TLP becomes Bus Matrix transactions and its completion is returned. -/
  | pcieTlpReceive (t : Tlp)
  /-- FUNCTION_LEVEL_RESET (R348). An FLR clears that function's mailbox, MSI-X state and DMA channels. -/
  | functionLevelReset (fn : Fin 2)
  /-- INTERRUPT_REARM (R353). A write to HIF_IREARM resends a vector whose condition is still true. -/
  | interruptRearm (r : Req) (vec : BitVec 8)
  /-- MAILBOX_GO (R354). A write of go starts a mailbox command, sets ovr when busy, or answers BAD_STATE at once. -/
  | mailboxGo (r : Req) (m : Fin 2)
  /-- MAILBOX_ANSWER (R354). The firmware's answer sets done and raises vector 1. -/
  | mailboxAnswer (m : Fin 2) (status : BitVec 8) (rsp : List Word)
  /-- MAILBOX_TIMEOUT (R355). An unanswered command is completed with TIMEOUT. -/
  | mailboxTimeout (m : Fin 2)
  /-- GET_VERSION (R357). Return the image version, core states and shed level. -/
  | getVersion (m : Fin 2)
  /-- GET_STATS (R357). Return a page of 16 statistics counters. -/
  | getStats (m : Fin 2)
  /-- PTP_SET (R357). Configure and start a PTP instance on a port. -/
  | ptpSet (m : Fin 2)
  /-- PTP_STOP (R357). Stop a port's PTP instance and return its resources to the host. -/
  | ptpStop (m : Fin 2)
  /-- PTP_STATUS (R357). Return the state, grandmaster, offset and path delay of a PTP instance. -/
  | ptpStatus (m : Fin 2)
  /-- DISC_SET (R357). Enable or disable SDP discovery announcements on a port. -/
  | discSet (m : Fin 2)
  /-- DISCOVERY_ANNOUNCE (R357). At each interval the firmware announces the session descriptions. -/
  | discoveryAnnounce (port : Fin 2)
  /-- ANI_STATS (R357). Return the Anise takeover and epoch statistics. -/
  | aniStats (m : Fin 2)
  /-- FW_UPDATE (R361). Copy, check and install a new firmware image, then restart both cores. -/
  | fwUpdate (m : Fin 2)
  /-- CORE_RESTART (R359). Restart the house cores named in the mask. -/
  | coreRestart (m : Fin 2)
  /-- SHED_LEVEL_RISE (R358). A core load above 90 % over 10 ms raises the shed level. -/
  | shedLevelRise (load0 load1 : BitVec 8)
  /-- SHED_LEVEL_FALL (R358). Both cores below 70 % for 100 ms lower the shed level. -/
  | shedLevelFall (load0 load1 : BitVec 8)
  /-- HOUSE_WATCHDOG_RESET (R359). A core that misses its watchdog for 100 ms is reset and restarts. -/
  | houseWatchdogReset (c : Fin 2)
  /-- DMA_GO (R363). A write of go starts a DMA channel at its descriptor. -/
  | dmaGo (r : Req) (u : Fin 5) (c : Fin 8)
  /-- DMA_ABORT (R364). A write of abort ends the channel ABORTED or ABORT_LATE at its next transaction boundary. -/
  | dmaAbort (r : Req) (u : Fin 5) (c : Fin 8)
  /-- DMA_TRANSACTION_ISSUE (R363). In its turn, a running channel issues its next transaction, or writes back and follows next. -/
  | dmaTransactionIssue (u : Fin 5) (hostData : List Byte)
  /-- POWER_STATE_REQUEST (R370). A write of PWR_REQ.go requests entry to the target state, or is refused. -/
  | powerStateRequest (r : Req)
  /-- POWER_STATE_ENTER (R371). The device reaches the requested low-power state. -/
  | powerStateEnter
  /-- HOST_WAKE (R372). A write of PWR_REQ.wake ends an S1 stay. -/
  | hostWake (r : Req)
  /-- GPIO_WAKE (R372). An enabled GPIO edge ends a low-power stay. -/
  | gpioWake (n : Fin 16) (falling : Bool)
  /-- AON_TIMER_EXPIRY (R372). The AON timer expires and ends a low-power stay. -/
  | aonTimerExpiry
  /-- POWER_STATE_EXIT (R371). The device returns to Run from S1 to S4. -/
  | powerStateExit
  /-- TEMPERATURE_SAMPLE (R375). Every 100 µs the nine sensors are sampled and T_max is updated. -/
  | temperatureSample (t : List (BitVec 16))
  /-- HOT_COUNT_PERIOD (R376). While stopped and hot, PWR_HOT_CNT counts once per nominal block period. -/
  | hotCountPeriod
  /-- POWER_ON_RESET (R380). PORn low or a VDD_AON drop resets every block and starts the fuse load. -/
  | powerOnReset (pins : PorPins)
  /-- SYSTEM_RESET (R380). A keyed SYS_RST_CTRL write resets all blocks except HIF and the AON registers. -/
  | systemReset (r : Req) (key : BitVec 16) (boot : BitVec 2)
  /-- PCIE_FUNDAMENTAL_RESET (R380). PERST_N low resets as a system reset plus HIF. -/
  | pcieFundamentalReset (boot : BitVec 2)
  /-- FUSE_LOAD_DONE (R381). The fuse load completes, applying hard repairs, IDs, the key hash and the debug lock. -/
  | fuseLoadDone (f : Fuses)
  /-- SELF_TEST_DONE (R183). The memory self-test finishes with soft repair, fencing and zeroing. -/
  | selfTestDone (res : List UnitTest)
  /-- BOOT_HOST_GO (R381). A write of SYS_BOOT_CTRL.go tells the waiting boot ROM that the image is written. -/
  | bootHostGo (r : Req)
  /-- BOOT_FLASH_TIMEOUT (R382). A flash that does not answer within 1 ms fails the boot or falls back to host download. -/
  | bootFlashTimeout
  /-- BOOT_IMAGE_CHECK (R382). The loaded image is checked, and the boot proceeds or stops with an error. -/
  | bootImageCheck (flash : List Byte)
  /-- BOOT_READY (R381). Both house cores start at their entry offsets and ready is set. -/
  | bootReady
  /-- JTAG_INSTRUCTION (R384). An instruction loaded into the TAP selects boundary-scan, IDCODE, BYPASS or debug behaviour. -/
  | jtagInstruction (i : JtagInstr)
  /-- ILLEGAL_OP (R77). A bundle whose slot holds a reserved or undefined encoding reaches issue, does not issue, and faults with ILLEGAL_OP. -/
  | illegalOp (e : Fin 32) (word : DWord)
  /-- DONGO_LANE_LOCK_LOSS (R316). Loss of lane lock on a Dongo link in UP takes it to TRAIN and counts DNG_Ln_DOWN_CNT. -/
  | dongoLaneLockLoss (n : Fin 4)
  /-- REFERENCE_INPUT_EDGE (R297). An edge on WCLK_IN or a pulse on VSYNC_IN is filtered, counted as a glitch, discarded as early or late, or measured against the nearest sample edge. The pulse lasts `width` ns, and its edge, `err` ns from where it was expected, fell `ago` ns before the command. -/
  | referenceInputEdge (video : Bool) (width : Nat) (err : Int) (ago : Nat)
  /-- PCIE_LINK_CHANGE (R366). The PCI Express link comes up, retrains or goes down, which updates HIF_STAT and sets HIF_INT.link_chg. -/
  | pcieLinkChange (up : Bool) (width : BitVec 4) (speed : BitVec 3)
  /-- HOUSE_CORE_RUNNING (R359). A restarting house core finishes re-verifying the image in force and is running again, which updates HSE_CORE_STAT. -/
  | houseCoreRunning (c : Fin 2)
  /-- PTP_MESSAGE_SEND (R289). A running PTP instance sends its Sync, Announce, Delay_Req or Pdelay message when its profile's message interval expires. -/
  | ptpMessageSend (port : Fin 2) (k : PtpMsg)
deriving DecidableEq, Repr

end Sys2Proof
end

