-- ==== Sys2Proof/WellFormed.lean ====
section
/-! DEFINITION. Which commands are well formed: a bundle that a 64-bit word can encode (R73 to R96), and
operands within what their row describes. A command that is not well formed is none the block can be given;
its meaning is defined all the same. -/

namespace Sys2Proof

/-- The control operations of the wide format, which takes the place of the Y slot (R73, R96). -/
def wideCtl : CtlOp → Bool
  | .rptw _ | .jmp _ | .setp .. | .setnw .. | .setlw .. | .pget .. | .pput .. => true
  | _ => false

/-- A bundle as it can be encoded: a wide control operation leaves no Y slot (R73). -/
def Bundle.fit (b : Bundle) : Bundle := if wideCtl b.c then { b with y := .nop } else b

/-- An arithmetic slot with no field that R75 to R77 forbid: NORM's two destinations differ. -/
def ArithOp.wf : ArithOp → Bool
  | .norm d c _ => d != c
  | _ => true

/-- A control slot with no field that R95, R96 and R100 forbid: a repeat count is not 0. -/
def CtlOp.wf : CtlOp → Bool
  | .rpt n => n != 0
  | .rptw n => n != 0
  | _ => true

/-- A bundle that some word encodes (R73, R77, R104). -/
def Bundle.wf (b : Bundle) : Bool := b.a.wf && b.c.wf && (!(wideCtl b.c) || b.y == .nop)

/-- A bundle with a wide control operation has no Y slot (R73). -/
def Slot.fits (sl : Slot) (c : CtlOp) : Bool := sl == .x || !(wideCtl c)

/-- Bytes of a beat at a master's native port (R190): HOUSE0 and HOUSE1 8, HIF 16, DBG 4, the others 32. -/
def portWidth (m : Fin 12) : Nat :=
  if m.val = 4 ∨ m.val = 5 then 8 else if m.val = 6 then 16 else if m.val = 11 then 4 else 32

/-- The 32-byte beats that a burst becomes (R192). -/
def Txn.blocks (t : Txn) : Nat :=
  (t.addr.toNat + portWidth t.master * t.beats.length + 31) / 32 - t.addr.toNat / 32

/-- A transaction as R191 allows one, or a burst of a narrow port (R192): 1 to 16 beats of 32 bytes, more only where the
width converter divides it, which it never does to a locked one; its address is a multiple of the port's width;
only HIF has a Guest. -/
def Txn.wf (t : Txn) : Bool :=
  decide (1 ≤ t.beats.length) && decide (t.addr.toNat % portWidth t.master = 0) &&
    (!t.guest || t.master == 6) &&
    (decide (t.blocks ≤ 16) || (decide (portWidth t.master < 32) && !t.locked))

/-- A register access: only HIF has a Guest (R351). -/
def Req.wf (r : Req) : Bool := !r.guest || r.master == 6

/-- Well-formed commands: the bundle of an instruction, the transaction of an access, the requester of a
register write, and counts within what their row describes. DESIGN CHOICE: assumption 70. -/
def Instr.wf : Instr → Bool
  | .norm _ d c _ w => d != c && w.c.wf && (!(wideCtl w.c) || w.y == .nop)
  | .rpt _ n w => n != 0 && w.a.wf
  | .rptw _ n w => n != 0 && w.a.wf && w.y == .nop
  | .jmp _ _ w | .setp _ _ _ w | .setnw _ _ _ w | .setlw _ _ _ w | .pget _ _ _ _ _ w
  | .pput _ _ _ _ _ w => w.a.wf && w.y == .nop
  | .mac _ _ _ _ w | .msb _ _ _ _ w | .mpy _ _ _ _ w | .mpyn _ _ _ _ w | .macl _ _ _ _ w
  | .msbl _ _ _ _ w | .clr _ _ w | .lda _ _ _ w | .ext _ _ _ _ _ w | .add _ _ _ _ w | .sub _ _ _ _ w
  | .min _ _ _ _ w | .max _ _ _ _ w | .sel _ _ _ _ _ w | .cmp _ _ _ w | .and _ _ _ _ w
  | .or _ _ _ _ w | .xor _ _ _ _ w | .shl _ _ _ _ w | .asr _ _ _ _ w | .scale _ _ _ _ w
  | .expt _ _ _ w | .abs _ _ _ w | .neg _ _ _ w | .mov _ _ _ w | .addi _ _ _ _ w | .cmpi _ _ _ w
  | .shli _ _ _ _ w | .asri _ _ _ _ w | .lsri _ _ _ _ w | .bcst _ _ _ _ w | .movi _ _ _ _ w =>
    w.c.wf && (!(wideCtl w.c) || w.y == .nop)
  | .ldq _ sl _ _ _ w | .ldw _ sl _ _ _ w | .stq _ sl _ _ _ w | .stw _ sl _ _ _ w | .ldr _ sl _ _ _ w
  | .ldl _ sl _ _ _ w | .str _ sl _ _ _ w | .stl _ sl _ _ _ w => w.wf && sl.fits w.c
  | .ldpq _ _ _ w | .setn _ _ _ w | .setl _ _ _ w | .addp _ _ _ w | .mtp _ _ _ w | .mtn _ _ _ w
  | .mtl _ _ _ w | .ei _ w | .di _ w | .gadv _ w | .gset _ _ w | .clrf _ _ w | .pwait _ _ w
  | .bra _ _ w | .bc _ _ _ w | .djn _ _ _ w | .endSlice _ w | .rte _ w => w.a.wf
  | .bmxTransactionAccept t => t.wf
  | .temperatureSample t => t.length == 9
  | .saffronWindowEnd m => m.length == 8
  | .dongoFrameReceive _ bs => decide (bs.length ≤ 1036)
  | .jtagInstruction (.debug t) => t.wf && t.master == 11 && !t.guest
  | .pcieTlpReceive (.read _ _ en) => decide (1 ≤ en.length ∧ en.length ≤ 4096)
  | .pcieTlpReceive (.write _ _ d) => decide (1 ≤ d.length ∧ d.length ≤ 512)
  | .aniseRecordReceive (.fixed ws) => ws.length == 8
  | .sapFrame _ f => decide (f.rise.length ≤ 1025 ∧ f.fall.length ≤ 1025)
  | .fwUpdate _ | .coreRestart _ | .getVersion _ | .getStats _ | .ptpSet _ | .ptpStop _ | .ptpStatus _
  | .discSet _ | .aniStats _ => true
  | .registerWrite r .. | .readClear r _ | .frameRun r .. | .frameStop r .. | .frameFormatChange r ..
  | .splitWrite r _ | .sliceTableCommit r _ | .migrationStart r | .migrationAbort r | .busFlip r ..
  | .morphArm r .. | .morphAbort r _ | .bmxWindowAttrWrite r .. | .eventPost r .. | .hostPop r _
  | .slotMaskCommit r _ | .groupStart r _ | .groupStop r _ | .aesTxCommit r _ | .srcCommit r
  | .segAbort r .. | .timestampPop r _ | .gateListCommit r _ | .stcSet r | .stcSnap r
  | .timedStartArm r _ | .timedStartCancel r | .aniseTake r | .aniseRelease r | .mirrorCopy r
  | .mirrorCopyAbort r | .interruptRearm r _ | .mailboxGo r _ | .dmaGo r .. | .dmaAbort r ..
  | .powerStateRequest r | .hostWake r | .systemReset r .. | .bootHostGo r => r.wf
  | _ => true

end Sys2Proof
end

