-- ==== Sys2Proof/Decode.lean ====
section
/-! DEFINITION. Words and what they spell. The opcode table gives no row any bits, so no word spells a
command. The 64-bit words of Prehotrix do have an encoding (R73 to R76, R90, R92, R95, R96): their decoder,
which answers none for a reserved or undefined encoding, and after it their encoder. -/

namespace Sys2Proof

/-- The command a word spells by the table's bits: the table gives no row any bits.
DESIGN CHOICE: assumption 3. -/
def decodeTableWord (_nbits _w : Nat) : Option Instr := none

/-- Bits `hi` down to `lo` of a number. -/
def fld (w hi lo : Nat) : Nat := w / 2 ^ lo % 2 ^ (hi + 1 - lo)

/-- A register number of 4, 3 or 2 bits. -/
def r16 (n : Nat) : Fin 16 := Fin.ofNat 16 n
def r8 (n : Nat) : Fin 8 := Fin.ofNat 8 n
def r4 (n : Nat) : Fin 4 := Fin.ofNat 4 n

/-- A value if a condition holds: the field checks of R77, R95 and R96. -/
def guarded {α : Type} (c : Bool) (x : α) : Option α := if c then some x else none

/-- The `t` operand of a multiply: with tg = 1 the field must be 0 (R77, R78). -/
def decodeMulT (a : Nat) : Option MulT :=
  if fld a 6 6 = 0 then some (.reg (r16 (fld a 10 7))) else guarded (fld a 10 7 == 0) .g

/-- SEL's condition (R76). -/
def decodeCond (n : Nat) : Option Cond :=
  match n with
  | 0 => some .z
  | 1 => some .nz
  | 2 => some .n
  | 3 => some .nn
  | 4 => some .nOrZ
  | 5 => some .nnAndNz
  | _ => none

/-- EXT's rounding field (R76). -/
def decodeRm (n : Nat) : Option Rm :=
  match n with
  | 0 => some .rne
  | 1 => some .trunc
  | 2 => some .tpdf
  | _ => none

/-- The arithmetic slot (R75 to R77). -/
def decodeArith (a : Nat) : Option ArithOp :=
  let m := r4 (fld a 16 15)
  let s := r16 (fld a 14 11)
  let d := r16 (fld a 16 13)
  let s2 := r16 (fld a 12 9)
  let t := r16 (fld a 8 5)
  let x0 := fld a 4 0 == 0
  match fld a 22 17 with
  | 0x00 => guarded (fld a 16 0 == 0) .nop
  | 0x01 => if fld a 5 0 = 0 then (decodeMulT a).map (.mac m s) else none
  | 0x02 => if fld a 5 0 = 0 then (decodeMulT a).map (.msb m s) else none
  | 0x03 => if fld a 5 0 = 0 then (decodeMulT a).map (.mpy m s) else none
  | 0x04 => if fld a 5 0 = 0 then (decodeMulT a).map (.mpyn m s) else none
  | 0x05 => guarded (fld a 6 0 == 0) (.macl m s (r16 (fld a 10 7)))
  | 0x06 => guarded (fld a 6 0 == 0) (.msbl m s (r16 (fld a 10 7)))
  | 0x08 => guarded (fld a 14 0 == 0) (.clr m)
  | 0x09 => guarded (fld a 10 0 == 0) (.lda m s)
  | 0x0A => if fld a 3 0 = 0 then
      (decodeRm (fld a 10 9)).map (.ext (r16 (fld a 14 11)) m (BitVec.ofNat 5 (fld a 8 4))) else none
  | 0x0B => guarded (fld a 6 0 == 0 && fld a 14 11 != fld a 10 7)
      (.norm (r16 (fld a 14 11)) (r16 (fld a 10 7)) m)
  | 0x10 => guarded x0 (.add d s2 t)
  | 0x11 => guarded x0 (.sub d s2 t)
  | 0x12 => guarded x0 (.min d s2 t)
  | 0x13 => guarded x0 (.max d s2 t)
  | 0x14 => if fld a 1 0 = 0 then (decodeCond (fld a 4 2)).map (.sel d s2 t) else none
  | 0x15 => guarded (x0 && fld a 16 13 == 0) (.cmp s2 t)
  | 0x16 => guarded x0 (.and d s2 t)
  | 0x17 => guarded x0 (.or d s2 t)
  | 0x18 => guarded x0 (.xor d s2 t)
  | 0x19 => guarded x0 (.shl d s2 t)
  | 0x1A => guarded x0 (.asr d s2 t)
  | 0x1B => guarded x0 (.scale d s2 t)
  | 0x1C => guarded (fld a 8 0 == 0) (.expt d s2)
  | 0x1D => guarded (fld a 8 0 == 0) (.abs d s2)
  | 0x1E => guarded (fld a 8 0 == 0) (.neg d s2)
  | 0x1F => guarded (fld a 8 0 == 0) (.mov d s2)
  | 0x20 => some (.addi d s2 (BitVec.ofNat 9 (fld a 8 0)))
  | 0x21 => guarded (fld a 16 13 == 0) (.cmpi s2 (BitVec.ofNat 9 (fld a 8 0)))
  | 0x22 => guarded (fld a 8 5 == 0) (.shli d s2 (BitVec.ofNat 5 (fld a 4 0)))
  | 0x23 => guarded (fld a 8 5 == 0) (.asri d s2 (BitVec.ofNat 5 (fld a 4 0)))
  | 0x24 => guarded (fld a 8 5 == 0) (.lsri d s2 (BitVec.ofNat 5 (fld a 4 0)))
  | 0x25 => guarded (fld a 8 2 == 0) (.bcst d s2 (r4 (fld a 1 0)))
  | n => guarded (decide (0x30 ≤ n)) (.movi (r16 (fld a 19 16)) (BitVec.ofNat 16 (fld a 15 0)) (fld a 20 20 == 1))

/-- A memory slot (R90, R104). -/
def decodeMem (v : Nat) : Option MemOp :=
  let r := fld v 8 5
  let i := r8 (fld v 4 2)
  let j := r4 (fld v 1 0)
  match fld v 11 9 with
  | 0 => if v % 2 ^ 12 = 0 then some .nop else guarded (decide (8 ≤ r)) (.stl (r8 (r - 8)) i j)
  | 1 => some (.ldq (r16 r) i j)
  | 2 => some (.ldw (r16 r) i j)
  | 3 => some (.stq (r16 r) i j)
  | 4 => some (.stw (r16 r) i j)
  | 5 => some (.ldr (r16 r) i j)
  | 6 => guarded (decide (r < 8)) (.ldl (r8 r) i j)
  | _ => some (.str (r16 r) i j)

/-- The 16-bit control slot (R95); a repeat count of 0 is illegal (R100). -/
def decodeCtl (c : Nat) : Option CtlOp :=
  let o := fld c 7 0
  match fld c 15 14 with
  | 0 =>
    match fld c 13 8 with
    | 0x00 => guarded (o == 0) .nop
    | 0x01 => guarded (o == 0) .endSlice
    | 0x02 => guarded (o == 0) .rte
    | 0x03 => guarded (o == 0) .ei
    | 0x04 => guarded (o == 0) .di
    | 0x05 => guarded (o == 0) .gadv
    | 0x06 => guarded (fld c 7 5 == 0) (.gset (BitVec.ofNat 5 (fld c 4 0)))
    | 0x07 => some (.clrf (BitVec.ofNat 8 o))
    | 0x08 => guarded (fld c 7 4 == 0) (.pwait (r16 (fld c 3 0)))
    | 0x09 => guarded (fld c 7 6 == 0) (.addp (r8 (fld c 5 3)) (r8 (fld c 2 0)))
    | 0x0A => guarded (fld c 7 7 == 0) (.mtp (r8 (fld c 6 4)) (r16 (fld c 3 0)))
    | 0x0B => guarded (fld c 7 7 == 0) (.mtn (r8 (fld c 6 4)) (r16 (fld c 3 0)))
    | 0x0C => guarded (fld c 7 7 == 0) (.mtl (r8 (fld c 6 4)) (r16 (fld c 3 0)))
    | _ => none
  | 1 => some (.ldpq (r8 (fld c 13 11)) (BitVec.ofNat 11 (fld c 10 0)))
  | 2 =>
    if fld c 13 13 = 0 then some (.setn (r8 (fld c 12 10)) (BitVec.ofNat 10 (fld c 9 0)))
    else some (.setl (r8 (fld c 12 10)) (BitVec.ofNat 10 (fld c 9 0)))
  | _ =>
    match fld c 13 12 with
    | 0 => some (.bra (BitVec.ofNat 12 (fld c 11 0)))
    | 1 => some (.bc (r8 (fld c 11 9)) (BitVec.ofNat 9 (fld c 8 0)))
    | 2 => some (.djn (r16 (fld c 11 8)) (BitVec.ofNat 8 (fld c 7 0)))
    | _ => guarded (fld c 11 0 != 0) (.rpt (BitVec.ofNat 12 (fld c 11 0)))

/-- The wide control slot (R92, R96). -/
def decodeWide (w : Nat) : Option CtlOp :=
  let i := r8 (fld w 18 16)
  let v := BitVec.ofNat 16 (fld w 15 0)
  let t := r16 (fld w 23 20)
  let pi := r8 (fld w 19 17)
  let s := r16 (fld w 16 13)
  let cnt := r16 (fld w 12 9)
  match fld w 27 24 with
  | 0 => guarded (fld w 23 0 == 0) .nop
  | 1 => guarded (fld w 23 16 == 0 && fld w 15 0 != 0) (.rptw v)
  | 2 => guarded (fld w 23 13 == 0) (.jmp (BitVec.ofNat 13 (fld w 12 0)))
  | 3 => guarded (fld w 23 19 == 0) (.setp i v)
  | 4 => guarded (fld w 23 19 == 0) (.setnw i v)
  | 5 => guarded (fld w 23 19 == 0) (.setlw i v)
  | 6 => guarded (fld w 8 0 == 0) (.pget t pi s cnt)
  | 7 => guarded (fld w 8 0 == 0) (.pput t pi s cnt)
  | _ => none

/-- A bundle from its 64-bit word (R73): none for a reserved or undefined encoding in any slot. -/
def decodeBundle (b : DWord) : Option Bundle :=
  let w := b.toNat
  match decodeArith (fld w 62 40), decodeMem (fld w 39 28) with
  | some a, some x =>
    if fld w 63 63 = 0 then
      match decodeMem (fld w 27 16), decodeCtl (fld w 15 0) with
      | some y, some c => some ⟨a, x, y, c⟩
      | _, _ => none
    else (decodeWide (fld w 27 0)).map (fun c => ⟨a, x, .nop, c⟩)
  | _, _ => none

/-- The `t` and tg fields of a multiply. -/
def encodeMulT : MulT → Nat
  | .reg t => t.val * 2 ^ 7
  | .g => 2 ^ 6

def encodeCond : Cond → Nat
  | .z => 0
  | .nz => 1
  | .n => 2
  | .nn => 3
  | .nOrZ => 4
  | .nnAndNz => 5

def encodeRm : Rm → Nat
  | .rne => 0
  | .trunc => 1
  | .tpdf => 2

/-- Formats M and A: opcode, m and s. -/
def fmtM (op : Nat) (m : Fin 4) (s : Nat) : Nat := op * 2 ^ 17 + m.val * 2 ^ 15 + s * 2 ^ 11

/-- Formats R and I: opcode, d, s and the low nine bits. -/
def fmtR (op : Nat) (d s : Fin 16) (low : Nat) : Nat := op * 2 ^ 17 + d.val * 2 ^ 13 + s.val * 2 ^ 9 + low

/-- The arithmetic slot's 23 bits (R75, R76). -/
def encodeArith : ArithOp → Nat
  | .nop => 0
  | .mac m s t => fmtM 0x01 m s.val + encodeMulT t
  | .msb m s t => fmtM 0x02 m s.val + encodeMulT t
  | .mpy m s t => fmtM 0x03 m s.val + encodeMulT t
  | .mpyn m s t => fmtM 0x04 m s.val + encodeMulT t
  | .macl m s t => fmtM 0x05 m s.val + t.val * 2 ^ 7
  | .msbl m s t => fmtM 0x06 m s.val + t.val * 2 ^ 7
  | .clr m => fmtM 0x08 m 0
  | .lda m s => fmtM 0x09 m s.val
  | .ext d m sh rm => fmtM 0x0A m d.val + encodeRm rm * 2 ^ 9 + sh.toNat * 2 ^ 4
  | .norm d c m => fmtM 0x0B m d.val + c.val * 2 ^ 7
  | .add d s t => fmtR 0x10 d s (t.val * 2 ^ 5)
  | .sub d s t => fmtR 0x11 d s (t.val * 2 ^ 5)
  | .min d s t => fmtR 0x12 d s (t.val * 2 ^ 5)
  | .max d s t => fmtR 0x13 d s (t.val * 2 ^ 5)
  | .sel d s t c => fmtR 0x14 d s (t.val * 2 ^ 5 + encodeCond c * 2 ^ 2)
  | .cmp s t => fmtR 0x15 0 s (t.val * 2 ^ 5)
  | .and d s t => fmtR 0x16 d s (t.val * 2 ^ 5)
  | .or d s t => fmtR 0x17 d s (t.val * 2 ^ 5)
  | .xor d s t => fmtR 0x18 d s (t.val * 2 ^ 5)
  | .shl d s t => fmtR 0x19 d s (t.val * 2 ^ 5)
  | .asr d s t => fmtR 0x1A d s (t.val * 2 ^ 5)
  | .scale d s t => fmtR 0x1B d s (t.val * 2 ^ 5)
  | .expt d s => fmtR 0x1C d s 0
  | .abs d s => fmtR 0x1D d s 0
  | .neg d s => fmtR 0x1E d s 0
  | .mov d s => fmtR 0x1F d s 0
  | .addi d s imm => fmtR 0x20 d s imm.toNat
  | .cmpi s imm => fmtR 0x21 0 s imm.toNat
  | .shli d s imm => fmtR 0x22 d s imm.toNat
  | .asri d s imm => fmtR 0x23 d s imm.toNat
  | .lsri d s imm => fmtR 0x24 d s imm.toNat
  | .bcst d s k => fmtR 0x25 d s k.val
  | .movi d imm h => 0x30 * 2 ^ 17 + (if h then 2 ^ 20 else 0) + d.val * 2 ^ 16 + imm.toNat

/-- A memory slot's 12 bits (R90). -/
def encodeMem : MemOp → Nat
  | .nop => 0
  | .ldq r i j => 1 * 2 ^ 9 + r.val * 2 ^ 5 + i.val * 2 ^ 2 + j.val
  | .ldw r i j => 2 * 2 ^ 9 + r.val * 2 ^ 5 + i.val * 2 ^ 2 + j.val
  | .stq r i j => 3 * 2 ^ 9 + r.val * 2 ^ 5 + i.val * 2 ^ 2 + j.val
  | .stw r i j => 4 * 2 ^ 9 + r.val * 2 ^ 5 + i.val * 2 ^ 2 + j.val
  | .ldr r i j => 5 * 2 ^ 9 + r.val * 2 ^ 5 + i.val * 2 ^ 2 + j.val
  | .ldl r i j => 6 * 2 ^ 9 + r.val * 2 ^ 5 + i.val * 2 ^ 2 + j.val
  | .str r i j => 7 * 2 ^ 9 + r.val * 2 ^ 5 + i.val * 2 ^ 2 + j.val
  | .stl r i j => (r.val + 8) * 2 ^ 5 + i.val * 2 ^ 2 + j.val

/-- The 16-bit control slot (R95), for the operations that have no wide form. -/
def encodeCtl : CtlOp → Nat
  | .nop => 0
  | .endSlice => 0x0100
  | .rte => 0x0200
  | .ei => 0x0300
  | .di => 0x0400
  | .gadv => 0x0500
  | .gset j => 0x0600 + j.toNat
  | .clrf m => 0x0700 + m.toNat
  | .pwait t => 0x0800 + t.val
  | .addp i j => 0x0900 + i.val * 2 ^ 3 + j.val
  | .mtp i d => 0x0A00 + i.val * 2 ^ 4 + d.val
  | .mtn i d => 0x0B00 + i.val * 2 ^ 4 + d.val
  | .mtl i d => 0x0C00 + i.val * 2 ^ 4 + d.val
  | .ldpq i q => 0x4000 + i.val * 2 ^ 11 + q.toNat
  | .setn i v => 0x8000 + i.val * 2 ^ 10 + v.toNat
  | .setl i v => 0xA000 + i.val * 2 ^ 10 + v.toNat
  | .bra rel => 0xC000 + rel.toNat
  | .bc c rel => 0xD000 + c.val * 2 ^ 9 + rel.toNat
  | .djn d rel => 0xE000 + d.val * 2 ^ 8 + rel.toNat
  | .rpt n => 0xF000 + n.toNat
  | .rptw _ | .jmp _ | .setp .. | .setnw .. | .setlw .. | .pget .. | .pput .. => 0

/-- The wide control slot's 28 bits (R92, R96). -/
def encodeWide : CtlOp → Nat
  | .rptw n => 1 * 2 ^ 24 + n.toNat
  | .jmp pc => 2 * 2 ^ 24 + pc.toNat
  | .setp i a => 3 * 2 ^ 24 + i.val * 2 ^ 16 + a.toNat
  | .setnw i v => 4 * 2 ^ 24 + i.val * 2 ^ 16 + v.toNat
  | .setlw i v => 5 * 2 ^ 24 + i.val * 2 ^ 16 + v.toNat
  | .pget t i s c => 6 * 2 ^ 24 + t.val * 2 ^ 20 + i.val * 2 ^ 17 + s.val * 2 ^ 13 + c.val * 2 ^ 9
  | .pput t i s c => 7 * 2 ^ 24 + t.val * 2 ^ 20 + i.val * 2 ^ 17 + s.val * 2 ^ 13 + c.val * 2 ^ 9
  | _ => 0

/-- The word of a bundle (R73). -/
def encodeBundle (b : Bundle) : DWord :=
  let ax := encodeArith b.a * 2 ^ 40 + encodeMem b.x * 2 ^ 28
  BitVec.ofNat 64 (if wideCtl b.c then 2 ^ 63 + ax + encodeWide b.c
    else ax + encodeMem b.y * 2 ^ 16 + encodeCtl b.c)

end Sys2Proof
end

