-- ==== Sys2Proof/Config.lean ====
section
/-! DEFINITION. What an implementation fixes and what the spec leaves open: the silicon revision, and the
free values. A free value is a constant with no body, so no proof can see what it is; each has a row in
the assumption log. -/

namespace Sys2Proof.Config

/-- The silicon revisions of R2. -/
inductive Revision where
  | a0 | a1 | b0
deriving DecidableEq, Repr, Inhabited

/-- SYS_ID of each revision (R2). -/
def sysId : Revision → Word
  | .a0 => 0x512400A0#32
  | .a1 => 0x512400A1#32
  | .b0 => 0x512400B0#32

/-- The revision of this device: fixed when it is made. DESIGN CHOICE: assumption 68. -/
opaque revision : Revision

/-- A value of any width the spec states no result for; `n` is the model's counter `State.free`, which
every use advances. DESIGN CHOICE: assumption 8. -/
opaque freeNat : Nat → Nat

/-- A byte of the house boot ROM (R177 gives its place; its contents are Ilord's).
DESIGN CHOICE: assumption 6. -/
opaque hromByte : Nat → Byte

/-- The sample of sine generator `g`, whose phase is `phase` at level `lvl`: bound only to R174's
accuracy. DESIGN CHOICE: assumption 69. -/
opaque sineSample : (g : Nat) → (phase lvl : Nat) → Word

/-- The impulse response of the pink-noise filter at an engine rate, in units of 2^-32: bound only to R174's
accuracy. DESIGN CHOICE: assumption 69. -/
opaque pinkTaps : (fs : Nat) → List Int

/-- The value at STC time `num` / `den` seconds of the band-limited signal through samples placed at STC times in
ns (R251): bound by the spec to a quality only. DESIGN CHOICE: assumption 91. -/
opaque bandLimited : (samples : List (Int × Word)) → (num : Int) → (den : Nat) → Word

/-- What Saffron's servo moves the steer toward (R304): the spec gives its kind and bandwidth code `bw`, not
its gains; from the phase error in ns, the reference's frequency and the steer in ppt.
DESIGN CHOICE: assumption 37. -/
opaque servo : (bw : Nat) → (phase y s : Int) → Int

/-- The bytes of a frame that the house firmware builds, whose contents the spec leaves to it: the `n`th free
value, for an announcement or a PTP message (R289, R357). DESIGN CHOICE: assumption 57. -/
opaque firmwareFrame : (n : Nat) → (args : List Word) → List Byte

end Sys2Proof.Config
end

