-- ==== Sys2Proof/Machine/Regs.lean ====
section
/-! DEFINITION. The register map: one definition for each register of the spec's summary tables (R5, R13),
with its device address, its reset value (R11) and the access code of each field (R7) as bit masks, and
the look-up of a register by device address. -/

namespace Sys2Proof.Machine

/-- A register: its device address, its reset value and the masks of its fields by access code (R7).
Bits in no mask are read-only or reserved. -/
structure Reg where
  addr  : Nat
  reset : Word
  rw    : Word := 0#32
  w1c   : Word := 0#32
  w1s   : Word := 0#32
  rc    : Word := 0#32
  wo    : Word := 0#32
  /-- Writes from the Guest function have no effect (R11). -/
  owner : Bool := false
deriving DecidableEq, Repr

/-- A row of the register map: the address of its first instance, the stride and count of each index, and
the register at given indices. -/
structure RegRow where
  base : Nat
  dims : List (Nat × Nat)
  reg  : List Nat → Reg

/-- The indices at which a row's offset names one of its instances. -/
def dimsIndex : List (Nat × Nat) → Nat → Option (List Nat)
  | [], off => if off = 0 then some [] else none
  | (stride, count) :: ds, off =>
    let i := off / stride
    if i < count then (dimsIndex ds (off - i * stride)).map (i :: ·) else none

/-- The instance of a row at an address. -/
def RegRow.at? (r : RegRow) (a : Nat) : Option Reg :=
  if a < r.base then none else (dimsIndex r.dims (a - r.base)).map r.reg

/-- Reset of BMX_PRIm_LO: every target's nibble holds the master's default priority (R194, R205). -/
def bmxPriDefault (m : Nat) : Nat :=
  match m with
  | 0 | 1 | 2 | 3 => 8
  | 4 | 5 => 7
  | 6 => 6
  | 7 => 0xC
  | 8 => 0xE
  | 9 => 0xD
  | 10 => 0xA
  | _ => 1

/-- BMX_PRIm_LO at reset. -/
def bmxPriReset (m : Nat) : Word := BitVec.ofNat 32 (0x11111111 * bmxPriDefault m)

/-- BMX_PRIm_HI at reset. -/
def bmxPriResetHi (m : Nat) : Word := BitVec.ofNat 32 (0x111111 * bmxPriDefault m)

/-- PRT_GENg_PAR at reset (R175). -/
def prtParReset (g : Nat) : Word :=
  if g < 8 then 0#32 else if g < 12 then 1#32 else 0xBB80#32

/-- SYS_FRM_CTRL (R43, 02_engine_frame.md). Engine rate, block length, run. -/
def SYS_FRM_CTRL : Reg :=
  { addr := 0x50000100, reset := 0x00000013#32,
    rw := 0x00000133#32 }

/-- SYS_FRM_SPLIT (R43, 02_engine_frame.md). Phase shares. -/
def SYS_FRM_SPLIT : Reg :=
  { addr := 0x50000104, reset := 0x0023142D#32,
    rw := 0x00FFFFFF#32 }

/-- SYS_FRM_PERIOD (R43, 02_engine_frame.md). P_nom. -/
def SYS_FRM_PERIOD : Reg :=
  { addr := 0x50000108, reset := 0x00028B0B#32 }

/-- SYS_FRM_WSTRIP (R43, 02_engine_frame.md). W_strip in force. -/
def SYS_FRM_WSTRIP : Reg :=
  { addr := 0x5000010C, reset := 0x000124F8#32 }

/-- SYS_FRM_WSUM (R43, 02_engine_frame.md). W_sum in force. -/
def SYS_FRM_WSUM : Reg :=
  { addr := 0x50000110, reset := 0x00008235#32 }

/-- SYS_FRM_WBUS (R43, 02_engine_frame.md). W_bus in force. -/
def SYS_FRM_WBUS : Reg :=
  { addr := 0x50000114, reset := 0x0000E3DD#32 }

/-- SYS_FRM_GUARD (R43, 02_engine_frame.md). W_guard in force. -/
def SYS_FRM_GUARD : Reg :=
  { addr := 0x50000118, reset := 0x00000056#32 }

/-- SYS_FRM_BLOCK (R43, 02_engine_frame.md). Current block number. -/
def SYS_FRM_BLOCK : Reg :=
  { addr := 0x5000011C, reset := 0x00000000#32 }

/-- SYS_FRM_TICK_SECL (R43, 02_engine_frame.md). STC seconds at the current block's tick, low 32 bits. -/
def SYS_FRM_TICK_SECL : Reg :=
  { addr := 0x50000120, reset := 0x00000000#32 }

/-- SYS_FRM_TICK_NS (R43, 02_engine_frame.md). STC nanoseconds at the current block's tick. -/
def SYS_FRM_TICK_NS : Reg :=
  { addr := 0x50000124, reset := 0x00000000#32 }

/-- SYS_FRM_DEV (R43, 02_engine_frame.md). Tick interval deviation; a read clears dev_min. -/
def SYS_FRM_DEV : Reg :=
  { addr := 0x50000128, reset := 0x00000000#32,
    rc := 0xFFFF0000#32 }

/-- SYS_FRM_CUT (R43, 02_engine_frame.md). Bus windows closed by a tick. -/
def SYS_FRM_CUT : Reg :=
  { addr := 0x5000012C, reset := 0x00000000#32,
    rc := 0x0000FFFF#32 }

/-- SYS_FRM_STAT (R43, 02_engine_frame.md). Frame state. -/
def SYS_FRM_STAT : Reg :=
  { addr := 0x50000130, reset := 0x00000000#32 }

/-- SYS_FRM_INT (R43, 02_engine_frame.md). Frame interrupt flags. -/
def SYS_FRM_INT : Reg :=
  { addr := 0x50000134, reset := 0x00000000#32,
    w1c := 0x00000007#32 }

/-- SYS_FRM_IEN (R43, 02_engine_frame.md). Frame interrupt enables. -/
def SYS_FRM_IEN : Reg :=
  { addr := 0x50000138, reset := 0x00000000#32,
    rw := 0x00000007#32 }

/-- ENG_ID (R72, 03_gratra_engine.md). Engine and cluster number. -/
def ENG_ID (e : Nat) : Reg :=
  { addr := 0x20070000 + 0x80000 * e, reset := BitVec.ofNat 32 ((e / 8) * 256 + e) }

/-- ENG_CTRL (R72, 03_gratra_engine.md). Sequencer enable. -/
def ENG_CTRL (e : Nat) : Reg :=
  { addr := 0x20070004 + 0x80000 * e, reset := 0x00000000#32,
    rw := 0x00000001#32 }

/-- ENG_STAT (R72, 03_gratra_engine.md). Window, slice and far-queue state. -/
def ENG_STAT (e : Nat) : Reg :=
  { addr := 0x20070008 + 0x80000 * e, reset := 0x00000000#32 }

/-- ENG_RCAP (R72, 03_gratra_engine.md). Repeat ceiling. -/
def ENG_RCAP (e : Nat) : Reg :=
  { addr := 0x2007000C + 0x80000 * e, reset := 0x00000400#32,
    rw := 0x0000FFFF#32 }

/-- ENG_EVT_VEC (R72, 03_gratra_engine.md). Event handler entry PC. -/
def ENG_EVT_VEC (e : Nat) : Reg :=
  { addr := 0x20070010 + 0x80000 * e, reset := 0x00000000#32,
    rw := 0x00001FFF#32 }

/-- ENG_FAULT (R72, 03_gratra_engine.md). First recorded fault. -/
def ENG_FAULT (e : Nat) : Reg :=
  { addr := 0x20070014 + 0x80000 * e, reset := 0x00000000#32 }

/-- ENG_FAULT_CNT (R72, 03_gratra_engine.md). Faults recorded. -/
def ENG_FAULT_CNT (e : Nat) : Reg :=
  { addr := 0x20070018 + 0x80000 * e, reset := 0x00000000#32,
    rc := 0x0000FFFF#32 }

/-- ENG_FSLICE_LO (R72, 03_gratra_engine.md). Faulted slices 0–31. -/
def ENG_FSLICE_LO (e : Nat) : Reg :=
  { addr := 0x2007001C + 0x80000 * e, reset := 0x00000000#32,
    w1c := 0xFFFFFFFF#32 }

/-- ENG_FSLICE_HI (R72, 03_gratra_engine.md). Faulted slices 32–63. -/
def ENG_FSLICE_HI (e : Nat) : Reg :=
  { addr := 0x20070020 + 0x80000 * e, reset := 0x00000000#32,
    w1c := 0xFFFFFFFF#32 }

/-- ENG_INT (R72, 03_gratra_engine.md). Engine interrupt flags. -/
def ENG_INT (e : Nat) : Reg :=
  { addr := 0x20070024 + 0x80000 * e, reset := 0x00000000#32,
    w1c := 0x00000001#32 }

/-- ENG_IEN (R72, 03_gratra_engine.md). Engine interrupt enables. -/
def ENG_IEN (e : Nat) : Reg :=
  { addr := 0x20070028 + 0x80000 * e, reset := 0x00000000#32,
    rw := 0x00000001#32 }

/-- ENG_BUSY (R72, 03_gratra_engine.md). Issue and stall cycles in the last completed block. -/
def ENG_BUSY (e : Nat) : Reg :=
  { addr := 0x2007002C + 0x80000 * e, reset := 0x00000000#32 }

/-- ENG_EVT_CNT (R72, 03_gratra_engine.md). Events taken. -/
def ENG_EVT_CNT (e : Nat) : Reg :=
  { addr := 0x20070030 + 0x80000 * e, reset := 0x00000000#32,
    rc := 0xFFFFFFFF#32 }

/-- ENG_EVT_LATMAX (R72, 03_gratra_engine.md). Largest event latency. -/
def ENG_EVT_LATMAX (e : Nat) : Reg :=
  { addr := 0x20070034 + 0x80000 * e, reset := 0x00000000#32,
    rc := 0x0001FFFF#32 }

/-- ENG_FARQ (R72, 03_gratra_engine.md). Far-queue occupancy. -/
def ENG_FARQ (e : Nat) : Reg :=
  { addr := 0x20070038 + 0x80000 * e, reset := 0x00000000#32 }

/-- ENG_FARQ_LATMAX (R72, 03_gratra_engine.md). Largest far-request latency. -/
def ENG_FARQ_LATMAX (e : Nat) : Reg :=
  { addr := 0x2007003C + 0x80000 * e, reset := 0x00000000#32,
    rc := 0x00001FFF#32 }

/-- ENG_SLT_COMMIT (R130, 06_slices_events.md). Commit the staged table. -/
def ENG_SLT_COMMIT (e : Nat) : Reg :=
  { addr := 0x20070040 + 0x80000 * e, reset := 0x00000000#32,
    w1s := 0x00000001#32 }

/-- ENG_SLT_STAT (R130, 06_slices_events.md). Commit and table status. -/
def ENG_SLT_STAT (e : Nat) : Reg :=
  { addr := 0x20070044 + 0x80000 * e, reset := 0x00000000#32,
    w1c := 0x00000006#32 }

/-- ENG_OVR_CNT (R130, 06_slices_events.md). Windows that ended with RT slices unrun. -/
def ENG_OVR_CNT (e : Nat) : Reg :=
  { addr := 0x20070048 + 0x80000 * e, reset := 0x00000000#32,
    rc := 0x0000FFFF#32 }

/-- ENG_SLT_MEASs (R130, 06_slices_events.md). Measurement of slice s, s = 0–63; a read clears ovr. -/
def ENG_SLT_MEAS (e : Nat) (s : Nat) : Reg :=
  { addr := 0x20070800 + 0x80000 * e + 0x4 * s, reset := 0x00000000#32,
    rc := 0xFF000000#32 }

/-- SLTs_CTRL (R130, 06_slices_events.md). Slice s: valid, phase, class, entry. -/
def SLT_CTRL (e : Nat) (s : Nat) : Reg :=
  { addr := 0x20071000 + 0x80000 * e + 0x20 * s, reset := 0x00000000#32,
    rw := 0xF0001FFF#32 }

/-- SLTs_BASE (R130, 06_slices_events.md). Slice s: base and dither key. -/
def SLT_BASE (e : Nat) (s : Nat) : Reg :=
  { addr := 0x20071004 + 0x80000 * e + 0x20 * s, reset := 0x00000000#32,
    rw := 0xFFFF3FFF#32 }

/-- SLTs_BUDGET (R130, 06_slices_events.md). Slice s: cycle budget. -/
def SLT_BUDGET (e : Nat) (s : Nat) : Reg :=
  { addr := 0x20071008 + 0x80000 * e + 0x20 * s, reset := 0x00000000#32,
    rw := 0x000FFFFF#32 }

/-- SLTs_EVT (R130, 06_slices_events.md). Slice s: event mask and reports. -/
def SLT_EVT (e : Nat) (s : Nat) : Reg :=
  { addr := 0x2007100C + 0x80000 * e + 0x20 * s, reset := 0x00000000#32,
    rw := 0x0007FFFF#32 }

/-- SLTs_TAPS (R130, 06_slices_events.md). Slice s: taps. -/
def SLT_TAPS (e : Nat) (s : Nat) : Reg :=
  { addr := 0x20071010 + 0x80000 * e + 0x20 * s, reset := 0x00000000#32,
    rw := 0xFF7F7F7F#32 }

/-- SLTs_SIZE0 (R130, 06_slices_events.md). Slice s: input and output sizes. -/
def SLT_SIZE0 (e : Nat) (s : Nat) : Reg :=
  { addr := 0x20071014 + 0x80000 * e + 0x20 * s, reset := 0x00000000#32,
    rw := 0x0FFF0FFF#32 }

/-- SLTs_SIZE1 (R130, 06_slices_events.md). Slice s: state and coefficient sizes. -/
def SLT_SIZE1 (e : Nat) (s : Nat) : Reg :=
  { addr := 0x20071018 + 0x80000 * e + 0x20 * s, reset := 0x00000000#32,
    rw := 0x0FFF0FFF#32 }

/-- SLTs_SIZE2 (R130, 06_slices_events.md). Slice s: scratch size. -/
def SLT_SIZE2 (e : Nat) (s : Nat) : Reg :=
  { addr := 0x2007101C + 0x80000 * e + 0x20 * s, reset := 0x00000000#32,
    rw := 0x00000FFF#32 }

/-- CLV_MIG_SRC (R131, 06_slices_events.md). Source slice ID. -/
def CLV_MIG_SRC : Reg :=
  { addr := 0x50032000, reset := 0x00000000#32,
    rw := 0x000007FF#32 }

/-- CLV_MIG_DST (R131, 06_slices_events.md). Destination slice ID and base. -/
def CLV_MIG_DST : Reg :=
  { addr := 0x50032004, reset := 0x00000000#32,
    rw := 0x3FFF07FF#32 }

/-- CLV_MIG_TAPS (R131, 06_slices_events.md). Destination tap bases. -/
def CLV_MIG_TAPS : Reg :=
  { addr := 0x50032008, reset := 0x00000000#32,
    rw := 0x007F007F#32 }

/-- CLV_MIG_POOL (R131, 06_slices_events.md). Pool region offset. -/
def CLV_MIG_POOL : Reg :=
  { addr := 0x5003200C, reset := 0x00000000#32,
    rw := 0x01FFFFF0#32 }

/-- CLV_MIG_BLOCK (R131, 06_slices_events.md). Snapshot block k. -/
def CLV_MIG_BLOCK : Reg :=
  { addr := 0x50032010, reset := 0x00000000#32,
    rw := 0xFFFFFFFF#32 }

/-- CLV_MIG_CTRL (R131, 06_slices_events.md). Start and abort. -/
def CLV_MIG_CTRL : Reg :=
  { addr := 0x50032014, reset := 0x00000000#32,
    w1s := 0x00000003#32 }

/-- CLV_MIG_STAT (R131, 06_slices_events.md). Progress, status and cause. -/
def CLV_MIG_STAT : Reg :=
  { addr := 0x50032018, reset := 0x00000000#32,
    w1c := 0x00030000#32 }

/-- CLV_MIG_DIFF (R131, 06_slices_events.md). First mismatch. -/
def CLV_MIG_DIFF : Reg :=
  { addr := 0x5003201C, reset := 0x00000000#32 }

/-- MXM_STAT (R145, 07_mix_matrix.md). Matrix state. -/
def MXM_STAT : Reg :=
  { addr := 0x500E0000, reset := 0x00000000#32 }

/-- MXM_INT (R145, 07_mix_matrix.md). Interrupt flags. -/
def MXM_INT : Reg :=
  { addr := 0x500E0004, reset := 0x00000000#32,
    w1c := 0x00000007#32 }

/-- MXM_IEN (R145, 07_mix_matrix.md). Interrupt enables. -/
def MXM_IEN : Reg :=
  { addr := 0x500E0008, reset := 0x00000000#32,
    rw := 0x00000007#32 }

/-- MXM_SAT_CNT (R145, 07_mix_matrix.md). Saturated output samples. -/
def MXM_SAT_CNT : Reg :=
  { addr := 0x500E000C, reset := 0x00000000#32,
    rc := 0xFFFFFFFF#32 }

/-- MXM_CLOST_CNT (R145, 07_mix_matrix.md). Missing cascade terms, per bus per block. -/
def MXM_CLOST_CNT : Reg :=
  { addr := 0x500E0010, reset := 0x00000000#32,
    rc := 0xFFFFFFFF#32 }

/-- MXM_HOLD_CNT (R145, 07_mix_matrix.md). Gain-memory accesses held under R135. -/
def MXM_HOLD_CNT : Reg :=
  { addr := 0x500E0014, reset := 0x00000000#32,
    rc := 0xFFFFFFFF#32 }

/-- MXM_FLIPn (R145, 07_mix_matrix.md). Flip request, buses 32n to 32n + 31, n = 0–7. -/
def MXM_FLIP (n : Nat) : Reg :=
  { addr := 0x500E0040 + 0x4 * n, reset := 0x00000000#32,
    w1s := 0xFFFFFFFF#32 }

/-- MXM_SATn (R145, 07_mix_matrix.md). Saturation flags, buses 32n to 32n + 31. -/
def MXM_SAT (n : Nat) : Reg :=
  { addr := 0x500E0080 + 0x4 * n, reset := 0x00000000#32,
    w1c := 0xFFFFFFFF#32 }

/-- MXM_CLOSTn (R145, 07_mix_matrix.md). Lost-cascade flags, buses 32n to 32n + 31. -/
def MXM_CLOST (n : Nat) : Reg :=
  { addr := 0x500E00A0 + 0x4 * n, reset := 0x00000000#32,
    w1c := 0xFFFFFFFF#32 }

/-- MXM_GLIDEn (R145, 07_mix_matrix.md). Bus-glide state, buses 32n to 32n + 31. -/
def MXM_GLIDE (n : Nat) : Reg :=
  { addr := 0x500E00C0 + 0x4 * n, reset := 0x00000000#32 }

/-- MXM_BUSb (R145, 07_mix_matrix.md). Bus b: headroom, flip length, bank, b = 0–255. -/
def MXM_BUS (b : Nat) : Reg :=
  { addr := 0x500E0400 + 0x4 * b, reset := 0x00000040#32,
    rw := 0x01FFFFFF#32 }

/-- MXM_MRm_CTRL (R158, 08_scene_morph.md). Arm and abort. -/
def MXM_MR_CTRL (m : Nat) : Reg :=
  { addr := 0x500E1000 + 0x100 * m, reset := 0x00000000#32,
    w1s := 0x00000003#32 }

/-- MXM_MRm_CFG (R158, 08_scene_morph.md). Length, bus bank, lane direction. -/
def MXM_MR_CFG (m : Nat) : Reg :=
  { addr := 0x500E1004 + 0x100 * m, reset := 0x00000040#32,
    rw := 0x300FFFFF#32 }

/-- MXM_MRm_TSECH (R158, 08_scene_morph.md). T seconds [47:32]. -/
def MXM_MR_TSECH (m : Nat) : Reg :=
  { addr := 0x500E1008 + 0x100 * m, reset := 0x00000000#32,
    rw := 0x0000FFFF#32 }

/-- MXM_MRm_TSECL (R158, 08_scene_morph.md). T seconds [31:0]. -/
def MXM_MR_TSECL (m : Nat) : Reg :=
  { addr := 0x500E100C + 0x100 * m, reset := 0x00000000#32,
    rw := 0xFFFFFFFF#32 }

/-- MXM_MRm_TNS (R158, 08_scene_morph.md). T nanoseconds. -/
def MXM_MR_TNS (m : Nat) : Reg :=
  { addr := 0x500E1010 + 0x100 * m, reset := 0x00000000#32,
    rw := 0x3FFFFFFF#32 }

/-- MXM_MRm_STAT (R158, 08_scene_morph.md). State and outcome. -/
def MXM_MR_STAT (m : Nat) : Reg :=
  { addr := 0x500E1014 + 0x100 * m, reset := 0x00000000#32,
    w1c := 0xC0000000#32 }

/-- MXM_MRm_SBLK (R158, 08_scene_morph.md). Block in which the slot started. -/
def MXM_MR_SBLK (m : Nat) : Reg :=
  { addr := 0x500E1018 + 0x100 * m, reset := 0x00000000#32 }

/-- MXM_MRm_BUSi (R158, 08_scene_morph.md). Bus mask, buses 32i to 32i + 31, i = 0–7. -/
def MXM_MR_BUS (m : Nat) (i : Nat) : Reg :=
  { addr := 0x500E1040 + 0x100 * m + 0x4 * i, reset := 0x00000000#32,
    rw := 0xFFFFFFFF#32 }

/-- MXM_MR_INT (R158, 08_scene_morph.md). Morph interrupt flags. -/
def MXM_MR_INT : Reg :=
  { addr := 0x500E1800, reset := 0x00000000#32,
    w1c := 0x0000000F#32 }

/-- MXM_MR_IEN (R158, 08_scene_morph.md). Morph interrupt enables. -/
def MXM_MR_IEN : Reg :=
  { addr := 0x500E1804, reset := 0x00000000#32,
    rw := 0x0000000F#32 }

/-- ENG_MRPHs (R159, 08_scene_morph.md). Slice s: lane membership per slot, bank bits. -/
def ENG_MRPH (e : Nat) (s : Nat) : Reg :=
  { addr := 0x20071800 + 0x80000 * e + 0x4 * s, reset := 0x00000000#32,
    rw := 0x0000FFFF#32 }

/-- ENG_MXBUDs (R159, 08_scene_morph.md). Slice s: extra budget while in morph. -/
def ENG_MXBUD (e : Nat) (s : Nat) : Reg :=
  { addr := 0x20071900 + 0x80000 * e + 0x4 * s, reset := 0x00000000#32,
    rw := 0x000FFFFF#32 }

/-- PRT_CTRL (R175, 09_patch_router.md). Route hold. -/
def PRT_CTRL : Reg :=
  { addr := 0x500F0000, reset := 0x00000000#32,
    rw := 0x00000001#32 }

/-- PRT_STAT (R175, 09_patch_router.md). Pending and crossfading sinks. -/
def PRT_STAT : Reg :=
  { addr := 0x500F0004, reset := 0x00000000#32 }

/-- PRT_INT (R175, 09_patch_router.md). Interrupt flags. -/
def PRT_INT : Reg :=
  { addr := 0x500F0008, reset := 0x00000000#32,
    w1c := 0x0000000F#32 }

/-- PRT_IEN (R175, 09_patch_router.md). Interrupt enables. -/
def PRT_IEN : Reg :=
  { addr := 0x500F000C, reset := 0x00000000#32,
    rw := 0x0000000F#32 }

/-- PRT_INV_CNT (R175, 09_patch_router.md). Sink-blocks with a reserved source. -/
def PRT_INV_CNT : Reg :=
  { addr := 0x500F0010, reset := 0x00000000#32,
    rc := 0xFFFFFFFF#32 }

/-- PRT_LATE_CNT (R175, 09_patch_router.md). Late collections. -/
def PRT_LATE_CNT : Reg :=
  { addr := 0x500F0014, reset := 0x00000000#32,
    rc := 0xFFFFFFFF#32 }

/-- PRT_DEFER_CNT (R175, 09_patch_router.md). Sink-blocks with a deferred change. -/
def PRT_DEFER_CNT : Reg :=
  { addr := 0x500F0018, reset := 0x00000000#32,
    rc := 0xFFFFFFFF#32 }

/-- PRT_LATE_ENG (R175, 09_patch_router.md). Engines with a late collection. -/
def PRT_LATE_ENG : Reg :=
  { addr := 0x500F001C, reset := 0x00000000#32,
    w1c := 0xFFFFFFFF#32 }

/-- PRT_PEEK_IDX (R175, 09_patch_router.md). Sink to inspect. -/
def PRT_PEEK_IDX : Reg :=
  { addr := 0x500F0020, reset := 0x00000000#32,
    rw := 0x00001FFF#32 }

/-- PRT_PEEK_ENT (R175, 09_patch_router.md). In-force entry of that sink. -/
def PRT_PEEK_ENT : Reg :=
  { addr := 0x500F0024, reset := 0x00400000#32 }

/-- PRT_PEEK_TERMS (R175, 09_patch_router.md). Live terms of that sink. -/
def PRT_PEEK_TERMS : Reg :=
  { addr := 0x500F0028, reset := 0x00000000#32 }

/-- PRT_INVn (R175, 09_patch_router.md). Reserved-source flags, sinks 32n to 32n + 31, n = 0–255. -/
def PRT_INV (n : Nat) : Reg :=
  { addr := 0x500F0100 + 0x4 * n, reset := 0x00000000#32,
    w1c := 0xFFFFFFFF#32 }

/-- PRT_GENg_CFG (R175, 09_patch_router.md). Generator g run and polarity, g = 0–12. -/
def PRT_GEN_CFG (g : Nat) : Reg :=
  { addr := 0x500F0800 + 0x10 * g, reset := 0x00000000#32,
    rw := 0x00000003#32 }

/-- PRT_GENg_LVL (R175, 09_patch_router.md). Generator g level. -/
def PRT_GEN_LVL (g : Nat) : Reg :=
  { addr := 0x500F0804 + 0x10 * g, reset := 0x00000000#32,
    rw := 0xFFFFFFFF#32 }

/-- PRT_GENg_PAR (R175, 09_patch_router.md). Generator g increment, seed or period. -/
def PRT_GEN_PAR (g : Nat) : Reg :=
  { addr := 0x500F0808 + 0x10 * g, reset := prtParReset g,
    rw := if g = 12 then 0x000FFFFF#32 else 0xFFFFFFFF#32 }

/-- TST_MEM_STAT (R187, 10_memories.md). Self-test state and count of fenced units. -/
def TST_MEM_STAT : Reg :=
  { addr := 0x50130400, reset := 0x00000000#32 }

/-- TST_MEM_REP (R187, 10_memories.md). Spare columns in use. -/
def TST_MEM_REP : Reg :=
  { addr := 0x50130404, reset := 0x00000000#32 }

/-- TST_MEM_FENCE_CNT (R187, 10_memories.md). Accesses to fenced units. -/
def TST_MEM_FENCE_CNT : Reg :=
  { addr := 0x50130408, reset := 0x00000000#32,
    rc := 0xFFFFFFFF#32 }

/-- TST_MEM_FENCE_LOG (R187, 10_memories.md). First access to a fenced unit. -/
def TST_MEM_FENCE_LOG : Reg :=
  { addr := 0x5013040C, reset := 0x00000000#32,
    w1c := 0x80000000#32 }

/-- TST_MEM_UNIT (R187, 10_memories.md). Unit to inspect. -/
def TST_MEM_UNIT : Reg :=
  { addr := 0x50130410, reset := 0x00000000#32,
    rw := 0x000003FF#32 }

/-- TST_MEM_UINFO (R187, 10_memories.md). Repair state of that unit. -/
def TST_MEM_UINFO : Reg :=
  { addr := 0x50130414, reset := 0x00000000#32 }

/-- TST_MEM_BADn (R187, 10_memories.md). Fenced-unit bitmap, units 32n to 32n + 31, n = 0–22. -/
def TST_MEM_BAD (n : Nat) : Reg :=
  { addr := 0x50130440 + 0x4 * n, reset := 0x00000000#32 }

/-- ENG_XW_CTRL (R188, 10_memories.md). Exchange-window two-write rule. -/
def ENG_XW_CTRL (e : Nat) : Reg :=
  { addr := 0x2007004C + 0x80000 * e, reset := 0x00000000#32,
    rw := 0x00000001#32 }

/-- ENG_XW_CNT (R188, 10_memories.md). Cycles with a two-port write collision. -/
def ENG_XW_CNT (e : Nat) : Reg :=
  { addr := 0x20070050 + 0x80000 * e, reset := 0x00000000#32,
    rc := 0x0000FFFF#32 }

/-- BMX_STAT (R205, 11_bus_matrix.md). Held targets and masters in reset. -/
def BMX_STAT : Reg :=
  { addr := 0x50020000, reset := 0x00000000#32 }

/-- BMX_INT (R205, 11_bus_matrix.md). Interrupt flags. -/
def BMX_INT : Reg :=
  { addr := 0x50020004, reset := 0x00000000#32,
    w1c := 0x00000003#32 }

/-- BMX_IEN (R205, 11_bus_matrix.md). Interrupt enables. -/
def BMX_IEN : Reg :=
  { addr := 0x50020008, reset := 0x00000000#32,
    rw := 0x00000003#32 }

/-- BMX_ERR_CNT (R205, 11_bus_matrix.md). Errors and master resets. -/
def BMX_ERR_CNT : Reg :=
  { addr := 0x5002000C, reset := 0x00000000#32,
    rc := 0xFFFFFFFF#32 }

/-- BMX_ERRLOG (R205, 11_bus_matrix.md). First recorded error. -/
def BMX_ERRLOG : Reg :=
  { addr := 0x50020010, reset := 0x00000000#32,
    w1c := 0x80000000#32 }

/-- BMX_ERRADDR (R205, 11_bus_matrix.md). Start address of that transaction. -/
def BMX_ERRADDR : Reg :=
  { addr := 0x50020014, reset := 0x00000000#32 }

/-- BMX_FARERR (R205, 11_bus_matrix.md). First far transfer to a fenced bank. -/
def BMX_FARERR : Reg :=
  { addr := 0x50020018, reset := 0x00000000#32,
    w1c := 0x80000000#32 }

/-- BMX_FARERR_CNT (R205, 11_bus_matrix.md). Far transfers to fenced banks. -/
def BMX_FARERR_CNT : Reg :=
  { addr := 0x5002001C, reset := 0x00000000#32,
    rc := 0xFFFFFFFF#32 }

/-- BMX_SLICE (R205, 11_bus_matrix.md). Register-slice enables. -/
def BMX_SLICE : Reg :=
  { addr := 0x50020020, reset := 0x00000000#32,
    rw := 0x3FFF0FFF#32, owner := true }

/-- BMX_SLICE_STAT (R205, 11_bus_matrix.md). Slice changes pending. -/
def BMX_SLICE_STAT : Reg :=
  { addr := 0x50020024, reset := 0x00000000#32,
    owner := true }

/-- BMX_LOCK_TO (R205, 11_bus_matrix.md). Lock timeout. -/
def BMX_LOCK_TO : Reg :=
  { addr := 0x50020028, reset := 0x00000040#32,
    rw := 0x000003FF#32, owner := true }

/-- BMX_WAITMAXm (R205, 11_bus_matrix.md). Longest wait of master m, m = 0–11. -/
def BMX_WAITMAX (m : Nat) : Reg :=
  { addr := 0x50020040 + 0x4 * m, reset := 0x00000000#32,
    rc := 0x0000FFFF#32 }

/-- BMX_PRIm_LO (R205, 11_bus_matrix.md). Priorities of master m at targets 0–7. -/
def BMX_PRI_LO (m : Nat) : Reg :=
  { addr := 0x50020100 + 0x8 * m, reset := bmxPriReset m,
    rw := 0xFFFFFFFF#32, owner := true }

/-- BMX_PRIm_HI (R205, 11_bus_matrix.md). Priorities of master m at targets 8–13. -/
def BMX_PRI_HI (m : Nat) : Reg :=
  { addr := 0x50020104 + 0x8 * m, reset := bmxPriResetHi m,
    rw := 0x00FFFFFF#32, owner := true }

/-- BMX_WINm_w_BASE (R205, 11_bus_matrix.md). Staged base, window w = 0–15. -/
def BMX_WIN_BASE (m : Nat) (w : Nat) : Reg :=
  { addr := 0x50021000 + 0x100 * m + 0x10 * w, reset := 0x00000000#32,
    rw := 0xFFFFF000#32, owner := true }

/-- BMX_WINm_w_LIMIT (R205, 11_bus_matrix.md). Staged limit. -/
def BMX_WIN_LIMIT (m : Nat) (w : Nat) : Reg :=
  { addr := 0x50021004 + 0x100 * m + 0x10 * w, reset := if w = 0 then 0xFFFFF000#32 else 0#32,
    rw := 0xFFFFF000#32, owner := true }

/-- BMX_WINm_w_ATTR (R205, 11_bus_matrix.md). Enable and permissions; a write applies the staged base and limit. -/
def BMX_WIN_ATTR (m : Nat) (w : Nat) : Reg :=
  { addr := 0x50021008 + 0x100 * m + 0x10 * w, reset := if w = 0 then 0x80000003#32 else 0#32,
    rw := 0x8000000F#32, owner := true }

/-- CLV_STAT (R221, 12_clove.md). Free buffers. -/
def CLV_STAT : Reg :=
  { addr := 0x50030000, reset := 0x00001000#32 }

/-- CLV_INT (R221, 12_clove.md). Interrupt flags. -/
def CLV_INT : Reg :=
  { addr := 0x50030004, reset := 0x00000000#32,
    w1c := 0x00000007#32 }

/-- CLV_IEN (R221, 12_clove.md). Interrupt enables. -/
def CLV_IEN : Reg :=
  { addr := 0x50030008, reset := 0x00000000#32,
    rw := 0x00000007#32 }

/-- CLV_QCFG (R221, 12_clove.md). Urgent reserve, per-flow limit. -/
def CLV_QCFG : Reg :=
  { addr := 0x5003000C, reset := 0x01000040#32,
    rw := 0x0FFF07FF#32 }

/-- CLV_BGCOST (R221, 12_clove.md). Background cost per destination. -/
def CLV_BGCOST : Reg :=
  { addr := 0x50030010, reset := 0x00010101#32,
    rw := 0x00FFFFFF#32 }

/-- CLV_BGCAP (R221, 12_clove.md). Allowance ceiling. -/
def CLV_BGCAP : Reg :=
  { addr := 0x50030014, reset := 0x00004000#32,
    rw := 0x00FFFFFF#32 }

/-- CLV_BGALLOW (R221, 12_clove.md). Allowance A. -/
def CLV_BGALLOW : Reg :=
  { addr := 0x50030018, reset := 0x00000000#32 }

/-- CLV_BGWAIT_CNT (R221, 12_clove.md). Blocks with a budget wait. -/
def CLV_BGWAIT_CNT : Reg :=
  { addr := 0x5003001C, reset := 0x00000000#32,
    rc := 0xFFFFFFFF#32 }

/-- CLV_SEQ (R221, 12_clove.md). Last sequence number assigned. -/
def CLV_SEQ : Reg :=
  { addr := 0x50030020, reset := 0x00000000#32 }

/-- CLV_SEQ_APPLIED (R221, 12_clove.md). R219. -/
def CLV_SEQ_APPLIED : Reg :=
  { addr := 0x50030024, reset := 0x00000000#32 }

/-- CLV_DISC_CNT (R221, 12_clove.md). Events discarded under R119. -/
def CLV_DISC_CNT : Reg :=
  { addr := 0x50030028, reset := 0x00000000#32,
    rc := 0xFFFFFFFF#32 }

/-- CLV_STALE_CNT (R221, 12_clove.md). Records discarded under R218. -/
def CLV_STALE_CNT : Reg :=
  { addr := 0x5003002C, reset := 0x00000000#32,
    rc := 0xFFFFFFFF#32 }

/-- CLV_DROP_CNT (R221, 12_clove.md). Outbox records and reports dropped. -/
def CLV_DROP_CNT : Reg :=
  { addr := 0x50030030, reset := 0x00000000#32,
    rc := 0xFFFFFFFF#32 }

/-- CLV_BUSY_CNT (R221, 12_clove.md). Posts refused BUSY. -/
def CLV_BUSY_CNT : Reg :=
  { addr := 0x50030034, reset := 0x00000000#32,
    rc := 0xFFFFFFFF#32 }

/-- CLV_BADPOST_CNT (R221, 12_clove.md). Outbox records with a bad header. -/
def CLV_BADPOST_CNT : Reg :=
  { addr := 0x50030038, reset := 0x00000000#32,
    rc := 0xFFFFFFFF#32 }

/-- CLV_FLOW_SEL (R221, 12_clove.md). Flow to inspect. -/
def CLV_FLOW_SEL : Reg :=
  { addr := 0x50030040, reset := 0x00000000#32,
    rw := 0x00000FFF#32 }

/-- CLV_FLOW_STAT (R221, 12_clove.md). State of that flow. -/
def CLV_FLOW_STAT : Reg :=
  { addr := 0x50030044, reset := 0x00000000#32 }

/-- CLV_HNEi (R221, 12_clove.md). Host flows with a ready head, i = 0–1. -/
def CLV_HNE (i : Nat) : Reg :=
  { addr := 0x50030080 + 0x4 * i, reset := 0x00000000#32 }

/-- CLV_POSTp_HDR (R221, 12_clove.md). Post header; the write posts. -/
def CLV_POST_HDR (p : Nat) : Reg :=
  { addr := 0x50030100 + 0x40 * p, reset := 0x00000000#32,
    wo := 0x00FFCFFF#32, owner := decide (p = 0) }

/-- CLV_POSTp_TSEC (R221, 12_clove.md). Due seconds [31:0]. -/
def CLV_POST_TSEC (p : Nat) : Reg :=
  { addr := 0x50030104 + 0x40 * p, reset := 0x00000000#32,
    rw := 0xFFFFFFFF#32 }

/-- CLV_POSTp_TNS (R221, 12_clove.md). Due nanoseconds. -/
def CLV_POST_TNS (p : Nat) : Reg :=
  { addr := 0x50030108 + 0x40 * p, reset := 0x00000000#32,
    rw := 0x3FFFFFFF#32 }

/-- CLV_POSTp_Pk (R221, 12_clove.md). Payload word k, k = 0–4. -/
def CLV_POST_P (p : Nat) (k : Nat) : Reg :=
  { addr := 0x5003010C + 0x40 * p + 0x4 * k, reset := 0x00000000#32,
    rw := 0xFFFFFFFF#32 }

/-- CLV_POSTp_RES (R221, 12_clove.md). Outcome of the last post. -/
def CLV_POST_RES (p : Nat) : Reg :=
  { addr := 0x50030120 + 0x40 * p, reset := 0x00000000#32 }

/-- CLV_POSTp_SEQ (R221, 12_clove.md). Sequence number of the last OK post, ports 0 and 1. -/
def CLV_POST_SEQ (p : Nat) : Reg :=
  { addr := 0x50030124 + 0x40 * p, reset := 0x00000000#32 }

/-- CLV_HPOP (R221, 12_clove.md). Pop a host flow. -/
def CLV_HPOP : Reg :=
  { addr := 0x50030200, reset := 0x00000000#32,
    wo := 0x0000003F#32 }

/-- CLV_HPOP_STAT (R221, 12_clove.md). Outcome of the last pop. -/
def CLV_HPOP_STAT : Reg :=
  { addr := 0x50030204, reset := 0x00000000#32 }

/-- CLV_HRECw (R221, 12_clove.md). Popped record word w, w = 0–7. -/
def CLV_HREC (w : Nat) : Reg :=
  { addr := 0x50030220 + 0x4 * w, reset := 0x00000000#32 }

/-- SAPn_CTRL (R239, 13_serial_audio.md). Enable, mode, rings, group. -/
def SAP_CTRL (n : Nat) : Reg :=
  { addr := 0x50060000 + 0x100 * n, reset := 0x00000000#32,
    rw := 0x0000073F#32 }

/-- SAPn_FMT (R239, 13_serial_audio.md). Format. -/
def SAP_FMT (n : Nat) : Reg :=
  { addr := 0x50060004 + 0x100 * n, reset := 0x0000001C#32,
    rw := 0x00001FFF#32 }

/-- SAPn_RXMASK (R239, 13_serial_audio.md). Staged receive mask. -/
def SAP_RXMASK (n : Nat) : Reg :=
  { addr := 0x50060008 + 0x100 * n, reset := 0xFFFFFFFF#32,
    rw := 0xFFFFFFFF#32 }

/-- SAPn_TXMASK (R239, 13_serial_audio.md). Staged transmit mask. -/
def SAP_TXMASK (n : Nat) : Reg :=
  { addr := 0x5006000C + 0x100 * n, reset := 0xFFFFFFFF#32,
    rw := 0xFFFFFFFF#32 }

/-- SAPn_COMMIT (R239, 13_serial_audio.md). Commit masks. -/
def SAP_COMMIT (n : Nat) : Reg :=
  { addr := 0x50060010 + 0x100 * n, reset := 0x00000000#32,
    w1s := 0x00000001#32 }

/-- SAPn_RXMASK_LIVE (R239, 13_serial_audio.md). Live receive mask. -/
def SAP_RXMASK_LIVE (n : Nat) : Reg :=
  { addr := 0x50060014 + 0x100 * n, reset := 0xFFFFFFFF#32 }

/-- SAPn_TXMASK_LIVE (R239, 13_serial_audio.md). Live transmit mask. -/
def SAP_TXMASK_LIVE (n : Nat) : Reg :=
  { addr := 0x50060018 + 0x100 * n, reset := 0xFFFFFFFF#32 }

/-- SAPn_STAT (R239, 13_serial_audio.md). Port state. -/
def SAP_STAT (n : Nat) : Reg :=
  { addr := 0x5006001C + 0x100 * n, reset := 0x00000000#32 }

/-- SAPn_INT (R239, 13_serial_audio.md). Interrupt flags. -/
def SAP_INT (n : Nat) : Reg :=
  { addr := 0x50060020 + 0x100 * n, reset := 0x00000000#32,
    w1c := 0x0000007F#32 }

/-- SAPn_IEN (R239, 13_serial_audio.md). Interrupt enables. -/
def SAP_IEN (n : Nat) : Reg :=
  { addr := 0x50060024 + 0x100 * n, reset := 0x00000000#32,
    rw := 0x0000007F#32 }

/-- SAPn_PHASE (R239, 13_serial_audio.md). Slave frame offset. -/
def SAP_PHASE (n : Nat) : Reg :=
  { addr := 0x50060028 + 0x100 * n, reset := 0x00000000#32 }

/-- SAPn_RATE (R239, 13_serial_audio.md). Measured frame rate. -/
def SAP_RATE (n : Nat) : Reg :=
  { addr := 0x5006002C + 0x100 * n, reset := 0x00000000#32 }

/-- SAPn_RXTS_SEC (R239, 13_serial_audio.md). Receive stamp seconds [31:0]. -/
def SAP_RXTS_SEC (n : Nat) : Reg :=
  { addr := 0x50060030 + 0x100 * n, reset := 0x00000000#32 }

/-- SAPn_RXTS_NS (R239, 13_serial_audio.md). Receive stamp nanoseconds. -/
def SAP_RXTS_NS (n : Nat) : Reg :=
  { addr := 0x50060034 + 0x100 * n, reset := 0x00000000#32 }

/-- SAPn_TXTS_SEC (R239, 13_serial_audio.md). Transmit stamp seconds [31:0]. -/
def SAP_TXTS_SEC (n : Nat) : Reg :=
  { addr := 0x50060038 + 0x100 * n, reset := 0x00000000#32 }

/-- SAPn_TXTS_NS (R239, 13_serial_audio.md). Transmit stamp nanoseconds. -/
def SAP_TXTS_NS (n : Nat) : Reg :=
  { addr := 0x5006003C + 0x100 * n, reset := 0x00000000#32 }

/-- SAPn_RXRING (R239, 13_serial_audio.md). Receive ring offset. -/
def SAP_RXRING (n : Nat) : Reg :=
  { addr := 0x50060040 + 0x100 * n, reset := 0x00000000#32,
    rw := 0x01FFFFF0#32 }

/-- SAPn_TXRING (R239, 13_serial_audio.md). Transmit ring offset. -/
def SAP_TXRING (n : Nat) : Reg :=
  { addr := 0x50060044 + 0x100 * n, reset := 0x00000000#32,
    rw := 0x01FFFFF0#32 }

/-- SAPn_RINGCFG (R239, 13_serial_audio.md). Ring sizes. -/
def SAP_RINGCFG (n : Nat) : Reg :=
  { addr := 0x50060048 + 0x100 * n, reset := 0x00000202#32,
    rw := 0x00007F7F#32 }

/-- SAPn_FERR_CNT (R239, 13_serial_audio.md). Frame errors. -/
def SAP_FERR_CNT (n : Nat) : Reg :=
  { addr := 0x50060050 + 0x100 * n, reset := 0x00000000#32,
    rc := 0xFFFFFFFF#32 }

/-- SAPn_SLIP_CNT (R239, 13_serial_audio.md). Slips. -/
def SAP_SLIP_CNT (n : Nat) : Reg :=
  { addr := 0x50060054 + 0x100 * n, reset := 0x00000000#32,
    rc := 0xFFFFFFFF#32 }

/-- SAPn_CLKLOSS_CNT (R239, 13_serial_audio.md). Clock losses. -/
def SAP_CLKLOSS_CNT (n : Nat) : Reg :=
  { addr := 0x50060058 + 0x100 * n, reset := 0x00000000#32,
    rc := 0xFFFFFFFF#32 }

/-- SAPn_UNDER_CNT (R239, 13_serial_audio.md). Underrun blocks. -/
def SAP_UNDER_CNT (n : Nat) : Reg :=
  { addr := 0x5006005C + 0x100 * n, reset := 0x00000000#32,
    rc := 0xFFFFFFFF#32 }

/-- SAPn_RDROP_CNT (R239, 13_serial_audio.md). Abandoned ring copies. -/
def SAP_RDROP_CNT (n : Nat) : Reg :=
  { addr := 0x50060060 + 0x100 * n, reset := 0x00000000#32,
    rc := 0xFFFFFFFF#32 }

/-- SAPn_UNCONV (R239, 13_serial_audio.md). Asynchronous receive slots with no locked converter channel. -/
def SAP_UNCONV (n : Nat) : Reg :=
  { addr := 0x50060064 + 0x100 * n, reset := 0x00000000#32 }

/-- SAP_GRP_CTRL (R239, 13_serial_audio.md). Group start and stop. -/
def SAP_GRP_CTRL : Reg :=
  { addr := 0x50062000, reset := 0x00000000#32,
    w1s := 0x000000FF#32 }

/-- SAP_GRP_STAT (R239, 13_serial_audio.md). Groups running. -/
def SAP_GRP_STAT : Reg :=
  { addr := 0x50062004, reset := 0x00000000#32 }

/-- SAP_INTSUM (R239, 13_serial_audio.md). Ports with an enabled flag set. -/
def SAP_INTSUM : Reg :=
  { addr := 0x50062008, reset := 0x00000000#32 }

/-- AES_RXn_CTRL (R253, 14_aes3_rate.md). Enable, mode, checks. -/
def AES_RX_CTRL (n : Nat) : Reg :=
  { addr := 0x50070000 + 0x100 * n, reset := 0x00000000#32,
    rw := 0x0000001F#32 }

/-- AES_RXn_STAT (R253, 14_aes3_rate.md). Lock, format, grade. -/
def AES_RX_STAT (n : Nat) : Reg :=
  { addr := 0x50070004 + 0x100 * n, reset := 0x00000000#32 }

/-- AES_RXn_INT (R253, 14_aes3_rate.md). Interrupt flags. -/
def AES_RX_INT (n : Nat) : Reg :=
  { addr := 0x50070008 + 0x100 * n, reset := 0x00000000#32,
    w1c := 0x0000001F#32 }

/-- AES_RXn_IEN (R253, 14_aes3_rate.md). Interrupt enables. -/
def AES_RX_IEN (n : Nat) : Reg :=
  { addr := 0x5007000C + 0x100 * n, reset := 0x00000000#32,
    rw := 0x0000001F#32 }

/-- AES_RXn_RATE (R253, 14_aes3_rate.md). Measured frame rate. -/
def AES_RX_RATE (n : Nat) : Reg :=
  { addr := 0x50070010 + 0x100 * n, reset := 0x00000000#32 }

/-- AES_RXn_CSAk (R253, 14_aes3_rate.md). Channel status A, bits 32k–32k + 31, k = 0–5. -/
def AES_RX_CSA (n : Nat) (k : Nat) : Reg :=
  { addr := 0x50070020 + 0x100 * n + 0x4 * k, reset := 0x00000000#32 }

/-- AES_RXn_CSBk (R253, 14_aes3_rate.md). Channel status B. -/
def AES_RX_CSB (n : Nat) (k : Nat) : Reg :=
  { addr := 0x50070038 + 0x100 * n + 0x4 * k, reset := 0x00000000#32 }

/-- AES_RXn_UAk (R253, 14_aes3_rate.md). User bits A. -/
def AES_RX_UA (n : Nat) (k : Nat) : Reg :=
  { addr := 0x50070050 + 0x100 * n + 0x4 * k, reset := 0x00000000#32 }

/-- AES_RXn_UBk (R253, 14_aes3_rate.md). User bits B. -/
def AES_RX_UB (n : Nat) (k : Nat) : Reg :=
  { addr := 0x50070068 + 0x100 * n + 0x4 * k, reset := 0x00000000#32 }

/-- AES_RXn_BVIO_CNT (R253, 14_aes3_rate.md). Biphase violations. -/
def AES_RX_BVIO_CNT (n : Nat) : Reg :=
  { addr := 0x50070080 + 0x100 * n, reset := 0x00000000#32,
    rc := 0xFFFFFFFF#32 }

/-- AES_RXn_PAR_CNT (R253, 14_aes3_rate.md). Parity errors. -/
def AES_RX_PAR_CNT (n : Nat) : Reg :=
  { addr := 0x50070084 + 0x100 * n, reset := 0x00000000#32,
    rc := 0xFFFFFFFF#32 }

/-- AES_RXn_CRC_CNT (R253, 14_aes3_rate.md). Block and CRCC errors. -/
def AES_RX_CRC_CNT (n : Nat) : Reg :=
  { addr := 0x50070088 + 0x100 * n, reset := 0x00000000#32,
    rc := 0xFFFFFFFF#32 }

/-- AES_RXn_SLIP_CNT (R253, 14_aes3_rate.md). Slips. -/
def AES_RX_SLIP_CNT (n : Nat) : Reg :=
  { addr := 0x5007008C + 0x100 * n, reset := 0x00000000#32,
    rc := 0xFFFFFFFF#32 }

/-- AES_RXn_LOSS_CNT (R253, 14_aes3_rate.md). Lock losses. -/
def AES_RX_LOSS_CNT (n : Nat) : Reg :=
  { addr := 0x50070090 + 0x100 * n, reset := 0x00000000#32,
    rc := 0xFFFFFFFF#32 }

/-- AES_RXn_VAL_CNT (R253, 14_aes3_rate.md). Frames with validity set. -/
def AES_RX_VAL_CNT (n : Nat) : Reg :=
  { addr := 0x50070094 + 0x100 * n, reset := 0x00000000#32,
    rc := 0xFFFFFFFF#32 }

/-- AES_TXn_CTRL (R253, 14_aes3_rate.md). Enable, rate, bits. -/
def AES_TX_CTRL (n : Nat) : Reg :=
  { addr := 0x50070800 + 0x100 * n, reset := 0x00000010#32,
    rw := 0x0000005F#32 }

/-- AES_TXn_STAT (R253, 14_aes3_rate.md). Transmitter state. -/
def AES_TX_STAT (n : Nat) : Reg :=
  { addr := 0x50070804 + 0x100 * n, reset := 0x00000000#32,
    w1c := 0x00000008#32 }

/-- AES_TXn_COMMIT (R253, 14_aes3_rate.md). Commit channel status and user bits. -/
def AES_TX_COMMIT (n : Nat) : Reg :=
  { addr := 0x50070808 + 0x100 * n, reset := 0x00000000#32,
    w1s := 0x00000001#32 }

/-- AES_TXn_CSAk (R253, 14_aes3_rate.md). Staged channel status and user bits, k = 0–5. -/
def AES_TX_CSA (n : Nat) (k : Nat) : Reg :=
  { addr := 0x50070820 + 0x100 * n + 0x4 * k, reset := 0x00000000#32,
    rw := 0xFFFFFFFF#32 }

/-- AES_TXn_CSBk (R253, 14_aes3_rate.md). Staged channel status and user bits, k = 0–5. -/
def AES_TX_CSB (n : Nat) (k : Nat) : Reg :=
  { addr := 0x50070838 + 0x100 * n + 0x4 * k, reset := 0x00000000#32,
    rw := 0xFFFFFFFF#32 }

/-- AES_TXn_UAk (R253, 14_aes3_rate.md). Staged channel status and user bits, k = 0–5. -/
def AES_TX_UA (n : Nat) (k : Nat) : Reg :=
  { addr := 0x50070850 + 0x100 * n + 0x4 * k, reset := 0x00000000#32,
    rw := 0xFFFFFFFF#32 }

/-- AES_TXn_UBk (R253, 14_aes3_rate.md). Staged channel status and user bits, k = 0–5. -/
def AES_TX_UB (n : Nat) (k : Nat) : Reg :=
  { addr := 0x50070868 + 0x100 * n + 0x4 * k, reset := 0x00000000#32,
    rw := 0xFFFFFFFF#32 }

/-- SRC_CHc (R254, 14_aes3_rate.md). Staged assignment, c = 0–255. -/
def SRC_CH (c : Nat) : Reg :=
  { addr := 0x50080000 + 0x4 * c, reset := 0x00000000#32,
    rw := 0xF00003FF#32 }

/-- SRC_COMMIT (R254, 14_aes3_rate.md). Commit assignments. -/
def SRC_COMMIT : Reg :=
  { addr := 0x50080400, reset := 0x00000000#32,
    w1s := 0x00000001#32 }

/-- SRC_SEL (R254, 14_aes3_rate.md). Channel to inspect. -/
def SRC_SEL : Reg :=
  { addr := 0x50080404, reset := 0x00000000#32,
    rw := 0x000000FF#32 }

/-- SRC_CHSTAT (R254, 14_aes3_rate.md). State of that channel. -/
def SRC_CHSTAT : Reg :=
  { addr := 0x50080408, reset := 0x00000000#32 }

/-- SRC_RATIO (R254, 14_aes3_rate.md). Its input-to-engine rate ratio. -/
def SRC_RATIO : Reg :=
  { addr := 0x5008040C, reset := 0x00000000#32 }

/-- SRC_INRATE (R254, 14_aes3_rate.md). Its input or output rate. -/
def SRC_INRATE : Reg :=
  { addr := 0x50080410, reset := 0x00000000#32 }

/-- SRC_INT (R254, 14_aes3_rate.md). Interrupt flags. -/
def SRC_INT : Reg :=
  { addr := 0x50080414, reset := 0x00000000#32,
    w1c := 0x00000007#32 }

/-- SRC_IEN (R254, 14_aes3_rate.md). Interrupt enables. -/
def SRC_IEN : Reg :=
  { addr := 0x50080418, reset := 0x00000000#32,
    rw := 0x00000007#32 }

/-- SRC_UNLOCK_CNT (R254, 14_aes3_rate.md). Unlocks. -/
def SRC_UNLOCK_CNT : Reg :=
  { addr := 0x5008041C, reset := 0x00000000#32,
    rc := 0xFFFFFFFF#32 }

/-- SRC_LOCKi (R254, 14_aes3_rate.md). Locked channels 32i to 32i + 31, i = 0–7. -/
def SRC_LOCK (i : Nat) : Reg :=
  { addr := 0x50080420 + 0x4 * i, reset := 0x00000000#32 }

/-- MACn_CTRL (R277, 15_network_mac.md). Enable, speed, FEC, preemption, gates, default queue. -/
def MAC_CTRL (n : Nat) : Reg :=
  { addr := 0x50090000 + 0x10000 * n, reset := 0x00000000#32,
    rw := 0x00003FFF#32 }

/-- MACn_STAT (R277, 15_network_mac.md). Link and pause state. -/
def MAC_STAT (n : Nat) : Reg :=
  { addr := 0x50090004 + 0x10000 * n, reset := 0x00000000#32 }

/-- MACn_INT (R277, 15_network_mac.md). Interrupt flags. -/
def MAC_INT (n : Nat) : Reg :=
  { addr := 0x50090008 + 0x10000 * n, reset := 0x00000000#32,
    w1c := 0x0000007F#32 }

/-- MACn_IEN (R277, 15_network_mac.md). Interrupt enables. -/
def MAC_IEN (n : Nat) : Reg :=
  { addr := 0x5009000C + 0x10000 * n, reset := 0x00000000#32,
    rw := 0x0000007F#32 }

/-- MACn_MAXLEN (R277, 15_network_mac.md). Maximum frame length. -/
def MAC_MAXLEN (n : Nat) : Reg :=
  { addr := 0x50090010 + 0x10000 * n, reset := 0x000005F2#32,
    rw := 0x00003FFF#32 }

/-- MACn_PWD (R277, 15_network_mac.md). Pause watchdog ceiling. -/
def MAC_PWD (n : Nat) : Reg :=
  { addr := 0x50090014 + 0x10000 * n, reset := 0x000003E8#32,
    rw := 0x0000FFFF#32 }

/-- MACn_TCCFG (R277, 15_network_mac.md). Preemptable and shaped classes. -/
def MAC_TCCFG (n : Nat) : Reg :=
  { addr := 0x50090018 + 0x10000 * n, reset := 0x00000000#32,
    rw := 0x0000FFFF#32 }

/-- MACn_TSADJ (R277, 15_network_mac.md). Stamp adjustment. -/
def MAC_TSADJ (n : Nat) : Reg :=
  { addr := 0x5009001C + 0x10000 * n, reset := 0x00000000#32,
    rw := 0xFFFFFFFF#32 }

/-- MACn_SEG_ABORT (R277, 15_network_mac.md). Abort segmentation sends. -/
def MAC_SEG_ABORT (n : Nat) : Reg :=
  { addr := 0x50090020 + 0x10000 * n, reset := 0x00000000#32,
    w1s := 0x000000FF#32 }

/-- MACn_SEG_STAT (R277, 15_network_mac.md). Classes with a segmentation send at the head. -/
def MAC_SEG_STAT (n : Nat) : Reg :=
  { addr := 0x50090024 + 0x10000 * n, reset := 0x00000000#32 }

/-- MACn_TSQ_POP (R277, 15_network_mac.md). Pop the time-stamp queue. -/
def MAC_TSQ_POP (n : Nat) : Reg :=
  { addr := 0x50090030 + 0x10000 * n, reset := 0x00000000#32,
    wo := 0x00000001#32 }

/-- MACn_TSQ_STAT (R277, 15_network_mac.md). Popped entry flags, depth. -/
def MAC_TSQ_STAT (n : Nat) : Reg :=
  { addr := 0x50090034 + 0x10000 * n, reset := 0x00000000#32 }

/-- MACn_TSQ_ID (R277, 15_network_mac.md). Popped ts_id, first_lost. -/
def MAC_TSQ_ID (n : Nat) : Reg :=
  { addr := 0x50090038 + 0x10000 * n, reset := 0x00000000#32 }

/-- MACn_TSQ_SEC (R277, 15_network_mac.md). Popped stamp seconds [31:0]. -/
def MAC_TSQ_SEC (n : Nat) : Reg :=
  { addr := 0x5009003C + 0x10000 * n, reset := 0x00000000#32 }

/-- MACn_TSQ_NS (R277, 15_network_mac.md). Popped stamp nanoseconds. -/
def MAC_TSQ_NS (n : Nat) : Reg :=
  { addr := 0x50090040 + 0x10000 * n, reset := 0x00000000#32 }

/-- MACn_GCL_BASE_SEC (R277, 15_network_mac.md). Admin base time seconds [31:0]. -/
def MAC_GCL_BASE_SEC (n : Nat) : Reg :=
  { addr := 0x50090060 + 0x10000 * n, reset := 0x00000000#32,
    rw := 0xFFFFFFFF#32 }

/-- MACn_GCL_BASE_NS (R277, 15_network_mac.md). Admin base time nanoseconds. -/
def MAC_GCL_BASE_NS (n : Nat) : Reg :=
  { addr := 0x50090064 + 0x10000 * n, reset := 0x00000000#32,
    rw := 0x3FFFFFFF#32 }

/-- MACn_GCL_CYCLE (R277, 15_network_mac.md). Admin cycle time. -/
def MAC_GCL_CYCLE (n : Nat) : Reg :=
  { addr := 0x50090068 + 0x10000 * n, reset := 0x000F4240#32,
    rw := 0x3FFFFFFF#32 }

/-- MACn_GCL_LEN (R277, 15_network_mac.md). Admin list length. -/
def MAC_GCL_LEN (n : Nat) : Reg :=
  { addr := 0x5009006C + 0x10000 * n, reset := 0x00000001#32,
    rw := 0x0000007F#32 }

/-- MACn_GCL_COMMIT (R277, 15_network_mac.md). Commit the admin list. -/
def MAC_GCL_COMMIT (n : Nat) : Reg :=
  { addr := 0x50090070 + 0x10000 * n, reset := 0x00000000#32,
    w1s := 0x00000001#32 }

/-- MACn_GCL_STAT (R277, 15_network_mac.md). Gate list state. -/
def MAC_GCL_STAT (n : Nat) : Reg :=
  { addr := 0x50090074 + 0x10000 * n, reset := 0x00000001#32 }

/-- MACn_CBSt (R277, 15_network_mac.md). Idle slope of class t, t = 0–7. -/
def MAC_CBS (n : Nat) (t : Nat) : Reg :=
  { addr := 0x50090080 + 0x10000 * n + 0x4 * t, reset := 0x00000000#32,
    rw := 0x01FFFFFF#32 }

/-- MACn_RXQq_BASE (R277, 15_network_mac.md). Receive ring q base, q = 0–15. -/
def MAC_RXQ_BASE (n : Nat) (q : Nat) : Reg :=
  { addr := 0x50090100 + 0x10000 * n + 0x10 * q, reset := 0x00000000#32,
    rw := 0xFFFFFFFF#32 }

/-- MACn_RXQq_SIZE (R277, 15_network_mac.md). Its size. -/
def MAC_RXQ_SIZE (n : Nat) (q : Nat) : Reg :=
  { addr := 0x50090104 + 0x10000 * n + 0x10 * q, reset := 0x00000000#32,
    rw := 0x00001FFF#32 }

/-- MACn_RXQq_AVAIL (R277, 15_network_mac.md). Software index. -/
def MAC_RXQ_AVAIL (n : Nat) (q : Nat) : Reg :=
  { addr := 0x50090108 + 0x10000 * n + 0x10 * q, reset := 0x00000000#32,
    rw := 0x00000FFF#32 }

/-- MACn_RXQq_NEXT (R277, 15_network_mac.md). MAC index. -/
def MAC_RXQ_NEXT (n : Nat) (q : Nat) : Reg :=
  { addr := 0x5009010C + 0x10000 * n + 0x10 * q, reset := 0x00000000#32 }

/-- MACn_TXQt_BASE (R277, 15_network_mac.md). Transmit ring t base. -/
def MAC_TXQ_BASE (n : Nat) (t : Nat) : Reg :=
  { addr := 0x50090200 + 0x10000 * n + 0x10 * t, reset := 0x00000000#32,
    rw := 0xFFFFFFFF#32 }

/-- MACn_TXQt_SIZE (R277, 15_network_mac.md). Its size. -/
def MAC_TXQ_SIZE (n : Nat) (t : Nat) : Reg :=
  { addr := 0x50090204 + 0x10000 * n + 0x10 * t, reset := 0x00000000#32,
    rw := 0x00001FFF#32 }

/-- MACn_TXQt_TAIL (R277, 15_network_mac.md). Software index. -/
def MAC_TXQ_TAIL (n : Nat) (t : Nat) : Reg :=
  { addr := 0x50090208 + 0x10000 * n + 0x10 * t, reset := 0x00000000#32,
    rw := 0x00000FFF#32 }

/-- MACn_TXQt_HEAD (R277, 15_network_mac.md). MAC index. -/
def MAC_TXQ_HEAD (n : Nat) (t : Nat) : Reg :=
  { addr := 0x5009020C + 0x10000 * n + 0x10 * t, reset := 0x00000000#32 }

/-- MACn_GCLi_GATE (R277, 15_network_mac.md). Admin entry i gates, i = 0–63. -/
def MAC_GCL_GATE (n : Nat) (i : Nat) : Reg :=
  { addr := 0x50090400 + 0x10000 * n + 0x8 * i, reset := 0x000000FF#32,
    rw := 0x000000FF#32 }

/-- MACn_GCLi_IVL (R277, 15_network_mac.md). Admin entry i interval. -/
def MAC_GCL_IVL (n : Nat) (i : Nat) : Reg :=
  { addr := 0x50090404 + 0x10000 * n + 0x8 * i, reset := 0x00000000#32,
    rw := 0x3FFFFFFF#32 }

/-- MACn_FLTi_A (R277, 15_network_mac.md). Filter i tests, VID, PCP, queue. -/
def MAC_FLT_A (n : Nat) (i : Nat) : Reg :=
  { addr := 0x50090800 + 0x10000 * n + 0x8 * i, reset := 0x00000000#32,
    rw := 0xFCFE0FFF#32 }

/-- MACn_FLTi_B (R277, 15_network_mac.md). Filter i EtherType, UDP port. -/
def MAC_FLT_B (n : Nat) (i : Nat) : Reg :=
  { addr := 0x50090804 + 0x10000 * n + 0x8 * i, reset := 0x00000000#32,
    rw := 0xFFFFFFFF#32 }

/-- MACn_RXFRM_CNT (R277, 15_network_mac.md). Frames stored. -/
def MAC_RXFRM_CNT (n : Nat) : Reg :=
  { addr := 0x50090C00 + 0x10000 * n, reset := 0x00000000#32,
    rc := 0xFFFFFFFF#32 }

/-- MACn_RXBYTE_CNT (R277, 15_network_mac.md). Bytes of frames stored; wraps. -/
def MAC_RXBYTE_CNT (n : Nat) : Reg :=
  { addr := 0x50090C04 + 0x10000 * n, reset := 0x00000000#32,
    rc := 0xFFFFFFFF#32 }

/-- MACn_RUNT_CNT (R277, 15_network_mac.md). Runts. -/
def MAC_RUNT_CNT (n : Nat) : Reg :=
  { addr := 0x50090C08 + 0x10000 * n, reset := 0x00000000#32,
    rc := 0xFFFFFFFF#32 }

/-- MACn_OVERSIZE_CNT (R277, 15_network_mac.md). Oversize frames. -/
def MAC_OVERSIZE_CNT (n : Nat) : Reg :=
  { addr := 0x50090C0C + 0x10000 * n, reset := 0x00000000#32,
    rc := 0xFFFFFFFF#32 }

/-- MACn_FCS_CNT (R277, 15_network_mac.md). FCS errors. -/
def MAC_FCS_CNT (n : Nat) : Reg :=
  { addr := 0x50090C10 + 0x10000 * n, reset := 0x00000000#32,
    rc := 0xFFFFFFFF#32 }

/-- MACn_PHYERR_CNT (R277, 15_network_mac.md). Code errors. -/
def MAC_PHYERR_CNT (n : Nat) : Reg :=
  { addr := 0x50090C14 + 0x10000 * n, reset := 0x00000000#32,
    rc := 0xFFFFFFFF#32 }

/-- MACn_FILTDROP_CNT (R277, 15_network_mac.md). Filter and MAC Control discards. -/
def MAC_FILTDROP_CNT (n : Nat) : Reg :=
  { addr := 0x50090C18 + 0x10000 * n, reset := 0x00000000#32,
    rc := 0xFFFFFFFF#32 }

/-- MACn_RXQDROP_CNT (R277, 15_network_mac.md). No descriptor or buffer. -/
def MAC_RXQDROP_CNT (n : Nat) : Reg :=
  { addr := 0x50090C1C + 0x10000 * n, reset := 0x00000000#32,
    rc := 0xFFFFFFFF#32 }

/-- MACn_PAUSE_RX_CNT (R277, 15_network_mac.md). PAUSE frames. -/
def MAC_PAUSE_RX_CNT (n : Nat) : Reg :=
  { addr := 0x50090C20 + 0x10000 * n, reset := 0x00000000#32,
    rc := 0xFFFFFFFF#32 }

/-- MACn_PWD_CNT (R277, 15_network_mac.md). Watchdog releases. -/
def MAC_PWD_CNT (n : Nat) : Reg :=
  { addr := 0x50090C24 + 0x10000 * n, reset := 0x00000000#32,
    rc := 0xFFFFFFFF#32 }

/-- MACn_TXFRM_CNT (R277, 15_network_mac.md). Frames and segments sent. -/
def MAC_TXFRM_CNT (n : Nat) : Reg :=
  { addr := 0x50090C28 + 0x10000 * n, reset := 0x00000000#32,
    rc := 0xFFFFFFFF#32 }

/-- MACn_TXBYTE_CNT (R277, 15_network_mac.md). Bytes sent, FCS included; wraps. -/
def MAC_TXBYTE_CNT (n : Nat) : Reg :=
  { addr := 0x50090C2C + 0x10000 * n, reset := 0x00000000#32,
    rc := 0xFFFFFFFF#32 }

/-- MACn_DESCERR_CNT (R277, 15_network_mac.md). Descriptor errors 0x1–0x4. -/
def MAC_DESCERR_CNT (n : Nat) : Reg :=
  { addr := 0x50090C30 + 0x10000 * n, reset := 0x00000000#32,
    rc := 0xFFFFFFFF#32 }

/-- MACn_TSLOST_CNT (R277, 15_network_mac.md). Lost transmit stamps. -/
def MAC_TSLOST_CNT (n : Nat) : Reg :=
  { addr := 0x50090C34 + 0x10000 * n, reset := 0x00000000#32,
    rc := 0xFFFFFFFF#32 }

/-- MACn_FRAG_RX_CNT (R277, 15_network_mac.md). Fragments received. -/
def MAC_FRAG_RX_CNT (n : Nat) : Reg :=
  { addr := 0x50090C38 + 0x10000 * n, reset := 0x00000000#32,
    rc := 0xFFFFFFFF#32 }

/-- MACn_FRAG_TX_CNT (R277, 15_network_mac.md). Fragments sent. -/
def MAC_FRAG_TX_CNT (n : Nat) : Reg :=
  { addr := 0x50090C3C + 0x10000 * n, reset := 0x00000000#32,
    rc := 0xFFFFFFFF#32 }

/-- MACn_REASM_CNT (R277, 15_network_mac.md). Reassembly errors. -/
def MAC_REASM_CNT (n : Nat) : Reg :=
  { addr := 0x50090C40 + 0x10000 * n, reset := 0x00000000#32,
    rc := 0xFFFFFFFF#32 }

/-- MACn_LINKDN_CNT (R277, 15_network_mac.md). Link losses. -/
def MAC_LINKDN_CNT (n : Nat) : Reg :=
  { addr := 0x50090C44 + 0x10000 * n, reset := 0x00000000#32,
    rc := 0xFFFFFFFF#32 }

/-- MACn_TXLINKDN_CNT (R277, 15_network_mac.md). Frames discarded under R257. -/
def MAC_TXLINKDN_CNT (n : Nat) : Reg :=
  { addr := 0x50090C48 + 0x10000 * n, reset := 0x00000000#32,
    rc := 0xFFFFFFFF#32 }

/-- STRM_CTRL (R291, 16_streams.md). Stream engine enable. -/
def STRM_CTRL : Reg :=
  { addr := 0x500B0000, reset := 0x00000000#32,
    rw := 0x00000001#32 }

/-- STRM_STAT (R291, 16_streams.md). Running streams. -/
def STRM_STAT : Reg :=
  { addr := 0x500B0004, reset := 0x00000000#32 }

/-- STRM_INT (R291, 16_streams.md). Interrupt flags. -/
def STRM_INT : Reg :=
  { addr := 0x500B0008, reset := 0x00000000#32,
    w1c := 0x00000007#32 }

/-- STRM_IEN (R291, 16_streams.md). Interrupt enables. -/
def STRM_IEN : Reg :=
  { addr := 0x500B000C, reset := 0x00000000#32,
    rw := 0x00000007#32 }

/-- STRM_NOMATCH_CNT (R291, 16_streams.md). Frames matching no stream. -/
def STRM_NOMATCH_CNT : Reg :=
  { addr := 0x500B0010, reset := 0x00000000#32,
    rc := 0xFFFFFFFF#32 }

/-- STRM_SEL (R291, 16_streams.md). Receive stream to inspect. -/
def STRM_SEL : Reg :=
  { addr := 0x500B0014, reset := 0x00000000#32,
    rw := 0x0000007F#32 }

/-- STRM_PKTA_CNT (R291, 16_streams.md). Packets written from path A. -/
def STRM_PKTA_CNT : Reg :=
  { addr := 0x500B0020, reset := 0x00000000#32,
    rc := 0xFFFFFFFF#32 }

/-- STRM_PKTB_CNT (R291, 16_streams.md). Packets written from path B. -/
def STRM_PKTB_CNT : Reg :=
  { addr := 0x500B0024, reset := 0x00000000#32,
    rc := 0xFFFFFFFF#32 }

/-- STRM_DUP_CNT (R291, 16_streams.md). Duplicate copies. -/
def STRM_DUP_CNT : Reg :=
  { addr := 0x500B0028, reset := 0x00000000#32,
    rc := 0xFFFFFFFF#32 }

/-- STRM_LATE_CNT (R291, 16_streams.md). Late or wrong-length packets. -/
def STRM_LATE_CNT : Reg :=
  { addr := 0x500B002C, reset := 0x00000000#32,
    rc := 0xFFFFFFFF#32 }

/-- STRM_EARLY_CNT (R291, 16_streams.md). Early packets. -/
def STRM_EARLY_CNT : Reg :=
  { addr := 0x500B0030, reset := 0x00000000#32,
    rc := 0xFFFFFFFF#32 }

/-- STRM_LOST_CNT (R291, 16_streams.md). Packet times missing. -/
def STRM_LOST_CNT : Reg :=
  { addr := 0x500B0034, reset := 0x00000000#32,
    rc := 0xFFFFFFFF#32 }

/-- STRM_SEQGAP_CNT (R291, 16_streams.md). Sequence gaps. -/
def STRM_SEQGAP_CNT : Reg :=
  { addr := 0x500B0038, reset := 0x00000000#32,
    rc := 0xFFFFFFFF#32 }

/-- STRM_RXs_CTRL (R291, 16_streams.md). Enable, paths, format. -/
def STRM_RX_CTRL (s : Nat) : Reg :=
  { addr := 0x500B1000 + 0x20 * s, reset := 0x00000000#32,
    rw := 0xF730007F#32 }

/-- STRM_RXs_KEY0 (R291, 16_streams.md). IPv4 destination or stream_id [63:32]. -/
def STRM_RX_KEY0 (s : Nat) : Reg :=
  { addr := 0x500B1004 + 0x20 * s, reset := 0x00000000#32,
    rw := 0xFFFFFFFF#32 }

/-- STRM_RXs_KEY1 (R291, 16_streams.md). UDP port or stream_id [31:0]. -/
def STRM_RX_KEY1 (s : Nat) : Reg :=
  { addr := 0x500B1008 + 0x20 * s, reset := 0x00000000#32,
    rw := 0xFFFFFFFF#32 }

/-- STRM_RXs_MAP (R291, 16_streams.md). Channel base, delay. -/
def STRM_RX_MAP (s : Nat) : Reg :=
  { addr := 0x500B100C + 0x20 * s, reset := 0x00000000#32,
    rw := 0x03FF01FF#32 }

/-- STRM_RXs_BUF (R291, 16_streams.md). Buffer offset. -/
def STRM_RX_BUF (s : Nat) : Reg :=
  { addr := 0x500B1010 + 0x20 * s, reset := 0x00000000#32,
    rw := 0x003FFFF0#32 }

/-- STRM_RXs_DEPTH (R291, 16_streams.md). Buffer depth. -/
def STRM_RX_DEPTH (s : Nat) : Reg :=
  { addr := 0x500B1014 + 0x20 * s, reset := 0x000000C0#32,
    rw := 0x000001FF#32 }

/-- STRM_RXs_STAT (R291, 16_streams.md). Path and conflict state. -/
def STRM_RX_STAT (s : Nat) : Reg :=
  { addr := 0x500B1018 + 0x20 * s, reset := 0x00000000#32 }

/-- STRM_TXt_CTRL (R291, 16_streams.md). Enable, ports, format, class. -/
def STRM_TX_CTRL (t : Nat) : Reg :=
  { addr := 0x500B2000 + 0x20 * t, reset := 0x00000000#32,
    rw := 0xE737007F#32 }

/-- STRM_TXt_MAP (R291, 16_streams.md). Channel base. -/
def STRM_TX_MAP (t : Nat) : Reg :=
  { addr := 0x500B2004 + 0x20 * t, reset := 0x00000000#32,
    rw := 0x03FF0000#32 }

/-- STRM_TXt_HDR (R291, 16_streams.md). Template offset and length. -/
def STRM_TX_HDR (t : Nat) : Reg :=
  { addr := 0x500B2008 + 0x20 * t, reset := 0x00000000#32,
    rw := 0xFF3FFFF0#32 }

/-- STRM_TXt_OFF (R291, 16_streams.md). RTP or AAF time offset. -/
def STRM_TX_OFF (t : Nat) : Reg :=
  { addr := 0x500B200C + 0x20 * t, reset := 0x00000000#32,
    rw := 0xFFFFFFFF#32 }

/-- STRM_TXt_STAT (R291, 16_streams.md). Sequence and state. -/
def STRM_TX_STAT (t : Nat) : Reg :=
  { addr := 0x500B2010 + 0x20 * t, reset := 0x00000000#32 }

/-- SAF_CTRL (R311, 17_saffron.md). Forcing, servo bandwidth, word-clock output. -/
def SAF_CTRL : Reg :=
  { addr := 0x50040000, reset := 0x00000010#32,
    rw := 0x00000133#32 }

/-- SAF_STAT (R311, 17_saffron.md). State, selection, history. -/
def SAF_STAT : Reg :=
  { addr := 0x50040004, reset := 0x0000F000#32 }

/-- SAF_INT (R311, 17_saffron.md). Interrupt flags. -/
def SAF_INT : Reg :=
  { addr := 0x50040008, reset := 0x00000000#32,
    w1c := 0x000000FF#32 }

/-- SAF_IEN (R311, 17_saffron.md). Interrupt enables. -/
def SAF_IEN : Reg :=
  { addr := 0x5004000C, reset := 0x00000000#32,
    rw := 0x000000FF#32 }

/-- SAF_STEER (R311, 17_saffron.md). s in force. -/
def SAF_STEER : Reg :=
  { addr := 0x50040010, reset := 0x00000000#32 }

/-- SAF_HIST (R311, 17_saffron.md). H in force. -/
def SAF_HIST : Reg :=
  { addr := 0x50040014, reset := 0x00000000#32 }

/-- SAF_HOLD_SEC (R311, 17_saffron.md). Seconds in holdover. -/
def SAF_HOLD_SEC : Reg :=
  { addr := 0x50040018, reset := 0x00000000#32 }

/-- SAF_PHERR (R311, 17_saffron.md). Phase error of the selected entry. -/
def SAF_PHERR : Reg :=
  { addr := 0x5004001C, reset := 0x00000000#32 }

/-- SAF_SLEW (R311, 17_saffron.md). Slew and frequency-step limits. -/
def SAF_SLEW : Reg :=
  { addr := 0x50040020, reset := 0x000A2710#32,
    rw := 0xFFFFFFFF#32 }

/-- SAF_LOCKTH (R311, 17_saffron.md). Lock threshold. -/
def SAF_LOCKTH : Reg :=
  { addr := 0x50040024, reset := 0x000003E8#32,
    rw := 0x0001FFFF#32 }

/-- SAF_HLEN (R311, 17_saffron.md). History length. -/
def SAF_HLEN : Reg :=
  { addr := 0x50040028, reset := 0x00000258#32,
    rw := 0x00000FFF#32 }

/-- SAF_SWITCH_CNT (R311, 17_saffron.md). Switches. -/
def SAF_SWITCH_CNT : Reg :=
  { addr := 0x5004002C, reset := 0x00000000#32,
    rc := 0xFFFFFFFF#32 }

/-- SAF_DISQ_CNT (R311, 17_saffron.md). Disqualifications. -/
def SAF_DISQ_CNT : Reg :=
  { addr := 0x50040030, reset := 0x00000000#32,
    rc := 0xFFFFFFFF#32 }

/-- SAF_SOFT_CNT (R311, 17_saffron.md). Soft alarms. -/
def SAF_SOFT_CNT : Reg :=
  { addr := 0x50040034, reset := 0x00000000#32,
    rc := 0xFFFFFFFF#32 }

/-- SAF_HOLD_CNT (R311, 17_saffron.md). Entries into holdover. -/
def SAF_HOLD_CNT : Reg :=
  { addr := 0x50040038, reset := 0x00000000#32,
    rc := 0xFFFFFFFF#32 }

/-- SAF_GLITCH_CNT (R311, 17_saffron.md). Ignored clock pulses. -/
def SAF_GLITCH_CNT : Reg :=
  { addr := 0x5004003C, reset := 0x00000000#32,
    rc := 0xFFFFFFFF#32 }

/-- SAF_TM_T0 (R311, 17_saffron.md). Model reference temperature. -/
def SAF_TM_T0 : Reg :=
  { addr := 0x50040040, reset := 0x00000190#32,
    rw := 0x0000FFFF#32 }

/-- SAF_TM_C1 (R311, 17_saffron.md). Linear coefficient. -/
def SAF_TM_C1 : Reg :=
  { addr := 0x50040044, reset := 0x00000000#32,
    rw := 0xFFFFFFFF#32 }

/-- SAF_TM_C2 (R311, 17_saffron.md). Quadratic coefficient. -/
def SAF_TM_C2 : Reg :=
  { addr := 0x50040048, reset := 0x00000000#32,
    rw := 0xFFFFFFFF#32 }

/-- SAF_TM_C3 (R311, 17_saffron.md). Cubic coefficient. -/
def SAF_TM_C3 : Reg :=
  { addr := 0x5004004C, reset := 0x00000000#32,
    rw := 0xFFFFFFFF#32 }

/-- SAF_AGE (R311, 17_saffron.md). Ageing rate. -/
def SAF_AGE : Reg :=
  { addr := 0x50040050, reset := 0x00000000#32,
    rw := 0xFFFFFFFF#32 }

/-- SAF_TEMP (R311, 17_saffron.md). Mean sensor temperature, last window. -/
def SAF_TEMP : Reg :=
  { addr := 0x50040054, reset := 0x00000000#32 }

/-- SAF_LOS_CNT (R311, 17_saffron.md). Losses of signal. -/
def SAF_LOS_CNT : Reg :=
  { addr := 0x50040058, reset := 0x00000000#32,
    rc := 0xFFFFFFFF#32 }

/-- SAF_VID_CFG (R311, 17_saffron.md). Video sync period. -/
def SAF_VID_CFG : Reg :=
  { addr := 0x50040060, reset := 0x10000F00#32,
    rw := 0xF00FFFFF#32 }

/-- SAF_MCLKm (R311, 17_saffron.md). MCLK output m, m = 0–3. -/
def SAF_MCLK (m : Nat) : Reg :=
  { addr := 0x50040070 + 0x4 * m, reset := 0x00000001#32,
    rw := 0x00000013#32 }

/-- SAF_REFi_CFG (R311, 17_saffron.md). Entry source and policy. -/
def SAF_REF_CFG (i : Nat) : Reg :=
  { addr := 0x50040100 + 0x20 * i, reset := 0x00000F00#32,
    rw := 0xCF073F0F#32 }

/-- SAF_REFi_TOL (R311, 17_saffron.md). Tolerance. -/
def SAF_REF_TOL (i : Nat) : Reg :=
  { addr := 0x50040104 + 0x20 * i, reset := 0x000F4240#32,
    rw := 0xFFFFFFFF#32 }

/-- SAF_REFi_TIME (R311, 17_saffron.md). Wait-to-restore and N. -/
def SAF_REF_TIME (i : Nat) : Reg :=
  { addr := 0x50040108 + 0x20 * i, reset := 0x000A0004#32,
    rw := 0x03FF00FF#32 }

/-- SAF_REFi_STAT (R311, 17_saffron.md). Entry state. -/
def SAF_REF_STAT (i : Nat) : Reg :=
  { addr := 0x5004010C + 0x20 * i, reset := 0x000000F0#32 }

/-- SAF_REFi_FREQ (R311, 17_saffron.md). y, last window. -/
def SAF_REF_FREQ (i : Nat) : Reg :=
  { addr := 0x50040110 + 0x20 * i, reset := 0x00000000#32 }

/-- SAF_REFi_DEV (R311, 17_saffron.md). D, last window. -/
def SAF_REF_DEV (i : Nat) : Reg :=
  { addr := 0x50040114 + 0x20 * i, reset := 0x00000000#32 }

/-- SAF_REFi_DRIFT (R311, 17_saffron.md). Drift rate. -/
def SAF_REF_DRIFT (i : Nat) : Reg :=
  { addr := 0x50040118 + 0x20 * i, reset := 0x00000000#32 }

/-- SAF_REFi_PHASE (R311, 17_saffron.md). Phase error. -/
def SAF_REF_PHASE (i : Nat) : Reg :=
  { addr := 0x5004011C + 0x20 * i, reset := 0x00000000#32 }

/-- STC_CTRL (R312, 17_saffron.md). Automatic step. -/
def STC_CTRL : Reg :=
  { addr := 0x50050000, reset := 0x00000000#32,
    rw := 0x00000001#32 }

/-- STC_STAT (R312, 17_saffron.md). Slew and start state. -/
def STC_STAT : Reg :=
  { addr := 0x50050004, reset := 0x00000000#32 }

/-- STC_INT (R312, 17_saffron.md). Interrupt flags. -/
def STC_INT : Reg :=
  { addr := 0x50050008, reset := 0x00000000#32,
    w1c := 0x00000007#32 }

/-- STC_IEN (R312, 17_saffron.md). Interrupt enables. -/
def STC_IEN : Reg :=
  { addr := 0x5005000C, reset := 0x00000000#32,
    rw := 0x00000007#32 }

/-- STC_SNAP (R312, 17_saffron.md). Latch the STC. -/
def STC_SNAP : Reg :=
  { addr := 0x50050010, reset := 0x00000000#32,
    wo := 0x00000001#32 }

/-- STC_SNAP_SECH (R312, 17_saffron.md). Seconds [47:32]. -/
def STC_SNAP_SECH : Reg :=
  { addr := 0x50050014, reset := 0x00000000#32 }

/-- STC_SNAP_SECL (R312, 17_saffron.md). Seconds [31:0]. -/
def STC_SNAP_SECL : Reg :=
  { addr := 0x50050018, reset := 0x00000000#32 }

/-- STC_SNAP_NS (R312, 17_saffron.md). Nanoseconds. -/
def STC_SNAP_NS : Reg :=
  { addr := 0x5005001C, reset := 0x00000000#32 }

/-- STC_SNAP_FRAC (R312, 17_saffron.md). Fraction of a nanosecond. -/
def STC_SNAP_FRAC : Reg :=
  { addr := 0x50050020, reset := 0x00000000#32 }

/-- STC_SET_SECH (R312, 17_saffron.md). Set value, seconds [47:32]. -/
def STC_SET_SECH : Reg :=
  { addr := 0x50050030, reset := 0x00000000#32,
    rw := 0x0000FFFF#32 }

/-- STC_SET_SECL (R312, 17_saffron.md). Set value, seconds [31:0]. -/
def STC_SET_SECL : Reg :=
  { addr := 0x50050034, reset := 0x00000000#32,
    rw := 0xFFFFFFFF#32 }

/-- STC_SET_NS (R312, 17_saffron.md). Set value, nanoseconds. -/
def STC_SET_NS : Reg :=
  { addr := 0x50050038, reset := 0x00000000#32,
    rw := 0x3FFFFFFF#32 }

/-- STC_SET_CTRL (R312, 17_saffron.md). Apply the set value (R294). -/
def STC_SET_CTRL : Reg :=
  { addr := 0x5005003C, reset := 0x00000000#32,
    w1s := 0x00000001#32 }

/-- STC_REM (R312, 17_saffron.md). Phase still to be slewed. -/
def STC_REM : Reg :=
  { addr := 0x50050040, reset := 0x00000000#32 }

/-- STC_START_SECH (R312, 17_saffron.md). T_s seconds [47:32]. -/
def STC_START_SECH : Reg :=
  { addr := 0x50050050, reset := 0x00000000#32,
    rw := 0x0000FFFF#32 }

/-- STC_START_SECL (R312, 17_saffron.md). T_s seconds [31:0]. -/
def STC_START_SECL : Reg :=
  { addr := 0x50050054, reset := 0x00000000#32,
    rw := 0xFFFFFFFF#32 }

/-- STC_START_NS (R312, 17_saffron.md). T_s nanoseconds. -/
def STC_START_NS : Reg :=
  { addr := 0x50050058, reset := 0x00000000#32,
    rw := 0x3FFFFFFF#32 }

/-- STC_START_CTRL (R312, 17_saffron.md). Arm and cancel (R295). -/
def STC_START_CTRL : Reg :=
  { addr := 0x5005005C, reset := 0x00000000#32,
    w1s := 0x00000003#32 }

/-- DNG_CTRL (R326, 18_dongo.md). Device number. -/
def DNG_CTRL : Reg :=
  { addr := 0x500C0000, reset := 0x00000000#32,
    rw := 0x00000007#32 }

/-- DNG_STAT (R326, 18_dongo.md). Links up and aligned. -/
def DNG_STAT : Reg :=
  { addr := 0x500C0004, reset := 0x00000000#32 }

/-- DNG_Ln_CTRL (R326, 18_dongo.md). Enable, event forwarding, retries. -/
def DNG_L_CTRL (n : Nat) : Reg :=
  { addr := 0x500C0100 + 0x100 * n, reset := 0x00000030#32,
    rw := 0x000000F3#32 }

/-- DNG_Ln_STAT (R326, 18_dongo.md). State, alignment, peer. -/
def DNG_L_STAT (n : Nat) : Reg :=
  { addr := 0x500C0104 + 0x100 * n, reset := 0x00000000#32 }

/-- DNG_Ln_INT (R326, 18_dongo.md). Interrupt flags. -/
def DNG_L_INT (n : Nat) : Reg :=
  { addr := 0x500C0108 + 0x100 * n, reset := 0x00000000#32,
    w1c := 0x0000001F#32 }

/-- DNG_Ln_IEN (R326, 18_dongo.md). Interrupt enables. -/
def DNG_L_IEN (n : Nat) : Reg :=
  { addr := 0x500C010C + 0x100 * n, reset := 0x00000000#32,
    rw := 0x0000001F#32 }

/-- DNG_Ln_DELAY (R326, 18_dongo.md). Measured one-way delay. -/
def DNG_L_DELAY (n : Nat) : Reg :=
  { addr := 0x500C0110 + 0x100 * n, reset := 0x00000000#32 }

/-- DNG_Ln_DLYADJ (R326, 18_dongo.md). Delay adjustment. -/
def DNG_L_DLYADJ (n : Nat) : Reg :=
  { addr := 0x500C0114 + 0x100 * n, reset := 0x00000000#32,
    rw := 0x0000FFFF#32 }

/-- DNG_Ln_CASCi (R326, 18_dongo.md). Cascade channels 32i to 32i + 31, i = 0–7. -/
def DNG_L_CASC (n : Nat) (i : Nat) : Reg :=
  { addr := 0x500C0120 + 0x100 * n + 0x4 * i, reset := 0x00000000#32,
    rw := 0xFFFFFFFF#32 }

/-- DNG_Ln_CRC_CNT (R326, 18_dongo.md). CRC failures. -/
def DNG_L_CRC_CNT (n : Nat) : Reg :=
  { addr := 0x500C0140 + 0x100 * n, reset := 0x00000000#32,
    rc := 0xFFFFFFFF#32 }

/-- DNG_Ln_RETRY_CNT (R326, 18_dongo.md). Frames resent. -/
def DNG_L_RETRY_CNT (n : Nat) : Reg :=
  { addr := 0x500C0144 + 0x100 * n, reset := 0x00000000#32,
    rc := 0xFFFFFFFF#32 }

/-- DNG_Ln_LATE_CNT (R326, 18_dongo.md). Late audio channel-blocks. -/
def DNG_L_LATE_CNT (n : Nat) : Reg :=
  { addr := 0x500C0148 + 0x100 * n, reset := 0x00000000#32,
    rc := 0xFFFFFFFF#32 }

/-- DNG_Ln_CLATE_CNT (R326, 18_dongo.md). Late cascade terms. -/
def DNG_L_CLATE_CNT (n : Nat) : Reg :=
  { addr := 0x500C014C + 0x100 * n, reset := 0x00000000#32,
    rc := 0xFFFFFFFF#32 }

/-- DNG_Ln_DOWN_CNT (R326, 18_dongo.md). Exits from UP. -/
def DNG_L_DOWN_CNT (n : Nat) : Reg :=
  { addr := 0x500C0150 + 0x100 * n, reset := 0x00000000#32,
    rc := 0xFFFFFFFF#32 }

/-- DNG_Ln_EVDROP_CNT (R326, 18_dongo.md). Received events dropped. -/
def DNG_L_EVDROP_CNT (n : Nat) : Reg :=
  { addr := 0x500C0154 + 0x100 * n, reset := 0x00000000#32,
    rc := 0xFFFFFFFF#32 }

/-- DNG_Ln_EVLOST_CNT (R326, 18_dongo.md). Sent events lost. -/
def DNG_L_EVLOST_CNT (n : Nat) : Reg :=
  { addr := 0x500C0158 + 0x100 * n, reset := 0x00000000#32,
    rc := 0xFFFFFFFF#32 }

/-- ANI_CTRL (R347, 19_anise.md). Pairing, paths, limits. -/
def ANI_CTRL : Reg :=
  { addr := 0x500D0000, reset := 0x04030040#32,
    rw := 0xFFFF077F#32 }

/-- ANI_STAT (R347, 19_anise.md). State, peer, term. -/
def ANI_STAT : Reg :=
  { addr := 0x500D0004, reset := 0x00000000#32 }

/-- ANI_INT (R347, 19_anise.md). Interrupt flags. -/
def ANI_INT : Reg :=
  { addr := 0x500D0008, reset := 0x00000000#32,
    w1c := 0x000001FF#32 }

/-- ANI_IEN (R347, 19_anise.md). Interrupt enables. -/
def ANI_IEN : Reg :=
  { addr := 0x500D000C, reset := 0x00000000#32,
    rw := 0x000001FF#32 }

/-- ANI_CMD (R347, 19_anise.md). Take, release, copy. -/
def ANI_CMD : Reg :=
  { addr := 0x500D0010, reset := 0x00000000#32,
    w1s := 0x0000000F#32 }

/-- ANI_GATE (R347, 19_anise.md). Outputs gated while standby. -/
def ANI_GATE : Reg :=
  { addr := 0x500D0014, reset := 0x0000001F#32,
    rw := 0x0000001F#32 }

/-- ANI_EPOCH (R347, 19_anise.md). Last epoch applied. -/
def ANI_EPOCH : Reg :=
  { addr := 0x500D0018, reset := 0x00000000#32 }

/-- ANI_SEQ (R347, 19_anise.md). Its seq_last. -/
def ANI_SEQ : Reg :=
  { addr := 0x500D001C, reset := 0x00000000#32 }

/-- ANI_WSEQ (R347, 19_anise.md). Mirrored writes captured (active) or applied (standby). -/
def ANI_WSEQ : Reg :=
  { addr := 0x500D0020, reset := 0x00000000#32 }

/-- ANI_TAKE_BLOCK (R347, 19_anise.md). R341. -/
def ANI_TAKE_BLOCK : Reg :=
  { addr := 0x500D0024, reset := 0x00000000#32 }

/-- ANI_TAKE_SEQ (R347, 19_anise.md). R341. -/
def ANI_TAKE_SEQ : Reg :=
  { addr := 0x500D0028, reset := 0x00000000#32 }

/-- ANI_TAKE_WSEQ (R347, 19_anise.md). R341. -/
def ANI_TAKE_WSEQ : Reg :=
  { addr := 0x500D002C, reset := 0x00000000#32 }

/-- ANI_COPY_STAT (R347, 19_anise.md). Mirror copy state. -/
def ANI_COPY_STAT : Reg :=
  { addr := 0x500D0030, reset := 0x00000000#32,
    w1c := 0x80000000#32 }

/-- ANI_COPY_LEFT (R347, 19_anise.md). Slices still to send. -/
def ANI_COPY_LEFT : Reg :=
  { addr := 0x500D0034, reset := 0x00000000#32 }

/-- ANI_DISC_CNT (R347, 19_anise.md). Epochs discarded. -/
def ANI_DISC_CNT : Reg :=
  { addr := 0x500D0040, reset := 0x00000000#32,
    rc := 0xFFFFFFFF#32 }

/-- ANI_HMIS_CNT (R347, 19_anise.md). Hash mismatches. -/
def ANI_HMIS_CNT : Reg :=
  { addr := 0x500D0044, reset := 0x00000000#32,
    rc := 0xFFFFFFFF#32 }

/-- ANI_IMISS_CNT (R347, 19_anise.md). Mirrored inputs missing. -/
def ANI_IMISS_CNT : Reg :=
  { addr := 0x500D0048, reset := 0x00000000#32,
    rc := 0xFFFFFFFF#32 }

/-- ANI_HLOSS_CNT (R347, 19_anise.md). Path H losses. -/
def ANI_HLOSS_CNT : Reg :=
  { addr := 0x500D004C, reset := 0x00000000#32,
    rc := 0xFFFFFFFF#32 }

/-- ANI_MLOSS_CNT (R347, 19_anise.md). Path M losses. -/
def ANI_MLOSS_CNT : Reg :=
  { addr := 0x500D0050, reset := 0x00000000#32,
    rc := 0xFFFFFFFF#32 }

/-- ANI_TAKE_CNT (R347, 19_anise.md). Takeovers. -/
def ANI_TAKE_CNT : Reg :=
  { addr := 0x500D0054, reset := 0x00000000#32,
    rc := 0xFFFFFFFF#32 }

/-- ANI_HASH (R347, 19_anise.md). Own hash, last block. -/
def ANI_HASH : Reg :=
  { addr := 0x500D0058, reset := 0x00000000#32 }

/-- ANI_PHASH (R347, 19_anise.md). Peer hash, same block. -/
def ANI_PHASH : Reg :=
  { addr := 0x500D005C, reset := 0x00000000#32 }

/-- ANI_SBWR_CNT (R347, 19_anise.md). Host writes discarded on a standby (R331). -/
def ANI_SBWR_CNT : Reg :=
  { addr := 0x500D0060, reset := 0x00000000#32,
    rc := 0xFFFFFFFF#32 }

/-- HIF_ID (R366, 20_host_house.md). Device ID. -/
def HIF_ID : Reg :=
  { addr := 0x50100000, reset := 0x00005124#32 }

/-- HIF_CTRL (R366, 20_host_house.md). Error completion. -/
def HIF_CTRL : Reg :=
  { addr := 0x50100004, reset := 0x00000000#32,
    rw := 0x00000001#32, owner := true }

/-- HIF_STAT (R366, 20_host_house.md). Link state. -/
def HIF_STAT : Reg :=
  { addr := 0x50100008, reset := 0x00000000#32 }

/-- HIF_INT (R366, 20_host_house.md). Interrupt flags. -/
def HIF_INT : Reg :=
  { addr := 0x5010000C, reset := 0x00000000#32,
    w1c := 0x00000003#32 }

/-- HIF_IEN (R366, 20_host_house.md). Interrupt enables. -/
def HIF_IEN : Reg :=
  { addr := 0x50100010, reset := 0x00000000#32,
    rw := 0x00000003#32 }

/-- HIF_ERR_CNT (R366, 20_host_house.md). Error responses. -/
def HIF_ERR_CNT : Reg :=
  { addr := 0x50100014, reset := 0x00000000#32,
    rc := 0xFFFFFFFF#32 }

/-- HIF_ERRLOG (R366, 20_host_house.md). First error. -/
def HIF_ERRLOG : Reg :=
  { addr := 0x50100018, reset := 0x00000000#32,
    w1c := 0x80000000#32 }

/-- HIF_ERRADDR (R366, 20_host_house.md). Its address. -/
def HIF_ERRADDR : Reg :=
  { addr := 0x5010001C, reset := 0x00000000#32 }

/-- HIF_ISUM (R366, 20_host_house.md). Blocks with enabled flags. -/
def HIF_ISUM : Reg :=
  { addr := 0x50100020, reset := 0x00000000#32 }

/-- HIF_ISUM_ENG (R366, 20_host_house.md). Engines with enabled flags. -/
def HIF_ISUM_ENG : Reg :=
  { addr := 0x50100024, reset := 0x00000000#32 }

/-- HIF_VFN (R366, 20_host_house.md). Vector function. -/
def HIF_VFN : Reg :=
  { addr := 0x50100028, reset := 0x00000000#32,
    rw := 0x000000FD#32, owner := true }

/-- HIF_IREARM (R366, 20_host_house.md). Re-arm vectors. -/
def HIF_IREARM : Reg :=
  { addr := 0x5010002C, reset := 0x00000000#32,
    wo := 0x000000FF#32 }

/-- HIF_DINT (R366, 20_host_house.md). DMA flags. -/
def HIF_DINT : Reg :=
  { addr := 0x50100030, reset := 0x00000000#32,
    w1c := 0x0000000F#32 }

/-- HIF_DIEN (R366, 20_host_house.md). DMA enables. -/
def HIF_DIEN : Reg :=
  { addr := 0x50100034, reset := 0x00000000#32,
    rw := 0x0000000F#32 }

/-- HSE_MBm_CMD (R367, 20_host_house.md). Command header. -/
def HSE_MB_CMD (m : Nat) : Reg :=
  { addr := 0x50110000 + 0x100 * m, reset := 0x00000000#32,
    rw := 0xFF1F00FF#32 }

/-- HSE_MBm_DOOR (R367, 20_host_house.md). Start. -/
def HSE_MB_DOOR (m : Nat) : Reg :=
  { addr := 0x50110004 + 0x100 * m, reset := 0x00000000#32,
    w1s := 0x00000001#32 }

/-- HSE_MBm_STAT (R367, 20_host_house.md). Outcome. -/
def HSE_MB_STAT (m : Nat) : Reg :=
  { addr := 0x50110008 + 0x100 * m, reset := 0x00000000#32,
    w1c := 0xA0000000#32 }

/-- HSE_MBm_TO (R367, 20_host_house.md). Timeout. -/
def HSE_MB_TO (m : Nat) : Reg :=
  { addr := 0x5011000C + 0x100 * m, reset := 0x00000064#32,
    rw := 0x000003FF#32 }

/-- HSE_MBm_ARGk (R367, 20_host_house.md). Argument k, k = 0–15. -/
def HSE_MB_ARG (m : Nat) (k : Nat) : Reg :=
  { addr := 0x50110040 + 0x100 * m + 0x4 * k, reset := 0x00000000#32,
    rw := 0xFFFFFFFF#32 }

/-- HSE_MBm_RSPk (R367, 20_host_house.md). Response k. -/
def HSE_MB_RSP (m : Nat) (k : Nat) : Reg :=
  { addr := 0x50110080 + 0x100 * m + 0x4 * k, reset := 0x00000000#32 }

/-- HSE_CORE_STAT (R367, 20_host_house.md). Core states. -/
def HSE_CORE_STAT : Reg :=
  { addr := 0x50110400, reset := 0x00000000#32 }

/-- HSE_HOUSE_STAT (R367, 20_host_house.md). Shed level, loads. -/
def HSE_HOUSE_STAT : Reg :=
  { addr := 0x50110404, reset := 0x00000000#32 }

/-- HSE_FW_VER (R367, 20_host_house.md). Image version in force. -/
def HSE_FW_VER : Reg :=
  { addr := 0x50110408, reset := 0x00000000#32 }

/-- HSE_FW_ERR (R367, 20_host_house.md). Last rejection. -/
def HSE_FW_ERR : Reg :=
  { addr := 0x5011040C, reset := 0x00000000#32 }

/-- HSE_INT (R367, 20_host_house.md). Interrupt flags. -/
def HSE_INT : Reg :=
  { addr := 0x50110410, reset := 0x00000000#32,
    w1c := 0x00000007#32 }

/-- HSE_IEN (R367, 20_host_house.md). Interrupt enables. -/
def HSE_IEN : Reg :=
  { addr := 0x50110414, reset := 0x00000000#32,
    rw := 0x00000007#32 }

/-- HSE_LATE_CNT (R367, 20_host_house.md). Late answers. -/
def HSE_LATE_CNT : Reg :=
  { addr := 0x50110418, reset := 0x00000000#32,
    rc := 0xFFFFFFFF#32 }

/-- HSE_SHED_CNT (R367, 20_host_house.md). Level rises. -/
def HSE_SHED_CNT : Reg :=
  { addr := 0x5011041C, reset := 0x00000000#32,
    rc := 0xFFFFFFFF#32 }

/-- HSE_WDT_CNT (R367, 20_host_house.md). Watchdog resets. -/
def HSE_WDT_CNT : Reg :=
  { addr := 0x50110420, reset := 0x00000000#32,
    rc := 0xFFFFFFFF#32 }

/-- CDMAn_CHc_CTRL (R368, 20_host_house.md). Start, abort. -/
def CDMA_CH_CTRL (n : Nat) (c : Nat) : Reg :=
  { addr := 0x50120000 + 0x400 * n + 0x20 * c, reset := 0x00000000#32,
    w1s := 0x00000003#32 }

/-- CDMAn_CHc_DESC (R368, 20_host_house.md). First descriptor. -/
def CDMA_CH_DESC (n : Nat) (c : Nat) : Reg :=
  { addr := 0x50120004 + 0x400 * n + 0x20 * c, reset := 0x00000000#32,
    rw := 0xFFFFFFE0#32 }

/-- CDMAn_CHc_CUR (R368, 20_host_house.md). Descriptor in progress. -/
def CDMA_CH_CUR (n : Nat) (c : Nat) : Reg :=
  { addr := 0x50120008 + 0x400 * n + 0x20 * c, reset := 0x00000000#32 }

/-- CDMAn_CHc_STAT (R368, 20_host_house.md). State and outcome. -/
def CDMA_CH_STAT (n : Nat) (c : Nat) : Reg :=
  { addr := 0x5012000C + 0x400 * n + 0x20 * c, reset := 0x00000000#32,
    w1c := 0x80000000#32 }

/-- CDMAn_CHc_MOVED (R368, 20_host_house.md). Bytes moved. -/
def CDMA_CH_MOVED (n : Nat) (c : Nat) : Reg :=
  { addr := 0x50120010 + 0x400 * n + 0x20 * c, reset := 0x00000000#32 }

/-- CDMAn_INT (R368, 20_host_house.md). Channel flags. -/
def CDMA_INT (n : Nat) : Reg :=
  { addr := 0x50120100 + 0x400 * n, reset := 0x00000000#32,
    w1c := 0x000000FF#32 }

/-- CDMAn_IEN (R368, 20_host_house.md). Channel enables. -/
def CDMA_IEN (n : Nat) : Reg :=
  { addr := 0x50120104 + 0x400 * n, reset := 0x00000000#32,
    rw := 0x000000FF#32 }

/-- PWR_CTRL (R378, 21_power.md). Target state, FAULT_N on alarm. -/
def PWR_CTRL : Reg :=
  { addr := 0x50010000, reset := 0x00000101#32,
    rw := 0x00000107#32, owner := true }

/-- PWR_REQ (R378, 21_power.md). Enter, wake. -/
def PWR_REQ : Reg :=
  { addr := 0x50010004, reset := 0x00000000#32,
    w1s := 0x00000003#32, owner := true }

/-- PWR_STAT (R378, 21_power.md). State, refusal, last wake. -/
def PWR_STAT : Reg :=
  { addr := 0x50010008, reset := 0x00000000#32 }

/-- PWR_INT (R378, 21_power.md). Interrupt flags. -/
def PWR_INT : Reg :=
  { addr := 0x5001000C, reset := 0x00000000#32,
    w1c := 0x0000000F#32 }

/-- PWR_IEN (R378, 21_power.md). Interrupt enables. -/
def PWR_IEN : Reg :=
  { addr := 0x50010010, reset := 0x00000000#32,
    rw := 0x0000000F#32 }

/-- PWR_WAKE_EN (R378, 21_power.md). Wake sources. -/
def PWR_WAKE_EN : Reg :=
  { addr := 0x50010014, reset := 0x00000000#32,
    rw := 0x0003FFFF#32, owner := true }

/-- PWR_WAKE_POL (R378, 21_power.md). GPIO wake edges. -/
def PWR_WAKE_POL : Reg :=
  { addr := 0x50010018, reset := 0x00000000#32,
    rw := 0x0000FFFF#32, owner := true }

/-- PWR_AON_TIMER (R378, 21_power.md). Wake delay. -/
def PWR_AON_TIMER : Reg :=
  { addr := 0x5001001C, reset := 0x00000000#32,
    rw := 0xFFFFFFFF#32, owner := true }

/-- PWR_GATE_STAT (R378, 21_power.md). Gated units. -/
def PWR_GATE_STAT : Reg :=
  { addr := 0x50010020, reset := 0x00000000#32 }

/-- PWR_GATE_ENG (R378, 21_power.md). Gated engines. -/
def PWR_GATE_ENG : Reg :=
  { addr := 0x50010024, reset := 0x00000000#32 }

/-- PWR_TB_BASE (R378, 21_power.md). base. -/
def PWR_TB_BASE : Reg :=
  { addr := 0x50010030, reset := 0x00000010#32,
    rw := 0x0000FFFF#32 }

/-- PWR_TB_TEMP (R378, 21_power.md). t_hi, t_lo. -/
def PWR_TB_TEMP : Reg :=
  { addr := 0x50010034, reset := 0x06400550#32,
    rw := 0xFFFFFFFF#32 }

/-- PWR_TB_PCAP (R378, 21_power.md). p_cap. -/
def PWR_TB_PCAP : Reg :=
  { addr := 0x50010038, reset := 0x00006D60#32,
    rw := 0x0000FFFF#32 }

/-- PWR_TB_B (R378, 21_power.md). b of the last refresh. -/
def PWR_TB_B : Reg :=
  { addr := 0x5001003C, reset := 0x00000000#32 }

/-- PWR_PEST (R378, 21_power.md). Power estimate. -/
def PWR_PEST : Reg :=
  { addr := 0x50010040, reset := 0x00000000#32 }

/-- PWR_TALARM (R378, 21_power.md). Alarm temperature. -/
def PWR_TALARM : Reg :=
  { addr := 0x50010044, reset := 0x00000690#32,
    rw := 0x0000FFFF#32 }

/-- PWR_TMAX (R378, 21_power.md). T_max. -/
def PWR_TMAX : Reg :=
  { addr := 0x50010048, reset := 0x00000000#32 }

/-- PWR_TPEAK (R378, 21_power.md). Highest T_max since read, under R403. -/
def PWR_TPEAK : Reg :=
  { addr := 0x5001004C, reset := 0x00000000#32,
    rc := 0x0000FFFF#32 }

/-- PWR_TSENSi (R378, 21_power.md). Sensor i, i = 0–8. -/
def PWR_TSENS (i : Nat) : Reg :=
  { addr := 0x50010050 + 0x4 * i, reset := 0x00000000#32 }

/-- PWR_AON_STAT (R378, 21_power.md). Sticky S4 and trip flags. -/
def PWR_AON_STAT : Reg :=
  { addr := 0x50010080, reset := 0x00000000#32,
    w1c := 0x00000003#32 }

/-- PWR_HOT_CNT (R378, 21_power.md). Blocks at or above the alarm. -/
def PWR_HOT_CNT : Reg :=
  { addr := 0x50010084, reset := 0x00000000#32,
    rc := 0xFFFFFFFF#32 }

/-- SYS_ID (R385, 22_startup.md). Part and revision (R2). -/
def SYS_ID : Reg :=
  { addr := 0x50000000, reset := Config.sysId Config.revision }

/-- SYS_RST_CAUSE (R385, 22_startup.md). Causes of the resets since the last clear (R386). -/
def SYS_RST_CAUSE : Reg :=
  { addr := 0x50000004, reset := 0x00000001#32,
    w1c := 0x0000001F#32 }

/-- SYS_RST_CTRL (R385, 22_startup.md). System reset. -/
def SYS_RST_CTRL : Reg :=
  { addr := 0x50000008, reset := 0x00000000#32,
    wo := 0xFFFF0001#32, owner := true }

/-- SYS_BOOT_STAT (R385, 22_startup.md). Boot progress. -/
def SYS_BOOT_STAT : Reg :=
  { addr := 0x5000000C, reset := 0x00000000#32 }

/-- SYS_BOOT_CTRL (R385, 22_startup.md). Host-download start. -/
def SYS_BOOT_CTRL : Reg :=
  { addr := 0x50000010, reset := 0x00000000#32,
    w1s := 0x00000001#32, owner := true }

/-- SYS_REJLOG (R385, 22_startup.md). First rejected write (R10). -/
def SYS_REJLOG : Reg :=
  { addr := 0x50000020, reset := 0x00000000#32,
    w1c := 0x80000000#32 }

/-- SYS_REJADDR (R385, 22_startup.md). Its address. -/
def SYS_REJADDR : Reg :=
  { addr := 0x50000024, reset := 0x00000000#32 }

/-- SYS_REJDATA (R385, 22_startup.md). Its data. -/
def SYS_REJDATA : Reg :=
  { addr := 0x50000028, reset := 0x00000000#32 }

/-- SYS_REJ_CNT (R385, 22_startup.md). Rejected writes. -/
def SYS_REJ_CNT : Reg :=
  { addr := 0x5000002C, reset := 0x00000000#32,
    rc := 0xFFFFFFFF#32 }

/-- TST_FUSE_STAT (R385, 22_startup.md). Fuse load state. -/
def TST_FUSE_STAT : Reg :=
  { addr := 0x50130000, reset := 0x00000000#32 }

/-- TST_FUSE_MINVER (R385, 22_startup.md). Fused minimum image version. -/
def TST_FUSE_MINVER : Reg :=
  { addr := 0x50130004, reset := 0x00000000#32 }

/-- HIF_CHc_CTRL (R366, 20_host_house.md). DMA channel, layout of R368. -/
def HIF_CH_CTRL (c : Nat) : Reg :=
  { addr := 0x50100400 + 0x20 * c, reset := 0x00000000#32,
    rw := 0x00000100#32, w1s := 0x00000003#32 }

/-- HIF_CHc_DESC (R366, 20_host_house.md). DMA channel, layout of R368. -/
def HIF_CH_DESC (c : Nat) : Reg :=
  { addr := 0x50100404 + 0x20 * c, reset := 0x00000000#32,
    rw := 0xFFFFFFE0#32 }

/-- HIF_CHc_CUR (R366, 20_host_house.md). DMA channel, layout of R368. -/
def HIF_CH_CUR (c : Nat) : Reg :=
  { addr := 0x50100408 + 0x20 * c, reset := 0x00000000#32 }

/-- HIF_CHc_STAT (R366, 20_host_house.md). DMA channel, layout of R368. -/
def HIF_CH_STAT (c : Nat) : Reg :=
  { addr := 0x5010040C + 0x20 * c, reset := 0x00000000#32,
    w1c := 0x80000000#32 }

/-- HIF_CHc_MOVED (R366, 20_host_house.md). DMA channel, layout of R368. -/
def HIF_CH_MOVED (c : Nat) : Reg :=
  { addr := 0x50100410 + 0x20 * c, reset := 0x00000000#32 }

/-- Register rows of block 00, part 0. -/
def rows_00_0 : List RegRow :=
  [ ⟨0x50000100, [], fun _ => SYS_FRM_CTRL⟩,
    ⟨0x50000104, [], fun _ => SYS_FRM_SPLIT⟩,
    ⟨0x50000108, [], fun _ => SYS_FRM_PERIOD⟩,
    ⟨0x5000010C, [], fun _ => SYS_FRM_WSTRIP⟩,
    ⟨0x50000110, [], fun _ => SYS_FRM_WSUM⟩,
    ⟨0x50000114, [], fun _ => SYS_FRM_WBUS⟩,
    ⟨0x50000118, [], fun _ => SYS_FRM_GUARD⟩,
    ⟨0x5000011C, [], fun _ => SYS_FRM_BLOCK⟩,
    ⟨0x50000120, [], fun _ => SYS_FRM_TICK_SECL⟩,
    ⟨0x50000124, [], fun _ => SYS_FRM_TICK_NS⟩,
    ⟨0x50000128, [], fun _ => SYS_FRM_DEV⟩,
    ⟨0x5000012C, [], fun _ => SYS_FRM_CUT⟩,
    ⟨0x50000130, [], fun _ => SYS_FRM_STAT⟩,
    ⟨0x50000134, [], fun _ => SYS_FRM_INT⟩,
    ⟨0x50000138, [], fun _ => SYS_FRM_IEN⟩,
    ⟨0x50000000, [], fun _ => SYS_ID⟩,
    ⟨0x50000004, [], fun _ => SYS_RST_CAUSE⟩,
    ⟨0x50000008, [], fun _ => SYS_RST_CTRL⟩,
    ⟨0x5000000C, [], fun _ => SYS_BOOT_STAT⟩,
    ⟨0x50000010, [], fun _ => SYS_BOOT_CTRL⟩,
    ⟨0x50000020, [], fun _ => SYS_REJLOG⟩,
    ⟨0x50000024, [], fun _ => SYS_REJADDR⟩,
    ⟨0x50000028, [], fun _ => SYS_REJDATA⟩,
    ⟨0x5000002C, [], fun _ => SYS_REJ_CNT⟩ ]

/-- All register rows of block 00. -/
def rows_00 : List RegRow := rows_00_0

/-- Register rows of block 01, part 0. -/
def rows_01_0 : List RegRow :=
  [ ⟨0x50010000, [], fun _ => PWR_CTRL⟩,
    ⟨0x50010004, [], fun _ => PWR_REQ⟩,
    ⟨0x50010008, [], fun _ => PWR_STAT⟩,
    ⟨0x5001000C, [], fun _ => PWR_INT⟩,
    ⟨0x50010010, [], fun _ => PWR_IEN⟩,
    ⟨0x50010014, [], fun _ => PWR_WAKE_EN⟩,
    ⟨0x50010018, [], fun _ => PWR_WAKE_POL⟩,
    ⟨0x5001001C, [], fun _ => PWR_AON_TIMER⟩,
    ⟨0x50010020, [], fun _ => PWR_GATE_STAT⟩,
    ⟨0x50010024, [], fun _ => PWR_GATE_ENG⟩,
    ⟨0x50010030, [], fun _ => PWR_TB_BASE⟩,
    ⟨0x50010034, [], fun _ => PWR_TB_TEMP⟩,
    ⟨0x50010038, [], fun _ => PWR_TB_PCAP⟩,
    ⟨0x5001003C, [], fun _ => PWR_TB_B⟩,
    ⟨0x50010040, [], fun _ => PWR_PEST⟩,
    ⟨0x50010044, [], fun _ => PWR_TALARM⟩,
    ⟨0x50010048, [], fun _ => PWR_TMAX⟩,
    ⟨0x5001004C, [], fun _ => PWR_TPEAK⟩,
    ⟨0x50010050, [(0x4, 9)], fun ix => PWR_TSENS (ix.getD 0 0)⟩,
    ⟨0x50010080, [], fun _ => PWR_AON_STAT⟩,
    ⟨0x50010084, [], fun _ => PWR_HOT_CNT⟩ ]

/-- All register rows of block 01. -/
def rows_01 : List RegRow := rows_01_0

/-- Register rows of block 02, part 0. -/
def rows_02_0 : List RegRow :=
  [ ⟨0x50020000, [], fun _ => BMX_STAT⟩,
    ⟨0x50020004, [], fun _ => BMX_INT⟩,
    ⟨0x50020008, [], fun _ => BMX_IEN⟩,
    ⟨0x5002000C, [], fun _ => BMX_ERR_CNT⟩,
    ⟨0x50020010, [], fun _ => BMX_ERRLOG⟩,
    ⟨0x50020014, [], fun _ => BMX_ERRADDR⟩,
    ⟨0x50020018, [], fun _ => BMX_FARERR⟩,
    ⟨0x5002001C, [], fun _ => BMX_FARERR_CNT⟩,
    ⟨0x50020020, [], fun _ => BMX_SLICE⟩,
    ⟨0x50020024, [], fun _ => BMX_SLICE_STAT⟩,
    ⟨0x50020028, [], fun _ => BMX_LOCK_TO⟩,
    ⟨0x50020040, [(0x4, 12)], fun ix => BMX_WAITMAX (ix.getD 0 0)⟩,
    ⟨0x50020100, [(0x8, 12)], fun ix => BMX_PRI_LO (ix.getD 0 0)⟩,
    ⟨0x50020104, [(0x8, 12)], fun ix => BMX_PRI_HI (ix.getD 0 0)⟩,
    ⟨0x50021000, [(0x100, 12), (0x10, 16)], fun ix => BMX_WIN_BASE (ix.getD 0 0) (ix.getD 1 0)⟩,
    ⟨0x50021004, [(0x100, 12), (0x10, 16)], fun ix => BMX_WIN_LIMIT (ix.getD 0 0) (ix.getD 1 0)⟩,
    ⟨0x50021008, [(0x100, 12), (0x10, 16)], fun ix => BMX_WIN_ATTR (ix.getD 0 0) (ix.getD 1 0)⟩ ]

/-- All register rows of block 02. -/
def rows_02 : List RegRow := rows_02_0

/-- Register rows of block 03, part 0. -/
def rows_03_0 : List RegRow :=
  [ ⟨0x50032000, [], fun _ => CLV_MIG_SRC⟩,
    ⟨0x50032004, [], fun _ => CLV_MIG_DST⟩,
    ⟨0x50032008, [], fun _ => CLV_MIG_TAPS⟩,
    ⟨0x5003200C, [], fun _ => CLV_MIG_POOL⟩,
    ⟨0x50032010, [], fun _ => CLV_MIG_BLOCK⟩,
    ⟨0x50032014, [], fun _ => CLV_MIG_CTRL⟩,
    ⟨0x50032018, [], fun _ => CLV_MIG_STAT⟩,
    ⟨0x5003201C, [], fun _ => CLV_MIG_DIFF⟩,
    ⟨0x50030000, [], fun _ => CLV_STAT⟩,
    ⟨0x50030004, [], fun _ => CLV_INT⟩,
    ⟨0x50030008, [], fun _ => CLV_IEN⟩,
    ⟨0x5003000C, [], fun _ => CLV_QCFG⟩,
    ⟨0x50030010, [], fun _ => CLV_BGCOST⟩,
    ⟨0x50030014, [], fun _ => CLV_BGCAP⟩,
    ⟨0x50030018, [], fun _ => CLV_BGALLOW⟩,
    ⟨0x5003001C, [], fun _ => CLV_BGWAIT_CNT⟩,
    ⟨0x50030020, [], fun _ => CLV_SEQ⟩,
    ⟨0x50030024, [], fun _ => CLV_SEQ_APPLIED⟩,
    ⟨0x50030028, [], fun _ => CLV_DISC_CNT⟩,
    ⟨0x5003002C, [], fun _ => CLV_STALE_CNT⟩,
    ⟨0x50030030, [], fun _ => CLV_DROP_CNT⟩,
    ⟨0x50030034, [], fun _ => CLV_BUSY_CNT⟩,
    ⟨0x50030038, [], fun _ => CLV_BADPOST_CNT⟩,
    ⟨0x50030040, [], fun _ => CLV_FLOW_SEL⟩ ]

/-- Register rows of block 03, part 1. -/
def rows_03_1 : List RegRow :=
  [ ⟨0x50030044, [], fun _ => CLV_FLOW_STAT⟩,
    ⟨0x50030080, [(0x4, 2)], fun ix => CLV_HNE (ix.getD 0 0)⟩,
    ⟨0x50030100, [(0x40, 4)], fun ix => CLV_POST_HDR (ix.getD 0 0)⟩,
    ⟨0x50030104, [(0x40, 4)], fun ix => CLV_POST_TSEC (ix.getD 0 0)⟩,
    ⟨0x50030108, [(0x40, 4)], fun ix => CLV_POST_TNS (ix.getD 0 0)⟩,
    ⟨0x5003010C, [(0x40, 4), (0x4, 5)], fun ix => CLV_POST_P (ix.getD 0 0) (ix.getD 1 0)⟩,
    ⟨0x50030120, [(0x40, 4)], fun ix => CLV_POST_RES (ix.getD 0 0)⟩,
    ⟨0x50030124, [(0x40, 4)], fun ix => CLV_POST_SEQ (ix.getD 0 0)⟩,
    ⟨0x50030200, [], fun _ => CLV_HPOP⟩,
    ⟨0x50030204, [], fun _ => CLV_HPOP_STAT⟩,
    ⟨0x50030220, [(0x4, 8)], fun ix => CLV_HREC (ix.getD 0 0)⟩ ]

/-- All register rows of block 03. -/
def rows_03 : List RegRow := rows_03_0 ++ rows_03_1

/-- Register rows of block 04, part 0. -/
def rows_04_0 : List RegRow :=
  [ ⟨0x50040000, [], fun _ => SAF_CTRL⟩,
    ⟨0x50040004, [], fun _ => SAF_STAT⟩,
    ⟨0x50040008, [], fun _ => SAF_INT⟩,
    ⟨0x5004000C, [], fun _ => SAF_IEN⟩,
    ⟨0x50040010, [], fun _ => SAF_STEER⟩,
    ⟨0x50040014, [], fun _ => SAF_HIST⟩,
    ⟨0x50040018, [], fun _ => SAF_HOLD_SEC⟩,
    ⟨0x5004001C, [], fun _ => SAF_PHERR⟩,
    ⟨0x50040020, [], fun _ => SAF_SLEW⟩,
    ⟨0x50040024, [], fun _ => SAF_LOCKTH⟩,
    ⟨0x50040028, [], fun _ => SAF_HLEN⟩,
    ⟨0x5004002C, [], fun _ => SAF_SWITCH_CNT⟩,
    ⟨0x50040030, [], fun _ => SAF_DISQ_CNT⟩,
    ⟨0x50040034, [], fun _ => SAF_SOFT_CNT⟩,
    ⟨0x50040038, [], fun _ => SAF_HOLD_CNT⟩,
    ⟨0x5004003C, [], fun _ => SAF_GLITCH_CNT⟩,
    ⟨0x50040040, [], fun _ => SAF_TM_T0⟩,
    ⟨0x50040044, [], fun _ => SAF_TM_C1⟩,
    ⟨0x50040048, [], fun _ => SAF_TM_C2⟩,
    ⟨0x5004004C, [], fun _ => SAF_TM_C3⟩,
    ⟨0x50040050, [], fun _ => SAF_AGE⟩,
    ⟨0x50040054, [], fun _ => SAF_TEMP⟩,
    ⟨0x50040058, [], fun _ => SAF_LOS_CNT⟩,
    ⟨0x50040060, [], fun _ => SAF_VID_CFG⟩ ]

/-- Register rows of block 04, part 1. -/
def rows_04_1 : List RegRow :=
  [ ⟨0x50040070, [(0x4, 4)], fun ix => SAF_MCLK (ix.getD 0 0)⟩,
    ⟨0x50040100, [(0x20, 8)], fun ix => SAF_REF_CFG (ix.getD 0 0)⟩,
    ⟨0x50040104, [(0x20, 8)], fun ix => SAF_REF_TOL (ix.getD 0 0)⟩,
    ⟨0x50040108, [(0x20, 8)], fun ix => SAF_REF_TIME (ix.getD 0 0)⟩,
    ⟨0x5004010C, [(0x20, 8)], fun ix => SAF_REF_STAT (ix.getD 0 0)⟩,
    ⟨0x50040110, [(0x20, 8)], fun ix => SAF_REF_FREQ (ix.getD 0 0)⟩,
    ⟨0x50040114, [(0x20, 8)], fun ix => SAF_REF_DEV (ix.getD 0 0)⟩,
    ⟨0x50040118, [(0x20, 8)], fun ix => SAF_REF_DRIFT (ix.getD 0 0)⟩,
    ⟨0x5004011C, [(0x20, 8)], fun ix => SAF_REF_PHASE (ix.getD 0 0)⟩ ]

/-- All register rows of block 04. -/
def rows_04 : List RegRow := rows_04_0 ++ rows_04_1

/-- Register rows of block 05, part 0. -/
def rows_05_0 : List RegRow :=
  [ ⟨0x50050000, [], fun _ => STC_CTRL⟩,
    ⟨0x50050004, [], fun _ => STC_STAT⟩,
    ⟨0x50050008, [], fun _ => STC_INT⟩,
    ⟨0x5005000C, [], fun _ => STC_IEN⟩,
    ⟨0x50050010, [], fun _ => STC_SNAP⟩,
    ⟨0x50050014, [], fun _ => STC_SNAP_SECH⟩,
    ⟨0x50050018, [], fun _ => STC_SNAP_SECL⟩,
    ⟨0x5005001C, [], fun _ => STC_SNAP_NS⟩,
    ⟨0x50050020, [], fun _ => STC_SNAP_FRAC⟩,
    ⟨0x50050030, [], fun _ => STC_SET_SECH⟩,
    ⟨0x50050034, [], fun _ => STC_SET_SECL⟩,
    ⟨0x50050038, [], fun _ => STC_SET_NS⟩,
    ⟨0x5005003C, [], fun _ => STC_SET_CTRL⟩,
    ⟨0x50050040, [], fun _ => STC_REM⟩,
    ⟨0x50050050, [], fun _ => STC_START_SECH⟩,
    ⟨0x50050054, [], fun _ => STC_START_SECL⟩,
    ⟨0x50050058, [], fun _ => STC_START_NS⟩,
    ⟨0x5005005C, [], fun _ => STC_START_CTRL⟩ ]

/-- All register rows of block 05. -/
def rows_05 : List RegRow := rows_05_0

/-- Register rows of block 06, part 0. -/
def rows_06_0 : List RegRow :=
  [ ⟨0x50060000, [(0x100, 24)], fun ix => SAP_CTRL (ix.getD 0 0)⟩,
    ⟨0x50060004, [(0x100, 24)], fun ix => SAP_FMT (ix.getD 0 0)⟩,
    ⟨0x50060008, [(0x100, 24)], fun ix => SAP_RXMASK (ix.getD 0 0)⟩,
    ⟨0x5006000C, [(0x100, 24)], fun ix => SAP_TXMASK (ix.getD 0 0)⟩,
    ⟨0x50060010, [(0x100, 24)], fun ix => SAP_COMMIT (ix.getD 0 0)⟩,
    ⟨0x50060014, [(0x100, 24)], fun ix => SAP_RXMASK_LIVE (ix.getD 0 0)⟩,
    ⟨0x50060018, [(0x100, 24)], fun ix => SAP_TXMASK_LIVE (ix.getD 0 0)⟩,
    ⟨0x5006001C, [(0x100, 24)], fun ix => SAP_STAT (ix.getD 0 0)⟩,
    ⟨0x50060020, [(0x100, 24)], fun ix => SAP_INT (ix.getD 0 0)⟩,
    ⟨0x50060024, [(0x100, 24)], fun ix => SAP_IEN (ix.getD 0 0)⟩,
    ⟨0x50060028, [(0x100, 24)], fun ix => SAP_PHASE (ix.getD 0 0)⟩,
    ⟨0x5006002C, [(0x100, 24)], fun ix => SAP_RATE (ix.getD 0 0)⟩,
    ⟨0x50060030, [(0x100, 24)], fun ix => SAP_RXTS_SEC (ix.getD 0 0)⟩,
    ⟨0x50060034, [(0x100, 24)], fun ix => SAP_RXTS_NS (ix.getD 0 0)⟩,
    ⟨0x50060038, [(0x100, 24)], fun ix => SAP_TXTS_SEC (ix.getD 0 0)⟩,
    ⟨0x5006003C, [(0x100, 24)], fun ix => SAP_TXTS_NS (ix.getD 0 0)⟩,
    ⟨0x50060040, [(0x100, 24)], fun ix => SAP_RXRING (ix.getD 0 0)⟩,
    ⟨0x50060044, [(0x100, 24)], fun ix => SAP_TXRING (ix.getD 0 0)⟩,
    ⟨0x50060048, [(0x100, 24)], fun ix => SAP_RINGCFG (ix.getD 0 0)⟩,
    ⟨0x50060050, [(0x100, 24)], fun ix => SAP_FERR_CNT (ix.getD 0 0)⟩,
    ⟨0x50060054, [(0x100, 24)], fun ix => SAP_SLIP_CNT (ix.getD 0 0)⟩,
    ⟨0x50060058, [(0x100, 24)], fun ix => SAP_CLKLOSS_CNT (ix.getD 0 0)⟩,
    ⟨0x5006005C, [(0x100, 24)], fun ix => SAP_UNDER_CNT (ix.getD 0 0)⟩,
    ⟨0x50060060, [(0x100, 24)], fun ix => SAP_RDROP_CNT (ix.getD 0 0)⟩ ]

/-- Register rows of block 06, part 1. -/
def rows_06_1 : List RegRow :=
  [ ⟨0x50060064, [(0x100, 24)], fun ix => SAP_UNCONV (ix.getD 0 0)⟩,
    ⟨0x50062000, [], fun _ => SAP_GRP_CTRL⟩,
    ⟨0x50062004, [], fun _ => SAP_GRP_STAT⟩,
    ⟨0x50062008, [], fun _ => SAP_INTSUM⟩ ]

/-- All register rows of block 06. -/
def rows_06 : List RegRow := rows_06_0 ++ rows_06_1

/-- Register rows of block 07, part 0. -/
def rows_07_0 : List RegRow :=
  [ ⟨0x50070000, [(0x100, 8)], fun ix => AES_RX_CTRL (ix.getD 0 0)⟩,
    ⟨0x50070004, [(0x100, 8)], fun ix => AES_RX_STAT (ix.getD 0 0)⟩,
    ⟨0x50070008, [(0x100, 8)], fun ix => AES_RX_INT (ix.getD 0 0)⟩,
    ⟨0x5007000C, [(0x100, 8)], fun ix => AES_RX_IEN (ix.getD 0 0)⟩,
    ⟨0x50070010, [(0x100, 8)], fun ix => AES_RX_RATE (ix.getD 0 0)⟩,
    ⟨0x50070020, [(0x100, 8), (0x4, 6)], fun ix => AES_RX_CSA (ix.getD 0 0) (ix.getD 1 0)⟩,
    ⟨0x50070038, [(0x100, 8), (0x4, 6)], fun ix => AES_RX_CSB (ix.getD 0 0) (ix.getD 1 0)⟩,
    ⟨0x50070050, [(0x100, 8), (0x4, 6)], fun ix => AES_RX_UA (ix.getD 0 0) (ix.getD 1 0)⟩,
    ⟨0x50070068, [(0x100, 8), (0x4, 6)], fun ix => AES_RX_UB (ix.getD 0 0) (ix.getD 1 0)⟩,
    ⟨0x50070080, [(0x100, 8)], fun ix => AES_RX_BVIO_CNT (ix.getD 0 0)⟩,
    ⟨0x50070084, [(0x100, 8)], fun ix => AES_RX_PAR_CNT (ix.getD 0 0)⟩,
    ⟨0x50070088, [(0x100, 8)], fun ix => AES_RX_CRC_CNT (ix.getD 0 0)⟩,
    ⟨0x5007008C, [(0x100, 8)], fun ix => AES_RX_SLIP_CNT (ix.getD 0 0)⟩,
    ⟨0x50070090, [(0x100, 8)], fun ix => AES_RX_LOSS_CNT (ix.getD 0 0)⟩,
    ⟨0x50070094, [(0x100, 8)], fun ix => AES_RX_VAL_CNT (ix.getD 0 0)⟩,
    ⟨0x50070800, [(0x100, 8)], fun ix => AES_TX_CTRL (ix.getD 0 0)⟩,
    ⟨0x50070804, [(0x100, 8)], fun ix => AES_TX_STAT (ix.getD 0 0)⟩,
    ⟨0x50070808, [(0x100, 8)], fun ix => AES_TX_COMMIT (ix.getD 0 0)⟩,
    ⟨0x50070820, [(0x100, 8), (0x4, 6)], fun ix => AES_TX_CSA (ix.getD 0 0) (ix.getD 1 0)⟩,
    ⟨0x50070838, [(0x100, 8), (0x4, 6)], fun ix => AES_TX_CSB (ix.getD 0 0) (ix.getD 1 0)⟩,
    ⟨0x50070850, [(0x100, 8), (0x4, 6)], fun ix => AES_TX_UA (ix.getD 0 0) (ix.getD 1 0)⟩,
    ⟨0x50070868, [(0x100, 8), (0x4, 6)], fun ix => AES_TX_UB (ix.getD 0 0) (ix.getD 1 0)⟩ ]

/-- All register rows of block 07. -/
def rows_07 : List RegRow := rows_07_0

/-- Register rows of block 08, part 0. -/
def rows_08_0 : List RegRow :=
  [ ⟨0x50080000, [(0x4, 256)], fun ix => SRC_CH (ix.getD 0 0)⟩,
    ⟨0x50080400, [], fun _ => SRC_COMMIT⟩,
    ⟨0x50080404, [], fun _ => SRC_SEL⟩,
    ⟨0x50080408, [], fun _ => SRC_CHSTAT⟩,
    ⟨0x5008040C, [], fun _ => SRC_RATIO⟩,
    ⟨0x50080410, [], fun _ => SRC_INRATE⟩,
    ⟨0x50080414, [], fun _ => SRC_INT⟩,
    ⟨0x50080418, [], fun _ => SRC_IEN⟩,
    ⟨0x5008041C, [], fun _ => SRC_UNLOCK_CNT⟩,
    ⟨0x50080420, [(0x4, 8)], fun ix => SRC_LOCK (ix.getD 0 0)⟩ ]

/-- All register rows of block 08. -/
def rows_08 : List RegRow := rows_08_0

/-- Register rows of block 09, part 0. -/
def rows_09_0 : List RegRow :=
  [ ⟨0x50090000, [(0x10000, 2)], fun ix => MAC_CTRL (ix.getD 0 0)⟩,
    ⟨0x50090004, [(0x10000, 2)], fun ix => MAC_STAT (ix.getD 0 0)⟩,
    ⟨0x50090008, [(0x10000, 2)], fun ix => MAC_INT (ix.getD 0 0)⟩,
    ⟨0x5009000C, [(0x10000, 2)], fun ix => MAC_IEN (ix.getD 0 0)⟩,
    ⟨0x50090010, [(0x10000, 2)], fun ix => MAC_MAXLEN (ix.getD 0 0)⟩,
    ⟨0x50090014, [(0x10000, 2)], fun ix => MAC_PWD (ix.getD 0 0)⟩,
    ⟨0x50090018, [(0x10000, 2)], fun ix => MAC_TCCFG (ix.getD 0 0)⟩,
    ⟨0x5009001C, [(0x10000, 2)], fun ix => MAC_TSADJ (ix.getD 0 0)⟩,
    ⟨0x50090020, [(0x10000, 2)], fun ix => MAC_SEG_ABORT (ix.getD 0 0)⟩,
    ⟨0x50090024, [(0x10000, 2)], fun ix => MAC_SEG_STAT (ix.getD 0 0)⟩,
    ⟨0x50090030, [(0x10000, 2)], fun ix => MAC_TSQ_POP (ix.getD 0 0)⟩,
    ⟨0x50090034, [(0x10000, 2)], fun ix => MAC_TSQ_STAT (ix.getD 0 0)⟩,
    ⟨0x50090038, [(0x10000, 2)], fun ix => MAC_TSQ_ID (ix.getD 0 0)⟩,
    ⟨0x5009003C, [(0x10000, 2)], fun ix => MAC_TSQ_SEC (ix.getD 0 0)⟩,
    ⟨0x50090040, [(0x10000, 2)], fun ix => MAC_TSQ_NS (ix.getD 0 0)⟩,
    ⟨0x50090060, [(0x10000, 2)], fun ix => MAC_GCL_BASE_SEC (ix.getD 0 0)⟩,
    ⟨0x50090064, [(0x10000, 2)], fun ix => MAC_GCL_BASE_NS (ix.getD 0 0)⟩,
    ⟨0x50090068, [(0x10000, 2)], fun ix => MAC_GCL_CYCLE (ix.getD 0 0)⟩,
    ⟨0x5009006C, [(0x10000, 2)], fun ix => MAC_GCL_LEN (ix.getD 0 0)⟩,
    ⟨0x50090070, [(0x10000, 2)], fun ix => MAC_GCL_COMMIT (ix.getD 0 0)⟩,
    ⟨0x50090074, [(0x10000, 2)], fun ix => MAC_GCL_STAT (ix.getD 0 0)⟩,
    ⟨0x50090080, [(0x10000, 2), (0x4, 8)], fun ix => MAC_CBS (ix.getD 0 0) (ix.getD 1 0)⟩,
    ⟨0x50090100, [(0x10000, 2), (0x10, 16)], fun ix => MAC_RXQ_BASE (ix.getD 0 0) (ix.getD 1 0)⟩,
    ⟨0x50090104, [(0x10000, 2), (0x10, 16)], fun ix => MAC_RXQ_SIZE (ix.getD 0 0) (ix.getD 1 0)⟩ ]

/-- Register rows of block 09, part 1. -/
def rows_09_1 : List RegRow :=
  [ ⟨0x50090108, [(0x10000, 2), (0x10, 16)], fun ix => MAC_RXQ_AVAIL (ix.getD 0 0) (ix.getD 1 0)⟩,
    ⟨0x5009010C, [(0x10000, 2), (0x10, 16)], fun ix => MAC_RXQ_NEXT (ix.getD 0 0) (ix.getD 1 0)⟩,
    ⟨0x50090200, [(0x10000, 2), (0x10, 8)], fun ix => MAC_TXQ_BASE (ix.getD 0 0) (ix.getD 1 0)⟩,
    ⟨0x50090204, [(0x10000, 2), (0x10, 8)], fun ix => MAC_TXQ_SIZE (ix.getD 0 0) (ix.getD 1 0)⟩,
    ⟨0x50090208, [(0x10000, 2), (0x10, 8)], fun ix => MAC_TXQ_TAIL (ix.getD 0 0) (ix.getD 1 0)⟩,
    ⟨0x5009020C, [(0x10000, 2), (0x10, 8)], fun ix => MAC_TXQ_HEAD (ix.getD 0 0) (ix.getD 1 0)⟩,
    ⟨0x50090400, [(0x10000, 2), (0x8, 64)], fun ix => MAC_GCL_GATE (ix.getD 0 0) (ix.getD 1 0)⟩,
    ⟨0x50090404, [(0x10000, 2), (0x8, 64)], fun ix => MAC_GCL_IVL (ix.getD 0 0) (ix.getD 1 0)⟩,
    ⟨0x50090800, [(0x10000, 2), (0x8, 64)], fun ix => MAC_FLT_A (ix.getD 0 0) (ix.getD 1 0)⟩,
    ⟨0x50090804, [(0x10000, 2), (0x8, 64)], fun ix => MAC_FLT_B (ix.getD 0 0) (ix.getD 1 0)⟩,
    ⟨0x50090C00, [(0x10000, 2)], fun ix => MAC_RXFRM_CNT (ix.getD 0 0)⟩,
    ⟨0x50090C04, [(0x10000, 2)], fun ix => MAC_RXBYTE_CNT (ix.getD 0 0)⟩,
    ⟨0x50090C08, [(0x10000, 2)], fun ix => MAC_RUNT_CNT (ix.getD 0 0)⟩,
    ⟨0x50090C0C, [(0x10000, 2)], fun ix => MAC_OVERSIZE_CNT (ix.getD 0 0)⟩,
    ⟨0x50090C10, [(0x10000, 2)], fun ix => MAC_FCS_CNT (ix.getD 0 0)⟩,
    ⟨0x50090C14, [(0x10000, 2)], fun ix => MAC_PHYERR_CNT (ix.getD 0 0)⟩,
    ⟨0x50090C18, [(0x10000, 2)], fun ix => MAC_FILTDROP_CNT (ix.getD 0 0)⟩,
    ⟨0x50090C1C, [(0x10000, 2)], fun ix => MAC_RXQDROP_CNT (ix.getD 0 0)⟩,
    ⟨0x50090C20, [(0x10000, 2)], fun ix => MAC_PAUSE_RX_CNT (ix.getD 0 0)⟩,
    ⟨0x50090C24, [(0x10000, 2)], fun ix => MAC_PWD_CNT (ix.getD 0 0)⟩,
    ⟨0x50090C28, [(0x10000, 2)], fun ix => MAC_TXFRM_CNT (ix.getD 0 0)⟩,
    ⟨0x50090C2C, [(0x10000, 2)], fun ix => MAC_TXBYTE_CNT (ix.getD 0 0)⟩,
    ⟨0x50090C30, [(0x10000, 2)], fun ix => MAC_DESCERR_CNT (ix.getD 0 0)⟩,
    ⟨0x50090C34, [(0x10000, 2)], fun ix => MAC_TSLOST_CNT (ix.getD 0 0)⟩ ]

/-- Register rows of block 09, part 2. -/
def rows_09_2 : List RegRow :=
  [ ⟨0x50090C38, [(0x10000, 2)], fun ix => MAC_FRAG_RX_CNT (ix.getD 0 0)⟩,
    ⟨0x50090C3C, [(0x10000, 2)], fun ix => MAC_FRAG_TX_CNT (ix.getD 0 0)⟩,
    ⟨0x50090C40, [(0x10000, 2)], fun ix => MAC_REASM_CNT (ix.getD 0 0)⟩,
    ⟨0x50090C44, [(0x10000, 2)], fun ix => MAC_LINKDN_CNT (ix.getD 0 0)⟩,
    ⟨0x50090C48, [(0x10000, 2)], fun ix => MAC_TXLINKDN_CNT (ix.getD 0 0)⟩ ]

/-- All register rows of block 09. -/
def rows_09 : List RegRow := rows_09_0 ++ rows_09_1 ++ rows_09_2

/-- Register rows of block 11, part 0. -/
def rows_11_0 : List RegRow :=
  [ ⟨0x500B0000, [], fun _ => STRM_CTRL⟩,
    ⟨0x500B0004, [], fun _ => STRM_STAT⟩,
    ⟨0x500B0008, [], fun _ => STRM_INT⟩,
    ⟨0x500B000C, [], fun _ => STRM_IEN⟩,
    ⟨0x500B0010, [], fun _ => STRM_NOMATCH_CNT⟩,
    ⟨0x500B0014, [], fun _ => STRM_SEL⟩,
    ⟨0x500B0020, [], fun _ => STRM_PKTA_CNT⟩,
    ⟨0x500B0024, [], fun _ => STRM_PKTB_CNT⟩,
    ⟨0x500B0028, [], fun _ => STRM_DUP_CNT⟩,
    ⟨0x500B002C, [], fun _ => STRM_LATE_CNT⟩,
    ⟨0x500B0030, [], fun _ => STRM_EARLY_CNT⟩,
    ⟨0x500B0034, [], fun _ => STRM_LOST_CNT⟩,
    ⟨0x500B0038, [], fun _ => STRM_SEQGAP_CNT⟩,
    ⟨0x500B1000, [(0x20, 128)], fun ix => STRM_RX_CTRL (ix.getD 0 0)⟩,
    ⟨0x500B1004, [(0x20, 128)], fun ix => STRM_RX_KEY0 (ix.getD 0 0)⟩,
    ⟨0x500B1008, [(0x20, 128)], fun ix => STRM_RX_KEY1 (ix.getD 0 0)⟩,
    ⟨0x500B100C, [(0x20, 128)], fun ix => STRM_RX_MAP (ix.getD 0 0)⟩,
    ⟨0x500B1010, [(0x20, 128)], fun ix => STRM_RX_BUF (ix.getD 0 0)⟩,
    ⟨0x500B1014, [(0x20, 128)], fun ix => STRM_RX_DEPTH (ix.getD 0 0)⟩,
    ⟨0x500B1018, [(0x20, 128)], fun ix => STRM_RX_STAT (ix.getD 0 0)⟩,
    ⟨0x500B2000, [(0x20, 128)], fun ix => STRM_TX_CTRL (ix.getD 0 0)⟩,
    ⟨0x500B2004, [(0x20, 128)], fun ix => STRM_TX_MAP (ix.getD 0 0)⟩,
    ⟨0x500B2008, [(0x20, 128)], fun ix => STRM_TX_HDR (ix.getD 0 0)⟩,
    ⟨0x500B200C, [(0x20, 128)], fun ix => STRM_TX_OFF (ix.getD 0 0)⟩ ]

/-- Register rows of block 11, part 1. -/
def rows_11_1 : List RegRow :=
  [ ⟨0x500B2010, [(0x20, 128)], fun ix => STRM_TX_STAT (ix.getD 0 0)⟩ ]

/-- All register rows of block 11. -/
def rows_11 : List RegRow := rows_11_0 ++ rows_11_1

/-- Register rows of block 12, part 0. -/
def rows_12_0 : List RegRow :=
  [ ⟨0x500C0000, [], fun _ => DNG_CTRL⟩,
    ⟨0x500C0004, [], fun _ => DNG_STAT⟩,
    ⟨0x500C0100, [(0x100, 4)], fun ix => DNG_L_CTRL (ix.getD 0 0)⟩,
    ⟨0x500C0104, [(0x100, 4)], fun ix => DNG_L_STAT (ix.getD 0 0)⟩,
    ⟨0x500C0108, [(0x100, 4)], fun ix => DNG_L_INT (ix.getD 0 0)⟩,
    ⟨0x500C010C, [(0x100, 4)], fun ix => DNG_L_IEN (ix.getD 0 0)⟩,
    ⟨0x500C0110, [(0x100, 4)], fun ix => DNG_L_DELAY (ix.getD 0 0)⟩,
    ⟨0x500C0114, [(0x100, 4)], fun ix => DNG_L_DLYADJ (ix.getD 0 0)⟩,
    ⟨0x500C0120, [(0x100, 4), (0x4, 8)], fun ix => DNG_L_CASC (ix.getD 0 0) (ix.getD 1 0)⟩,
    ⟨0x500C0140, [(0x100, 4)], fun ix => DNG_L_CRC_CNT (ix.getD 0 0)⟩,
    ⟨0x500C0144, [(0x100, 4)], fun ix => DNG_L_RETRY_CNT (ix.getD 0 0)⟩,
    ⟨0x500C0148, [(0x100, 4)], fun ix => DNG_L_LATE_CNT (ix.getD 0 0)⟩,
    ⟨0x500C014C, [(0x100, 4)], fun ix => DNG_L_CLATE_CNT (ix.getD 0 0)⟩,
    ⟨0x500C0150, [(0x100, 4)], fun ix => DNG_L_DOWN_CNT (ix.getD 0 0)⟩,
    ⟨0x500C0154, [(0x100, 4)], fun ix => DNG_L_EVDROP_CNT (ix.getD 0 0)⟩,
    ⟨0x500C0158, [(0x100, 4)], fun ix => DNG_L_EVLOST_CNT (ix.getD 0 0)⟩ ]

/-- All register rows of block 12. -/
def rows_12 : List RegRow := rows_12_0

/-- Register rows of block 13, part 0. -/
def rows_13_0 : List RegRow :=
  [ ⟨0x500D0000, [], fun _ => ANI_CTRL⟩,
    ⟨0x500D0004, [], fun _ => ANI_STAT⟩,
    ⟨0x500D0008, [], fun _ => ANI_INT⟩,
    ⟨0x500D000C, [], fun _ => ANI_IEN⟩,
    ⟨0x500D0010, [], fun _ => ANI_CMD⟩,
    ⟨0x500D0014, [], fun _ => ANI_GATE⟩,
    ⟨0x500D0018, [], fun _ => ANI_EPOCH⟩,
    ⟨0x500D001C, [], fun _ => ANI_SEQ⟩,
    ⟨0x500D0020, [], fun _ => ANI_WSEQ⟩,
    ⟨0x500D0024, [], fun _ => ANI_TAKE_BLOCK⟩,
    ⟨0x500D0028, [], fun _ => ANI_TAKE_SEQ⟩,
    ⟨0x500D002C, [], fun _ => ANI_TAKE_WSEQ⟩,
    ⟨0x500D0030, [], fun _ => ANI_COPY_STAT⟩,
    ⟨0x500D0034, [], fun _ => ANI_COPY_LEFT⟩,
    ⟨0x500D0040, [], fun _ => ANI_DISC_CNT⟩,
    ⟨0x500D0044, [], fun _ => ANI_HMIS_CNT⟩,
    ⟨0x500D0048, [], fun _ => ANI_IMISS_CNT⟩,
    ⟨0x500D004C, [], fun _ => ANI_HLOSS_CNT⟩,
    ⟨0x500D0050, [], fun _ => ANI_MLOSS_CNT⟩,
    ⟨0x500D0054, [], fun _ => ANI_TAKE_CNT⟩,
    ⟨0x500D0058, [], fun _ => ANI_HASH⟩,
    ⟨0x500D005C, [], fun _ => ANI_PHASH⟩,
    ⟨0x500D0060, [], fun _ => ANI_SBWR_CNT⟩ ]

/-- All register rows of block 13. -/
def rows_13 : List RegRow := rows_13_0

/-- Register rows of block 14, part 0. -/
def rows_14_0 : List RegRow :=
  [ ⟨0x500E0000, [], fun _ => MXM_STAT⟩,
    ⟨0x500E0004, [], fun _ => MXM_INT⟩,
    ⟨0x500E0008, [], fun _ => MXM_IEN⟩,
    ⟨0x500E000C, [], fun _ => MXM_SAT_CNT⟩,
    ⟨0x500E0010, [], fun _ => MXM_CLOST_CNT⟩,
    ⟨0x500E0014, [], fun _ => MXM_HOLD_CNT⟩,
    ⟨0x500E0040, [(0x4, 8)], fun ix => MXM_FLIP (ix.getD 0 0)⟩,
    ⟨0x500E0080, [(0x4, 8)], fun ix => MXM_SAT (ix.getD 0 0)⟩,
    ⟨0x500E00A0, [(0x4, 8)], fun ix => MXM_CLOST (ix.getD 0 0)⟩,
    ⟨0x500E00C0, [(0x4, 8)], fun ix => MXM_GLIDE (ix.getD 0 0)⟩,
    ⟨0x500E0400, [(0x4, 256)], fun ix => MXM_BUS (ix.getD 0 0)⟩,
    ⟨0x500E1000, [(0x100, 4)], fun ix => MXM_MR_CTRL (ix.getD 0 0)⟩,
    ⟨0x500E1004, [(0x100, 4)], fun ix => MXM_MR_CFG (ix.getD 0 0)⟩,
    ⟨0x500E1008, [(0x100, 4)], fun ix => MXM_MR_TSECH (ix.getD 0 0)⟩,
    ⟨0x500E100C, [(0x100, 4)], fun ix => MXM_MR_TSECL (ix.getD 0 0)⟩,
    ⟨0x500E1010, [(0x100, 4)], fun ix => MXM_MR_TNS (ix.getD 0 0)⟩,
    ⟨0x500E1014, [(0x100, 4)], fun ix => MXM_MR_STAT (ix.getD 0 0)⟩,
    ⟨0x500E1018, [(0x100, 4)], fun ix => MXM_MR_SBLK (ix.getD 0 0)⟩,
    ⟨0x500E1040, [(0x100, 4), (0x4, 8)], fun ix => MXM_MR_BUS (ix.getD 0 0) (ix.getD 1 0)⟩,
    ⟨0x500E1800, [], fun _ => MXM_MR_INT⟩,
    ⟨0x500E1804, [], fun _ => MXM_MR_IEN⟩ ]

/-- All register rows of block 14. -/
def rows_14 : List RegRow := rows_14_0

/-- Register rows of block 15, part 0. -/
def rows_15_0 : List RegRow :=
  [ ⟨0x500F0000, [], fun _ => PRT_CTRL⟩,
    ⟨0x500F0004, [], fun _ => PRT_STAT⟩,
    ⟨0x500F0008, [], fun _ => PRT_INT⟩,
    ⟨0x500F000C, [], fun _ => PRT_IEN⟩,
    ⟨0x500F0010, [], fun _ => PRT_INV_CNT⟩,
    ⟨0x500F0014, [], fun _ => PRT_LATE_CNT⟩,
    ⟨0x500F0018, [], fun _ => PRT_DEFER_CNT⟩,
    ⟨0x500F001C, [], fun _ => PRT_LATE_ENG⟩,
    ⟨0x500F0020, [], fun _ => PRT_PEEK_IDX⟩,
    ⟨0x500F0024, [], fun _ => PRT_PEEK_ENT⟩,
    ⟨0x500F0028, [], fun _ => PRT_PEEK_TERMS⟩,
    ⟨0x500F0100, [(0x4, 256)], fun ix => PRT_INV (ix.getD 0 0)⟩,
    ⟨0x500F0800, [(0x10, 13)], fun ix => PRT_GEN_CFG (ix.getD 0 0)⟩,
    ⟨0x500F0804, [(0x10, 13)], fun ix => PRT_GEN_LVL (ix.getD 0 0)⟩,
    ⟨0x500F0808, [(0x10, 13)], fun ix => PRT_GEN_PAR (ix.getD 0 0)⟩ ]

/-- All register rows of block 15. -/
def rows_15 : List RegRow := rows_15_0

/-- Register rows of block 16, part 0. -/
def rows_16_0 : List RegRow :=
  [ ⟨0x50100000, [], fun _ => HIF_ID⟩,
    ⟨0x50100004, [], fun _ => HIF_CTRL⟩,
    ⟨0x50100008, [], fun _ => HIF_STAT⟩,
    ⟨0x5010000C, [], fun _ => HIF_INT⟩,
    ⟨0x50100010, [], fun _ => HIF_IEN⟩,
    ⟨0x50100014, [], fun _ => HIF_ERR_CNT⟩,
    ⟨0x50100018, [], fun _ => HIF_ERRLOG⟩,
    ⟨0x5010001C, [], fun _ => HIF_ERRADDR⟩,
    ⟨0x50100020, [], fun _ => HIF_ISUM⟩,
    ⟨0x50100024, [], fun _ => HIF_ISUM_ENG⟩,
    ⟨0x50100028, [], fun _ => HIF_VFN⟩,
    ⟨0x5010002C, [], fun _ => HIF_IREARM⟩,
    ⟨0x50100030, [], fun _ => HIF_DINT⟩,
    ⟨0x50100034, [], fun _ => HIF_DIEN⟩,
    ⟨0x50100400, [(0x20, 4)], fun ix => HIF_CH_CTRL (ix.getD 0 0)⟩,
    ⟨0x50100404, [(0x20, 4)], fun ix => HIF_CH_DESC (ix.getD 0 0)⟩,
    ⟨0x50100408, [(0x20, 4)], fun ix => HIF_CH_CUR (ix.getD 0 0)⟩,
    ⟨0x5010040C, [(0x20, 4)], fun ix => HIF_CH_STAT (ix.getD 0 0)⟩,
    ⟨0x50100410, [(0x20, 4)], fun ix => HIF_CH_MOVED (ix.getD 0 0)⟩ ]

/-- All register rows of block 16. -/
def rows_16 : List RegRow := rows_16_0

/-- Register rows of block 17, part 0. -/
def rows_17_0 : List RegRow :=
  [ ⟨0x50110000, [(0x100, 2)], fun ix => HSE_MB_CMD (ix.getD 0 0)⟩,
    ⟨0x50110004, [(0x100, 2)], fun ix => HSE_MB_DOOR (ix.getD 0 0)⟩,
    ⟨0x50110008, [(0x100, 2)], fun ix => HSE_MB_STAT (ix.getD 0 0)⟩,
    ⟨0x5011000C, [(0x100, 2)], fun ix => HSE_MB_TO (ix.getD 0 0)⟩,
    ⟨0x50110040, [(0x100, 2), (0x4, 16)], fun ix => HSE_MB_ARG (ix.getD 0 0) (ix.getD 1 0)⟩,
    ⟨0x50110080, [(0x100, 2), (0x4, 16)], fun ix => HSE_MB_RSP (ix.getD 0 0) (ix.getD 1 0)⟩,
    ⟨0x50110400, [], fun _ => HSE_CORE_STAT⟩,
    ⟨0x50110404, [], fun _ => HSE_HOUSE_STAT⟩,
    ⟨0x50110408, [], fun _ => HSE_FW_VER⟩,
    ⟨0x5011040C, [], fun _ => HSE_FW_ERR⟩,
    ⟨0x50110410, [], fun _ => HSE_INT⟩,
    ⟨0x50110414, [], fun _ => HSE_IEN⟩,
    ⟨0x50110418, [], fun _ => HSE_LATE_CNT⟩,
    ⟨0x5011041C, [], fun _ => HSE_SHED_CNT⟩,
    ⟨0x50110420, [], fun _ => HSE_WDT_CNT⟩ ]

/-- All register rows of block 17. -/
def rows_17 : List RegRow := rows_17_0

/-- Register rows of block 18, part 0. -/
def rows_18_0 : List RegRow :=
  [ ⟨0x50120000, [(0x400, 4), (0x20, 8)], fun ix => CDMA_CH_CTRL (ix.getD 0 0) (ix.getD 1 0)⟩,
    ⟨0x50120004, [(0x400, 4), (0x20, 8)], fun ix => CDMA_CH_DESC (ix.getD 0 0) (ix.getD 1 0)⟩,
    ⟨0x50120008, [(0x400, 4), (0x20, 8)], fun ix => CDMA_CH_CUR (ix.getD 0 0) (ix.getD 1 0)⟩,
    ⟨0x5012000C, [(0x400, 4), (0x20, 8)], fun ix => CDMA_CH_STAT (ix.getD 0 0) (ix.getD 1 0)⟩,
    ⟨0x50120010, [(0x400, 4), (0x20, 8)], fun ix => CDMA_CH_MOVED (ix.getD 0 0) (ix.getD 1 0)⟩,
    ⟨0x50120100, [(0x400, 4)], fun ix => CDMA_INT (ix.getD 0 0)⟩,
    ⟨0x50120104, [(0x400, 4)], fun ix => CDMA_IEN (ix.getD 0 0)⟩ ]

/-- All register rows of block 18. -/
def rows_18 : List RegRow := rows_18_0

/-- Register rows of block 19, part 0. -/
def rows_19_0 : List RegRow :=
  [ ⟨0x50130400, [], fun _ => TST_MEM_STAT⟩,
    ⟨0x50130404, [], fun _ => TST_MEM_REP⟩,
    ⟨0x50130408, [], fun _ => TST_MEM_FENCE_CNT⟩,
    ⟨0x5013040C, [], fun _ => TST_MEM_FENCE_LOG⟩,
    ⟨0x50130410, [], fun _ => TST_MEM_UNIT⟩,
    ⟨0x50130414, [], fun _ => TST_MEM_UINFO⟩,
    ⟨0x50130440, [(0x4, 23)], fun ix => TST_MEM_BAD (ix.getD 0 0)⟩,
    ⟨0x50130000, [], fun _ => TST_FUSE_STAT⟩,
    ⟨0x50130004, [], fun _ => TST_FUSE_MINVER⟩ ]

/-- All register rows of block 19. -/
def rows_19 : List RegRow := rows_19_0

/-- Register rows of block eng, part 0. -/
def rows_eng_0 : List RegRow :=
  [ ⟨0x20070000, [(0x80000, 32)], fun ix => ENG_ID (ix.getD 0 0)⟩,
    ⟨0x20070004, [(0x80000, 32)], fun ix => ENG_CTRL (ix.getD 0 0)⟩,
    ⟨0x20070008, [(0x80000, 32)], fun ix => ENG_STAT (ix.getD 0 0)⟩,
    ⟨0x2007000C, [(0x80000, 32)], fun ix => ENG_RCAP (ix.getD 0 0)⟩,
    ⟨0x20070010, [(0x80000, 32)], fun ix => ENG_EVT_VEC (ix.getD 0 0)⟩,
    ⟨0x20070014, [(0x80000, 32)], fun ix => ENG_FAULT (ix.getD 0 0)⟩,
    ⟨0x20070018, [(0x80000, 32)], fun ix => ENG_FAULT_CNT (ix.getD 0 0)⟩,
    ⟨0x2007001C, [(0x80000, 32)], fun ix => ENG_FSLICE_LO (ix.getD 0 0)⟩,
    ⟨0x20070020, [(0x80000, 32)], fun ix => ENG_FSLICE_HI (ix.getD 0 0)⟩,
    ⟨0x20070024, [(0x80000, 32)], fun ix => ENG_INT (ix.getD 0 0)⟩,
    ⟨0x20070028, [(0x80000, 32)], fun ix => ENG_IEN (ix.getD 0 0)⟩,
    ⟨0x2007002C, [(0x80000, 32)], fun ix => ENG_BUSY (ix.getD 0 0)⟩,
    ⟨0x20070030, [(0x80000, 32)], fun ix => ENG_EVT_CNT (ix.getD 0 0)⟩,
    ⟨0x20070034, [(0x80000, 32)], fun ix => ENG_EVT_LATMAX (ix.getD 0 0)⟩,
    ⟨0x20070038, [(0x80000, 32)], fun ix => ENG_FARQ (ix.getD 0 0)⟩,
    ⟨0x2007003C, [(0x80000, 32)], fun ix => ENG_FARQ_LATMAX (ix.getD 0 0)⟩,
    ⟨0x20070040, [(0x80000, 32)], fun ix => ENG_SLT_COMMIT (ix.getD 0 0)⟩,
    ⟨0x20070044, [(0x80000, 32)], fun ix => ENG_SLT_STAT (ix.getD 0 0)⟩,
    ⟨0x20070048, [(0x80000, 32)], fun ix => ENG_OVR_CNT (ix.getD 0 0)⟩,
    ⟨0x20070800, [(0x80000, 32), (0x4, 64)], fun ix => ENG_SLT_MEAS (ix.getD 0 0) (ix.getD 1 0)⟩,
    ⟨0x20071000, [(0x80000, 32), (0x20, 64)], fun ix => SLT_CTRL (ix.getD 0 0) (ix.getD 1 0)⟩,
    ⟨0x20071004, [(0x80000, 32), (0x20, 64)], fun ix => SLT_BASE (ix.getD 0 0) (ix.getD 1 0)⟩,
    ⟨0x20071008, [(0x80000, 32), (0x20, 64)], fun ix => SLT_BUDGET (ix.getD 0 0) (ix.getD 1 0)⟩,
    ⟨0x2007100C, [(0x80000, 32), (0x20, 64)], fun ix => SLT_EVT (ix.getD 0 0) (ix.getD 1 0)⟩ ]

/-- Register rows of block eng, part 1. -/
def rows_eng_1 : List RegRow :=
  [ ⟨0x20071010, [(0x80000, 32), (0x20, 64)], fun ix => SLT_TAPS (ix.getD 0 0) (ix.getD 1 0)⟩,
    ⟨0x20071014, [(0x80000, 32), (0x20, 64)], fun ix => SLT_SIZE0 (ix.getD 0 0) (ix.getD 1 0)⟩,
    ⟨0x20071018, [(0x80000, 32), (0x20, 64)], fun ix => SLT_SIZE1 (ix.getD 0 0) (ix.getD 1 0)⟩,
    ⟨0x2007101C, [(0x80000, 32), (0x20, 64)], fun ix => SLT_SIZE2 (ix.getD 0 0) (ix.getD 1 0)⟩,
    ⟨0x20071800, [(0x80000, 32), (0x4, 64)], fun ix => ENG_MRPH (ix.getD 0 0) (ix.getD 1 0)⟩,
    ⟨0x20071900, [(0x80000, 32), (0x4, 64)], fun ix => ENG_MXBUD (ix.getD 0 0) (ix.getD 1 0)⟩,
    ⟨0x2007004C, [(0x80000, 32)], fun ix => ENG_XW_CTRL (ix.getD 0 0)⟩,
    ⟨0x20070050, [(0x80000, 32)], fun ix => ENG_XW_CNT (ix.getD 0 0)⟩ ]

/-- All register rows of block eng. -/
def rows_eng : List RegRow := rows_eng_0 ++ rows_eng_1

/-- The register rows of a 64 KiB register block (R13); MAC1 is the second instance of MAC0. -/
def blockRows (n : Nat) : List RegRow :=
  match n with
  | 0 => rows_00
  | 1 => rows_01
  | 2 => rows_02
  | 3 => rows_03
  | 4 => rows_04
  | 5 => rows_05
  | 6 => rows_06
  | 7 => rows_07
  | 8 => rows_08
  | 9 => rows_09
  | 10 => rows_09
  | 11 => rows_11
  | 12 => rows_12
  | 13 => rows_13
  | 14 => rows_14
  | 15 => rows_15
  | 16 => rows_16
  | 17 => rows_17
  | 18 => rows_18
  | 19 => rows_19
  | _ => []

/-- The register at a device address, or none where no summary table lists the address (R6). -/
def regAt (a : Nat) : Option Reg :=
  if 0x50000000 ≤ a ∧ a < 0x50150000 then
    (blockRows ((a - 0x50000000) / 0x10000)).findSome? (fun r => r.at? a)
  else if 0x20000000 ≤ a ∧ a < 0x21000000 then
    rows_eng.findSome? (fun r => r.at? a)
  else none

/-- The reset value at a register address (R11); an unlisted offset reads 0 (R6). -/
def resetVal (a : Nat) : Word :=
  match regAt a with
  | some r => r.reset
  | none => 0#32

end Sys2Proof.Machine
end

