-- ==== Sys2Proof/Machine/Units.lean ====
section
/-! DEFINITION. The state of the audio plane's units that no register shows: the frame schedule (R26 to
R43), the engines (R44 to R72, R106 to R120), the Mix Matrix (R132 to R145), the morph slots and lanes
(R146 to R159), the Patch Router and its generators (R160 to R175). -/

namespace Sys2Proof.Machine

/-- The window of the block the engines are in, as ENG_STAT.window shows it (R29, R72). -/
inductive Window where
  | none | strip | sum | bus | tail
deriving DecidableEq, Repr

/-- The frame schedule (R26 to R43). SYS_FRM_CTRL, SYS_FRM_STAT and the window registers live in the
register map; this holds what they do not show. -/
structure Frame where
  win     : Window := .none
  /-- The engine cycle of the last tick. -/
  tickAt  : Nat := 0
  /-- The sample edge of the next tick, as a count of sample periods of the STC (R292). -/
  edge    : Nat := 0
  /-- The frame is started and tick 0 has not fallen yet (R40). -/
  first   : Bool := false
  /-- The first tick of this run has been passed, so a block has been finalised or is in progress. -/
  ticking : Bool := false
  /-- Ticks of this run so far, up to 2: the sources of capture block 0 are silent (R40). -/
  age     : Nat := 0
  /-- The final block of a stop runs (R41). -/
  final   : Bool := false
  /-- A start waits for the end of the final block (R402). -/
  restart : Bool := false
  /-- SYS_FRM_SPLIT in force (R42). -/
  split   : Word := 0x0023142D#32
  /-- SYS_FRM_DEV.dev_min holds a sample (R403). -/
  devSeen : Bool := false
deriving DecidableEq, Repr

/-- An accumulator with its lock bit (R80). -/
structure AccV where
  v    : Acc := 0
  lock : Bool := false
deriving DecidableEq, Repr

/-- A write to an accumulator as the accumulate path sees it (R57): the cycle of issue, whether a
MAC-class instruction made it, and the value. -/
structure PathW where
  issue : Nat
  mac   : Bool
  /-- No value in a lane whose accumulator was locked: the instruction had no effect there (R80). -/
  val   : L4 (Option AccV)
deriving DecidableEq, Repr

/-- One register set of an engine, main or shadow (R46, R65, R80, R82). -/
structure RegSet where
  d    : List (Nat × L4 Word) := []
  a    : List (Nat × L4 AccV) := []
  /-- Writes to each accumulator in issue order, newest first (R57). -/
  path : List (Nat × List PathW) := []
  p    : List (Nat × BitVec 16) := []
  n    : List (Nat × BitVec 16) := []
  l    : List (Nat × BitVec 16) := []
  sb   : BitVec 14 := 0
  sr   : Word := 0
  dith : L4 Word := L4.all 0
deriving DecidableEq, Repr

/-- A result on its way to a register (R55). -/
inductive Landing where
  /-- A D register, in the lanes given. -/
  | d (r : Fin 16) (v : L4 (Option Word))
  /-- An accumulator with its lock, in the lanes given. -/
  | a (m : Fin 4) (v : L4 (Option AccV))
  | p (i : Fin 8) (v : BitVec 16)
  | n (i : Fin 8) (v : BitVec 16)
  | l (i : Fin 8) (v : BitVec 16)
  /-- SR.z and SR.n of every lane. -/
  | zn (z n : L4 Bool)
  /-- Settings of the sticky SR.gov and SR.sat (R87). -/
  | sticky (gov sat : L4 Bool)
  /-- CLRF's mask (R97). -/
  | clrf (mask : BitVec 8)
  | epm (b : Bool)
deriving DecidableEq, Repr

/-- A result in flight: the cycle it lands in, and the set that issued it (R65). -/
structure Flight where
  due    : Nat
  shadow : Bool
  res    : Landing
deriving DecidableEq, Repr

/-- A far request (R61, R92): its tag, direction, first quad, number of quads, Pool byte offset, the cycle
of issue, the cycle it reached the head, the beats served, and whether another beat has competed with one of its
own at a POOL target (R62). `alt` lists the words a program wrote in
its quads while it was outstanding, with the other value each may end with or be sent with (R94). -/
structure FarReq where
  tag    : Fin 16
  get    : Bool
  q0     : Nat
  quads  : Nat
  off    : Nat
  issued : Nat
  headAt : Nat
  beats  : Nat := 0
  alt    : List (Nat × Word) := []
  cont   : Bool := false
  /-- A beat of it has met a fenced Pool bank: the transfer is recorded once (R197). -/
  erred  : Bool := false
deriving DecidableEq, Repr

/-- What holds an engine at a bundle boundary (R63). -/
inductive Wait where
  | none
  | tag (t : Fin 16)
  /-- The far-queue drain at a slice's end. -/
  | drain
deriving DecidableEq, Repr

/-- Delay slots to come, the branch target, and whether the branch is RTE (R55, R66). -/
structure Delay where
  left : Nat
  pc   : Nat
  rte  : Bool
deriving DecidableEq, Repr

/-- An event that Clove has written to a delivery slot and the engine has not consumed (R65, R214): its slice and
slot, the cycle from which the engine can take it, its flow, and the cycle of its delivery (R68). -/
structure Delivery where
  slice : Nat
  slot  : Nat
  at_   : Nat
  flow  : Nat
  sent  : Nat
deriving DecidableEq, Repr

/-- One slice-table entry, as its eight registers (R107). -/
structure Entry where
  ctrl   : Word := 0
  base   : Word := 0
  budget : Word := 0
  evt    : Word := 0
  taps   : Word := 0
  size0  : Word := 0
  size1  : Word := 0
  size2  : Word := 0
deriving DecidableEq, Repr

/-- What a slice did in the present block (R34, R112 to R118). -/
structure SliceBlk where
  started : Bool := false
  ended   : Bool := false
  halted  : Bool := false
  faulted : Bool := false
  skipped : Bool := false
  /-- Its ENG_FSLICE bit was set at the tick: it is skipped in this block, whenever the bit is cleared
  (R70, R72). -/
  barred  : Bool := false
  /-- The quads of its output area collected in this block (R169). -/
  coll    : Nat := 0
  /-- Its input area is filled for this block (R170). -/
  filled  : Bool := false
  /-- Its budget in its own block, in a record carried past the tick (R155). -/
  budget  : Nat := 0
deriving DecidableEq, Repr

/-- A transfer of the Router port of an engine: collection or fill of a slice, and the quads moved (R169). -/
structure Xfer where
  collect : Bool
  slice   : Nat
  pos     : Nat := 0
deriving DecidableEq, Repr

/-- The fade gain and hold value of an output tap (R117). -/
structure TapFade where
  g : Nat := 64
  v : Word := 0
deriving DecidableEq, Repr

/-- One Gratra engine. `cyc` is the engine cycle it has reached; `issued` says that a bundle has issued in
that cycle, or that no other may. DEDUCED: assumption 21. -/
structure Engine where
  main    : RegSet := {}
  shadow  : RegSet := {}
  pc      : Nat := 0
  epc     : Nat := 0
  cyc     : Nat := 0
  issued  : Bool := false
  /-- DMEM half-cycles still free for external accesses since the last bundle (R52): those it left, those of the
  cycles of a switch, or those of the present cycle while no bundle can issue in it. -/
  spare   : Nat := 2
  /-- Bytes the external port writes in this cycle or a later one: the cycle, the address, the byte (R180,
  R181). -/
  ext     : List (Nat × Nat × Byte) := []
  /-- The first cycle in which the external port is free for a request of each class of R179: far transfers, Clove
  records, cluster DMA, other Bus Matrix accesses. -/
  xport   : L4 Nat := L4.all 0
  /-- The first cycle that no access through the external port has been made in: it takes one in a cycle (R179). -/
  xused   : Nat := 0
  /-- Bytes that the external port writes in a cycle to come, as they stand until then: the cycle, the address, the
  byte (R180). -/
  xold    : List (Nat × Nat × Byte) := []
  /-- Bundles that a Bus Matrix write has changed in a cycle: the cycle, the index, the old contents (R53). -/
  pold    : List (Nat × Nat × DWord) := []
  flight  : List Flight := []
  /-- The shadow set is in use: a handler runs (R65). -/
  inEvt   : Bool := false
  /-- The target slice of the handler, the cycle of its first bundle, its delivery slot and flow. -/
  evtSlice : Nat := 0
  evtFirst : Nat := 0
  evtSlot  : Nat := 0
  evtFlow  : Nat := 0
  /-- Deliveries not yet taken, oldest first (R64). -/
  deliv   : List Delivery := []
  /-- The running slice. -/
  cur     : Option Nat := .none
  /-- Measured cycles of the running slice so far (R115). -/
  meas    : Nat := 0
  delay   : Option Delay := .none
  /-- Repetitions still to issue (R100). -/
  rpt     : Option Nat := .none
  /-- The hold of the running context, since when, and that of the interrupted context. -/
  wait    : Wait := .none
  waitAt  : Nat := 0
  mainWait : Wait := .none
  /-- The slice whose far-queue drain is in progress: its stalls count toward it (R63). -/
  draining : Option Nat := .none
  /-- The tags of the requests that were outstanding at its end and whose PWAIT is still to end, ascending, and whether
  each has completed (R63). -/
  drainTags : List (Fin 16 × Bool) := []
  gidx    : Nat := 0
  /-- A halt at a window close waits for the first eligible boundary (R34, R67). -/
  halting : Bool := false
  /-- The running or draining slice belongs to the block before, with its record there: its halt reaches past
  the tick (R34). -/
  carry   : Option SliceBlk := .none
  /-- ENG_CTRL.enable in force. -/
  active  : Bool := false
  far     : List FarReq := []
  /-- For an outbox slot, the slice flow × 256 + epoch + 1 under which its word 0 was stored (R218). -/
  obox    : List (Nat × Nat) := []
  /-- ENG_RCAP and ENG_XW_CTRL.vg2040_2w in force. -/
  rcap    : Nat := 0x400
  xw2     : Bool := false
  /-- ENG_MXBUDs in force (R155, R159). -/
  xbud    : List (Nat × Nat) := []
  /-- Issue, stall and switch-in cycles of the present block (R72). -/
  busy    : Nat := 0
  live    : List (Nat × Entry) := []
  blk     : List (Nat × SliceBlk) := []
  fade    : List (Nat × TapFade) := []
  /-- Collected output samples, keyed tap × 32 + sample (R113, R169). -/
  out     : List (Nat × Word) := []
  /-- Samples of a tap quad whose collection has not completed, keyed the same way (R113). -/
  part    : List (Nat × Word) := []
  xq      : List Xfer := []
  /-- Output taps that no valid entry carries any more, and the phase at whose production point they fall
  silent (R21, R168). -/
  gone    : List (Nat × Nat) := []
  /-- RT slices left unrun at a window close of the present block, per phase: first, number (R118). -/
  ovrStrip : Option (Nat × Nat) := .none
  ovrBus   : Option (Nat × Nat) := .none
deriving DecidableEq, Repr

/-- A glide of a bus (R136, R137): the bank it runs toward, its length, and the count at sample 0 of the
present block. -/
structure BusGlide where
  bank : Bool
  len  : Nat
  n0   : Int
deriving DecidableEq, Repr

/-- A bus of the Mix Matrix beyond its register: the glides of the block with the sample each starts at,
the headroom and flip length in force, the glide's owner, the cascade fade and hold value (R142). -/
structure Bus where
  segs    : List (Nat × BusGlide) := []
  owner   : Option (Fin 4) := .none
  reached : Bool := false
  sel     : Bool := false
  hs      : Nat := 0
  flipLen : Nat := 0x40
  f       : Nat := 64
  h       : Int := 0
  /-- Gains applied at the last sample of the last block, by input, while a bus glide runs (R137). -/
  last    : List (Nat × Int) := []
deriving DecidableEq, Repr

/-- A gain-memory access held during the Sum window (R135) is a held transaction of the Bus Matrix. The
Mix Matrix keeps the inputs of the block, the next bus to complete, the local sums, the cascade values
received, and the sums complete with their cascade term. -/
structure Matrix where
  bus   : List (Nat × Bus) := []
  xin   : List (Nat × List Word) := []
  next  : Nat := 0
  lsum  : List (Nat × List Int) := []
  psum  : List (Nat × List Int) := []
  /-- Cascade values received for this block, by source ID (R141). -/
  casc  : List (Nat × List Int) := []
  /-- Sink words of the cascade sinks with another source, consumed at the Strip close (R141, R168). -/
  ctail : List (Nat × List Word) := []
  /-- The deadline for cascade terms of the block has passed (R143). -/
  dead  : Bool := false
deriving DecidableEq, Repr

/-- A glide of a lane (R152): g_s, direction, length, and the count at sample 0 of the present block. -/
structure LaneGlide where
  gs  : Int
  up  : Bool
  len : Nat
  n0  : Int
deriving DecidableEq, Repr

/-- A lane in morph: the glides of the block with their start samples, and the owner of the last. -/
structure Lane where
  segs  : List (Nat × LaneGlide) := []
  owner : Option (Fin 4) := .none
deriving DecidableEq, Repr

/-- A morph slot beyond its registers: what it owns. A bus is listed with the bank it had selected before
the slot's start (R156). -/
structure MorphSlot where
  buses : List (Nat × Bool) := []
  lanes : List Nat := []
  len   : Nat := 0
  /-- It has lost a glide, which superseded shows once it ends (R153). -/
  lost  : Bool := false
deriving DecidableEq, Repr

/-- The morph slots and the lanes in morph; lane key: slice ID × 4 + lane. -/
structure Morph where
  slots : L4 MorphSlot := L4.all {}
  lanes : List (Nat × Lane) := []
deriving DecidableEq, Repr

/-- A live term of a sink (R164): its source, present gain, the gain its ramp started from and its end
point. -/
structure Term where
  src : Nat
  g   : Nat
  gs  : Nat
  e   : Nat
deriving DecidableEq, Repr

/-- A sink of the Patch Router beyond its table entry: its live terms, the count and length of its ramp,
and whether a change is deferred (R165). -/
structure Sink where
  terms    : List Term := []
  count    : Nat := 0
  len      : Nat := 0
  deferred : Bool := false
deriving DecidableEq, Repr

/-- A generator's settings in force and its state (R174). -/
structure Gen where
  run : Bool := false
  neg : Bool := false
  lvl : Word := 0
  par : Word := 0
  ph  : Nat := 0
  s   : Word := 0
  t   : Nat := 0
deriving DecidableEq, Repr

/-- The Patch Router (R160 to R174). -/
structure Router where
  /-- Last values written and values in force, by sink; both read 0x0040_0000 after a reset (R160). -/
  written : List (Nat × Word) := []
  inForce : List (Nat × Word) := []
  sinks   : List (Nat × Sink) := []
  gens    : List (Nat × Gen) := []
  /-- The last complete block of each source (R15, R168); an unlisted source is silent. -/
  src     : List (Nat × List Word) := []
  /-- Samples of the engine input-tap sinks as consumed for the block (R168). -/
  tapIn   : List (Nat × List Word) := []
  /-- Samples of the transmit sinks consumed at the last Bus close, for the block that plays next. -/
  txOut   : List (Nat × List Word) := []
  /-- The block that plays (R37, R41), by transmit sink. -/
  play    : List (Nat × List Word) := []
  /-- Route rewrites of a migration that come into force at step 7 of this boundary (R163). -/
  rewrites : List (Nat × Word) := []
  /-- The sinks that the host has written since their entries last came into force (R163). -/
  fresh    : List Nat := []
deriving DecidableEq, Repr

/-- A PCI Express function's MSI-X state (R348, R352, R353): the table words, the vectors whose mask bit is 0, the
pending bits; and the enable and the function mask of its MSI-X capability. PRESUMED: assumption 61. -/
structure Msix where
  on      : Bool := false
  mask    : Bool := false
  table   : List (Nat × Word) := []
  unmasked : List Nat := []
  pending : List Nat := []
deriving DecidableEq, Repr

/-- The host interface beyond its registers: the MSI-X state of both functions, the conditions of the
vectors as last evaluated (vector number; 65 stands for vector 1 of function 1), and the messages sent,
oldest first (function, vector). -/
structure Hif where
  pf0  : Msix := {}
  pf1  : Msix := {}
  cond : List Nat := []
  msgs : List (Nat × Nat) := []
  /-- Read data returned for host requests, oldest first: bytes, and whether it was a Completer Abort. -/
  cpls : List (List Byte × Bool) := []
  /-- Writes sent to the host by DMA channels, oldest first: function, host address, bytes (R363). -/
  wrote : List (Nat × Nat × List Byte) := []
  /-- Reads of host memory by DMA channels, oldest first: function, host address, length (R363). -/
  asked : List (Nat × Nat × Nat) := []
  /-- Requests that came in S2 or S3 and wait for the exit (R372). -/
  later : List Tlp := []
  /-- Maximum payload and read request size of each function, as PCI Express codes them, and whether AER shows a Completer
  Abort (R348, R350); the error reports sent, oldest first, by function. PRESUMED: assumption 113. -/
  sizes : List (Nat × (Nat × Nat)) := []
  aer   : List Nat := []
  errs  : List Nat := []
deriving DecidableEq, Repr

end Sys2Proof.Machine
end

