-- ==== Sys2Proof/Machine/Units2.lean ====
section
/-! DEFINITION. The state of the control plane's units that no register shows, first part: Clove (R206 to
R221), the migration unit (R121 to R129), the Bus Matrix (R189 to R205), and the memory repair units
(R176 to R188). -/

namespace Sys2Proof.Machine

/-- An event in one of Clove's buffers (R207): its acceptance number, header fields, stamp and payload.
`srcFlow` and `epoch` are the slice flow and the placement epoch an engine-origin record was posted
under (R218); `seq` is a host post's sequence number (R209); `admitted` says that a Background head of a
host flow has been admitted (R217). -/
structure Ev where
  no       : Nat
  type     : Nat
  cls      : Nat
  origin   : Nat
  flow     : Nat
  sec      : Word
  ns       : Word
  payload  : List Word
  srcFlow  : Option Nat := none
  epoch    : Nat := 0
  seq      : Option Word := none
  admitted : Bool := false
deriving DecidableEq, Repr

/-- Clove (R206 to R221). `queue` holds the queued events in acceptance order; `out` the delivered event
of each engine; `count` each engine's deliveries since its reset; `epoch` the slice flows' epochs;
`alias_` the alias of a flow (R129) as destination slice ID + 1; `aff` a house flow's last core + 1
(R215); `done_` the host sequence numbers consumed out of order (R219); `bgWait` that a Background head
has waited for budget in this block (R217). -/
structure Clove where
  queue  : List Ev := []
  out    : List (Nat × Ev) := []
  next   : Nat := 0
  count  : List (Nat × Nat) := []
  epoch  : List (Nat × Nat) := []
  alias_ : List (Nat × Nat) := []
  aff    : List (Nat × Nat) := []
  done_  : List Word := []
  bgWait : Bool := false
  /-- The cycle in which buffers were last freed, and how many: a post of that cycle does not find them (R220). -/
  freed  : Nat × Nat := (0, 0)
  /-- Events delivered to the house cores, oldest first: the core and the event (R215). -/
  house  : List (Nat × Ev) := []
deriving DecidableEq, Repr

/-- An ABORTED migration whose clean-up is due at the next boundary (R127): its slices, whether the destination
entry was created, whether the flow's events are held, and those of the batch that the source has received. -/
structure MigClean where
  src     : Nat
  dst     : Nat
  created : Bool
  holding : Bool
  toSrc   : List Nat
deriving DecidableEq, Repr

/-- The migration in progress (R122 to R129) beyond the CLV_MIG registers, which keep its step and its
status. -/
structure Mig where
  src      : Nat := 0
  dst      : Nat := 0
  k        : Nat := 0
  pool     : Nat := 0
  dstSb    : Nat := 0
  inBase   : Nat := 0
  outBase  : Nat := 0
  /-- The snapshot is in the Pool (step 1). -/
  snap     : Bool := false
  /-- Quads of the input history written (step 3). -/
  hist     : Nat := 0
  /-- The destination window is loaded (step 4). -/
  loaded   : Bool := false
  /-- The windows compared equal (step 7). -/
  cmp      : Bool := false
  /-- Migrations that have ended ABORTED since the last boundary (R127). -/
  clean    : List MigClean := []
  /-- The destination entry has been created (step 2). -/
  created  : Bool := false
  /-- Step 8 is done at this boundary, and step 9 follows at step 7 of it. -/
  finishing : Bool := false
  /-- An abort has completed in the cycle of tick k+3, ahead of the tick (R127). -/
  late     : Bool := false
  /-- The cycle of tick k+3 of the last COMPLETE, in which its status may still become ABORT_LATE (R127), and the
  acceptance number of its MIG_DONE report, if Clove took it. -/
  lateFrom : Option Nat := .none
  doneNo   : Option Nat := .none
  /-- The flow's events are held (R125). -/
  holding  : Bool := false
  /-- The batch of the present block is closed (R125): the flow's events with acceptance numbers below this are in
  it. -/
  batch    : Option Nat := .none
  /-- Acceptance numbers delivered to the source and to the destination in the present batch. -/
  toSrc    : List Nat := []
  toDst    : List Nat := []
deriving DecidableEq, Repr

/-- A transaction of a DMA channel (R362, R363): the fetch of a descriptor, a read and a write of bytes to move, and
the write-back of word 7 with its status and err. -/
inductive DmaStep where
  | fetch
  | read
  | write
  | back (status err : Nat)
deriving DecidableEq, Repr

/-- Who asked for a Bus Matrix transaction, and so where its outcome goes. -/
inductive Origin where
  /-- A master of its own: the response is the command's. -/
  | plain
  /-- A part of a host request (R349): the request's number. -/
  | tlp (id : Nat)
  /-- A channel of a DMA unit (R363), 0–3 CDMA0–3, 4 HIF: its token, and what the transaction is for. -/
  | dma (u c token : Nat) (k : DmaStep)
  /-- A unit of the device that runs its own transactions: the rings of the ports, the media streams (R17). -/
  | unit
deriving DecidableEq, Repr

/-- A host request being carried out (R349, R350): its function, whether it reads, its first byte and
length, the transactions not yet complete, the bytes read so far by address, and whether one erred. -/
structure HostReq where
  id   : Nat
  fn   : Nat
  read : Bool
  addr : Nat
  len  : Nat
  left : Nat
  data : List (Nat × Byte) := []
  err  : Bool := false
deriving DecidableEq, Repr

/-- A DMA channel beyond its registers (R362 to R364): the eight words of the descriptor in progress, none
before it is fetched, an abort that awaits the transaction boundary, the token of its outstanding transaction, the
bytes read that are to be written, and the status and err with which its descriptor is to be written back. -/
structure DmaCh where
  desc  : List Word := []
  abort : Bool := false
  busy  : Option Nat := .none
  buf   : List Byte := []
  stop  : Option (Nat × Nat) := .none
deriving DecidableEq, Repr

/-- A DMA unit: its channels, and the channel whose turn comes next (R363). -/
structure DmaUnit where
  chans : List (Nat × DmaCh) := []
  turn  : Nat := 0
deriving DecidableEq, Repr

/-- A transaction accepted at a master port (R191): its target, the cause if it goes to DEFAULT, the
cycle it began to wait, whether it was counted as held (R135), and what it has moved. -/
structure BusTxn where
  id      : Nat
  txn     : Txn
  target  : Nat
  cause   : Nat
  since   : Nat
  counted : Bool := false
  granted : Bool := false
  /-- The master was reset: the rest runs with strobes cleared (R201). -/
  killed  : Bool := false
  beat    : Nat := 0
  err     : Nat := 0
  data    : List (BitVec 256) := []
  origin  : Origin := .plain
deriving DecidableEq, Repr

/-- A lock on a target (R196): its master, the bytes its read covered, the cycle of the read's last beat, and the read's
transaction number. -/
structure Lock where
  master : Nat
  lo     : Nat
  hi     : Nat
  from_  : Nat
  rid    : Nat := 0
deriving DecidableEq, Repr

/-- A protection window in force (R202). -/
structure Win where
  base  : Word := 0
  limit : Word := 0
  attr  : Word := 0
deriving DecidableEq, Repr

/-- The Bus Matrix (R189 to R205). `txns` lists the outstanding transactions in issue order; `ptr` the
round-robin pointer of each target; `locks` the lock of each target; `lapsed` the masters whose lock
timed out and whose write has not arrived; `broken` the masters that broke a sequence whose read is still to complete;
`wins` the windows that differ from the reset (key master × 16 + window); `slice` BMX_SLICE in force. -/
structure BusMatrix where
  txns   : List BusTxn := []
  nextId : Nat := 0
  ptr    : List (Nat × Nat) := []
  locks  : List (Nat × Lock) := []
  lapsed : List Nat := []
  broken : List Nat := []
  wins   : List (Nat × Win) := []
  slice  : Word := 0
  /-- The cluster from which a POOL target next looks for a far beat, by target, and the engine of a cluster, by
  target × 4 + cluster (R62, R197). -/
  clusterTurn : List (Nat × Nat) := []
  engineTurn  : List (Nat × Nat) := []
  /-- The bytes that the reads of the unit that runs them have returned. -/
  got    : List Byte := []
deriving DecidableEq, Repr

/-- A repair unit (R177, R182 to R187). -/
structure RepUnit where
  hard     : Nat := 0
  soft     : Nat := 0
  failCols : Nat := 0
  fenced   : Bool := false
deriving DecidableEq, Repr

end Sys2Proof.Machine
end

