-- ==== Sys2Proof/Machine/Units3.lean ====
section
/-! DEFINITION. The state of Anise that no register shows (R327 to R346). -/

namespace Sys2Proof.Machine

/-- A mirrored change in capture order (R330, R335): one write beat with the function it came from, or an
accepted post; and the other delta records a standby applies. -/
inductive AniItem where
  | write (guest : Bool) (addr : Nat) (strb : BitVec 32) (data : BitVec 256)
  | post (port : Nat) (ev : Ev)
  | chunk (addr : Nat) (data : List Byte)
  | slice (id : Nat) (data : List Byte)
  | input (src : Nat) (data : List Word)
  | unit (data : List Byte)
deriving DecidableEq, Repr

/-- An epoch closed or received: its number, items, and the sequence numbers at its close (R332). -/
structure Epoch where
  k      : Nat
  items  : List AniItem
  seq    : Word
  wseq   : Word
  hash   : Word
  release : Bool := false
deriving DecidableEq, Repr

/-- Anise (R327 to R346). -/
structure Anise where
  /-- The standby gate is open: outputs play (R329). -/
  gateOpen : Bool := true
  /-- The outputs that ANI_GATE selected at the last tick (R329). -/
  gate     : Word := 0x1F#32
  /-- The level of HB_TX (R328). -/
  hbTx     : Bool := false
  /-- The epoch being captured, and the delta bytes sent in it. -/
  cap      : List AniItem := []
  capBytes : List Byte := []
  /-- Epochs closed on the active, or verified on the standby, that are not yet applied. -/
  wait     : List Epoch := []
  /-- Deltas received since the last commit record: items, bytes. -/
  rx       : List AniItem := []
  rxBytes  : List Byte := []
  /-- Ticks since valid input on each path, and whether the path is lost (R339). -/
  hTicks   : Nat := 0
  mTicks   : Nat := 0
  hLost    : Bool := false
  mLost    : Bool := false
  peerFailed : Bool := false
  peerTerm : Nat := 0
  /-- Consecutive hash mismatches and matches (R338). -/
  mis      : Nat := 0
  mat      : Nat := 0
  /-- Output hashes of past blocks by block number, the newest first. -/
  hashes   : List (Nat × Word) := []
  /-- Standby: epochs verified since the last tick, and whether one was discarded. -/
  verified : Bool := false
  discarded : Bool := false
  /-- A take command waits for the tick; the tick of a decided takeover (R341). -/
  take     : Bool := false
  taking   : Bool := false
  /-- A release in progress: the epoch of its commit record, and whether the ack is in (R342). -/
  release  : Option Nat := .none
  ack      : Bool := false
  relOpen  : Option Nat := .none
  /-- The peer has started a mirror copy to this standby, or ended it ABORTED; the slices loaded, and the unit record: 0 not
  applied, 1 applied at the present tick, 2 before (R340, R344). -/
  copying  : Bool := false
  copyGone : Bool := false
  loaded   : List Nat := []
  unitIn   : Nat := 0
  /-- A commit record failed the checks of R336, and its epoch has not been discarded yet. -/
  bad      : Bool := false
  /-- Mirror copy on the active: slices still to snapshot, the one whose snapshot is sent and must load. -/
  left     : List Nat := []
  abort    : Bool := false
  /-- The block in whose epoch the unit record was sent, and the cycle in which the copy became COMPLETE. -/
  unitAt   : Nat := 0
  doneAt   : Option Nat := .none
  /-- Standby: slice snapshots received and not yet loaded (R344). -/
  loads    : List (Nat × List Byte) := []
  /-- Next address of the bulk phase (R344). -/
  bulkAt   : Nat := 0
  /-- The slice whose snapshot is sent and has not loaded, and the block of the snapshot. -/
  flying   : Option (Nat × Nat) := .none
  /-- Own data of the mirrored sources for the block last captured, and the samples received for it
  (R337). -/
  own      : List (Nat × List Word) := []
  inputs   : List (Nat × List Word) := []
  inFade   : List (Nat × Nat × Word) := []
  /-- Records sent over the M path, oldest first (R334, R335). -/
  sent     : List AniRecord := []
deriving DecidableEq, Repr

end Sys2Proof.Machine
end

