-- ==== Sys2Proof/Machine/Units4.lean ====
section
/-! DEFINITION. The state of the ports that no register shows: serial audio (R222 to R238), AES3 (R240 to
R248), rate converters (R249 to R251), Dongo (R313 to R325). -/

namespace Sys2Proof.Machine

/-- A frame that a serial audio port has captured: its slot words, none where they are invalid (R234, R237), the
offset of its start in ns, and the frame errors and slips found at it (R231). -/
structure SapCap where
  words  : Option (List Word) := .none
  offset : Int := 0
  ferr   : Bool := false
  slip   : Bool := false
deriving DecidableEq, Repr

/-- What a serial port's SDO does for a slot (R222, R225, R230, R236, R237). -/
inductive Sdo where
  | word (w : Word)
  | low
  | hiz
  | hold
deriving DecidableEq, Repr

/-- A serial audio port. Frames captured and not yet taken are listed oldest first. Fades are keyed by slot,
transmit slots from 32. -/
structure Sap where
  /-- Consecutive frames with no error and no slip, at most 16; consecutive frame errors (R237). -/
  good    : Nat := 0
  bad     : Nat := 0
  cap     : List SapCap := []
  prev    : List Word := []
  offset  : Int := 0
  /-- The receive mask that governs the block now captured (R229). -/
  capMask : Word := 0xFFFFFFFF#32
  /-- A slip whose frame was dropped: it counts for the frame captured next (R231, R237). -/
  slip    : Bool := false
  /-- Relocked after clock loss; delivery resumes at the next boundary (R237). -/
  resume  : Bool := false
  /-- The next block taken is silent: its capture window opened before the start (R40, R236). -/
  fresh   : Bool := false
  /-- A member of its group when that group was last started (R224, R236). -/
  joined  : Bool := false
  fade    : List (Nat × TapFade) := []
  /-- Frame-rate measurement (R228): frames and their cycles. -/
  frames  : Nat := 0
  cycles  : Nat := 0
  /-- Receive blocks staged for the ring: block number and entry bytes (R233). -/
  ring    : List (Nat × List Byte) := []
  /-- The transmit masks of the block packed last and of the block that plays (R229, R230). -/
  txMask  : Word := 0
  playMask : Word := 0
  /-- The transmit ring entry fetched for the next block (R235). -/
  fetched : Option (List Word) := .none
  /-- The block packed last is an underrun, if it plays (R235, R238). -/
  under   : Bool := false
  /-- A sample of the block packed last was delivered under its fade (R231). -/
  txRamp  : Bool := false
  /-- Transmit frames dropped less those repeated, in the block that plays (R237). -/
  skew    : Int := 0
  /-- The descriptors of the latest block in each direction (R231). -/
  rxDesc  : List Word := []
  txDesc  : List Word := []
  /-- The descriptor of the block that plays from the last tick, until its sample 0 goes out, and the nominal time of
  that frame in ns; the descriptor of the block before it, and the samples' frames begun at the pins since the tick
  (R38, R231). -/
  txWait  : List Word := []
  txNs    : Int := 0
  txPrev  : List Word := []
  txPos   : Nat := 0
deriving DecidableEq, Repr

/-- An AES3 receiver. A captured frame holds subframes A and B; a sample with no word is invalid. -/
structure AesRx where
  /-- en and sync in force (R241). -/
  on      : Bool := false
  sync    : Bool := false
  good    : Nat := 0
  /-- Consecutive invalid subframes, consecutive frames with no valid preamble, and the frames captured since the
  first of either run (R243). -/
  badSub  : Nat := 0
  noPre   : Nat := 0
  run     : Nat := 0
  /-- Frames since the last Z preamble; none before the first (R243). -/
  idx     : Option Nat := .none
  /-- The block in progress is not to be latched (R245). -/
  spoilt  : Bool := false
  csA     : Nat := 0
  csB     : Nat := 0
  uA      : Nat := 0
  uB      : Nat := 0
  cap     : List (Option Word × Option Word) := []
  prevA   : Word := 0
  prevB   : Word := 0
  lost    : Bool := false
  resume  : Bool := false
  deliver : Bool := false
  fadeA   : TapFade := {}
  fadeB   : TapFade := {}
  frames  : Nat := 0
  cycles  : Nat := 0
deriving DecidableEq, Repr

/-- An AES3 transmitter: the live channel-status and user words CSA, CSB, UA, UB (R248), the rate code in
force, the samples of both subframes in the block that plays, and the place of its frames: frame `pos` of that
block is frame `idx` of its channel-status block, 192 for one that a Z preamble is to open. -/
structure AesTx where
  live  : List Word := []
  rate  : Nat := 0
  idx   : Nat := 192
  pos   : Nat := 0
  count : Nat := 0
  outA  : List Word := []
  outB  : List Word := []
deriving DecidableEq, Repr

/-- State of a converter channel (R250). -/
inductive SrcSt where
  | idle | acquiring | locked
deriving DecidableEq, Repr

/-- A rate converter channel (R249, R250). `out` is the source ID or sink index it delivers or fades at, plus 1;
`ins` are its latest input samples with the STC of their frame starts in ns, oldest first (R251). -/
structure SrcCh where
  live     : Word := 0
  st       : SrcSt := .idle
  good     : Nat := 0
  outRange : Bool := false
  conflict : Bool := false
  deliver  : Bool := false
  last     : Nat := 0
  /-- The measured rate in hertz, and the frames and cycles of the measurement that goes on; `full` once one is
  complete (R254). -/
  hz       : Nat := 0
  cnt      : Nat := 0
  cyc      : Nat := 0
  full     : Bool := false
  /-- The frames of the current run of good ones, and their cycles (R250). -/
  runN     : Nat := 0
  runC     : Nat := 0
  /-- The engine cycle of the latest frame's start, unless an input lock loss came after it (R251); the input samples
  with their STC times in ns. -/
  at_      : Option Int := .none
  ins      : List (Int × Word) := []
  out      : Nat := 0
  fade     : TapFade := {}
deriving DecidableEq, Repr

/-- A Dongo frame kept for resending (R315): kind, block, channel, count, payload. -/
structure DngOut where
  kind    : DngKind
  seq     : Nat
  block   : Word := 0
  chan    : Nat := 0
  cnt     : Nat := 0
  payload : List Byte := []
  resent  : Nat := 0
  /-- The cycle from which it waits for the line. -/
  at_     : Nat := 0
deriving DecidableEq, Repr

/-- A Dongo link (R313 to R325). -/
structure Dng where
  /-- Next sequence numbers sent and expected. -/
  txSeq   : Nat := 0
  rxSeq   : Nat := 0
  /-- Frames that wait for the line; those sent and not acknowledged; those of them to be sent again (R314, R315). -/
  queue   : List DngOut := []
  replay  : List DngOut := []
  again   : List DngOut := []
  /-- When the line is free, in 1/63 ns. -/
  lineFree : Nat := 0
  /-- Frames sent, oldest first, ACK, NAK and HELLO included, each with the cycle of its first bit. -/
  sent    : List (Nat × DngOut) := []
  /-- HELLO has been exchanged since training began, and the cycle of the last one asked with (R316, R321). -/
  hello   : Bool := false
  helloAt : Nat := 0
  /-- Cascade bitmap in force, words 0–7 (R319). -/
  casc    : List (Nat × Word) := []
  /-- Audio received: channel, the peer's block, the samples (R318). -/
  rx      : List (Nat × Nat × List Word) := []
  fade    : List (Nat × TapFade) := []
  /-- Ticks since the link became aligned, up to 2 (R317, R318). -/
  al      : Nat := 0
  /-- A frame was received since the last acknowledgement (R315). -/
  ackDue  : Bool := false
  /-- The engine rate, block length and block number of the peer at its last tick (R317). -/
  peer    : Option (Nat × Nat × Word) := .none
  /-- The local rate, block length and block number at the last own tick (R317). -/
  own     : Option (Nat × Nat × Word) := .none
  /-- Last TIME frame: the phase point as peer STC minus local STC in ns, and its quality (R321). -/
  phase   : Int := 0
  qual    : Nat := 15
  /-- The peer's STC in ns and the cycle at which its last TIME frame gave it, and those of the last window end
  (R299, R321). -/
  time    : Option (Int × Nat) := .none
  mark    : Option (Int × Nat) := .none
deriving DecidableEq, Repr

end Sys2Proof.Machine
end

