-- ==== Sys2Proof/Machine/Units5.lean ====
section
/-! DEFINITION. The state of the network ports (R255 to R277), the media streams (R278 to R291), Saffron
(R292 to R312), the house complex (R348 to R367), power (R369 to R378) and start-up (R379 to R386) that no
register shows. -/

namespace Sys2Proof.Machine

/-- A frame of the house firmware in its port's class 7 ring (R289): its bytes before the FCS; the `ts_id` of an egress
stamp; the offset of a one-step stamp; the Follow_Up of a two-step Sync, with the offset of its stamp; whether it is a
request whose stamp the firmware measures with. -/
structure FwFrame where
  bytes  : List Byte
  ts     : Option Nat := .none
  one    : Option Nat := .none
  follow : Option (List Byte × Nat) := .none
  req    : Bool := false
deriving DecidableEq, Repr

/-- A frame on the wire of a network port or held by preemption (R265 to R268): its class, whether it is a
ring's, its bytes with the FCS, the bytes gone in earlier fragments and those gone when the present
fragment ends, the instant the fragment starts in units of 1/25 ns, the stamp it records with its
`ts_id` (R274), and the house firmware's frame it is (R289). -/
structure Wire where
  cls   : Nat
  ring  : Bool
  data  : List Byte
  gone  : Nat := 0
  upto  : Nat
  start : Nat
  stamp : Option (Nat × Int) := .none
  fw    : Option FwFrame := .none
deriving DecidableEq, Repr

/-- A gate control list with its base time in ns, its cycle in ns, and its intervals: gates and length
(R267). -/
structure GateList where
  base  : Int
  cycle : Nat
  ivls  : List (Nat × Nat)
deriving DecidableEq, Repr

/-- An entry of the transmit stamp queue (R274): `ts_id`, the stamp in ns, and the first lost `ts_id` where
stamps were lost before it. -/
structure TsEntry where
  id   : Nat
  ns   : Int
  lost : Option Nat := .none
deriving DecidableEq, Repr

/-- A network port. Instants are in units of 1/25 ns. -/
structure Mac where
  wire   : Option Wire := .none
  held   : Option Wire := .none
  /-- The instant from which another frame may start. -/
  free   : Nat := 0
  /-- Frames that the stream engine offers, oldest first, with their classes (R266). -/
  strmQ  : List (Nat × List Byte) := []
  /-- Segments sent of the segmentation send at the head of a class, plus 1 (R272). -/
  segs   : List (Nat × Nat) := []
  tsq    : List TsEntry := []
  lost   : Option Nat := .none
  /-- The pause: from when, until when, and the start of continuous paused time (R269, R270). -/
  pause  : Option (Nat × Nat) := .none
  meas   : Nat := 0
  oper   : Option GateList := .none
  /-- The committed list with its first cycle instant in ns (R267). -/
  next   : Option (GateList × Int) := .none
  /-- Credits in units of 4·10⁻⁸ bit, as of an instant (R267). -/
  credit : List (Nat × Int) := []
  asOf   : Nat := 0
  /-- Frames and fragments sent, oldest first: the start and the bytes. -/
  sent   : List (Nat × List Byte) := []
  /-- The express and the preemptable frame being received: maxlen and the stamp at their start (R260, R274). -/
  rx     : Option (Nat × Int) := .none
  rxP    : Option (Nat × Int) := .none
  /-- The firmware's frames that wait in class 7, oldest first, the stamp of its last Delay_Req or Pdelay_Req, none
  where it was lost, and the requests it received and has not answered, oldest first, with their stamps (R289, R290). -/
  fwQ    : List FwFrame := []
  reqAt  : Option Int := .none
  fwRx   : List (Int × List Byte) := []
  /-- Anise's frames that wait in class 6, oldest first, with the instants they came (R328). -/
  aniQ   : List (Nat × List Byte) := []
deriving DecidableEq, Repr

/-- A receive stream (R282 to R285): the media counts written, the last sequence number and the cycle of the
last packet on each path, the counters of R291 by offset from STRM_PKTA_CNT in words, the samples missing
in the present gap, the channels' fades. -/
structure StrmRx where
  written : List Nat := []
  seqA    : Option Nat := .none
  seqB    : Option Nat := .none
  seenA   : Nat := 0
  seenB   : Nat := 0
  cnt     : List (Nat × Word) := []
  gap     : Nat := 0
  fade    : List (Nat × TapFade) := []
deriving DecidableEq, Repr

/-- A transmit stream (R286, R287): the packed samples of the next packet, by channel, the output count of
the first, and the packets sent. -/
structure StrmTx where
  buf  : List (List Word) := []
  at_  : Nat := 0
  sent : Nat := 0
deriving DecidableEq, Repr

/-- A priority-table entry of Saffron (R299 to R302): its last 16 frequencies, the newest first, its run of
windows with |D| < tol/2, and the edges expected and discarded in the window (R297). -/
structure SafRef where
  /-- y of the last windows, the newest first; consecutive windows within tol/2 in SOFT; edges discarded in the
  window (R297, R299, R300). -/
  ys   : List Int := []
  ok   : Nat := 0
  disc : Nat := 0
  /-- Edges since the last one compared, and its phase error in ns (R296). -/
  seen : Nat := 0
  phase : Int := 0
deriving DecidableEq, Repr

/-- The PTP reports of a port (R308). -/
structure PtpRep where
  seen   : Bool := false
  last   : Nat := 0
  offset : Int := 0
  cls    : Nat := 255
  acc    : Nat := 255
  lost   : Bool := false
  /-- The STC at the last report, and the grandmaster's frequency against SYS_XI that it gave (R308). -/
  stcAt  : Option Nat := .none
  y      : Option Int := .none
deriving DecidableEq, Repr

/-- Saffron (R292 to R311). -/
structure Saf where
  refs   : List (Nat × SafRef) := []
  ptp    : List (Nat × PtpRep) := []
  /-- The windows of the history, the newest first, and those since a freeze (R299, R301). -/
  hist   : List Int := []
  pend   : List Int := []
  /-- The time in ns since the end of the history's last window, and of the last one since a freeze, up to the last window
  end (R307). -/
  hAge   : Nat := 0
  pAge   : Nat := 0
  /-- The entry whose soft alarm froze the history (R301). -/
  frozen : Option Nat := .none
  /-- What s moves toward. -/
  target : Int := 0
  /-- Phase still to be slewed, in ps (R293). -/
  rem    : Int := 0
  /-- Microseconds of steering, modulo 1,000, and the cycle of the last update. -/
  us     : Nat := 0
  usAt   : Nat := 0
  /-- The step of a switch in progress: 0 none, 1 and then, at the window end, 2 (R305). -/
  step   : Nat := 0
  /-- Consecutive window ends within the lock threshold (R304). -/
  near   : Nat := 0
  /-- The end of the last window, and the temperature samples since: their sum and number (R299). -/
  winAt  : Nat := 0
  tSum   : Int := 0
  tNum   : Nat := 0
  /-- WCLK_OUT (0) and MCLKm (1 + m): the settings before and after, and the STC from which the second
  holds (R309). -/
  clk    : List (Nat × (Word × Word × Nat)) := []
deriving DecidableEq, Repr

/-- A PTP instance of the house firmware (R289, R357). DESIGN CHOICE: assumption 58. -/
structure PtpInst where
  args     : List Word := []
  starting : Bool := true
  state    : Nat := 1
  /-- A report has come, and what the last one said. -/
  known    : Bool := false
  cls      : Nat := 0
  acc      : Nat := 0
  offset   : Int := 0
  /-- The next sequenceId by messageType. -/
  seq      : List (Nat × Nat) := []
  /-- The grandmaster identity of the last Announce; the last Sync's sequenceId and receive stamp, and its origin time;
  a Pdelay_Resp's sequenceId, the receipt time it gives and its receive stamp; the mean path delay measured. -/
  gm       : List Byte := []
  syncAt   : Option (Nat × Int) := .none
  origin   : Option Int := .none
  respAt   : Option (Nat × Int × Int) := .none
  delay    : Option Int := .none
deriving DecidableEq, Repr

/-- The house complex (R354 to R361): the cycle each outstanding mailbox command times out, the opcodes of the commands
timed out whose answer is still to come, oldest first, the mailboxes whose command was lost in a core's reset, the PTP
instances and the discovery announcements by port, the statistics pages last collected, an update in progress, and the
takeovers kept for ANI_STATS. -/
structure House where
  due    : List (Nat × Nat) := []
  late   : List (Nat × List Nat) := []
  lost   : List Nat := []
  ptp    : List (Nat × PtpInst) := []
  disc   : List (Nat × (Word × Word)) := []
  pages  : List (Nat × List Word) := []
  update : Bool := false
  takes  : Nat := 0
  takeAt : Word := 0
  drops  : Nat := 0
  chgAt  : Word := 0
deriving DecidableEq, Repr

/-- Power (R370 to R376): the state being entered, the wake event that ends the stay with its cycle, the
cycle of entry, a thermal trip in force, a power-on reset in force (R389), whether PWR_TPEAK holds a sample, and the
cores that boot when a stay halts them (R371). -/
structure Pwr where
  entering : Option Nat := .none
  woke     : Option Nat := .none
  wokeAt   : Nat := 0
  at_      : Nat := 0
  trip     : Bool := false
  por      : Bool := false
  peakSeen : Bool := false
  booting  : List Nat := []
deriving DecidableEq, Repr

/-- The steps of R381. -/
inductive BootStep where
  | fuses | test | image | start | ready | stopped
deriving DecidableEq, Repr

/-- Start-up: the step in progress, BOOT[1:0], whether the self-test is part of this sequence, what the fuses
loaded, the entry offsets of the image in force, SYS_BOOT_CTRL.go taken, the TAP's instruction and the boundary cells, the
debug lock that the fuses hold (R384), and whether a system reset began this sequence: 1 by a write, 2 by an ECC failure
(R380). -/
structure Boot where
  step   : BootStep := .fuses
  pins   : Nat := 0
  test   : Bool := true
  ready  : Bool := false
  vendor : Nat := 0
  subsys : Word := 0
  key    : BitVec 256 := 0
  mfr    : Nat := 0
  entry0 : Word := 0
  entry1 : Word := 0
  go     : Bool := false
  jtag   : JtagInstr := .idcode
  cells  : List (Pin × Bool) := []
  locked : Bool := false
  sys    : Nat := 0
deriving DecidableEq, Repr

end Sys2Proof.Machine
end

