-- ==== Sys2Proof/Machine/State.lean ====
section
/-! DEFINITION. The state of the block as plain data, its reset, and the reasons a command can stop. -/

namespace Sys2Proof.Machine

/-- The ways the block stops with a fault. DESIGN CHOICE: assumption 72. -/
inductive Fault where
  /-- Raised by no command: the spec names no condition in which the device stops, every error has a
  response, a log or a status of its own. Safe. -/
  | none_
deriving DecidableEq, Repr

/-- The ways a command has no meaning. -/
inductive Refusal where
  /-- Answered by a dispatch arm whose command has no meaning yet. Safe. -/
  | notModelled (mnemonic : String)
deriving DecidableEq, Repr

/-- The response the last access returned (R5, R193): its data, a register word or beats, and whether it
was an error. -/
structure Rsp where
  data : List (BitVec 256) := []
  err  : Bool := false
deriving DecidableEq, Repr

/-- The state of the block. `regs` and `mem` are sparse maps by device address; an unlisted register
reads its reset value (R11) and an unlisted byte of memory reads 0 (R183). `free` counts the free values
used so far and is the model's own, as are `pending` and `now`, the engine cycle.
DESIGN CHOICE: assumption 7. DESIGN CHOICE: assumption 85. -/
structure State where
  pending : List Instr := []
  now     : Nat := 0
  free    : Nat := 0
  rsp     : Rsp := {}
  regs    : List (Nat × Word) := []
  mem     : List (Nat × Byte) := []
  frame   : Frame := {}
  engs    : List (Nat × Engine) := []
  mtx     : Matrix := {}
  morph   : Morph := {}
  router  : Router := {}
  hif     : Hif := {}
  clove   : Clove := {}
  mig     : Mig := {}
  bmx     : BusMatrix := {}
  /-- Host requests in progress (R349), and the transactions that wait for a place at their master's port: parts of
  host requests and of narrow bursts (R191, R192); the next request number. -/
  reqs    : List HostReq := []
  portWait : List (Origin × Txn) := []
  nextReq : Nat := 0
  /-- The DMA units: 0–3 CDMA0–3, 4 HIF (R362). -/
  dma     : List (Nat × DmaUnit) := []
  ani     : Anise := {}
  saps    : List (Nat × Sap) := []
  aesRx   : List (Nat × AesRx) := []
  aesTx   : List (Nat × AesTx) := []
  src     : List (Nat × SrcCh) := []
  dng     : List (Nat × Dng) := []
  macs    : List (Nat × Mac) := []
  strmRx  : List (Nat × StrmRx) := []
  strmTx  : List (Nat × StrmTx) := []
  saf     : Saf := {}
  house   : House := {}
  pwr     : Pwr := {}
  boot    : Boot := {}
  /-- I/O banks 0–4 with 3.3 V buffers, as sensed while PORn was last low (R390). DESIGN CHOICE: assumption 85. -/
  io33    : BitVec 5 := 0
  /-- The repair units that differ from an unrepaired good unit, by unit ID (R177). -/
  rep     : List (Nat × RepUnit) := []
  /-- The System Time Counter in units of 10⁻¹² ns (R292), Saffron's steer in ppt and its phase slew. -/
  stc     : Nat := 0
  steer   : Int := 0
  slew    : Int := 0
deriving DecidableEq, Repr

/-- The block right after a power-on reset (R380), its queue empty. DESIGN CHOICE: assumption 4. -/
def State.reset : State := {}

end Sys2Proof.Machine
end

