-- ==== Sys2Proof/Machine/Ops.lean ====
section
/-! DEFINITION. The named operations over registers and memory that every unit shares: reading and
writing a register's stored value, interrupt flags, counters, the rejected-write log, bytes and words of
memory, the clock, and the interrupt vectors. -/

namespace Sys2Proof.Machine

/-- The outcome of a step of this block. -/
abbrev Out := Host.Outcome State Fault Refusal

/-- The stored value of a register. -/
def State.rd (s : State) (r : Reg) : Word := sget r.reset s.regs r.addr

/-- Put a value in a register. -/
def State.wr (s : State) (r : Reg) (v : Word) : State :=
  { s with regs := sset r.reset s.regs r.addr v }

/-- Change a register's value. -/
def State.upd (s : State) (r : Reg) (f : Word → Word) : State := s.wr r (f (s.rd r))

/-- Put a field of a register. -/
def State.wrF (s : State) (r : Reg) (hi lo v : Nat) : State := s.upd r (fun w => setBits w hi lo v)

/-- A field of a register. -/
def State.rdF (s : State) (r : Reg) (hi lo : Nat) : Nat := bits (s.rd r) hi lo

/-- One bit of a register. -/
def State.rdB (s : State) (r : Reg) (i : Nat) : Bool := bit (s.rd r) i

/-- Put one bit of a register. -/
def State.wrB (s : State) (r : Reg) (i : Nat) (b : Bool) : State := s.upd r (fun w => setBit w i b)

/-- Set interrupt flags or other status bits of a register. -/
def State.raise (s : State) (r : Reg) (mask : Word) : State := s.upd r (fun w => w ||| mask)

/-- Advance an event counter in a field of a register; it saturates at all ones (R9). -/
def State.countF (s : State) (r : Reg) (hi lo n : Nat) : State :=
  s.upd r (fun w => setBits w hi lo (min (bits w hi lo + n) (2 ^ (hi + 1 - lo) - 1)))

/-- Advance a 32-bit event counter (R9). -/
def State.count (s : State) (r : Reg) : State := s.countF r 31 0 1

/-- A larger sample replaces the maximum a field holds; 0 stands for empty (R403). -/
def State.maxF (s : State) (r : Reg) (hi lo v : Nat) : State :=
  let v := if v < 2 ^ (hi + 1 - lo) then v else 2 ^ (hi + 1 - lo) - 1
  if s.rdF r hi lo < v then s.wrF r hi lo v else s

/-- A register write outside a field's range changes nothing and is logged (R10, R385, R386). -/
def State.reject (s : State) (q : Req) (addr data : Word) : State :=
  let s := s.count SYS_REJ_CNT
  if s.rdB SYS_REJLOG 31 then s
  else
    let v := setBits (setBit (setBit 0 31 true) 30 q.guest) 27 24 q.master.val
    ((s.wr SYS_REJLOG v).wr SYS_REJADDR addr).wr SYS_REJDATA data

/-- Answer an access: data, and whether it ends with an error response. -/
def State.respond (s : State) (data : Word) (err : Bool) : State :=
  { s with rsp := ⟨[data.zeroExtend 256], err⟩ }

/-- Answer an access with the data of its beats. -/
def State.respondBeats (s : State) (data : List (BitVec 256)) (err : Bool) : State :=
  { s with rsp := ⟨data, err⟩ }

/-- A byte of memory by device address; the house boot ROM has fixed contents (R177).
DESIGN CHOICE: assumption 5. -/
def State.byte (s : State) (a : Nat) : Byte :=
  if a < 0x40000 then Config.hromByte a else sget 0 s.mem a

/-- The canonical form of the memory: addresses strictly rising, and no listed byte 0, which is what an unlisted
one reads as (R183). -/
def Memory.wf (m : List (Nat × Byte)) : Bool := swf (fun _ => (0 : Byte)) m

/-- Write a byte of memory. -/
def putByte (m : List (Nat × Byte)) (a : Nat) (b : Byte) : List (Nat × Byte) := sset 0 m a b

/-- The little-endian 32-bit word at a byte address of a memory (R4). -/
def wordOf (m : List (Nat × Byte)) (a : Nat) : Word :=
  (sget 0 m (a + 3)) ++ (sget 0 m (a + 2)) ++ (sget 0 m (a + 1)) ++ (sget 0 m a)

/-- A memory with a little-endian 32-bit word written (R4). -/
def putWord (m : List (Nat × Byte)) (a : Nat) (w : Word) : List (Nat × Byte) :=
  putByte (putByte (putByte (putByte m a (w.extractLsb' 0 8)) (a + 1) (w.extractLsb' 8 8))
    (a + 2) (w.extractLsb' 16 8)) (a + 3) (w.extractLsb' 24 8)

/-- Write 32-bit words at successive addresses. -/
def putWords (m : List (Nat × Byte)) (a : Nat) : List Word → List (Nat × Byte)
  | [] => m
  | w :: ws => putWords (putWord m a w) (a + 4) ws

/-- Write bytes at successive addresses. -/
def putBytes (m : List (Nat × Byte)) (a : Nat) : List Byte → List (Nat × Byte)
  | [] => m
  | b :: bs => putBytes (putByte m a b) (a + 1) bs

/-- `n` bytes from an address. -/
def bytesAt (m : List (Nat × Byte)) (a n : Nat) : List Byte := (upTo n).map (fun i => sget 0 m (a + i))

/-- `n` words from an address. -/
def wordsAt (m : List (Nat × Byte)) (a n : Nat) : List Word := (upTo n).map (fun i => wordOf m (a + 4 * i))

/-- Clear a range of memory to 0. -/
def clearRange (m : List (Nat × Byte)) (a n : Nat) : List (Nat × Byte) :=
  m.filter (fun kv => kv.1 < a || a + n ≤ kv.1)

/-- Copy a range of memory over another of the same size that does not overlap it. -/
def copyRange (m : List (Nat × Byte)) (src dst n : Nat) : List (Nat × Byte) :=
  (m.filter (fun kv => src ≤ kv.1 && kv.1 < src + n)).foldl
    (fun m kv => putByte m (kv.1 - src + dst) kv.2) (clearRange m dst n)

/-- The listed words of a memory range, as (word index, word). -/
def listedWords (m : List (Nat × Byte)) (a n : Nat) : List (Nat × Word) :=
  let ks := ((m.filter (fun kv => a ≤ kv.1 && kv.1 < a + 4 * n)).map (fun kv => (kv.1 - a) / 4)).dedup
  ks.map (fun i => (i, wordOf m (a + 4 * i)))

/-- The state of an engine. -/
def State.eng (s : State) (e : Nat) : Engine := sget {} s.engs e

/-- Replace an engine. -/
def State.setEng (s : State) (e : Nat) (g : Engine) : State := { s with engs := sset {} s.engs e g }

/-- Change an engine. -/
def State.updEng (s : State) (e : Nat) (f : Engine → Engine) : State := s.setEng e (f (s.eng e))

/-- The next free value as a word, and the state that has used it. -/
def State.freeWord (s : State) : Word × State :=
  (BitVec.ofNat 32 (Config.freeNat s.free), { s with free := s.free + 1 })

/-- `n` free values as words. -/
def State.freeWords : Nat → State → List Word × State
  | 0, s => ([], s)
  | n + 1, s =>
    let x := s.freeWord
    let r := freeWords n x.2
    (x.1 :: r.1, r.2)

/-- Fold a state change over a list. -/
def State.each {α : Type} (s : State) (l : List α) (f : State → α → State) : State := l.foldl f s

/-- The enable register that belongs to an interrupt register, by address (R43, R72 and the interrupt
tables of every chapter). -/
def ienOf (a : Nat) : Option Nat :=
  if 0x20000000 ≤ a ∧ a < 0x21000000 then
    (if a % 0x80000 = 0x70024 then some (a + 4) else none)
  else
    let o := a % 0x10000
    match (a - 0x50000000) / 0x10000 with
    | 0 => if o = 0x134 then some (a + 4) else none
    | 1 => if o = 0xC then some (a + 4) else none
    | 2 => if o = 0x4 then some (a + 4) else none
    | 3 => if o = 0x4 then some (a + 4) else none
    | 4 => if o = 0x8 then some (a + 4) else none
    | 5 => if o = 0x8 then some (a + 4) else none
    | 6 => if o % 0x100 = 0x20 ∧ o < 0x1800 then some (a + 4) else none
    | 7 => if o % 0x100 = 0x8 ∧ o < 0x800 then some (a + 4) else none
    | 8 => if o = 0x414 then some (a + 4) else none
    | 9 => if o = 0x8 then some (a + 4) else none
    | 10 => if o = 0x8 then some (a + 4) else none
    | 11 => if o = 0x8 then some (a + 4) else none
    | 12 => if o % 0x100 = 0x8 ∧ 0x100 ≤ o ∧ o < 0x500 then some (a + 4) else none
    | 13 => if o = 0x8 then some (a + 4) else none
    | 14 => if o = 0x4 ∨ o = 0x1800 then some (a + 4) else none
    | 15 => if o = 0x8 then some (a + 4) else none
    | 16 => if o = 0xC then some (a + 4) else none
    | 17 => if o = 0x410 then some (a + 4) else none
    | _ => none

/-- A listed interrupt flag whose enable bit is 1, in the registers with addresses from `lo` to `hi`. -/
def State.irqIn (s : State) (lo hi : Nat) : Bool :=
  s.regs.any (fun kv =>
    decide (lo ≤ kv.1 ∧ kv.1 < hi) &&
      (match ienOf kv.1 with
       | some i => (kv.2 &&& sget 0 s.regs i) != 0
       | none => false))

/-- HIF_ISUM as R352 defines it; bits 3 and 18 always read 0. -/
def State.isum (s : State) : Word :=
  (upTo 21).foldl (fun w n =>
    if n = 3 ∨ n = 18 then w
    else setBit w n (s.irqIn (0x50000000 + n * 0x10000) (0x50000000 + (n + 1) * 0x10000))) 0

/-- HIF_ISUM_ENG as R352 defines it. -/
def State.isumEng (s : State) : Word :=
  (upTo 32).foldl (fun w e =>
    setBit w e (s.irqIn (0x20070000 + e * 0x80000) (0x20080000 + e * 0x80000))) 0

/-- Whether a flag of an interrupt register is set with its enable. -/
def State.flagged (s : State) (i e : Reg) : Bool := (s.rd i &&& s.rd e) != 0

/-- The condition of a vector (R352); 65 stands for vector 1 of function 1. -/
def State.vecCond (s : State) (v : Nat) : Bool :=
  match v with
  | 0 => s.isum != 0 || s.isumEng != 0
  | 1 => s.rdB (HSE_MB_STAT 0) 31
  | 65 => s.rdB (HSE_MB_STAT 1) 31
  | 2 => s.flagged CLV_INT CLV_IEN
  | 3 => s.flagged (CDMA_INT 0) (CDMA_IEN 0)
  | 4 => s.flagged (CDMA_INT 1) (CDMA_IEN 1)
  | 5 => s.flagged (CDMA_INT 2) (CDMA_IEN 2)
  | 6 => s.flagged (CDMA_INT 3) (CDMA_IEN 3)
  | 7 => s.flagged HIF_DINT HIF_DIEN
  | _ => false

/-- The vectors that can be signalled. -/
def vectors : List Nat := [0, 1, 65, 2, 3, 4, 5, 6, 7]

/-- The function a vector is routed to (R352). -/
def State.vecFn (s : State) (v : Nat) : Nat :=
  if v = 1 then 0 else if v = 65 then 1 else b2n (s.rdB HIF_VFN v)

/-- A function's MSI-X state. -/
def Hif.msix (h : Hif) (fn : Nat) : Msix := if fn = 0 then h.pf0 else h.pf1

/-- Replace a function's MSI-X state. -/
def Hif.setMsix (h : Hif) (fn : Nat) (m : Msix) : Hif :=
  if fn = 0 then { h with pf0 := m } else { h with pf1 := m }

/-- Whether a function's vector goes out: its capability is enabled, and neither the function nor the vector is masked.
PRESUMED: assumption 61. -/
def Msix.passes (m : Msix) (v : Nat) : Bool := m.on && !m.mask && m.unmasked.contains v

/-- MSIX_SEND (R353): send a message, or set the pending bit of a masked vector. -/
def Hif.send (h : Hif) (fn v : Nat) : Hif :=
  let m := h.msix fn
  let v := if v = 65 then 1 else v
  if m.passes v then { h with msgs := h.msgs ++ [(fn, v)] }
  else h.setMsix fn { m with pending := if m.pending.contains v then m.pending else m.pending ++ [v] }

/-- Evaluate the vectors' conditions and send those that became true (R353). -/
def State.vecHif (s : State) : Hif :=
  vectors.foldl (fun h v =>
    let c := s.vecCond v
    let h' := if c && !(s.hif.cond.contains v) then h.send (s.vecFn v) v else h
    { h' with cond := if c then h'.cond ++ [v] else h'.cond }) { s.hif with cond := [] }

/-- The state with the interrupt vectors brought up to date; every command ends with it. -/
def State.settle (s : State) : State := { s with hif := s.vecHif }

/-- The next state of a command. -/
def done (s : State) : Out := .next s.settle

end Sys2Proof.Machine
end

