-- ==== Sys2Proof/Machine/Operands.lean ====
section
/-! DEFINITION. Operands of the Prehotrix instructions: registers of a set, the glide factor as a
multiply operand, pointer arithmetic (R88, R89), and the DMEM word a pointer names under the bank view
(R146). -/

namespace Sys2Proof.Machine

/-- A D register in every lane. -/
def RegSet.dAll (r : RegSet) (i : Fin 16) : L4 Word := sget (L4.all 0) r.d i.val

/-- A D register of one lane. -/
def RegSet.dL (r : RegSet) (i : Fin 16) (k : Fin 4) : Word := (r.dAll i).get k

/-- An accumulator in every lane. -/
def RegSet.aAll (r : RegSet) (m : Fin 4) : L4 AccV := sget (L4.all {}) r.a m.val

/-- An accumulator of one lane. -/
def RegSet.aL (r : RegSet) (m : Fin 4) (k : Fin 4) : AccV := (r.aAll m).get k

/-- Pointers, modifiers and lengths. -/
def RegSet.pR (r : RegSet) (i : Fin 8) : BitVec 16 := sget 0 r.p i.val
def RegSet.nR (r : RegSet) (i : Fin 8) : BitVec 16 := sget 0 r.n i.val
def RegSet.lR (r : RegSet) (i : Fin 8) : BitVec 16 := sget 0 r.l i.val

def RegSet.setD (r : RegSet) (i : Fin 16) (v : L4 Word) : RegSet :=
  { r with d := sset (L4.all 0) r.d i.val v }
def RegSet.setA (r : RegSet) (m : Fin 4) (v : L4 AccV) : RegSet :=
  { r with a := sset (L4.all {}) r.a m.val v }
def RegSet.setP (r : RegSet) (i : Fin 8) (v : BitVec 16) : RegSet := { r with p := sset 0 r.p i.val v }
def RegSet.setN (r : RegSet) (i : Fin 8) (v : BitVec 16) : RegSet := { r with n := sset 0 r.n i.val v }
def RegSet.setL (r : RegSet) (i : Fin 8) (v : BitVec 16) : RegSet := { r with l := sset 0 r.l i.val v }

/-- The `t` operand of a multiply: a D register or the glide factor (R78, R79). -/
def mulVal (t : MulT) (r : RegSet) (g : L4 Word) (k : Fin 4) : Word :=
  match t with
  | .reg i => r.dL i k
  | .g => g.get k

/-- Smallest k ≤ 16 with 2^k ≥ l. -/
def log2Ceil (l : Nat) : Nat := ((upTo 17).find? (fun k => decide (l ≤ 2 ^ k))).getD 16

/-- modify(p, n, l) of R89: linear when l is 0, else circular in a buffer of l words. -/
def modify (p n l : BitVec 16) : BitVec 16 :=
  if l = 0 then p + n
  else
    let k := log2Ceil l.toNat
    let base := p.toNat - p.toNat % 2 ^ k
    BitVec.ofNat 16 (base + (((p.toNat : Int) - base + n.toInt) % (l.toNat : Int)).toNat)

/-- The modifier register a memory slot names: N(j) for P0–P3, N(4 + j) for P4–P7 (R90). -/
def slotMod (i : Fin 8) (j : Fin 4) : Fin 8 := if i.val < 4 then ⟨j.val, by omega⟩ else ⟨4 + j.val, by omega⟩

/-- Byte address of DMEM word `w` of engine `e` (R54). -/
def dmemAddr (e w : Nat) : Nat := 0x20000000 + e * 0x80000 + w * 4

/-- Byte address of PMEM bundle `b` of engine `e` (R54). -/
def pmemAddr (e b : Nat) : Nat := 0x20040000 + e * 0x80000 + b * 8

/-- Fields of a slice-table entry (R107, R130). -/
def Entry.valid (t : Entry) : Bool := bit t.ctrl 31
def Entry.phase (t : Entry) : Nat := bits t.ctrl 30 29
def Entry.nrt (t : Entry) : Bool := bit t.ctrl 28
def Entry.pc (t : Entry) : Nat := bits t.ctrl 12 0
def Entry.dkey (t : Entry) : Nat := bits t.base 31 16
def Entry.sb (t : Entry) : Nat := bits t.base 13 0
def Entry.budgetN (t : Entry) : Nat := bits t.budget 19 0
def Entry.evtMask (t : Entry) : Nat := bits t.evt 15 0
def Entry.outCnt (t : Entry) : Nat := bits t.taps 31 24
def Entry.outBase (t : Entry) : Nat := bits t.taps 22 16
def Entry.inCnt (t : Entry) : Nat := bits t.taps 14 8
def Entry.inBase (t : Entry) : Nat := bits t.taps 6 0
def Entry.outSize (t : Entry) : Nat := bits t.size0 27 16
def Entry.inSize (t : Entry) : Nat := bits t.size0 11 0
def Entry.coefSize (t : Entry) : Nat := bits t.size1 27 16
def Entry.stateSize (t : Entry) : Nat := bits t.size1 11 0
def Entry.scratchSize (t : Entry) : Nat := bits t.size2 11 0

/-- Class RT of phase Strip or Bus. -/
def Entry.rt (t : Entry) : Bool := t.valid && !t.nrt

/-- Quads of the window (R110). -/
def Entry.winSize (t : Entry) : Nat :=
  t.inSize + t.outSize + t.stateSize + 2 * t.coefSize + t.scratchSize

/-- First quads of the areas (R110). -/
def Entry.outQuad (t : Entry) : Nat := t.sb + t.inSize
def Entry.bankA (t : Entry) : Nat := t.sb + t.inSize + t.outSize + t.stateSize
def Entry.bankB (t : Entry) : Nat := t.bankA + t.coefSize

/-- The DMEM word an X or Y access to word `w` is made to: while the lane's cbank is 1, the two
coefficient banks of the slice are exchanged (R146). -/
def bankView (t : Entry) (cbank w : Nat) : Nat :=
  if t.valid && (cbank / 2 ^ (w % 4)) % 2 = 1 then
    let a := t.bankA * 4
    let b := t.bankB * 4
    let n := t.coefSize * 4
    if a ≤ w ∧ w < a + n then w + n
    else if b ≤ w ∧ w < b + n then w - n
    else w
  else w

end Sys2Proof.Machine
end

