-- ==== Sys2Proof/Machine/Flags.lean ====
section
/-! DEFINITION. Flag computations of the Prehotrix instructions: Z and N, the sticky saturation and guard
overflow, conditions, and the fields of SR (R48, R76, R86, R87, R98). -/

namespace Sys2Proof.Machine

/-- Z and N from a result (R86). -/
def znOf (w : Word) : Bool × Bool := (w == 0, w.msb)

/-- Z and N of a comparison, signed and exact (R86). -/
def znCmp (s t : Int) : Bool × Bool := (decide (s = t), decide (s < t))

/-- sat32: the clamped word, and whether it clamped (R86). -/
def sat32 (v : Int) : Word × Bool := (BitVec.ofInt 32 (clampBits 32 v), outOfBits 32 v)

/-- Whether a condition holds for the flags z and n (R76). -/
def condHolds (c : Cond) (z n : Bool) : Bool :=
  match c with
  | .z => z
  | .nz => !z
  | .n => n
  | .nn => !n
  | .nOrZ => n || z
  | .nnAndNz => !n && !z

/-- SR.z and SR.n of a lane. -/
def srZ (sr : Word) (k : Fin 4) : Bool := bit sr (8 + k.val)
def srN (sr : Word) (k : Fin 4) : Bool := bit sr (12 + k.val)

/-- SR.epm. -/
def srEpm (sr : Word) : Bool := bit sr 16

/-- Whether BC's condition holds in the SR value seen at issue (R98). -/
def bcHolds (cond : Fin 8) (sr : Word) : Bool :=
  match cond with
  | 0 => condHolds .z (srZ sr 0) (srN sr 0)
  | 1 => condHolds .nz (srZ sr 0) (srN sr 0)
  | 2 => condHolds .n (srZ sr 0) (srN sr 0)
  | 3 => condHolds .nn (srZ sr 0) (srN sr 0)
  | 4 => condHolds .nOrZ (srZ sr 0) (srN sr 0)
  | 5 => condHolds .nnAndNz (srZ sr 0) (srN sr 0)
  | 6 => bits sr 3 0 != 0
  | 7 => bits sr 7 4 != 0

/-- Four lane bits as a number, lane 0 lowest. -/
def laneBits (b : L4 Bool) : Nat := b2n b.l0 + 2 * b2n b.l1 + 4 * b2n b.l2 + 8 * b2n b.l3

/-- SR with Z and N of every lane replaced. -/
def srSetZn (sr : Word) (z n : L4 Bool) : Word :=
  setBits (setBits sr 11 8 (laneBits z)) 15 12 (laneBits n)

/-- SR with sticky bits set (R87). -/
def srSticky (sr : Word) (gov sat : L4 Bool) : Word :=
  sr ||| BitVec.ofNat 32 (laneBits gov + 16 * laneBits sat)

/-- SR with the bits of CLRF's mask cleared: [7:4] sat lanes, [3:0] gov lanes (R95, R97). -/
def srClrf (sr : Word) (mask : BitVec 8) : Word := sr &&& ~~~(mask.zeroExtend 32)

end Sys2Proof.Machine
end

