-- ==== Sys2Proof/Machine/Arith.lean ====
section
/-! DEFINITION. The arithmetic slot: what each instruction computes in one lane (R78 to R86), the dither
generator (R82, R83), and the results it puts in flight. -/

namespace Sys2Proof.Machine

/-- One step of a 32-bit Galois shift register for x^32 + x^22 + x^2 + x + 1 (R82). -/
def lfsrStep (s : Word) : Word := (s >>> 1) ^^^ (if bit s 0 then 0x80200003#32 else 0#32)

/-- The triangular dither value of a generator state (R82). -/
def dithOf (s : Word) : Int := (bits s 31 16 : Int) - (bits s 15 0 : Int)

/-- The value the dither generator of a lane is loaded with, for key K and block k (R83). -/
def dithSeed (key block lane : Nat) : Word :=
  let v := BitVec.ofNat 32 (key * 0x00010001) ^^^ BitVec.ofNat 32 (block * 0x9E3779B9)
    ^^^ BitVec.ofNat 32 (lane + 1)
  if v = 0 then 1#32 else v

/-- acc(m, q) of R79: exact addition that saturates, locks and reports guard overflow; on a locked accumulator it
has no effect (R80). -/
def accAdd (a : AccV) (q : Int) : Option AccV × Bool :=
  if a.lock then (none, false)
  else
    let v := a.v.toInt + q
    (some ⟨BitVec.ofInt 80 (clampBits 80 v), outOfBits 80 v⟩, outOfBits 80 v)

/-- The product 2p of R79, with weight 2^-63. -/
def prod2 (s t : Word) : Int := 2 * (s.toInt * t.toInt)

/-- pl of R79, for MACL and MSBL. -/
def prodL (s t : Word) : Int := floorDiv (s.toInt * (t.toNat : Int)) (2 ^ 31)

/-- EXT of R81 on an accumulator value and, for TPDF, a dither value. -/
def extWord (v : Acc) (sh : BitVec 5) (rm : Rm) (dith : Int) : Word × Bool :=
  let e := (32 - sh.toInt).toNat
  let x := match rm with
    | .tpdf => v.toInt + dith * 2 ^ (e - 16)
    | _ => v.toInt
  let w := match rm with
    | .trunc => floorDiv x (2 ^ e)
    | _ => roundHalfEven x (2 ^ e)
  sat32 w

/-- Number of leading bits of an n-bit word equal to its top bit, minus 1 (R84, R85). -/
def redundantSigns {n : Nat} (w : BitVec n) : Nat :=
  ((upTo n).find? (fun i => w.getLsbD (n - 1 - i) != w.msb)).getD n - 1

/-- NORM of R84: mantissa and exponent. -/
def normOf (v : Acc) : Word × Word :=
  let r := redundantSigns v
  ((v <<< r).extractLsb' 48 32, BitVec.ofInt 32 ((r : Int) - 16))

/-- SCALE of R85. -/
def scaleWord (s t : Word) : Word × Bool :=
  let k := if t.toInt < -32 then -32 else if t.toInt > 31 then 31 else t.toInt
  if 0 ≤ k then sat32 (s.toInt * 2 ^ k.toNat)
  else (BitVec.ofInt 32 (floorDiv s.toInt (2 ^ (-k).toNat)), false)

/-- What an arithmetic instruction produces in one lane. -/
structure LaneOut where
  d   : Option Word := none
  /-- NORM's second result. -/
  c   : Option Word := none
  a   : Option AccV := none
  zn  : Option (Bool × Bool) := none
  sat : Bool := false
  gov : Bool := false
deriving DecidableEq, Repr

/-- A result word with its Z and N, and a saturation. -/
def LaneOut.res (w : Word) (sat : Bool := false) : LaneOut := { d := some w, zn := some (znOf w), sat := sat }

/-- An accumulation. -/
def LaneOut.acc (r : Option AccV × Bool) : LaneOut := { a := r.1, gov := r.2 }

/-- The arithmetic slot in one lane (R79 to R86): the register set, the glide factor, the lane, the
accumulator the accumulate path starts from (R57), and the dither state already stepped for an EXT with
TPDF (R82). -/
def arithLane (op : ArithOp) (r : RegSet) (g : L4 Word) (start : L4 AccV) (dith : L4 Word)
    (k : Fin 4) : LaneOut :=
  match op with
  | .nop => {}
  | .mac _ s t => .acc (accAdd (start.get k) (prod2 (r.dL s k) (mulVal t r g k)))
  | .msb _ s t => .acc (accAdd (start.get k) (-(prod2 (r.dL s k) (mulVal t r g k))))
  | .mpy _ s t => { a := some ⟨BitVec.ofInt 80 (prod2 (r.dL s k) (mulVal t r g k)), false⟩ }
  | .mpyn _ s t => { a := some ⟨BitVec.ofInt 80 (-(prod2 (r.dL s k) (mulVal t r g k))), false⟩ }
  | .macl _ s t => .acc (accAdd (start.get k) (prodL (r.dL s k) (r.dL t k)))
  | .msbl _ s t => .acc (accAdd (start.get k) (-(prodL (r.dL s k) (r.dL t k))))
  | .clr _ => { a := some ⟨0, false⟩ }
  | .lda _ s => { a := some ⟨BitVec.ofInt 80 ((r.dL s k).toInt * 2 ^ 32), false⟩ }
  | .ext _ m sh rm =>
    let w := extWord (r.aL m k).v sh rm (dithOf (dith.get k))
    .res w.1 w.2
  | .norm _ _ m =>
    let w := normOf (r.aL m k).v
    { d := some w.1, c := some w.2, zn := some (znOf w.1) }
  | .add _ s t => let w := sat32 ((r.dL s k).toInt + (r.dL t k).toInt); .res w.1 w.2
  | .sub _ s t => let w := sat32 ((r.dL s k).toInt - (r.dL t k).toInt); .res w.1 w.2
  | .min _ s t => .res (if (r.dL s k).toInt ≤ (r.dL t k).toInt then r.dL s k else r.dL t k)
  | .max _ s t => .res (if (r.dL t k).toInt ≤ (r.dL s k).toInt then r.dL s k else r.dL t k)
  | .sel _ s t c => { d := some (if condHolds c (srZ r.sr k) (srN r.sr k) then r.dL s k else r.dL t k) }
  | .cmp s t => { zn := some (znCmp (r.dL s k).toInt (r.dL t k).toInt) }
  | .and _ s t => .res (r.dL s k &&& r.dL t k)
  | .or _ s t => .res (r.dL s k ||| r.dL t k)
  | .xor _ s t => .res (r.dL s k ^^^ r.dL t k)
  | .shl _ s t => .res (r.dL s k <<< (bits (r.dL t k) 4 0))
  | .asr _ s t => .res ((r.dL s k).sshiftRight (bits (r.dL t k) 4 0))
  | .scale _ s t => let w := scaleWord (r.dL s k) (r.dL t k); .res w.1 w.2
  | .expt _ s => .res (BitVec.ofNat 32 (redundantSigns (r.dL s k)))
  | .abs _ s => let w := sat32 ((r.dL s k).toInt.natAbs : Int); .res w.1 w.2
  | .neg _ s => let w := sat32 (-(r.dL s k).toInt); .res w.1 w.2
  | .mov _ s => .res (r.dL s k)
  | .addi _ s imm => .res (r.dL s k + imm.signExtend 32)
  | .cmpi s imm => { zn := some (znCmp (r.dL s k).toInt imm.toInt) }
  | .shli _ s imm => .res (r.dL s k <<< imm.toNat)
  | .asri _ s imm => .res ((r.dL s k).sshiftRight imm.toNat)
  | .lsri _ s imm => .res (r.dL s k >>> imm.toNat)
  | .bcst _ s j => .res (r.dL s j)
  | .movi d imm h =>
    .res (if h then imm ++ (r.dL d k).extractLsb' 0 16 else imm.signExtend 32)

/-- The D register an arithmetic instruction writes. -/
def arithDest : ArithOp → Option (Fin 16)
  | .ext d .. | .norm d .. | .add d .. | .sub d .. | .min d .. | .max d .. | .sel d .. | .and d ..
  | .or d .. | .xor d .. | .shl d .. | .asr d .. | .scale d .. | .expt d .. | .abs d .. | .neg d ..
  | .mov d .. | .addi d .. | .shli d .. | .asri d .. | .lsri d .. | .bcst d .. | .movi d .. => some d
  | .nop | .mac .. | .msb .. | .mpy .. | .mpyn .. | .macl .. | .msbl .. | .clr .. | .lda .. | .cmp ..
  | .cmpi .. => none

/-- The second D register NORM writes. -/
def arithDest2 : ArithOp → Option (Fin 16)
  | .norm _ c _ => some c
  | _ => none

/-- The accumulator an arithmetic instruction writes. -/
def arithAcc : ArithOp → Option (Fin 4)
  | .mac m .. | .msb m .. | .mpy m .. | .mpyn m .. | .macl m .. | .msbl m .. | .clr m | .lda m _ => some m
  | _ => none

/-- The MAC-class instructions (R55, R86). -/
def arithMac : ArithOp → Bool
  | .mac .. | .msb .. | .mpy .. | .mpyn .. | .macl .. | .msbl .. => true
  | _ => false

/-- EXT with TPDF dither, the one instruction that steps the dither generators (R82). -/
def arithDithers : ArithOp → Bool
  | .ext _ _ _ .tpdf => true
  | _ => false

/-- The cycles from issue to the first bundle that sees the results (R55, R86). R86's text gives every flag update as
seen from n+2, its table row gives the MAC-class row, gov included, n+4; gov lands with its accumulator at n+4.
DESIGN CHOICE: assumption 74. -/
def arithLatency (op : ArithOp) : Nat := if (arithMac op) then 4 else 2

/-- Whether an accumulation at cycle `c` includes a write: a MAC-class result, or another write issued at least 2
bundles before (R57). -/
def PathW.included (w : PathW) (c : Nat) : Bool := w.mac || decide (w.issue + 2 ≤ c)

/-- The value the accumulate path starts from at cycle `c`: in each lane, that of the last included write in issue
order, 0 before any (R57). -/
def pathStart (r : RegSet) (m : Fin 4) (c : Nat) : L4 AccV :=
  L4.of fun k => ((sget [] r.path m.val).findSome? (fun w => if w.included c then w.val.get k else none)).getD {}

/-- Record a write to an accumulator for the accumulate path: the writes that it includes itself, as one, stand
before it and before what it does not include yet. -/
def pathPush (r : RegSet) (m : Fin 4) (w : PathW) : RegSet :=
  let base : PathW := ⟨w.issue, true, (pathStart r m w.issue).map some⟩
  let late := (sget [] r.path m.val).filter (fun u => !(u.included w.issue))
  { r with path := sset [] r.path m.val (w :: late ++ [base]) }

/-- A lane value present in every lane or in none. -/
def allSome {α : Type} (v : L4 (Option α)) : Option (L4 α) :=
  match v.l0, v.l1, v.l2, v.l3 with
  | some a, some b, some c, some d => some ⟨a, b, c, d⟩
  | _, _, _, _ => none

/-- What an arithmetic instruction issued in cycle `c` lands, in issue order. -/
def arithLandings (op : ArithOp) (o : L4 LaneOut) : List Landing :=
  (match arithDest op with
   | some d => [Landing.d d (o.map LaneOut.d)]
   | none => []) ++
  (match arithDest2 op with
   | some d => [Landing.d d (o.map LaneOut.c)]
   | none => []) ++
  (match arithAcc op with
   | some m => [Landing.a m (o.map LaneOut.a)]
   | none => []) ++
  (match allSome (o.map LaneOut.zn) with
   | some v => [Landing.zn (v.map (·.1)) (v.map (·.2))]
   | none => []) ++
  (if laneBits (o.map LaneOut.gov) + laneBits (o.map LaneOut.sat) = 0 then []
   else [Landing.sticky (o.map LaneOut.gov) (o.map LaneOut.sat)])

/-- The lane results of an arithmetic instruction issued in cycle `c`. -/
def arithOut (op : ArithOp) (r : RegSet) (g : L4 Word) (c : Nat) : L4 LaneOut :=
  let start := match arithAcc op with
    | some m => pathStart r m c
    | none => L4.all {}
  L4.of (arithLane op r g start (r.dith.map lfsrStep))

/-- The register set after an arithmetic instruction has issued: the dither generators step for an EXT
with TPDF, and an accumulator write enters the accumulate path. -/
def arithIssue (op : ArithOp) (r : RegSet) (g : L4 Word) (c : Nat) : RegSet :=
  let o := arithOut op r g c
  let r := if arithDithers op then { r with dith := r.dith.map lfsrStep } else r
  match arithAcc op with
  | some m => pathPush r m ⟨c, arithMac op, o.map LaneOut.a⟩
  | none => r

end Sys2Proof.Machine
end

