-- ==== Sys2Proof/Machine/Pipe.lean ====
section
/-! DEFINITION. Engine time: how results in flight land (R55 to R58, R87), and the passage of engine cycles
for the whole block, with the System Time Counter (R292). -/

namespace Sys2Proof.Machine

/-- A register set after one landing. -/
def landSet (r : RegSet) (x : Landing) : RegSet :=
  match x with
  | .d i v => r.setD i (L4.of fun k => (v.get k).getD (r.dL i k))
  | .a m v => r.setA m (L4.of fun k => (v.get k).getD (r.aL m k))
  | .p i v => r.setP i v
  | .n i v => r.setN i v
  | .l i v => r.setL i v
  | .zn z n => { r with sr := srSetZn r.sr z n }
  | .sticky g t => { r with sr := srSticky r.sr g t }
  | .clrf m => { r with sr := srClrf r.sr m }
  | .epm b => { r with sr := setBit r.sr 16 b }

/-- Whether a landing is CLRF's, which lands before the settings of its cycle (R87). -/
def isClrf : Landing → Bool
  | .clrf _ => true
  | _ => false

/-- An engine with one landing in the set that issued it (R65). -/
def landOne (g : Engine) (f : Flight) : Engine :=
  if f.shadow then { g with shadow := landSet g.shadow f.res } else { g with main := landSet g.main f.res }

/-- Land every result due in cycle `c`: CLRF first, the others in issue order, so that the later-issued
result stays (R58) and a sticky setting survives a clear (R87). -/
def landAt (g : Engine) (c : Nat) : Engine :=
  let now := g.flight.filter (fun f => decide (f.due ≤ c))
  let g := { g with flight := g.flight.filter (fun f => decide (c < f.due)) }
  ((now.filter (fun f => isClrf f.res)) ++ (now.filter (fun f => !isClrf f.res))).foldl landOne g

/-- The longest latency of R55. -/
def maxLatency : Nat := 4

/-- Whether a bundle can issue: a slice or a handler runs and no PWAIT holds it (R45). -/
def Engine.runnable (g : Engine) : Bool := (g.inEvt || g.cur.isSome) && g.wait == .none

/-- An engine advanced by `n` cycles, results landing cycle by cycle; none is in flight beyond the
longest latency. The half-cycles that its last bundle left stay free until the next bundle (R52). -/
def engRun (g : Engine) (n : Nat) : Engine :=
  if n = 0 then g
  else
    let g' := (upTo (min n maxLatency)).foldl (fun g i => landAt g (g.cyc + i + 1)) g
    { g' with cyc := g.cyc + n, issued := false, ext := g.ext.filter (fun x => decide (g.cyc + n ≤ x.1)),
              xold := g.xold.filter (fun x => decide (g.cyc + n < x.1)),
              pold := g.pold.filter (fun x => decide (g.cyc + n ≤ x.1)),
              spare := if n = 1 && g.issued && g.runnable then g.spare else 2 }

/-- An engine brought to a cycle, if it has not passed it. -/
def engTo (g : Engine) (c : Nat) : Engine := engRun g (c - g.cyc)

/-- The rate of the STC in 10⁻¹² ns per engine cycle (R292). -/
def State.stcRate (s : State) : Nat := (1000000000000 + s.steer + s.slew).toNat

/-- One second of the STC in 10⁻¹² ns. -/
def stcSecond : Nat := 1000000000000000000000

/-- STC seconds, nanoseconds, and the 16-bit fraction (R292). -/
def stcSec (t : Nat) : Nat := t / stcSecond % 2 ^ 48
def stcNs (t : Nat) : Nat := t / 1000000000000 % 1000000000
def stcFrac (t : Nat) : Nat := t % 1000000000000 * 65536 / 1000000000000

/-- The STC value of seconds and nanoseconds. -/
def stcOf (sec ns : Nat) : Nat := sec * stcSecond + ns * 1000000000000

/-- An engine is listed only while it differs from its reset; one that is not listed keeps no time of its
own, and joins the block's time when it is used. -/
def State.engAt (s : State) (e : Nat) : Engine := engTo (s.eng e) s.now

/-- `n` engine cycles pass: the STC advances, and results land in every engine that has not run ahead. -/
def State.advance (s : State) (n : Nat) : State :=
  let now := s.now + n
  { s with now := now, stc := (s.stc + n * s.stcRate) % (2 ^ 48 * stcSecond),
           engs := s.engs.map (fun kv => (kv.1, engTo kv.2 now)) }

/-- Cycles until the STC is at or after a value. -/
def State.cyclesTo (s : State) (t : Nat) : Nat := if t ≤ s.stc then 0 else ceilDiv (t - s.stc) s.stcRate

/-- Time passes up to a cycle, if it has not passed it. DEDUCED: assumption 9. -/
def State.advanceTo (s : State) (c : Nat) : State := s.advance (c - s.now)

/-- Engine rate in hertz (R26). -/
def rateHz (r : Nat) : Nat := match r with
  | 0 => 44100
  | 1 => 48000
  | 2 => 88200
  | _ => 96000

/-- Block length of a blen code (R43). -/
def blockLen (b : Nat) : Nat := match b with
  | 0 => 8
  | 1 => 16
  | _ => 32

/-- The engine rate and block length in force; SYS_FRM_CTRL changes only while the frame is stopped (R39). -/
def State.fs (s : State) : Nat := rateHz (s.rdF SYS_FRM_CTRL 1 0)
def State.blk (s : State) : Nat := blockLen (s.rdF SYS_FRM_CTRL 5 4)

/-- SYS_FRM_STAT.running, and the current block number. -/
def State.running (s : State) : Bool := s.rdB SYS_FRM_STAT 0
def State.blockNo (s : State) : Nat := (s.rd SYS_FRM_BLOCK).toNat

end Sys2Proof.Machine
end

