-- ==== Sys2Proof/Machine/Clove.lean ====
section
/-! DEFINITION. Clove's operations (R206 to R220): acceptance, order and readiness, Background admission,
the epoch check, and consumption. -/

namespace Sys2Proof.Machine

/-- Clove's buffers (R207). -/
def cloveBuffers : Nat := 4096

/-- Posts that an active Anise device has answered and holds for their epoch (R330): each has its buffer
and its place in its flow. -/
def State.heldPosts (s : State) : List Ev :=
  if s.rdB ANI_CTRL 0 && s.rdF ANI_CTRL 2 1 == 1 then
    (s.ani.cap ++ s.ani.wait.flatMap Epoch.items).filterMap (fun x => match x with
      | .post _ v => some v
      | _ => none)
  else []

/-- Acceptance numbers of the events that hold a buffer: a migration's event may be queued and delivered at
once (R125). -/
def Clove.held (c : Clove) (p : Ev → Bool) : List Nat :=
  ((c.queue.filter p).map Ev.no ++ ((c.out.map Prod.snd).filter p).map Ev.no).dedup

/-- Buffers that events hold: each holds one until it is consumed (R207). -/
def State.usedBufs (s : State) : Nat := (s.clove.held (fun _ => true)).length + s.heldPosts.length

/-- Free buffers (R207). -/
def State.freeBufs (s : State) : Nat := cloveBuffers - s.usedBufs

/-- Free buffers as a post finds them: one freed in the present cycle is available from the next (R220). -/
def State.postBufs (s : State) : Nat :=
  s.freeBufs - (if s.clove.freed.1 = s.now then s.clove.freed.2 else 0)

/-- A change that frees buffers notes how many in the present cycle (R220). -/
def State.freeing (s : State) (f : State → State) : State :=
  let t := f s
  let n := s.usedBufs - t.usedBufs
  if n = 0 then t
  else { t with clove := { t.clove with freed :=
      (t.now, n + (if t.clove.freed.1 = t.now then t.clove.freed.2 else 0)) } }

/-- Events a flow holds, delivered ones included (R209). -/
def State.flowHeld (s : State) (f : Nat) : Nat :=
  (s.clove.held (fun v => v.flow = f)).length + (s.heldPosts.filter (fun v => v.flow = f)).length

/-- The head of a flow (R212). -/
def State.head? (s : State) (f : Nat) : Option Ev := s.clove.queue.find? (fun v => v.flow = f)

/-- Follow the aliases of a flow: the alias of a destination that has itself been moved away goes on to where its own
flow's events go (R129). -/
def State.follow (s : State) : Nat → Nat → Nat
  | 0, f => f
  | n + 1, f =>
    match sget 0 s.clove.alias_ f with
    | 0 => f
    | t + 1 => if (sget ({} : Entry) (s.eng (t / 64)).live (t % 64)).valid then t else s.follow n t

/-- The slice a slice flow targets: its own, or the one it aliases (R119, R129). -/
def State.target (s : State) (f : Nat) : Nat := s.follow s.clove.alias_.length f

/-- The current epoch of a slice flow (R218). -/
def State.epochOf (s : State) (f : Nat) : Nat := sget 0 s.clove.epoch f

/-- The state of a house core in HSE_CORE_STAT: 0 reset, 1 booting, 2 running, 3 halted (R359, R367). -/
def State.coreState (s : State) (c : Nat) : Nat := s.rdF HSE_CORE_STAT (4 * c + 1) (4 * c)

/-- Whether a house core runs. -/
def State.coreRuns (s : State) (c : Nat) : Bool := s.coreState c == 2

/-- The affinity core of a house flow (R215): the core that ran its last event. -/
def State.affinity (s : State) (f : Nat) : Nat :=
  match sget 0 s.clove.aff f with
  | 0 => f % 2
  | c + 1 => c

/-- The core a house flow's head goes to (R215). -/
def State.coreOf (s : State) (f : Nat) : Nat :=
  let c := s.affinity f
  if s.coreState c = 0 ∨ s.coreState c = 3 then 1 - c else c

/-- A Timed stamp as a signed distance in ns from the STC (R213). -/
def State.stampDist (s : State) (v : Ev) : Int :=
  (v.sec - BitVec.ofNat 32 (stcSec s.stc)).toInt * 1000000000 + ((v.ns.toNat : Int) - stcNs s.stc)

/-- The same distance from the STC of the current block's tick. -/
def State.tickDist (s : State) (v : Ev) : Int :=
  (v.sec - s.rd SYS_FRM_TICK_SECL).toInt * 1000000000 + ((v.ns.toNat : Int) - (s.rd SYS_FRM_TICK_NS).toNat)

/-- A Timed event is due from the first cycle in which the STC is at or after its stamp (R213); while a
pair runs, one for a slice flow from the first tick at or after it (R333). -/
def State.due (s : State) (v : Ev) : Bool :=
  v.cls != 1 ||
    (if s.rdB ANI_CTRL 0 && decide (v.flow < 2048) then decide (s.tickDist v ≤ 0)
     else decide (s.stampDist v ≤ 0))

/-- A repair unit (R177). -/
def State.unit (s : State) (u : Nat) : RepUnit := sget {} s.rep u

/-- Whether a repair unit is fenced (R185). -/
def State.fenced (s : State) (u : Nat) : Bool := (s.unit u).fenced

/-- Whether any bank of an engine's DMEM, exchange window or PMEM is fenced (R185). -/
def State.engFenced (s : State) (e : Nat) : Bool :=
  (upTo 16).any (fun b => s.fenced (e * 16 + b)) || (upTo 3).any (fun p => s.fenced (512 + e * 3 + p))

/-- The Pool bank's unit ID at a Pool byte offset (R176, R177). -/
def poolUnit (off : Nat) : Nat := 608 + off / 2 ^ 23 % 4 * 16 + off / 64 % 16

/-- The repair unit behind a device address, if a repair unit holds it (R176, R177). -/
def unitAt (a : Nat) : Option Nat :=
  if 0x10000000 ≤ a ∧ a < 0x12000000 then some (poolUnit (a - 0x10000000))
  else if 0x20000000 ≤ a ∧ a < 0x21000000 then
    let e := (a - 0x20000000) / 0x80000
    let o := a % 0x80000
    if o < 0x40000 then some (e * 16 + o / 0x4000)
    else if o < 0x4C000 then some (512 + e * 3 + (o - 0x40000) / 0x4000)
    else none
  else if 0x30000000 ≤ a ∧ a < 0x30300000 then
    let o := a - 0x30000000
    some (672 + o / 0x100000 * 16 + o / 32 % 16)
  else if 0x40000000 ≤ a ∧ a < 0x40400000 then some (720 + a / 32 % 4)
  else if 0x100000 ≤ a ∧ a < 0x200000 then some (724 + a / 8 % 4)
  else none

/-- An access to a fenced unit is counted and logged (R186). -/
def State.fenceLog (s : State) (unit master : Nat) (write : Bool) : State :=
  let s := s.count TST_MEM_FENCE_CNT
  if s.rdB TST_MEM_FENCE_LOG 31 then s
  else s.wr TST_MEM_FENCE_LOG
    (setBits (setBits (setBit (setBit 0 31 true) 30 write) 27 24 master) 9 0 unit)

/-- Whether a byte of memory lies in no fenced unit (R185). -/
def State.whole (s : State) (a : Nat) : Bool :=
  match unitAt a with
  | some u => !(s.fenced u)
  | none => true

/-- A fenced unit that a range of `n` bytes touches: 64-byte pieces of the Sample Pool lie in 16 banks in turn, and a bank of
an engine's DMEM holds 16 KiB (R176, R177). -/
def State.fencedIn (s : State) (a n : Nat) : Option Nat :=
  let at_ := (upTo 17).flatMap (fun i => [a + min (64 * i) (n - 1), a + (n - 1 - 64 * i)]) ++
    (upTo ((n - 1) / 0x4000)).map (fun i => a + 0x4000 * (i + 1))
  if n = 0 then none else at_.findSome? (fun x => (unitAt x).filter (fun u => s.fenced u))

/-- A transfer between the Sample Pool and a unit of the device (R186): counted and logged where it touches a fenced
bank. DESIGN CHOICE: assumption 84. -/
def State.fenceRange (s : State) (a n master : Nat) (write : Bool) : State :=
  match s.fencedIn a n with
  | some u => s.fenceLog u master write
  | none => s

/-- Memory after a copy of a range over another of the same size that does not overlap it: a fenced unit reads as
zeros and keeps nothing (R186). -/
def State.copied (s : State) (src dst n : Nat) : List (Nat × Byte) :=
  (s.mem.filter (fun kv => src ≤ kv.1 && kv.1 < src + n && s.whole kv.1)).foldl
    (fun m kv => if s.whole (kv.1 - src + dst) then putByte m (kv.1 - src + dst) kv.2 else m)
    (s.mem.filter (fun kv => kv.1 < dst || dst + n ≤ kv.1 || !(s.whole kv.1)))

/-- Whether an engine can take an event: none delivered and outstanding, its memories whole (R185, R212). -/
def State.engTakes (s : State) (e : Nat) : Bool :=
  !(s.clove.out.any (fun v => v.1 = e)) && !(s.engFenced e)

/-- Whether a flow has a delivered event that has not returned. -/
def State.flowOut (s : State) (f : Nat) : Bool := s.clove.out.any (fun v => v.2.flow = f)

/-- Whether the head of a flow is ready in every respect but R217's admission (R212). -/
def State.readyBase (s : State) (v : Ev) : Bool :=
  s.due v &&
  (if v.flow < 2048 then
     let t := s.target v.flow
     let e := t / 64
     s.engTakes e && !(s.flowOut v.flow) && (s.eng e).cur != some (t % 64) &&
       !(s.mig.holding && v.flow = s.mig.src) && !(s.mig.clean.any (fun c => c.holding && v.flow == c.src))
   else if v.flow < 2304 then s.coreRuns (s.coreOf v.flow)
   else true)

/-- The cost of a Background event in energy units (R217). -/
def State.bgCost (s : State) (v : Ev) : Nat :=
  if v.flow < 2048 then s.rdF CLV_BGCOST 7 0
  else if v.flow < 2304 then s.rdF CLV_BGCOST 15 8
  else s.rdF CLV_BGCOST 23 16

/-- Whether an event is at the head of its flow. -/
def State.isHead (s : State) (v : Ev) : Bool := s.head? v.flow == some v

/-- A side of the migration in progress (R125): its slice, and what it has received of the batch. -/
def State.sideOf (s : State) (src : Bool) : Nat × List Nat :=
  if src then (s.mig.src, s.mig.toSrc) else (s.mig.dst, s.mig.toDst)

/-- The next event of the migrated flow for one of its slices, among those with acceptance numbers below `lim`. -/
def State.batchNext (s : State) (src : Bool) (lim : Nat) : Option Ev :=
  (s.clove.queue.find? (fun v => v.flow = s.mig.src && !((s.sideOf src).2.contains v.no))).filter
    (fun v => decide (v.no < lim))

/-- Whether a block is k+1 or k+2 of the migration in progress, whose flow is held (R125). -/
def State.batching (s : State) : Bool :=
  s.rdB CLV_MIG_STAT 0 && s.mig.holding &&
    (decide (s.blockNo = (s.mig.k + 1) % 2 ^ 32) || decide (s.blockNo = (s.mig.k + 2) % 2 ^ 32))

/-- The event of the batch that one of the two slices can receive now (R125): before its own run in blocks k+1 and
k+2, and for the destination once its window is loaded (R124 step 4). -/
def State.batchReady (s : State) (src : Bool) : Option Ev :=
  let id := (s.sideOf src).1
  if s.batching && s.engTakes (id / 64) && !(sget ({} : SliceBlk) (s.eng (id / 64)).blk (id % 64)).started &&
      (src || s.mig.loaded) then
    (s.batchNext src (s.mig.batch.getD s.clove.next)).filter s.due
  else none

/-- The Background head that R217 takes next: the earliest accepted of those ready in every other respect
and not yet admitted. -/
def State.bgNext (s : State) : Option Ev :=
  s.clove.queue.find? (fun v => v.cls = 3 && !v.admitted &&
    (s.isHead v && s.readyBase v || s.batchReady true == some v || s.batchReady false == some v))

/-- The allowance A (R217). -/
def State.allowance (s : State) : Nat := s.rdF CLV_BGALLOW 23 0

/-- Whether R217 admits an event, or has admitted it. -/
def State.admits (s : State) (v : Ev) : Bool :=
  v.cls != 3 || v.admitted || (s.bgNext == some v && decide (s.bgCost v ≤ s.allowance))

/-- Whether a head is ready under R212. -/
def State.ready (s : State) (v : Ev) : Bool := s.readyBase v && s.admits v

/-- The acceptance number at which the batch of a block ends if it closes now (R125): that of the first event of the
flow which cannot be delivered in it. DEDUCED: assumption 93. -/
def State.batchLimit (s : State) : Nat :=
  match s.clove.queue.find? (fun v => v.flow = s.mig.src && !(s.due v && (v.cls != 3 || v.admitted ||
      decide (s.bgCost v ≤ s.allowance)))) with
  | some v => v.no
  | none => s.clove.next

/-- Whether one of the migration's slices has still to receive an event of the block's batch, or to handle one
(R125). -/
def State.batchWaits (s : State) (src : Bool) : Bool :=
  s.batching &&
    ((s.batchNext src (s.mig.batch.getD s.batchLimit)).isSome ||
     s.clove.out.any (fun v => v.1 == (s.sideOf src).1 / 64 && v.2.flow == s.mig.src))

/-- Charge an admission to the allowance (R217). -/
def State.charge (s : State) (v : Ev) : State :=
  s.wrF CLV_BGALLOW 23 0 (s.allowance - s.bgCost v)

/-- An event has been admitted under R217. -/
def State.admitted (s : State) (v : Ev) : State :=
  { s with clove := { s.clove with
      queue := s.clove.queue.map (fun u => if u.no = v.no then { u with admitted := true } else u) } }

/-- A Background head that the allowance does not cover waits; the block is counted once, and while the frame is
stopped there is none (R217). DEDUCED: assumption 30. -/
def State.bgWaits (s : State) : State :=
  match s.bgNext with
  | some v =>
    if s.allowance < s.bgCost v && !s.clove.bgWait && s.frame.ticking then
      { s.count CLV_BGWAIT_CNT with clove := { s.clove with bgWait := true } }
    else s
  | none => s

/-- Admit host-flow Background heads while R217 takes one next and the allowance covers it. -/
def State.bgAdmitHost : Nat → State → State
  | 0, s => s
  | n + 1, s =>
    match s.bgNext with
    | some v =>
      if 2304 ≤ v.flow && decide (s.bgCost v ≤ s.allowance) then
        bgAdmitHost n ((s.charge v).admitted v)
      else s
    | none => s

/-- The host flows that have a ready head, as the bits of CLV_HNEi (R216). -/
def State.hneBits (s : State) (i : Nat) : Word :=
  (upTo 32).foldl (fun w b =>
    match s.head? (2304 + 32 * i + b) with
    | some v => if s.ready v then setBit w b true else w
    | none => w) 0

/-- Bring the host side up to date: admit Background heads, show the flows with a ready head, and set
CLV_INT.host when one of those bits changes from 0 to 1 (R216, R217). -/
def State.cloveHost (s : State) : State :=
  let s := (bgAdmitHost s.clove.queue.length s).bgWaits
  let n0 := s.hneBits 0
  let n1 := s.hneBits 1
  let rose := (n0 &&& ~~~(s.rd (CLV_HNE 0))) != 0 || (n1 &&& ~~~(s.rd (CLV_HNE 1))) != 0
  let s := (s.wr (CLV_HNE 0) n0).wr (CLV_HNE 1) n1
  if rose then s.raise CLV_INT 1#32 else s

/-- Advance CLV_SEQ_APPLIED over the sequence numbers consumed (R219). -/
def seqRun : Nat → Word → List Word → Word × List Word
  | 0, a, l => (a, l)
  | n + 1, a, l => if l.contains (a + 1) then seqRun n (a + 1) (l.erase (a + 1)) else (a, l)

/-- An event is consumed or discarded: a host post's sequence number counts as applied (R219). -/
def State.consumed (s : State) (v : Ev) : State :=
  match v.seq with
  | none => s
  | some q =>
    let l := s.clove.done_ ++ [q]
    let r := seqRun l.length (s.rd CLV_SEQ_APPLIED) l
    { s.wr CLV_SEQ_APPLIED r.1 with clove := { s.clove with done_ := r.2 } }

/-- Remove an event from the queue. -/
def State.unqueue (s : State) (v : Ev) : State :=
  { s with clove := { s.clove with queue := s.clove.queue.filter (fun u => u.no != v.no) } }

/-- Whether a record's stamp differs from its slice's current epoch (R218). -/
def State.stale (s : State) (v : Ev) : Bool :=
  match v.srcFlow with
  | some f => v.epoch != s.epochOf f
  | none => false

/-- A stale record is discarded and counted (R126, R218). -/
def State.dropStale (s : State) (v : Ev) : State :=
  ((s.unqueue v).count CLV_STALE_CNT).raise CLV_INT 2#32 |>.consumed v

/-- Accept an event with the stamp it has: it takes the next acceptance number. An event whose stamp is stale
on acceptance is discarded (R218); on a paired standby, records to host flows are consumed at acceptance
(R333). -/
def State.acceptAs (s : State) (v : Ev) : State :=
  let v := { v with no := s.clove.next }
  let s := { s with clove := { s.clove with next := s.clove.next + 1 } }
  if s.stale v then s.dropStale v
  else if 2304 ≤ v.flow && s.rdB ANI_CTRL 0 && s.rdF ANI_CTRL 2 1 == 2 then s.consumed v
  else ({ s with clove := { s.clove with queue := s.clove.queue ++ [v] } }).cloveHost

/-- The stamp an event takes at its post: the STC unless it is Timed (R207). -/
def State.stamped (s : State) (v : Ev) : Ev :=
  { v with sec := if v.cls = 1 then v.sec else BitVec.ofNat 32 (stcSec s.stc),
           ns := if v.cls = 1 then v.ns else BitVec.ofNat 32 (stcNs s.stc) }

/-- Accept an event with the stamp of its post (R207, R209). -/
def State.accept (s : State) (v : Ev) : State := s.acceptAs (s.stamped v)

/-- Whether a post would be refused BUSY (R209). -/
def State.postBusy (s : State) (cls flow : Nat) : Bool :=
  s.postBufs = 0 || (cls != 0 && decide (s.postBufs ≤ s.rdF CLV_QCFG 10 0)) ||
    decide (s.rdF CLV_QCFG 27 16 ≤ s.flowHeld flow)

/-- An engine report of R118, posted by hardware: it counts as Urgent for the reserve, and is dropped and
counted when it finds no buffer or its flow full (R211). -/
def State.report (s : State) (e type cls : Nat) (w0 w1 : Word) : State :=
  let f := 2304 + e
  if s.postBusy 0 f then (s.count CLV_DROP_CNT).raise CLV_INT 4#32
  else s.accept { no := 0, type := type, cls := cls, origin := 3, flow := f, sec := 0, ns := 0,
                  payload := [w0, w1, 0, 0, 0] }

/-- Word 0 of a record as it is delivered or popped (R207). -/
def evWord0 (v : Ev) (epoch : Nat) : Word :=
  BitVec.ofNat 32 (epoch * 2 ^ 24 + v.type * 2 ^ 16 + v.cls * 2 ^ 14 + v.origin * 2 ^ 12 + v.flow)

/-- The eight words of a record (R207). -/
def evWords (v : Ev) (epoch : Nat) : List Word := [evWord0 v epoch, v.sec, v.ns] ++ v.payload

/-- The event an engine has delivered and outstanding. -/
def State.outOf (s : State) (e : Nat) : Option Ev := (s.clove.out.find? (fun v => v.1 = e)).map Prod.snd

/-- EVENT_CONSUMED (R214): the delivered event of an engine is consumed and its buffer freed. -/
def State.consumeOut (s : State) (e : Nat) : State :=
  match s.outOf e with
  | none => s
  | some v =>
    let s := s.freeing (fun s => { s with clove := { s.clove with out := s.clove.out.filter (fun u => u.1 != e) } })
    (s.consumed v).cloveHost

end Sys2Proof.Machine
end

