-- ==== Sys2Proof/Machine/Link.lean ====
section
/-! DEFINITION. The sending side of a Dongo link: what waits, in which order it goes, the replay buffer, and the
frames put on the line (R313 to R315, R321), which cascade values, audio, events and Anise's records share. -/

namespace Sys2Proof.Machine

/-- The bytes of a little-endian number. -/
def leBytes (n v : Nat) : List Byte := (upTo n).map (fun i => BitVec.ofNat 8 (v / 256 ^ i))

/-- The number that little-endian bytes make. -/
def ofLeBytes : List Byte → Nat
  | [] => 0
  | b :: bs => b.toNat + 256 * ofLeBytes bs

/-- Whether the standby gate holds back an output that ANI_GATE selected at the last tick (R329). -/
def State.gatedOut (s : State) (b : Nat) : Bool := !s.ani.gateOpen && bit s.ani.gate b

/-- In S3 or S4 (R392). -/
def State.deep (s : State) : Bool := decide (3 ≤ s.rdF PWR_STAT 2 0 ∧ s.rdF PWR_STAT 2 0 ≤ 4)

/-- A thermal trip or a power-on reset holds the device (R376, R389). -/
def State.held (s : State) : Bool := s.pwr.trip || s.pwr.por

/-- The clocks stand still: S2 to S4 (R371). -/
def State.asleep (s : State) : Bool := decide (2 ≤ s.rdF PWR_STAT 2 0 ∧ s.rdF PWR_STAT 2 0 ≤ 4)

/-- A Dongo link's hidden state. -/
def State.link (s : State) (n : Nat) : Dng := sget {} s.dng n
def State.setLink (s : State) (n : Nat) (l : Dng) : State := { s with dng := sset {} s.dng n l }

/-- Link state and alignment (R316, R317). -/
def State.linkUp (s : State) (n : Nat) : Bool := s.rdF (DNG_L_STAT n) 1 0 == 2
def State.linkAligned (s : State) (n : Nat) : Bool := s.linkUp n && s.rdB (DNG_L_STAT n) 4

/-- A frame's bytes on the line: header, payload and CRC-32 (R314). -/
def dngSize (f : DngOut) : Nat := f.payload.length + 12

/-- The place of a kind in the order of sending (R314); a HELLO goes with ACK and NAK. -/
def dngRank : DngKind → Nat
  | .ack | .nak | .hello | .other => 0
  | .casc => 1
  | .time => 2
  | .audio => 3
  | .event => 4
  | .mirror => 5

/-- Whether a kind takes a sequence number and is kept for resending (R314, R315). -/
def dngSequenced (k : DngKind) : Bool := dngRank k != 0

/-- Whether a waiting frame may start: none with a sequence number while others are to be sent again or while the
64 KiB replay buffer has no room for it (R315). DESIGN CHOICE: assumption 54. -/
def Dng.mayStart (l : Dng) (f : DngOut) : Bool :=
  !(dngSequenced f.kind) ||
    (l.again.isEmpty && decide (((l.replay.map dngSize).foldl (· + ·) 0) + dngSize f ≤ 65536))

/-- The frames of which one starts next: waiting ones that may, and the first to be sent again. -/
def Dng.ready (l : Dng) : List DngOut := l.queue.filter l.mayStart ++ l.again.take 1

/-- When the next frame starts, in 1/63 ns, at which 63.0 Gb/s is one bit each (R313): once the line is free and
a frame waits. -/
def Dng.startAt (l : Dng) : Option Nat := match l.ready with
  | [] => none
  | f :: fs => some (max l.lineFree (63 * fs.foldl (fun a g => min a g.at_) f.at_))

/-- The frame that starts at an instant: the first in the order of R314 of those that wait, and frames to be sent
again after ACK, NAK and HELLO. -/
def Dng.pick (l : Dng) (t : Nat) : Option DngOut :=
  let fs := l.ready.filter (fun f => decide (63 * f.at_ ≤ t))
  (upTo 6).findSome? (fun r => fs.find? (fun f => (if f.resent = 0 then dngRank f.kind else min 1 (dngRank f.kind)) == r))

/-- A frame goes on the line at an instant, `stc` the System Time Counter then: a new one takes its sequence number
and, a TIME frame, the time-stamp of its first bit (R314, R315, R321). -/
def Dng.start (l : Dng) (f : DngOut) (t stc : Nat) : Dng :=
  let l := { l with lineFree := t + 8 * dngSize f }
  if f.resent ≠ 0 then { l with again := l.again.drop 1, sent := l.sent ++ [(t / 63, f)] }
  else
    let l := { l with queue := l.queue.erase f }
    if dngSequenced f.kind then
      let stamp := if f.kind == .time then (leBytes 6 (stcSec stc) ++ leBytes 4 (stcNs stc)) ++ f.payload.drop 10 else f.payload
      let f := { f with seq := l.txSeq, payload := stamp }
      { l with sent := l.sent ++ [(t / 63, f)], replay := l.replay ++ [f], txSeq := (l.txSeq + 1) % 4096 }
    else { l with sent := l.sent ++ [(t / 63, f)] }

/-- The line brought to a cycle: every frame that starts before it has started, at most `n` of them. -/
def Dng.run (stcAt : Nat → Nat) (now : Nat) : Nat → Dng → Dng
  | 0, l => l
  | n + 1, l => match l.startAt with
    | some t =>
      if t < 63 * now then
        match l.pick t with
        | some f => Dng.run stcAt now n (l.start f t (stcAt (t / 63)))
        | none => l
      else l
    | none => l

/-- The STC at a cycle before the present. -/
def State.stcAt (s : State) (c : Nat) : Nat := s.stc - (s.now - c) * s.stcRate

/-- A link brought to the present. -/
def State.linkNow (s : State) (n : Nat) : Dng :=
  let l := s.link n
  Dng.run s.stcAt s.now (l.queue.length + l.again.length) l
/-- The line brought to the present: each frame sent again since is a retry (R315). -/
def State.lineRun (s : State) (n : Nat) : State :=
  let l := s.linkNow n
  let k := ((l.sent.drop (s.link n).sent.length).filter (fun x => x.2.resent != 0)).length
  (s.setLink n l).countF (DNG_L_RETRY_CNT n) 31 0 k

/-- Send a frame on a link: it waits for the line (R314, R315). A standby whose links are gated sends no AUDIO or
CASC frame on a link other than its M path (R329). -/
def State.dngSend (s : State) (n : Nat) (f : DngOut) : State :=
  if (f.kind == .audio || f.kind == .casc) && s.gatedOut 3 && !(!(s.rdB ANI_CTRL 3) && s.rdF ANI_CTRL 5 4 == n) then s
  else
    let s := s.lineRun n
    let l := s.link n
    s.setLink n { l with queue := l.queue ++ [{ f with seq := 0, resent := 0, at_ := s.now }] }

/-- Bytes in pieces of at most 1,024, a frame's payload (R314). -/
def dngPieces : Nat → List Byte → List (List Byte)
  | 0, _ => []
  | n + 1, bs => if bs.isEmpty then [] else bs.take 1024 :: dngPieces n (bs.drop 1024)

/-- Anise's records on a link, in MIRROR frames (R314, R328). -/
def State.dngMirror (s : State) (n : Nat) (bs : List Byte) : State :=
  if s.linkUp n then
    s.each (dngPieces bs.length bs) (fun s p => s.dngSend n { kind := .mirror, seq := 0, payload := p })
  else s

end Sys2Proof.Machine
end

