-- ==== Sys2Proof/Machine/RegGate.lean ====
section
/-! DEFINITION. How a register write reaches its register: the Owner restriction (R11, R351), and Anise's
capture on an active device and discard on a standby (R330, R331). -/

namespace Sys2Proof.Machine

/-- The locations of R330: HIF writes to them are mirrored. -/
def mirrored (a : Nat) : Bool :=
  decide (0x20000000 ≤ a ∧ a < 0x21000000) || decide (0x30000000 ≤ a ∧ a < 0x30300000) ||
  decide (0x38000000 ≤ a ∧ a < 0x38008000) || decide (0x50000100 ≤ a ∧ a < 0x50000140) ||
  decide (0x50030100 ≤ a ∧ a < 0x50030180) || decide (0x50032000 ≤ a ∧ a < 0x50032020) ||
  (decide (0x50000000 ≤ a ∧ a < 0x50150000) &&
    [6, 7, 8, 11, 14, 15, 18].contains ((a - 0x50000000) / 0x10000))

/-- The header word of a posting port of the host: its write is a post, which is answered at once (R330). -/
def isPostHdr (a : Nat) : Bool := a = 0x50030100 || a = 0x50030140

/-- Pairing is on and this device is the active, or the standby (R327, R347). -/
def State.aniActive (s : State) : Bool := s.rdB ANI_CTRL 0 && s.rdF ANI_CTRL 2 1 == 1
def State.aniStandby (s : State) : Bool := s.rdB ANI_CTRL 0 && s.rdF ANI_CTRL 2 1 == 2

/-- The kind and body of a delta record (R335). A write's address carries in its top bit, which no address of R330 needs,
that PF1 made it: R332 applies R10 alike on both devices. DESIGN CHOICE: assumption 111. -/
def aniBody : AniItem → BitVec 4 × List Byte
  | .write g a strb d => (1, leBytes 4 (a + b2n g * 2 ^ 31) ++ leBytes 4 strb.toNat ++ leBytes 32 d.toNat)
  | .post p v => (2, leBytes 4 p ++ leBytes 4 (v.seq.getD 0).toNat ++
      ((evWords v 0).map (fun w => leBytes 4 w.toNat)).flatten)
  | .chunk a d => (3, leBytes 4 a ++ d)
  | .slice i d => (4, leBytes 4 i ++ d)
  | .input i d => (5, leBytes 4 i ++ (d.map (fun w => leBytes 4 w.toNat)).flatten)
  | .unit d => (6, d)

/-- The bytes of a delta record with its header word (R335). -/
def aniBytes (x : AniItem) : List Byte :=
  let b := aniBody x
  leBytes 4 (b.1.toNat * 2 ^ 28 + b.2.length) ++ b.2

/-- Whether a network-buffer unit is fenced (R258). -/
def State.netFenced (s : State) : Bool := (upTo 4).any (fun i => s.fenced (720 + i))

/-- The M path is on a network port that cannot run: it carries nothing (R258). -/
def State.pathShut (s : State) : Bool := s.rdB ANI_CTRL 3 && s.netFenced

/-- A record's bytes, in the order of R4 (R334, R335). -/
def recordBytes : AniRecord → List Byte
  | .fixed ws => ws.flatMap (fun w => leBytes 4 w.toNat)
  | .delta kind body => leBytes 4 (kind.toNat * 2 ^ 28 + body.length) ++ body

/-- Anise's records on a network port, in frames of EtherType 0x88B5 that wait in class 6; on a link that is not UP
each is discarded (R257, R328). The split into frames and their addresses are open. DESIGN CHOICE: assumption 94. -/
def State.macMirror (s : State) (n : Nat) (bs : List Byte) : State :=
  s.each (dngPieces bs.length bs) (fun s p =>
    if s.rdF (MAC_STAT n) 1 0 = 2 then
      let f := s.freeWords 3
      let m := sget {} f.2.macs n
      { f.2 with macs := sset {} f.2.macs n { m with
          aniQ := m.aniQ ++ [(25 * s.now, f.1.flatMap (fun w => leBytes 4 w.toNat) ++ [0x88#8, 0xB5#8] ++ p)] } }
    else s.count (MAC_TXLINKDN_CNT n))

/-- A record goes out on the M path: a Dongo link in MIRROR frames, or a network port (R258, R314, R328). -/
def State.aniOut (s : State) (r : AniRecord) : State :=
  if s.pathShut then s
  else
    let s := { s with ani := { s.ani with sent := s.ani.sent ++ [r] } }
    let n := s.rdF ANI_CTRL 5 4
    if s.rdB ANI_CTRL 3 then s.macMirror n (recordBytes r) else s.dngMirror n (recordBytes r)

/-- Send a delta record in capture order (R335). -/
def State.aniSend (s : State) (x : AniItem) : State :=
  State.aniOut { s with ani := { s.ani with capBytes := s.ani.capBytes ++ aniBytes x } } (.delta (aniBody x).1 (aniBody x).2)

/-- ANISE_WRITE_CAPTURE (R330): hold a mirrored write for the epoch. -/
def State.aniCapture (s : State) (x : AniItem) : State :=
  let s := s.aniSend x
  { s.upd ANI_WSEQ (· + 1) with ani := { s.ani with cap := s.ani.cap ++ [x] } }

/-- STANDBY_WRITE_DISCARD (R331). -/
def State.aniDiscard (s : State) : State := (s.count ANI_SBWR_CNT).raise ANI_INT 0x100#32

/-- A register word as a beat: its 32-byte block, strobes and data. -/
def regBeat (a : Nat) (data : Word) : Nat × BitVec 32 × BitVec 256 :=
  let o := a % 32
  (a - o, BitVec.ofNat 32 (15 * 2 ^ o), BitVec.ofNat 256 (data.toNat * 2 ^ (8 * o)))

/-- Whether a requester's writes reach a register: PF1's do not reach an Owner register (R11, R351), and
those of the Bus Matrix's Owner registers change on writes of the Owner alone (R203). -/
def writerOk (q : Req) (r : Reg) : Bool :=
  !r.owner || (!q.guest && (q.master == 6 || !(decide (0x50020000 ≤ r.addr ∧ r.addr < 0x50030000))))

/-- A write of `data` to register `r` by `q`, whose effect is `f`: none from a requester that may not write
it or while a trip or a power-on reset holds the device (R376, R389), held on an active device, discarded on a standby (R11, R330, R331).
The response is normal. -/
def State.gated (s : State) (q : Req) (r : Reg) (data : Word) (f : State → State) : State :=
  let s := s.respond 0 false
  if s.held then s
  else if decide (q.master = 6) && mirrored r.addr && (s.aniStandby || s.aniActive) then
    if s.aniStandby then s.aniDiscard
    else
      let b := regBeat r.addr data
      s.aniCapture (.write q.guest b.1 b.2.1 b.2.2)
  else if writerOk q r then f s
  else s

/-- The effect of a write on a register with no row of its own: RW fields take the data, W1C bits clear
(R7). -/
def State.plainWrite (s : State) (r : Reg) (data : Word) : State :=
  s.upd r (fun w => ((w &&& ~~~r.rw) ||| (data &&& r.rw)) &&& ~~~(data &&& r.w1c))

end Sys2Proof.Machine
end

