-- ==== Sys2Proof/Machine/Slices.lean ====
section
/-! DEFINITION. Slices (R106 to R120): the staged and live tables, the checks of a commit, what a slice's
end does, halts, and the migration unit's share in them (R121 to R129). -/

namespace Sys2Proof.Machine

/-- The staged entry of a slice (R107). -/
def State.staged (s : State) (e sl : Nat) : Entry :=
  { ctrl := s.rd (SLT_CTRL e sl), base := s.rd (SLT_BASE e sl), budget := s.rd (SLT_BUDGET e sl),
    evt := s.rd (SLT_EVT e sl), taps := s.rd (SLT_TAPS e sl), size0 := s.rd (SLT_SIZE0 e sl),
    size1 := s.rd (SLT_SIZE1 e sl), size2 := s.rd (SLT_SIZE2 e sl) }

/-- Put a staged entry. -/
def State.setStaged (s : State) (e sl : Nat) (t : Entry) : State :=
  (((((((s.wr (SLT_CTRL e sl) t.ctrl).wr (SLT_BASE e sl) t.base).wr (SLT_BUDGET e sl) t.budget).wr
    (SLT_EVT e sl) t.evt).wr (SLT_TAPS e sl) t.taps).wr (SLT_SIZE0 e sl) t.size0).wr
    (SLT_SIZE1 e sl) t.size1).wr (SLT_SIZE2 e sl) t.size2

/-- A live entry (R106). -/
def Engine.entry (g : Engine) (sl : Nat) : Entry := sget {} g.live sl

/-- The live entry of a slice ID. -/
def State.liveOf (s : State) (id : Nat) : Entry := (s.eng (id / 64)).entry (id % 64)

/-- What a slice did in the present block. -/
def Engine.sb (g : Engine) (sl : Nat) : SliceBlk := sget {} g.blk sl

/-- Change what a slice did in the present block. -/
def Engine.updSb (g : Engine) (sl : Nat) (f : SliceBlk → SliceBlk) : Engine :=
  { g with blk := sset {} g.blk sl (f (g.sb sl)) }

/-- The slice's ENG_FSLICE bit (R70). -/
def State.fslice (s : State) (e sl : Nat) : Bool :=
  if sl < 32 then s.rdB (ENG_FSLICE_LO e) sl else s.rdB (ENG_FSLICE_HI e) (sl - 32)

/-- Whether two tap ranges share a tap. -/
def overlap (b1 c1 b2 c2 : Nat) : Bool := decide (max b1 b2 < min (b1 + c1) (b2 + c2))

/-- Whether a migration is in progress, or its clean-up is due (R122, R127). -/
def State.migBusy (s : State) : Bool := s.rdB CLV_MIG_STAT 0 || !s.mig.clean.isEmpty

/-- Condition 0x4 of R108: an area too small for its taps at block length B. -/
def Entry.small (t : Entry) (B : Nat) : Bool :=
  decide (t.inSize < ceilDiv t.inCnt 4 * B) || decide (t.outSize < ceilDiv t.outCnt 4 * B)

/-- The lowest failing code of R108 for an entry of a table, 0 if none. -/
def commitCode (tbl : List (Nat × Entry)) (sl : Nat) (t : Entry) (B : Nat) (frozen : Bool) : Nat :=
  let others := tbl.filter (fun u => u.1 != sl && u.2.valid)
  if 0x3C00 < t.sb + t.winSize then 1
  else if others.any (fun u => overlap t.inBase t.inCnt u.2.inBase u.2.inCnt) then 2
  else if others.any (fun u => overlap t.outBase t.outCnt u.2.outBase u.2.outCnt) then 3
  else if t.small B then 4
  else if frozen then 5
  else 0

/-- The staged table of an engine: its entries that are not at reset. -/
def State.stagedTable (s : State) (e : Nat) : List (Nat × Entry) :=
  ((upTo 64).map (fun i => (i, s.staged e i))).filter (fun u => u.2 != {})

/-- The first failing slice of a staged table and its code (R108). -/
def State.commitFail (s : State) (e : Nat) : Option (Nat × Nat) :=
  let tbl := s.stagedTable e
  let g := s.eng e
  (upTo 64).findSome? (fun i =>
    let t := s.staged e i
    let id := e * 64 + i
    let frozen := s.rdB CLV_MIG_STAT 0 && (decide (id = s.mig.src) || decide (id = s.mig.dst)) &&
      t != g.entry i
    let c := if t.valid then commitCode tbl i t s.blk frozen else 0
    if c = 0 then none else some (i, c))

/-- Whether an output tap is carried by a valid live RT entry (R117). -/
def carried (tbl : List (Nat × Entry)) (tap : Nat) : Bool :=
  tbl.any (fun u => u.2.rt && decide (u.2.outBase ≤ tap ∧ tap < u.2.outBase + u.2.outCnt))

/-- Output taps of the valid entries of a table, with their phases. -/
def tableTaps (tbl : List (Nat × Entry)) : List (Nat × Nat) :=
  (tbl.filter (fun u => u.2.valid)).flatMap
    (fun u => (upTo u.2.outCnt).map (fun i => (u.2.outBase + i, u.2.phase)))

/-- Lanes of a slice leave morph when its entry becomes invalid; the owner treats each as a glide that
reached its end (R153). -/
def Morph.drop (m : Morph) (id : Nat) : Morph :=
  let ks := [id * 4, id * 4 + 1, id * 4 + 2, id * 4 + 3]
  { m with lanes := m.lanes.filter (fun l => !(ks.contains l.1)),
           slots := m.slots.map (fun t => { t with lanes := t.lanes.filter (fun l => !(ks.contains l)) }) }

/-- Where a sample of an output tap goes when a table comes into force (R113): an entry that stays valid keeps its data
under its own taps, wherever its taps lie then; every other entry's data is gone. Keys are tap × 32 + sample. -/
def moveTap (old tbl : List (Nat × Entry)) (key : Nat) : Option Nat :=
  (old.find? (fun u => u.2.valid && decide (u.2.outBase ≤ key / 32 ∧ key / 32 < u.2.outBase + u.2.outCnt))).bind
    (fun u =>
      let t := sget ({} : Entry) tbl u.1
      let i := key / 32 - u.2.outBase
      if t.valid && decide (i < t.outCnt) then some ((t.outBase + i) * 32 + key % 32) else none)

/-- Samples of output taps when a table comes into force (R113). -/
def moveTaps (old tbl : List (Nat × Entry)) (m : List (Nat × Word)) : List (Nat × Word) :=
  m.foldl (fun r x => match moveTap old tbl x.1 with
    | some k => sset 0 r k x.2
    | none => r) []

/-- The slots that a live table makes valid. -/
def State.freshIn (s : State) (e : Nat) (tbl : List (Nat × Entry)) : List Nat :=
  (tbl.filter (fun u => u.2.valid && !((s.eng e).entry u.1).valid)).map Prod.fst

/-- Bring a live table into force: tap fades, collected data, cbank and inmorph follow R113, R117, R147 and R153. -/
def State.setLive (s : State) (e : Nat) (tbl : List (Nat × Entry)) : State :=
  let g := s.eng e
  let old := g.live
  let fresh := s.freshIn e tbl
  let gone := (old.filter (fun u => u.2.valid && !(sget ({} : Entry) tbl u.1).valid)).map Prod.fst
  let taps := tableTaps tbl
  let lost := (tableTaps old).filter (fun t => !(taps.any (fun u => u.1 = t.1)))
  let g := { g with live := tbl,
                    gone := lost.foldl (fun m t => sset 3 m t.1 t.2)
                      (g.gone.filter (fun t => !(taps.any (fun u => u.1 = t.1)))),
                    fade := g.fade.filter (fun t => carried old t.1 && carried tbl t.1),
                    out := moveTaps old tbl g.out,
                    part := moveTaps old tbl g.part }
  let s := s.setEng e g
  let s := s.each fresh (fun s i => s.wrF (ENG_MRPH e i) 19 16 0)
  let s := s.each gone (fun s i => s.wrF (ENG_MRPH e i) 23 20 0)
  { s with morph := gone.foldl (fun m i => m.drop (e * 64 + i)) s.morph }

/-- A commit that makes the source slot of a migration valid again ends its alias (R129). -/
def State.dropAlias (s : State) (e : Nat) (fresh : List Nat) : State :=
  { s with clove := { s.clove with
      alias_ := s.clove.alias_.filter (fun a => !(fresh.contains (a.1 % 64) && a.1 / 64 = e)) } }

/-- Make an entry invalid in the live table. -/
def State.dropLive (s : State) (id : Nat) : State :=
  s.setLive (id / 64) (sset {} (s.eng (id / 64)).live (id % 64)
    { s.liveOf id with ctrl := setBit (s.liveOf id).ctrl 31 false })

/-- SLICE_TABLE_COPY (R106, R108): a pending commit is checked and copied, or refused. -/
def State.commitEngine (s : State) (e : Nat) : State :=
  if s.rdB (ENG_SLT_COMMIT e) 0 then
    let s := (s.wrB (ENG_SLT_COMMIT e) 0 false).wrB (ENG_SLT_STAT e) 0 false
    match s.commitFail e with
    | some (i, c) =>
      ((s.wrF (ENG_SLT_STAT e) 19 16 c).wrF (ENG_SLT_STAT e) 13 8 i).raise (ENG_SLT_STAT e) 2#32
    | none => (s.setLive e (s.stagedTable e)).dropAlias e (s.freshIn e (s.stagedTable e))
  else s

/-- TABLE_REVALIDATE (R109): after a change of B, entries too small for their taps become invalid, in each
table on its own. -/
def State.revalidate (s : State) (e : Nat) : State :=
  let B := s.blk
  let bad := fun t : Entry => t.valid && t.small B
  let off := fun t : Entry => { t with ctrl := setBit t.ctrl 31 false }
  let stg := (s.stagedTable e).filter (fun u => bad u.2)
  let s' := s.each stg (fun s u => s.wr (SLT_CTRL e u.1) (off u.2).ctrl)
  let lv := (s.eng e).live
  let hit := lv.any (fun u => bad u.2)
  let s' := if hit then s'.setLive e (lv.map (fun u => (u.1, if bad u.2 then off u.2 else u.2))) else s'
  if hit || !stg.isEmpty then s'.raise (ENG_SLT_STAT e) 4#32 else s'

/-- Whether any lane of a slice is in morph (R155). -/
def State.inMorph (s : State) (id : Nat) : Bool := s.rdF (ENG_MRPH (id / 64) (id % 64)) 23 20 != 0

/-- A slice's budget in this block: enlarged while a lane is in morph (R155). -/
def State.budgetOf (s : State) (id : Nat) : Nat :=
  (s.liveOf id).budgetN + (if s.inMorph id then sget 0 (s.eng (id / 64)).xbud (id % 64) else 0)

/-- The migration reaches a final status: it is recorded, and MIG_DONE is posted (R118, R124, R127), to the host flow
of the source's engine. DESIGN CHOICE: assumption 79. The epoch field then shows the flow's present epoch. -/
def State.migEnd (s : State) (status cause : Nat) : State :=
  let s := (((s.wrF CLV_MIG_STAT 5 4 status).wrF CLV_MIG_STAT 11 8 cause).wrF CLV_MIG_STAT 3 0 0).raise
    CLV_MIG_STAT 0x20000#32
  let s := s.wrF CLV_MIG_STAT 31 24 (s.epochOf s.mig.src)
  s.report (s.mig.src / 64) 0x48 2 (s.rd SYS_FRM_BLOCK) (s.rd CLV_MIG_STAT)

/-- The migration ends ABORTED with a cause; its clean-up is due at the next boundary (R124, R127). -/
def State.migAbort (s : State) (cause : Nat) : State :=
  if s.rdB CLV_MIG_STAT 0 then
    let s := s.migEnd 2 cause
    let g := s.mig
    { s with mig := { src := g.src, dst := g.dst, clean := g.clean ++ [⟨g.src, g.dst, g.created, g.holding, g.toSrc⟩] } }
  else s

/-- Byte address of the migration's Pool region (R123). -/
def State.migPool (s : State) : Nat := 0x10000000 + s.mig.pool

/-- MIGRATION_SNAPSHOT (R124 step 1): after the source's END in block k the window is copied to the Pool,
and Clove begins to hold the flow's events. A run carried past the tick is the block's before. -/
def State.migSnapshot (s : State) (id : Nat) (carried : Bool) : State :=
  if s.rdB CLV_MIG_STAT 0 && decide (s.mig.src = id) &&
      decide (s.blockNo = (s.mig.k + b2n carried) % 2 ^ 32) && !s.mig.snap then
    let t := s.liveOf id
    let n := t.winSize * 16
    State.fenceRange { s with mem := s.copied (dmemAddr (id / 64) (t.sb * 4)) s.migPool n,
                              mig := { s.mig with snap := true, holding := true } }
      s.migPool n (12 + id / 512) true
  else s

/-- The reports of R118 at a slice's end or halt: BUDGET for an overrun, GOV and SAT for its flags. They carry the
number of the block of the slice's run, also where its halt or its drain goes on past the tick.
DESIGN CHOICE: assumption 80. -/
def State.sliceReports (s : State) (e sl : Nat) (blk : Word) (ovr ended : Bool) (sr : Word) (cycles : Nat) : State :=
  let t := (s.eng e).entry sl
  let s := if ovr && bit t.evt 18 then
    s.report e 0x41 3 blk (BitVec.ofNat 32 (cycles * 4096 + sl)) else s
  let s := if ended && bit t.evt 16 && bits sr 3 0 != 0 then
    s.report e 0x42 3 blk (BitVec.ofNat 32 (bits sr 3 0 * 256 + sl)) else s
  if ended && bit t.evt 17 && bits sr 7 4 != 0 then
    s.report e 0x43 3 blk (BitVec.ofNat 32 (bits sr 7 4 * 256 + sl)) else s

/-- What a slice's end, halt or fault leaves once its far queue is drained (R113, R115, R116, R118, R169):
the measurement, an overrun of its budget, the reports, its outputs queued for collection, and the
migration snapshot. A slice that faults with its measured cycles over its budget counts as an overrun, with no BUDGET
report, which R118 posts at an END or a halt. DESIGN CHOICE: assumption 96. -/
def State.finalSlice (s : State) (e sl : Nat) : State :=
  let g := s.eng e
  let b := g.carry.getD (g.sb sl)
  let t := g.entry sl
  let cyc := min g.meas (2 ^ 20 - 1)
  let budget := if g.carry.isSome then b.budget else s.budgetOf (e * 64 + sl)
  let ovr := b.halted || decide (budget < g.meas)
  let sr := (g.flight.foldl landOne g).main.sr
  let s := s.setEng e { g with
    draining := .none
    drainTags := []
    wait := .none
    carry := .none
    xq := if (t.nrt && (b.ended || b.halted) || b.ended && g.carry.isNone) && decide (0 < t.outCnt) then g.xq ++ [⟨true, sl, 0⟩] else g.xq }
  let s := s.upd (ENG_SLT_MEAS e (sl % 64)) (fun w =>
    setBits (setBits (setBits w 19 0 cyc) 22 21 (b2n b.ended + 2 * b2n b.halted)) 23 23 0)
  let s := if ovr then s.countF (ENG_SLT_MEAS e (sl % 64)) 31 24 1 else s
  let blk := s.rd SYS_FRM_BLOCK - BitVec.ofNat 32 (b2n g.carry.isSome)
  let s := s.sliceReports e sl blk (ovr && (b.ended || b.halted)) b.ended sr cyc
  if b.ended then s.migSnapshot (e * 64 + sl) g.carry.isSome else s

/-- A change of the record of the slice that runs. A slice that faults in the block after its own is skipped in
that block too (R70). -/
def Engine.updRun (g : Engine) (sl : Nat) (f : SliceBlk → SliceBlk) : Engine :=
  match g.carry with
  | none => g.updSb sl f
  | some c =>
    let g := { g with carry := some (f c) }
    if (f c).faulted then g.updSb sl (fun b => { b with barred := true }) else g

/-- Cycles that a hold has lasted up to a cycle, since it was last accounted. -/
def Engine.held (g : Engine) (c : Nat) : Nat := c - g.waitAt

/-- Account the cycles that a hold has lasted up to a cycle (R63, R72, R115): a handler's are no measured cycles of
the slice it interrupts. -/
def Engine.payTo (g : Engine) (c : Nat) : Engine :=
  if g.wait == .none then g
  else { g with meas := if g.inEvt then g.meas else g.meas + g.held c, busy := g.busy + g.held c,
                waitAt := max g.waitAt c }

/-- Account the cycles that a hold has lasted. -/
def Engine.payHold (g : Engine) : Engine := g.payTo g.cyc

/-- The PWAITs of a drain in tag order (R63), from the cycle `waitAt`: each takes a cycle, and the first whose request
is outstanding holds the engine. -/
def Engine.drainRun (g : Engine) : List (Fin 16 × Bool) → Engine
  | [] => { g with drainTags := [] }
  | t :: ts =>
    let g := { g with meas := g.meas + 1, busy := g.busy + 1, waitAt := g.waitAt + 1 }
    if t.2 then g.drainRun ts else { g with drainTags := t :: ts }

/-- The tags outstanding, ascending. -/
def Engine.farTags (g : Engine) : List (Fin 16 × Bool) :=
  ((List.finRange 16).filter (fun t => g.far.any (fun q => q.tag = t))).map (fun t => (t, false))

/-- A drain goes on where the PWAIT at its head has ended, outside a handler (R63): the next slice can follow once
every one has. -/
def State.drainOn (s : State) (e : Nat) : State :=
  let g := s.eng e
  match g.draining, g.drainTags with
  | some sl, (_, true) :: ts =>
    if g.inEvt then s
    else
      let g := g.drainRun ts
      if g.drainTags.isEmpty then ((s.setEng e g).finalSlice e sl).cloveHost else s.setEng e g
  | _, _ => s

/-- The running slice stops: by END, by a halt, or by a fault. A hold it stands at ends, and the far queue drains
before the next switch-in (R63, R102). -/
def State.stopSlice (s : State) (e : Nat) (f : SliceBlk → SliceBlk) : State :=
  let g := (s.eng e).payHold
  match g.cur with
  | none => s
  | some sl =>
    let g := { g.updRun sl f with cur := .none, delay := .none, rpt := .none, halting := false,
                                  draining := some sl, wait := .drain, waitAt := g.cyc + b2n g.issued }
    let s := s.setEng e (g.drainRun g.farTags)
    (if g.far.isEmpty then s.finalSlice e sl else s).cloveHost

/-- Halt the running slice, at once or at the first boundary at which no RPT is active and no handler
runs (R34, R67). -/
def State.haltSlice (s : State) (e : Nat) : State :=
  let g := s.eng e
  match g.cur with
  | none => s
  | some sl =>
    if g.rpt.isSome || g.inEvt then
      s.setEng e { g.updRun sl (fun b => { b with halted := true }) with halting := true }
    else s.stopSlice e (fun b => { b with halted := true })

/-- The engine at the next bundle boundary, if a bundle has issued in the present cycle. -/
def Engine.boundary (g : Engine) : Engine := if g.issued then engRun g 1 else g

/-- The engine goes back to the interrupted set, at the bundle EPC names and still held as it was (R63, R66,
R70). A handler abandoned in a stall has its stall cycles counted (R72). -/
def Engine.backToMain (g : Engine) : Engine :=
  { g.payHold with
    inEvt := false, pc := g.epc, delay := .none, rpt := .none, wait := g.mainWait, mainWait := .none,
    waitAt := g.cyc }

/-- A handler has returned or is abandoned (R66, R67, R70, R214): a halt that has waited for it applies. -/
def State.handlerReturn (s : State) (e : Nat) : State :=
  let s := s.updEng e (fun g => g.boundary.backToMain)
  ((if (s.eng e).halting then s.stopSlice e id else s).drainOn e).consumeOut e

/-- A valid RT slice of a phase that counts as unrun at its window's close: not started, and neither
faulted nor skipped for its ENG_FSLICE bit (R34). -/
def State.unstarted (s : State) (e : Nat) (sl : Nat) (t : Entry) (phase : Nat) : Bool :=
  t.rt && t.phase == phase && !((s.eng e).sb sl).started && !((s.eng e).sb sl).barred

/-- ENG_SLT_MEAS of the slices of a phase that did not start in the block: no cycles, and skipped for an NRT slice
of an engine that runs slices (R112 to R115, R130). DEDUCED: assumption 22. -/
def State.unrunPhase (s : State) (phase e : Nat) : State :=
  let g := s.eng e
  let us := g.live.filter (fun u => u.2.valid && u.2.phase == phase && !(g.sb u.1).started)
  s.each us (fun s u => s.upd (ENG_SLT_MEAS e u.1) (fun w =>
    setBits (setBits w 23 21 (4 * b2n (u.2.nrt && g.active))) 19 0 0))

/-- ENG_SLT_MEAS at the end of a block of an engine's slices that are not valid and did not run in it: no slice ran or
was halted, no cycles (R130). -/
def State.clearMeas (s : State) (e : Nat) : State :=
  let g := s.eng e
  s.each ((upTo 64).filter (fun i => !(g.entry i).valid && !(g.sb i).started && bits (s.rd (ENG_SLT_MEAS e (i % 64))) 23 0 != 0))
    (fun s i => s.upd (ENG_SLT_MEAS e (i % 64)) (fun w => setBits w 23 0 0))

/-- The close of a Strip (0) or Bus (1) window on an engine: what still runs is halted, and the RT slices
left unrun are counted (R34, R113). -/
def State.closePhase (s : State) (phase e : Nat) : State :=
  let g := s.eng e
  let haltedRt : List Nat := match g.cur with
    | some sl => if (g.entry sl).rt && (g.entry sl).phase == phase then [sl] else []
    | none => []
  let unrun := if g.active then
    (g.live.filter (fun u => s.unstarted e u.1 u.2 phase)).map Prod.fst else []
  let all := (upTo 64).filter (fun i => haltedRt.contains i || unrun.contains i)
  let s := (s.haltSlice e).unrunPhase phase e
  match all with
  | [] => s
  | i :: _ =>
    s.updEng e (fun g => if phase = 0 then { g with ovrStrip := some (i, all.length) }
                         else { g with ovrBus := some (i, all.length) })

/-- The listed engines: one that is not listed is at reset and runs nothing. -/
def State.engList (s : State) : List Nat := s.engs.map Prod.fst

end Sys2Proof.Machine
end

