-- ==== Sys2Proof/Machine/Engine.lean ====
section
/-! DEFINITION. The issue of a bundle (R45, R49 to R58, R69 to R71, R88 to R105): the checks at issue, the
memory slots, the arithmetic slot, the control slot and the flow of the program. -/

namespace Sys2Proof.Machine

/-- The glide factor of a lane glide at sample j (R152): from g_s toward its end value. -/
def glideVal (g : LaneGlide) (j : Nat) : Int :=
  let e : Int := if g.up then 0x7FFFFFFF else 1
  let n := min (g.n0 + j) (g.len : Int)
  g.gs + roundHalfEven ((e - g.gs) * n) g.len

/-- The glide that governs sample j: the last started at or before it. -/
def segAt {α : Type} (segs : List (Nat × α)) (j : Nat) : Option α :=
  ((segs.filter (fun t => decide (t.1 ≤ j))).getLast?).map Prod.snd

/-- G of a lane at glide index j: 0 while the lane is not in morph (R47, R152). -/
def laneG (l : Lane) (j : Nat) : Int :=
  match segAt l.segs j with
  | some g => glideVal g j
  | none => 0

/-- G of every lane as the running context of an engine reads it: 0 in a handler (R47, R101). -/
def State.gOf (s : State) (e : Nat) : L4 Word :=
  let g := s.eng e
  match g.inEvt, g.cur with
  | false, some sl =>
    L4.of fun k => BitVec.ofInt 32 (laneG (sget {} s.morph.lanes ((e * 64 + sl) * 4 + k.val)) g.gidx)
  | _, _ => L4.all 0

/-- The register set in use (R65). -/
def Engine.rs (g : Engine) : RegSet := if g.inEvt then g.shadow else g.main

/-- Replace the register set in use. -/
def Engine.setRs (g : Engine) (r : RegSet) : Engine :=
  if g.inEvt then { g with shadow := r } else { g with main := r }

/-- The slice whose window the running context works in: the running slice, or a handler's target. -/
def Engine.ctx (g : Engine) : Nat := if g.inEvt then g.evtSlice else g.cur.getD 0



/-- The control instructions that change the flow of the program and may not stand in a delay slot. -/
def isFlow : CtlOp → Bool
  | .endSlice | .rte | .bra _ | .bc .. | .djn .. | .jmp _ => true
  | _ => false

/-- The repeat count of RPT and RPTW. -/
def rptCount : CtlOp → Option Nat
  | .rpt n => some n.toNat
  | .rptw n => some n.toNat
  | _ => none

/-- The pointer a control instruction writes, of those R104 forbids beside a memory slot that names it. -/
def ctlWritesP : CtlOp → Option (Fin 8)
  | .ldpq i _ | .setp i _ | .addp i _ | .mtp i _ => some i
  | _ => none

/-- The D register DJN writes. -/
def ctlWritesD : CtlOp → Option (Fin 16)
  | .djn d _ => some d
  | _ => none

/-- The pointer a memory slot names. -/
def memPtr : MemOp → Option (Fin 8)
  | .nop => none
  | .ldq _ i _ | .ldw _ i _ | .stq _ i _ | .stw _ i _ | .ldr _ i _ | .ldl _ i _ | .str _ i _
  | .stl _ i _ => some i

/-- Whether a memory slot writes DMEM. -/
def memStores : MemOp → Bool
  | .stq .. | .stw .. | .str .. | .stl .. => true
  | _ => false

/-- The register a memory slot loads, numbered D 0–15, P 16–23, N 24–31, L 32–39. -/
def memLoads : MemOp → Option Nat
  | .ldq r .. | .ldw r .. => some r.val
  | .ldr r .. => some (16 + r.val)
  | .ldl r .. => some (32 + r.val)
  | _ => none

/-- Two options that name the same thing. -/
def clash {α : Type} [DecidableEq α] (x y : Option α) : Bool :=
  match x, y with
  | some a, some b => decide (a = b)
  | _, _ => false

/-- DEST_CLASH (R69, R104). -/
def destClash (b : Bundle) : Bool :=
  clash (memPtr b.x) (memPtr b.y) || clash (memPtr b.x) (ctlWritesP b.c) ||
  clash (memPtr b.y) (ctlWritesP b.c) || clash (memLoads b.x) (memLoads b.y) ||
  clash (ctlWritesD b.c) (arithDest b.a) || clash (ctlWritesD b.c) (arithDest2 b.a)

/-- ILLEGAL_OP for what the slots' types still admit (R77, R104). -/
def illegal (g : Engine) (b : Bundle) : Bool :=
  (match b.a with
   | .norm d c _ => decide (d = c)
   | _ => false) ||
  rptCount b.c == some 0 || (b.c == .endSlice && g.inEvt)

/-- The far request a control instruction names: get, tag, pointer, offset register, count. -/
def farArgs : CtlOp → Option (Bool × Fin 16 × Fin 8 × Fin 16 × Fin 16)
  | .pget t i d c => some (true, t, i, d, c)
  | .pput t i d c => some (false, t, i, d, c)
  | _ => none

/-- The lowest fault code that a bundle meets at issue in cycle `g.cyc`, if any; `none` for `b` is a
reserved or undefined encoding (R69, R104, R105). -/
def issueFault (g : Engine) (b : Option Bundle) : Option Nat :=
  let checks : List (Nat × Bool) := match b with
    | none => [(1, decide (g.pc ≤ 6143)), (7, decide (6143 < g.pc))]
    | some b =>
      [ (1, decide (g.pc ≤ 6143) && illegal g b),
        (2, decide (g.pc ≤ 6143) && memStores b.x && memStores b.y),
        (3, decide (g.pc ≤ 6143) && destClash b),
        (4, decide (g.pc ≤ 6143) && (match rptCount b.c with
            | some n => decide (g.rcap < n)
            | none => false)),
        (5, decide (g.pc ≤ 6143) &&
            ((g.delay.isSome && (rptCount b.c).isSome) || (g.rpt.isSome && b.c != .nop))),
        (6, decide (g.pc ≤ 6143) && g.delay.isSome && isFlow b.c),
        (7, decide (6143 < g.pc)),
        (8, (farArgs b.c).isSome && decide (16 ≤ g.far.length)),
        (9, match farArgs b.c with
            | some (_, t, _) => g.far.any (fun q => q.tag = t)
            | none => false),
        (10, match farArgs b.c with
            | some (_, _, i, _, c) =>
              let q0 := (g.rs.pR i).toNat / 4
              decide (q0 < 0x3C00) || decide (0x3FFF < q0 + c.val)
            | none => false),
        (11, b.c == .rte && !g.inEvt) ]
  let checks := checks ++ [(12, g.inEvt && decide (g.evtFirst + g.rcap ≤ g.cyc))]
  (checks.find? (fun c => c.2)).map Prod.fst


/-- ISSUE_FAULT (R70, R71): the fault is recorded, the slice stops for the block with its ENG_FSLICE bit
set, or the handler is abandoned and its event counts as consumed. -/
def State.engFault (s : State) (e code : Nat) : State :=
  let g := s.eng e
  let rec_ := BitVec.ofNat 32 (code * 2 ^ 27 + b2n g.inEvt * 2 ^ 26 + g.ctx * 2 ^ 20 + g.pc % 8192)
  let s := if s.rdB (ENG_INT e) 0 then s else s.wr (ENG_FAULT e) rec_
  let s := (s.countF (ENG_FAULT_CNT e) 15 0 1).raise (ENG_INT e) 1#32
  let s := s.setEng e { g with issued := true, spare := 2 }
  if g.inEvt then s.handlerReturn e
  else
    match g.cur with
    | none => s
    | some sl =>
      let s := if sl < 32 then s.wrB (ENG_FSLICE_LO e) sl true else s.wrB (ENG_FSLICE_HI e) (sl - 32) true
      s.stopSlice e (fun b => { b with faulted := true })

/-- The DMEM word an X or Y access of an engine's context goes to (R146). -/
def State.viewWord (s : State) (e w : Nat) : Nat :=
  let sl := (s.eng e).ctx
  bankView ((s.eng e).entry sl) (s.rdF (ENG_MRPH e sl) 19 16) w

/-- Whether a word lies in the quads of a far request. -/
def FarReq.covers (q : FarReq) (w : Nat) : Bool := decide (q.q0 ≤ w / 4 ∧ w / 4 < q.q0 + q.quads)

/-- A DMEM word as the program reads it in its present cycle: bytes that the external port writes in a cycle to come
are still the old ones (R180). -/
def State.wordNow (s : State) (e w : Nat) : Word :=
  let a := dmemAddr e w
  let old := (s.eng e).xold.filter (fun x => decide (a ≤ x.2.1 ∧ x.2.1 < a + 4))
  wordOf (old.foldl (fun m x => putByte m x.2.1 x.2.2) s.mem) a

/-- Load a DMEM word: a destination word of an outstanding PGET has no defined result (R63). -/
def State.loadWord (s : State) (e w : Nat) : Word × State :=
  let w := s.viewWord e w
  if (s.eng e).far.any (fun q => q.get && q.covers w) then s.freeWord
  else (s.wordNow e w, s)

/-- The slice flow whose migration has a slice as its destination, and has not ended COMPLETE: in progress, or ABORTED
with the clean-up to come. -/
def State.movingTo (s : State) (id : Nat) : Option Nat :=
  if s.rdB CLV_MIG_STAT 0 && decide (id = s.mig.dst) then some s.mig.src
  else (s.mig.clean.find? (fun c => c.dst = id)).map MigClean.src

/-- The slice flow and epoch under which an engine's context posts (R124, R126, R218): the destination of a migration
runs under the next epoch of the source's flow, which after COMPLETE is that flow's current one. -/
def State.postStamp (s : State) (e : Nat) : Nat :=
  let id := e * 64 + (s.eng e).ctx
  match s.movingTo id with
  | some f => f * 256 + (s.epochOf f + 1) % 256 + 1
  | none =>
    let f := ((s.clove.alias_.find? (fun a => a.2 = id + 1)).map Prod.fst).getD id
    f * 256 + s.epochOf f + 1

/-- A word that the program stores where the external port writes in a cycle to come: the program finds it until then
(R180). -/
def Engine.patchOld (g : Engine) (a : Nat) (v : Word) : Engine :=
  let put := fun (x : Nat × Nat × Byte) =>
    if a ≤ x.2.1 ∧ x.2.1 < a + 4 then (x.1, x.2.1, v.extractLsb' (8 * (x.2.1 - a)) 8) else x
  { g with xold := g.xold.map put }

/-- Store a DMEM word. A word in a far request's quads is noted with the other value it may end with or be
sent with (R94); a store to word 0 of an outbox slot notes the epoch (R218). -/
def State.storeWord (s : State) (e w : Nat) (v : Word) : State :=
  let w := s.viewWord e w
  let old := wordOf s.mem (dmemAddr e w)
  let g := s.eng e
  let g := g.patchOld (dmemAddr e w) v
  let g := { g with far := g.far.map (fun q => if q.covers w then { q with alt := (w, old) :: q.alt } else q) }
  let g := if 0xFF80 ≤ w ∧ w < 0xFFC0 ∧ w % 8 = 0 then
      { g with obox := sset 0 g.obox ((w - 0xFF80) / 8) (s.postStamp e) } else g
  { s.setEng e g with mem := putWord s.mem (dmemAddr e w) v }

/-- Store the four words of a quad. -/
def State.storeQuad (s : State) (e q : Nat) (v : L4 Word) : State :=
  (((s.storeWord e (q * 4) v.l0).storeWord e (q * 4 + 1) v.l1).storeWord e (q * 4 + 2) v.l2).storeWord e
    (q * 4 + 3) v.l3

/-- Load the four words of a quad. -/
def State.loadQuad (s : State) (e q : Nat) : L4 Word × State :=
  let a := s.loadWord e (q * 4)
  let b := a.2.loadWord e (q * 4 + 1)
  let c := b.2.loadWord e (q * 4 + 2)
  let d := c.2.loadWord e (q * 4 + 3)
  (⟨a.1, b.1, c.1, d.1⟩, d.2)

/-- A landing put in flight for the set in use. -/
def State.fly (s : State) (e lat : Nat) (x : Landing) : State :=
  s.updEng e (fun g => { g with flight := g.flight ++ [⟨g.cyc + lat, g.inEvt, x⟩] })

/-- The DMEM bytes a memory slot stores, as (first word, number of words) before the bank view. -/
def storeSpan (r : RegSet) : MemOp → Option (Nat × Nat)
  | .stq _ i _ => some ((r.pR i).toNat / 4 * 4, 4)
  | .stw _ i _ | .str _ i _ | .stl _ i _ => some ((r.pR i).toNat, 1)
  | _ => none

/-- P0–P7 for r 0–7, N0–N7 for r 8–15 (R90). -/
def xrLanding (r : Fin 16) (v : BitVec 16) : Landing :=
  if h : r.val < 8 then .p ⟨r.val, h⟩ v else .n ⟨r.val - 8, by omega⟩ v

/-- The word STR stores: P zero-extended, N sign-extended (R91). -/
def xrWord (r : RegSet) (x : Fin 16) : Word :=
  if h : x.val < 8 then (r.pR ⟨x.val, h⟩).zeroExtend 32 else (r.nR ⟨x.val - 8, by omega⟩).signExtend 32

/-- The access of a memory slot (R91): loads go in flight for n+3, stores reach DMEM. -/
def State.memAccess (s : State) (e : Nat) (r : RegSet) (op : MemOp) : State :=
  match op with
  | .nop => s
  | .ldq d i _ =>
    let x := s.loadQuad e ((r.pR i).toNat / 4)
    x.2.fly e 3 (.d d (x.1.map some))
  | .ldw d i _ =>
    let x := s.loadWord e (r.pR i).toNat
    x.2.fly e 3 (.d d (L4.all (some x.1)))
  | .ldr x i _ =>
    let v := s.loadWord e (r.pR i).toNat
    v.2.fly e 3 (xrLanding x (v.1.extractLsb' 0 16))
  | .ldl l i _ =>
    let v := s.loadWord e (r.pR i).toNat
    v.2.fly e 3 (.l l (v.1.extractLsb' 0 16))
  | .stq d i _ => s.storeQuad e ((r.pR i).toNat / 4) (r.dAll d)
  | .stw d i _ =>
    let w := (r.pR i).toNat
    s.storeWord e w (r.dL d ⟨w % 4, by omega⟩)
  | .str x i _ => s.storeWord e (r.pR i).toNat (xrWord r x)
  | .stl l i _ => s.storeWord e (r.pR i).toNat ((r.lR l).zeroExtend 32)

/-- The write-back of a memory slot (R88): modify(Pi, N, Li), seen from n+1. -/
def State.memModify (s : State) (e : Nat) (r : RegSet) (op : MemOp) : State :=
  match op with
  | .nop => s
  | .ldq _ i j | .ldw _ i j | .stq _ i j | .stw _ i j | .ldr _ i j | .ldl _ i j | .str _ i j | .stl _ i j =>
    s.fly e 1 (.p i (modify (r.pR i) (r.nR (slotMod i j)) (r.lR i)))

/-- A memory slot whole. -/
def State.memSlot (s : State) (e : Nat) (r : RegSet) (op : MemOp) : State :=
  (s.memAccess e r op).memModify e r op

/-- EXCHANGE_WRITE_COLLISION (R181): the bytes that the program stored in a cycle in which the external
port writes them: the cycle is counted, and under the VG2040 rule they end with the external data. A byte that the
port writes in a later cycle ends with the external data under both rules; the destination of a PGET is R94's. -/
def State.collide (s : State) (e : Nat) (r : RegSet) (b : Bundle) : State :=
  let g := s.eng e
  let spans := [storeSpan r b.x, storeSpan r b.y].filterMap id
  let hit := fun a : Nat => spans.any (fun t => (upTo t.2).any (fun i =>
    let p := dmemAddr e (s.viewWord e (t.1 + i))
    decide (p ≤ a ∧ a < p + 4)))
  let far := fun a : Nat => g.far.any (fun q => q.get && q.covers ((a - dmemAddr e 0) / 4))
  let both := g.ext.filter (fun x => hit x.2.1)
  let again := both.filter (fun x => !(far x.2.1) && (g.xw2 || decide (g.cyc < x.1)))
  let s := if both.any (fun x => x.1 == g.cyc) then s.countF (ENG_XW_CNT e) 15 0 1 else s
  { s with mem := again.foldl (fun m x => putByte m x.2.1 x.2.2) s.mem }

/-- The arithmetic slot (R78 to R86): its results go in flight for their class. -/
def State.arithSlot (s : State) (e : Nat) (r : RegSet) (op : ArithOp) : State :=
  let g := s.eng e
  let gl := s.gOf e
  let o := arithOut op r gl g.cyc
  let s := s.setEng e (g.setRs (arithIssue op r gl g.cyc))
  s.each (arithLandings op o) (fun s x => s.fly e (arithLatency op) x)

/-- Sign-extend a branch displacement. -/
def relPc (pc : Nat) {n : Nat} (rel : BitVec n) : Nat := (((pc : Int) + rel.toInt) % 8192).toNat

/-- Where a control instruction branches, if it is taken (R98, R99, R66). -/
def branchTo (g : Engine) (r : RegSet) (op : CtlOp) : Option Nat :=
  match op with
  | .bra rel => some (relPc g.pc rel)
  | .bc c rel => if bcHolds c r.sr then some (relPc g.pc rel) else none
  | .djn d rel => if r.dL d 0 - 1 != 0 then some (relPc g.pc rel) else none
  | .jmp pc => some pc.toNat
  | .rte => some g.epc
  | _ => none

/-- The register writes and other effects of the control slot, but for the flow of the program (R97 to
R102, R92). -/
def State.ctlSlot (s : State) (e : Nat) (r : RegSet) (op : CtlOp) : State :=
  let g := s.eng e
  let B := s.blk
  match op with
  | .nop | .bra _ | .bc .. | .jmp _ | .rpt _ | .rptw _ | .rte | .endSlice => s
  | .ei => s.fly e 1 (.epm true)
  | .di => s.fly e 1 (.epm false)
  | .clrf m => s.fly e 1 (.clrf m)
  | .gadv => if g.inEvt then s else s.setEng e { g with gidx := min (g.gidx + 1) (B - 1) }
  | .gset j => if g.inEvt then s else s.setEng e { g with gidx := min j.toNat (B - 1) }
  | .pwait t =>
    if g.far.any (fun q => q.tag = t) then s.setEng e { g with wait := .tag t, waitAt := g.cyc + 1 } else s
  | .addp i j => s.fly e 1 (.p i (modify (r.pR i) (r.nR j) (r.lR i)))
  | .mtp i d => s.fly e 1 (.p i ((r.dL d 0).extractLsb' 0 16))
  | .mtn i d => s.fly e 1 (.n i ((r.dL d 0).extractLsb' 0 16))
  | .mtl i d => s.fly e 1 (.l i ((r.dL d 0).extractLsb' 0 16))
  | .ldpq i q => s.fly e 1 (.p i (BitVec.ofNat 16 ((r.sb.toNat + q.toNat) % 16384 * 4)))
  | .setp i a => s.fly e 1 (.p i a)
  | .setn i v => s.fly e 1 (.n i (v.signExtend 16))
  | .setnw i v => s.fly e 1 (.n i v)
  | .setl i v => s.fly e 1 (.l i (v.zeroExtend 16))
  | .setlw i v => s.fly e 1 (.l i v)
  | .djn d _ => s.fly e 2 (.d d ⟨some (r.dL d 0 - 1), none, none, none⟩)
  | .pget t i d c | .pput t i d c =>
    let req : FarReq :=
      { tag := t, get := (match op with | .pget .. => true | _ => false),
        q0 := (r.pR i).toNat / 4, quads := c.val + 1,
        off := (r.dL d 0).toNat % 2 ^ 25 / 16 * 16, issued := g.cyc,
        headAt := g.cyc }
    s.setEng e { g with far := g.far ++ [req] }

/-- The program counter, repeat and delay state after a bundle has issued (R55, R98 to R100). -/
def flowNext (g : Engine) (r : RegSet) (op : CtlOp) : Engine :=
  let pc1 := (g.pc + 1) % 8192
  match rptCount op with
  | some n => { g with pc := pc1, rpt := some n }
  | none =>
    match g.rpt with
    | some k => if k ≤ 1 then { g with rpt := .none, pc := pc1 } else { g with rpt := some (k - 1) }
    | none =>
      match g.delay with
      | some d => if d.left ≤ 1 then { g with delay := .none, pc := d.pc }
                  else { g with delay := some { d with left := d.left - 1 }, pc := pc1 }
      | none =>
        match branchTo g r op with
        | some t => { g with pc := pc1, delay := some ⟨2, t, op == .rte⟩ }
        | none => { g with pc := pc1 }

/-- Number of memory accesses of a bundle: the half-cycles it uses (R49, R52). -/
def accesses (b : Bundle) : Nat := b2n (b.x != .nop) + b2n (b.y != .nop)

/-- An engine in the cycle in which its next bundle issues: the present one, or the next if a bundle has issued in
it. External accesses delay no bundle (R51, R52). -/
def Engine.toIssue (g : Engine) : Engine := if g.issued then engRun g 1 else g

/-- Every effect of a bundle that issues. The memory slots come before the control slot: a word that X or Y of the
bundle of a PPUT stores in its quads is sent as stored, and one stored in the destination of a PGET is overwritten;
the request is not outstanding yet for R94. DESIGN CHOICE: assumption 75. -/
def State.issueEffects (s : State) (e : Nat) (b : Bundle) : State :=
  let g := s.eng e
  let r := g.rs
  let rte := match g.delay with
    | some d => d.rte && decide (d.left ≤ 1)
    | none => false
  let s := ((s.memSlot e r b.x).memSlot e r b.y).collide e r b
  let s := s.arithSlot e r b.a
  let s := s.ctlSlot e r b.c
  let s := s.updEng e (fun h =>
    { flowNext h r b.c with issued := true, spare := 2 - accesses b, busy := h.busy + 1,
                            meas := if h.inEvt then h.meas else h.meas + 1 })
  let s := if rte then
      if (s.eng e).wait == .none then s.handlerReturn e
      else s.updEng e (fun h => { h with delay := some ⟨0, h.epc, true⟩ })
    else s
  let s := if b.c == .endSlice then s.stopSlice e (fun x => { x with ended := true }) else s
  let h := s.eng e
  if h.halting && h.rpt.isNone && !h.inEvt then s.stopSlice e id else s

/-- Issue a bundle on an engine, or fault at issue. While no slice or handler is runnable, the engine
issues no bundle (R45). DESIGN CHOICE: assumption 73. -/
def State.issue (s : State) (e : Nat) (b : Option Bundle) : State :=
  let g := s.engAt e
  if g.runnable then
    let g := g.toIssue
    let s := s.setEng e g
    match issueFault g b with
    | some c => s.engFault e c
    | none =>
      match b with
      | some b => s.issueEffects e b
      | none => s
  else s

/-- A bundle of PMEM (R4, R53). -/
def State.bundleAt (s : State) (e i : Nat) : DWord :=
  (wordOf s.mem (pmemAddr e i + 4)) ++ (wordOf s.mem (pmemAddr e i))

/-- The bundle word at an engine's PC, with its old contents in the cycle of a write to it (R53). -/
def State.fetchWord (s : State) (e : Nat) : DWord :=
  let g := s.eng e
  match g.pold.find? (fun x => x.1 == g.cyc && x.2.1 == g.pc) with
  | some x => x.2.2
  | none => s.bundleAt e g.pc

/-- The present cycle of an engine goes by: the program's bundle issues in it if one can and none has, and otherwise
the next cycle begins. -/
def State.passCycle (s : State) (e : Nat) : State :=
  let g := s.engAt e
  if !g.issued && g.runnable then s.issue e (decodeBundle ((s.setEng e g).fetchWord e))
  else s.setEng e (engRun g 1)

/-- An external access waits until its engine can take it, while the program goes on undelayed (R51, R52): for at
most `n` cycles or bundles, longer than any window. DESIGN CHOICE: assumption 76. -/
def State.waitExt (s : State) (e : Nat) (ready : Engine → Bool) : Nat → State
  | 0 => s
  | n + 1 => if ready (s.engAt e) then s else (s.passCycle e).waitExt e ready n

/-- More cycles than a block has at any rate and length (R43). -/
def maxWait : Nat := 2 ^ 20

/-- A free half-cycle of DMEM is taken, once there is one (R52). -/
def State.takeHalf (s : State) (e : Nat) : State :=
  let s := s.waitExt e (fun g => decide (0 < g.spare)) maxWait
  let g := s.engAt e
  s.setEng e { g with spare := g.spare - 1 }

end Sys2Proof.Machine
end

