-- ==== Sys2Proof/Machine/Far.lean ====
section
/-! DEFINITION. Accesses to DMEM from outside the program (R51, R52, R179 to R181), fenced units (R186),
and the far queue (R61 to R63, R92 to R94, R197). -/

namespace Sys2Proof.Machine

/-- Byte address of a DMEM quad. -/
def quadAddr (e q : Nat) : Nat := dmemAddr e (q * 4)

/-- The bytes of a 128-bit quad that its strobes select, with their addresses. -/
def strobed (a : Nat) (strb : BitVec 16) (data : BitVec 128) : List (Nat × Byte) :=
  ((upTo 16).filter (fun i => strb.getLsbD i)).map (fun i => (a + i, data.extractLsb' (8 * i) 8))

/-- The cycle in which the external port would make a write asked for now: the present one, or the next where a
bundle has issued in it (R180). -/
def Engine.writeSlot (g : Engine) : Nat := g.cyc + b2n g.issued

/-- The end of the cycle in which the external port would make a read asked for now: it comes after the cycle's bundle
(R180), so it is the present cycle's once the bundle has issued, or where none can, and else the one before. -/
def Engine.readEnd (g : Engine) : Nat := g.cyc + b2n (g.issued || !g.runnable)

/-- The external port of the exchange window is taken for `n` cycles from cycle `w` by a request of a class of R179:
requests of its own class and of lower ones come after it, and higher ones wait for no more than an access that has been
made already. -/
def Engine.takePort (g : Engine) (cls : Fin 4) (w n : Nat) : Engine :=
  { g with xport := L4.of fun j => if cls ≤ j then max (g.xport.get j) (w + n) else g.xport.get j,
           xused := if w ≤ g.writeSlot then max g.xused (w + 1) else g.xused }

/-- The first cycle in which the external port is free for a class (R179). -/
def Engine.portAt (g : Engine) (cls : Fin 4) : Nat := max (g.xport.get cls) g.xused

/-- The cycle from which the external port serves a class, for a write asked for now. -/
def Engine.portSlot (g : Engine) (cls : Fin 4) : Nat := max (g.portAt cls) g.writeSlot

/-- Bytes that the external port writes, each in its cycle (R180, R181): until then the program finds the old ones. -/
def State.portWrite (s : State) (e : Nat) (bs : List (Nat × Nat × Byte)) : State :=
  let g := s.engAt e
  let later := (bs.filter (fun b => decide (g.writeSlot < b.1))).map (fun b => (b.1, b.2.1, sget 0 s.mem b.2.1))
  let g := { g with ext := g.ext ++ bs, xold := later ++ g.xold }
  { s.setEng e g with mem := bs.foldl (fun m b => putByte m b.2.1 b.2.2) s.mem }

/-- The class of a Bus Matrix master at the external port (R179, R190): the cluster DMAs, or the others. -/
def portClass (m : Nat) : Fin 4 := if m < 4 then 2 else 3

/-- The quad lies in the exchange window (R51). -/
def inXwin (q : Nat) : Bool := decide (0x3C00 ≤ q)

/-- A write of a DMEM quad from outside the program, by a master (R51, R52, R179, R180). -/
def State.extWrite (s : State) (m e q : Nat) (strb : BitVec 16) (data : BitVec 128) : State :=
  let bs := strobed (quadAddr e q) strb data
  let cls := portClass m
  let s := if inXwin q then
      let s := s.waitExt e (fun g => decide (g.portAt cls ≤ g.writeSlot)) maxWait
      let g := s.engAt e
      let w := g.writeSlot
      s.setEng e { g.takePort cls w 1 with ext := g.ext ++ bs.map (fun b => (w, b.1, b.2)) }
    else s.takeHalf e
  { s with mem := bs.foldl (fun m x => putByte m x.1 x.2) s.mem }

/-- A read of a DMEM quad from outside the program, by a master (R51, R52, R179, R180). -/
def State.extRead (s : State) (m e q : Nat) : BitVec 128 × State :=
  let cls := portClass m
  let s := if inXwin q then
      let s := s.waitExt e (fun g => decide (g.portAt cls < g.readEnd)) maxWait
      let g := s.engAt e
      s.setEng e (g.takePort cls (g.readEnd - 1) 1)
    else s.takeHalf e
  let a := quadAddr e q
  (wordOf s.mem (a + 12) ++ wordOf s.mem (a + 8) ++ wordOf s.mem (a + 4) ++ wordOf s.mem a, s)

/-- The Pool address of quad k of a far request (R92). -/
def FarReq.pool (q : FarReq) (k : Nat) : Nat := 0x10000000 + (q.off + 16 * k) % 2 ^ 25

/-- FAR_FENCED_BANK (R197): a far transfer to a fenced Pool bank is recorded. -/
def State.farErr (s : State) (e : Nat) (q : FarReq) (unit : Nat) : State :=
  let s := s.fenceLog unit (12 + e / 8) (!q.get)
  let s := (s.count BMX_FARERR_CNT).raise BMX_INT 2#32
  if s.rdB BMX_FARERR 31 then s
  else s.wr BMX_FARERR (setBits (setBits (setBits (setBit (setBit 0 31 true) 30 (!q.get)) 20 16 e)
    15 12 q.tag.val) 9 0 unit)

/-- A free choice between two words (R94). -/
def State.either (s : State) (x y : Word) : Word × State :=
  let f := s.freeWord
  (if bit f.1 0 then x else y, f.2)

/-- One word of a beat of a PGET: a word the program has written meanwhile may keep its data (R94). -/
def State.getWord (s : State) (e : Nat) (q : FarReq) (w : Nat) (pool : Word) : State :=
  let cur := wordOf s.mem (dmemAddr e w)
  let x := if q.alt.any (fun t => t.1 = w) then s.either pool cur else (pool, s)
  { x.2 with mem := putWord x.2.mem (dmemAddr e w) x.1 }

/-- One word of a beat of a PPUT: a word the program has written meanwhile may be sent as it was (R94). -/
def State.putPool (s : State) (e : Nat) (q : FarReq) (w pa : Nat) : State :=
  let cur := wordOf s.mem (dmemAddr e w)
  let x := match (q.alt.reverse.find? (fun t => t.1 = w)) with
    | some t => s.either cur t.2
    | none => (cur, s)
  { x.2 with mem := putWord x.2.mem pa x.1 }

/-- One quad of a beat: a fenced bank gives zeros and keeps nothing (R197). -/
def State.farQuad (s : State) (e : Nat) (q : FarReq) (k : Nat) : State :=
  let pa := q.pool k
  let w := (q.q0 + k) * 4
  let shut := s.fenced (poolUnit (pa - 0x10000000))
  if q.get then
    s.each (upTo 4) (fun s i => s.getWord e q (w + i) (if shut then 0 else wordOf s.mem (pa + 4 * i)))
  else if shut then s
  else s.each (upTo 4) (fun s i => s.putPool e q (w + i) (pa + 4 * i))

/-- Beats of a far request: two quads each (R62). -/
def FarReq.total (q : FarReq) : Nat := ceilDiv q.quads 2

/-- The quads of the next beat of a request. -/
def FarReq.next (q : FarReq) : List Nat := (upTo q.quads).filter (fun k => k / 2 = q.beats)

/-- The quads of the next beat of the request at the head of an engine's far queue are moved; a transfer that meets a
fenced bank is recorded once (R197). The words that a PGET's beat settles are no longer noted. -/
def State.farMove (s : State) (e : Nat) : State :=
  match (s.eng e).far with
  | [] => s
  | q :: _ =>
    let ks := q.next
    let bad := (ks.map (fun k => poolUnit (q.pool k - 0x10000000))).find? s.fenced
    let s := match bad, q.erred with
      | some u, false => s.farErr e q u
      | _, _ => s
    let s := s.each ks (fun s k => s.farQuad e q k)
    s.updEng e (fun g => { g with far := match g.far with
      | [] => []
      | p :: ps =>
        { p with beats := p.beats + 1, erred := p.erred || bad.isSome,
                 alt := if p.get then p.alt.filter (fun t => !(ks.contains (t.1 / 4 - p.q0))) else p.alt }
          :: ps })

/-- The POOL target at which the far queue of an engine has a beat waiting, if any (R62, R189). -/
def Engine.beatAt (g : Engine) : Option Nat :=
  match g.far with
  | q :: _ => if q.beats < q.total then some ((q.pool (2 * q.beats) - 0x10000000) / 0x800000) else none
  | [] => none

/-- Engines with a beat waiting at a POOL target. -/
def State.beatsAt (s : State) (t : Nat) : List Nat := s.engList.filter (fun e => (s.eng e).beatAt == some t)

/-- The first of `xs` in cyclic order of 0 to n − 1, from `start`. -/
def cyclicFirst (n start : Nat) (xs : List Nat) : Option Nat :=
  ((upTo n).map (fun i => (start + i) % n)).find? (fun x => xs.contains x)

/-- The engine whose beat a POOL target serves next (R62, R197): the clusters in turn, in ascending order after the
one served last, and within the cluster its engines likewise. -/
def State.farTurn (s : State) (t : Nat) : Option Nat :=
  let es := s.beatsAt t
  match cyclicFirst 4 (sget 0 s.bmx.clusterTurn t) (es.map (· / 8)) with
  | none => none
  | some c => (cyclicFirst 8 (sget 0 s.bmx.engineTurn (t * 4 + c))
      ((es.filter (fun e => e / 8 == c)).map (· % 8))).map (fun i => c * 8 + i)

/-- Requests at the head of the queues of these engines compete at a POOL target (R62). -/
def State.contend (s : State) (es : List Nat) : State :=
  s.each es (fun s e => s.updEng e (fun g => { g with far := match g.far with
    | [] => []
    | p :: ps => { p with cont := true } :: ps }))

/-- A transaction of the Bus Matrix holds a target. -/
def State.busAt (s : State) (t : Nat) : Bool :=
  s.bmx.txns.any (fun x => x.granted && x.cause == 0 && x.target == t)

/-- An engine's beat is served (R62, R179): the external port of the exchange window takes a cycle for each of its
quads, ahead of every other request, from the present one on, or from `by_` where that is earlier and no access has the
port. -/
def State.farServe (s : State) (e by_ : Nat) : State :=
  let g := s.engAt e
  match g.far with
  | [] => s
  | q :: _ =>
    let w := max (g.portAt 0) (min g.writeSlot by_)
    let s := (s.setEng e (g.takePort 0 w q.next.length)).farMove e
    if q.get then
      let ks := q.next.filter (fun k => decide (g.cyc ≤ w + k % 2))
      s.updEng e (fun h => { h with ext := h.ext ++ ks.flatMap (fun k => (upTo 16).map (fun i =>
        let a := quadAddr e (q.q0 + k) + i
        (w + k % 2, a, sget 0 s.mem a))) })
    else s

/-- FAR_BEAT_SERVE (R62, R197): the POOL target at which the engine's next beat waits serves the beat whose turn it
is. DEDUCED: assumption 25. -/
def State.farBeat (s : State) (e : Nat) : State :=
  match (s.eng e).beatAt with
  | none => s
  | some t =>
    let es := s.beatsAt t
    let s := if decide (1 < es.length) || s.busAt t then s.contend es else s
    match s.farTurn t with
    | none => s
    | some w =>
      let c := w / 8
      ({ s with bmx := { s.bmx with
          clusterTurn := sset 0 s.bmx.clusterTurn t ((c + 1) % 4),
          engineTurn := sset 0 s.bmx.engineTurn (t * 4 + c) ((w + 1) % 8) } } : State).farServe w (s.engAt w).writeSlot

/-- At completion, a destination word the program wrote after its beat ends with either data (R94). -/
def State.settleAlt (s : State) (e : Nat) (q : FarReq) : State :=
  if q.get then
    s.each q.alt.reverse (fun s t =>
      let a := dmemAddr e t.1
      let x := s.either (wordOf s.mem a) t.2
      { x.2 with mem := putWord x.2.mem a x.1 })
  else s

/-- The latest completion of a request of `n` quads after it reaches the head (R62). -/
def farBound (n : Nat) : Nat := 32 * ceilDiv n 2 + 32

/-- PWAIT_RESUME (R63): a tag is complete since cycle `c`. A hold on it ends, and the stall cycles count; a return
whose second delay slot was held takes place, or comes too late (R67); a drain goes on, a handler's own requests apart.
DEDUCED: assumption 23. -/
def State.farResume (s : State) (e : Nat) (t : Fin 16) (c : Nat) : State :=
  let g := s.eng e
  let g := if g.wait == .tag t then { g.payTo c with wait := .none } else g
  let g := if g.mainWait == .tag t then { g with mainWait := .none } else g
  let back := g.inEvt && g.wait == .none && (match g.delay with
    | some d => d.rte && d.left == 0
    | none => false)
  let s := s.setEng e g
  let s := if back then
      (if g.evtFirst + g.rcap < g.cyc then s.engFault e 12 else s.handlerReturn e)
    else s
  let g := s.eng e
  let hit := match g.drainTags with
    | (u, false) :: _ => u == t && !g.inEvt
    | _ => false
  let tags := g.drainTags.map (fun u => (u.1, u.2 || u.1 == t))
  (s.setEng e { (if hit then g.payTo c else g) with drainTags := tags }).drainOn e

/-- The request at the head of an engine's far queue completes and frees its tag: Q + 24 cycles after it reached the
head, or where beats have competed with its own, at a time from then to T(Q) (R62); beats that no command has served are
served by then, one quad a cycle. The next request reaches the head (R61). DEDUCED: assumption 25. -/
def State.farComplete (s : State) (e : Nat) : State :=
  match (s.engAt e).far with
  | [] => s
  | q :: _ =>
    let first := q.headAt + q.quads + 24
    let s := s.each (upTo (q.total - q.beats)) (fun s k => s.farServe e (first + 2 * q.beats + 2 * k - q.quads))
    let s := s.setEng e (engTo (s.engAt e) first)
    let g := s.eng e
    match g.far with
    | [] => s
    | q :: rest =>
      let c := if q.cont then min g.cyc (q.headAt + farBound q.quads) else first
      let s := (s.setEng e { g with far := match rest with
        | [] => []
        | p :: ps => { p with headAt := max p.issued c } :: ps }).settleAlt e q
      let s := s.maxF (ENG_FARQ_LATMAX e) 12 0 (c - q.issued)
      s.farResume e q.tag c

end Sys2Proof.Machine
end

