-- ==== Sys2Proof/Machine/BusMem.lean ====
section
/-! DEFINITION. Memory behind the Bus Matrix: the address map (R189), protection windows (R202 to R204),
the error logs (R200, R350), and a beat's effect at each memory target (R53, R54, R134, R160, R186). The
registers' part of it is in Machine/RegMap.lean. -/

namespace Sys2Proof.Machine

/-- The target a device address decodes to (R189); 15 is DEFAULT. -/
def targetOf (a : Nat) : Nat :=
  if a < 0x40000 then 12
  else if 0x100000 ≤ a ∧ a < 0x200000 then 11
  else if 0x10000000 ≤ a ∧ a < 0x12000000 then (a - 0x10000000) / 0x800000
  else if 0x20000000 ≤ a ∧ a < 0x21000000 then 4 + (a - 0x20000000) / 0x400000
  else if 0x30000000 ≤ a ∧ a < 0x30300000 then 8
  else if 0x38000000 ≤ a ∧ a < 0x38008000 then 9
  else if 0x40000000 ≤ a ∧ a < 0x40400000 then 10
  else if 0x50000000 ≤ a ∧ a < 0x60000000 then 13
  else 15

/-- A protection window in force after a reset (R204). -/
def winReset (w : Nat) : Win := if w = 0 then ⟨0, 0xFFFFF000#32, 0x80000003#32⟩ else {}

/-- A protection window in force. -/
def State.win (s : State) (m w : Nat) : Win := sget (winReset w) s.bmx.wins (m * 16 + w)

/-- Whether a window permits an access to bytes `lo` to `hi` (R202). -/
def Win.permits (w : Win) (hif guest write : Bool) (lo hi : Nat) : Bool :=
  bit w.attr 31 && decide (bits w.base 31 12 * 4096 ≤ lo ∧ hi < (bits w.limit 31 12 + 1) * 4096) &&
  (if hif && guest then bit w.attr (if write then 3 else 2) else bit w.attr (if write then 1 else 0))

/-- The protection check (R202), with the Owner's access to the BMX block (R204). -/
def State.permitted (s : State) (m : Nat) (guest write : Bool) (lo hi : Nat) : Bool :=
  (upTo 16).any (fun w => (s.win m w).permits (m == 6) guest write lo hi) ||
  (m == 6 && !guest && decide (0x50020000 ≤ lo ∧ hi < 0x50030000))

/-- An error in an error log (R200, R350): the master field `mm`, the cause, the target, the direction and the function. -/
def errWord (m mm : Nat) (guest write : Bool) (cause target : Nat) : Word :=
  setBits (setBits (setBits (setBit (setBit (setBit 0 31 true) 30 write) 29 (m == 6 && guest)) 23 20 cause) 19 16 target)
    11 8 mm

/-- An error response or a master reset (R200): counted, flagged and logged. -/
def State.busLog (s : State) (m : Nat) (guest write : Bool) (cause target addr : Nat) : State :=
  let s := (s.count BMX_ERR_CNT).raise BMX_INT 1#32
  if s.rdB BMX_ERRLOG 31 then s
  else (s.wr BMX_ERRLOG (errWord m m guest write cause target)).wr BMX_ERRADDR (BitVec.ofNat 32 addr)

/-- An error response (R200), for HIF under R350 too. -/
def State.busErr (s : State) (m : Nat) (guest write : Bool) (cause target addr : Nat) : State :=
  let s := s.busLog m guest write cause target addr
  if m = 6 then
    let s := (s.count HIF_ERR_CNT).raise HIF_INT 1#32
    if s.rdB HIF_ERRLOG 31 then s
    else (s.wr HIF_ERRLOG (errWord m 0 guest write cause target)).wr HIF_ERRADDR (BitVec.ofNat 32 addr)
  else s

/-- The strobed bytes of a beat, with their addresses. -/
def beatBytes (a : Nat) (strb : BitVec 32) (data : BitVec 256) : List (Nat × Byte) :=
  ((upTo 32).filter (fun i => strb.getLsbD i)).map (fun i => (a + i, data.extractLsb' (8 * i) 8))

/-- The 32 bytes of a beat's address as memory holds them. -/
def State.beatAt (s : State) (a : Nat) : BitVec 256 :=
  BitVec.ofNat 256 (ofLeBytes ((upTo 32).map (fun i => s.byte (a + i))))

/-- A fenced unit that a beat touches (R186). -/
def State.fencedHit (s : State) (a : Nat) (strb : BitVec 32) : Option Nat :=
  (upTo 32).findSome? (fun i =>
    if strb.getLsbD i then
      match unitAt (a + i) with
      | some u => if s.fenced u then some u else none
      | none => none
    else none)

/-- Whether strobes cover every group of `n` bytes of a beat whole or not at all (R53, R160). -/
def wholeGroups (n : Nat) (strb : BitVec 32) : Bool :=
  (upTo (32 / n)).all (fun g =>
    let on := (upTo n).filter (fun i => strb.getLsbD (g * n + i))
    on.isEmpty || on.length == n)

/-- Whether a sink index is allocated (R22). Indices 0x1310–0x13FF stand in no row of R22, neither allocated nor in
the reserved row; they are taken as reserved. DESIGN CHOICE: assumption 78. -/
def sinkAllocated (i : Nat) : Bool :=
  decide (i < 0x1300) || decide (0x1300 ≤ i ∧ i < 0x1310) || decide (0x1400 ≤ i ∧ i < 0x1D00)

/-- Reset value of a sink entry (R160). -/
def sinkReset : Word := 0x00400000#32

/-- The last value written to a sink entry (R160), and its value in force (R162). -/
def State.sinkWritten (s : State) (i : Nat) : Word := sget sinkReset s.router.written i
def State.sinkInForce (s : State) (i : Nat) : Word := sget sinkReset s.router.inForce i

/-- Write a sink entry; it comes into force at a boundary (R160, R162). -/
def State.writeSink (s : State) (i : Nat) (w : Word) : State :=
  if sinkAllocated i then
    { s with router := { s.router with written := sset sinkReset s.router.written i (w &&& 0x83FF3FFF#32),
                                       fresh := if s.router.fresh.contains i then s.router.fresh
                                                else s.router.fresh ++ [i] } }
  else s

/-- The 32-bit word of a beat at word position k. -/
def beatWord (data : BitVec 256) (k : Nat) : Word := data.extractLsb' (32 * k) 32

/-- A write beat at the sink table (R160). -/
def State.sinkBeat (s : State) (a : Nat) (strb : BitVec 32) (data : BitVec 256) : State × Bool :=
  if wholeGroups 4 strb then
    (s.each ((upTo 8).filter (fun k => strb.getLsbD (4 * k)))
      (fun s k => s.writeSink ((a - 0x38000000) / 4 + k) (beatWord data k)), false)
  else (s, true)

/-- A beat of an engine window in DMEM: two quads through the external access (R54). -/
def State.dmemBeat (s : State) (m a : Nat) (strb : BitVec 32) (data : BitVec 256) : State :=
  let e := (a - 0x20000000) / 0x80000
  let q := a % 0x80000 / 16
  s.each (upTo 2) (fun s i =>
    let st := strb.extractLsb' (16 * i) 16
    if st = 0 then s else s.extWrite m e (q + i) st (data.extractLsb' (128 * i) 128))

/-- The bundles of PMEM that a write beat changes, with their old contents for a fetch in the same cycle (R53). An
engine that runs nothing fetches nothing. -/
def State.noteOld (s : State) (a : Nat) (strb : BitVec 32) : State :=
  let e := (a - 0x20000000) / 0x80000
  let i := (a % 0x80000 - 0x40000) / 8
  let g := s.engAt e
  if g.runnable then
    let ks := (upTo 4).filter (fun k => strb.getLsbD (8 * k) &&
      !(g.pold.any (fun x => x.1 == s.now && x.2.1 == i + k)))
    s.setEng e { g with pold := g.pold ++ ks.map (fun k => (s.now, i + k, s.bundleAt e (i + k))) }
  else s

/-- A write beat at a memory target: its effect and whether the target answers with an error. Register
space is not reached here. A beat is one access for R186: each that touches a fenced unit is counted and logged by itself,
and changes nothing by itself. DESIGN CHOICE: assumption 97. -/
def State.memBeatWrite (s : State) (m a : Nat) (strb : BitVec 32) (data : BitVec 256) : State × Bool :=
  match s.fencedHit a strb with
  | some u => (s.fenceLog u m true, true)
  | none =>
    let put := { s with mem := (beatBytes a strb data).foldl (fun m x => putByte m x.1 x.2) s.mem }
    match targetOf a with
    | 12 | 15 | 13 => (s, true)
    | 8 => if 0x30200000 ≤ a then (s, true) else (put, false)
    | 9 => s.sinkBeat a strb data
    | 4 | 5 | 6 | 7 =>
      let o := a % 0x80000
      if o < 0x40000 then (s.dmemBeat m a strb data, false)
      else if o < 0x4C000 then
        (if wholeGroups 8 strb then ({ s.noteOld a strb with mem := put.mem }, false) else (s, true))
      else (s, true)
    | _ => (put, false)

/-- The words of the sink table in a beat (R160, R23). -/
def State.sinkRead (s : State) (a : Nat) : BitVec 256 :=
  BitVec.ofNat 256 (((upTo 8).map (fun k =>
    let i := (a - 0x38000000) / 4 + k
    (if sinkAllocated i then (s.sinkWritten i).toNat else 0) * 2 ^ (32 * k))).foldl (· + ·) 0)

/-- A read beat at a memory target: data, and whether the target answers with an error. A beat is one access for R186.
DESIGN CHOICE: assumption 97. -/
def State.memBeatRead (s : State) (m a : Nat) (strb : BitVec 32) : BitVec 256 × State × Bool :=
  match s.fencedHit a strb with
  | some u => (0, s.fenceLog u m false, true)
  | none =>
    match targetOf a with
    | 15 | 13 => (0, s, true)
    | 9 => (s.sinkRead a, s, false)
    | 4 | 5 | 6 | 7 =>
      let o := a % 0x80000
      if o < 0x40000 then
        let e := (a - 0x20000000) / 0x80000
        let q := o / 16
        let x := if strb.extractLsb' 0 16 = 0 then (0, s) else s.extRead m e q
        let y := if strb.extractLsb' 16 16 = 0 then (0, x.2) else x.2.extRead m e (q + 1)
        (y.1 ++ x.1, y.2, false)
      else if o < 0x4C000 then (s.beatAt a, s, false)
      else (0, s, true)
    | _ => (s.beatAt a, s, false)

/-- The beats that cover a run of bytes: block address, strobes, data (R191, R192). -/
def beatsOf (a : Nat) (bytes : List Byte) : List (Nat × BitVec 32 × BitVec 256) :=
  let lo := a / 32
  let hi := ceilDiv (a + bytes.length) 32
  (upTo (hi - lo)).map (fun k =>
    let b := (lo + k) * 32
    let ix := (upTo 32).filter (fun i => decide (a ≤ b + i ∧ b + i < a + bytes.length))
    (b, BitVec.ofNat 32 ((ix.map (fun i => 2 ^ i)).foldl (· + ·) 0),
     BitVec.ofNat 256 ((ix.map (fun i => (bytes.getD (b + i - a) 0).toNat * 2 ^ (8 * i))).foldl (· + ·) 0)))

/-- The first of causes 0x2 and 0x1 that keeps an access from its target (R200). -/
def State.denied (s : State) (m : Nat) (guest write : Bool) (lo hi : Nat) : Option Nat :=
  if !(s.permitted m guest write lo hi) then some 2
  else if targetOf lo = 15 || targetOf hi = 15 then some 1
  else none

/-- The transactions that move a run of bytes, as first address and length (R191): at most 16 beats, within a 4 KiB
page. -/
def runParts : Nat → Nat → Nat → List (Nat × Nat)
  | 0, _, _ => []
  | fuel + 1, a, n =>
    if n = 0 then []
    else
      let k := min n (min (4096 - a % 4096) (512 - a % 32))
      (a, k) :: runParts fuel (a + k) (n - k)

/-- The bytes of words, little-endian (R4). -/
def wordBytes (ws : List Word) : List Byte := ws.flatMap (fun w => leBytes 4 w.toNat)

/-- The words that little-endian bytes make. -/
def bytesWords : List Byte → List Word
  | a :: b :: c :: d :: rest => (d ++ c ++ b ++ a) :: bytesWords rest
  | _ => []

end Sys2Proof.Machine
end

