-- ==== Sys2Proof/Machine/Ports.lean ====
section
/-! DEFINITION. What the audio ports share: source blocks in the Patch Router (R14, R15, R20), the fade
of R234, time-stamps of block edges (R38, R231), and the rate converter channels (R249 to R251). -/

namespace Sys2Proof.Machine

/-- A block of samples; all silence is the empty list. -/
def normBlock (ws : List Word) : List Word := if ws.all (· == 0) then [] else ws

/-- Sample j of a block. -/
def sampleAt (ws : List Word) (j : Nat) : Word := ws.getD j 0

/-- A source's block becomes complete at its production point (R14, R15, R168). -/
def State.produce (s : State) (src : Nat) (ws : List Word) : State :=
  { s with router := { s.router with src := sset [] s.router.src src (normBlock ws) } }

/-- The `n` sources from `lo` deliver silence. -/
def State.hush (s : State) (lo n : Nat) : State :=
  { s with router := { s.router with src := s.router.src.filter (fun x => x.1 < lo || lo + n ≤ x.1) } }

/-- The latest complete block of a source. -/
def State.source (s : State) (src : Nat) : List Word := sget [] s.router.src src

/-- One sample of the fade of R117 and R234: a valid sample, or none. -/
def fadeStep (f : TapFade) (y : Option Word) : TapFade × Word :=
  match y with
  | some y =>
    let g := min (f.g + 1) 64
    (⟨g, y⟩, BitVec.ofInt 32 (roundHalfEven (y.toInt * g) 64))
  | none =>
    let g := f.g - 1
    (⟨g, f.v⟩, BitVec.ofInt 32 (roundHalfEven (f.v.toInt * g) 64))

/-- The fade over a block: the state after, the samples, and whether any was delivered below full gain. -/
def fadeBlock (f : TapFade) (ys : List (Option Word)) : TapFade × List Word × Bool :=
  ys.foldl (fun r y =>
    let x := fadeStep r.1 y
    (x.1, r.2.1 ++ [x.2], r.2.2 || decide (x.1.g < 64))) (f, [], false)

/-- The STC in whole nanoseconds of a sample edge, counted in sample periods (R292). -/
def edgeNs (fs n : Nat) : Nat := n * 1000000000 / fs

/-- Seconds and nanoseconds registers of a time in ns. -/
def secWord (ns : Int) : Word := BitVec.ofInt 32 (ns / 1000000000)
def nsWord (ns : Int) : Word := BitVec.ofInt 32 (ns % 1000000000)

/-- Whether received samples are taken and fades advance: not while the frame is stopped nor in its final block
(R41). -/
def State.taking (s : State) : Bool := s.frame.ticking && !s.frame.final

/-- Whether an offset of `off` ns is outside ±0.25 sample period (R227, R241). -/
def State.offWindow (s : State) (off : Int) : Bool := decide (1000000000 < 4 * off.natAbs * s.fs)

/-- A converter channel. -/
def State.srcCh (s : State) (c : Nat) : SrcCh := sget {} s.src c
def State.setSrcCh (s : State) (c : Nat) (x : SrcCh) : State := { s with src := sset {} s.src c x }

/-- The live channel that serves an input or output: kind, direction, index (R249). -/
def State.servedBy (s : State) (kind dir ix : Nat) : Option Nat :=
  (s.src.find? (fun x => bit x.2.live 31 && bits x.2.live 30 30 == dir && bits x.2.live 29 28 == kind &&
    bits x.2.live 9 0 == ix && !x.2.conflict)).map Prod.fst

/-- The source ID of an input assignment (R20, R249). -/
def srcInputId (live : Word) : Nat :=
  if bits live 29 28 = 0 then 0x400 + bits live 9 0 else 0x100 + bits live 9 0

/-- Where a channel delivers: the source ID of its input, or the sink index of its output (R249). -/
def srcOutId (live : Word) : Nat := if bit live 30 then 0x1300 + bits live 9 0 else srcInputId live

/-- A rate in hertz from a count of frames and their cycles, to the nearest. DEDUCED: assumption 44. -/
def hzOf (frames cycles : Nat) : Nat :=
  if cycles = 0 then 0 else (2 * frames * 1000000000 + cycles) / (2 * cycles)

/-- One more frame in the rate measurement of a channel, over 1,024 frames (R253, R254). -/
def SrcCh.tally (x : SrcCh) (cyc : Nat) : SrcCh :=
  let n := x.cnt + 1
  let c := x.cyc + cyc
  if n < 1024 then { x with cnt := n, cyc := c, hz := if x.full then x.hz else hzOf n c }
  else { x with cnt := 0, cyc := 0, full := true, hz := hzOf n c }

/-- Input samples that a channel keeps: as many as it acquires (R250, R251). DESIGN CHOICE: assumption 91. -/
def srcKeep : Nat := 4096

/-- An input sample is placed at its frame's start, `t` ns of the STC (R251). -/
def SrcCh.place (x : SrcCh) (t : Int) (y : Option Word) : SrcCh :=
  let ins := x.ins ++ (y.map (fun w => (t, w))).toList
  { x with ins := ins.drop (ins.length - srcKeep) }

/-- The STC in ns at engine cycle `c`, by the rate it has now (R251, R292). -/
def State.nsAt (s : State) (c : Int) : Int := ((s.stc : Int) + (c - s.now) * s.stcRate) / 1000000000000

/-- Whether `n` input frames in `cyc` engine cycles can be within the limits of R250: a count of whole cycles stands
for a time less than a cycle more or less. DEDUCED: assumption 109. -/
def State.ratioOk (s : State) (n cyc : Nat) : Bool :=
  decide (8000 * (cyc - 1) < n * 1000000000 ∧ n * 1000000000 < 216000 * (cyc + 1) ∧
    s.fs * (cyc - 1) < 4 * n * 1000000000 ∧ n * 1000000000 < 4 * s.fs * (cyc + 1))

/-- One more frame in the run of a channel's good frames, which starts again after 1,024 (R250): whether that frame and
the run with it are within the limits. -/
def State.srcRun (s : State) (x : SrcCh) (cyc : Nat) : Bool × SrcCh :=
  let n := x.runN + 1
  let c := x.runC + cyc
  if s.ratioOk 1 cyc && s.ratioOk n c then
    (true, if n < 1024 then { x with runN := n, runC := c } else { x with runN := 0, runC := 0 })
  else (false, { x with runN := 0, runC := 0 })

/-- SRC_UNLOCK (R250): a locked channel goes back to acquiring and its output fades out. -/
def State.srcUnlock (s : State) (c : Nat) : State :=
  let x := s.srcCh c
  if x.st = .locked then
    let s := s.setSrcCh c { x with st := .acquiring, good := 0, deliver := false, cnt := 0, cyc := 0, full := false,
                                   at_ := .none, runN := 0, runC := 0 }
    ((s.count SRC_UNLOCK_CNT).raise SRC_INT 2#32).wrB (SRC_LOCK (c / 32)) (c % 32) false
  else s.setSrcCh c { x with good := 0, at_ := .none, runN := 0, runC := 0 }

/-- An input frame of a converter channel: `cyc` engine cycles after the one before (R250), with its sample unless
it is discarded (R41, R251). The first, and the first after an input lock loss, starts now. -/
def State.srcInput (s : State) (c : Nat) (cyc : Nat) (y : Option Word) : State :=
  let x := s.srcCh c
  let t : Int := match x.at_ with
    | some a => a + cyc
    | none => s.now
  let x := if x.st = .idle then x else x.tally cyc
  let r := s.srcRun { x.place (s.nsAt t) y with at_ := some t } cyc
  let ok := r.1
  let x := r.2
  match x.st with
  | .idle => s.setSrcCh c { x with st := .acquiring, good := b2n ok, outRange := !ok, last := cyc }
  | .acquiring =>
    s.setSrcCh c { x with good := if ok then min (x.good + 1) 4096 else 0, outRange := !ok, last := cyc }
  | .locked =>
    let step := decide (x.last < 1000 * (cyc - x.last + (x.last - cyc)))
    let s := s.setSrcCh c { x with outRange := !ok, last := cyc }
    if ok && !step then s else s.srcUnlock c

/-- An input frame of the channel that serves an input, if any. -/
def State.srcFeed (s : State) (kind ix cyc : Nat) (y : Option Word) : State :=
  match s.servedBy kind 0 ix with
  | some c => s.srcInput c cyc y
  | none => s

/-- An input has lost lock: the channel that serves it unlocks (R250). -/
def State.srcLoss (s : State) (kind ix : Nat) : State :=
  match s.servedBy kind 0 ix with
  | some c => s.srcUnlock c
  | none => s

/-- SRC_LOCK (R250): 4,096 good input frames lock the channel. -/
def State.srcLockNow (s : State) (c : Nat) : State :=
  let x := s.srcCh c
  if x.st = .acquiring && decide (4096 ≤ x.good) then
    ((s.setSrcCh c { x with st := .locked }).raise SRC_INT 1#32).wrB (SRC_LOCK (c / 32)) (c % 32) true
  else s

/-- Whether the fades of the converters stand still: at the tick of a stop and at tick 0 of a run (R41). -/
def State.fadesHold (s : State) : Bool := s.rdB SYS_FRM_STAT 2 || s.frame.age == 1

/-- A block under a fade that does not advance (R41). -/
def fadeHeld (f : TapFade) (ys : List (Option Word)) : List Word :=
  ys.map (fun y => BitVec.ofInt 32 (roundHalfEven ((y.getD f.v).toInt * f.g) 64))

/-- The samples of a channel under the fade of R234: `n` values of its input, the first at engine-rate time
`start` / `den` less 32 engine-rate samples; or the fade-out once it has unlocked (R250, R251). -/
def State.srcOutput (s : State) (c n : Nat) (at_ : Nat → Int × Nat) : State × List Word :=
  let x := s.srcCh c
  let ys := (upTo n).map (fun j => if x.deliver then some (Config.bandLimited x.ins (at_ j).1 (at_ j).2) else none)
  let f := if s.fadesHold then (x.fade, fadeHeld x.fade ys, false) else fadeBlock x.fade ys
  (s.setSrcCh c { x with fade := f.1, out := if !x.deliver && f.1.g = 0 then 0 else x.out }, f.2.1)

/-- The serial-port slots that reach the converters: those of a running asynchronous port that its live receive
mask enables (R21, R228, R236). -/
def State.slotPasses (s : State) (id : Nat) : Bool :=
  let n := (id - 0x100) / 32
  let i := id % 32
  s.rdB (SAP_CTRL n) 2 && s.rdB (SAP_STAT n) 0 && decide (i ≤ s.rdF (SAP_FMT n) 8 4) && s.rdB (SAP_RXMASK_LIVE n) i

/-- The input channels' share of the tick at sample edge `edge`: each delivers or fades out a block at its
input's source, sample j of the capture block at its engine-rate frame start (R38, R250, R251); a serial-port slot
that carries no audio stays silent (R21, R230, R236). DEDUCED: assumption 44. -/
def State.srcBlocks (s : State) (edge : Nat) : State :=
  s.each (s.src.map Prod.fst) (fun s c =>
    let x := s.srcCh c
    let id := x.out - 1
    if x.out = 0 || decide (0x1000 ≤ id) then s
    else
      let r := s.srcOutput c s.blk (fun j => ((edge : Int) - s.blk - 3 + j - 32, s.fs))
      if decide (id < 0x400) && !(s.slotPasses id) then r.1 else r.1.produce id r.2)

/-- A serial-port slot that no longer passes gives its converter no input (R249): the channel unlocks (R250). -/
def State.srcUnfed (s : State) : State :=
  s.each (s.src.map Prod.fst) (fun s c =>
    let x := s.srcCh c
    if bit x.live 31 && !(bit x.live 30) && bits x.live 29 28 == 1 && x.st != .idle && !(s.slotPasses (srcInputId x.live))
    then s.srcUnlock c else s)

/-- SRC_COMMIT_APPLY (R249): the staged assignments become live; a changed one restarts from idle. -/
def State.srcApply (s : State) : State :=
  if s.rdB SRC_COMMIT 0 then
    let s := s.wr SRC_COMMIT 0
    let s := s.each (upTo 256) (fun s c =>
      let x := s.srcCh c
      let w := s.rd (SRC_CH c)
      if w = x.live then s
      else
        let s := s.wrB (SRC_LOCK (c / 32)) (c % 32) false
        s.setSrcCh c { live := w, out := x.out, fade := x.fade,
                       st := .idle })
    let live := s.src.filter (fun x => bit x.2.live 31)
    let clash := live.filter (fun x => live.any (fun y => y.1 < x.1 && y.2.live = x.2.live))
    let s := s.each (s.src.map Prod.fst) (fun s c =>
      let x := s.srcCh c
      let hit := clash.any (fun y => y.1 = c)
      let s := if hit && x.st = .locked then s.wrB (SRC_LOCK (c / 32)) (c % 32) false else s
      s.setSrcCh c { x with conflict := hit, st := if hit then .idle else x.st,
                            deliver := x.deliver && !hit, good := if hit then 0 else x.good })
    if clash.isEmpty then s else s.raise SRC_INT 4#32
  else s

/-- At step 8, a channel that has locked begins its output (R250). -/
def State.srcBegin (s : State) : State :=
  s.each (s.src.map Prod.fst) (fun s c =>
    let x := s.srcCh c
    let out := srcOutId x.live + 1
    if x.st = .locked && !x.deliver then
      s.setSrcCh c { x with deliver := true, out := out, fade := if x.out = out then x.fade else ⟨0, 0⟩ }
    else s)

/-- An output channel's input is the engine rate itself: its frames are the sink samples of the block that plays
from sample edge `edge` (R249, R250, R251). `rate` gives a transmitter's coded rate in hertz, 0 while it has none:
the channel then has no frames to convert. DEDUCED: assumption 44. -/
def State.srcOutFrames (s : State) (edge : Nat) (rate : Nat → Nat) : State :=
  s.each (s.src.map Prod.fst) (fun s c =>
    let x := s.srcCh c
    if bit x.live 31 && bit x.live 30 && !x.conflict then
      let hz := rate (bits x.live 9 0 / 2)
      let ok := decide (0 < hz ∧ s.fs ≤ 4 * hz ∧ hz ≤ 4 * s.fs)
      let ws := sget [] s.router.play (srcOutId x.live)
      let keep := (upTo s.blk).foldl (fun (x : SrcCh) j =>
        x.place ((edge + j) * 1000000000 / s.fs : Nat) (some (sampleAt ws j))) x
      let s := s.setSrcCh c { keep with hz := hz, outRange := x.outRange && decide (hz = 0) || (!ok && decide (0 < hz)),
                                        st := if x.st = .idle && decide (0 < hz) then .acquiring else x.st,
                                        good := if !ok || x.hz != hz && x.st != .idle then 0 else min (x.good + s.blk) 4096 }
      if x.st = .locked && (!ok || x.hz != hz) then s.srcUnlock c else s
    else s)

end Sys2Proof.Machine
end

