-- ==== Sys2Proof/Machine/Saffron.lean ====
section
/-! DEFINITION. Saffron and the System Time Counter (R292 to R312): steering, references, selection, the
history and holdover, and the STC's registers. -/

namespace Sys2Proof.Machine

/-- The steer's and slew's bound in ppt (R293). -/
def steerMax : Int := 500000000

/-- The peer's frequency against SYS_XI in ppt, from the TIME frames of a window (R299, R321). -/
def Dng.linkY (l : Dng) : Option Int := match l.mark, l.time with
  | some a, some b =>
    if a.2 < b.2 then some (roundHalfEven ((b.1 - a.1 - ((b.2 : Int) - a.2)) * 1000000000000) (b.2 - a.2)) else none
  | _, _ => none

/-- Bring a value within a bound. -/
def clampTo (b v : Int) : Int := if b < v then b else if v < -b then -b else v

/-- Move a value toward a target by at most a step. -/
def toward (v t : Int) (step : Nat) : Int := v + clampTo step (t - v)

/-- A signed register value; it saturates. -/
def satWord (v : Int) : Word := BitVec.ofInt 32 (clampBits 32 v)

/-- A priority-table entry: its configuration fields (R311). -/
def State.refSrc (s : State) (i : Nat) : Nat := s.rdF (SAF_REF_CFG i) 27 24
def State.refIx (s : State) (i : Nat) : Nat := s.rdF (SAF_REF_CFG i) 18 16
def State.refOn (s : State) (i : Nat) : Bool := s.rdB (SAF_REF_CFG i) 31
def State.refTol (s : State) (i : Nat) : Int := (s.rd (SAF_REF_TOL i)).toNat
def State.refState (s : State) (i : Nat) : Nat := s.rdF (SAF_REF_STAT i) 2 0
def State.setRefState (s : State) (i v : Nat) : State := s.wrF (SAF_REF_STAT i) 2 0 v
def State.safRef (s : State) (i : Nat) : SafRef := sget {} s.saf.refs i
def State.setSafRef (s : State) (i : Nat) (x : SafRef) : State :=
  { s with saf := { s.saf with refs := sset {} s.saf.refs i x } }
def State.ptpRep (s : State) (p : Nat) : PtpRep := sget {} s.saf.ptp p
def State.setPtpRep (s : State) (p : Nat) (x : PtpRep) : State :=
  { s with saf := { s.saf with ptp := sset {} s.saf.ptp p x } }

/-- QUAL or SOFT with a measurement of its own. -/
def State.refGood (s : State) (i : Nat) : Bool := s.refState i == 2 || s.refState i == 3
def State.refMeasured (s : State) (i : Nat) : Bool := decide (1 ≤ s.refSrc i ∧ s.refSrc i ≤ 5)

/-- Q of a PTP reference from clockClass and clockAccuracy (R298). -/
def ptpQ (cls acc : Nat) : Nat :=
  let q := match cls with
    | 6 => 1
    | 7 => 3
    | 52 | 58 | 187 | 193 => 8
    | 248 => 12
    | 255 => 15
    | _ => 10
  if 0x23 < acc then min (q + 1) 15 else q

/-- Q of an entry's reference (R298). -/
def State.refQ (s : State) (i : Nat) : Nat :=
  match s.refSrc i with
  | 1 => ptpQ (s.ptpRep (s.refIx i)).cls (s.ptpRep (s.refIx i)).acc
  | 2 | 4 => s.rdF (SAF_REF_CFG i) 3 0
  | 3 => (match s.rdF (AES_RX_STAT (s.refIx i)) 7 6 with
    | 1 => 2
    | 2 => 4
    | _ => 10)
  | 5 => s.rdF (DNG_L_STAT (s.refIx i)) 27 24
  | _ => 15

/-- LOS of an entry at a window end (R296). -/
def State.refLos (s : State) (i : Nat) : Bool :=
  match s.refSrc i with
  | 1 => (s.ptpRep (s.refIx i)).lost || decide ((s.ptpRep (s.refIx i)).last + 3000000000 ≤ s.now)
  | 3 => !(s.rdB (AES_RX_STAT (s.refIx i)) 0)
  | 5 => s.rdF (DNG_L_STAT (s.refIx i)) 1 0 != 2
  | 6 => false
  | _ => s.rdB (SAF_REF_STAT i) 3

/-- The temperature model f of R307 in units of 2⁻²⁸ ppt, at a temperature in 1/16 °C. -/
def State.tempF (s : State) (t : Int) : Int :=
  let k := t - sbits (s.rd SAF_TM_T0) 15 0
  (s.rd SAF_TM_C1).toInt * k * 2 ^ 24 + (s.rd SAF_TM_C2).toInt * k * k * 2 ^ 12 + (s.rd SAF_TM_C3).toInt * k * k * k

/-- The mean sensor temperature of the last window. -/
def State.safTemp (s : State) : Int := sbits (s.rd SAF_TEMP) 15 0

/-- f, and the holdover value, as R307 rounds them. -/
def State.freeValue (s : State) : Int := clampTo steerMax (roundHalfEven (s.tempF s.safTemp) (2 ^ 28))
def State.holdValue (s : State) : Int :=
  let h := (s.rd SAF_HIST).toInt * 2 ^ 28 + s.tempF s.safTemp
  let day : Nat := 86400 * 1000000000
  clampTo steerMax (roundHalfEven (h * day + (s.rd SAF_AGE).toInt * s.saf.hAge * 2 ^ 28) (2 ^ 28 * day))

/-- SAF_STAT's state and selection. -/
def State.safState (s : State) : Nat := s.rdF SAF_STAT 2 0
def State.setSafState (s : State) (v : Nat) : State := s.wrF SAF_STAT 2 0 v
def State.safSel (s : State) : Option Nat := if s.rdB SAF_STAT 7 then some (s.rdF SAF_STAT 6 4) else none

/-- Where s is to go. -/
def State.aim (s : State) (v : Int) : State := { s with saf := { s.saf with target := clampTo steerMax v } }

/-- Phase left to slew, and its register; it reads 0 only when nothing is left. -/
def State.setRem (s : State) (ps : Int) : State :=
  let ns := if 0 ≤ ps then (ps + 999) / 1000 else -((-ps + 999) / 1000)
  { s with saf := { s.saf with rem := ps } }.wr STC_REM (satWord ns)

/-- The slew in force (R292). -/
def State.setSlew (s : State) (p : Int) : State := { s with slew := p }.wrB STC_STAT 0 (p != 0)

/-- The steer in force (R292). -/
def State.setSteer (s : State) (v : Int) : State := { s with steer := v }.wr SAF_STEER (satWord v)

/-- STC_STEER_UPDATE (R292, R293): a microsecond ends; s moves toward its target and p slews what is left.
DEDUCED: assumption 41. -/
def State.steerUpdate (s : State) : State :=
  let s := s.advanceTo (s.saf.usAt + 1000)
  let us := s.saf.us
  let f := s.rdF SAF_SLEW 15 0
  let left := s.saf.rem - s.slew / 1000000
  let ended := s.slew != 0 && left == 0
  let s := s.setRem left
  let s := if ended then s.raise STC_INT 4#32 else s
  let v := toward s.steer s.saf.target ((us + 1) * f / 1000 - us * f / 1000)
  let v := clampTo steerMax v
  let q := clampTo (s.rdF SAF_SLEW 31 16) left
  let hi := (steerMax - v) / 1000000
  let lo := -((steerMax + v) / 1000000)
  let q := if hi < q then hi else if q < lo then lo else q
  let s := (s.setSteer v).setSlew (q * 1000000)
  { s with saf := { s.saf with us := (us + 1) % 1000, usAt := s.now } }

/-- The median of values, doubled: the middle one, or the mean of the middle two (R299). -/
def median2 (l : List Int) : Int :=
  let v := l.mergeSort (fun a b => decide (a ≤ b))
  v.getD ((v.length - 1) / 2) 0 + v.getD (v.length / 2) 0

/-- D_r doubled, from the measurements of a window (R299). DEDUCED: assumption 38. -/
def State.dev2 (s : State) (y : Nat → Int) (r : Nat) : Int :=
  let others := (upTo 8).filter (fun i => i != r && s.refGood i && s.refMeasured i)
  2 * y r - (if others.isEmpty then 2 * s.holdValue else median2 (others.map y))

/-- The least-squares slope of frequencies, newest first, in 2⁻⁸ ppt per second (R299). -/
def slope256 (ys : List Int) : Int :=
  let n := ys.length
  let us := ys.zipIdx.map (fun x => (x.1, (n : Int) - 1 - 2 * x.2))
  let den := us.foldl (fun (a : Int) x => a + x.2 * x.2) 0
  let num := us.foldl (fun (a : Int) x => a + x.1 * x.2) 0
  if den = 0 then 0 else roundHalfEven (512 * num) den.toNat

/-- The rate at which the edges of an edge source are expected, as a fraction of hertz (R296): ratio against the
engine rate, or den pulses in num sample periods. -/
def State.refRate (s : State) (i : Nat) : Nat × Nat :=
  if s.refSrc i = 4 then (s.fs * s.rdF SAF_VID_CFG 31 28, s.rdF SAF_VID_CFG 19 0)
  else match s.rdF (SAF_REF_CFG i) 13 12 with
    | 1 => (s.fs, 2)
    | 2 => (2 * s.fs, 1)
    | _ => (s.fs, 1)

/-- Entry r fails the window whatever its D: more than 1 % of the edges expected in its second discarded, a missing
PTP report or no two reports of one grandmaster yet, no two TIME frames, a rate more than 500 ppm off (R296, R297,
R308, R321). -/
def State.refFails (s : State) (y : Int) (r : Nat) : Bool :=
  let rep := s.ptpRep (s.refIx r)
  let q := s.refRate r
  match s.refSrc r with
  | 1 => !rep.seen || rep.y.isNone
  | 2 => decide (q.1 < 100 * (s.safRef r).disc * q.2 ∨ steerMax < y.natAbs)
  | 3 => decide (steerMax < y.natAbs)
  | 4 => decide (q.1 < 100 * (s.safRef r).disc * q.2)
  | 5 => ((s.link (s.refIx r)).linkY).isNone
  | _ => false

/-- The second case of R302. -/
def State.outvoted (s : State) (y : Nat → Int) (r : Nat) : Bool :=
  let tol := s.refTol r
  let bad := (upTo 8).filter (fun i => i != r && s.refGood i && s.refMeasured i && decide (tol < (y i - y r).natAbs))
  bad.any (fun i => bad.any (fun j => i != j && decide (2 * (y i - y j).natAbs ≤ tol)))

/-- The alarm of an entry in QUAL (R300). -/
def State.refAlarm (s0 : State) (y : Nat → Int) (i : Nat) : Bool :=
  s0.refFails (y i) i || !(s0.refMeasured i) || decide (s0.refTol i ≤ (s0.dev2 y i).natAbs)

/-- Entry into a state with the counts of R300. -/
def State.refQual (s : State) (i : Nat) : State := (s.setRefState i 2).raise SAF_INT 8#32
def State.refSoft (s : State) (i : Nat) : State :=
  (((s.setRefState i 3).count SAF_SOFT_CNT).raise SAF_INT 2#32).setSafRef i { s.safRef i with ok := 0 }
def State.refDisq (s : State) (i : Nat) : State := ((s.setRefState i 4).count SAF_DISQ_CNT).raise SAF_INT 4#32
def State.refWait (s : State) (i : Nat) : State :=
  (s.setRefState i 1).wrF (SAF_REF_STAT i) 31 16 (s.rdF (SAF_REF_TIME i) 25 16)

/-- The state of an entry at a window end (R300, R302), `good0` the entries good before it. -/
def State.refStep (s : State) (s0 : State) (y : Nat → Int) (i : Nat) : State :=
  if !(s.refOn i) then s.setRefState i 0
  else if s.refSrc i = 6 then if s.refState i = 2 then s else s.refQual i
  else
    let d2 := s0.dev2 y i
    let tol := s.refTol i
    let fails := s0.refFails (y i) i || !(s.refMeasured i)
    let inTol := !(s.rdB (SAF_REF_STAT i) 3) && !fails && decide (d2.natAbs ≤ tol)
    let run := if fails || decide (2 * tol < d2.natAbs) then satInc 8 (s.rdF (SAF_REF_STAT i) 15 8) else 0
    let n := s.rdF (SAF_REF_TIME i) 7 0
    let s := s.wrF (SAF_REF_STAT i) 15 8 run
    let alarm := s0.refAlarm y i
    match s.refState i with
    | 0 => s.refWait i
    | 1 =>
      if inTol then
        let left := s.rdF (SAF_REF_STAT i) 31 16 - 1
        let s := s.wrF (SAF_REF_STAT i) 31 16 left
        if left = 0 then s.refQual i else s
      else s.refWait i
    | 2 =>
      let s := if alarm then s.refSoft i else s
      if n ≤ run || s0.outvoted y i then s.refDisq i else s
    | 3 =>
      if n ≤ run || s0.outvoted y i then s.refDisq i
      else if alarm then s.setSafRef i { s.safRef i with ok := 0 }
      else
        let k := (s.safRef i).ok + 1
        let s := s.setSafRef i { s.safRef i with ok := k }
        if n ≤ k then s.setRefState i 2 else s
    | _ => if inTol then s.refWait i else s

/-- The registers of an entry's measurement (R299). -/
def State.refMeasure (s : State) (s0 : State) (y ph : Nat → Int) (i : Nat) : State :=
  let s := s.wrF (SAF_REF_STAT i) 7 4 (s.refQ i)
  if s.refOn i && s.refMeasured i then
    let x := s.safRef i
    let ys := (y i :: x.ys).take 16
    let s := s.setSafRef i { x with ys := ys, disc := 0 }
    let s := (s.wr (SAF_REF_FREQ i) (satWord (y i))).wr (SAF_REF_DEV i) (satWord (roundHalfEven (s0.dev2 y i) 2))
    (s.wr (SAF_REF_DRIFT i) (satWord (slope256 ys))).wr (SAF_REF_PHASE i) (satWord (ph i))
  else s

/-- Windows of the selected reference, the newest first, are included in the history (R299). DESIGN CHOICE:
assumption 39. -/
def State.histPut (s : State) (new : List Int) (age : Nat) : State :=
  if new.isEmpty then s
  else
    let l := (new ++ s.saf.hist).take (s.rdF SAF_HLEN 11 0)
    let s := { s with saf := { s.saf with hist := l, hAge := age } }
    let s := s.wr SAF_HIST (satWord (roundHalfEven (l.foldl (· + ·) 0) (2 ^ 28 * l.length)))
    if 16 ≤ l.length then s.wrB SAF_STAT 8 true else s

/-- The history of a window of the selected reference while LOCKED (R299, R301): while frozen it is kept apart.
DESIGN CHOICE: assumption 39. -/
def State.histStep (s : State) (h : Int) : State :=
  if s.rdB SAF_STAT 9 then { s with saf := { s.saf with pend := h :: s.saf.pend, pAge := 0 } } else s.histPut [h] 0

/-- Whether an entry may be selected (R298, R303). -/
def State.selectable (s : State) (i : Nat) : Bool :=
  s.refOn i && s.refGood i && decide (s.rdF (SAF_REF_STAT i) 7 4 ≤ s.rdF (SAF_REF_CFG i) 11 8)

/-- The selection of R303. -/
def State.selection (s : State) : Option Nat :=
  let first := (upTo 8).find? s.selectable
  match s.safSel with
  | some c =>
    if s.selectable c then
      some (((upTo c).find? (fun i => s.selectable i && s.refState i == 2 && s.rdB (SAF_REF_CFG i) 30)).getD c)
    else first
  | none => first

/-- Enter HOLDOVER, or FREERUN without a valid history (R304). -/
def State.toHoldover (s : State) : State :=
  let s := { s with saf := { s.saf with step := 0, near := 0 } }
  if s.rdB SAF_STAT 8 then
    let s := (s.setSafState 3).aim s.holdValue
    ((s.count SAF_HOLD_CNT).raise SAF_INT 0x10#32).wr SAF_HOLD_SEC 0
  else (s.setSafState 0).aim s.freeValue

/-- A switch starts (R305 step 1): p ends, and s moves toward the holdover value. -/
def State.startSwitch (s : State) : State :=
  let s := if s.safState = 1 ∨ s.safState = 2 then s.count SAF_SWITCH_CNT else s
  let s := ((s.setSafState 4).setRem 0).setSlew 0
  let s := s.aim s.holdValue
  { s with saf := { s.saf with step := 1, near := 0 } }

/-- An entry that Saffron can follow: an edge or PTP entry (R304). -/
def State.follows (s : State) (i : Option Nat) : Bool := match i with
  | some i => s.refMeasured i
  | none => false

/-- SAF_STAT.qual: the Q of the selected entry (R311). -/
def State.selQual (s : State) : State :=
  s.wrF SAF_STAT 15 12 ((s.safSel.map (fun i => s.rdF (SAF_REF_STAT i) 7 4)).getD 15)

/-- Whether SAF_CTRL forces the state (R304). -/
def State.forced (s : State) : Bool := s.rdB SAF_CTRL 0 || s.rdB SAF_CTRL 1

/-- REFERENCE_SELECT (R303, R304): select, and act on the selection unless the state is forced. -/
def State.refSelect (s : State) : State :=
  if s.safState = 4 then s
  else
    let old := s.safSel
    let new := s.selection
    let changed := new != old
    let s := ((s.wrB SAF_STAT 7 new.isSome).wrF SAF_STAT 6 4 (new.getD 0)).selQual
    let s := if changed then s.raise SAF_INT 1#32 else s
    if s.forced then s
    else if s.follows new then
      if s.safState = 0 || s.safState = 3 || changed then s.startSwitch else s
    else if s.safState = 1 || s.safState = 2 then s.toHoldover
    else s

/-- The forcing of SAF_CTRL (R304, R310). -/
def State.safForce (s : State) : State :=
  if s.rdB SAF_CTRL 1 then
    let s := { s with saf := { s.saf with step := 0, near := 0 } }
    (s.setSafState 0).aim s.freeValue
  else if s.rdB SAF_CTRL 0 then
    if s.safState = 3 then s else s.toHoldover
  else s

/-- The history is no longer frozen, and no window is kept apart. -/
def State.histThaw (s : State) : State :=
  { s with saf := { s.saf with pend := [], pAge := 0, frozen := none } }.wrB SAF_STAT 9 false

/-- The windows since a freeze go when the state reaches LOCKED on another entry (R301). -/
def State.histRelease (s : State) : State :=
  if s.rdB SAF_STAT 9 && s.saf.frozen != s.safSel then s.histThaw else s

/-- The ps by which the STC must move to pull a phase error to 0. A Dongo link's phase point is the peer minus
the local time; the others' are the local minus the reference's (R296, R321). DEDUCED: assumption 40. -/
def State.pull (s : State) (p : Int) : Int :=
  match s.safSel with
  | some i => if s.refSrc i = 5 then p * 1000 else -p * 1000
  | none => 0

/-- Saffron's state at a window end, after selection (R304, R305, R307), `ph` the phase errors and `y` the
frequencies measured: a switch that ran before the window end ends. `was` is the state when the window ended. -/
def State.safStep (s : State) (y ph : Nat → Int) (was : Nat) : State :=
  let p := (s.safSel.map ph).getD 0
  let th : Int := s.rdF SAF_LOCKTH 16 0
  let s := s.wr SAF_PHERR (satWord p)
  match s.safState with
  | 4 =>
    if s.saf.step = 2 then
      let s := ((s.setSafState 1).aim ((s.safSel.map y).getD 0)).setRem (s.pull p)
      { s with saf := { s.saf with step := 0, near := 0 } }
    else s
  | 1 | 2 =>
    let s := (s.aim (Config.servo (s.rdF SAF_CTRL 5 4) p ((s.safSel.map y).getD 0) s.steer)).setRem (s.pull p)
    if s.safState = 1 then
      let k := if p.natAbs ≤ th then s.saf.near + 1 else 0
      let s := { s with saf := { s.saf with near := k } }
      if 2 ≤ k then ((s.setSafState 2).raise SAF_INT 0x20#32).histRelease else s
    else if 4 * th < p.natAbs then
      { (s.setSafState 1).raise SAF_INT 0x40#32 with saf := { s.saf with near := 0 } }
    else s
  | 3 =>
    let s := s.aim s.holdValue
    if was = 3 then s.count SAF_HOLD_SEC else s
  | _ => s.aim s.freeValue

/-- The mean temperature of a window (R299). -/
def State.safTempStep (s : State) : State :=
  let f := s.saf
  let s := if f.tNum = 0 then s else s.wr SAF_TEMP (BitVec.ofNat 32 ((BitVec.ofInt 16 (roundHalfEven f.tSum f.tNum)).toNat))
  { s with saf := { s.saf with tSum := 0, tNum := 0, winAt := s.now } }

/-- The history's share of a window end (R299, R301): the frozen entry's return releases it with the windows since,
the selected entry's entry into SOFT freezes it, and while LOCKED the window has its value. `s0` is the state before the
entries were updated. -/
def State.safHist (s : State) (s0 : State) (y : Nat → Int) : State :=
  let s := match s.saf.frozen with
    | some k =>
      if s.rdB SAF_STAT 9 && s.refState k == 2 && s0.refState k != 2 then (s.histPut s.saf.pend s.saf.pAge).histThaw else s
    | none => s
  match s0.safSel with
  | none => s
  | some c =>
    let s := if s0.refState c == 2 && s0.refAlarm y c && !(s.rdB SAF_STAT 9) then
        { s with saf := { s.saf with frozen := some c, pend := [], pAge := 0 } }.wrB SAF_STAT 9 true
      else s
    if s0.safState = 2 then s.histStep (y c * 2 ^ 28 - s.tempF s.safTemp) else s

/-- Whether a LOS would be news of an entry. -/
def State.losNew (s : State) (i : Nat) : Bool := s.refOn i && s.refSrc i != 6 && !(s.rdB (SAF_REF_STAT i) 3)

/-- Whether an entry's loss calls for a selection: it was good, or a switch to it ends (R303, R306). -/
def State.losMatters (s : State) (i : Nat) : Bool := s.refGood i || (s.safState = 4 && s.safSel == some i)

/-- An entry loses its signal (R297, R300, R306). -/
def State.losMark (s : State) (i : Nat) : State :=
  if s.losNew i then
    let s := ((s.wrB (SAF_REF_STAT i) 3 true).raise SAF_INT 0x80#32).count SAF_LOS_CNT
    let s := if s.refState i = 4 then s else s.refDisq i
    if s.safState = 4 && s.safSel == some i then s.toHoldover else s
  else s

/-- Entries lose their signal at once outside a window end: one selection follows (R303). -/
def State.losAll (s : State) (is : List Nat) : State :=
  let u := s.each is (fun s i => s.losMark i)
  if is.any (fun i => s.losNew i && s.losMatters i) then u.refSelect else u

/-- REFERENCE_LOS (R297, R300, R306): an entry loses its signal. -/
def State.losOf (s : State) (i : Nat) : State := s.losAll [i]

/-- LOS of every entry that names a source (R296). -/
def State.losSource (s : State) (src ix : Nat) : State :=
  s.losAll ((upTo 8).filter (fun i => s.refSrc i = src && s.refIx i = ix))

/-- LOS that a window end finds comes before its updates and its one selection (R296, R300, R303, R310); a signal that is
there again is LOS no more. -/
def State.losScan (s : State) (i : Nat) : State :=
  if s.refOn i && s.refLos i then s.losMark i else s.wrB (SAF_REF_STAT i) 3 false

/-- The frequency of an entry over a window (R299): a PTP reference's from its reports (R308), a Dongo link's from
its TIME frames (R321), an edge source's as measured. -/
def State.refY (s : State) (meas : List Int) (i : Nat) : Int :=
  if s.refSrc i = 1 then (s.ptpRep (s.refIx i)).y.getD 0
  else if s.refSrc i = 5 then ((s.link (s.refIx i)).linkY).getD 0
  else meas.getD i 0

/-- The phase error of an entry at a window end (R296, R308, R321). -/
def State.refPhase (s : State) (i : Nat) : Int :=
  if s.refSrc i = 1 then (s.ptpRep (s.refIx i)).offset
  else if s.refSrc i = 5 then (s.link (s.refIx i)).phase
  else (s.safRef i).phase

/-- What begins with a new window: PTP reports and TIME frames are awaited anew (R308, R321). -/
def State.newWindow (s : State) : State :=
  let s := { s with saf := { s.saf with ptp := s.saf.ptp.map (fun (x : Nat × PtpRep) => (x.1, { x.2 with seen := false })) } }
  s.each (s.dng.map Prod.fst) (fun s n => s.setLink n { s.link n with mark := (s.link n).time })

/-- The end of a window (R299 to R307, R310): LOS first, then the entries, the history, the selection and the state. -/
def State.windowStep (s : State) (meas : List Int) : State :=
  let s := (s.advanceTo (s.saf.winAt + 1000000000)).safTempStep
  let s := { s with saf := { s.saf with hAge := s.saf.hAge + 1000000000, pAge := s.saf.pAge + 1000000000, step := min 2 (2 * s.saf.step) } }
  let was := s.safState
  let s := s.each (upTo 8) (fun s i => s.losScan i)
  let y := s.refY meas
  let ph := s.refPhase
  let s0 := s
  let s := s.each (upTo 8) (fun s i => (s.refStep s0 y i).refMeasure s0 y ph i)
  let s := (s.safHist s0 y).refSelect
  let s := if s.forced then s.safForce else s
  ((s.safStep y ph was).selQual).newWindow

/-- SAFFRON_WINDOW_END: no window ends in S2 to S4 (R371). -/
def State.windowEnd (s : State) (meas : List Int) : State := if s.asleep then s else s.windowStep meas

/-- The phase error in ns of an edge at STC time `t` against the nearest of every `m`-th sample edge (R296).
DESIGN CHOICE: assumption 90. -/
def State.edgePhase (s : State) (t : Int) (m : Nat) : Int :=
  let u : Int := m * stcSecond
  roundHalfEven ((t * s.fs + u / 2) % u - u / 2) (s.fs * 1000000000000)

/-- An edge of an entry's source at STC time `t` (R296): each, or the last of every second or of every den, is
compared, at ratio 0b01 with every second sample edge. -/
def State.refCompare (s : State) (i : Nat) (t : Int) : State :=
  let x := s.safRef i
  let ratio := s.rdF (SAF_REF_CFG i) 13 12
  let every := if s.refSrc i = 4 then s.rdF SAF_VID_CFG 31 28 else if ratio = 2 then 2 else 1
  if x.seen + 1 < every then s.setSafRef i { x with seen := x.seen + 1 }
  else s.setSafRef i { x with seen := 0, phase := s.edgePhase t (if ratio = 1 then 2 else 1) }

/-- The enabled entries that name a source. -/
def State.refsOf (s : State) (src ix : Nat) : List Nat :=
  (upTo 8).filter (fun i => s.refOn i && s.refSrc i = src && s.refIx i = ix)

/-- REFERENCE_INPUT_EDGE (R297): a pulse of `width` ns; its edge, `err` ns from where it was expected, fell
`ago` ns of STC before. -/
def State.refEdge (s : State) (video : Bool) (width : Nat) (err : Int) (ago : Nat) : State :=
  if width < (if video then 100 else 20) then s.count SAF_GLITCH_CNT
  else
    s.each (s.refsOf (if video then 4 else 2) 0) (fun s i =>
      let q := s.refRate i
      let s := s.wrB (SAF_REF_STAT i) 3 false
      if 1000000000 * q.2 < 20 * err.natAbs * q.1 then
        s.setSafRef i { s.safRef i with disc := (s.safRef i).disc + 1 }
      else s.refCompare i ((s.stc : Int) - ago * 1000000000000))

/-- An AES3 frame of a receiver, its start `off` ns from the nearest sample edge (R241, R296). -/
def State.refAes (s : State) (n : Nat) (off : Int) : State :=
  let edge := (2 * s.stc * s.fs / stcSecond + 1) / 2 * stcSecond / s.fs
  s.each (s.refsOf 3 n) (fun s i => s.refCompare i (edge + off * 1000000000000))

/-- The STC at the first sample edge after the present (R309). -/
def State.nextEdge (s : State) : Nat := ceilDiv ((s.stc * s.fs / stcSecond + 1) * stcSecond) s.fs

/-- The clock outputs' settings at a step of the STC: one in force stays, one that waits for a sample edge waits
for the next after the step (R309). -/
def State.clkStep (s : State) (was : Nat) : State :=
  { s with saf := { s.saf with clk := s.saf.clk.map (fun (x : Nat × (Word × Word × Nat)) =>
      (x.1, if x.2.2.2 ≤ was then (x.2.2.1, x.2.2.1, 0) else (x.2.1, x.2.2.1, s.nextEdge))) } }

/-- Load the STC (R294): the offsets from grandmasters move with it, as does the time of their reports, so that a step is
not slewed again. DEDUCED: assumption 120. -/
def State.setStc (s : State) (t : Nat) : State :=
  let t : Nat := t % (2 ^ 48 * stcSecond)
  let d : Int := (t : Int) - s.stc
  let move := fun (x : PtpRep) => { x with offset := x.offset + d / 1000000000000, stcAt := x.stcAt.map (fun u => (u + d).toNat) }
  let saf := { s.saf with ptp := s.saf.ptp.map (fun (x : Nat × PtpRep) => (x.1, move x.2)) }
  (State.clkStep { s with stc := t, saf := saf } s.stc).raise STC_INT 2#32

/-- Seconds and nanoseconds of a set of three registers as an STC value. -/
def State.stcRegs (s : State) (h l n : Reg) : Nat := stcOf (s.rdF h 15 0 * 2 ^ 32 + (s.rd l).toNat) (s.rdF n 29 0)

/-- The grandmaster's frequency against SYS_XI in ppt (R299, R308), from two offsets of the STC from it and the STC's
own advance between them; a report of another grandmaster leaves it. DESIGN CHOICE: assumption 39. -/
def State.ptpY (s : State) (p : Nat) (offset : Int) (cls acc : Nat) : Option Int :=
  let x := s.ptpRep p
  match x.stcAt with
  | some t =>
    let d : Int := (s.stc : Int) - t - (offset - x.offset) * 1000000000000 - ((s.now : Int) - x.last) * 1000000000000
    if x.cls = cls && x.acc = acc && decide (x.last < s.now) then some (roundHalfEven d (s.now - x.last)) else x.y
  | none => x.y

/-- The port's offset is reported (R290, R294, R308): a report of another grandmaster steps nothing. -/
def State.ptpReport (s : State) (p : Nat) (offset : Int) (cls acc : Nat) : State :=
  let x := s.ptpRep p
  let same := x.stcAt.isNone || (x.cls = cls && x.acc = acc)
  let s := s.setPtpRep p { seen := true, last := s.now, offset := offset, cls := cls, acc := acc, lost := false,
                           stcAt := some s.stc, y := s.ptpY p offset cls acc }
  match s.safSel with
  | some i =>
    if same && s.refSrc i = 1 && s.refIx i = p && s.rdB STC_CTRL 0 && !s.running && decide (1000000 < offset.natAbs) then
      s.setStc ((s.stc : Int) - offset * 1000000000000).toNat
    else s
  | none => s

/-- The port's reference is reported lost (R290). -/
def State.ptpLost (s : State) (p : Nat) : State := (s.setPtpRep p { s.ptpRep p with lost := true }).losSource 1 p

/-- STC_SET (R294): apply is rejected while the frame runs. -/
def State.stcApply (s : State) (r : Req) : State :=
  if s.running then s.reject r (BitVec.ofNat 32 STC_SET_CTRL.addr) 1#32
  else s.setStc (s.stcRegs STC_SET_SECH STC_SET_SECL STC_SET_NS)

/-- STC_SNAP (R312). -/
def State.stcSnapNow (s : State) : State :=
  let s := s.wr STC_SNAP_SECH (BitVec.ofNat 32 (stcSec s.stc / 2 ^ 32))
  let s := s.wr STC_SNAP_SECL (BitVec.ofNat 32 (stcSec s.stc))
  (s.wr STC_SNAP_NS (BitVec.ofNat 32 (stcNs s.stc))).wr STC_SNAP_FRAC (BitVec.ofNat 32 (stcFrac s.stc))

/-- A written clock-output setting: it holds from the next sample edge (R309). -/
def State.clkWrite (s : State) (k : Nat) (w : Word) : State :=
  let x := sget (0, 0, 0) s.saf.clk k
  { s with saf := { s.saf with clk := sset (0, 0, 0) s.saf.clk k (if x.2.2 ≤ s.stc then x.2.1 else x.1, w, s.nextEdge) } }

/-- The setting of a clock output in force: 0 WCLK_OUT, 1 + m MCLKm. -/
def State.clkNow (s : State) (k : Nat) : Word :=
  let x := sget (0, 0, 0) s.saf.clk k
  if x.2.2 ≤ s.stc then x.2.1 else x.1

/-- The level of a clock output (R309, R329): WCLK_OUT is high in the first half of a sample period, MCLKm
in the first half of each of its periods; in S2 to S4 no clock runs (R371, R392). -/
def State.clkLevel (s : State) (k : Nat) : Bool :=
  let w := s.clkNow k
  let f := if k = 0 then s.fs else s.fs * 128 * 2 ^ bits w 1 0
  !(s.gatedOut 4) && !s.asleep && bit w (if k = 0 then 8 else 4) && decide (2 * (s.stc * f % stcSecond) < stcSecond)

def execStcSteerUpdate (s : State) : Out := done s.steerUpdate
def execSaffronWindowEnd (meas : List Int) (s : State) : Out := done (s.windowEnd meas)
def execReferenceLos (i : Fin 8) (s : State) : Out := done (s.losOf i)
def execStcSet (r : Req) (s : State) : Out := done (s.gated r STC_SET_CTRL 1#32 (fun s => s.stcApply r))
def execStcSnap (r : Req) (s : State) : Out := done (s.gated r STC_SNAP 1#32 (fun s => s.stcSnapNow))
def execReferenceInputEdge (video : Bool) (width : Nat) (err : Int) (ago : Nat) (s : State) : Out :=
  done (s.refEdge video width err ago)

end Sys2Proof.Machine
end

