-- ==== Sys2Proof/Machine/SerialAudio.lean ====
section
/-! DEFINITION. Serial audio ports (R222 to R239). -/

namespace Sys2Proof.Machine

/-- A serial audio port's hidden state. -/
def State.sap (s : State) (n : Nat) : Sap := sget {} s.saps n
def State.setSap (s : State) (n : Nat) (p : Sap) : State := { s with saps := sset {} s.saps n p }
def State.updSap (s : State) (n : Nat) (f : Sap → Sap) : State := s.setSap n (f (s.sap n))

/-- Slots per frame and bits per slot of a format (R223, R239). -/
def fmtSlots (fmt : Word) : Nat := bits fmt 8 4 + 1
def fmtBits (fmt : Word) : Nat := match bits fmt 3 2 with
  | 0 => 16
  | 1 => 20
  | 2 => 24
  | _ => 32

/-- The BCLK period after the WS edge of a frame start in which slot 0's first bit stands (R223). -/
def fmtDelay (fmt : Word) : Nat := match bits fmt 1 0 with
  | 0 => 1
  | 1 => 0
  | _ => b2n (bit fmt 11)

/-- The level of WS in BCLK period `p` of a frame (R223). -/
def fmtWs (fmt : Word) (p : Nat) : Bool := match bits fmt 1 0 with
  | 0 => decide (fmtBits fmt ≤ p)
  | 1 => decide (p < fmtBits fmt)
  | _ => decide (p < (if bit fmt 9 then fmtBits fmt else 1)) != bit fmt 10

/-- The level of SDI in each BCLK period: sampled on the rising edge, or on the falling one with bclk_inv (R223). -/
def sdiBits (fmt : Word) (f : SapFrame) : List Bool := if bit fmt 12 then f.fall else f.rise

/-- A word from its bits, MSB first, the rest 0 (R225). -/
def msbWord (bs : List Bool) : Word := BitVec.ofNat 32 (bs.foldl (fun v b => 2 * v + b2n b) 0 * 2 ^ (32 - bs.length))

/-- The word of slot `i` of a received frame: S bits, MSB first (R223, R225). -/
def sdiSlot (fmt : Word) (f : SapFrame) (i : Nat) : Word :=
  msbWord ((upTo (fmtBits fmt)).map (fun k => (sdiBits fmt f).getD (fmtDelay fmt + i * fmtBits fmt + k) false))

/-- Whether a format is valid at an engine rate code (R224). -/
def fmtValid (fmt : Word) (async : Bool) (rate : Nat) : Bool :=
  let n := fmtSlots fmt
  let f := if async then 216000 else rateHz rate
  decide (2 ≤ n) && (decide (rate < 2) || decide (n ≤ 16)) && decide (f * n * fmtBits fmt ≤ 49152000)

/-- Mode of a port (R222). -/
def State.sapMaster (s : State) (n : Nat) : Bool := s.rdB (SAP_CTRL n) 1
def State.sapAsync (s : State) (n : Nat) : Bool := s.rdB (SAP_CTRL n) 2
def State.sapSlots (s : State) (n : Nat) : Nat := min (fmtSlots (s.rd (SAP_FMT n))) 32
def State.sapRunning (s : State) (n : Nat) : Bool := s.rdB (SAP_STAT n) 0
def State.sapLocked (s : State) (n : Nat) : Bool := s.rdB (SAP_STAT n) 1
def State.sapLost (s : State) (n : Nat) : Bool := s.rdB (SAP_STAT n) 2

/-- Whether a port is to run: its en bit, or its group's state if the group's last start found it a member (R224,
R236). -/
def State.sapWanted (s : State) (n : Nat) : Bool :=
  match s.rdF (SAP_CTRL n) 10 8 with
  | 0 => s.rdB (SAP_CTRL n) 0
  | g + 1 => s.rdB SAP_GRP_STAT g && (s.sap n).joined

/-- Whether a port counts as enabled for R224: to run now, or once a pending group start applies. -/
def State.sapEnabled (s : State) (n : Nat) : Bool :=
  s.sapWanted n || (match s.rdF (SAP_CTRL n) 10 8 with
    | 0 => false
    | g + 1 => s.rdB SAP_GRP_CTRL g)

/-- The slots of a live mask that carry audio, ascending (R229, R230). -/
def maskSlots (mask : Word) (n : Nat) : List Nat := (upTo n).filter (fun i => bit mask i)

/-- Bytes of a ring entry (R232). -/
def State.ringStride (s : State) : Nat := 32 + 128 * s.blk

/-- Whether a ring lies in the Sample Pool (R232). -/
def State.ringFits (s : State) (off nblk : Nat) : Bool := decide (off + nblk * s.ringStride ≤ 2 ^ 25)

/-- A port changes between master and slave mode (R237, R239): a master is locked while it runs and has lost no clock,
a slave counts its 16 frames from here. DESIGN CHOICE: assumption 108. -/
def State.sapTurn (s : State) (n : Nat) (master : Bool) : State :=
  (s.upd (SAP_STAT n) (fun w =>
    let w := setBit w 1 (master && bit w 0)
    if master then setBit w 2 false else w)).updSap n (fun p => { p with good := 0, bad := 0, resume := !master && p.resume })

/-- SAPn_CTRL written (R222, R224, R228, R232, R238, R239). -/
def State.sapCtrlWrite (s : State) (q : Req) (n : Nat) (data : Word) : State :=
  let d := data &&& 0x73F#32
  let grp := bits d 10 8
  let async := bit d 2
  let fmt := s.rd (SAP_FMT n)
  let moved := grp != s.rdF (SAP_CTRL n) 10 8
  let willRun := if grp = 0 then bit d 0 else (!moved && s.sapWanted n) || s.rdB SAP_GRP_CTRL (grp - 1)
  let bad := decide (4 < grp) || (bit d 1 && async) || (async && (grp != 0 || bit d 4 || bit d 3)) ||
    (bit d 4 && !(s.ringFits (s.rdF (SAP_RXRING n) 24 4 * 16) (s.rdF (SAP_RINGCFG n) 6 0))) ||
    (bit d 3 && !(s.ringFits (s.rdF (SAP_TXRING n) 24 4 * 16) (s.rdF (SAP_RINGCFG n) 14 8))) ||
    (s.sapRunning n && moved) ||
    (willRun && !(fmtValid fmt async (s.rdF SYS_FRM_CTRL 1 0)))
  if bad then s.reject q (BitVec.ofNat 32 (SAP_CTRL n).addr) data
  else
    let s := if bit d 1 != s.sapMaster n then s.sapTurn n (bit d 1) else s
    let s := if moved then s.updSap n (fun p => { p with joined := false }) else s
    s.wr (SAP_CTRL n) d

/-- SAPn_FMT written (R224, R239). -/
def State.sapFmtWrite (s : State) (q : Req) (n : Nat) (data : Word) : State :=
  let d := data &&& 0x1FFF#32
  let bad := bits d 1 0 = 3 || (bits d 1 0 != 2 && bits d 8 4 != 1) ||
    (s.sapEnabled n && !(fmtValid d (s.sapAsync n) (s.rdF SYS_FRM_CTRL 1 0)))
  if bad then s.reject q (BitVec.ofNat 32 (SAP_FMT n).addr) data else s.wr (SAP_FMT n) d

/-- SAPn_RXRING or SAPn_TXRING written (R239). -/
def State.sapRingReg (s : State) (q : Req) (n : Nat) (rx : Bool) (data : Word) : State :=
  let r := if rx then SAP_RXRING n else SAP_TXRING n
  if s.rdB (SAP_CTRL n) (if rx then 4 else 3) then s.reject q (BitVec.ofNat 32 r.addr) data
  else s.wr r (data &&& 0x01FFFFF0#32)

/-- SAPn_RINGCFG written (R239). -/
def State.sapRingCfg (s : State) (q : Req) (n : Nat) (data : Word) : State :=
  let ok := fun v : Nat => decide (2 ≤ v ∧ v ≤ 64)
  if ok (bits data 6 0) && ok (bits data 14 8) then s.wr (SAP_RINGCFG n) (data &&& 0x7F7F#32)
  else s.reject q (BitVec.ofNat 32 (SAP_RINGCFG n).addr) data

/-- SAPn_COMMIT written (R229). -/
def State.sapCommit (s : State) (n : Nat) (data : Word) : State :=
  if bit data 0 then (s.wr (SAP_COMMIT n) 1#32).wrB (SAP_STAT n) 3 true else s

/-- SAP_GRP_CTRL written (R224, R236). -/
def State.sapGrpWrite (s : State) (q : Req) (data : Word) : State :=
  let rate := s.rdF SYS_FRM_CTRL 1 0
  let bad := (upTo 24).any (fun n =>
    match s.rdF (SAP_CTRL n) 10 8 with
    | 0 => false
    | g + 1 => bit data g && !(fmtValid (s.rd (SAP_FMT n)) (s.sapAsync n) rate))
  if bad then s.reject q (BitVec.ofNat 32 SAP_GRP_CTRL.addr) data
  else s.upd SAP_GRP_CTRL (fun w => w ||| (data &&& 0xFF#32))

/-- The latest three frames captured, which the next capture window takes (R38). -/
def lastThree (cap : List SapCap) : List SapCap :=
  let c := cap.drop (cap.length - 3)
  List.replicate (3 - c.length) ({} : SapCap) ++ c

/-- Sample 0 of the block that plays goes out in a frame that starts `offset` ns from its nominal time: the block's
descriptor and stamps are the port's latest (R231). -/
def State.sapTxTurn (s : State) (n : Nat) (offset : Int) : State :=
  let p := s.sap n
  if p.txWait.isEmpty then s
  else
    let ns := p.txNs + offset
    let s := s.setSap n { p with
      txPrev := p.txDesc, txWait := [], txDesc := (p.txWait.set 1 (secWord ns)).set 2 (nsWord ns) }
    (s.wr (SAP_TXTS_SEC n) (secWord ns)).wr (SAP_TXTS_NS n) (nsWord ns)

/-- A port stops (R236): a master's locked bit falls with its clocks. -/
def State.sapStop (s : State) (n : Nat) : State :=
  let s := (s.sapTxTurn n (s.sap n).offset).wrB (SAP_STAT n) 0 false
  let s := if s.sapMaster n then s.wrB (SAP_STAT n) 1 false else s
  s.updSap n (fun p => { p with cap := lastThree p.cap, fade := [], fetched := .none, under := false, txRamp := false })

/-- PORT_RATE_DROP for the serial ports (R224): a port enabled with a format that the rate now makes
invalid is disabled at the same write. -/
def State.sapRateDrop (s : State) (rate : Nat) : State :=
  s.each (upTo 24) (fun s n =>
    if s.sapEnabled n && !(fmtValid (s.rd (SAP_FMT n)) (s.sapAsync n) rate) then
      let s := (s.upd (SAP_CTRL n) (fun w => setBits (setBit w 0 false) 10 8 0)).raise (SAP_INT n) 0x40#32
      (if s.sapRunning n then s.sapStop n else s).updSap n (fun p => { p with joined := false })
    else s)

/-- Clock loss of a slave port (R237): samples are invalid from here on. -/
def State.sapLoss (s : State) (n : Nat) : State :=
  if s.sapMaster n || s.sapLost n then s
  else
    let s := ((s.count (SAP_CLKLOSS_CNT n)).raise (SAP_INT n) 1#32).upd (SAP_STAT n)
      (fun w => setBit (setBit w 2 true) 1 false)
    let s := s.wr (SAP_RATE n) 0
    let s := s.updSap n (fun p => { p with good := 0, bad := 0, resume := false, frames := 0, cycles := 0 })
    if s.sapAsync n then s.each (upTo 32) (fun s i => s.srcLoss 1 (32 * n + i)) else s

/-- The bits of a sample that a slot of S bits carries (R225). -/
def slotWord (sbits : Nat) (w : Word) : Word := w >>> (32 - sbits) <<< (32 - sbits)

/-- A frame is kept for the block now captured, with the slip of a frame dropped before it (R231, R237). -/
def Sap.push (p : Sap) (f : SapCap) : Sap :=
  { p with cap := p.cap ++ [{ f with slip := f.slip || p.slip }], slip := false }

/-- The rate measurement of an asynchronous port over 1,024 frames (R228). -/
def State.sapRate (s : State) (n : Nat) (elapsed : Nat) : State :=
  let p := s.sap n
  if p.frames + 1 < 1024 then
    s.setSap n { p with frames := p.frames + 1, cycles := p.cycles + elapsed }
  else
    let s := s.setSap n { p with frames := 0, cycles := 0 }
    s.wrF (SAP_RATE n) 17 0 (min (hzOf 1024 (p.cycles + elapsed)) (2 ^ 18 - 1))

/-- One more good frame (R237): the sixteenth locks the port, and a relock after clock loss is raised. -/
def State.sapGood (s : State) (n : Nat) : State :=
  let p := s.sap n
  let s := s.setSap n { p with good := min (p.good + 1) 16, bad := 0 }
  if 15 ≤ p.good && !(s.sapLocked n) then
    let s := s.wrB (SAP_STAT n) 1 true
    if s.sapLost n then
      ((s.wrB (SAP_STAT n) 2 false).raise (SAP_INT n) 2#32).updSap n (fun p => { p with resume := true })
    else s
  else s

/-- The frame checks of a slave port (R237). -/
def State.sapCheck (s : State) (n : Nat) (f : SapFrame) : State :=
  let fmt := s.rd (SAP_FMT n)
  let ferr := decide (f.bclks ≠ fmtSlots fmt * fmtBits fmt)
  let slip := !(s.sapAsync n) && s.offWindow f.offset
  let s := if slip then (s.count (SAP_SLIP_CNT n)).raise (SAP_INT n) 4#32 else s
  let s := if ferr then (s.count (SAP_FERR_CNT n)).raise (SAP_INT n) 8#32 else s
  if !ferr && !slip then s.sapGood n
  else
    let s := s.updSap n (fun p => { p with good := 0, bad := if ferr then p.bad + 1 else 0 })
    if 4 ≤ (s.sap n).bad then s.sapLoss n else s

/-- The frame check of a master port on its own pins (R237). -/
def State.sapCheckMaster (s : State) (n : Nat) (f : SapFrame) : State :=
  let fmt := s.rd (SAP_FMT n)
  if f.bclks = fmtSlots fmt * fmtBits fmt then s
  else (s.count (SAP_FERR_CNT n)).raise (SAP_INT n) 8#32

/-- A frame error or slip of the block that plays, in its descriptor (R231). -/
def markDesc (desc : List Word) (slip ferr : Bool) : List Word :=
  if desc.isEmpty then desc
  else desc.set 4 (desc.getD 4 0 ||| BitVec.ofNat 32 (b2n slip * 8 + b2n ferr * 4))

/-- The slots of a frame of a running asynchronous port go to the converters, each under its fade (R228, R234,
R249). -/
def State.sapFeed (s : State) (n elapsed : Nat) (words : List Word) : State :=
  s.each ((upTo (s.sapSlots n)).filter (fun i => s.slotPasses (0x100 + 32 * n + i))) (fun s i =>
    let f := fadeStep (sget {} (s.sap n).fade i) (if (s.sap n).resume then none else some (words.getD i 0))
    if s.taking then
      (s.updSap n (fun p => { p with fade := sset {} p.fade i f.1 })).srcFeed 1 (32 * n + i) elapsed (some f.2)
    else s.srcFeed 1 (32 * n + i) elapsed none)

/-- What a frame at the pins of a running port is to its transmit side (R38, R231, R237): the frames begun in the three
sample periods after a tick still carry the block before; the fourth is sample 0 of the block that plays. `adv` is
how many samples the frame moves on. -/
def State.sapTxFrame (s : State) (n : Nat) (offset : Int) (slip ferr : Bool) (adv : Nat) : State :=
  let s := if 3 ≤ (s.sap n).txPos then s.sapTxTurn n offset else s
  s.updSap n (fun p =>
    let p := if p.txWait.isEmpty && decide (p.txPos < 3) then { p with txPrev := markDesc p.txPrev slip ferr }
      else { p with txDesc := markDesc p.txDesc slip ferr }
    { p with
      txPos := p.txPos + adv
      skew := p.skew + ((p.txPos + adv - max p.txPos 3 : Nat) : Int) - b2n (decide (3 ≤ p.txPos)) })

/-- SAP_FRAME (R223, R225, R237): a received frame is checked and captured. A frame error repeats the previous
frame. On a slip a frame that came early is dropped and a transmit frame is sent again; one that came late is
repeated and a transmit frame is dropped. -/
def State.sapFrame (s : State) (n : Nat) (f : SapFrame) : State :=
  let fmt := s.rd (SAP_FMT n)
  let master := s.sapMaster n
  if master && !(s.sapRunning n) then s
  else
    let ferr := decide (f.bclks ≠ fmtSlots fmt * fmtBits fmt)
    let s := if master then s.sapCheckMaster n f else s.sapCheck n f
    let p := s.sap n
    let words := if ferr then p.prev else (upTo (s.sapSlots n)).map (sdiSlot fmt f)
    if s.sapAsync n then
      let s := (s.setSap n { p with prev := words }).sapRate n f.elapsed
      if s.sapLocked n then s.sapFeed n f.elapsed words else s.wr (SAP_RATE n) 0
    else
      let s := if master then s else s.wrF (SAP_PHASE n) 15 0 (f.offset % 65536).toNat
      let slip := !master && s.offWindow f.offset
      let early := slip && decide (f.offset < 0)
      let off := if master then 0 else f.offset
      let x := if !master && (s.sapLost n || p.resume) then none else some words
      let p := { p with prev := words, offset := off }
      let p := if early then { p with slip := true }
        else if slip then (p.push ⟨x, off, ferr, true⟩).push ⟨x, off, false, false⟩
        else p.push ⟨x, off, ferr, false⟩
      let s := s.setSap n (if s.frame.ticking && s.sapRunning n then p
        else { p with cap := p.cap.drop (p.cap.length - 3) })
      if s.sapRunning n then s.sapTxFrame n off slip ferr (if early then 0 else if slip then 2 else 1) else s

/-- A block descriptor (R231). -/
def descriptor (block : Word) (ns : Int) (mask : Word) (B nact : Nat) (ramp slip ferr : Bool) : List Word :=
  [block, secWord ns, nsWord ns, mask,
   BitVec.ofNat 32 (B * 2 ^ 16 + nact * 2 ^ 8 + b2n ramp * 16 + b2n slip * 8 + b2n ferr * 4), 0, 0, 0]

/-- The words of a packed block: sample-major over the active slots (R230). -/
def packBlock (B : Nat) (cols : List (List Word)) : List Word :=
  (upTo B).flatMap (fun j => cols.map (fun c => sampleAt c j))

/-- The first sample edge of the block a tick at `edge` opens, as a capture window: three sample periods
before the tick (R38). -/
def State.stampNs (s : State) (edge : Int) (offset : Int) : Int := edge * 1000000000 / (s.fs : Int) + offset

/-- The samples of a receive slot in a captured block: none where invalid. A frame that no command brought
is silence on a master port, and invalid on a slave port. DEDUCED: assumption 43. -/
def slotSamples (master : Bool) (blk : List SapCap) (i : Nat) : List (Option Word) :=
  blk.map (fun f => match f.words with
    | some ws => some (ws.getD i 0)
    | none => if master then some 0 else none)

/-- The slots of a port's mask as a word, bits at or above N cleared (R231). -/
def slotMask (slots : List Nat) : Word := BitVec.ofNat 32 ((slots.map (fun i => 2 ^ i)).foldl (· + ·) 0)

/-- A port's share of tick m: receive block m − 1 becomes source data, with its descriptor, stamps and
ring copy (R229 to R234, R236). `edge` is the sample edge of the tick. -/
def State.sapReceive (s : State) (n : Nat) (edge : Nat) : State :=
  let p := s.sap n
  let B := s.blk
  let k := (s.blockNo + 2 ^ 32 - 1) % 2 ^ 32
  let slots := maskSlots p.capMask (s.sapSlots n)
  let master := s.sapMaster n
  let cap := p.cap ++ List.replicate (B + 3 - p.cap.length) ({} : SapCap)
  let blk := cap.take B
  let cols := slots.map (fun i =>
    let ys := slotSamples master blk i
    if p.fresh then (i, sget {} p.fade i, List.replicate B 0, false)
    else if master then (i, sget {} p.fade i, ys.map (fun y => y.getD 0), false)
    else (i, fadeBlock (sget {} p.fade i) ys))
  let s := s.hush (0x100 + 32 * n) 32
  let s := s.each cols (fun s c => s.produce (0x100 + 32 * n + c.1) c.2.2.1)
  let ns := s.stampNs ((edge : Int) - B - 3) (match blk with | f :: _ => f.offset | [] => 0)
  let desc := descriptor (BitVec.ofNat 32 k) ns (slotMask slots) B slots.length (cols.any (fun c => c.2.2.2))
    (blk.any SapCap.slip) (blk.any SapCap.ferr)
  let ring := if s.rdB (SAP_CTRL n) 4 then
      p.ring ++ [(k, wordBytes (desc ++ packBlock B (cols.map (fun c => c.2.2.1))))] else p.ring
  let s := (s.wr (SAP_RXTS_SEC n) (secWord ns)).wr (SAP_RXTS_NS n) (nsWord ns)
  s.setSap n { p with
    cap := lastThree (cap.drop B), fresh := false, ring := ring, rxDesc := desc,
    fade := cols.foldl (fun l c => sset {} l c.1 c.2.1) p.fade }

/-- SAP_RING_ABANDON (R233): a copy of block k not finished by tick k+3 is dropped. -/
def State.sapRingAbandon (s : State) (n : Nat) : State :=
  let p := s.sap n
  let late := fun k : Nat => decide (3 ≤ (s.blockNo + 2 ^ 32 - k) % 2 ^ 32 ∧ (s.blockNo + 2 ^ 32 - k) % 2 ^ 32 < 2 ^ 31)
  let gone := p.ring.filter (fun x => late x.1)
  s.each gone (fun s x =>
    ((s.count (SAP_RDROP_CNT n)).raise (SAP_INT n) 0x20#32).updSap n (fun p =>
      { p with ring := p.ring.filter (fun y => y.1 != x.1) }))

/-- The samples of a live transmit slot in a valid ring entry (R235). -/
def ringSlot (entry : List Word) (slots B i : Nat) : List (Option Word) :=
  let act := maskSlots (entry.getD 3 0) slots
  (upTo B).map (fun j =>
    if act.contains i then
      some (entry.getD (8 + j * act.length + (act.filter (fun k => k < i)).length) 0)
    else some 0)

/-- A ring-fed port at the close of the Bus window: the block that plays next, or an underrun (R234, R235). -/
def State.sapTransmit (s : State) (n : Nat) : State :=
  if s.rdB (SAP_CTRL n) 3 && s.sapRunning n then
    let p := s.sap n
    let B := s.blk
    let entry := p.fetched.getD []
    let ok := p.fetched.isSome && entry.getD 0 0 == BitVec.ofNat 32 (s.blockNo + 1)
    let s := s.updSap n (fun p => { p with fetched := .none, under := !ok, txRamp := false })
    s.each (maskSlots (s.rd (SAP_TXMASK_LIVE n)) (s.sapSlots n)) (fun s i =>
      let ys := if ok then ringSlot entry (s.sapSlots n) B i else List.replicate B none
      let f := fadeBlock (sget {} (s.sap n).fade (32 + i)) ys
      let s := s.updSap n (fun p => { p with fade := sset {} p.fade (32 + i) f.1, txRamp := p.txRamp || f.2.2 })
      { s with router := { s.router with
          txOut := sset [] s.router.txOut (0x1000 + 32 * n + i) (normBlock f.2.1) } })
  else s.updSap n (fun p => { p with under := false, txRamp := false })

/-- Whether a port is a member of group g (R236). -/
def State.inGroup (s : State) (n g : Nat) : Bool := s.rdF (SAP_CTRL n) 10 8 == g + 1

/-- The members of a group take part in its start, or no longer in a stopped group (R224, R236). -/
def State.joinGroup (s : State) (g : Nat) (on : Bool) : State :=
  (s.each ((upTo 24).filter (fun n => s.inGroup n g)) (fun s n => s.updSap n (fun p => { p with joined := on }))).wrB
    SAP_GRP_STAT g on

/-- SAP_GROUP_APPLY (R236): pending group starts and stops at step 8; a stop outweighs a start. -/
def State.sapGroups (s : State) : State :=
  let c := s.rd SAP_GRP_CTRL
  if c = 0 then s
  else
    let s := s.each (upTo 4) (fun s g =>
      if bit c (4 + g) then s.joinGroup g false
      else if bit c g then s.joinGroup g true
      else s)
    s.wr SAP_GRP_CTRL 0

/-- A port's share of step 8 of tick m: committed masks, starts, stops, and a resume after relock (R229,
R236, R237). -/
def State.sapApply (s : State) (n : Nat) : State :=
  let s := s.updSap n (fun p => { p with capMask := s.rd (SAP_RXMASK_LIVE n) })
  let s := if s.rdB (SAP_COMMIT n) 0 then
      (((s.wr (SAP_RXMASK_LIVE n) (s.rd (SAP_RXMASK n))).wr (SAP_TXMASK_LIVE n) (s.rd (SAP_TXMASK n))).wr
        (SAP_COMMIT n) 0).wrB (SAP_STAT n) 3 false
    else s
  let s := s.updSap n (fun p => { p with resume := false })
  let want := s.sapWanted n
  if s.sapRunning n then
    if want then s else s.sapStop n
  else if want && (s.sapMaster n || s.sapLocked n) then
    let s := s.upd (SAP_STAT n) (fun w => setBit (if s.sapMaster n then setBit w 1 true else w) 0 true)
    let s := s.updSap n (fun p => { p with
      fresh := true, cap := lastThree p.cap, fade := [],
      capMask := s.rd (SAP_RXMASK_LIVE n), txMask := s.rd (SAP_TXMASK_LIVE n) })
    { s with router := { s.router with play := s.router.play.filter (fun x => x.1 / 32 != 128 + n) } }
  else s

/-- The serial ports at tick m, as far as they take receive blocks (R231, R236). A port that does not run delivers
silence, and the slots of an asynchronous one what their converters give (R17). -/
def State.sapsReceive (s : State) (edge : Nat) : State :=
  s.each (upTo 24) (fun s n =>
    let s := s.sapRingAbandon n
    if s.sapRunning n && !(s.sapAsync n) then s.sapReceive n edge else s.hush (0x100 + 32 * n) 32)

/-- A running port plays the block packed last from tick m (R37, R38, R229, R231, R235, R238): its descriptor, the
underrun if it is one, and the stamps, which a slave port with a clock takes when sample 0's frame starts at its pin. -/
def State.sapPlay (s : State) (n edge : Nat) : State :=
  let s := s.sapTxTurn n (s.sap n).offset
  let p := s.sap n
  let slots := maskSlots p.txMask (s.sapSlots n)
  let desc := descriptor (BitVec.ofNat 32 s.blockNo) 0 (slotMask slots) s.blk slots.length p.txRamp false false
  let s := s.setSap n { p with
    playMask := p.txMask, skew := 0, txWait := desc, txNs := s.stampNs ((edge : Int) + 3) 0, txPos := 0 }
  let s := if s.sapMaster n || s.sapLost n then s.sapTxTurn n (if s.sapMaster n then 0 else p.offset) else s
  let s := s.wrB (SAP_STAT n) 4 p.under
  if p.under then (s.count (SAP_UNDER_CNT n)).raise (SAP_INT n) 0x10#32 else s

/-- The blocks that the serial ports play from tick m. -/
def State.sapsPlay (s : State) (edge : Nat) : State :=
  s.each ((upTo 24).filter (fun n => s.sapRunning n && !(s.sapAsync n))) (fun s n => s.sapPlay n edge)

/-- Step 8 of R37 for the serial ports; the slots that no longer pass give the converters no input (R249). -/
def State.sapsApply (s : State) : State := (s.sapGroups.each (upTo 24) (fun s n => s.sapApply n)).srcUnfed

/-- What SDO of a port does in slot `i` of the pins' frame `j` of the block that plays: low on an asynchronous port,
held on a lost clock, the slot's bits of the sample (R222, R225, R230, R236, R237, R329, R392). The word's S bits go
out MSB first from BCLK period `fmtDelay + i × S` of the frame (R223). -/
def State.sdo (s : State) (n i j : Nat) : Sdo :=
  let p := s.sap n
  if !(s.sapRunning n) || s.gatedOut 0 || s.deep || s.held then .hiz
  else if s.sapAsync n then .low
  else if !(s.sapMaster n) && (s.sapLost n || p.resume) then .hold
  else if s.sapSlots n ≤ i then .hiz
  else if bit p.playMask i then
    .word (slotWord (fmtBits (s.rd (SAP_FMT n)))
      (sampleAt (sget [] s.router.play (0x1000 + 32 * n + i)) (min ((j : Int) + p.skew).toNat (s.blk - 1))))
  else if s.rdF (SAP_FMT n) 1 0 = 2 && s.rdB (SAP_CTRL n) 5 then .hiz
  else .low

/-- The bits of SDO over a frame, in the BCLK periods from `fmtDelay` on, MSB first (R223, R225). -/
def State.sdoBits (s : State) (n j : Nat) : List (Option Bool) :=
  let S := fmtBits (s.rd (SAP_FMT n))
  (upTo (s.sapSlots n)).flatMap (fun i => (upTo S).map (fun k => match s.sdo n i j with
    | .word w => some (w.getLsbD (31 - k))
    | .low => some false
    | _ => none))

def execSlotMaskCommit (r : Req) (n : Fin 24) (s : State) : Out :=
  done (s.gated r (SAP_COMMIT n) 1#32 (fun s => s.sapCommit n 1#32))

def execGroupStart (r : Req) (start : BitVec 4) (s : State) : Out :=
  done (s.gated r SAP_GRP_CTRL (start.zeroExtend 32) (fun s => s.sapGrpWrite r (start.zeroExtend 32)))

def execGroupStop (r : Req) (stop : BitVec 4) (s : State) : Out :=
  let d : Word := stop.zeroExtend 32 <<< 4
  done (s.gated r SAP_GRP_CTRL d (fun s => s.sapGrpWrite r d))

def execSapFrame (n : Fin 24) (f : SapFrame) (s : State) : Out := done (s.sapFrame n f)
def execSapClockLoss (n : Fin 24) (s : State) : Out := done (s.sapLoss n)

end Sys2Proof.Machine
end

