-- ==== Sys2Proof/Machine/Aes3.lean ====
section
/-! DEFINITION. AES3 receivers and transmitters (R240 to R248, R252, R253) and the commands of the rate
converter bank (R249, R250, R254). -/

namespace Sys2Proof.Machine

def State.aesR (s : State) (n : Nat) : AesRx := sget {} s.aesRx n
def State.setAesR (s : State) (n : Nat) (p : AesRx) : State := { s with aesRx := sset {} s.aesRx n p }
def State.aesT (s : State) (n : Nat) : AesTx := sget {} s.aesTx n
def State.setAesT (s : State) (n : Nat) (p : AesTx) : State := { s with aesTx := sset {} s.aesTx n p }

def State.aesLocked (s : State) (n : Nat) : Bool := s.rdB (AES_RX_STAT n) 0

/-- Coded transmitter rates; code 0 is the engine rate (R247). -/
def State.aesRate (s : State) (code : Nat) : Nat := match code with
  | 0 => s.fs
  | 1 => 32000
  | 2 => 44100
  | 3 => 48000
  | 4 => 88200
  | 5 => 96000
  | 6 => 176400
  | _ => 192000

/-- Whether a coded rate lies within 1:4 to 4:1 of an engine rate (R247). -/
def rateRatioOk (hz fs : Nat) : Bool := decide (fs ≤ 4 * hz ∧ hz ≤ 4 * fs)

/-- Grade of a latched channel-status block A (R246). -/
def aesGrade (pro : Bool) (b32 b33 : Bool) : Nat :=
  if !pro then 0 else if b32 && !b33 then 1 else if !b32 && b33 then 2 else 0

/-- The samples captured from the first missing or invalid frame of a run on are invalid (R243). -/
def AesRx.spoil (p : AesRx) : AesRx :=
  let k := min p.run p.cap.length
  { p with cap := p.cap.take (p.cap.length - k) ++ List.replicate k (none, none), run := 0 }

/-- Lock loss of a receiver (R243): samples are invalid, the block in progress is discarded, the
converters of its inputs unlock, and Saffron has lost the reference (R296). -/
def State.aesLoss (s : State) (n : Nat) : State :=
  let s := s.setAesR n (s.aesR n).spoil
  if s.aesLocked n then
    let s := (s.count (AES_RX_LOSS_CNT n)).raise (AES_RX_INT n) 1#32
    let s := s.upd (AES_RX_STAT n) (fun w => setBits (setBit (setBit w 0 false) 1 false) 7 6 0)
    let s := s.wr (AES_RX_RATE n) 0
    let p := s.aesR n
    let s := s.setAesR n { p with good := 0, badSub := 0, noPre := 0, spoilt := true, lost := true, resume := false,
                                  deliver := false, frames := 0, cycles := 0 }
    ((s.srcLoss 0 (2 * n)).srcLoss 0 (2 * n + 1)).losSource 3 n
  else s.setAesR n { s.aesR n with good := 0, badSub := 0, noPre := 0, spoilt := true }

/-- A word's bits reversed in time-slot order: slots 4–27 are bits 0–23 of the subframe (R242). -/
def subWord (aux20 : Bool) (x : Subframe) : Word :=
  let w : Word := (x.slots.extractLsb' 0 24).zeroExtend 32
  (if aux20 then w >>> 4 <<< 4 else w) <<< 8

/-- Number of ones over slots 4–31 (R242). -/
def subOnes (x : Subframe) : Nat := ((upTo 28).filter (fun i => x.slots.getLsbD i)).length

/-- Whether a subframe is valid (R242). -/
def subValid (x : Subframe) : Bool := !x.violation && subOnes x % 2 == 0

/-- Count a subframe's violation or parity error (R243). -/
def State.subErr (s : State) (n : Nat) (x : Subframe) : State :=
  let s := if x.violation then s.count (AES_RX_BVIO_CNT n) else s
  if subOnes x % 2 = 1 then s.count (AES_RX_PAR_CNT n) else s

/-- The AES3 CRCC over bytes 0 to 22 of a channel-status block (R245). PRESUMED: the AES3 standard's
generator x^8 + x^4 + x^3 + x^2 + 1, preset to ones. -/
def crccStep (c : Nat) (b : Bool) : Nat :=
  let x := (c % 2 != 0) != b
  if x then (c / 2) ^^^ 0xB8 else c / 2

/-- The CRCC of a block given as a 192-bit number. PRESUMED: assumption 42. -/
def aesCrcc (cs : Nat) : Nat := (upTo 184).foldl (fun c i => crccStep c (cs.testBit i)) 0xFF

/-- Word k of a 192-bit block. -/
def blockWord (b k : Nat) : Word := BitVec.ofNat 32 (b / 2 ^ (32 * k))

/-- CHANNEL_STATUS_LATCH (R245): the completed blocks are latched at a Z preamble, each subframe's channel
status after its check. -/
def State.csLatch (s : State) (n : Nat) : State :=
  let p := s.aesR n
  let chk := s.rdB (AES_RX_CTRL n) 4
  let one := fun (s : State) (cs : Nat) (isA : Bool) =>
    let pro := cs.testBit 0
    let ok := aesCrcc cs == cs / 2 ^ 184
    if pro && chk && !ok then (s.count (AES_RX_CRC_CNT n)).raise (AES_RX_INT n) 0x10#32
    else
      let r := fun k => if isA then AES_RX_CSA n k else AES_RX_CSB n k
      let diff := (upTo 6).any (fun k => s.rd (r k) != blockWord cs k)
      let s := s.each (upTo 6) (fun s k => s.wr (r k) (blockWord cs k))
      let s := if diff then s.raise (AES_RX_INT n) 8#32 else s
      if isA then
        s.upd (AES_RX_STAT n) (fun w =>
          setBits (setBit (setBit (setBit w 1 true) 2 pro) 3 (pro && ok)) 7 6
            (aesGrade pro (cs.testBit 32) (cs.testBit 33)))
      else s
  let s := one (one s p.csA true) p.csB false
  s.each (upTo 6) (fun s k => (s.wr (AES_RX_UA n k) (blockWord p.uA k)).wr (AES_RX_UB n k) (blockWord p.uB k))

/-- The block structure (R243, R245): a frame with no valid preamble counts as a frame, and a Z closes a block, or
restarts it. -/
def State.aesBlock (s : State) (n : Nat) (f : AesFrame) (z : Bool) : State :=
  let p := s.aesR n
  let s :=
    if z then
      match p.idx with
      | some 192 => if p.spoilt then s else s.csLatch n
      | some _ => (s.count (AES_RX_CRC_CNT n)).raise (AES_RX_INT n) 0x10#32
      | none => s
    else s
  let p := s.aesR n
  let p := if z then { p with idx := some 0, spoilt := false, csA := 0, csB := 0, uA := 0, uB := 0 } else p
  match p.idx with
  | none => s.setAesR n p
  | some i =>
    let put := fun (v : Nat) (b : Bool) => if b && decide (i < 192) then v + 2 ^ i else v
    s.setAesR n { p with idx := some (min (i + 1) 193),
                         csA := put p.csA (f.a.slots.getLsbD 26), csB := put p.csB (f.b.slots.getLsbD 26),
                         uA := put p.uA (f.a.slots.getLsbD 25), uB := put p.uB (f.b.slots.getLsbD 25) }

/-- The block structure in a frame that loses the lock: it counts as a frame, and its Z is not used, but the next is
counted from it (R243, R252). -/
def State.aesUnused (s : State) (n : Nat) (f : AesFrame) (z : Bool) : State :=
  if z then s.setAesR n { s.aesR n with idx := (s.aesR n).idx.map (fun _ => 1) } else s.aesBlock n f false

/-- Frame rate over 1,024 frames (R253). -/
def State.aesRateMeas (s : State) (n elapsed : Nat) : State :=
  let p := s.aesR n
  if p.frames + 1 < 1024 then
    s.setAesR n { p with frames := p.frames + 1, cycles := p.cycles + elapsed }
  else
    let s := s.setAesR n { p with frames := 0, cycles := 0 }
    s.wrF (AES_RX_RATE n) 17 0 (min (hzOf 1024 (p.cycles + elapsed)) (2 ^ 18 - 1))

/-- One more good frame (R244): the sixteenth locks the receiver. -/
def State.aesGood (s : State) (n : Nat) : State :=
  let p := s.aesR n
  if 15 ≤ p.good && !(s.aesLocked n) then
    let s := s.wrB (AES_RX_STAT n) 0 true
    let s := if p.lost then s.raise (AES_RX_INT n) 2#32 else s
    s.setAesR n { p with good := 16, lost := false, resume := true }
  else s.setAesR n { p with good := min (p.good + 1) 16 }

/-- The samples of a frame, none where invalid (R244): synchronous ones are kept for the block now captured, a slip
dropping or repeating the frame; asynchronous ones go through the fades to the converters. -/
def State.aesKeep (s : State) (n elapsed : Nat) (drop twice : Bool) (x : Option Word × Option Word) : State :=
  let p := s.aesR n
  if p.sync then
    let new := if drop then [] else if twice then [x, x] else [x]
    let cap := p.cap ++ new
    s.setAesR n { p with cap := if s.frame.ticking then cap else cap.drop (cap.length - 3),
                         run := if p.badSub = 0 && p.noPre = 0 then 0 else p.run + new.length }
  else
    let a := fadeStep p.fadeA x.1
    let b := fadeStep p.fadeB x.2
    let s := if s.taking then s.setAesR n { p with fadeA := a.1, fadeB := b.1 } else s
    let get := fun w : Word => if s.taking then some w else none
    if s.aesLocked n then (s.srcFeed 0 (2 * n) elapsed (get a.2)).srcFeed 0 (2 * n + 1) elapsed (get b.2) else s

/-- A frame with no valid preamble (R243, R244): it repeats what was last received, and the fourth in a row loses
the lock. -/
def State.aesMissing (s : State) (n : Nat) (f : AesFrame) : State :=
  let p := s.aesR n
  let ok := s.aesLocked n && p.deliver
  let s := s.setAesR n { p with good := 0, noPre := p.noPre + 1 }
  let s := (s.aesKeep n f.elapsed false false (if ok then (some p.prevA, some p.prevB) else (none, none))).aesBlock n f false
  if 3 ≤ p.noPre then s.aesLoss n else s

/-- Consecutive invalid subframes after one more (R243). -/
def badRun (run : Nat) (valid : Bool) : Nat := if valid then 0 else run + 1

/-- AES3_FRAME (R241 to R246): a frame is checked and captured. -/
def State.aesFrame (s : State) (n : Nat) (f : AesFrame) : State :=
  let p := s.aesR n
  if !p.on then s
  else if !((f.a.pre == .x || f.a.pre == .z) && f.b.pre == .y) then s.aesMissing n f
  else
    let rate := decide (31000 * f.elapsed ≤ 1000000000 ∧ 1000000000 ≤ 194000 * f.elapsed)
    let slip := p.sync && s.offWindow f.offset
    let s := if slip then (s.count (AES_RX_SLIP_CNT n)).raise (AES_RX_INT n) 4#32 else s
    let s := s.refAes n f.offset
    let s := (s.subErr n f.a).subErr n f.b
    let aux := s.rdB (AES_RX_CTRL n) 2
    let va := subValid f.a
    let vb := subValid f.b
    let wa := if va then subWord aux f.a else p.prevA
    let wb := if vb then subWord aux f.b else p.prevB
    let s := if f.a.slots.getLsbD 24 || f.b.slots.getLsbD 24 then s.count (AES_RX_VAL_CNT n) else s
    let vm := s.rdB (AES_RX_CTRL n) 3
    let ok := s.aesLocked n && p.deliver && rate
    let xa := if ok && !(vm && f.a.slots.getLsbD 24) then some wa else none
    let xb := if ok && !(vm && f.b.slots.getLsbD 24) then some wb else none
    let badA := badRun p.badSub va
    let bad := badRun badA vb
    let s := s.setAesR n { p with prevA := wa, prevB := wb, badSub := if badA < 8 then bad else badA, noPre := 0 }
    let s := s.aesKeep n f.elapsed (slip && decide (f.offset < 0)) slip (xa, xb)
    let z := f.a.pre == .z
    if !rate || decide (8 ≤ badA ∨ 8 ≤ bad) then (s.aesUnused n f z).aesLoss n
    else
      let s := (s.aesBlock n f z).aesRateMeas n f.elapsed
      let s := if va && vb && !slip then s.aesGood n
        else s.setAesR n { s.aesR n with good := 0 }
      if s.aesLocked n then s else s.wr (AES_RX_RATE n) 0

/-- A receiver's share of a tick: a synchronous receiver's block becomes source data (R240 to R244). -/
def State.aesReceive (s : State) (n : Nat) : State :=
  let p := s.aesR n
  let B := s.blk
  if p.on && p.sync then
    let at_ := fun j => p.cap.getD j (none, none)
    let a := fadeBlock p.fadeA ((upTo B).map (fun j => (at_ j).1))
    let b := fadeBlock p.fadeB ((upTo B).map (fun j => (at_ j).2))
    let rest := (p.cap ++ List.replicate (B + 3 - p.cap.length) (none, none)).drop B
    let s := s.setAesR n { p with fadeA := a.1, fadeB := b.1, cap := rest.drop (rest.length - 3) }
    (s.produce (0x400 + 2 * n) a.2.1).produce (0x401 + 2 * n) b.2.1
  else s.hush (0x400 + 2 * n) 2

/-- A receiver's share of step 8: en and sync come into force, and a relock resumes (R241, R244). -/
def State.aesApplyRx (s : State) (n : Nat) : State :=
  let p := s.aesR n
  let on := s.rdB (AES_RX_CTRL n) 0
  let sync := s.rdB (AES_RX_CTRL n) 1
  let s := if p.on && (!on || sync != p.sync) then s.aesLoss n else s
  let p := s.aesR n
  if !on then s.setAesR n {}
  else if on == p.on && sync == p.sync then
    s.setAesR n { p with deliver := p.deliver || p.resume, resume := false }
  else s.setAesR n { on := true, sync := sync, cap := if sync then List.replicate 3 (none, none) else [] }

/-- A transmitter stops (R247). -/
def State.aesTxStop (s : State) (n : Nat) : State :=
  (s.wrB (AES_TX_STAT n) 0 false).setAesT n { live := (s.aesT n).live }

/-- A transmitter's share of step 8: rate and en come into force (R247); the first frame after the start carries a
Z preamble (R248). -/
def State.aesApplyTx (s : State) (n : Nat) : State :=
  let on := s.rdB (AES_TX_CTRL n) 0
  if on then (s.wrB (AES_TX_STAT n) 0 true).setAesT n { s.aesT n with rate := s.rdF (AES_TX_CTRL n) 3 1 }
  else if s.rdB (AES_TX_STAT n) 0 then s.aesTxStop n
  else s

/-- PORT_RATE_DROP for the AES3 transmitters (R247), at the same write: `fs` is the new engine rate. -/
def State.aesRateDrop (s : State) (fs : Nat) : State :=
  s.each (upTo 8) (fun s n =>
    let c := s.rdF (AES_TX_CTRL n) 3 1
    if s.rdB (AES_TX_CTRL n) 0 && c != 0 && !(rateRatioOk (s.aesRate c) fs) then
      ((s.wrB (AES_TX_CTRL n) 0 false).aesTxStop n).raise (AES_TX_STAT n) 8#32
    else s)

/-- AES_TXn_CTRL written (R247). -/
def State.aesTxCtrl (s : State) (q : Req) (n : Nat) (data : Word) : State :=
  let c := bits data 3 1
  if c != 0 && !(rateRatioOk (s.aesRate c) s.fs) then s.reject q (BitVec.ofNat 32 (AES_TX_CTRL n).addr) data
  else s.wr (AES_TX_CTRL n) (data &&& 0x5F#32)

/-- AES_TXn_COMMIT written (R248). -/
def State.aesTxCommitW (s : State) (n : Nat) (data : Word) : State :=
  if bit data 0 then s.wr (AES_TX_COMMIT n) 1#32 else s

/-- The staged channel-status and user words of a transmitter: CSA, CSB, UA, UB (R248). -/
def State.aesStaged (s : State) (n : Nat) : List Word :=
  (upTo 6).map (fun k => s.rd (AES_TX_CSA n k)) ++ (upTo 6).map (fun k => s.rd (AES_TX_CSB n k)) ++
  (upTo 6).map (fun k => s.rd (AES_TX_UA n k)) ++ (upTo 6).map (fun k => s.rd (AES_TX_UB n k))

/-- A channel-status block as 6 words with byte 23 replaced by its CRCC if it is professional (R248). -/
def withCrcc (ws : List Word) : List Word :=
  let cs := (upTo 6).foldl (fun v k => v + (ws.getD k 0).toNat * 2 ^ (32 * k)) 0
  if cs.testBit 0 then
    let v := cs % 2 ^ 184 + aesCrcc cs * 2 ^ 184
    (upTo 6).map (blockWord v)
  else ws

/-- The committed bits of a transmitter become live at a Z preamble (R248). -/
def State.aesTxTake (s : State) (n : Nat) : State :=
  if s.rdB (AES_TX_COMMIT n) 0 then
    (s.wr (AES_TX_COMMIT n) 0).setAesT n { s.aesT n with live := s.aesStaged n }
  else s

/-- AES_TX_BLOCK_START (R248): the frames before it have gone out, and a running transmitter sends the Z frame. -/
def State.aesTxZ (s : State) (n : Nat) : State :=
  if s.rdB (AES_TX_STAT n) 0 then
    let s := s.aesTxTake n
    let p := s.aesT n
    s.setAesT n { p with idx := 0, pos := min p.count (p.pos + (192 - p.idx)) }
  else s

/-- The rest of a transmitter's block has gone out (R248); a Z preamble that no command brought was sent in it.
DEDUCED: assumption 44. -/
def State.aesTxRun (s : State) (n : Nat) : State :=
  let p := s.aesT n
  let i := p.idx + (p.count - p.pos)
  let s := if 192 < i then s.aesTxTake n else s
  s.setAesT n { s.aesT n with idx := if i ≤ 192 then i else i % 192, pos := 0, count := 0 }

/-- The channel-status words a transmitter sends in a block (R248). -/
def State.aesSent (s : State) (n : Nat) : List Word :=
  let l := (s.aesT n).live
  if s.rdB (AES_TX_CTRL n) 4 then withCrcc (l.take 6) ++ withCrcc ((l.drop 6).take 6) ++ l.drop 12 else l

/-- SRC_CHc written (R249). -/
def State.srcChWrite (s : State) (q : Req) (c : Nat) (data : Word) : State :=
  let d := data &&& 0xF00003FF#32
  let ok := match bits d 29 28, bits d 30 30 with
    | 0, 0 => decide (bits d 9 0 ≤ 15)
    | 1, 0 => decide (bits d 9 0 ≤ 767)
    | 2, 1 => decide (bits d 9 0 ≤ 15)
    | _, _ => false
  if ok then s.wr (SRC_CH c) d else s.reject q (BitVec.ofNat 32 (SRC_CH c).addr) data

/-- SRC_COMMIT written (R249). -/
def State.srcCommitW (s : State) (data : Word) : State := if bit data 0 then s.wr SRC_COMMIT 1#32 else s

/-- A transmitter's coded rate in hertz, 0 while it runs at the engine rate or not at all (R247). -/
def State.aesCoded (s : State) (n : Nat) : Nat :=
  if s.rdB (AES_TX_STAT n) 0 && (s.aesT n).rate != 0 then s.aesRate (s.aesT n).rate else 0

/-- The channel that delivers or fades out at a transmitter's subframe (R249, R250). -/
def State.srcAt (s : State) (ix : Nat) : Option Nat :=
  (s.src.find? (fun x => x.2.out = 0x1300 + ix + 1)).map Prod.fst

/-- The samples of one subframe over the `count` frames that go out from sample edge `edge`: the sink's own at the
engine rate, and at a coded rate the converter's, or zeros (R240, R247, R251). Frame i of a coded rate starts at
the i-th multiple of its period. DEDUCED: assumption 44. -/
def State.aesTxBlock (s : State) (n sub edge count : Nat) : State × List Word :=
  let hz := s.aesCoded n
  if hz = 0 then (s, (upTo count).map (sampleAt (sget [] s.router.play (0x1300 + 2 * n + sub))))
  else match s.srcAt (2 * n + sub) with
    | some c => s.srcOutput c count (fun j =>
        (((edge * hz / s.fs + j : Nat) : Int) * s.fs - 32 * hz, hz * s.fs))
    | none => (s, List.replicate count 0)

/-- The blocks that the AES3 transmitters send from the tick at sample edge `edge` (R240, R247, R248, R251). -/
def State.aesPlay (s : State) (edge : Nat) : State :=
  let s := s.srcOutFrames edge (fun n => s.aesCoded n)
  s.each ((upTo 8).filter (fun n => s.rdB (AES_TX_STAT n) 0)) (fun s n =>
    let s := s.aesTxRun n
    let hz := if s.aesCoded n = 0 then s.fs else s.aesCoded n
    let count := (edge + s.blk) * hz / s.fs - edge * hz / s.fs
    let a := s.aesTxBlock n 0 edge count
    let b := a.1.aesTxBlock n 1 edge count
    b.1.setAesT n { b.1.aesT n with count := count, outA := a.2, outB := b.2 })

/-- While the frame is stopped a running transmitter sends zeros (R41). -/
def State.aesStopped (s : State) : State :=
  s.each (upTo 8) (fun s n => s.setAesT n { s.aesT n with outA := [], outB := [] })

/-- Whether a subframe of a transmitter is unconverted (R247). -/
def State.aesUnconv (s : State) (n sub : Nat) : Bool :=
  s.aesCoded n != 0 && !((s.srcAt (2 * n + sub)).any (fun c => (s.srcCh c).deliver))

/-- Time slots 4 to 31 of a subframe that carries a sample, a validity, a user and a channel-status bit, with even
parity (R248). -/
def subSlots (w : Word) (v u c : Bool) : BitVec 28 :=
  let x : BitVec 28 := (w >>> 8).setWidth 28 ||| (if v then 1#28 <<< 24 else 0#28) ||| (if u then 1#28 <<< 25 else 0#28) |||
    (if c then 1#28 <<< 26 else 0#28)
  if ((upTo 27).filter (fun i => x.getLsbD i)).length % 2 = 1 then x ||| 1#28 <<< 27 else x

/-- The frame that pin AESTXn sends `j` frames after its next one in the block that plays; none while it is held low
(R240, R247, R248, R329, R392). -/
def State.aesTxFrame (s : State) (n j : Nat) : Option (Subframe × Subframe) :=
  if !(s.rdB (AES_TX_STAT n) 0) || s.gatedOut 1 then .none
  else
    let p := s.aesT n
    let i := (p.idx + j) % 192
    let ws := s.aesSent n
    let at_ := fun k => bit (ws.getD (6 * k + i / 32) 0) (i % 32)
    let one := fun (sub : Nat) (pre : Preamble) (out : List Word) =>
      (⟨pre, false, subSlots (sampleAt out (p.pos + j)) (s.rdB (AES_TX_CTRL n) 6 || s.aesUnconv n sub)
        (at_ (2 + sub)) (at_ sub)⟩ : Subframe)
    some (one 0 (if i = 0 then .z else .x) p.outA, one 1 .y p.outB)

/-- Step 8 of R37 for the receivers, transmitters and converters; the commit comes before a lock of the
same boundary (R252). -/
def State.aesApply (s : State) : State :=
  let s := s.each (upTo 8) (fun s n => (s.aesApplyRx n).aesApplyTx n)
  s.srcApply.srcBegin

/-- The AES3 receivers and converters at the tick at sample edge `edge`, as source data. -/
def State.aesReceiveAll (s : State) (edge : Nat) : State :=
  (s.each (upTo 8) (fun s n => s.aesReceive n)).srcBlocks edge

def execAes3Frame (n : Fin 8) (f : AesFrame) (s : State) : Out := done (s.aesFrame n f)
def execAes3LockLoss (n : Fin 8) (s : State) : Out := done (s.aesLoss n)
def execAesTxCommit (r : Req) (n : Fin 8) (s : State) : Out :=
  done (s.gated r (AES_TX_COMMIT n) 1#32 (fun s => s.aesTxCommitW n 1#32))
def execAesTxBlockStart (n : Fin 8) (s : State) : Out := done (s.aesTxZ n)
def execSrcCommit (r : Req) (s : State) : Out :=
  done (s.gated r SRC_COMMIT 1#32 (fun s => s.srcCommitW 1#32))
def execSrcLock (c : Fin 256) (s : State) : Out := done (s.srcLockNow c)

end Sys2Proof.Machine
end

