-- ==== Sys2Proof/Machine/Router.lean ====
section
/-! DEFINITION. The Patch Router (R160 to R175): sink changes and crossfades, samples at sinks, transfers to
and from DMEM, engine output taps (R113, R117), and the generators. -/

namespace Sys2Proof.Machine

/-- Unity gain of a term (R164). -/
def unity : Nat := 2 ^ 30

/-- The gain of a term at sample j of the block, `count` samples of its ramp done before (R164). -/
def termGain (t : Term) (count len j : Nat) : Nat :=
  if len = 0 then t.e
  else (t.gs + roundHalfEven (((t.e : Int) - t.gs) * min (count + j + 1) len) len).toNat

/-- A sink's hidden state. -/
def State.sink (s : State) (i : Nat) : Sink := sget {} s.router.sinks i
def State.setSink (s : State) (i : Nat) (k : Sink) : State :=
  { s with router := { s.router with sinks := sset {} s.router.sinks i k } }

/-- The source an entry routes (R161, R164). -/
def entrySrc (w : Word) : Option Nat := if bit w 31 then some (bits w 13 0) else none

/-- The change of R164: the term for the entry's source ramps up, every other term ramps to 0. -/
def Sink.change (k : Sink) (w : Word) : Sink :=
  let old := k.terms.map (fun t =>
    { t with gs := t.g, e := if entrySrc w = some t.src then unity else 0 })
  let new := match entrySrc w with
    | some src => if k.terms.any (fun t => t.src = src) then [] else [⟨src, 0, 0, unity⟩]
    | none => []
  { terms := old ++ new, count := 0, len := bits w 25 16 }

/-- Whether a change to an entry needs a fourth live term (R165). -/
def Sink.full (k : Sink) (w : Word) : Bool :=
  match entrySrc w with
  | some src => decide (3 ≤ k.terms.length) && !(k.terms.any (fun t => t.src = src))
  | none => false

/-- Whether a change of a sink waits for a term (R165): it needs a fourth, or was deferred and three are still live. -/
def Sink.waits (k : Sink) (w : Word) : Bool := k.full w || (k.deferred && decide (3 ≤ k.terms.length))

/-- CROSSFADE_DEFER (R165): the change waits; a block counts only where hold would have let it in. -/
def State.deferEntry (s : State) (i : Nat) : State :=
  let s := s.setSink i { s.sink i with deferred := true }
  if s.rdB PRT_CTRL 0 then s else (s.count PRT_DEFER_CNT).raise PRT_INT 4#32

/-- SINK_ENTRY_APPLY or CROSSFADE_DEFER (R164, R165): an entry comes into force, or is deferred. -/
def State.applyEntry (s : State) (i : Nat) (w : Word) : State :=
  let k := s.sink i
  if k.waits w then s.deferEntry i
  else
    let s := (s.setSink i (k.change w)).raise PRT_INT 8#32
    { s with router := { s.router with inForce := sset sinkReset s.router.inForce i w } }

/-- The sinks with a written entry not in force. -/
def State.pendingSinks (s : State) : List Nat :=
  ((s.router.written.map Prod.fst) ++ (s.router.inForce.map Prod.fst)).dedup.filter
    (fun i => s.sinkWritten i != s.sinkInForce i)

/-- Whether a sink waits for a term (R165): its change was deferred and is still wanted. -/
def State.waitsTerm (s : State) (i : Nat) : Bool :=
  (s.sink i).deferred && s.sinkWritten i != s.sinkInForce i

/-- A route rewrite of a migration (R163): in force at this step whatever hold says. A host's own write to the entry
that is still to come into force follows it. A rewrite that has to wait for a term is a pending entry from then on, which
waits for hold too and which a later write replaces (R165); a host's write that is pending already takes its place. -/
def State.applyRewrite (s : State) (i : Nat) (w : Word) : State :=
  let host := s.router.fresh.contains i
  let s := if host then s
    else { s with router := { s.router with written := sset sinkReset s.router.written i w } }
  if w = s.sinkInForce i then s
  else if (s.sink i).waits w then
    (if !host && s.rdB PRT_CTRL 0 then s.deferEntry i else s)
  else s.applyEntry i w

/-- Sink entries at step 7 of R37 (R162 to R165): rewrites, then what is written. -/
def State.sinkStep (s : State) : State :=
  let rw := s.router.rewrites
  let s := { s with router := { s.router with rewrites := [] } }
  let s := s.each rw (fun s x => s.applyRewrite x.1 x.2)
  let s := if s.rdB PRT_CTRL 0 then s
    else
      let s := s.each s.pendingSinks (fun s i => s.applyEntry i (s.sinkWritten i))
      { s with router := { s.router with fresh := s.router.fresh.filter (fun i =>
          s.sinkWritten i != s.sinkInForce i) } }
  s.each ((s.router.sinks.filter (fun x => x.2.deferred && !(s.waitsTerm x.1))).map Prod.fst)
    (fun s i => s.setSink i { s.sink i with deferred := false })

/-- End of a block for a sink (R164): its ramp has advanced by a block, and terms at gain 0 are removed. -/
def Sink.roll (k : Sink) (B : Nat) : Sink :=
  let ts := k.terms.map (fun t => { t with g := termGain t k.count k.len (B - 1) })
  { k with terms := ts.filter (fun t => t.g != 0), count := min (k.count + B) k.len,
           deferred := k.deferred }

/-- Every sink at the end of a block that ran. -/
def State.rollSinks (s : State) : State :=
  s.each (s.router.sinks.map Prod.fst) (fun s i => s.setSink i ((s.sink i).roll s.blk))

/-- Whether a source ID is reserved (R20). -/
def srcReserved (i : Nat) : Bool :=
  decide (0xE ≤ i ∧ i < 0x100) || decide (0x410 ≤ i ∧ i < 0x800) || decide (0xC00 ≤ i ∧ i < 0x1000) ||
  decide (0x2100 ≤ i ∧ i < 0x2400) || decide (0x2800 ≤ i)

/-- Flags of sinks with a reserved source in this block (R173). -/
def State.flagReserved (s : State) : State :=
  s.each ((s.router.sinks.filter (fun x => x.2.terms.any (fun t => srcReserved t.src))).map Prod.fst)
    (fun s i => ((s.wrB (PRT_INV (i / 32)) (i % 32) true).raise PRT_INT 1#32).count PRT_INV_CNT)

/-- Samples of a sink that is not a cascade sink, from its sources as they stand (R166). -/
def State.sinkBlock (s : State) (i : Nat) : List Word :=
  let k := s.sink i
  match k.terms with
  | [] => []
  | ts =>
    normBlock ((upTo s.blk).map (fun j =>
      let sum := ts.foldl (fun (a : Int) t =>
        a + (if srcReserved t.src then 0 else (sampleAt (s.source t.src) j).toInt) * termGain t k.count k.len j) 0
      BitVec.ofInt 32 (clampBits 32 (roundHalfEven sum unity))))

/-- The sinks in a range that have a live term. -/
def State.sinksIn (s : State) (lo n : Nat) : List Nat :=
  (s.router.sinks.map Prod.fst).filter (fun i => decide (lo ≤ i ∧ i < lo + n))

/-- Samples of the live sinks of a range, keyed by index. -/
def State.consume (s : State) (lo n : Nat) : List (Nat × List Word) :=
  ((s.sinksIn lo n).map (fun i => (i, s.sinkBlock i))).filter (fun x => !x.2.isEmpty)

/-- Sink index of an engine input tap (R22). -/
def tapSink (e tap : Nat) : Nat := 0x400 + e * 96 + tap

/-- The slices of a phase on an engine with their live entries, ascending (R112). -/
def Engine.phaseSlices (g : Engine) (phase : Nat) : List (Nat × Entry) :=
  g.live.filter (fun u => u.2.valid && u.2.phase == phase)

/-- Input tap samples of the slices of a phase are taken (R168), by sink index; a silent sink leaves none. -/
def State.takeTaps (s : State) (phase : Nat) : State :=
  let is := s.engs.flatMap (fun eg => (eg.2.phaseSlices phase).flatMap (fun u =>
    (upTo u.2.inCnt).map (fun t => tapSink eg.1 (u.2.inBase + t))))
  { s with router := { s.router with
      tapIn := is.foldl (fun m i => sset [] m i (s.sinkBlock i)) s.router.tapIn } }

/-- Quads of a slice's input area that carry taps, and of its output area (R111, R169). -/
def Entry.inQuads (t : Entry) (B : Nat) : Nat := ceilDiv t.inCnt 4 * B
def Entry.outQuads (t : Entry) (B : Nat) : Nat := ceilDiv t.outCnt 4 * B

/-- The fills of a phase's slices are queued ahead of other fills (R169, R170); a slice with no input taps
needs none. -/
def State.queueFills (s : State) (e phase : Nat) : State :=
  let g := s.eng e
  let us := g.phaseSlices phase
  let none_ := us.filter (fun u => u.2.inCnt = 0)
  let fills := (us.filter (fun u => u.2.inCnt != 0)).map (fun u => (⟨false, u.1, 0⟩ : Xfer))
  let g := none_.foldl (fun g u => g.updSb u.1 (fun b => { b with filled := true })) g
  s.setEng e { g with xq := g.xq.filter (fun x => x.collect) ++ fills ++ g.xq.filter (fun x => !x.collect) }

/-- The transfer the Router port of an engine works on: a collection if any, else a fill (R169). -/
def Engine.nextXfer (g : Engine) : Option Xfer :=
  match g.xq.find? (fun x => x.collect) with
  | some x => some x
  | none => g.xq.head?

/-- Replace or remove a transfer in the queue. -/
def Engine.putXfer (g : Engine) (x : Xfer) (y? : Option Xfer) : Engine :=
  { g with xq := g.xq.flatMap (fun y => if y = x then y?.toList else [y]) }

/-- The words of a fill quad: taps of group g at sample j (R111). -/
def State.fillWords (s : State) (e : Nat) (t : Entry) (pos : Nat) : List (Nat × Word) :=
  let grp := pos / s.blk
  ((upTo 4).filter (fun i => 4 * grp + i < t.inCnt)).map (fun i =>
    (i, sampleAt (sget [] s.router.tapIn (tapSink e (t.inBase + 4 * grp + i))) (pos % s.blk)))

/-- Step 3 of R124: in block k+1 the words written for the source's taps go to the input history too. -/
def State.histWords (s : State) (e : Nat) (sl pos : Nat) (ws : List (Nat × Word)) : State :=
  if s.rdB CLV_MIG_STAT 0 && decide (s.mig.src = e * 64 + sl) && decide (s.blockNo = (s.mig.k + 1) % 2 ^ 32) then
    let a := s.migPool + (s.liveOf s.mig.src).winSize * 16 + pos * 16
    State.fenceRange
      { s with mem := (ws.filter (fun _ => s.whole a)).foldl (fun m x => putWord m (a + 4 * x.1) x.2) s.mem,
               mig := { s.mig with hist := s.mig.hist + 1 } }
      a 16 (12 + e / 8) true
  else s

/-- Whether a slice is the destination of a migration in block k+1: its input area takes the input history, and the fill
of its disabled sinks leaves it alone (R124 steps 4 to 6). DEDUCED: assumption 104. -/
def State.migFed (s : State) (id : Nat) : Bool :=
  s.rdB CLV_MIG_STAT 0 && decide (s.mig.dst = id) && decide (s.blockNo = (s.mig.k + 1) % 2 ^ 32)

/-- One quad of a fill (R169). -/
def State.fillQuad (s : State) (e : Nat) (x : Xfer) : State :=
  let g := s.eng e
  let t := g.entry x.slice
  let ws := if s.migFed (e * 64 + x.slice) then [] else s.fillWords e t x.pos
  let a := quadAddr e (t.sb + x.pos)
  let s : State := { s with mem := ws.foldl (fun m (w : Nat × Word) => putWord m (a + 4 * w.1) w.2) s.mem }
  let s := s.histWords e x.slice x.pos ws
  let last := decide (t.inQuads s.blk ≤ x.pos + 1)
  let g := g.putXfer x (if last then none else some { x with pos := x.pos + 1 })
  s.setEng e (if last then g.updSb x.slice (fun b => { b with filled := true }) else g)

/-- One quad of a collection (R111, R113, R169): a tap quad's samples are delivered once it is whole. -/
def State.collectQuad (s : State) (e : Nat) (x : Xfer) : State :=
  let g := s.eng e
  let t := g.entry x.slice
  let B := s.blk
  let grp := x.pos / B
  let a := quadAddr e (t.outQuad + x.pos)
  let ws := ((upTo 4).filter (fun i => 4 * grp + i < t.outCnt)).map (fun i =>
    ((t.outBase + 4 * grp + i) * 32 + x.pos % B, wordOf s.mem (a + 4 * i)))
  let part := ws.foldl (fun m w => sset 0 m w.1 w.2) g.part
  let g := { g with part := part }
  let g := if x.pos % B = B - 1 then
      let mine := (upTo 4).flatMap (fun i => (upTo B).map (fun j => (t.outBase + 4 * grp + i) * 32 + j))
      let keep := mine.filter (fun k => decide (k / 32 < t.outBase + t.outCnt))
      { g with out := keep.foldl (fun m k => sset 0 m k (sget 0 part k)) g.out,
               part := part.filter (fun p => !(keep.contains p.1)) }
    else g
  let last := decide (t.outQuads B ≤ x.pos + 1)
  let g := g.putXfer x (if last then none else some { x with pos := x.pos + 1 })
  s.setEng e (g.updSb x.slice (fun b => { b with coll := x.pos + 1 }))

/-- ROUTER_TAP_TRANSFER (R52, R169): the port of an engine moves the next quad in a free half-cycle; while no
window is open it moves none (R41). The transfer is the one that is first when the half-cycle comes. DEDUCED:
assumption 24. -/
def State.tapTransfer (s : State) (e : Nat) : State :=
  if s.frame.win == .none || (s.eng e).nextXfer.isNone then s
  else
    let s := s.takeHalf e
    match (s.eng e).nextXfer with
    | none => s
    | some x => if x.collect then s.collectQuad e x else s.fillQuad e x

/-- Whether an RT slice ran to its end in this block (R117). -/
def SliceBlk.ran (b : SliceBlk) : Bool := b.ended && !b.halted && !b.faulted

/-- COLLECTION_LATE (R172). -/
def State.lateCollect (s : State) (e : Nat) : State :=
  ((s.count PRT_LATE_CNT).wrB PRT_LATE_ENG e true).raise PRT_INT 2#32

/-- The samples collected for an output tap. -/
def Engine.tapOut (g : Engine) (B tap : Nat) : List Word := (upTo B).map (fun j => sget 0 g.out (tap * 32 + j))

/-- The output taps of one slice at its production point (R113, R117, R168, R172). -/
def State.produceSlice (s : State) (e : Nat) (sl : Nat) (t : Entry) : State :=
  let B := s.blk
  let b := (s.eng e).sb sl
  let taps := (upTo t.outCnt).map (fun i => t.outBase + i)
  let src := fun tap => 0x1000 + e * 128 + tap
  if t.nrt then s.each taps (fun s tap => s.produce (src tap) ((s.eng e).tapOut B tap))
  else
    let done := decide (t.outQuads B ≤ b.coll)
    let s := if b.ran && !done then s.lateCollect e else s
    s.each taps (fun s tap =>
      let g := s.eng e
      let ys := if b.ran && done then (g.tapOut B tap).map some else List.replicate B none
      let f := fadeBlock (sget {} g.fade tap) ys
      (s.setEng e { g with fade := sset {} g.fade tap f.1 }).produce (src tap) f.2.1)

/-- The output taps of a phase on an engine at their production point (R168); taps that no slice carries
fall silent (R21). -/
def State.producePhase (s : State) (phase e : Nat) : State :=
  let s := s.each ((s.eng e).phaseSlices phase) (fun s u => s.produceSlice e u.1 u.2)
  let s := s.each ((s.eng e).gone.filter (fun t => t.2 == phase))
    (fun s t => s.produce (0x1000 + e * 128 + t.1) [])
  s.updEng e (fun g => { g with gone := g.gone.filter (fun t => t.2 != phase) })

/-- A generator's hidden state. -/
def State.gen (s : State) (g : Nat) : Gen := sget {} s.router.gens g

/-- GENERATOR_APPLY (R174): written settings come into force; a change of run from 0 to 1 restarts the
generator. -/
def State.genApply (s : State) (i : Nat) : State :=
  let g := s.gen i
  let cfg := s.rd (PRT_GEN_CFG i)
  let lvl := s.rd (PRT_GEN_LVL i)
  let par := s.rd (PRT_GEN_PAR i)
  let run := bit cfg 0
  let g' : Gen :=
    if !run then {}
    else if g.run then { g with neg := bit cfg 1, lvl := lvl, par := par }
    else { run := true, neg := bit cfg 1, lvl := lvl, par := par, ph := 0, s := par, t := 0 }
  { s with router := { s.router with gens := sset {} s.router.gens i g' } }

/-- sin(π/2 × r / 2^30) in units of 2^-96, within 2^-80, for r up to 2^30: its Taylor series to the 31st power. -/
def quarterSine (r : Nat) : Int :=
  let x : Int := 124451306656115542615260972311 * r / 2 ^ 30
  ((upTo 15).foldl (fun (p : Int × Int) k =>
    let t := -(p.1 * x / 2 ^ 96 * x / 2 ^ 96 / ((2 * k + 2) * (2 * k + 3) : Nat))
    (t, p.2 + t)) (x, x)).2

/-- sin(2π × phase / 2^32), as `quarterSine` gives a quarter of it. -/
def sineOf (phase : Nat) : Int :=
  let r := phase % 2 ^ 30
  match phase / 2 ^ 30 % 4 with
  | 0 => quarterSine r
  | 1 => quarterSine (2 ^ 30 - r)
  | 2 => -quarterSine r
  | _ => -quarterSine (2 ^ 30 - r)

/-- A sine sample (R174): the device's own value within 2 LSB of the rounded product of level and sine. -/
def sineWord (i phase : Nat) (lvl : Nat) : Word :=
  let v := sineOf phase
  let lo := roundHalfEven ((v - 2 ^ 16) * lvl) (2 ^ 96) - 2
  let hi := roundHalfEven ((v + 2 ^ 16) * lvl) (2 ^ 96) + 2
  BitVec.ofInt 32 (clampBits 32 (max lo (min hi (Config.sineSample i phase lvl).toInt)))

/-- The power response of a filter at `f` Hz, in units of 2^-256, from its impulse response in units of 2^-32. -/
def powerAt (fs : Nat) (h : List Int) (f : Nat) : Int :=
  let at_ := fun (shift : Nat) =>
    (h.foldl (fun (r : Int × Nat) x => (r.1 + x * sineOf ((2 ^ 32 * f * r.2 / fs + shift) % 2 ^ 32), r.2 + 1)) (0, 0)).1
  at_ 0 * at_ 0 + at_ (2 ^ 30) * at_ (2 ^ 30)

/-- Whether an impulse response is a pink filter of R174: -3.01 dB per octave within 0.5 dB at every whole hertz of the
stated range, unity gain at 1 kHz, here within 2^-16 of the power. DESIGN CHOICE: assumption 69. -/
def pinkOk (fs : Nat) (h : List Int) : Bool :=
  let top := if 88200 ≤ fs then 20000 else 2 * fs / 5
  ((upTo (top + 1)).drop 20).all (fun f =>
    let p := powerAt fs h f * f
    decide (891251 * 2 ^ 256 ≤ 1000 * p ∧ 1000 * p ≤ 1122018 * 2 ^ 256)) &&
  decide ((powerAt fs h 1000 - 2 ^ 256).natAbs ≤ 2 ^ 240)

/-- A pink filter: the first `n` values, in units of 2^-64, of (1 + z^-1 / 16) / sqrt (1 - z^-1), whose slope is within
a quarter of a decibel of R174's over its range. -/
def pinkShape (n : Nat) : List Int :=
  ((upTo n).foldl (fun (r : List Int × Int × Int) k =>
    let h : Int := if k = 0 then 2 ^ 64 else r.2.1 * (2 * k - 1) / (2 * k)
    ((h + r.2.1 / 16) :: r.1, h, r.2.1)) ([], 0, 0)).1.reverse

/-- The square root of 2^64 over the power response of that filter at 1 kHz, sin and cos in units of 2^-96. -/
def pinkScale (fs : Nat) : Int :=
  let half := 2 ^ 32 * 500 / fs
  let num := 2 * sineOf half * 2 ^ 64 * 256
  let den := 257 * 2 ^ 96 + 32 * sineOf (2 * half + 2 ^ 30)
  (Nat.sqrt (num / den).toNat : Int)

/-- The impulse response of the pink-noise filter, its first `n` values: the device's own if it is one of R174's, and
else a filter that is. DESIGN CHOICE: assumption 69. -/
def pinkFilter (fs n : Nat) : List Int :=
  if pinkOk fs (Config.pinkTaps fs) then (Config.pinkTaps fs).take n
  else (pinkShape n).map (fun h => roundHalfEven (h * pinkScale fs) (2 ^ 64))

/-- The white-noise words of a seed, the newest of the first `n` first (R82, R174). -/
def whiteWords (seed : Word) (n : Nat) : List Word :=
  ((upTo n).foldl (fun (r : List Word × Word) _ => let x := lfsrStep r.2; (x :: r.1, x)) ([], seed)).1

/-- A pink-noise sample (R174): the white noise of the seed through the filter, scaled by the level and clamped. -/
def pinkWord (fs : Nat) (seed : Word) (t : Nat) (lvl : Word) : Word :=
  let sum := ((pinkFilter fs (t + 1)).zip (whiteWords seed (t + 1))).foldl (fun (a : Int) x => a + x.1 * x.2.toInt) 0
  BitVec.ofInt 32 (clampBits 32 (roundHalfEven (sum * lvl.toInt) (2 ^ 63)))

/-- One sample of a running generator at an engine rate, and its state after (R174). -/
def genSample (fs i : Nat) (g : Gen) : Word × Gen :=
  let t := { g with t := g.t + 1 }
  if i < 8 then (sineWord i g.ph g.lvl.toNat, { t with ph := (g.ph + g.par.toNat) % 2 ^ 32 })
  else if i < 10 then (pinkWord fs g.s g.t g.lvl, t)
  else if i < 12 then
    let x := lfsrStep g.s
    (BitVec.ofInt 32 (roundHalfEven (x.toInt * g.lvl.toInt) (2 ^ 31)), { t with s := x })
  else
    (if g.t % g.par.toNat = 0 then (if g.neg then -g.lvl else g.lvl) else 0, t)

/-- A block of a generator at the tick (R168, R174). -/
def State.genBlock (s : State) (i : Nat) : State :=
  let g := s.gen i
  if g.run then
    let r := (upTo s.blk).foldl (fun (r : List Word × Gen) _ =>
      let x := genSample s.fs i r.2
      (r.1 ++ [x.1], x.2)) ([], g)
    ({ s with router := { s.router with gens := sset {} s.router.gens i r.2 } }).produce (1 + i) r.1
  else s.produce (1 + i) []

/-- Step 7 of R37: entries and generator settings come into force, and the tick's sources are complete. -/
def State.routerStep (s : State) : State :=
  let s := s.sinkStep.flagReserved
  let s := s.each (upTo 13) (fun s i => s.genApply i)
  s.each (upTo 13) (fun s i => s.genBlock i)

def execRouterTapTransfer (e : Fin 32) (s : State) : Out := done (s.tapTransfer e)

end Sys2Proof.Machine
end

