-- ==== Sys2Proof/Machine/Matrix.lean ====
section
/-! DEFINITION. The Mix Matrix (R132 to R145): gains and glides, local sums, cascade terms and bus outputs. -/

namespace Sys2Proof.Machine

/-- Whether a channel of a link is a cascade channel in this block (R319). -/
def State.cascChan (s : State) (n c : Nat) : Bool := bit (sget 0 (s.link n).casc (c / 32)) (c % 32)

/-- Whether a source ID is a Dongo cascade channel (R16, R319). -/
def State.cascSrc (s : State) (src : Nat) : Bool :=
  decide (0x2400 ≤ src ∧ src < 0x2800) && s.cascChan ((src - 0x2400) / 256) (src % 256)

/-- Address of a crosspoint word: array 0 bank A, 1 bank B, 2 ramp state (R134). -/
def gainAddr (array b i : Nat) : Nat := 0x30000000 + array * 0x100000 + (b * 1024 + i) * 4

/-- A gain word as the Matrix uses it (R133). -/
def gainInt (w : Word) : Int := if w = 0x80000000#32 then -(2 ^ 31 - 1) else w.toInt

def State.gainWord (s : State) (array b i : Nat) : Int := gainInt (wordOf s.mem (gainAddr array b i))

def State.bus (s : State) (b : Nat) : Bus := sget {} s.mtx.bus b
def State.setBus (s : State) (b : Nat) (x : Bus) : State :=
  { s with mtx := { s.mtx with bus := sset {} s.mtx.bus b x } }

/-- The gain in force at a sample, with the start value after it and the target (R136, R137): block glide
before any segment of the block, else the glide that governs the sample. `x` is (start value, gain at the
sample before). -/
def gainStep (B : Nat) (u : Bus) (t : Bool → Int) (j : Nat) (x : Int × Int) : Int × Int :=
  match segAt u.segs j with
  | none => (x.1, x.1 + roundHalfEven ((t u.sel - x.1) * (j + 1)) B)
  | some g =>
    let n := g.n0 + j
    let s := if n = 1 then x.2 else x.1
    (s, s + roundHalfEven ((t g.bank - s) * min n g.len) g.len)

/-- The gains of a crosspoint over a block, and its start value at the end (R136, R137). -/
def State.gains (s : State) (b i : Nat) : List Int × Int :=
  let u := s.bus b
  let s0 := s.gainWord 2 b i
  let t := fun bank : Bool => s.gainWord (b2n bank) b i
  let r := (upTo s.blk).foldl (fun (r : List Int × Int × Int) j =>
    let x := gainStep s.blk u t j (r.2.1, r.2.2)
    (r.1 ++ [x.2], x.1, x.2)) ([], s0, sget s0 u.last i)
  (r.1, r.2.1)

/-- The local sum of a bus over the block: L_b(j) in units of 2^-63 (R139). -/
def State.localSum (s : State) (b : Nat) : List Int :=
  let rows := s.mtx.xin.map (fun x => (x.2, (s.gains b x.1).1))
  (upTo s.blk).map (fun j =>
    rows.foldl (fun (a : Int) r => a + (sampleAt r.1 j).toInt * r.2.getD j 0 * 16) 0)

/-- The fade of a bus's cascade channel over the block: the fade after, the hold after, and the terms
before the shift (R142). `c` is the value received, none where missing. -/
def cascFade (B : Nat) (f : Nat) (h : Int) (c : Option (List Int)) : Nat × Int × List Int :=
  (upTo B).foldl (fun r j =>
    match c with
    | some v =>
      let f := min (r.1 + 1) 64
      let h := v.getD j 0
      (f, h, r.2.2 ++ [roundHalfEven (h * f) 64])
    | none =>
      let f := r.1 - 1
      (f, r.2.1, r.2.2 ++ [roundHalfEven (r.2.1 * f) 64])) (f, h, [])

/-- The live terms of a bus's cascade sink (R141, R167). -/
def State.cascTerms (s : State) (b : Nat) : List Term := (s.sink (0x1C00 + b)).terms

/-- The cascade channel that a bus's sink takes, if any: that of its newest live term (R141). -/
def State.cascOf (s : State) (b : Nat) : Option Nat :=
  (((s.cascTerms b).filter (fun t => s.cascSrc t.src)).getLast?).map Term.src

/-- The cascade channels that a bus takes, by its live terms (R141, R167). -/
def State.cascSrcs (s : State) (b : Nat) : List Nat := ((s.cascTerms b).filter (fun t => s.cascSrc t.src)).map Term.src

/-- T_b over the block (R141, R142, R167), with the fade and hold after it. Where two live terms are cascade channels,
the last listed carries the bus's f and H, and the other is formed from the same f and H and keeps neither.
DESIGN CHOICE: assumption 86. -/
def State.cascTerm (s : State) (b : Nat) : Nat × Int × List Int :=
  let B := s.blk
  let u := s.bus b
  let k := s.sink (0x1C00 + b)
  let val := fun src : Nat => (s.mtx.casc.find? (fun x => x.1 = src)).map Prod.snd
  let main := match s.cascOf b with
    | some src => cascFade B u.f u.h (val src)
    | none => (u.f, u.h, [])
  let term := fun (t : Term) (j : Nat) =>
    if srcReserved t.src then (0 : Int)
    else if s.cascSrc t.src then
      (if s.cascOf b = some t.src then main.2.2.getD j 0
       else (cascFade B u.f u.h (val t.src)).2.2.getD j 0) * 2 ^ 16
    else (sampleAt (sget [] s.mtx.ctail t.src) j).toInt * 2 ^ 32
  (main.1, main.2.1, (upTo B).map (fun j =>
    roundHalfEven (k.terms.foldl (fun (a : Int) t => a + term t j * termGain t k.count k.len j) 0) unity))

/-- The bus output word and whether it saturated (R140). -/
def busWord (p : Int) (hs : Nat) : Word × Bool :=
  let y := roundHalfEven p (2 ^ (32 + hs))
  (BitVec.ofInt 32 (clampBits 32 y), outOfBits 32 y)

/-- C_b of a partial sum, as 8 little-endian bytes (R141). -/
def cascBytes (p : Int) : List Byte := leBytes 8 (BitVec.ofInt 64 (roundHalfEven p (2 ^ 16))).toNat

/-- CASCADE_FORWARD (R319, R320): the cascade value of a bus goes to every cascade transmit channel routed
from it. A crossfade of the transmit sink does not scale it: C_b of the source in force goes out whole.
DESIGN CHOICE: assumption 87. -/
def State.cascForward (s : State) (b : Nat) (p : List Int) : State :=
  s.each (s.sinksIn 0x1800 1024) (fun s i =>
    let n := (i - 0x1800) / 256
    let c := i % 256
    if s.linkAligned n && s.cascChan n c && entrySrc (s.sinkInForce i) == some (0x2000 + b) then
      s.dngSend n { kind := .casc, seq := 0, block := s.rd SYS_FRM_BLOCK, chan := c, cnt := 1,
                    payload := p.flatMap cascBytes }
    else s)

/-- The cascade channels of a bus's terms that have not arrived (R143). -/
def State.cascMissing (s : State) (b : Nat) : List Nat :=
  (s.cascSrcs b).filter (fun src => !(s.mtx.casc.any (fun x => x.1 = src)))

/-- A term that an aligned link has not brought by the deadline is counted on that link (R320). -/
def State.cascLate (s : State) (b : Nat) : State :=
  if s.mtx.dead then
    s.each ((s.cascMissing b).map (fun src => (src - 0x2400) / 256)) (fun s n =>
      if s.linkAligned n then (s.count (DNG_L_CLATE_CNT n)).raise (DNG_L_INT n) 8#32 else s)
  else s

/-- P_b is complete (R139 to R143): the term is applied or missing, saturation is flagged, and the value is
forwarded. -/
def State.busFinish (s : State) (b : Nat) : State :=
  if (s.mtx.psum.any (fun x => x.1 = b)) then s
  else
    let l := sget [] s.mtx.lsum b
    let t := s.cascTerm b
    let missing := !((s.cascMissing b).isEmpty)
    let s := s.cascLate b
    let p := (upTo s.blk).map (fun j => l.getD j 0 + t.2.2.getD j 0)
    let u := s.bus b
    let s := s.setBus b { u with f := t.1, h := t.2.1 }
    let s := { s with mtx := { s.mtx with psum := sins s.mtx.psum b p } }
    let s := if missing then
        ((s.wrB (MXM_CLOST (b / 32)) (b % 32) true).raise MXM_INT 2#32).count MXM_CLOST_CNT else s
    let n := (p.filter (fun v => (busWord v u.hs).2)).length
    let s := if n = 0 then s
      else ((s.wrB (MXM_SAT (b / 32)) (b % 32) true).raise MXM_INT 1#32).countF MXM_SAT_CNT 31 0 n
    s.cascForward b p

/-- Whether a bus waits for its cascade term (R141, R143). -/
def State.busWaits (s : State) (b : Nat) : Bool :=
  !s.mtx.dead && (s.cascMissing b).any (fun src => s.linkAligned ((src - 0x2400) / 256))

/-- One bus's local sum is complete (R132). -/
def State.busSum (s : State) (b : Nat) : State :=
  let s := { s with mtx := { s.mtx with lsum := sset [] s.mtx.lsum b (s.localSum b), next := b + 1 } }
  if s.busWaits b then s else s.busFinish b

/-- Window lengths in force (R29, R43). -/
def State.wStrip (s : State) : Nat := s.rdF SYS_FRM_WSTRIP 19 0
def State.wSum (s : State) : Nat := s.rdF SYS_FRM_WSUM 19 0
def State.wBus (s : State) : Nat := s.rdF SYS_FRM_WBUS 19 0
def State.wGuard (s : State) : Nat := s.rdF SYS_FRM_GUARD 9 0
def State.pNom (s : State) : Nat := s.rdF SYS_FRM_PERIOD 19 0

/-- MATRIX_BUS_COMPLETE (R132): buses up to `b` complete, at their fixed cycles. -/
def State.busComplete (s : State) (b : Nat) : State :=
  if s.frame.win == .sum then
    s.each ((upTo (b + 1)).filter (fun i => s.mtx.next ≤ i)) (fun s i =>
      (s.advanceTo (s.frame.tickAt + s.wStrip + 8 * s.blk * (i + 1))).busSum i)
  else s

/-- CASCADE_DEADLINE (R143): terms not arrived are missing. -/
def State.cascDeadline (s : State) : State :=
  if s.frame.win == .sum && !s.mtx.dead then
    let s := s.busComplete 255
    let s := s.advanceTo (s.frame.tickAt + s.wStrip + s.wSum - 8)
    let s := { s with mtx := { s.mtx with dead := true } }
    s.each (upTo 256) (fun s b => s.busFinish b)
  else s

/-- The crosspoints of a bus that any array lists. -/
def State.crossList (s : State) (b : Nat) : List Nat :=
  ((upTo 3).flatMap (fun a => (listedWords s.mem (gainAddr a b 0) 1024).map Prod.fst)).dedup

/-- The glides that change a bus's bits in the registers (R137, R145). -/
def State.showBus (s : State) (b : Nat) (gliding sel : Bool) : State :=
  let was := s.rdB (MXM_BUS b) 31
  let s := s.upd (MXM_BUS b) (fun w => setBit (setBit w 31 gliding) 30 sel)
  let s := s.wrB (MXM_GLIDE (b / 32)) (b % 32) gliding
  let n := s.rdF MXM_STAT 24 16
  if gliding && !was then s.wrF MXM_STAT 24 16 (n + 1)
  else if !gliding && was then s.wrF MXM_STAT 24 16 (n - 1)
  else s

/-- A bus at the end of the Sum window (R136): crosspoints that reached their target take it as start
value; a glide in force goes on. -/
def State.rollBus (s : State) (b : Nat) : State :=
  let B := s.blk
  let u := s.bus b
  let xs := s.crossList b
  match u.segs.getLast? with
  | none =>
    { s with mem := xs.foldl (fun m i =>
        putWord m (gainAddr 2 b i) (BitVec.ofInt 32 (s.gainWord (b2n u.sel) b i))) s.mem }
  | some (_, g) =>
    if (g.len : Int) ≤ g.n0 + B - 1 then
      let s := { s with mem := xs.foldl (fun m i =>
        putWord m (gainAddr 2 b i) (BitVec.ofInt 32 (s.gainWord (b2n g.bank) b i))) s.mem }
      (s.setBus b { u with segs := [], sel := g.bank, reached := true, last := [] }).showBus b false g.bank
    else
      let vals : List (Nat × List Int × Int) := xs.map (fun i => (i, s.gains b i))
      let s' := { s with mem := vals.foldl (fun m (v : Nat × List Int × Int) =>
        putWord m (gainAddr 2 b v.1) (BitVec.ofInt 32 v.2.2)) s.mem }
      s'.setBus b { u with segs := [(0, { g with n0 := g.n0 + B })], sel := g.bank,
                           last := vals.foldl (fun l (v : Nat × List Int × Int) =>
                             sins l v.1 (v.2.1.getD (B - 1) 0)) [] }

/-- The buses with anything to roll: those listed, and those with a listed gain word. -/
def State.gainBuses (s : State) : List Nat :=
  ((s.mtx.bus.map Prod.fst) ++
    ((s.mem.filter (fun (kv : Nat × Byte) => decide (0x30000000 ≤ kv.1 ∧ kv.1 < 0x30300000))).map
      (fun (kv : Nat × Byte) => kv.1 % 0x100000 / 4096))).dedup

/-- Bus outputs at their production point, the close of the Sum window (R140, R168). -/
def State.produceBuses (s : State) : State :=
  s.each s.mtx.psum (fun s x =>
    s.produce (0x2000 + x.1) (x.2.map (fun p => (busWord p (s.bus x.1).hs).1)))

/-- A start of a bus glide at a sample of the block that opens (R137), after the earlier starts of the block: the
register shows the start that governs the block's end. DEDUCED: assumption 29. -/
def State.busStart (s : State) (b : Nat) (bank : Bool) (len j0 : Nat) (owner : Option (Fin 4)) : State :=
  let u := s.bus b
  let segs := u.segs.filter (fun x => decide (x.1 < j0)) ++ [(j0, ⟨bank, len, 1 - (j0 : Int)⟩)]
  (s.setBus b { u with segs := segs, reached := false, owner := owner }).showBus b true bank

/-- The bank selected at the end of the starts so far. -/
def Bus.selNow (u : Bus) : Bool := match u.segs.getLast? with
  | some x => x.2.bank
  | none => u.sel

/-- hs and flip_len come into force at step 9 (R140, R145). -/
def State.busInForce (s : State) : State :=
  let listed := (s.regs.filter (fun (kv : Nat × Word) =>
    decide (0x500E0400 ≤ kv.1 ∧ kv.1 < 0x500E0800))).map (fun (kv : Nat × Word) => (kv.1 - 0x500E0400) / 4)
  s.each (listed ++ s.mtx.bus.map Prod.fst).dedup (fun s b =>
    let w := s.rd (MXM_BUS b)
    s.setBus b { s.bus b with hs := bits w 24 20, flipLen := bits w 19 0 })

/-- MXM_FLIPn written (R137). -/
def State.flipWrite (s : State) (n : Nat) (data : Word) : State :=
  if data = 0 then s else (s.upd (MXM_FLIP n) (· ||| data)).raise MXM_STAT 2#32

def execMatrixBusComplete (b : Fin 256) (s : State) : Out := done (s.busComplete b)
def execCascadeDeadline (s : State) : Out := done s.cascDeadline
def execBusFlip (r : Req) (n : Fin 8) (flip : Word) (s : State) : Out :=
  done (s.gated r (MXM_FLIP n) flip (fun s => s.flipWrite n flip))

end Sys2Proof.Machine
end

