-- ==== Sys2Proof/Machine/MorphUnit.lean ====
section
/-! DEFINITION. Morph slots and lane glides (R146 to R159). -/

namespace Sys2Proof.Machine

/-- A morph slot's hidden state. -/
def State.slotM (s : State) (m : Fin 4) : MorphSlot := s.morph.slots.get m
def State.setSlotM (s : State) (m : Fin 4) (x : MorphSlot) : State :=
  { s with morph := { s.morph with slots := s.morph.slots.set m x } }

/-- MXM_MRm_STAT.state: 0 idle, 1 armed, 2 active (R158). -/
def State.slotState (s : State) (m : Fin 4) : Nat := s.rdF (MXM_MR_STAT m) 1 0

/-- MXM_MRm_CTRL written (R149, R156): an arm, then an abort. -/
def State.morphCtrl (s : State) (m : Fin 4) (arm abort : Bool) : State :=
  let s := if arm then
      (if s.slotState m = 0 then
        s.upd (MXM_MR_STAT m) (fun w =>
          setBits (setBits (setBits (setBit (setBits w 29 28 0) 31 false) 12 8 0) 5 4 0) 1 0 1)
      else s.wrB (MXM_MR_STAT m) 30 true)
    else s
  if abort then s.wrB (MXM_MR_CTRL m) 1 true else s

/-- A lane by key, slice ID × 4 + lane. -/
def State.lane (s : State) (k : Nat) : Lane := sget {} s.morph.lanes k
def State.setLane (s : State) (k : Nat) (l : Lane) : State :=
  { s with morph := { s.morph with lanes := sset {} s.morph.lanes k l } }

/-- The ENG_MRPH register of a lane. -/
def laneReg (k : Nat) : Reg := ENG_MRPH (k / 256) (k / 4 % 64)

/-- G at the sample before j: 0 for a lane that was not in morph (R152). -/
def Lane.before (l : Lane) (j : Nat) : Int :=
  if j = 0 then
    match l.segs.head? with
    | some (0, g) =>
      let e : Int := if g.up then 0x7FFFFFFF else 1
      g.gs + roundHalfEven ((e - g.gs) * min (g.n0 - 1) g.len) g.len
    | _ => 0
  else laneG l (j - 1)

/-- A slot loses a glide to another start (R153). -/
def State.slotLoses (s : State) (m : Fin 4) (f : MorphSlot → MorphSlot) : State :=
  s.setSlotM m { f (s.slotM m) with lost := true }

/-- The slot that owns a bus or a lane loses it to another start (R153). -/
def State.loseBus (s : State) (b : Nat) : State :=
  match (s.bus b).owner with
  | some m => s.slotLoses m (fun x => { x with buses := x.buses.filter (fun y => y.1 != b) })
  | none => s
def State.loseLane (s : State) (k : Nat) : State :=
  match (s.lane k).owner with
  | some m => s.slotLoses m (fun x => { x with lanes := x.lanes.filter (· != k) })
  | none => s

/-- Whether a start of a lane glide has an effect (R151): a down glide needs a lane in morph. -/
def State.laneTakes (s : State) (k : Nat) (up : Bool) : Bool := up || !(s.lane k).segs.isEmpty

/-- Start a lane glide of slot m at sample j0, after the starts of earlier samples of the block (R151 to R153). The register shows
inmorph from step 9 of the boundary, also before sample j0, as it does for a bus (R137).
DESIGN CHOICE: assumption 89. -/
def State.laneStart (s : State) (k : Nat) (up : Bool) (len j0 : Nat) (m : Fin 4) : State :=
  let s := s.loseLane k
  let l := s.lane k
  let s := s.setLane k { segs := l.segs.filter (fun x => decide (x.1 < j0)) ++
                                   [(j0, ⟨l.before j0, up, len, 1 - (j0 : Int)⟩)], owner := some m }
  let s := s.wrB (laneReg k) (20 + k % 4) true
  s.setSlotM m { s.slotM m with lanes := (s.slotM m).lanes ++ [k] }

/-- Start a bus glide of slot m (R151, R153), which keeps the bank that the bus had selected (R156). -/
def State.busMorph (s : State) (b : Nat) (bank : Bool) (len j0 : Nat) (m : Fin 4) : State :=
  let prior := (s.bus b).selNow
  let s := (s.loseBus b).busStart b bank len j0 (some m)
  s.setSlotM m { s.slotM m with buses := (s.slotM m).buses ++ [(b, prior)] }

/-- A slot reaches a final status (R149, R153, R156). DEDUCED: assumption 31. -/
def State.slotEnd (s : State) (m : Fin 4) (status : Nat) : State :=
  let s := s.upd (MXM_MR_STAT m) (fun w =>
    setBits (setBits (setBit (setBit w 31 true) 28 (s.slotM m).lost) 5 4 status) 1 0 0)
  let s := s.each ((s.slotM m).buses.map Prod.fst) (fun s b =>
    if (s.bus b).owner = some m then s.setBus b { s.bus b with owner := none } else s)
  let s := s.each (s.slotM m).lanes (fun s k =>
    if (s.lane k).owner = some m then s.setLane k { s.lane k with owner := none } else s)
  (s.setSlotM m {}).wrB MXM_MR_INT m true

/-- A lane at the end of a block that ran: the glide in force at its last sample goes on (R152). -/
def Lane.roll (l : Lane) (B : Nat) : Lane := match l.segs.getLast? with
  | some x => { l with segs := [(0, { x.2 with n0 := x.2.n0 + B })] }
  | none => l

/-- Whether a lane's glide reached n = L in the last block (R152). -/
def Lane.reached (l : Lane) : Bool := match l.segs.head? with
  | some (0, g) => decide ((g.len : Int) ≤ g.n0 - 1)
  | _ => false

/-- MORPH_ABORT_APPLY (R156). -/
def State.morphAbortApply (s : State) (m : Fin 4) : State :=
  if s.rdB (MXM_MR_CTRL m) 1 then
    let s := s.wrB (MXM_MR_CTRL m) 1 false
    match s.slotState m with
    | 1 => s.slotEnd m 2
    | 2 =>
      let x := s.slotM m
      let running := x.buses.any (fun b => !(s.bus b.1).reached) ||
        x.lanes.any (fun k => !(s.lane k).reached)
      if running then
        let s := s.slotEnd m 2
        let s := s.each x.buses (fun s b => s.busStart b.1 b.2 x.len 0 none)
        s.each x.lanes (fun s k =>
          match (s.lane k).segs.getLast? with
          | some g =>
            s.setLane k { segs := [(0, ⟨(s.lane k).before 0, !g.2.up, x.len, 1⟩)], owner := none }
          | none => s)
      else s.slotEnd m 3
    | _ => s
  else s

/-- LANE_MORPH_END (R152): a lane whose glide is finished leaves morph; its cbank toggles after an up
glide. -/
def State.laneEnd (s : State) (k : Nat) : State :=
  let l := s.lane k
  if l.reached then
    let up := match l.segs.head? with
      | some g => g.2.up
      | none => false
    let s := s.upd (laneReg k) (fun w =>
      let w := setBit w (20 + k % 4) false
      if up then setBit w (16 + k % 4) (!(bit w (16 + k % 4))) else w)
    let s := match l.owner with
      | some m => s.setSlotM m { s.slotM m with lanes := (s.slotM m).lanes.filter (· != k) }
      | none => s
    s.setLane k {}
  else s

/-- MORPH_COMPLETE (R153): an active slot that owns no glide still running ends COMPLETE. -/
def State.morphComplete (s : State) (m : Fin 4) : State :=
  if s.slotState m = 2 then
    let x := s.slotM m
    let fin := x.buses.filter (fun b => (s.bus b.1).reached)
    let s := s.each fin (fun s b => s.setBus b.1 { s.bus b.1 with owner := none, reached := false })
    let x := { x with buses := x.buses.filter (fun b => !(fin.contains b)) }
    let s := s.setSlotM m x
    if x.buses.isEmpty && x.lanes.isEmpty then s.slotEnd m 1 else s
  else s

/-- T of a slot in ns. -/
def State.slotTime (s : State) (m : Fin 4) : Nat :=
  (s.rdF (MXM_MR_TSECH m) 15 0 * 2 ^ 32 + (s.rd (MXM_MR_TSECL m)).toNat) * 1000000000 +
    s.rdF (MXM_MR_TNS m) 29 0

/-- Whether a slice is the source or destination of a migration in progress. -/
def State.inMig (s : State) (id : Nat) : Bool :=
  s.rdB CLV_MIG_STAT 0 && (decide (id = s.mig.src) || decide (id = s.mig.dst))

/-- The buses a slot names (R151). -/
def State.slotBuses (s : State) (m : Fin 4) : List Nat :=
  (upTo 8).flatMap (fun i =>
    let w := s.rd (MXM_MR_BUS m i)
    ((upTo 32).filter (fun k => bit w k)).map (fun k => 32 * i + k))

/-- The lanes a slot names, by key (R151, R159): slices whose ENG_MRPH register is listed. -/
def State.slotLanes (s : State) (m : Fin 4) : List Nat :=
  (s.regs.filter (fun kv => decide (0x20000000 ≤ kv.1 ∧ kv.1 < 0x21000000 ∧ 0x71800 ≤ kv.1 % 0x80000 ∧
      kv.1 % 0x80000 < 0x71900))).flatMap (fun kv =>
    let id := (kv.1 - 0x20000000) / 0x80000 * 64 + (kv.1 % 0x80000 - 0x71800) / 4
    ((upTo 4).filter (fun k => bit kv.2 (4 * m.val + k))).map (fun k => id * 4 + k))

/-- The lanes a slot starts: those it names of valid slices that no migration moves (R151). -/
def State.lanesToStart (s : State) (m : Fin 4) : List Nat :=
  (s.slotLanes m).filter (fun k => (s.liveOf (k / 4)).valid && !(s.inMig (k / 4)))

/-- The sample at which an armed slot starts in the block that opens, if it does (R150). `tick` is the STC of the tick
in ns. -/
def State.slotDue (s : State) (tick : Nat) (m : Fin 4) : Option Nat :=
  let d : Int := s.slotTime m - tick
  let j := if d < 0 then 0 else (d * s.fs / 1000000000).toNat
  if s.slotState m = 1 && decide (j < s.blk) then some j else none

/-- The starts of the block that opens, as samples and slots: in ascending sample, at one sample in ascending slot
(R153). -/
def State.dueStarts (s : State) (tick : Nat) : List (Nat × Fin 4) :=
  (upTo s.blk).flatMap (fun j =>
    (([0, 1, 2, 3] : List (Fin 4)).filter (fun m => s.slotDue tick m == some j)).map (fun m => (j, m)))

/-- A slot becomes active (R150, R151): its start sample and block, and whether it is late; mig_skip where it names a
lane of a slice that a migration moves, which nothing clears afterwards. DESIGN CHOICE: assumption 106. -/
def State.slotBegin (s : State) (tick j : Nat) (m : Fin 4) : State :=
  let d : Int := s.slotTime m - tick
  let late := decide (d * s.fs ≤ -1000000000)
  let s := s.upd (MXM_MR_STAT m) (fun w => setBit (setBits (setBits w 1 0 2) 12 8 j) 29 late)
  let s := (s.wr (MXM_MR_SBLK m) (s.rd SYS_FRM_BLOCK)).setSlotM m { len := s.rdF (MXM_MR_CFG m) 19 0 }
  if (s.slotLanes m).any (fun k => s.inMig (k / 4)) then s.wrB (MXM_MR_STAT m) 27 true else s

/-- The direction of a slot's lane glides: up where sdir is 0 (R151). -/
def State.slotUp (s : State) (m : Fin 4) : Bool := !(s.rdB (MXM_MR_CFG m) 29)

/-- BANK_FLIP_APPLY (R137): a flip goes to the bank that is not selected, after the return glides of the boundary's
aborts; one that a morph's start displaces at sample 0 is not applied (R153). DESIGN CHOICE: assumption 88. -/
def State.flipsApply (s : State) (starts : List (Nat × Fin 4)) : State :=
  if s.rdB MXM_STAT 1 then
    let s := s.each (upTo 8) (fun s n =>
      let w := s.rd (MXM_FLIP n)
      let bs := ((upTo 32).filter (fun i => bit w i)).map (fun i => 32 * n + i)
      let s := s.each (bs.filter (fun b => !(starts.any (fun x => x.1 == 0 && (s.slotBuses x.2).contains b))))
        (fun s b => (s.loseBus b).busStart b (!(s.bus b).selNow) (s.bus b).flipLen 0 none)
      s.wr (MXM_FLIP n) 0)
    (s.wrB MXM_STAT 1 false).raise MXM_INT 4#32
  else s

/-- MORPH_START (R150, R151, R153): the glides of a slot's start, but for the buses and lanes that a later slot of the
same sample takes, of which it never has the glide. `s0` is the state before the sample's starts, which says what lanes
are in morph then. -/
def State.morphStart (s0 : State) (starts : List (Nat × Fin 4)) (s : State) (x : Nat × Fin 4) : State :=
  let m := x.2
  let len := s.rdF (MXM_MR_CFG m) 19 0
  let later := (starts.filter (fun y => y.1 == x.1 && decide (m.val < y.2.val))).map Prod.snd
  let s := s.each ((s.slotBuses m).filter (fun b => !(later.any (fun y => (s.slotBuses y).contains b))))
    (fun s b => s.busMorph b (s.rdB (MXM_MR_CFG m) 28) len x.1 m)
  s.each ((s.lanesToStart m).filter (fun k => s0.laneTakes k (s.slotUp m) && !(later.any (fun y =>
      s0.laneTakes k (s.slotUp y) && (s.lanesToStart y).contains k))))
    (fun s k => s.laneStart k (s.slotUp m) len x.1 m)

/-- The lane glides at the end of a block that ran (R152). -/
def State.rollLanes (s : State) : State :=
  s.each (s.morph.lanes.map Prod.fst) (fun s k => s.setLane k ((s.lane k).roll s.blk))

/-- Step 9 of R37 (R137, R150 to R156). `tick` is the STC of the tick in ns. -/
def State.matrixStep (s : State) (tick : Nat) : State :=
  let s := s.busInForce
  let all := ([0, 1, 2, 3] : List (Fin 4))
  let s := s.each all (fun s m => s.morphAbortApply m)
  let s := s.each (s.morph.lanes.map Prod.fst) (fun s k => s.laneEnd k)
  let s := s.each all (fun s m => s.morphComplete m)
  let s := s.each (s.mtx.bus.map Prod.fst) (fun s b => s.setBus b { s.bus b with reached := false })
  let starts := s.dueStarts tick
  let s := s.each starts (fun s x => s.slotBegin tick x.1 x.2)
  s.flipsApply starts |>.each (starts.map Prod.fst).dedup (fun s j =>
    s.each (starts.filter (fun x => x.1 == j)) (State.morphStart s starts))

def execMorphArm (r : Req) (m : Fin 4) (abort : Bool) (s : State) : Out :=
  done (s.gated r (MXM_MR_CTRL m) (if abort then 3#32 else 1#32) (fun s => s.morphCtrl m true abort))

def execMorphAbort (r : Req) (m : Fin 4) (s : State) : Out :=
  done (s.gated r (MXM_MR_CTRL m) 2#32 (fun s => s.morphCtrl m false true))

end Sys2Proof.Machine
end

