-- ==== Sys2Proof/Machine/Migration.lean ====
section
/-! DEFINITION. Slice migration (R121 to R129): its commands, and its share of ticks, switch-ins and
transfers. -/

namespace Sys2Proof.Machine

/-- The destination's entry: the source's, with its base and tap bases (R124 step 2). -/
def migEntry (src : Entry) (sb inBase outBase : Nat) : Entry :=
  { src with base := setBits src.base 13 0 sb,
             taps := setBits (setBits src.taps 22 16 outBase) 6 0 inBase }

/-- Whether a morph is armed or active on a slice (R122): a lane is in morph, or an armed slot names one. -/
def State.morphOn (s : State) (id : Nat) : Bool :=
  s.inMorph id ||
  ([0, 1, 2, 3] : List (Fin 4)).any (fun m =>
    s.slotState m == 1 && bits (s.rd (ENG_MRPH (id / 64) (id % 64))) (4 * m.val + 3) (4 * m.val) != 0)

/-- The lowest refuse code of R122 that holds, 0 if none. Destination taps that would run past input tap 95 or output
tap 127 are refused with code 0x4, though R108 lists no such condition. DESIGN CHOICE: assumption 81. -/
def State.migRefuse (s : State) : Nat :=
  let src := s.rdF CLV_MIG_SRC 10 0
  let dst := s.rdF CLV_MIG_DST 10 0
  let sb := s.rdF CLV_MIG_DST 29 16
  let t := s.liveOf src
  let de := dst / 64
  let g := s.eng de
  let t' := migEntry t sb (s.rdF CLV_MIG_TAPS 6 0) (s.rdF CLV_MIG_TAPS 22 16)
  let k := s.rd CLV_MIG_BLOCK
  if s.rdB CLV_MIG_STAT 0 then 1
  else if !t.valid || t.phase = 2 || s.fslice (src / 64) (src % 64) then 2
  else if (g.entry (dst % 64)).valid || (s.staged de (dst % 64)).valid || !g.active then 3
  else if commitCode g.live (dst % 64) t' s.blk false != 0 ||
      decide (96 < t'.inBase + t'.inCnt) || decide (128 < t'.outBase + t'.outCnt) then 4
  else if s.morphOn src then 5
  else if 2 ^ 25 < s.rdF CLV_MIG_POOL 24 4 * 16 + (t.winSize + t.inSize) * 16 then 6
  else if !(s.running) || !(decide ((s.rd SYS_FRM_BLOCK).toNat < k.toNat)) then 7
  else 0

/-- MIGRATION_START (R122): armed, or refused with a code. What an accepted start clears is the status, the cause, the
refuse code and CLV_MIG_DIFF; done and refused stay until software clears them, and CLV_MIG_STAT.epoch shows the flow of
the source of the last accepted start, also once that migration has ended. DESIGN CHOICE: assumption 101. -/
def State.migStart (s : State) : State :=
  match s.migRefuse with
  | 0 =>
    let src := s.rdF CLV_MIG_SRC 10 0
    let s := s.wr CLV_MIG_STAT (setBits (setBits 0 0 0 1) 3 1 1 ||| (s.rd CLV_MIG_STAT &&& 0x30000#32))
    let s := s.wrF CLV_MIG_STAT 31 24 (s.epochOf src)
    { s.wr CLV_MIG_DIFF 0 with mig :=
        { src := src, dst := s.rdF CLV_MIG_DST 10 0, k := (s.rd CLV_MIG_BLOCK).toNat,
          pool := s.rdF CLV_MIG_POOL 24 4 * 16, dstSb := s.rdF CLV_MIG_DST 29 16,
          inBase := s.rdF CLV_MIG_TAPS 6 0, outBase := s.rdF CLV_MIG_TAPS 22 16, clean := s.mig.clean } }
  | c => (s.wrF CLV_MIG_STAT 15 12 c).raise CLV_MIG_STAT 0x10000#32

/-- Whether the present cycle is that of tick k+3 of the migration in progress, ahead of the tick (R127). -/
def State.migTickDue (s : State) : Bool :=
  decide (s.blockNo = (s.mig.k + 2) % 2 ^ 32) && s.running && !s.frame.final &&
    s.cyclesTo (ceilDiv (s.frame.edge * stcSecond) s.fs) == 0

/-- MIGRATION_ABORT (R127, R128): ABORTED before tick k+3; in the cycle of that tick the migration goes on and ends
ABORT_LATE. -/
def State.migAbortReq (s : State) : State :=
  if s.rdB CLV_MIG_STAT 0 then
    (if s.migTickDue then { s with mig := { s.mig with late := true } } else s.migAbort 1)
  else s

/-- An abort in the cycle of tick k+3, after the tick (R127): what the tick has fixed in this cycle is ABORT_LATE, in
CLV_MIG_STAT and in MIG_DONE alike (R12). A report that the host has taken in the same cycle stands. -/
def State.migLate (s : State) : State :=
  if s.mig.doneNo.any (fun n => !(s.clove.queue.any (fun v => v.no == n))) then s
  else
    let s := s.wrF CLV_MIG_STAT 5 4 3
    { s with clove := { s.clove with queue := s.clove.queue.map (fun v =>
        if s.mig.doneNo = some v.no then { v with payload := v.payload.set 1 (s.rd CLV_MIG_STAT) } else v) } }

/-- CLV_MIG_CTRL written (R122, R127): a start, then an abort. An abort in the cycle of tick k+3 ends ABORT_LATE; one in
a later cycle finds no migration in progress (R128) and does nothing, though R127 says ABORT_LATE of every abort at or
after that tick. DESIGN CHOICE: assumption 82. -/
def State.migCtrl (s : State) (data : Word) : State :=
  let s := if bit data 0 then s.migStart else s
  if bit data 1 then
    (if s.mig.lateFrom = some s.now && !(s.rdB CLV_MIG_STAT 0) && s.rdF CLV_MIG_STAT 5 4 = 1 then s.migLate
     else s.migAbortReq)
  else s

/-- Rewrite the sinks whose source an entry names: each listed sink takes a new source, crossfade 0 (R163). -/
def State.rewriteSrc (s : State) (pick : Nat → Bool) (to_ : Nat → Nat) : State :=
  let is := ((s.router.inForce.map Prod.fst) ++ (s.router.written.map Prod.fst)).dedup
  let hits := is.filter (fun i => pick (bits (s.sinkInForce i) 13 0))
  { s with router := { s.router with rewrites := s.router.rewrites ++ hits.map (fun i =>
      (i, setBits (setBits (s.sinkInForce i) 25 16 0) 13 0 (to_ (bits (s.sinkInForce i) 13 0)))) } }

/-- MIGRATION_ACTIVATE (R124 step 2): the destination entry is created in both tables and takes the source's
cbank (R147). -/
def State.migActivate (s : State) : State :=
  let g := s.mig
  let t := migEntry (s.liveOf g.src) g.dstSb g.inBase g.outBase
  let de := g.dst / 64
  let s := s.setStaged de (g.dst % 64) t
  let s := s.setLive de (sset {} (s.eng de).live (g.dst % 64) t)
  s.wrF (ENG_MRPH de (g.dst % 64)) 19 16 (s.rdF (ENG_MRPH (g.src / 64) (g.src % 64)) 19 16)

/-- MIGRATION_INPUT_SWITCH (R124 step 6): each destination input-tap sink takes the source of the matching
source sink, and whether it is enabled. DESIGN CHOICE: assumption 102. -/
def State.migInputs (s : State) : State :=
  let t := s.liveOf s.mig.src
  let rw := (upTo t.inCnt).map (fun i =>
    (tapSink (s.mig.dst / 64) (s.mig.inBase + i),
     setBits (s.sinkInForce (tapSink (s.mig.src / 64) (t.inBase + i))) 25 16 0))
  { s with router := { s.router with rewrites := s.router.rewrites ++ rw } }

/-- Invalidate a slice in both tables. -/
def State.migDrop (s : State) (id : Nat) : State :=
  (s.dropLive id).wrB (SLT_CTRL (id / 64) (id % 64)) 31 false

/-- The placement epochs of the flows that a slice's records are stamped under step on: its own flow's, and that of a
flow that aliases it (R124 step 8, R126). DESIGN CHOICE: assumption 103. -/
def State.stepEpochs (s : State) (id : Nat) : List (Nat × Nat) :=
  ((s.clove.alias_.filter (fun a => a.2 = id + 1)).map Prod.fst ++ [id]).dedup.foldl
    (fun m f => sset 0 m f ((s.epochOf f + 1) % 256)) s.clove.epoch

/-- MIGRATION_FINISH, step 6 of tick k+3 (R124 step 8, R129). -/
def State.migFinish (s : State) : State :=
  let g := s.mig
  let t := s.liveOf g.src
  let e := g.src / 64
  let de := g.dst / 64
  let fades := (upTo t.outCnt).map (fun i => (g.outBase + i, sget ({} : TapFade) (s.eng e).fade (t.outBase + i)))
  let s := s.migDrop g.src
  let s := s.updEng de (fun h => { h with fade := fades.foldl (fun l x => sset {} l x.1 x.2) h.fade })
  let src0 := 0x1000 + e * 128 + t.outBase
  let dst0 := 0x1000 + de * 128 + g.outBase
  let s := s.rewriteSrc (fun i => decide (src0 ≤ i ∧ i < src0 + t.outCnt)) (fun i => i - src0 + dst0)
  { s with clove := { s.clove with
             epoch := s.stepEpochs g.src,
             alias_ := sset 0 s.clove.alias_ g.src (g.dst + 1) },
           mig := { g with holding := false, batch := none, toSrc := [], toDst := [] } }

/-- MIGRATION_ABORT_APPLY (R127): what an ABORTED outcome does at the next boundary. -/
def State.migCleanup (s : State) (g : MigClean) : State :=
  let t := s.liveOf g.dst
  let mine := t.valid && g.created
  let s := if mine then s.migDrop g.dst else s
  let rw := if mine then (upTo t.inCnt).map (fun i =>
      let k := tapSink (g.dst / 64) (t.inBase + i)
      (k, setBit (setBits (s.sinkInForce k) 25 16 0) 31 false)) else []
  { s with router := { s.router with rewrites := s.router.rewrites ++ rw.filter (fun x => x.2 != s.sinkInForce x.1) },
           clove := { s.clove with queue := s.clove.queue.filter (fun v => !(g.toSrc.contains v.no)) } }

/-- Whether the migration's source or destination did not run to its end in the block that ended (R124
causes 0x6, 0x7). -/
def State.migUnrun (s : State) (id : Nat) : Bool := !((s.eng (id / 64)).sb (id % 64)).ran

/-- The checks of the block that ends, in ascending cause (R124). `blk` is that block's number. -/
def State.migCheck (s : State) (blk : Nat) : State :=
  if s.rdB CLV_MIG_STAT 0 then
    let g := s.mig
    let at_ := fun i => decide (blk = (g.k + i) % 2 ^ 32)
    if at_ 2 && !g.cmp && !(s.migUnrun g.src) && !(s.migUnrun g.dst) then s.migAbort 5
    else if (at_ 0 || at_ 1 || at_ 2) && s.migUnrun g.src then s.migAbort 6
    else if (at_ 1 || at_ 2) && s.migUnrun g.dst then s.migAbort 7
    else s
  else s

/-- The migration's share of step 6, before the commits: activation at k+1, the finish at k+3, the clean-up
after an abort. The block that opens is SYS_FRM_BLOCK. An abort that step 2 of a tick finds (causes 0x5 to 0x7) is
cleaned up at step 6 of that tick, which is taken as the next boundary. DESIGN CHOICE: assumption 83. -/
def State.migStep6 (s : State) : State :=
  let s := { s.each s.mig.clean State.migCleanup with mig := { s.mig with clean := [] } }
  if s.rdB CLV_MIG_STAT 0 then
    let n := s.blockNo
    let k := s.mig.k
    if n = k then s.wrF CLV_MIG_STAT 3 1 2
    else if n = (k + 1) % 2 ^ 32 then
      let s := (s.wrF CLV_MIG_STAT 3 1 3).migActivate
      { s with mig := { s.mig with created := true } }
    else if n = (k + 2) % 2 ^ 32 then (s.wrF CLV_MIG_STAT 3 1 4).migInputs
    else if n = (k + 3) % 2 ^ 32 then
      let s := s.migFinish
      { s with mig := { s.mig with finishing := true } }
    else s
  else s

/-- Step 9 of R124, at step 7 of tick k+3: status COMPLETE. -/
def State.migStep7 (s : State) : State :=
  if s.mig.finishing then
    let n := s.clove.next
    let s := s.migEnd (if s.mig.late then 3 else 1) 0
    { s with mig := { s.mig with finishing := false, late := false, lateFrom := some s.now,
                                 doneNo := if s.clove.queue.any (fun v => v.no == n) then some n else .none } }
  else s

/-- MIGRATION_LOAD (R124 step 4): the snapshot, then the input history, are loaded into the destination
window, once the history of block k+1 is whole. -/
def State.migLoad (s : State) : State :=
  let g := s.mig
  if s.rdB CLV_MIG_STAT 0 && decide (s.blockNo = (g.k + 1) % 2 ^ 32) && g.created && g.snap && !g.loaded then
    let t := s.liveOf g.dst
    let qs := t.inQuads s.blk
    if qs ≤ g.hist then
      let a := dmemAddr (g.dst / 64) (t.sb * 4)
      let h := s.migPool + t.winSize * 16
      let word := fun k => if s.whole k then wordOf s.mem k else 0
      let m := (upTo qs).foldl (fun m q =>
        ((upTo 4).filter (fun i => q / s.blk * 4 + i < t.inCnt)).foldl (fun m i =>
          putWord m (a + q * 16 + 4 * i) (word (h + q * 16 + 4 * i))) m) (s.copied s.migPool a (t.winSize * 16))
      State.fenceRange { s with mem := m, mig := { g with loaded := true } }
        s.migPool (t.winSize * 16 + qs * 16) (12 + g.dst / 512) false
    else s
  else s

/-- The first word, from the window's start, in which the two windows differ (R124 step 7). -/
def State.migDiff (s : State) : Option Nat :=
  let g := s.mig
  let ts := s.liveOf g.src
  let a := dmemAddr (g.src / 64) (ts.sb * 4)
  let b := dmemAddr (g.dst / 64) ((s.liveOf g.dst).sb * 4)
  let n := ts.winSize * 4
  let ks := ((listedWords s.mem a n).map Prod.fst ++ (listedWords s.mem b n).map Prod.fst).dedup
  (ks.filter (fun k => wordOf s.mem (a + 4 * k) != wordOf s.mem (b + 4 * k))).min?

/-- MIGRATION_COMPARE (R124 step 7): once both slices have ended in block k+2. -/
def State.migCompare (s : State) : State :=
  let g := s.mig
  if s.rdB CLV_MIG_STAT 0 && decide (s.blockNo = (g.k + 2) % 2 ^ 32) && !g.cmp &&
      !(s.migUnrun g.src) && !(s.migUnrun g.dst) then
    match s.migDiff with
    | none => { s with mig := { g with cmp := true } }
    | some w =>
      (s.wr CLV_MIG_DIFF (setBits (setBit 0 31 true) 15 0 w)).migAbort 4
  else s

/-- The switch-in of a slice closes the batch of R125 and meets the deadlines of R124 (causes 0x2, 0x3): the
destination's window is loaded and it has received the batch of block k+1 (step 4). -/
def State.migSwitchIn (s : State) (id : Nat) : State :=
  if s.inMig id && (decide (s.blockNo = (s.mig.k + 1) % 2 ^ 32) || decide (s.blockNo = (s.mig.k + 2) % 2 ^ 32)) then
    let first := decide (s.blockNo = (s.mig.k + 1) % 2 ^ 32)
    let s := if first && decide (id = s.mig.src) && !s.mig.snap then s.migAbort 2
      else if first && decide (id = s.mig.dst) && (!s.mig.loaded || s.batchWaits false) then s.migAbort 3
      else s
    if s.mig.batch.isNone && s.mig.holding then
      { s with mig := { s.mig with batch := some s.batchLimit } }
    else s
  else s

/-- A new batch opens with each block (R125); events delivered to both engines leave the queue. -/
def State.migNewBlock (s : State) : State :=
  if s.mig.holding then
    { s with clove := { s.clove with queue := s.clove.queue.filter (fun v =>
               !(s.mig.toSrc.contains v.no && s.mig.toDst.contains v.no)) },
             mig := { s.mig with batch := none,
                                 toSrc := s.mig.toSrc.filter (fun n => !(s.mig.toDst.contains n)),
                                 toDst := s.mig.toDst.filter (fun n => !(s.mig.toSrc.contains n)) } }
  else s

/-- The frame stops: a migration before tick k+3 ends ABORTED with cause 0x8 (R124).
DEDUCED: assumption 32. -/
def State.migFrameStop (s : State) : State := s.migAbort 8

def execMigrationStart (r : Req) (s : State) : Out :=
  done (s.gated r CLV_MIG_CTRL 1#32 (fun s => s.migCtrl 1#32))
def execMigrationAbort (r : Req) (s : State) : Out :=
  done (s.gated r CLV_MIG_CTRL 2#32 (fun s => s.migCtrl 2#32))
def execMigrationLoad (s : State) : Out := done s.migLoad
def execMigrationCompare (s : State) : Out := done s.migCompare

end Sys2Proof.Machine
end

