-- ==== Sys2Proof/Machine/Sequencer.lean ====
section
/-! DEFINITION. The slice sequencer and the event interface of an engine (R60, R64 to R68, R112, R114,
R170), and the commands that act on an engine's time and memory. -/

namespace Sys2Proof.Machine

/-- The reckoned end of the window in force (R32). -/
def State.reckonedEnd (s : State) : Nat :=
  let t := s.frame.tickAt
  let early := t + s.pNom - s.wGuard + 1
  match s.frame.win with
  | .none => 0
  | .strip => t + s.wStrip
  | .sum => t + s.wStrip + s.wSum
  | .bus => min (t + s.wStrip + s.wSum + s.wBus) early
  | .tail => early

/-- The computed close of the window in force, where it has one (R29). -/
def State.computedClose (s : State) : Option Nat :=
  let t := s.frame.tickAt
  match s.frame.win with
  | .strip => some (t + s.wStrip)
  | .sum => some (t + s.wStrip + s.wSum)
  | .bus => some (t + s.wStrip + s.wSum + s.wBus)
  | _ => none

/-- Whether an engine has not passed the close of the window in force. -/
def State.inWindow (s : State) (g : Engine) : Bool :=
  s.frame.win != .none && (match s.computedClose with
    | some c => decide (g.cyc < c)
    | none => true)

/-- The phase whose slices the window in force runs: 0 Strip, 1 Bus; none in the Sum window and the tail. -/
def windowPhase : Window → Option Nat
  | .strip => some 0
  | .bus => some 1
  | _ => none

/-- A slice whose turn is to come in the block: not started, skipped, or barred by its ENG_FSLICE bit. -/
def Engine.turnOf (g : Engine) (sl : Nat) : Bool :=
  let b := g.sb sl
  !b.started && !b.skipped && !b.barred

/-- Slices of the window's phase whose turns come in order (R112): NRT slices that do not fit ahead of the
next slice to run, and that slice. -/
def seqTurn (fits : Nat → Bool) : List (Nat × Entry) → List Nat × Option Nat
  | [] => ([], none)
  | u :: us =>
    if u.2.nrt && !(fits u.1) then
      let r := seqTurn fits us
      (u.1 :: r.1, r.2)
    else ([], some u.1)

/-- Whether the outputs of the window's RT slices are still to be collected (R170). -/
def Engine.rtCollects (g : Engine) : Bool := g.xq.any (fun x => x.collect && (g.entry x.slice).rt)

/-- Whether a slice's turn waits for the batch of a migration in progress (R125): each engine receives the batch before
its own run. The destination's run of block k+1 does not wait: it ends the migration (R124 step 4). -/
def State.turnWaits (s : State) (id : Nat) : Bool :=
  id == s.mig.src && s.batchWaits true ||
    id == s.mig.dst && s.batchWaits false && s.blockNo != (s.mig.k + 1) % 2 ^ 32

/-- The sequencer's choice at a slice boundary of an engine (R112, R114, R170): the slices it skips, and the
slice it begins to switch in, if one can begin now. -/
def State.seqPick (s : State) (e : Nat) (g : Engine) : List Nat × Option Nat :=
  if g.active && g.cur.isNone && g.draining.isNone && s.inWindow g then
    let left := s.reckonedEnd - g.cyc
    let fits := fun sl => decide (s.budgetOf (e * 64 + sl) ≤ left)
    let turn := match windowPhase s.frame.win with
      | some p => seqTurn fits ((g.phaseSlices p).filter (fun u => g.turnOf u.1))
      | none => ([], none)
    match turn with
    | (sk, some sl) => (sk, if (g.sb sl).filled && !(s.turnWaits (e * 64 + sl)) then some sl else none)
    | (sk, none) =>
      if g.rtCollects then (sk, none)
      else (sk, ((g.phaseSlices 2).find? (fun u =>
        g.turnOf u.1 && (g.sb u.1).filled && fits u.1)).map Prod.fst)
  else ([], none)

/-- A delivered event that the engine can take at its present cycle. -/
def Engine.takeable (g : Engine) : Bool := g.deliv.any (fun d => decide (d.at_ ≤ g.cyc))

/-- The register set a slice starts with (R46, R83). -/
def startSet (t : Entry) (block : Nat) : RegSet :=
  let p := BitVec.ofNat 16 (t.sb * 4)
  { p := (upTo 8).foldl (fun m i => sset 0 m i p) [],
    sb := BitVec.ofNat 14 t.sb,
    sr := 0x00010000#32,
    dith := L4.of (fun k => dithSeed t.dkey block k.val) }

/-- The engine at a slice boundary: the PWAITs of a drain that has ended have taken their cycles (R63). -/
def Engine.atTurn (g : Engine) : Engine :=
  let g := g.boundary
  if g.wait == .none then engTo g g.waitAt else g

/-- SLICE_START (R60, R112, R114): at a slice boundary with no event to take (R64) the sequencer switches in
the next eligible slice, in 4 cycles in which the results in flight land. -/
def State.sliceStart (s : State) (e : Nat) : State :=
  let g := (s.engAt e).atTurn
  if g.inEvt || g.takeable then s
  else
    match s.seqPick e g with
    | (sk, pick) =>
      let g := sk.foldl (fun g i => g.updSb i (fun b => { b with skipped := true })) g
      match pick with
      | none => if sk.isEmpty then s else s.setEng e g
      | some sl =>
        let s := s.setEng e g
        let s := s.migSwitchIn (e * 64 + sl)
        let g := { engRun (s.eng e) 4 with spare := 8 }
        State.cloveHost <| s.setEng e { g.updSb sl (fun b => { b with started := true }) with
          main := startSet (g.entry sl) s.blockNo, cur := some sl, pc := (g.entry sl).pc, meas := 4,
          busy := g.busy + 4, gidx := 0, delay := .none, rpt := .none, wait := .none, halting := false }

/-- Whether an event can be taken at an engine's present boundary (R64). During the far-queue drain at a slice's end no
slice is running, whatever its SR.epm was, though ENG_STAT.slice_valid still shows it. DESIGN CHOICE: assumption 105. -/
def Engine.evtOpen (g : Engine) : Bool :=
  !g.inEvt && (g.cur.isNone || srEpm g.main.sr) && g.rpt.isNone && g.delay.isNone



/-- The shadow set as a handler finds it (R65, R83). -/
def evtSet (r : RegSet) (sb slot block : Nat) : RegSet :=
  { r.setP 7 (BitVec.ofNat 16 (0xFFC0 + 8 * slot)) with
    sb := BitVec.ofNat 14 sb, sr := 0x00020000#32,
    dith := L4.of (fun k => dithSeed 0xFFFF block k.val) }

/-- EVENT_TAKE (R64, R65, R68): at an eligible boundary the engine takes the oldest delivered event. The
first bundle of the handler issues 1 cycle for the switch and 3 for its fetch later, and 1 more where the
sequencer would begin a slice switch at the same boundary. -/
def State.eventTake (s : State) (e : Nat) : State :=
  let g := (s.engAt e).boundary
  match g.deliv with
  | [] => s
  | d :: ds =>
    if g.evtOpen && decide (d.at_ ≤ g.cyc) && !(s.engFenced e) then
      let arb := b2n (s.seqPick e g).2.isSome
      let h := g.payHold
      let h := { h with
        deliv := ds, epc := g.pc, inEvt := true, evtSlice := d.slice, evtSlot := d.slot, evtFlow := d.flow,
        shadow := evtSet g.shadow (g.entry d.slice).sb d.slot s.blockNo,
        mainWait := g.wait, wait := .none, pc := s.rdF (ENG_EVT_VEC e) 12 0 }
      let h := { engRun h (arb + 4) with spare := 2 * (arb + 4) }
      let s := s.setEng e { h with evtFirst := h.cyc }
      (s.count (ENG_EVT_CNT e)).maxF (ENG_EVT_LATMAX e) 16 0 (h.cyc - d.sent)
    else s

/-- HANDLER_TIMEOUT (R67): RCAP cycles after its first bundle, a handler that has not returned faults with
EVT_LONG. -/
def State.handlerTimeout (s : State) (e : Nat) : State :=
  let g := s.engAt e
  if g.inEvt then (s.setEng e (engTo g (g.evtFirst + g.rcap))).engFault e 12 else s

/-- The cycle in which the next result in flight lands. -/
def Engine.nextLand (g : Engine) : Option Nat := (g.flight.map Flight.due).min?

/-- PIPELINE_RESULT_LAND (R55, R56, R58): time passes on an engine until its next result lands. -/
def State.resultLand (s : State) (e : Nat) : State :=
  let g := s.engAt e
  match g.nextLand with
  | some c => s.setEng e (engTo g c)
  | none => s

/-- EXTERNAL_DMEM_ACCESS (R51, R52, R179, R180): one quad, for the DMA of the engine's cluster, master e / 8 of R190. A
fenced bank reads zeros and keeps nothing, and the access is counted and logged and ends with an error (R186).
DESIGN CHOICE: assumption 77. -/
def State.externalAccess (s : State) (e q : Nat) (write : Bool) (strb : BitVec 16) (data : BitVec 128) :
    State :=
  let m := e / 8
  let u := e * 16 + q / 1024
  if s.fenced u then (s.fenceLog u m write).respondBeats [0] true
  else if write then (s.extWrite m e q strb data).respondBeats [] false
  else
    let x := s.extRead m e q
    x.2.respondBeats [x.1.zeroExtend 256] false

def execSliceStart (e : Fin 32) (s : State) : Out := done (s.sliceStart e)
def execEventTake (e : Fin 32) (s : State) : Out := done (s.eventTake e)
def execHandlerTimeout (e : Fin 32) (s : State) : Out := done (s.handlerTimeout e)
def execPipelineResultLand (e : Fin 32) (s : State) : Out := done (s.resultLand e)
def execExternalDmemAccess (e : Fin 32) (quad : BitVec 14) (write : Bool) (strb : BitVec 16)
    (data : BitVec 128) (s : State) : Out := done (s.externalAccess e quad.toNat write strb data)
def execFarBeatServe (e : Fin 32) (s : State) : Out := done (s.farBeat e)
def execFarRequestComplete (e : Fin 32) (s : State) : Out := done (s.farComplete e)

/-- ENG_SLT_COMMIT written (R106). -/
def State.sltCommit (s : State) (e : Nat) (data : Word) : State :=
  if bit data 0 then (s.wr (ENG_SLT_COMMIT e) 1#32).wrB (ENG_SLT_STAT e) 0 true else s

/-- SLICE_TABLE_COMMIT (R106): the staged table is to be copied at the next boundary. -/
def execSliceTableCommit (r : Req) (e : Fin 32) (s : State) : Out :=
  done (s.gated r (ENG_SLT_COMMIT e) 1#32 (fun s => s.sltCommit e 1#32))

end Sys2Proof.Machine
end

