-- ==== Sys2Proof/Machine/Events.lean ====
section
/-! DEFINITION. Clove's commands (R206 to R221): posts from the ports and the outboxes, deliveries, timed
events, and the host's pops. -/

namespace Sys2Proof.Machine

/-- Whether a requester's writes to a posting port take effect (R208). -/
def postAgent (q : Req) (p : Nat) : Bool :=
  match p with
  | 0 => q.master == 6 && !q.guest
  | 1 => q.master == 6
  | 2 => q.master == 4
  | _ => q.master == 5

/-- The word that a held write carries for a register (R330). -/
def AniItem.wordFor (r : Reg) : AniItem → Option Word
  | .write g a strb d =>
    if decide (a ≤ r.addr ∧ r.addr < a + 32) && strb.getLsbD (r.addr - a) && writerOk ⟨6, g⟩ r then
      some (beatWord d ((r.addr - a) / 4)) else none
  | _ => none

/-- What a payload register of a posting port holds for a post: on an active Anise device a post goes out with the last
payload written, which its port's registers show only from their own epoch on (R330, R335). DEDUCED: assumption 17. -/
def State.payloadWord (s : State) (r : Reg) : Word :=
  if s.aniActive then
    match (s.ani.wait.flatMap Epoch.items ++ s.ani.cap).reverse.findSome? (AniItem.wordFor r) with
    | some w => (s.rd r &&& ~~~r.rw) ||| (w &&& r.rw)
    | none => s.rd r
  else s.rd r

/-- The event that a posting port holds (R207, R208). -/
def State.portEvent (s : State) (p : Nat) (hdr : Word) : Ev :=
  { no := 0, type := bits hdr 23 16, cls := bits hdr 15 14, origin := min p 2, flow := bits hdr 11 0,
    sec := s.payloadWord (CLV_POST_TSEC p), ns := s.payloadWord (CLV_POST_TNS p),
    payload := (upTo 5).map (fun k => s.payloadWord (CLV_POST_P p k)) }

/-- EVENT_POST (R208, R209): a write of CLV_POSTp_HDR posts, and RES says how it ended. A post that an active
Anise device accepts enters its flow at its epoch's application (R330). On a standby the write of a bad header is
discarded as any other (R331). -/
def State.eventPost (s : State) (q : Req) (p : Nat) (hdr : Word) : State :=
  if !(postAgent q p) then s
  else
    let v := s.portEvent p hdr
    if decide (p < 2) && s.aniStandby && decide (2368 ≤ v.flow) then s.aniDiscard
    else if 2368 ≤ v.flow then s.reject q (BitVec.ofNat 32 (CLV_POST_HDR p).addr) hdr
    else if decide (p < 2) && s.aniStandby then (s.wr (CLV_POST_RES p) 4#32).aniDiscard
    else if decide (p < 2) && decide (2048 ≤ v.flow ∧ v.flow < 2304) then s.wr (CLV_POST_RES p) 4#32
    else if s.postBusy v.cls v.flow then (s.wr (CLV_POST_RES p) 1#32).count CLV_BUSY_CNT
    else
      let s := s.wr (CLV_POST_RES p) 0
      if p < 2 then
        let n := s.rd CLV_SEQ + 1
        let s := (s.wr CLV_SEQ n).wr (CLV_POST_SEQ p) n
        let v := s.stamped { v with seq := some n }
        if s.aniActive then
          let s := s.aniSend (.post p v)
          { s with ani := { s.ani with cap := s.ani.cap ++ [.post p v] } }
        else s.acceptAs v
      else s.accept v

/-- The DMEM word at which an outbox or delivery slot starts (R210, R214). -/
def outboxWord (o : Nat) : Nat := 0xFF80 + 8 * o
def deliveryWord (r : Nat) : Nat := 0xFFC0 + 8 * (r % 8)

/-- OUTBOX_POST (R210, R218): a slot whose word 0 a program has left with origin 0b11 is taken as a post of
the engine, under the epoch noted when the word was stored. The external port of the exchange window takes two cycles to
read the slot and one to write word 0 (R179). -/
def State.outboxPost (s : State) (e o : Nat) : State :=
  let a := dmemAddr e (outboxWord o)
  let g := s.engAt e
  let w := fun i => wordOf s.mem (a + 4 * i)
  match sget 0 g.obox o with
  | 0 => s
  | st + 1 =>
    if bits (w 0) 13 12 = 3 then
      let at_ := g.portSlot 1
      let s := s.setEng e { g.takePort 1 at_ 3 with obox := sset 0 g.obox o 0 }
      let flow := bits (w 0) 11 0
      let cls := bits (w 0) 15 14
      let put := fun (s : State) (x : Word) =>
        s.portWrite e ((wordBytes [x]).zipIdx.map (fun b => (at_ + 2, a + b.2, b.1)))
      let drop := fun (s : State) => put ((s.count CLV_DROP_CNT).raise CLV_INT 4#32) 1#32
      if 2368 ≤ flow then drop (s.count CLV_BADPOST_CNT)
      else if s.postBusy cls flow then drop s
      else
        (put s 0).accept
          { no := 0, type := bits (w 0) 23 16, cls := cls, origin := 3, flow := flow, sec := w 1,
            ns := w 2 &&& 0x3FFFFFFF#32, payload := (upTo 5).map (fun k => w (3 + k)),
            srcFlow := some (st / 256), epoch := st % 256 }
    else s

/-- A head that may be delivered to an engine, and the slice it goes to: 0 for the flow's own target, 1 and 2
for a migration's source and destination (R125). -/
structure Cand where
  ev   : Ev
  side : Nat
deriving DecidableEq, Repr

/-- The next event of a migrated flow's batch for one of its slices (R125, R217). -/
def State.batchHead (s : State) (e : Nat) (side : Nat) : List Cand :=
  let src := decide (side = 1)
  if (s.sideOf src).1 / 64 = e then
    match s.batchReady src with
    | some v => if s.admits v then [⟨v, side⟩] else []
    | none => []
  else []

/-- The heads that Clove may pick for an engine (R212, R214). -/
def State.engCands (s : State) (e : Nat) : List Cand :=
  (s.clove.queue.filter (fun v => decide (v.flow < 2048) && decide (s.target v.flow / 64 = e) &&
    s.isHead v && s.ready v)).map (fun v => ⟨v, 0⟩) ++ s.batchHead e 1 ++ s.batchHead e 2

/-- Whether a head goes before another (R214): by class, then for Timed by stamp, then by acceptance. -/
def State.before (s : State) (u v : Ev) : Bool :=
  if u.cls != v.cls then decide (u.cls < v.cls)
  else if u.cls = 1 && s.stampDist u != s.stampDist v then decide (s.stampDist u < s.stampDist v)
  else decide (u.no < v.no)

/-- The head that goes first. -/
def State.firstCand (s : State) : List Cand → Option Cand
  | [] => none
  | c :: cs => match s.firstCand cs with
    | none => some c
    | some d => some (if s.before d.ev c.ev then d else c)

/-- The cycles a record takes from its delivery until the engine can take it (R68). -/
def Engine.recordTime (g : Engine) : Nat := if g.writeSlot < g.xport.get 0 then 3 else 2

/-- Write a record to the next delivery slot of an engine through the external port, a cycle for each of its two
quads; the engine can take it 2 cycles later, or 3 where a far transfer has the port ahead of it (R68, R179, R180,
R214). -/
def State.putRecord (s : State) (e : Nat) (c : Cand) (sl : Nat) : State :=
  let r := sget 0 s.clove.count e
  let g := s.engAt e
  let at_ := g.cyc + g.recordTime
  let w := g.portSlot 1
  let a := dmemAddr e (deliveryWord r)
  let bs := wordBytes (evWords c.ev (s.epochOf c.ev.flow))
  let s := s.setEng e { g.takePort 1 w 2 with deliv := g.deliv ++ [⟨sl, r % 8, at_, c.ev.flow, g.cyc⟩] }
  let s := s.portWrite e ((upTo 32).map (fun i => (w + i / 16, a + i, bs.getD i 0)))
  let v := if c.side = 2 then { c.ev with seq := none } else c.ev
  { s with clove := { s.clove with out := s.clove.out ++ [(e, v)], count := sset 0 s.clove.count e (r + 1) } }

/-- Whether R119 discards an event for a slice. -/
def discards (t : Entry) (v : Ev) : Bool :=
  !t.valid || decide (16 ≤ v.type) || (t.evtMask / 2 ^ v.type) % 2 == 0

/-- EVENT_DELIVER to an engine (R119, R125, R214, R217, R218). An event of a migration's batch counts as discarded once,
with the source's side. DEDUCED: assumption 26. -/
def State.deliverTo (s : State) (e : Nat) : State :=
  match s.firstCand (s.engCands e) with
  | none => s
  | some c =>
    let v := c.ev
    let id := match c.side with
      | 0 => s.target v.flow
      | 1 => s.mig.src
      | _ => s.mig.dst
    let mark := fun (s : State) =>
      match c.side with
      | 0 => s.unqueue v
      | 1 => { s.admitted v with mig := { s.mig with toSrc := s.mig.toSrc ++ [v.no] } }
      | _ => { s.admitted v with mig := { s.mig with toDst := s.mig.toDst ++ [v.no] } }
    if s.stale v then (s.dropStale v).cloveHost
    else if discards (s.liveOf id) v then
      (if c.side = 2 then mark s else (mark (s.count CLV_DISC_CNT)).consumed v).cloveHost
    else
      let s := if v.cls = 3 && !v.admitted then s.charge v else s
      (mark (s.putRecord e c (id % 64))).cloveHost

/-- EVENT_DELIVER to an engine, with the buffers that it frees (R220). -/
def State.deliverEng (s : State) (e : Nat) : State := s.freeing (fun s => s.deliverTo e)

/-- EVENT_DELIVER to a house core (R215): the record is the core's firmware's from then on. -/
def State.deliverCore (s : State) (c : Nat) : State := s.freeing fun s =>
  let hs := (s.clove.queue.filter (fun v => decide (2048 ≤ v.flow ∧ v.flow < 2304) &&
    decide (s.coreOf v.flow = c) && s.isHead v && s.ready v)).map (fun v => (⟨v, 0⟩ : Cand))
  match s.firstCand hs with
  | none => s
  | some k =>
    let v := k.ev
    if s.stale v then (s.dropStale v).cloveHost
    else
      let s := if v.cls = 3 then s.charge v else s
      let s := (s.unqueue v).consumed v
      { s with clove := { s.clove with house := s.clove.house ++ [(c, v)],
                                       aff := sset 0 s.clove.aff v.flow (c + 1) } }.cloveHost

/-- TIMED_EVENT_DUE (R213): time passes until the STC reaches the stamp of a flow's Timed head. While a pair
runs, a head of a slice flow becomes due at a tick (R333), and nothing happens here. -/
def State.timedDue (s : State) (f : Nat) : State :=
  match s.head? f with
  | some v =>
    if v.cls = 1 && !(s.rdB ANI_CTRL 0 && decide (f < 2048)) then
      let d := s.stampDist v
      let t := s.stc / 1000000000000 * 1000000000000 + d.toNat * 1000000000000
      (s.advance (s.cyclesTo t)).cloveHost
    else s.cloveHost
  | none => s

/-- Discard the stale heads of a host flow (R218). -/
def State.popStale : Nat → State → Nat → State
  | 0, s, _ => s
  | n + 1, s, f =>
    match s.head? f with
    | some v => if s.ready v && s.stale v then popStale n (s.dropStale v).cloveHost f else s
    | none => s

/-- Events queued in a flow. -/
def State.depth (s : State) (f : Nat) : Nat := (s.clove.queue.filter (fun v => v.flow = f)).length

/-- A Dongo link pops a host flow itself while it is UP and forwards events (R323). -/
def State.forwarded (s : State) (f : Nat) : Bool :=
  decide (2360 ≤ f ∧ f < 2364) && s.rdB (DNG_L_CTRL (f - 2360)) 1 && s.linkUp (f - 2360)

/-- The ready head of a host flow, its stale heads discarded before (R216, R218). -/
def State.hostHead (s : State) (f : Nat) : Option Ev := match s.head? f with
  | some v => if s.ready v then some v else none
  | none => none

/-- HOST_POP (R216): the ready head of a host flow goes to CLV_HREC, or CLV_HREC is zeroed. -/
def State.hostPop (s : State) (q : Nat) : State := s.freeing fun s =>
  let f := 2304 + q
  let s := s.cloveHost
  let s := if s.forwarded f then s else popStale (s.depth f) s f
  let take := if s.forwarded f then none else s.hostHead f
  let ws := match take with
    | some v => evWords v v.epoch
    | none => []
  let s := match take with
    | some v => ((s.unqueue v).consumed v).cloveHost
    | none => s
  let s := s.each (upTo 8) (fun s i => s.wr (CLV_HREC i) (ws.getD i 0))
  s.wr CLV_HPOP_STAT (setBits (setBit 0 31 take.isSome) 11 0 (s.depth f))

def execEventPost (r : Req) (p : Fin 4) (hdr : Word) (s : State) : Out :=
  if writerOk r (CLV_POST_HDR p) then
    let s := s.respond 0 false
    done (if s.held then s else s.eventPost r p hdr)
  else done (s.gated r (CLV_POST_HDR p) hdr id)
def execOutboxPost (e : Fin 32) (o : Fin 8) (s : State) : Out := done (s.outboxPost e o)
def execEventDeliver (d : Dest) (s : State) : Out :=
  match d with
  | .engine e => done (s.deliverEng e)
  | .core c => done (s.deliverCore c)
def execTimedEventDue (flow : BitVec 12) (s : State) : Out := done (s.timedDue flow.toNat)
def execHostPop (r : Req) (q : Fin 64) (s : State) : Out :=
  done (s.gated r CLV_HPOP (BitVec.ofNat 32 q.val) (fun s => s.hostPop q))

end Sys2Proof.Machine
end

