-- ==== Sys2Proof/Machine/DmaChan.lean ====
section
/-! DEFINITION. DMA channels (R362 to R364, R366, R368): their registers and state, descriptors, and what the end of
a channel's transaction does. Their transactions are issued in Machine/Dma.lean. -/

namespace Sys2Proof.Machine

/-- Register space (R13, R54, R189): the peripheral blocks with what lies above them, and the register
block of each engine window. -/
def isRegAddr (a : Nat) : Bool :=
  decide (0x50000000 ≤ a ∧ a < 0x60000000) ||
    (decide (0x20000000 ≤ a ∧ a < 0x21000000) && decide (0x70000 ≤ a % 0x80000))

/-- A channel's registers: DMA unit 0–3 is CDMA0–3, 4 is HIF (R366, R368). -/
def dmaReg (u c : Nat) (k : Nat) : Reg :=
  match k with
  | 0 => if u < 4 then CDMA_CH_CTRL u c else HIF_CH_CTRL c
  | 1 => if u < 4 then CDMA_CH_DESC u c else HIF_CH_DESC c
  | 2 => if u < 4 then CDMA_CH_CUR u c else HIF_CH_CUR c
  | 3 => if u < 4 then CDMA_CH_STAT u c else HIF_CH_STAT c
  | _ => if u < 4 then CDMA_CH_MOVED u c else HIF_CH_MOVED c

/-- A unit's flag register. -/
def dmaInt (u : Nat) : Reg := if u < 4 then CDMA_INT u else HIF_DINT

/-- The state of a channel, and its replacement. -/
def State.dmaUnit (s : State) (u : Nat) : DmaUnit := sget {} s.dma u
def State.dmaCh (s : State) (u c : Nat) : DmaCh := sget {} (s.dmaUnit u).chans c
def State.setDmaCh (s : State) (u c : Nat) (x : DmaCh) : State :=
  { s with dma := sset {} s.dma u { s.dmaUnit u with chans := sset {} (s.dmaUnit u).chans c x } }

def State.dmaRunning (s : State) (u c : Nat) : Bool := s.rdB (dmaReg u c 3) 0

/-- The bytes that a channel has moved of its descriptor. -/
def State.dmaMoved (s : State) (u c : Nat) : Nat := s.rdF (dmaReg u c 4) 23 0

/-- Channels of a unit (R362). -/
def dmaChans (u : Nat) : Nat := if u < 4 then 8 else 4

/-- The master of a unit's device-side transactions (R363). -/
def dmaMaster (u : Nat) : Nat := if u = 4 then 6 else u

/-- The requester of a channel (R363): HIF channels act for the function in their fn. -/
def State.dmaReq (s : State) (u c : Nat) : Req :=
  if u = 4 then ⟨6, s.rdB (HIF_CH_CTRL c) 8⟩ else ⟨Fin.ofNat 12 u, false⟩

/-- A channel reaches its final status (R363, R364). -/
def State.dmaFinal (s : State) (u c status cause : Nat) : State :=
  let s := s.upd (dmaReg u c 3) (fun w =>
    setBits (setBits (setBit (setBit w 31 true) 0 false) 11 8 cause) 5 4 status)
  (s.setDmaCh u c {}).raise (dmaInt u) (BitVec.ofNat 32 (2 ^ c))

/-- A descriptor (R362). -/
structure Desc where
  src     : Nat
  dst     : Nat
  len     : Nat
  dstHost : Bool
  srcHost : Bool
  last    : Bool
  irq     : Bool
  next    : Nat
deriving DecidableEq, Repr

/-- The descriptor that eight words make. -/
def descOf (ws : List Word) : Desc :=
  let w := fun k => ws.getD k 0
  let addr := fun k => (w k).toNat + 2 ^ 32 * (w (k + 1)).toNat
  { src := addr 0, dst := addr 2, len := bits (w 4) 23 0, dstHost := bit (w 5) 3, srcHost := bit (w 5) 2,
    last := bit (w 5) 1, irq := bit (w 5) 0, next := (w 6).toNat }

/-- Whether a descriptor keeps the rules of R362. -/
def descOk (u : Nat) (ws : List Word) : Bool :=
  let d := descOf ws
  decide (4 ≤ d.len ∧ d.len % 4 = 0 ∧ d.src % 4 = 0 ∧ d.dst % 4 = 0) && (ws.getD 4 0).toNat / 2 ^ 24 == 0 &&
    (ws.getD 5 0).toNat / 16 == 0 && !(bit (ws.getD 7 0) 30) && (d.srcHost || decide (d.src < 2 ^ 32)) &&
    (d.dstHost || decide (d.dst < 2 ^ 32)) &&
    (if u = 4 then d.srcHost != d.dstHost else !d.srcHost && !d.dstHost)

/-- Bytes that one transaction can move from or to an address (R363): one word of register space, else up to
16 beats within a 4 KiB page. -/
def moveLimit (host : Bool) (a : Nat) : Nat :=
  if !host && isRegAddr a then 4 else min (4096 - a % 4096) (512 - a % 32)

/-- The bytes of a descriptor that its next transaction moves (R363). -/
def Desc.step (d : Desc) (moved : Nat) : Nat :=
  min (d.len - moved) (min (moveLimit d.srcHost (d.src + moved)) (moveLimit d.dstHost (d.dst + moved)))

/-- A descriptor's write-back has ended normally with COMPLETE (R363): its flag, and the next descriptor or the end.
An abort that came after the chain's last bytes is late, and the descriptor is written back with that status (R364). -/
def State.dmaNextDesc (s : State) (u c : Nat) (d : Desc) : State :=
  let s := if d.irq then s.raise (dmaInt u) (BitVec.ofNat 32 (2 ^ c)) else s
  if d.last && (s.dmaCh u c).abort then s.setDmaCh u c { s.dmaCh u c with stop := some (3, 0) }
  else if d.last then s.dmaFinal u c 1 0
  else
    let s := ((s.wr (dmaReg u c 2) (BitVec.ofNat 32 (d.next / 32 * 32))).wr (dmaReg u c 4) 0).setDmaCh u c
      { abort := (s.dmaCh u c).abort }
    if d.next % 32 = 0 then s else s.dmaFinal u c 2 3

/-- What the end of a channel's transaction does, with the bytes it read and whether it ended with an error response
(R362, R363): a fetched descriptor is checked; bytes read are to be written, to the host at once under the requester ID of the channel's function; bytes written
have moved; a write-back ends its descriptor. -/
def State.dmaEnd (s : State) (u c : Nat) (k : DmaStep) (bytes : List Byte) (err : Bool) : State :=
  let ch := { s.dmaCh u c with busy := .none }
  let d := descOf ch.desc
  let moved := s.dmaMoved u c
  match k with
  | .fetch =>
    if err then s.dmaFinal u c 2 2
    else
      let ws := bytesWords bytes
      s.setDmaCh u c { ch with desc := ws, stop := if descOk u ws then .none else some (2, 3) }
  | .read =>
    if err then s.setDmaCh u c { ch with stop := some (2, 2) }
    else if d.dstHost then
      let s := (s.setDmaCh u c ch).wrF (dmaReg u c 4) 23 0 (moved + bytes.length)
      { s with hif := { s.hif with wrote := s.hif.wrote ++ [(b2n (s.dmaReq u c).guest, d.dst + moved, bytes)] } }
    else s.setDmaCh u c { ch with buf := bytes }
  | .write =>
    if err then s.setDmaCh u c { ch with buf := [], stop := some (2, 2) }
    else (s.setDmaCh u c { ch with buf := [] }).wrF (dmaReg u c 4) 23 0 (moved + ch.buf.length)
  | .back status cause =>
    if status = 1 then (if err then s.dmaFinal u c 2 2 else (s.setDmaCh u c ch).dmaNextDesc u c d)
    else s.dmaFinal u c status cause

/-- The outcome of a transaction reaches the channel that awaits it (R363). -/
def State.dmaOutcome (s : State) (u c token : Nat) (k : DmaStep) (bytes : List Byte) (err : Bool) : State :=
  if (s.dmaCh u c).busy = some token then s.dmaEnd u c k bytes err else s

end Sys2Proof.Machine
end

