-- ==== Sys2Proof/Machine/BusMatrix.lean ====
section
/-! DEFINITION. The Bus Matrix (R191 to R204, R135): acceptance and its checks, arbitration, the beats of the
memory targets, completion, locked sequences, resets of masters, register slices, and the windows. Beats
at REGS are in Machine/BusRegs.lean. -/

namespace Sys2Proof

/-- The address of a transaction's first strobed byte, and of its last. -/
def Txn.bytes (t : Txn) : Option (Nat × Nat) :=
  let as := (t.beats.zipIdx).flatMap (fun b =>
    ((List.range 32).filter (fun i => b.1.strb.getLsbD i)).map (fun i => t.addr.toNat + 32 * b.2 + i))
  match as.min?, as.max? with
  | some a, some b => some (a, b)
  | _, _ => none

/-- The first and the last byte address of a transaction's blocks. -/
def Txn.lo (t : Txn) : Nat := t.addr.toNat
/-- The first byte it strobes, which BMX_ERRADDR shows (R205). -/
def Txn.first (t : Txn) : Nat := (t.bytes.map Prod.fst).getD t.lo
def Txn.hi (t : Txn) : Nat := t.addr.toNat + 32 * t.beats.length - 1

/-- The bytes that a burst's narrow beats carry (R192): each with its value and strobe. -/
def Txn.narrow (t : Txn) : List (BitVec 8 × Bool) :=
  t.beats.flatMap (fun b => (List.range (portWidth t.master)).map (fun i =>
    (b.data.extractLsb' (8 * i) 8, b.strb.getLsbD i)))

/-- Whether a write strobes a part of a group of `n` bytes in one of its beats. -/
def Txn.splits (t : Txn) (n : Nat) : Bool := t.beats.any (fun b => !(Machine.wholeGroups n b.strb))

/-- Whether a write stays within a locked read's bytes. -/
def Txn.within (t : Txn) (r : Nat × Nat) : Bool :=
  match t.bytes with
  | some b => decide (r.1 ≤ b.1 ∧ b.2 ≤ r.2)
  | none => true

end Sys2Proof

namespace Sys2Proof.Machine

/-- The outstanding transactions of a master, in issue order. -/
def BusMatrix.of (b : BusMatrix) (m : Nat) : List BusTxn := b.txns.filter (fun x => x.txn.master.val = m)

/-- The byte range of the locked read whose sequence awaits the master's next transaction (R196). -/
def State.lockSeq (s : State) (m : Nat) : Option (Nat × Nat) :=
  match (s.bmx.of m).getLast? with
  | some x => if x.txn.locked && !x.txn.write && x.cause = 0 && !x.killed then x.txn.bytes else none
  | none => (s.bmx.locks.find? (fun l => l.2.master = m)).map (fun l => (l.2.lo, l.2.hi))

/-- The cause that keeps a transaction from its target, 0 if none (R196, R200): a lock that timed out, a
sequence broken, then a page crossing, the protection check, an address of DEFAULT. R200 orders the last three only; a
lock's two causes stand before them. DESIGN CHOICE: assumption 98. -/
def State.acceptCause (s : State) (t : Txn) : Nat :=
  let m := t.master.val
  if s.bmx.lapsed.contains m then (if t.write then 6 else 7)
  else if (match s.lockSeq m with
      | some r => !t.write || !(t.within r)
      | none => false) then 7
  else if t.lo / 4096 != t.hi / 4096 then 3
  else (s.denied m t.guest t.write t.lo t.hi).getD 0

/-- A master's lock is released (R196). -/
def State.unlock (s : State) (m : Nat) : State :=
  { s with bmx := { s.bmx with locks := s.bmx.locks.filter (fun l => l.2.master != m),
                               lapsed := s.bmx.lapsed.filter (· != m) } }

/-- The completion of a read request whose parts have ended (R349, R350). -/
def State.completion (s : State) (r : HostReq) : List Byte × Bool :=
  let bytes := (upTo r.len).map (fun i => ((r.data.find? (fun x => x.1 = r.addr + i)).map Prod.snd).getD 0)
  let ca := s.rdB HIF_CTRL 0 && r.err
  (if ca then [] else bytes, ca)

/-- The read requests that may complete: those before the first with a part outstanding, for completions return in
request order (R349). -/
def readsDone (l : List HostReq) : List HostReq := (l.filter HostReq.read).takeWhile (fun r => r.left == 0)

/-- The completions of the read requests that may complete return, and no request without a part outstanding stays but
such reads (R349). Each Completer Abort is reported once through AER, as an uncorrectable non-fatal error (R350). -/
def State.reqFlush (s : State) : State :=
  let l := readsDone s.reqs
  let bad := (l.filter (fun r => (s.completion r).2)).map HostReq.fn
  { s with reqs := s.reqs.filter (fun r => if r.read then !(l.any (fun x => x.id == r.id)) else r.left != 0),
           hif := { s.hif with cpls := s.hif.cpls ++ l.map s.completion, errs := s.hif.errs ++ bad,
                               aer := (s.hif.aer ++ bad).dedup } }

/-- A part of a host request ends (R349, R350): with its last part, the read completion returns. -/
def State.reqPart (s : State) (id : Nat) (data : List (Nat × Byte)) (err : Bool) : State :=
  let part := fun (r : HostReq) => { r with left := r.left - 1, data := r.data ++ data, err := r.err || err }
  ({ s with reqs := s.reqs.map (fun r => if r.id = id then part r else r) } : State).reqFlush

/-- The strobed bytes of a transaction's read data, with their addresses. -/
def readBytes (t : Txn) (data : List (BitVec 256)) : List (Nat × Byte) :=
  ((t.beats.zip data).zipIdx).flatMap (fun x => beatBytes (t.lo + 32 * x.2) x.1.1.strb x.1.2)

/-- A transaction's outcome goes to whoever asked for it. -/
def State.txnOutcome (s : State) (o : Origin) (t : Txn) (data : List (BitVec 256)) (err : Bool) : State :=
  match o with
  | .plain => s.respondBeats (if t.write then [] else data) err
  | .tlp id => s.reqPart id (if t.write then [] else readBytes t data) err
  | .unit => if t.write then s
    else { s with bmx := { s.bmx with got := s.bmx.got ++ (readBytes t data).map Prod.snd } }
  | .dma u c token k => s.dmaOutcome u c token k ((readBytes t data).map Prod.snd) err

/-- Whether a write holds a partial bundle of PMEM, or a partial entry of the sink table, in any of its beats: it
changes nothing (R53, R160). -/
def partialWrite (t : Txn) : Bool :=
  t.write && ((targetOf t.lo == 9 && t.splits 4) ||
    (decide (0x20000000 ≤ t.lo ∧ t.lo < 0x21000000 ∧ 0x40000 ≤ t.lo % 0x80000 ∧ t.lo % 0x80000 < 0x4C000) && t.splits 8))

/-- The one aligned word that a beat strobes (R193). -/
def oneWord (strb : BitVec 32) : Option Nat := findUpTo 8 (fun k => strb == BitVec.ofNat 32 (15 * 2 ^ (4 * k)))

/-- Whether a write has a shape that its target refuses whole (R5, R53, R160, R193). -/
def misfit (t : Txn) : Bool :=
  partialWrite t ||
    (targetOf t.lo == 13 && !(t.beats.length == 1 && t.beats.all (fun b => (oneWord b.strb).isSome))) ||
    (targetOf t.lo != 13 && isRegAddr t.lo && t.splits 4)

/-- A host write to a mirrored location (R330, R331): captured on an active device, discarded on a standby,
with a normal response in both cases. -/
def State.mirrorWrite (s : State) (t : Txn) : State :=
  if s.aniStandby then s.aniDiscard
  else s.each (t.beats.zipIdx) (fun s b =>
    if b.1.strb = 0 then s else s.aniCapture (.write t.guest (t.lo + 32 * b.2) b.1.strb b.1.data))

/-- Whether a host write is mirrored (R330, R331): a post goes to its port, and on an active device a write of a shape
that its target refuses goes to its target, which answers with an error. DESIGN CHOICE: assumption 99. -/
def State.mirrors (s : State) (t : Txn) : Bool :=
  let a := (t.bytes.map Prod.fst).getD t.lo
  let post := isPostHdr a && !(misfit t) && writerOk ⟨t.master, t.guest⟩ (CLV_POST_HDR ((a - 0x50030100) / 0x40))
  t.write && t.master == 6 && mirrored t.lo && ((s.aniStandby && !post) || (s.aniActive && !post && !(misfit t)))

/-- Transactions that the Bus Matrix can have outstanding: 8 for each of 12 masters (R191). -/
def maxTxns : Nat := 96

/-- Whether debug transactions are locked out by fuse (R190, R384): no reset unlocks them. The model learns the fuse at the
first fuse load. DESIGN CHOICE: assumption 114. -/
def State.dbgLocked (s : State) : Bool := s.boot.locked

/-- Whether a master's port can take a transaction: fewer than 8 outstanding, no drain after a reset, debug
not locked, the self-test done but for the boot ROM's code, the clock running, no reset in force (R183, R190, R191,
R201, R371, R376). -/
def State.portFree (s : State) (m : Nat) : Bool :=
  decide ((s.bmx.of m).length < 8) && !(s.rdB BMX_STAT m) && !(m == 11 && s.dbgLocked) &&
    (m == 4 || s.rdB TST_MEM_STAT 31) && !s.asleep && !s.held

/-- Whether a transaction with beats to come is at the MXM target while the Sum window is open, and is held there
(R135). -/
def State.mxmHeld (s : State) (x : BusTxn) : Bool :=
  x.target = 8 && x.cause = 0 && s.frame.win == .sum && decide (x.beat < x.txn.beats.length)

/-- Whether no earlier transaction of its master is held at the MXM: behind one, a later transaction waits at the
master port (R135). -/
def State.leadOn (s : State) (x : BusTxn) : Bool :=
  ((s.bmx.of x.txn.master.val).filter (fun y => y.id < x.id)).all (fun y => !(s.mxmHeld y))

/-- The transactions that have reached the MXM in the Sum window are held, and counted once each (R135).
DEDUCED: assumption 28. -/
def State.mxmHold (s : State) : State :=
  let xs := s.bmx.txns.filter (fun x => s.mxmHeld x && !x.counted && s.leadOn x)
  s.each xs (fun s x => { s.count MXM_HOLD_CNT with
    bmx := { s.bmx with txns := s.bmx.txns.map (fun y => if y.id = x.id then { y with counted := true } else y) } })

/-- BMX_TRANSACTION_ACCEPT (R191, R196, R202, R330, R331): the checks at the master port, and the
transaction's place in the queue of its master. A mirrored write goes to no target, and completes in its turn. One that a
lock keeps from its target (causes 0x6, 0x7) is logged with the target that its address decodes to, one of causes 0x1 to
0x3 with DEFAULT. DESIGN CHOICE: assumption 98. -/
def State.acceptTxn (s : State) (t : Txn) (o : Origin) : State :=
  let m := t.master.val
  if s.portFree m then
    let c := s.acceptCause t
    let seq := (s.lockSeq m).isSome || s.bmx.lapsed.contains m
    let s := if seq && c != 0 then s.unlock m else s
    let broke := c != 0 && (match (s.bmx.of m).getLast? with
      | some x => x.txn.locked && !x.txn.write && x.cause = 0 && decide (x.beat < x.txn.beats.length)
      | none => false)
    let s := if broke then { s with bmx := { s.bmx with broken := s.bmx.broken ++ [m] } } else s
    let mir := c = 0 && s.mirrors t
    let s := if mir then (s.mirrorWrite t).unlock m else s
    let tgt := if !mir && (c = 0 || c = 6 || c = 7) then targetOf t.lo else 15
    let x : BusTxn := { id := s.bmx.nextId, txn := t, target := tgt, cause := c, since := s.now, origin := o,
                        granted := mir, beat := if mir then t.beats.length else 0 }
    ({ s with bmx := { s.bmx with txns := s.bmx.txns ++ [x], nextId := s.bmx.nextId + 1 } } : State).mxmHold
  else s

/-- Transactions that wait go to their masters' ports as places come free, each master's in order (R191, R192,
R349). -/
def State.portPump : Nat → State → State
  | 0, s => s
  | n + 1, s =>
    match s.portWait.find? (fun w => s.portFree w.2.master) with
    | none => s
    | some w => portPump n (({ s with portWait := s.portWait.erase w }).acceptTxn w.2 w.1)

def State.portGo (s : State) : State := State.portPump s.portWait.length s

/-- The beat of the block at `b` that carries the bytes of a run from address `a`. -/
def runBeat (a : Nat) (d : List (Byte × Bool)) (b : Nat) : Beat :=
  let ix := (upTo 32).filter (fun i => decide (a ≤ b + i ∧ b + i < a + d.length))
  let at_ := fun i => d.getD (b + i - a) (0, false)
  { data := BitVec.ofNat 256 ((ix.map (fun i => (at_ i).1.toNat * 2 ^ (8 * i))).foldl (· + ·) 0),
    strb := BitVec.ofNat 32 ((ix.map (fun i => b2n (at_ i).2 * 2 ^ i)).foldl (· + ·) 0) }

/-- The transaction that packs a run of bytes, each with its strobe, into beats of 32 bytes (R192). -/
def runTxn (q : Req) (write locked : Bool) (a : Nat) (d : List (Byte × Bool)) : Txn :=
  let lo := a / 32
  let hi := (a + d.length - 1) / 32
  { master := q.master, guest := q.guest, write := write, locked := locked, addr := BitVec.ofNat 32 (lo * 32),
    beats := (upTo (hi + 1 - lo)).map (fun k => runBeat a d ((lo + k) * 32)) }

/-- The parts of a run, as first address and length: between the multiples of `step`. -/
def stepParts (step a n : Nat) : List (Nat × Nat) :=
  let lo := a / step
  let hi := (a + n - 1) / step
  (upTo (hi + 1 - lo)).map (fun k =>
    let x := max a ((lo + k) * step)
    (x, min (a + n) ((lo + k + 1) * step) - x))

/-- The transactions that a master's port makes of a burst (R192): a narrow port packs its beats, and divides what would
be more than 16 of them at 512-byte boundaries, a locked one never. -/
def portTxns (t : Txn) : List Txn :=
  if portWidth t.master = 32 then [t]
  else
    let a := t.addr.toNat
    let d := t.narrow
    let ps := if t.locked || decide (t.blocks ≤ 16) then [(a, d.length)] else stepParts 512 a d.length
    ps.map (fun p => runTxn ⟨t.master, t.guest⟩ t.write t.locked p.1 ((d.drop (p.1 - a)).take p.2))

/-- A master's burst reaches its port (R191, R192): the port takes it with a place free, and none of the master's
earlier parts still waiting. -/
def State.acceptBurst (s : State) (t : Txn) : State :=
  if s.portFree t.master && !(s.portWait.any (fun w => w.2.master == t.master)) then
    ({ s with portWait := s.portWait ++ (portTxns t).map (fun p => (Origin.plain, p)) }).portGo
  else s

/-- A master's priority at a target (R194). -/
def State.priority (s : State) (m t : Nat) : Nat :=
  if t < 8 then s.rdF (BMX_PRI_LO m) (4 * t + 3) (4 * t) else s.rdF (BMX_PRI_HI m) (4 * t - 29) (4 * t - 32)


/-- Whether a transaction can be granted its target (R135, R194, R196): it and every earlier one of its master is not
held at the MXM, and no other master has locked the target. -/
def State.grantable (s : State) (t : Nat) (x : BusTxn) : Bool :=
  x.cause = 0 && x.target = t && !x.granted && !(s.mxmHeld x) && s.leadOn x &&
    (s.bmx.locks.filter (fun l => l.1 = t)).all (fun l => l.2.master = x.txn.master.val)

/-- Distance of a master from the round-robin pointer of a target. -/
def rrDist (ptr m : Nat) : Nat := (m + 12 - ptr) % 12

/-- The winner of an arbitration (R194): highest priority, then first at or after the pointer. -/
def State.winner (s : State) (t : Nat) : List BusTxn → Option BusTxn
  | [] => none
  | x :: xs => match s.winner t xs with
    | none => some x
    | some y =>
      let px := s.priority x.txn.master.val t
      let py := s.priority y.txn.master.val t
      let ptr := sget 0 s.bmx.ptr t
      if py < px then some x
      else if px < py then some y
      else if rrDist ptr x.txn.master.val ≤ rrDist ptr y.txn.master.val then some x else some y

/-- Change an outstanding transaction. -/
def State.updTxn (s : State) (id : Nat) (f : BusTxn → BusTxn) : State :=
  { s with bmx := { s.bmx with txns := s.bmx.txns.map (fun x => if x.id = id then f x else x) } }

/-- The transaction that holds a target: granted, with beats to come (R195). -/
def State.holder (s : State) (t : Nat) : Option BusTxn :=
  s.bmx.txns.find? (fun x => x.granted && x.cause = 0 && x.target = t && decide (x.beat < x.txn.beats.length))

/-- BMX_ARBITRATION_GRANT (R194): a free target grants a waiting transaction.
DESIGN CHOICE: assumption 27. -/
def State.grant (s : State) (t : Nat) : State :=
  if (s.holder t).isSome then s
  else match s.winner t (s.bmx.txns.filter (s.grantable t)) with
    | none => s
    | some x =>
      let m := x.txn.master.val
      let s := (s.updTxn x.id (fun y => { y with granted := true })).maxF (BMX_WAITMAX m) 15 0 (s.now - x.since)
      ({ s with bmx := { s.bmx with ptr := sset 0 s.bmx.ptr t ((m + 1) % 12) } } : State).mxmHold

/-- The error responses of a transaction count once, with its first (R200). -/
def State.txnErr (s : State) (x : BusTxn) (cause : Nat) : State × BusTxn :=
  if x.err = 0 then
    (s.busErr x.txn.master.val x.txn.guest x.txn.write cause x.target x.txn.first, { x with err := cause })
  else (s, x)

/-- The next beat of a transaction (R195, R201): a write's strobes are cleared once its master has been reset. -/
def BusTxn.next? (x : BusTxn) : Option (Nat × Beat) :=
  (x.txn.beats[x.beat]?).map (fun b =>
    (x.txn.lo + 32 * x.beat, if x.killed && x.txn.write then { b with strb := 0 } else b))

/-- A beat has been served with its data. -/
def BusTxn.served (x : BusTxn) (d : BitVec 256) : BusTxn := { x with beat := x.beat + 1, data := x.data ++ [d] }

/-- What a locked sequence does as a target serves a transaction's last beat (R196, R201): a read that a write is to
follow keeps its target, and that write frees it, wherever it went; one that has its beats already frees nothing later. -/
def State.lockEnd (s : State) (x : BusTxn) : State :=
  let m := x.txn.master.val
  if x.txn.locked && !x.txn.write && !x.killed then
    if (s.bmx.of m).any (fun y => decide (x.id < y.id ∧ y.txn.beats.length ≤ y.beat)) then s
    else if s.bmx.broken.contains m then { s with bmx := { s.bmx with broken := s.bmx.broken.erase m } }
    else match x.txn.bytes with
      | some r => { s with bmx := { s.bmx with
          locks := sins (sdel s.bmx.locks x.target) x.target ⟨m, r.1, r.2, s.now, x.id⟩ } }
      | none => s
  else { s with bmx := { s.bmx with locks := s.bmx.locks.filter (fun l => !(l.2.master = m && decide (l.2.rid < x.id))) } }

/-- A target has served a beat of a transaction, with its data (R195): after the last it is free, but for a lock. -/
def State.beatDone (s : State) (x : BusTxn) (d : BitVec 256) : State :=
  let s := s.updTxn x.id (fun _ => x.served d)
  if x.txn.beats.length ≤ x.beat + 1 && x.cause == 0 then s.lockEnd x else s

/-- A beat that its target answers with an error (R200): read data are zeros. -/
def State.errBeat (s : State) (x : BusTxn) : State :=
  let y := s.txnErr x 4
  y.1.beatDone y.2 0

/-- BMX_BEAT_SERVE at a memory target (R53, R62, R134, R160, R186, R195, R197). -/
def State.memBeat (s : State) (x : BusTxn) : State :=
  let s := if x.target < 4 then s.contend (s.beatsAt x.target) else s
  match x.next? with
  | none => s
  | some (a, b) =>
    let m := x.txn.master.val
    if (partialWrite x.txn) then s.errBeat x
    else if x.txn.write then
      let r := s.memBeatWrite m a b.strb b.data
      if r.2 then r.1.errBeat x else r.1.beatDone x 0
    else
      let r := s.memBeatRead m a b.strb
      let y := if r.2.2 then r.2.1.txnErr x 4 else (r.2.1, x)
      y.1.beatDone y.2 r.1

/-- The transaction whose beat DEFAULT serves next (R135, R200): the first with beats to come that no held access of its
master precedes. -/
def State.defaultNext (s : State) : Option BusTxn :=
  s.bmx.txns.find? (fun x => x.cause != 0 && decide (x.beat < x.txn.beats.length) && s.leadOn x)

/-- DEFAULT_ERROR_RESPONSE (R200): a beat of the first transaction that is kept from its target. -/
def State.defaultBeat (s : State) : State :=
  match s.defaultNext with
  | none => s
  | some x =>
    let y := s.txnErr x x.cause
    y.1.updTxn x.id (fun _ => y.2.served 0)

/-- Whether a transaction's beats are served and the earlier ones of its master are complete (R191). -/
def State.finished (s : State) (x : BusTxn) : Bool :=
  decide (x.txn.beats.length ≤ x.beat) && ((s.bmx.of x.txn.master.val).all (fun y => decide (x.id ≤ y.id)))

/-- BMX_TRANSACTION_COMPLETE (R191, R201): the transaction leaves, and its outcome goes to its requester; a reset
master is ready again once its granted transactions have ended. -/
def State.endTxn (s : State) (x : BusTxn) : State :=
  let m := x.txn.master.val
  let s := { s with bmx := { s.bmx with txns := s.bmx.txns.filter (fun y => y.id != x.id) } }
  let s := if x.killed then (if (s.bmx.of m).any BusTxn.killed then s else s.wrB BMX_STAT m false)
    else s.txnOutcome x.origin x.txn x.data (x.err != 0)
  s.portGo.mxmHold

/-- The transaction that completes next at a target, 15 for DEFAULT. -/
def State.doneAt (s : State) (t : Nat) : Option BusTxn :=
  s.bmx.txns.find? (fun x =>
    (if t = 15 then x.cause != 0 || x.target = 15 else x.granted && x.cause = 0 && x.target = t) && s.finished x)

/-- Complete a target's transaction, 15 for DEFAULT. -/
def State.completeAt (s : State) (t : Nat) : State :=
  match s.doneAt t with
  | some x => s.endTxn x
  | none => s

/-- Whether the write of a master's locked sequence has come: its last transaction outstanding is not the locked
read. -/
def State.lockWrite (s : State) (m : Nat) : Bool :=
  match (s.bmx.of m).getLast? with
  | some x => !(x.txn.locked && !x.txn.write)
  | none => false

/-- LOCK_TIMEOUT (R196): BMX_LOCK_TO cycles after the read's last beat with no write, the lock ends. -/
def State.lockTimeout (s : State) (t : Nat) : State :=
  match s.bmx.locks.find? (fun l => l.1 = t) with
  | none => s
  | some l =>
    let m := l.2.master
    if s.lockWrite m then s
    else
      let s := s.advanceTo (l.2.from_ + s.rdF BMX_LOCK_TO 9 0)
      { s with bmx := { s.bmx with locks := s.bmx.locks.filter (fun k => k.1 != t),
                                   lapsed := s.bmx.lapsed ++ [m] } }

/-- MASTER_RESET (R201, R200, R363): what is not granted is discarded, what is granted runs out with its
strobes cleared, the master's locks end, and its DMA channels stop. The log shows the first granted transaction, or the
first there is, or with none a read of address 0 at target 15. DESIGN CHOICE: assumption 100. -/
def State.masterReset (s : State) (m : Nat) : State :=
  let mine := s.bmx.of m
  let live := mine.filter (fun x => x.granted && x.cause = 0)
  let s := match live.head?.orElse (fun _ => mine.head?) with
    | some x => s.busLog m x.txn.guest x.txn.write 5 x.target x.txn.first
    | none => s.busLog m false false 5 15 0
  let keep := s.bmx.txns.filter (fun x => x.txn.master.val != m || (x.granted && x.cause = 0))
  let s := { s with bmx := { s.bmx with
      txns := keep.map (fun (x : BusTxn) => if x.txn.master.val = m then { x with killed := true } else x),
      locks := s.bmx.locks.filter (fun l => l.2.master != m ||
        live.any (fun x => x.target = l.1 && decide (x.beat < x.txn.beats.length))),
      lapsed := s.bmx.lapsed.filter (· != m), broken := s.bmx.broken.filter (· != m) } }
  let s := { s with reqs := if m = 6 then [] else s.reqs,
                    portWait := s.portWait.filter (fun w => w.2.master.val != m) }
  let s := s.wrB BMX_STAT m (!live.isEmpty)
  let u := if m = 6 then 4 else m
  if m < 4 || m = 6 then
    s.each ((upTo (dmaChans u)).filter (fun c => s.dmaRunning u c)) (fun s c => s.dmaFinal u c 2 4)
  else s

/-- Whether a port has no transaction in flight (R199): bits 0–11 masters, 16–29 targets. -/
def State.portIdle (s : State) (i : Nat) : Bool :=
  if i < 16 then (s.bmx.of i).isEmpty
  else !(s.bmx.txns.any (fun x => x.target = i - 16 && x.cause = 0))

/-- BMX_SLICE_APPLY (R199): a pending change of a port's slice takes effect once the port is idle. -/
def State.sliceApply (s : State) (i : Nat) : State :=
  if s.rdB BMX_SLICE_STAT i && s.portIdle i then
    { s.wrB BMX_SLICE_STAT i false with bmx := { s.bmx with slice := setBit s.bmx.slice i (s.rdB BMX_SLICE i) } }
  else s

/-- BMX_SLICE written (R199): changes are pending until each port is idle. -/
def State.sliceWrite (s : State) (data : Word) : State :=
  let d := data &&& BMX_SLICE.rw
  let s := (s.wr BMX_SLICE d).wr BMX_SLICE_STAT (d ^^^ s.bmx.slice)
  s.each (upTo 32) (fun s i => s.sliceApply i)

/-- BMX_WINDOW_ATTR_WRITE (R203): the staged base and limit and the attributes come into force together. -/
def State.windowWrite (s : State) (m w : Nat) (data : Word) : State :=
  let a := data &&& 0x8000000F#32
  let v : Win := ⟨s.rd (BMX_WIN_BASE m w), s.rd (BMX_WIN_LIMIT m w), a⟩
  let k := m * 16 + w
  let ws := if v = winReset w then sdel s.bmx.wins k else sins s.bmx.wins k v
  { s.wr (BMX_WIN_ATTR m w) a with bmx := { s.bmx with wins := ws } }

/-- Serve every beat left of a transaction at a memory target. -/
def State.allBeats : Nat → State → Nat → State
  | 0, s, _ => s
  | n + 1, s, id =>
    match s.bmx.txns.find? (fun x => x.id = id) with
    | some x => allBeats n (s.memBeat x) id
    | none => s

/-- MXM_HOLD_RELEASE (R135): the accesses held at the MXM complete, in the order R194 gives. -/
def State.mxmRelease : Nat → State → State
  | 0, s => s
  | n + 1, s =>
    let s := s.grant 8
    match s.holder 8 with
    | none => s
    | some x => mxmRelease n ((s.allBeats 16 x.id).completeAt 8)

def execBmxTransactionAccept (t : Txn) (s : State) : Out := done (s.acceptBurst t)
def execBmxArbitrationGrant (t : Fin 14) (s : State) : Out := done (s.grant t)
def execBmxTransactionComplete (t : Fin 16) (s : State) : Out := done (s.completeAt t)
def execLockTimeout (t : Fin 14) (s : State) : Out := done (s.lockTimeout t)
def execMasterReset (m : Fin 12) (s : State) : Out := done (s.masterReset m)
def execBmxSliceApply (bit : Fin 32) (s : State) : Out := done (s.sliceApply bit)
def execBmxWindowAttrWrite (r : Req) (m : Fin 12) (w : Fin 16) (data : Word) (s : State) : Out :=
  done (s.gated r (BMX_WIN_ATTR m w) data (fun s => s.windowWrite m w data))

end Sys2Proof.Machine
end

