-- ==== Sys2Proof/Machine/Crypto.lean ====
section
/-! DEFINITION. SHA-256 and the ECDSA P-256 check of a firmware image (R360), from FIPS 180-4 and FIPS 186-4, which the
names stand for. PRESUMED: assumption 59. -/

namespace Sys2Proof.Machine

/-- The constants of the SHA-256 rounds. -/
def shaK : List Word :=
  [0x428a2f98, 0x71374491, 0xb5c0fbcf, 0xe9b5dba5, 0x3956c25b, 0x59f111f1, 0x923f82a4, 0xab1c5ed5,
   0xd807aa98, 0x12835b01, 0x243185be, 0x550c7dc3, 0x72be5d74, 0x80deb1fe, 0x9bdc06a7, 0xc19bf174,
   0xe49b69c1, 0xefbe4786, 0x0fc19dc6, 0x240ca1cc, 0x2de92c6f, 0x4a7484aa, 0x5cb0a9dc, 0x76f988da,
   0x983e5152, 0xa831c66d, 0xb00327c8, 0xbf597fc7, 0xc6e00bf3, 0xd5a79147, 0x06ca6351, 0x14292967] ++
  [0x27b70a85, 0x2e1b2138, 0x4d2c6dfc, 0x53380d13, 0x650a7354, 0x766a0abb, 0x81c2c92e, 0x92722c85,
   0xa2bfe8a1, 0xa81a664b, 0xc24b8b70, 0xc76c51a3, 0xd192e819, 0xd6990624, 0xf40e3585, 0x106aa070,
   0x19a4c116, 0x1e376c08, 0x2748774c, 0x34b0bcb5, 0x391c0cb3, 0x4ed8aa4a, 0x5b9cca4f, 0x682e6ff3,
   0x748f82ee, 0x78a5636f, 0x84c87814, 0x8cc70208, 0x90befffa, 0xa4506ceb, 0xbef9a3f7, 0xc67178f2]

/-- The initial hash value. -/
def shaInit : List Word :=
  [0x6a09e667, 0xbb67ae85, 0x3c6ef372, 0xa54ff53a, 0x510e527f, 0x9b05688c, 0x1f83d9ab, 0x5be0cd19]

/-- The big-endian number that bytes spell. -/
def ofBeBytes (l : List Byte) : Nat := l.foldl (fun n b => n * 256 + b.toNat) 0

/-- The message schedule of a block, the newest word first, from the 16 words of the block. -/
def shaWords : Nat → List Word → List Word
  | 0, w => w
  | n + 1, w =>
    let x := w.getD 14 0
    let y := w.getD 1 0
    let s0 := x.rotateRight 7 ^^^ x.rotateRight 18 ^^^ (x >>> 3)
    let s1 := y.rotateRight 17 ^^^ y.rotateRight 19 ^^^ (y >>> 10)
    shaWords n ((w.getD 15 0 + s0 + w.getD 6 0 + s1) :: w)

/-- One round on the eight working words. -/
def shaRound (v : List Word) (kw : Word × Word) : List Word :=
  match v with
  | [a, b, c, d, e, f, g, h] =>
    let s1 := e.rotateRight 6 ^^^ e.rotateRight 11 ^^^ e.rotateRight 25
    let t1 := h + s1 + ((e &&& f) ^^^ (~~~e &&& g)) + kw.1 + kw.2
    let s0 := a.rotateRight 2 ^^^ a.rotateRight 13 ^^^ a.rotateRight 22
    let t2 := s0 + ((a &&& b) ^^^ (a &&& c) ^^^ (b &&& c))
    [t1 + t2, a, b, c, d + t1, e, f, g]
  | _ => v

/-- The hash after one block of 64 bytes. -/
def shaBlock (h : List Word) (blk : List Byte) : List Word :=
  let w := (List.range 16).map (fun i => BitVec.ofNat 32 (ofBeBytes ((blk.drop (4 * i)).take 4)))
  let v := (shaK.zip (shaWords 48 w.reverse).reverse).foldl shaRound h
  (h.zip v).map (fun x => x.1 + x.2)

/-- The hash after `n` blocks. -/
def shaBlocks : Nat → List Word → List Byte → List Word
  | 0, h, _ => h
  | n + 1, h, l => shaBlocks n (shaBlock h (l.take 64)) (l.drop 64)

/-- SHA-256 (R360). -/
def sha256 (m : List Byte) : BitVec 256 :=
  let pad := (119 - m.length % 64) % 64
  let bits := (List.range 8).map (fun i => BitVec.ofNat 8 (8 * m.length / 256 ^ (7 - i)))
  let h := shaBlocks ((m.length + 72) / 64) shaInit (m ++ 0x80#8 :: (List.replicate pad 0#8 ++ bits))
  BitVec.ofNat 256 (h.foldl (fun n w => n * 2 ^ 32 + w.toNat) 0)

/-- The field, the order and the equation y² = x³ − 3x + b of P-256. -/
def p256 : Nat := 0xffffffff00000001000000000000000000000000ffffffffffffffffffffffff
def p256n : Nat := 0xffffffff00000000ffffffffffffffffbce6faada7179e84f3b9cac2fc632551
def p256b : Nat := 0x5ac635d8aa3a93e7b3ebbd55769886bc651d06b0cc53b0f63bce3c3e27d2604b

/-- A point in Jacobian coordinates: x = X / Z², y = Y / Z³; Z = 0 is the point at infinity. -/
structure EcPoint where
  x : Nat
  y : Nat
  z : Nat
deriving DecidableEq, Repr

/-- The base point. -/
def p256g : EcPoint :=
  ⟨0x6b17d1f2e12c4247f8bce6e563a440f277037d812deb33a0f4a13945d898c296,
   0x4fe342e2fe1a7f9b8ee7eb4a7c0f9e162bce33576b315ececbb6406837bf51f5, 1⟩

/-- A difference in the field. -/
def fSub (a b : Nat) : Nat := (a + p256 - b % p256) % p256

/-- A power modulo `m`, over the `n` low bits of the exponent. -/
def powMod (m : Nat) : Nat → Nat → Nat → Nat
  | 0, _, _ => 1 % m
  | n + 1, a, e => (if e % 2 = 1 then a else 1) * powMod m n (a * a % m) (e / 2) % m

/-- The double of a point. -/
def EcPoint.double (p : EcPoint) : EcPoint :=
  let d := p.z * p.z % p256
  let g := p.y * p.y % p256
  let b := p.x * g % p256
  let a := 3 * fSub p.x d * (p.x + d) % p256
  let x := fSub (a * a) (8 * b)
  ⟨x, fSub (a * fSub (4 * b) x) (8 * g * g), 2 * p.y * p.z % p256⟩

/-- The sum of two points. -/
def EcPoint.add (p q : EcPoint) : EcPoint :=
  if p.z = 0 then q
  else if q.z = 0 then p
  else
    let zp := p.z * p.z % p256
    let zq := q.z * q.z % p256
    let u := p.x * zq % p256
    let s := p.y * zq * q.z % p256
    let h := fSub (q.x * zp) u
    let r := fSub (q.y * zp * p.z) s
    if h = 0 then (if r = 0 then p.double else ⟨1, 1, 0⟩)
    else
      let hh := h * h % p256
      let v := u * hh % p256
      let x := fSub (r * r) (hh * h + 2 * v)
      ⟨x, fSub (r * fSub v x) (s * hh * h), h * p.z * q.z % p256⟩

/-- A multiple of a point, over the `n` low bits of the factor. -/
def EcPoint.mul : Nat → Nat → EcPoint → EcPoint
  | 0, _, _ => ⟨1, 1, 0⟩
  | n + 1, k, p => (if k % 2 = 1 then p else ⟨1, 1, 0⟩).add (EcPoint.mul n (k / 2) p.double)

/-- Whether a signature, r then s, of a digest is valid under a public key, X then Y (R360). -/
def ecdsaOk (key sig : List Byte) (digest : BitVec 256) : Bool :=
  let x := ofBeBytes (key.take 32)
  let y := ofBeBytes (key.drop 32)
  let r := ofBeBytes (sig.take 32)
  let s := ofBeBytes (sig.drop 32)
  let w := powMod p256n 256 s (p256n - 2)
  let q := (EcPoint.mul 256 (digest.toNat * w % p256n) p256g).add (EcPoint.mul 256 (r * w % p256n) ⟨x, y, 1⟩)
  decide (x < p256 ∧ y < p256 ∧ 1 ≤ r ∧ r < p256n ∧ 1 ≤ s ∧ s < p256n) &&
    y * y % p256 == fSub (x * x * x + p256b) (3 * x) && q.z != 0 &&
    (q.x * powMod p256 256 (q.z * q.z % p256) (p256 - 2) % p256) % p256n == r

end Sys2Proof.Machine
end

