-- ==== Sys2Proof/Machine/UnitBus.lean ====
section
/-! DEFINITION. The Bus Matrix transactions of the device's own units (R17, R191 to R201): the rings of the serial ports,
master PORT, and the buffers of the media streams, master NET. -/

namespace Sys2Proof.Machine

/-- A unit's write to memory as its master's transactions, under the checks of R186, R200 and R202, on an idle Bus Matrix. -/
def State.directWrite (s : State) (m a : Nat) (bytes : List Byte) : State :=
  s.each (runParts (bytes.length + 1) a bytes.length) (fun s p =>
    let bs := beatsOf p.1 ((bytes.drop (p.1 - a)).take p.2)
    match s.denied m false true (p.1 / 32 * 32) (p.1 / 32 * 32 + 32 * bs.length - 1) with
    | some c => s.busErr m false true c 15 p.1
    | none =>
      let r := bs.foldl (fun (r : State × Bool) b =>
        let y := r.1.memBeatWrite m b.1 b.2.1 b.2.2
        (y.1, r.2 || y.2)) (s, false)
      if r.2 then r.1.busErr m false true 4 (targetOf p.1) p.1 else r.1)

/-- A unit's read of `n` bytes of memory as its master's transactions, on an idle Bus Matrix; what an error keeps from it
reads 0. -/
def State.directRead (s : State) (m a n : Nat) : List Byte × State :=
  (runParts (n + 1) a n).foldl (fun r p =>
    let s := r.2
    let bs := beatsOf p.1 (List.replicate p.2 0)
    match s.denied m false false (p.1 / 32 * 32) (p.1 / 32 * 32 + 32 * bs.length - 1) with
    | some c => (r.1 ++ List.replicate p.2 0, s.busErr m false false c 15 p.1)
    | none =>
      let x := bs.foldl (fun (x : List Byte × State × Bool) b =>
        let y := x.2.1.memBeatRead m b.1 b.2.1
        (x.1 ++ ((upTo 32).filter (fun i => b.2.1.getLsbD i)).map (fun i => y.1.extractLsb' (8 * i) 8),
          y.2.1, x.2.2 || y.2.2)) ([], s, false)
      (r.1 ++ x.1, if x.2.2 then x.2.1.busErr m false false 4 (targetOf p.1) p.1 else x.2.1))
    ([], s)

/-- No transaction is outstanding or waits, and no target is locked. -/
def State.busIdle (s : State) : Bool := s.bmx.txns.isEmpty && s.portWait.isEmpty && s.bmx.locks.isEmpty

/-- The targets of a run of bytes. -/
def runTargets (a n : Nat) : List Nat := [targetOf a, targetOf (a + n - 1)].dedup

/-- The round-robin pointers after a master has been granted targets on an idle Bus Matrix (R194). -/
def State.turnPast (s : State) (m : Nat) (ts : List Nat) : State :=
  { s with bmx := { s.bmx with ptr := ts.foldl (fun p t => sset 0 p t ((m + 1) % 12)) s.bmx.ptr } }

/-- A target serves the transaction that holds it, or the one that it grants next, to its end (R194, R195). -/
def State.busPush (s : State) (t : Nat) : State :=
  let s := s.grant t
  match s.holder t with
  | some x => (s.allBeats 16 x.id).completeAt t
  | none => s.completeAt t

/-- DEFAULT serves every beat of a transaction that is kept from its target, and it completes (R200). -/
def State.defaultAll (s : State) (x : BusTxn) : State :=
  let y := s.txnErr x x.cause
  let z := { y.2 with beat := x.txn.beats.length, data := x.txn.beats.map (fun _ => 0) }
  (y.1.updTxn x.id (fun _ => z)).endTxn z

/-- The oldest transactions of a master go on to their end, each after those that arbitration puts ahead of it at its
target, for as long as Pool and NETBUF targets are all it takes. DEDUCED: assumption 107. -/
def State.unitDrive : Nat → State → Nat → State
  | 0, s, _ => s
  | n + 1, s, m =>
    match (s.bmx.of m).head? with
    | none => s
    | some x =>
      if x.cause != 0 || x.target = 15 then unitDrive n (s.defaultAll x) m
      else if x.target < 4 || x.target = 10 then unitDrive n (s.busPush x.target) m
      else s

/-- More targets' turns than the transactions that can be outstanding take. -/
def driveFuel : Nat := 2 * maxTxns

/-- Whether a unit's transactions on a run of bytes would be taken and served now: its master's port is free with nothing
before them (R191), and no other master has locked a target of theirs (R196). -/
def State.unitReady (s : State) (m a n : Nat) : Bool :=
  s.portFree m && (s.bmx.of m).isEmpty && !(s.portWait.any (fun w => w.2.master.val == m)) &&
    !(s.bmx.locks.any (fun l => l.2.master != m && (runTargets a n).contains l.1))

/-- A unit's transactions go to its master's port, and run for as far as they can. -/
def State.unitSend (s : State) (m : Nat) (write : Bool) (a : Nat) (bytes : List Byte) : State :=
  let ts := (runParts (bytes.length + 1) a bytes.length).map (fun p =>
    runTxn ⟨Fin.ofNat 12 m, false⟩ write false p.1 (((bytes.drop (p.1 - a)).take p.2).map (fun b => (b, true))))
  (({ s with portWait := s.portWait ++ ts.map (fun t => (Origin.unit, t)) } : State).portGo).unitDrive driveFuel m

/-- A write to memory by a unit of the device through its Bus Matrix master (R17): its transactions take their turn; what
they cannot do yet waits for the Bus Matrix. A reset master issues nothing until it is ready (R201). -/
def State.masterWrite (s : State) (m a : Nat) (bytes : List Byte) : State :=
  if s.rdB BMX_STAT m then s
  else if s.busIdle && s.portFree m then (s.directWrite m a bytes).turnPast m (runTargets a bytes.length)
  else s.unitSend m true a bytes

/-- A read of `n` bytes of memory by a unit of the device through its Bus Matrix master (R17), behind what the master has
outstanding: none where it cannot be served now. -/
def State.masterRead (s : State) (m a n : Nat) : Option (List Byte) × State :=
  if s.rdB BMX_STAT m then (none, s)
  else if s.busIdle && s.portFree m then
    let r := s.directRead m a n
    (some r.1, r.2.turnPast m (runTargets a n))
  else
    let s := s.unitDrive driveFuel m
    if s.unitReady m a n then
      let s := ({ s with bmx := { s.bmx with got := [] } } : State).unitSend m false a (List.replicate n 0)
      (some s.bmx.got, { s with bmx := { s.bmx with got := [] } })
    else (none, s)

/-- SAP_RING_WRITE (R233): the oldest staged block is written, then its descriptor, once the port's transactions can be
served; nothing while the frame is stopped (R41). -/
def State.sapRingWrite (s : State) (n : Nat) : State :=
  match s.frame.ticking, (s.sap n).ring with
  | false, _ => s
  | true, [] => s
  | true, (k, bytes) :: rest =>
    let nblk := s.rdF (SAP_RINGCFG n) 6 0
    let a := 0x10000000 + s.rdF (SAP_RXRING n) 24 4 * 16 + k % nblk * s.ringStride
    let s := s.unitDrive driveFuel 8
    if s.unitReady 8 a s.ringStride then
      let s := (s.masterWrite 8 (a + 32) (bytes.drop 32)).masterWrite 8 a (bytes.take 32)
      s.updSap n (fun p => { p with ring := rest })
    else s

/-- SAP_RING_FETCH (R235): a ring-fed port fetches the entry of the block that plays next, while the Bus
window of this block has not closed. -/
def State.sapRingFetch (s : State) (n : Nat) : State :=
  if s.rdB (SAP_CTRL n) 3 && s.sapRunning n &&
      (s.frame.win == .strip || s.frame.win == .sum || s.frame.win == .bus) then
    let m := (s.blockNo + 1) % 2 ^ 32
    let nblk := s.rdF (SAP_RINGCFG n) 14 8
    let a := 0x10000000 + s.rdF (SAP_TXRING n) 24 4 * 16 + m % nblk * s.ringStride
    match s.masterRead 8 a (s.ringStride) with
    | (some bs, s) => s.updSap n (fun p => { p with fetched := some (bytesWords bs) })
    | (none, s) => s
  else s

def execSapRingWrite (n : Fin 24) (s : State) : Out := done (s.sapRingWrite n)
def execSapRingFetch (n : Fin 24) (s : State) : Out := done (s.sapRingFetch n)

end Sys2Proof.Machine
end

