-- ==== Sys2Proof/Machine/Net.lean ====
section
/-! DEFINITION. What the network units share: CRC-32, big-endian fields of frames (R262), the layout of
Ethernet, IP, UDP and TCP headers (R263, R271, R272), and the network-side port of the network buffers
(R176, R178). -/

namespace Sys2Proof.Machine

/-- One bit of the reflected CRC-32 of IEEE 802.3. -/
def crcBit (c : Word) : Word := if c.getLsbD 0 then (c >>> 1) ^^^ 0xEDB88320#32 else c >>> 1

/-- One byte of the CRC-32. -/
def crcByte (c : Word) (b : Byte) : Word :=
  crcBit (crcBit (crcBit (crcBit (crcBit (crcBit (crcBit (crcBit (c ^^^ b.zeroExtend 32))))))))

/-- The CRC-32 of IEEE 802.3 over bytes (R314, R334, R338). -/
def crc32 (bs : List Byte) : Word := ~~~(bs.foldl crcByte 0xFFFFFFFF#32)

/-- A byte of a frame. -/
def byteAt (bs : List Byte) (o : Nat) : Nat := (bs.getD o 0).toNat

/-- A big-endian field of `n` bytes. -/
def beAt (bs : List Byte) (o n : Nat) : Nat := (upTo n).foldl (fun v i => v * 256 + byteAt bs (o + i)) 0

/-- The bytes of a big-endian number. -/
def beBytes (n v : Nat) : List Byte := (leBytes n v).reverse

/-- Replace bytes of a frame from an offset; bytes beyond its end are dropped. -/
def putAt (bs : List Byte) (o : Nat) (xs : List Byte) : List Byte :=
  bs.take o ++ (xs.take (bs.length - o)) ++ bs.drop (o + xs.length)

/-- Put a big-endian field. -/
def putBe (bs : List Byte) (o n v : Nat) : List Byte := putAt bs o (beBytes n v)

/-- Offset of the EtherType after any tags (R263). -/
def etherOff : Nat → List Byte → Nat → Nat
  | 0, _, o => o
  | k + 1, bs, o => if beAt bs o 2 = 0x8100 ∨ beAt bs o 2 = 0x88A8 then etherOff k bs (o + 4) else o

/-- The offset of a frame's EtherType, and the EtherType. PRESUMED: assumption 50. -/
def typeOff (bs : List Byte) : Nat := etherOff (bs.length / 4) bs 12
def etherType (bs : List Byte) : Nat := beAt bs (typeOff bs) 2

/-- Whether the frame carries an IEEE 802.1Q tag; the VID and PCP of the outer tag (R263). -/
def tagged (bs : List Byte) : Bool := beAt bs 12 2 = 0x8100 || beAt bs 12 2 = 0x88A8
def outerVid (bs : List Byte) : Nat := beAt bs 14 2 % 4096
def outerPcp (bs : List Byte) : Nat := beAt bs 14 2 / 8192

/-- IPv4, or IPv6 with no extension header, and where its payload starts: for UDP or TCP, not a non-first
fragment (R263). -/
def l4Off (bs : List Byte) (proto : Nat) : Option Nat :=
  let o := typeOff bs + 2
  if etherType bs = 0x0800 then
    let ihl := byteAt bs o % 16 * 4
    if byteAt bs o / 16 = 4 ∧ 20 ≤ ihl ∧ byteAt bs (o + 9) = proto ∧ beAt bs (o + 6) 2 % 8192 = 0 ∧ o + ihl < bs.length then
      some (o + ihl)
    else none
  else if etherType bs = 0x86DD then
    if byteAt bs o / 16 = 6 ∧ byteAt bs (o + 6) = proto ∧ o + 40 < bs.length then some (o + 40) else none
  else none

/-- The UDP destination port of a frame. -/
def udpPort (bs : List Byte) : Option Nat := (l4Off bs 17).map (fun o => beAt bs (o + 2) 2)

/-- The Internet checksum of bytes: the ones' complement of the ones' complement sum of 16-bit words. -/
def onesSum : List Byte → Nat
  | a :: b :: r => a.toNat * 256 + b.toNat + onesSum r
  | [a] => a.toNat * 256
  | [] => 0
def fold16 (n : Nat) : Nat :=
  let f := fun n => n / 65536 + n % 65536
  f (f (f n))
def inetSum (bs : List Byte) : Nat := 65535 - fold16 (onesSum bs)

/-- Where the headers of a send lie: the IP header, the UDP or TCP header, and the header bytes (R271). -/
structure Heads where
  ip   : Nat
  l4   : Nat
  hlen : Nat
deriving DecidableEq, Repr

/-- The headers that hlen, ipv6 and tcp describe, where the frame's bytes agree with them (R271, R272). -/
def headsOf (bs : List Byte) (hlen : Nat) (v6 tcp : Bool) : Option Heads :=
  let ip := typeOff bs + 2
  let ty := if v6 then 0x86DD else 0x0800
  match l4Off bs (if tcp then 6 else 17) with
  | some o =>
    let len := if tcp then byteAt bs (o + 12) / 16 * 4 else 8
    if etherType bs = ty ∧ o + len = hlen ∧ hlen ≤ bs.length ∧ (tcp = false ∨ 20 ≤ len) then some ⟨ip, o, hlen⟩ else none
  | none => none

/-- Set the IPv4 header checksum. -/
def putIpSum (bs : List Byte) (h : Heads) : List Byte :=
  let bs := putBe bs (h.ip + 10) 2 0
  putBe bs (h.ip + 10) 2 (inetSum ((bs.drop h.ip).take (h.l4 - h.ip)))

/-- Set the UDP or TCP checksum over the pseudo-header; a UDP sum of 0 goes as 0xFFFF (R271). -/
def putL4Sum (bs : List Byte) (h : Heads) (v6 tcp : Bool) : List Byte :=
  let o := h.l4 + (if tcp then 16 else 6)
  let bs := putBe bs o 2 0
  let body := bs.drop h.l4
  let addrs := if v6 then (bs.drop (h.ip + 8)).take 32 else (bs.drop (h.ip + 12)).take 8
  let tail := if v6 then beBytes 4 body.length ++ beBytes 4 (if tcp then 6 else 17)
    else beBytes 2 (if tcp then 6 else 17) ++ beBytes 2 body.length
  let c := inetSum (addrs ++ tail ++ body)
  putBe bs o 2 (if !tcp ∧ c = 0 then 65535 else c)

/-- Both checksums (R271). -/
def putSums (bs : List Byte) (h : Heads) (v6 tcp : Bool) : List Byte :=
  putL4Sum (if v6 then bs else putIpSum bs h) h v6 tcp

/-- The network buffers (R176). -/
def netBase : Nat := 0x40000000
def netEnd : Nat := 0x40400000

/-- Whether a run of bytes lies in the network buffers. -/
def inNet (a n : Nat) : Bool := decide (netBase ≤ a ∧ a + n ≤ netEnd)

/-- Write through the network-side port (R178). -/
def State.netPut (s : State) (a : Nat) (bs : List Byte) : State := { s with mem := putBytes s.mem a bs }
def State.netWord (s : State) (a : Nat) (w : Word) : State := { s with mem := putWord s.mem a w }

end Sys2Proof.Machine
end

