-- ==== Sys2Proof/Machine/Mac.lean ====
section
/-! DEFINITION. The network ports: link states (R256, R257), gates, shaping and preemption (R266 to R268),
pause (R269, R270), the transmit rings and offloads (R261, R265, R271 to R275). Instants on the line are in
units of 1/25 ns, in which a byte takes 8 at 25 Gb/s and 20 at 10 Gb/s. -/

namespace Sys2Proof.Machine

/-- A network port. -/
def State.mac (s : State) (n : Nat) : Mac := sget {} s.macs n
def State.setMac (s : State) (n : Nat) (m : Mac) : State := { s with macs := sset {} s.macs n m }

/-- MACn_STAT.link: 0 OFF, 1 ACQUIRE, 2 UP, 3 RFAULT. -/
def State.macLink (s : State) (n : Nat) : Nat := s.rdF (MAC_STAT n) 1 0
def State.macUp (s : State) (n : Nat) : Bool := s.macLink n == 2

/-- Line time of a byte, port rate in kb/s, and the present instant. -/
def State.byteT (s : State) (n : Nat) : Nat := if s.rdB (MAC_CTRL n) 1 then 20 else 8
def State.portRate (s : State) (n : Nat) : Nat := if s.rdB (MAC_CTRL n) 1 then 10000000 else 25000000
def State.lineNow (s : State) : Nat := 25 * s.now

/-- The STC in whole ns, and at an instant of the line. -/
def State.stcInt (s : State) : Int := s.stc / 1000000000000
def State.stcLine (s : State) (t : Nat) : Int := s.stcInt + ((t : Int) - s.lineNow) / 25

/-- MACn_MAXLEN.maxlen. -/
def State.maxlen (s : State) (n : Nat) : Nat := s.rdF (MAC_MAXLEN n) 13 0

/-- Preemption is active (R268). -/
def State.preActive (s : State) (n : Nat) : Bool :=
  s.rdB (MAC_CTRL n) 4 && (s.rdB (MAC_CTRL n) 5 || s.rdB (MAC_STAT n) 5)

/-- Whether a class is preemptable under R268, and whether its frames may be cut now. -/
def State.preempt (s : State) (n t : Nat) : Bool := s.rdB (MAC_CTRL n) 4 && s.rdB (MAC_TCCFG n) t
def State.cuttable (s : State) (n t : Nat) : Bool := s.preActive n && s.rdB (MAC_TCCFG n) t

/-- The gates of a list at a time: the open classes, and the ns to the end of the interval (R267). -/
def ivlAt : List (Nat × Nat) → Nat → Nat → Nat → Nat × Nat
  | [], cycle, _, ph => (255, cycle - ph)
  | [(g, _)], cycle, _, ph => (g, cycle - ph)
  | (g, l) :: r, cycle, pos, ph =>
    let e := min (pos + l) cycle
    if ph < e then (g, e - ph) else ivlAt r cycle e ph
def GateList.at_ (g : GateList) (t : Int) : Nat × Nat :=
  let ph := ((t - g.base) % g.cycle).toNat
  ivlAt (g.ivls.filter (fun x => x.2 != 0)) g.cycle 0 ph

/-- The gates of a port at a time, and the ns until they may change, none if they hold (R267). -/
def State.gatesAt (s : State) (n : Nat) (t : Int) : Nat × Option Nat :=
  if s.rdB (MAC_CTRL n) 6 then
    let m := s.mac n
    let old := match m.oper with
      | some g => let x := g.at_ t; (x.1, some x.2)
      | none => (255, none)
    match m.next with
    | some (g, i) =>
      if i ≤ t then let x := g.at_ t; (x.1, some x.2)
      else (old.1, some (min (old.2.getD (i - t).toNat) (i - t).toNat))
    | none => old
  else (255, none)

/-- Whether a mask opens class t. -/
def opens (g t : Nat) : Bool := g.testBit t

/-- How long, in ns, a class's gate stays open from a time on, followed over `fuel` intervals, more than a
cycle's; a gate that stays open throughout counts as open for 2 s. -/
def State.openFor : Nat → State → Nat → Nat → Int → Nat
  | 0, _, _, _, _ => 2000000000
  | k + 1, s, n, c, t =>
    let x := s.gatesAt n t
    if opens x.1 c then
      match x.2 with
      | none => 2000000000
      | some d => d + openFor k s n c (t + d)
    else 0

/-- The longest open interval of a class in a list, in ns (R267); a class that never closes has none. -/
def openRuns : List (Nat × Nat) → Nat → Nat → Nat → Nat
  | [], _, cur, best => max cur best
  | (g, l) :: r, c, cur, best => if opens g c then openRuns r c (cur + l) best else openRuns r c 0 (max cur best)
def GateList.cut (g : GateList) : List (Nat × Nat) :=
  let r := (g.ivls.filter (fun x => x.2 != 0)).foldl (fun (a : List (Nat × Nat) × Nat) x =>
    let l := min x.2 (g.cycle - a.2)
    (a.1 ++ [(x.1, l)], a.2 + l)) ([], 0)
  match r.1.getLast? with
  | some x => r.1.dropLast ++ [(x.1, x.2 + (g.cycle - r.2))]
  | none => [(255, g.cycle)]
def GateList.longest (g : GateList) (c : Nat) : Option Nat :=
  let l := g.cut
  if l.all (fun x => opens x.1 c) then none else some (openRuns (l ++ l) c 0 0)

/-- Whether a ring of a class has a frame ready (R266), its head descriptor's address and words. -/
def State.txReady (s : State) (n t : Nat) : Bool :=
  s.rdF (MAC_TXQ_SIZE n t) 12 0 != 0 && s.rdF (MAC_TXQ_HEAD n t) 11 0 != s.rdF (MAC_TXQ_TAIL n t) 11 0
def State.txDesc (s : State) (n t : Nat) : Nat := (s.rd (MAC_TXQ_BASE n t)).toNat + 32 * s.rdF (MAC_TXQ_HEAD n t) 11 0
def State.txWords (s : State) (n t : Nat) : List Word := wordsAt s.mem (s.txDesc n t) 8

/-- A transmit descriptor's fields (R265). -/
structure TxD where
  addr : Nat
  len  : Nat
  csum : Bool
  seg  : Bool
  one  : Bool
  ts   : Bool
  off  : Nat
  id   : Nat
  hlen : Nat
  v6   : Bool
  tcp  : Bool
  mss  : Nat
deriving DecidableEq, Repr

def txD (w : List Word) : TxD :=
  let g := fun i => w.getD i 0
  { addr := (g 0).toNat, len := bits (g 1) 15 0, csum := bit (g 1) 20, seg := bit (g 1) 19, one := bit (g 1) 18,
    ts := bit (g 1) 17, off := bits (g 2) 31 16, id := bits (g 2) 15 0, hlen := bits (g 3) 23 16,
    v6 := bit (g 3) 15, tcp := bit (g 3) 14, mss := bits (g 3) 13 0 }

/-- A segmentation send stands at the head of a class (MACn_SEG_STAT, R273). -/
def State.segHead (s : State) (n t : Nat) : Bool := s.txReady n t && (txD (s.txWords n t)).seg

/-- Segments of a send (R272). -/
def TxD.segments (d : TxD) : Nat := ceilDiv (d.len - d.hlen) d.mss

/-- Bytes of the largest frame of a descriptor before the FCS (R261). -/
def TxD.largest (d : TxD) : Nat := if d.seg then d.hlen + min (d.len - d.hlen) d.mss else d.len

/-- Pad to 60 bytes and append the FCS (R261). -/
def sealFrame (bs : List Byte) : List Byte :=
  let bs := bs ++ List.replicate (60 - bs.length) 0
  bs ++ leBytes 4 (crc32 bs).toNat

/-- Line time of a frame from its preamble to the end of its FCS, for a frame of `len` bytes before the
FCS. -/
def State.lineTime (s : State) (n len : Nat) : Nat := (8 + max len 60 + 4) * s.byteT n

/-- Whether a frame is too long for every open interval of its class (R267). -/
def State.gateBig (s : State) (n t len : Nat) : Bool :=
  s.rdB (MAC_CTRL n) 6 && (match (s.mac n).oper.bind (fun g => g.longest t) with
    | some l => decide (25 * l < s.lineTime n len)
    | none => false)

/-- The err code of the descriptor at the head of a class, 0 for none (R261, R265, R267).
DEDUCED: assumption 48. -/
def State.txErr (s : State) (n t : Nat) (d : TxD) : Nat :=
  if s.maxlen n < d.largest + 4 then 1
  else if !(inNet d.addr d.len) then 2
  else if ((d.seg || d.csum) && (decide (d.hlen < 14) ||
            (headsOf (bytesAt s.mem d.addr d.len) d.hlen d.v6 d.tcp).isNone)) ||
          (d.one && decide (d.len < d.off + 10)) || (d.seg && (d.mss == 0 || decide (9000 < d.mss))) then 3
  else if s.gateBig n t d.largest then 4
  else 0

/-- Segment k of a segmentation send (R272). -/
def segFrame (bs : List Byte) (h : Heads) (d : TxD) (k : Nat) : List Byte :=
  let last := decide (d.segments ≤ k + 1)
  let pay := ((bs.drop d.hlen).drop (k * d.mss)).take d.mss
  let hd := bs.take d.hlen
  let hd := if d.v6 then putBe hd (h.ip + 4) 2 (d.hlen - h.ip - 40 + pay.length)
    else putBe (putBe hd (h.ip + 2) 2 (d.hlen - h.ip + pay.length)) (h.ip + 4) 2 ((beAt hd (h.ip + 4) 2 + k) % 65536)
  let hd := if d.tcp then
      let fl := byteAt hd (h.l4 + 13)
      let fl := if last then fl else fl - fl % 2 - (fl / 8 % 2) * 8
      let fl := if k = 0 then fl else fl % 128
      putBe (putBe hd (h.l4 + 4) 4 ((beAt hd (h.l4 + 4) 4 + k * d.mss) % 2 ^ 32)) (h.l4 + 13) 1 fl
    else putBe hd (h.l4 + 4) 2 (8 + pay.length)
  putSums (hd ++ pay) h d.v6 d.tcp

/-- The ten bytes of a stamp in a frame (R275). -/
def stampBytes (ns : Int) : List Byte := beBytes 6 (ns / 1000000000).toNat ++ beBytes 4 (ns % 1000000000).toNat

/-- Insert the egress stamp at ts_off and mend the UDP checksum (R275). -/
def oneStep (bs : List Byte) (d : TxD) (ns : Int) : List Byte :=
  let bs := putAt bs d.off (stampBytes ns)
  match l4Off bs 17 with
  | some o =>
    if etherType bs = 0x0800 then putBe bs (o + 6) 2 0
    else if d.csum then
      (match headsOf bs d.hlen d.v6 d.tcp with
       | some h => putL4Sum bs h d.v6 d.tcp
       | none => bs)
    else bs
  | none => bs

/-- The bytes of the next frame of a descriptor, before padding and FCS (R271, R272, R275). -/
def State.txFrame (s : State) (d : TxD) (k : Nat) (ns : Int) : List Byte :=
  let bs := bytesAt s.mem d.addr d.len
  let bs := match headsOf bs d.hlen d.v6 d.tcp with
    | some h => if d.seg then segFrame bs h d k else if d.csum then putSums bs h d.v6 d.tcp else bs
    | none => bs
  if d.one then oneStep bs d ns else bs

/-- Write word 7 of a class's head descriptor, and move the ring on (R265). -/
def State.txBack (s : State) (n t status err segs : Nat) : State :=
  let w := BitVec.ofNat 32 (2 ^ 31 + status * 2 ^ 28 + err * 2 ^ 24 + segs)
  let s := s.netWord (s.txDesc n t + 28) w
  let s := if err = 0 then s else s.raise (MAC_INT n) 4#32
  let s := if 1 ≤ err ∧ err ≤ 4 then s.count (MAC_DESCERR_CNT n) else s
  s.upd (MAC_TXQ_HEAD n t) (fun h =>
    BitVec.ofNat 32 ((h.toNat + 1) % (s.rdF (MAC_TXQ_SIZE n t) 12 0)))

/-- Segments sent by the send at the head of a class. -/
def State.segsSent (s : State) (n t : Nat) : Nat := sget 0 (s.mac n).segs t - 1

/-- A segmentation send ends (R273). -/
def State.segEnd (s : State) (n t status : Nat) : State :=
  let k := s.segsSent n t
  let s := s.setMac n { s.mac n with segs := sset 0 (s.mac n).segs t 0 }
  let s := s.txBack n t status 0 (k % 65536)
  (s.wrB (MAC_SEG_ABORT n) t false).raise (MAC_INT n) 0x20#32

/-- A frame discarded for the link (R257). -/
def State.txLinkDown (s : State) (n t : Nat) (ring : Bool) : State :=
  let s := s.count (MAC_TXLINKDN_CNT n)
  if ring then
    let k := s.segsSent n t
    let s := s.setMac n { s.mac n with segs := sset 0 (s.mac n).segs t 0 }
    (s.wrB (MAC_SEG_ABORT n) t false).txBack n t 0 5 (k % 65536)
  else s

/-- A link changes state (R256); preemption is to be verified anew (R268; PRESUMED, assumption 47). -/
def State.setMacLink (s : State) (n l : Nat) : State :=
  if s.macLink n = l then s else ((s.wrF (MAC_STAT n) 1 0 l).wrB (MAC_STAT n) 5 false).raise (MAC_INT n) 1#32

/-- The verify exchange of Clause 99 succeeds (R268). PRESUMED: assumption 47. -/
def State.verifyIn (s : State) (n : Nat) : State :=
  if s.rdB (MAC_CTRL n) 4 && !(s.rdB (MAC_CTRL n) 5) then s.wrB (MAC_STAT n) 5 true else s

/-- The link leaves UP: the frame on the wire, and one held by preemption, end there, and each frame being received
is discarded as a code error (R257). -/
def State.leaveUp (s : State) (n : Nat) : State :=
  let m := s.mac n
  let s := s.setMac n { m with wire := none, held := none, rx := none, rxP := none }
  let s := s.countF (MAC_PHYERR_CNT n) 31 0 (b2n m.rx.isSome + b2n m.rxP.isSome)
  let s := match m.wire with
    | some w => s.txLinkDown n w.cls w.ring
    | none => s
  match m.held with
  | some w => s.txLinkDown n w.cls w.ring
  | none => s

/-- MACn_CTRL.en comes or goes (R256). -/
def State.macEnable (s : State) (n : Nat) (on : Bool) : State :=
  if on then (if s.macLink n = 0 then s.setMacLink n 1 else s)
  else (if s.macUp n then s.leaveUp n else s).setMacLink n 0

/-- Events of the link (R256). -/
def State.linkLock (s : State) (n : Nat) : State := if s.macLink n = 1 then s.setMacLink n 2 else s
def State.linkLoss (s : State) (n : Nat) : State :=
  if s.macLink n = 2 then ((s.leaveUp n).setMacLink n 1).count (MAC_LINKDN_CNT n)
  else if s.macLink n = 3 then (s.setMacLink n 1).count (MAC_LINKDN_CNT n) else s
def State.remoteFault (s : State) (n : Nat) : State := if s.macLink n = 2 then (s.leaveUp n).setMacLink n 3 else s
def State.remoteClear (s : State) (n : Nat) : State := if s.macLink n = 3 then s.setMacLink n 2 else s

/-- The pause is in effect at an instant (R269). -/
def Mac.pausedAt (m : Mac) (t : Nat) : Bool := match m.pause with
  | some (f, u) => decide (f ≤ t ∧ t < u)
  | none => false

/-- The pause ends (R269, R270). -/
def State.pauseEnd (s : State) (n : Nat) : State :=
  (s.setMac n { s.mac n with pause := none }).wrF (MAC_STAT n) 4 3 0

/-- The frame that goes ahead of a class's ring, if any: the stream engine's, or in class 7 the firmware's and in class 6
Anise's, once it has come (R266, R289, R328). -/
def Mac.strmHead (m : Mac) (t : Nat) : Option (List Byte) := (m.strmQ.find? (fun x => x.1 = t)).map Prod.snd
def Mac.aniHead (m : Mac) : Option FwFrame := match m.aniQ with
  | [] => none
  | x :: _ => if x.1 ≤ m.asOf then some { bytes := x.2 } else none
def Mac.fwHead (m : Mac) (t : Nat) : Option FwFrame :=
  if (m.strmHead t).isSome then none else if t = 7 then m.fwQ.head? else if t = 6 then m.aniHead else none
def Mac.offered (m : Mac) (t : Nat) : Option (List Byte) := match m.strmHead t with
  | some bs => some bs
  | none => (m.fwHead t).map FwFrame.bytes
def Mac.drop (m : Mac) (t : Nat) : Mac := match m.strmHead t with
  | some _ => { m with strmQ := m.strmQ.eraseP (fun x => x.1 = t) }
  | none => if t = 7 then { m with fwQ := m.fwQ.tail } else { m with aniQ := m.aniQ.tail }

/-- Frames wait in a class. -/
def State.waits (s : State) (n t : Nat) : Bool := s.txReady n t || ((s.mac n).offered t).isSome

/-- The credit of a class after `dt`, its gate and the line as they have stood since (R267).
PRESUMED: assumption 46. -/
def State.creditStep (s : State) (n t dt : Nat) : Int :=
  let m := s.mac n
  let c := sget 0 m.credit t
  let idle : Int := s.rdF (MAC_CBS n t) 24 0
  let rate : Int := s.portRate n
  let hi := s.maxlen n * 200000000 * idle / rate
  let lo := -(s.maxlen n * 200000000 * (rate - idle) / rate)
  if !(opens (s.gatesAt n (s.stcLine m.asOf)).1 t) then c
  else if (m.wire.map Wire.cls) == some t then max lo (c + (idle - rate) * dt)
  else if s.waits n t then min hi (c + idle * dt)
  else min 0 (c + idle * dt)

/-- The credits of a port up to an instant (R267). -/
def State.credits (s : State) (n at_ : Nat) : State :=
  let m := s.mac n
  let dt := at_ - m.asOf
  let cr := (upTo 8).foldl (fun l t =>
    sset 0 l t (if s.rdB (MAC_TCCFG n) (8 + t) then s.creditStep n t dt else 0)) m.credit
  s.setMac n { m with credit := cr, asOf := max m.asOf at_ }

/-- The port as it stands at the present: pauses that have run out, the credits, in which class 6 waits from the
instant its first frame of Anise's came. -/
def State.macNow (s : State) (n : Nat) : State :=
  let s := match (s.mac n).pause with
    | some (f, u) =>
      if u ≤ s.lineNow then s.pauseEnd n
      else if f ≤ s.lineNow then s.wrB (MAC_STAT n) 3 true else s
    | none => s
  let s := match (s.mac n).aniQ with
    | x :: _ => s.credits n x.1
    | [] => s
  s.credits n s.lineNow

/-- A class may start a frame at an instant: gate open, credit, pause (R266, R270). -/
def State.mayStart (s : State) (n t at_ : Nat) : Bool :=
  let m := s.mac n
  opens (s.gatesAt n (s.stcLine at_)).1 t &&
  (!(s.rdB (MAC_TCCFG n) (8 + t)) || decide (0 ≤ sget 0 m.credit t)) &&
  (!(m.pausedAt at_) || (s.rdB (MAC_STAT n) 4 && !(s.preempt n t)))

/-- Line units the gate of a class stays open from an instant. -/
def State.gateLeft (s : State) (n t at_ : Nat) : Nat := 25 * s.openFor 200 n t (s.stcLine at_)

/-- The least bytes of a fragment that is not final (R268), its mCRC not counted. -/
def State.minFrag (s : State) (n : Nat) : Nat := 60 + 64 * s.rdF (MAC_CTRL n) 13 12

/-- The bytes of the frame that go before its gate closes: all of it, or for a frame that may be cut a
fragment; none if it may not start (R267, R268). -/
def State.fits (s : State) (n t at_ len gone : Nat) : Option Nat :=
  let left := s.gateLeft n t at_
  let b := s.byteT n
  if (8 + (len - gone)) * b ≤ left then some len
  else if s.cuttable n t then
    let c := min (left / b - 12) (len - gone - 64)
    if s.minFrag n ≤ c ∧ 64 + c ≤ len - gone then some (gone + c) else none
  else none

/-- A frame starts on the wire. -/
def State.startWire (s : State) (n : Nat) (w : Wire) : State :=
  s.setMac n { s.mac n with wire := some w, asOf := max (s.mac n).asOf w.start }

/-- The egress stamp of a frame that starts at an instant (R274). -/
def State.egress (s : State) (n at_ : Nat) : Int :=
  s.stcLine (at_ + 8 * s.byteT n) + sbits (s.rd (MAC_TSADJ n)) 31 16

/-- Transmit selection over classes t - 1 down to 0, from an instant (R266). A descriptor in error is
written back and the ring moves on. -/
def State.macScan : Nat → State → Nat → Nat → Nat → State
  | 0, s, _, _, _ => s
  | _, s, _, 0, _ => s
  | k + 1, s, n, t + 1, at_ =>
    let m := s.mac n
    if m.held.isSome && s.cuttable n t then macScan k s n t at_
    else
      match (if sget 0 m.segs t = 0 then m.offered t else none) with
      | some bs =>
        if s.gateBig n t bs.length || decide (s.maxlen n < bs.length + 4) then
          macScan k (s.setMac n (m.drop t)) n (t + 1) at_
        else
          match (if s.mayStart n t at_ then s.fits n t at_ (max bs.length 60 + 4) 0 else none) with
          | some u =>
            let f := m.fwHead t
            let ns := s.egress n at_
            let bs := match f.bind FwFrame.one with
              | some o => putAt bs o (stampBytes ns)
              | none => bs
            (s.setMac n (m.drop t)).startWire n
              { cls := t, ring := false, data := sealFrame bs, upto := u, start := at_,
                stamp := (f.bind FwFrame.ts).map (fun i => (i, ns)), fw := f }
          | none => macScan k s n t at_
      | none =>
        if s.txReady n t then
          let d := txD (s.txWords n t)
          let fresh := sget 0 m.segs t = 0
          let err := if fresh then s.txErr n t d else 0
          if err != 0 then macScan k (s.txBack n t 0 err 0) n (t + 1) at_
          else if d.seg && d.segments = 0 then macScan k (s.segEnd n t 1) n (t + 1) at_
          else if s.mayStart n t at_ then
            let i := s.segsSent n t
            let ns := s.egress n at_
            let bs := sealFrame (s.txFrame d i ns)
            match s.fits n t at_ bs.length 0 with
            | some u =>
              let s := s.setMac n { m with segs := if d.seg then sset 0 m.segs t (i + 1) else m.segs }
              s.startWire n { cls := t, ring := true, data := bs, upto := u, start := at_,
                              stamp := if d.ts then some (d.id, ns) else none }
            | none => macScan k s n t at_
          else macScan k s n t at_
        else macScan k s n t at_

/-- A frame held by preemption goes on when no express frame is ready and no pause holds the preemptable classes (R268
to R270). -/
def State.resume (s : State) (n at_ : Nat) : State :=
  let m := s.mac n
  match m.wire, m.held with
  | none, some w =>
    if opens (s.gatesAt n (s.stcLine at_)).1 w.cls && !(m.pausedAt at_) then
      match s.fits n w.cls at_ w.data.length w.gone with
      | some u => (s.setMac n { m with held := none }).startWire n { w with upto := u, start := at_ }
      | none => s
    else s
  | _, _ => s

/-- The instant a fragment ends: preamble, bytes, and the mCRC of one that is not final.
DEDUCED: assumption 45. -/
def State.wireEnd (s : State) (n : Nat) (w : Wire) : Nat :=
  w.start + (8 + (w.upto - w.gone) + (if w.upto < w.data.length then 4 else 0)) * s.byteT n

/-- A pause that begins with the end of the frame or fragment on the wire begins as that changes (R269). -/
def Mac.pauseMove (m : Mac) (was e : Nat) : Mac :=
  match m.pause with
  | some (f, t) => if f = was then { m with pause := some (e, e + (t - f)), meas := if m.meas = f then e else m.meas } else m
  | none => m

/-- An express frame is ready while a frame that may be cut is on the wire: its fragment ends at the
earliest permissible point (R268), and a pause that waits for its end begins then (R269). -/
def State.cutWire (s : State) (n : Nat) (w : Wire) : State :=
  let ready := (upTo 8).any (fun t => !(s.cuttable n t) && s.waits n t && s.mayStart n t s.lineNow)
  if s.cuttable n w.cls && ready then
    let out := (s.lineNow - w.start) / s.byteT n - 8
    let c := w.gone + max out (s.minFrag n)
    if c < w.upto ∧ c + 64 ≤ w.data.length then
      let v := { w with upto := c }
      s.setMac n (({ s.mac n with wire := some v }).pauseMove (s.wireEnd n w) (s.wireEnd n v))
    else s
  else s

/-- MAC_TX_SELECT (R257, R266). -/
def State.macSelect (s : State) (n : Nat) : State :=
  let s := s.macNow n
  let m := s.mac n
  if s.macUp n then
    match m.wire with
    | some w => s.cutWire n w
    | none =>
      let at_ := max m.free s.lineNow
      let fuel := 8 + m.strmQ.length + m.fwQ.length + m.aniQ.length + (upTo 8).foldl (fun k t =>
        k + (s.rdF (MAC_TXQ_TAIL n t) 11 0 + s.rdF (MAC_TXQ_SIZE n t) 12 0 - s.rdF (MAC_TXQ_HEAD n t) 11 0)) 0
      (State.macScan (2 * fuel) (s.credits n at_) n 8 at_).resume n at_
  else if s.macLink n = 0 then s
  else
    match (upTo 8).reverse.find? (fun t => s.waits n t) with
    | none => s
    | some t =>
      if (m.offered t).isSome then (s.setMac n (m.drop t)).txLinkDown n t false
      else s.txLinkDown n t true

/-- TX_TIMESTAMP_RECORD (R274). -/
def State.stampIn (s : State) (n id : Nat) (ns : Int) : State :=
  let m := s.mac n
  if m.tsq.length < 32 then
    let s := s.setMac n { m with tsq := m.tsq ++ [⟨id, ns, m.lost⟩], lost := none }
    let s := s.wrF (MAC_TSQ_STAT n) 5 0 (m.tsq.length + 1)
    if m.lost.isSome then s.raise (MAC_INT n) 0x10#32 else s
  else (s.setMac n { m with lost := some (m.lost.getD id) }).count (MAC_TSLOST_CNT n)

/-- A frame of a ring has left the port (R265, R272, R273). -/
def State.ringSent (s : State) (n t : Nat) : State :=
  if sget 0 (s.mac n).segs t = 0 then s.txBack n t 1 0 0
  else
    let k := s.segsSent n t + 1
    let s := s.setMac n { s.mac n with segs := sset 0 (s.mac n).segs t (k + 1) }
    let abort := s.rdB (MAC_SEG_ABORT n) t
    if (txD (s.txWords n t)).segments ≤ k then s.segEnd n t (if abort then 3 else 1)
    else if abort then s.segEnd n t 2 else s

/-- A timed frame of the firmware has left (R289, R290): a two-step Sync is followed up with its stamp and a request's
stamp is kept; where the stamp is lost the exchange is abandoned. -/
def State.fwSent (s : State) (n : Nat) (f : FwFrame) (ns : Option Int) : State :=
  let m := s.mac n
  match f.follow, ns with
  | some (bs, o), some t => s.setMac n { m with fwQ := m.fwQ ++ [{ bytes := putAt bs o (stampBytes t) }] }
  | some _, none => s
  | none, t => if f.req then s.setMac n { m with reqAt := t } else s

/-- The stamp of a frame that has left enters the queue (R274, R290). -/
def State.stampOut (s : State) (n : Nat) (w : Wire) : State :=
  match w.stamp with
  | none => s
  | some (id, ns) =>
    let room := decide ((s.mac n).tsq.length < 32)
    let s := s.stampIn n id ns
    match w.fw with
    | some f => s.fwSent n f (if room then some ns else none)
    | none => s

/-- MAC_TX_COMPLETE (R265): the last bit of the frame or fragment leaves the port. -/
def State.macComplete (s : State) (n : Nat) : State :=
  match (s.mac n).wire with
  | none => s
  | some w =>
    let e := s.wireEnd n w
    let s := (s.advanceTo (ceilDiv e 25)).macNow n
    let s := s.setMac n { s.mac n with wire := none, free := e + 12 * s.byteT n }
    if w.upto < w.data.length then
      (s.setMac n { s.mac n with held := some { w with gone := w.upto } }).count (MAC_FRAG_TX_CNT n)
    else
      let s := if w.gone = 0 then s else s.count (MAC_FRAG_TX_CNT n)
      let s := s.setMac n { s.mac n with sent := (s.mac n).sent ++ [(w.start, w.data)] }
      let s := (s.count (MAC_TXFRM_CNT n)).upd (MAC_TXBYTE_CNT n) (· + BitVec.ofNat 32 w.data.length)
      let s := s.stampOut n w
      if w.ring then s.ringSent n w.cls else s

/-- SEG_ABORT (R273): the abort takes effect at the next segment boundary, which is now where no segment is
on the wire. -/
def State.segAbort (s : State) (n : Nat) (mask : Nat) : State :=
  s.each ((upTo 8).filter (fun t => mask.testBit t)) (fun s t =>
    if s.segHead n t then
      let m := s.mac n
      let mine := fun (w : Wire) => w.ring && w.cls = t
      if m.wire.any mine || m.held.any mine then s.wrB (MAC_SEG_ABORT n) t true else s.segEnd n t 2
    else s)

/-- TIMESTAMP_POP (R274). -/
def State.stampPop (s : State) (n : Nat) : State :=
  let m := s.mac n
  match m.tsq with
  | [] => s.wrB (MAC_TSQ_STAT n) 31 false
  | x :: r =>
    let s := s.setMac n { m with tsq := r }
    let s := s.wr (MAC_TSQ_STAT n) (BitVec.ofNat 32 (2 ^ 31 + 2 ^ 30 * b2n x.lost.isSome + r.length))
    let s := s.wr (MAC_TSQ_ID n) (BitVec.ofNat 32 (x.lost.getD 0 * 65536 + x.id))
    (s.wr (MAC_TSQ_SEC n) (secWord x.ns)).wr (MAC_TSQ_NS n) (nsWord x.ns)

/-- The full seconds nearest the present STC that end in a 32-bit value (R283). -/
def State.nearSec (s : State) (w : Word) : Int :=
  let now := BitVec.ofNat 32 (stcSec s.stc)
  (stcSec s.stc : Int) + (w - now).toInt

/-- GATE_LIST_COMMIT (R267): the admin list, and the earliest cycle start not before now. -/
def State.gclCommit (s : State) (n : Nat) : State :=
  let base := s.nearSec (s.rd (MAC_GCL_BASE_SEC n)) * 1000000000 + s.rdF (MAC_GCL_BASE_NS n) 29 0
  let cyc := s.rdF (MAC_GCL_CYCLE n) 29 0
  let now : Int := ceilDiv s.stc 1000000000000
  let k := if now ≤ base then 0 else ceilDiv (now - base).toNat cyc
  let inst := base + k * cyc
  let l := (upTo (s.rdF (MAC_GCL_LEN n) 6 0)).map (fun i =>
    (s.rdF (MAC_GCL_GATE n i) 7 0, s.rdF (MAC_GCL_IVL n i) 29 0))
  (s.setMac n { s.mac n with next := some (⟨inst, cyc, l⟩, inst) }).wr (MAC_GCL_COMMIT n) 1#32

/-- GATE_LIST_ACTIVATE (R267). -/
def State.gclActivate (s : State) (n : Nat) : State :=
  match (s.mac n).next with
  | none => s
  | some (g, i) =>
    let s := (s.macNow n).advance (s.cyclesTo (i * 1000000000000).toNat)
    let s := s.macNow n
    let s := s.setMac n { s.mac n with oper := some g, next := none }
    ((s.wr (MAC_GCL_COMMIT n) 0).wrF (MAC_GCL_STAT n) 14 8 g.ivls.length).raise (MAC_INT n) 0x40#32

/-- GATE_INTERVAL_END (R267): time passes to the end of the interval, and the gates are those of the next. -/
def State.gateIvlEnd (s : State) (n : Nat) : State :=
  let s := s.macNow n
  match (s.gatesAt n s.stcInt).2 with
  | none => s
  | some d => (s.advance (s.cyclesTo ((s.stcInt + d) * 1000000000000).toNat)).macNow n

/-- PAUSE_EXPIRE (R269). -/
def State.pauseExpire (s : State) (n : Nat) : State :=
  match (s.mac n).pause with
  | none => s
  | some (_, u) => (s.advanceTo (ceilDiv u 25)).macNow n

/-- PAUSE_WATCHDOG (R270): the ceiling is reached before the pause ends. -/
def State.pauseDog (s : State) (n : Nat) : State :=
  match (s.mac n).pause with
  | none => s
  | some (_, u) =>
    let e := (s.mac n).meas + 25000 * s.rdF (MAC_PWD n) 15 0
    if u ≤ e || s.rdB (MAC_STAT n) 4 then s
    else
      let s := (s.advanceTo (ceilDiv e 25)).macNow n
      ((s.wrB (MAC_STAT n) 4 true).raise (MAC_INT n) 2#32).count (MAC_PWD_CNT n)

/-- PAUSE_RECEIVE (R269): the pause takes effect after the frame or fragment on the wire. -/
def State.pauseIn (s : State) (n quanta : Nat) : State :=
  let s := (s.macNow n).count (MAC_PAUSE_RX_CNT n)
  let m := s.mac n
  let f := match m.wire with
    | some w => max s.lineNow (s.wireEnd n w)
    | none => s.lineNow
  if quanta = 0 then s.pauseEnd n
  else
    let on := m.pausedAt s.lineNow
    let s := s.setMac n { m with pause := some (if on then s.lineNow else f, f + quanta * 64 * s.byteT n),
                                 meas := if on then m.meas else f }
    s.macNow n

def execMacTxSelect (n : Fin 2) (s : State) : Out := done (s.macSelect n)
def execMacTxComplete (n : Fin 2) (s : State) : Out := done (s.macComplete n)
def execSegAbort (r : Req) (n : Fin 2) (abort : BitVec 8) (s : State) : Out :=
  done (s.gated r (MAC_SEG_ABORT n) (abort.zeroExtend 32) (fun s => s.segAbort n abort.toNat))
def execTimestampPop (r : Req) (n : Fin 2) (s : State) : Out :=
  done (s.gated r (MAC_TSQ_POP n) 1#32 (fun s => s.stampPop n))
def execGateListCommit (r : Req) (n : Fin 2) (s : State) : Out :=
  done (s.gated r (MAC_GCL_COMMIT n) 1#32 (fun s => s.gclCommit n))
def execGateListActivate (n : Fin 2) (s : State) : Out := done (s.gclActivate n)
def execGateIntervalEnd (n : Fin 2) (s : State) : Out := done (s.gateIvlEnd n)
def execPauseExpire (n : Fin 2) (s : State) : Out := done (s.pauseExpire n)
def execPauseWatchdog (n : Fin 2) (s : State) : Out := done (s.pauseDog n)
def execLinkBlockLockTimer (n : Fin 2) (s : State) : Out := done (s.linkLock n)
def execLinkLoss (n : Fin 2) (s : State) : Out := done (s.linkLoss n)
def execRemoteFaultReceive (n : Fin 2) (s : State) : Out := done (s.remoteFault n)
def execRemoteFaultClear (n : Fin 2) (s : State) : Out := done (s.remoteClear n)

end Sys2Proof.Machine
end

