-- ==== Sys2Proof/Machine/PtpIn.lean ====
section
/-! DEFINITION. The house firmware's PTP instances and what they take from the messages of queue 15 (R289, R290, R357,
R358). The messages' layout is that of IEEE 1588-2019, which R289 names. PRESUMED: assumption 92. -/

namespace Sys2Proof.Machine

/-- A house core runs (R359). -/
def State.anyCore (s : State) : Bool := s.coreRuns 0 || s.coreRuns 1

/-- The shed level (R358). -/
def State.shedLevel (s : State) : Nat := s.rdF HSE_HOUSE_STAT 2 0

/-- The firmware runs PTP: a core runs, and PTP is not shed (R358). -/
def State.ptpRuns (s : State) : Bool := s.anyCore && decide (s.shedLevel < 5)

/-- A port's PTP instance. -/
def State.ptpInst (s : State) (p : Nat) : Option PtpInst := (s.house.ptp.find? (fun x => x.1 = p)).map Prod.snd
def State.setPtpInst (s : State) (p : Nat) (x : Option PtpInst) : State :=
  let l := s.house.ptp.filter (fun x => x.1 != p)
  { s with house := { s.house with ptp := match x with
    | some i => l ++ [(p, i)]
    | none => l } }

/-- What an instance's arguments say (R289, R357): its profile's number, whether it is master-capable, its MAC
address, and the clock identity made from it. -/
def PtpInst.profile (i : PtpInst) : Nat := bits (i.args.getD 0 0) 2 1
def PtpInst.master (i : PtpInst) : Bool := bit (i.args.getD 0 0) 3
def PtpInst.eui (i : PtpInst) : List Byte := beBytes 2 (bits (i.args.getD 3 0) 15 0) ++ beBytes 4 (i.args.getD 2 0).toNat
def PtpInst.clock (i : PtpInst) : List Byte := i.eui.take 3 ++ beBytes 2 0xFFFE ++ i.eui.drop 3

/-- Where a message starts in its frame. -/
def ptpOff (i : PtpInst) : Nat := if i.profile = 3 then 14 else 42

/-- A message's type, the time at a byte of it and its correction, in ns. -/
def ptpKind (b : List Byte) : Nat := beAt b 0 1 % 16
def ptpTime (b : List Byte) (o : Nat) : Int := beAt b o 6 * 1000000000 + beAt b (o + 6) 4
def ptpCorr (b : List Byte) : Int := (BitVec.ofNat 64 (beAt b 8 8)).toInt / 65536

/-- Whether a message answers the last request of a type that the instance of port `p` sent. -/
def PtpInst.asked (i : PtpInst) (p type : Nat) (b : List Byte) : Bool :=
  sget 0 i.seq type == (beAt b 30 2 + 1) % 65536 && (b.drop 44).take 10 == i.clock ++ beBytes 2 (p + 1)

/-- What an instance takes from a message `b` whose receive stamp is `ns` (R289), `req` the stamp of its last request:
the origin of a Sync, the mean path delay end-to-end or peer-to-peer, the grandmaster's identity. A measurement whose
transmit stamp is lost is discarded (R290). -/
def PtpInst.hear (i : PtpInst) (p : Nat) (b : List Byte) (ns : Int) (req : Option Int) : PtpInst :=
  let seq := beAt b 30 2
  let two := decide (beAt b 6 2 / 512 % 2 = 1)
  let t := ptpTime b 34
  let corr := ptpCorr b
  match ptpKind b, req with
  | 0, _ => { i with syncAt := some (seq, ns - corr), origin := if two then none else some t }
  | 8, _ => if i.syncAt.any (fun x => x.1 = seq) then { i with origin := some (t + corr) } else i
  | 9, some t3 =>
    match i.syncAt, i.origin with
    | some (_, t2), some t1 =>
      if i.asked p 1 b then { i with delay := some ((t2 - t1 + (t - corr - t3)) / 2) } else i
    | _, _ => i
  | 3, some t1 =>
    if !(i.asked p 2 b) then i
    else if two then { i with respAt := some (seq, t, ns - corr) }
    else { i with delay := some ((ns - t1 - corr) / 2) }
  | 10, some t1 =>
    match i.respAt with
    | some (q, t2, t4) =>
      if q = seq && i.asked p 2 b then { i with delay := some ((t4 - t1 - (t + corr - t2)) / 2) } else i
    | none => i
  | 11, _ => { i with gm := (b.drop 53).take 8 }
  | _, _ => i

/-- The request that an instance answers: a Delay_Req as a master end-to-end, a Pdelay_Req peer-to-peer (R289). -/
def PtpInst.answers (i : PtpInst) (b : List Byte) : Bool :=
  if i.profile = 3 then ptpKind b = 2 else i.master && ptpKind b = 1

/-- A frame in queue 15 reaches the instance of its port, unless PTP is shed (R289, R358). -/
def State.ptpHear (s : State) (p : Nat) (frame : List Byte) (ns : Int) : State :=
  match s.ptpInst p with
  | some i =>
    let b := frame.drop (ptpOff i)
    if !s.ptpRuns then s
    else if i.answers b then s.setMac p { s.mac p with fwRx := (s.mac p).fwRx ++ [(ns, b)] }
    else s.setPtpInst p (some (i.hear p b ns (s.mac p).reqAt))
  | none => s

end Sys2Proof.Machine
end

