-- ==== Sys2Proof/Machine/Streams.lean ====
section
/-! DEFINITION. Media streams (R278 to R288), and what a network port does with a received frame (R259 to
R264, R269). -/

namespace Sys2Proof.Machine

/-- Samples of a packet, bytes of a sample, and whether a format is RTP (R279). -/
def packetN (fs ptime : Nat) : Nat := fs / 48000 * (match ptime with
  | 0 => 6
  | 1 => 12
  | _ => 48)
def fmtBytes (fmt : Nat) : Nat := fmt % 4 + 2
def fmtRtp (fmt : Nat) : Bool := decide (fmt < 4)
/-- Header bytes of an untagged frame (R279). -/
def fmtHlen (fmt : Nat) : Nat := if fmtRtp fmt then 54 else 38

/-- The packet time in ns. -/
def packetNs (ptime : Nat) : Nat := match ptime with
  | 0 => 125000
  | 1 => 250000
  | _ => 1000000

/-- The rates at which streams run (R278). -/
def State.strmRate (s : State) : Bool := s.fs % 48000 == 0

/-- Whether a receive or transmit stream runs. -/
def State.rxRuns (s : State) (i : Nat) : Bool := s.rdB STRM_CTRL 0 && s.rdB (STRM_RX_CTRL i) 31 && s.strmRate
def State.txRuns (s : State) (i : Nat) : Bool := s.rdB STRM_CTRL 0 && s.rdB (STRM_TX_CTRL i) 31 && s.strmRate

/-- A receive stream and a transmit stream. -/
def State.srx (s : State) (i : Nat) : StrmRx := sget {} s.strmRx i
def State.setSrx (s : State) (i : Nat) (x : StrmRx) : State := { s with strmRx := sset {} s.strmRx i x }
def State.stx (s : State) (i : Nat) : StrmTx := sget {} s.strmTx i
def State.setStx (s : State) (i : Nat) (x : StrmTx) : State := { s with strmTx := sset {} s.strmTx i x }

/-- A receive stream's counter, by word offset from STRM_PKTA_CNT (R291). -/
def State.srxCount (s : State) (i k : Nat) : State :=
  let x := s.srx i
  s.setSrx i { x with cnt := sset 0 x.cnt k (BitVec.ofNat 32 (satInc 32 (sget 0 x.cnt k).toNat)) }

/-- M(k, 0) of the block being captured (R281). -/
def State.mediaBase (s : State) : Int := (s.frame.edge : Int) - s.blk - 3

/-- M(t) at the present, and at a time in ns (R281). -/
def State.mediaNow (s : State) : Int := s.stc * s.fs / stcSecond
def State.mediaAt (s : State) (ns : Int) : Int := ns * s.fs / 1000000000

/-- Whether a frame from a port matches a receive stream, and if so on path B (R282). -/
def State.srxMatch (s : State) (n i : Nat) (bs : List Byte) : Option Bool :=
  let c := s.rd (STRM_RX_CTRL i)
  let path := if bits c 29 29 = n then some false else if bit c 30 && bits c 28 28 == n then some true else none
  let o := typeOff bs + 2
  let key := if fmtRtp (bits c 26 24) then
      etherType bs = 0x0800 && beAt bs (o + 16) 4 == (s.rd (STRM_RX_KEY0 i)).toNat &&
        udpPort bs == some (s.rdF (STRM_RX_KEY1 i) 15 0)
    else
      etherType bs = 0x22F0 && beAt bs (o + 4) 4 == (s.rd (STRM_RX_KEY0 i)).toNat &&
        beAt bs (o + 8) 4 == (s.rd (STRM_RX_KEY1 i)).toNat
  if s.rxRuns i && key then path else none

/-- What a stream packet carries: its sequence number and modulus, its first target count before the delay,
and its payload (R283). -/
structure Packet where
  seq  : Nat
  mod  : Nat
  at_  : Int
  data : List Byte
deriving DecidableEq, Repr

/-- The packet in a frame (R283). -/
def State.packetOf (s : State) (rtp : Bool) (bs : List Byte) : Packet :=
  if rtp then
    let o := (l4Off bs 17).getD 0
    let now := s.mediaNow
    let ts := now + (BitVec.ofNat 32 (beAt bs (o + 12) 4) - BitVec.ofInt 32 now).toInt
    ⟨beAt bs (o + 10) 2, 65536, ts, (bs.drop (o + 20)).take (beAt bs (o + 4) 2 - 20)⟩
  else
    let o := typeOff bs + 2
    let now := s.stcInt
    let t := now + (BitVec.ofNat 32 (beAt bs (o + 12) 4) - BitVec.ofInt 32 now).toInt
    ⟨byteAt bs (o + 2), 256, s.mediaAt t, (bs.drop (o + 24)).take (beAt bs (o + 20) 2)⟩

/-- Sample words of `w` bytes each: the top bytes of a Q1.31 word (R280). -/
def sampleWords : Nat → Nat → List Byte → List Word
  | 0, _, _ => []
  | k + 1, w, bs => BitVec.ofNat 32 (beAt bs 0 w * 2 ^ (32 - 8 * w)) :: sampleWords k w (bs.drop w)

/-- The buffer address of a media count (R283). DEDUCED: assumption 51. -/
def State.srxAddr (s : State) (i : Nat) (count : Int) : Nat :=
  let d := s.rdF (STRM_RX_DEPTH i) 8 0
  netBase + s.rdF (STRM_RX_BUF i) 21 4 * 16 + (count % d).toNat * s.rdF (STRM_RX_CTRL i) 6 0 * 4

/-- Place a packet's samples (R283). -/
def State.srxWrite (s : State) (i np : Nat) (at_ : Int) (data : List Byte) : State :=
  let c := s.rd (STRM_RX_CTRL i)
  let ch := bits c 6 0
  let w := fmtBytes (bits c 26 24)
  let s := s.each (upTo np) (fun s k =>
    s.masterWrite 7 (s.srxAddr i (at_ + k)) (wordBytes (sampleWords ch w (data.drop (k * ch * w)))))
  let x := s.srx i
  let new := (upTo np).map (fun (k : Nat) => (at_ + (k : Int)).toNat)
  s.setSrx i { x with written := (x.written.filter (fun y => !(new.contains y)) ++ new) }

/-- A packet for a receive stream (R283 to R285). DEDUCED: assumption 52. -/
def State.srxPacket (s : State) (i : Nat) (pathB : Bool) (p : Packet) : State :=
  let c := s.rd (STRM_RX_CTRL i)
  let np := packetN s.fs (bits c 21 20)
  let x := s.srx i
  let prev := if pathB then x.seqB else x.seqA
  let s := s.setSrx i (if pathB then { x with seqB := some p.seq, seenB := s.now }
    else { x with seqA := some p.seq, seenA := s.now })
  let s := s.wrB (STRM_RX_STAT i) (if pathB then 2 else 1) true
  let s := match prev with
    | some q => if (q + 1) % p.mod = p.seq then s else s.srxCount i 6
    | none => s
  if p.data.length ≠ np * bits c 6 0 * fmtBytes (bits c 26 24) then s.srxCount i 3
  else if !(s.running && s.frame.ticking) then s
  else
    let t := p.at_ + s.rdF (STRM_RX_MAP i) 8 0
    let m := s.mediaBase
    if t < m then s.srxCount i 3
    else if m + s.rdF (STRM_RX_DEPTH i) 8 0 ≤ t + np - 1 then s.srxCount i 4
    else if bit c 30 && (upTo np).all (fun k => x.written.contains (t + k).toNat) then s.srxCount i 2
    else (s.srxWrite i np t p.data).srxCount i (if pathB then 1 else 0)

/-- STREAM_PACKET_RECEIVE (R282): a frame handed to the stream engine. -/
def State.strmReceive (s : State) (n : Nat) (bs : List Byte) : State :=
  match (upTo 128).find? (fun i => (s.srxMatch n i bs).isSome) with
  | none => s.count STRM_NOMATCH_CNT
  | some i =>
    s.srxPacket i ((s.srxMatch n i bs).getD false) (s.packetOf (fmtRtp (s.rdF (STRM_RX_CTRL i) 26 24)) bs)

/-- The samples of a block in a stream's buffer: for each sample its words, or none where it is unwritten or the Bus
Matrix does not serve the read in time. DEDUCED: assumption 107. -/
def State.srxBlock (s : State) (i : Nat) : List (Option (List Word)) × State :=
  let x := s.srx i
  let ch := s.rdF (STRM_RX_CTRL i) 6 0
  (upTo s.blk).foldl (fun r (j : Nat) =>
    let c := s.mediaBase + (j : Int)
    if x.written.contains c.toNat then
      let d := r.2.masterRead 7 (r.2.srxAddr i c) (ch * 4)
      (r.1 ++ [d.1.map bytesWords], d.2)
    else (r.1 ++ [none], r.2)) ([], s)

/-- LOST counts of a block (R284): one for each packet time of samples missing. -/
def State.srxLost (s : State) (i np : Nat) (bs : List (Option (List Word))) : State :=
  s.each bs (fun s b =>
    let x := s.srx i
    if b.isSome then s.setSrx i { x with gap := 0 }
    else
      let s := if x.gap % np = 0 then (s.srxCount i 5).raise STRM_INT 1#32 else s
      s.setSrx i { s.srx i with gap := x.gap + 1 })

/-- STREAM_BLOCK_TAKE (R283): a stream's block becomes source data of its channels, but for the channels a
lower-numbered stream has (R288). -/
def State.srxTake (s : State) (taken : List Nat) (i : Nat) : State :=
  let c := s.rd (STRM_RX_CTRL i)
  let base := s.rdF (STRM_RX_MAP i) 25 16
  let r := s.srxBlock i
  let s := r.2.srxLost i (packetN s.fs (bits c 21 20)) r.1
  let s := s.each (upTo (bits c 6 0)) (fun s k =>
    let x := s.srx i
    let f := fadeBlock (sget {} x.fade k) (r.1.map (fun o => o.map (fun l => l.getD k 0)))
    let s := s.setSrx i { x with fade := sset {} x.fade k f.1 }
    if taken.contains (base + k) then s else s.produce (0x800 + base + k) f.2.1)
  let s := s.wrB (STRM_RX_STAT i) 3 ((upTo (bits c 6 0)).any (fun k => taken.contains (base + k)))
  let x := s.srx i
  let next := (s.mediaBase + s.blk).toNat
  s.setSrx i { x with written := x.written.filter (fun y => next ≤ y) }

/-- The streams' share of a tick: the blocks of every receive stream. -/
def State.strmTake (s : State) : State :=
  let s := s.hush 0x800 0x400
  ((upTo 128).foldl (fun (r : State × List Nat) i =>
    if r.1.rxRuns i then
      let base := r.1.rdF (STRM_RX_MAP i) 25 16
      (r.1.srxTake r.2 i, r.2 ++ (upTo (r.1.rdF (STRM_RX_CTRL i) 6 0)).map (base + ·))
    else r) (s, [])).1

/-- A path has delivered nothing for 8 packet times (R285). -/
def State.pathDown (s : State) (i : Nat) (pathB : Bool) : State :=
  let c := s.rd (STRM_RX_CTRL i)
  let b := if pathB then 2 else 1
  if s.rxRuns i && (!pathB || bit c 30) && s.rdB (STRM_RX_STAT i) b then
    let seen := if pathB then (s.srx i).seenB else (s.srx i).seenA
    ((s.advanceTo (seen + 8 * packetNs (bits c 21 20))).wrB (STRM_RX_STAT i) b false).raise STRM_INT 2#32
  else s

/-- A frame is offered to a port's transmit selection ahead of a class's ring (R257, R266). -/
def State.offerFrame (s : State) (n cls : Nat) (bs : List Byte) : State :=
  if !(s.macUp n) then s.count (MAC_TXLINKDN_CNT n)
  else
    let m := (s.macNow n).mac n
    (s.macNow n).setMac n { m with strmQ := m.strmQ ++ [(cls, bs)] }

/-- A stream packet is offered to a port's transmit selection, unless the standby gate discards it (R286, R329). -/
def State.offer (s : State) (n cls : Nat) (bs : List Byte) : State :=
  if s.gatedOut 2 then s else s.offerFrame n cls bs

/-- The firmware puts a frame into its class 7 ring (R257, R289). -/
def State.fwOffer (s : State) (n : Nat) (f : FwFrame) : State :=
  if !(s.macUp n) then s.count (MAC_TXLINKDN_CNT n)
  else (s.macNow n).setMac n { (s.macNow n).mac n with fwQ := ((s.macNow n).mac n).fwQ ++ [f] }

/-- A transmit stream's template for a port: its offset (R287). -/
def State.stxTemplate (s : State) (t n : Nat) : Nat :=
  let c := s.rd (STRM_TX_CTRL t)
  netBase + s.rdF (STRM_TX_HDR t) 21 4 * 16 + (if n = 1 && bit c 30 then 128 else 0)

/-- The ports a transmit stream sends on. -/
def State.stxPorts (s : State) (t : Nat) : List Nat :=
  (upTo 2).filter (fun n => s.rdB (STRM_TX_CTRL t) (30 - n))

/-- A template that does not match the format (R287). -/
def badTemplate (rtp : Bool) (h : List Byte) : Bool :=
  if rtp then etherType h != 0x0800 || byteAt h (typeOff h + 2) % 16 != 5 else etherType h != 0x22F0

/-- A packet from its template (R287): `seq` and `ts` its sequence number and time, `k` the packets sent. -/
def packetBytes (rtp : Bool) (h pay : List Byte) (seq ts k : Nat) : List Byte :=
  let o := typeOff h + 2
  if rtp then
    let len := h.length - o + pay.length
    let h := putBe (putBe h (o + 2) 2 len) (o + 4) 2 ((beAt h (o + 4) 2 + k) % 65536)
    let h := putIpSum h ⟨o, o + 20, h.length⟩
    let h := putBe (putBe h (o + 24) 2 (len - 20)) (o + 26) 2 0
    putBe (putBe h (o + 30) 2 seq) (o + 32) 4 ts ++ pay
  else
    let h := putBe (putBe h (o + 2) 1 (seq % 256)) (o + 12) 4 ts
    let h := putBe h (o + 1) 1 (byteAt h (o + 1) / 2 * 2 + 1)
    putBe h (o + 20) 2 pay.length ++ pay

/-- The payload of packed samples: the top bytes of each word, first byte first (R280). -/
def payloadOf (w : Nat) (buf : List (List Word)) : List Byte :=
  buf.flatMap (fun smp => smp.flatMap (fun x => (beBytes 4 x.toNat).take w))

/-- A whole packet goes to the ports of its stream (R286, R287), but for one whose header the Bus Matrix does not bring in
time. DEDUCED: assumption 107. -/
def State.stxSend (s : State) (t : Nat) : State :=
  let c := s.rd (STRM_TX_CTRL t)
  let rtp := fmtRtp (bits c 26 24)
  let x := s.stx t
  let pay := payloadOf (fmtBytes (bits c 26 24)) x.buf
  let hlen := s.rdF (STRM_TX_HDR t) 31 24
  let ports := s.stxPorts t
  let big := ports.any (fun n => decide (s.maxlen n < hlen + pay.length + 4))
  let s := s.wrB (STRM_TX_STAT t) 1 big
  let hs := ports.foldl (fun (r : List (Nat × List Byte) × State) n =>
    let d := r.2.masterRead 7 (r.2.stxTemplate t n) hlen
    (r.1 ++ (d.1.map (fun h => (n, h))).toList, d.2)) ([], s)
  let bad := hs.1.any (fun h => badTemplate rtp h.2)
  let s := hs.2.wrB (STRM_TX_STAT t) 2 bad
  if big || bad then s.setStx t { x with buf := [] }
  else
    let seq := s.rdF (STRM_TX_STAT t) 31 16
    let off := (s.rd (STRM_TX_OFF t)).toNat
    let ts := ((if rtp then x.at_ else edgeNs s.fs x.at_) + off) % 2 ^ 32
    let s := s.each hs.1 (fun s h => s.offer h.1 (bits c 18 16) (packetBytes rtp h.2 pay seq ts x.sent))
    (s.wrF (STRM_TX_STAT t) 31 16 (seq + 1)).setStx t { buf := [], at_ := x.at_ + x.buf.length, sent := x.sent + 1 }

/-- A sample of the block that plays next joins a stream's packet (R286). -/
def State.stxSample (s : State) (t np count : Nat) (smp : List Word) : State :=
  let x := s.stx t
  let x := if x.at_ + x.buf.length = count then x else { x with buf := [], at_ := count }
  if x.buf.isEmpty && count % np != 0 then s.setStx t { x with at_ := count + 1 }
  else
    let x := { x with buf := x.buf ++ [smp] }
    let s := s.setStx t x
    if x.buf.length = np then s.stxSend t else s

/-- The transmit streams at the close of the Bus window: the block that plays from the next tick (R286). -/
def State.strmSend (s : State) : State :=
  s.each ((upTo 128).filter s.txRuns) (fun s t =>
    let c := s.rd (STRM_TX_CTRL t)
    let np := packetN s.fs (bits c 21 20)
    let base := s.rdF (STRM_TX_MAP t) 25 16
    let chs := (upTo (bits c 6 0)).map (fun k => sget [] s.router.txOut (0x1400 + base + k))
    s.each (upTo s.blk) (fun s j => s.stxSample t np (s.frame.edge + 3 + j) (chs.map (fun l => sampleAt l j))))

/-- Streams end when a write sets an engine rate other than 48 and 96 kHz (R278). -/
def State.rateDrop (s : State) : State :=
  if s.strmRate then s
  else
    let s := s.each (upTo 128) (fun s i =>
      let s := if s.rdB (STRM_RX_CTRL i) 31 then s.wrB (STRM_RX_CTRL i) 31 false else s
      if s.rdB (STRM_TX_CTRL i) 31 then s.wrB (STRM_TX_CTRL i) 31 false else s)
    s.raise STRM_INT 4#32

/-- Whether a filter entry matches a frame (R263). -/
def State.fltMatch (s : State) (n i : Nat) (bs : List Byte) : Bool :=
  let a := s.rd (MAC_FLT_A n i)
  let b := s.rd (MAC_FLT_B n i)
  bit a 31 &&
  (!(bit a 30) || (tagged bs && outerVid bs == bits a 11 0)) &&
  (!(bit a 29) || (tagged bs && outerPcp bs == bits a 19 17)) &&
  (!(bit a 28) || etherType bs == bits b 31 16) &&
  (!(bit a 27) || udpPort bs == some (bits b 15 0))

/-- maxlen and the stamp at the start of a frame that has been received: as kept at its SFD, or with the frame's line
time before its end (R260, R274). DEDUCED: assumption 49. -/
def State.rxStart (s : State) (n : Nat) (f : RxFrame) : Nat × Int :=
  match (if f.frags = 0 then (s.mac n).rx else (s.mac n).rxP) with
  | some x => x
  | none => (s.maxlen n, s.stcInt - f.bytes.length * s.byteT n / 25 + sbits (s.rd (MAC_TSADJ n)) 15 0)

/-- The start of a frame's reception, or its end (R260, R274). -/
def State.setRx (s : State) (n : Nat) (f : RxFrame) (x : Option (Nat × Int)) : State :=
  let m := s.mac n
  s.setMac n (if f.frags = 0 then { m with rx := x } else { m with rxP := x })

/-- A PTP instance runs on the port and owns receive queue 15 (R289). -/
def State.fwQueue (s : State) (n q : Nat) : Bool := q == 15 && s.house.ptp.any (fun x => x.1 = n)

/-- The M path is on the port and Anise owns receive queue 14 (R328). -/
def State.aniQueue (s : State) (n q : Nat) : Bool :=
  q == 14 && s.rdB ANI_CTRL 0 && s.rdB ANI_CTRL 3 && s.rdF ANI_CTRL 5 4 == n

/-- A frame is counted as stored (R259). -/
def State.rxCounted (s : State) (n : Nat) (f : RxFrame) : State :=
  (s.count (MAC_RXFRM_CNT n)).upd (MAC_RXBYTE_CNT n) (· + BitVec.ofNat 32 f.bytes.length)

/-- A frame with its receive stamp is stored in a receive queue (R264), `hit` the entry that matched; the firmware
takes those of its own queue (R289; DESIGN CHOICE, assumption 57), as Anise does of its own, whose records come as
commands of their own (R328; DESIGN CHOICE, assumption 94). DEDUCED: assumption 49. -/
def State.rxStore (s : State) (n q : Nat) (hit : Option Nat) (f : RxFrame) (ns : Int) : State :=
  let size := s.rdF (MAC_RXQ_SIZE n q) 12 0
  let next := s.rdF (MAC_RXQ_NEXT n q) 11 0
  let d := (s.rd (MAC_RXQ_BASE n q)).toNat + 32 * next
  let len := f.bytes.length - 4
  let addr := (wordOf s.mem d).toNat
  if s.aniQueue n q then s.rxCounted n f
  else if s.fwQueue n q then
    (s.ptpHear n (f.bytes.take len) ns).rxCounted n f
  else if size = 0 || next == s.rdF (MAC_RXQ_AVAIL n q) 11 0 || decide (bits (wordOf s.mem (d + 4)) 15 0 < len) ||
      !(inNet addr len) then
    (s.count (MAC_RXQDROP_CNT n)).raise (MAC_INT n) 8#32
  else
    let w2 := (if hit.isSome then 2 ^ 31 else 0) + hit.getD 0 * 2 ^ 24 + b2n (decide (0 < f.frags)) * 2 ^ 17 +
      b2n (tagged f.bytes) * 2 ^ 16 + len
    let s := s.netPut addr (f.bytes.take len)
    let s := { s with mem := putWords s.mem (d + 4) [BitVec.ofNat 32 (bits (wordOf s.mem (d + 4)) 15 0),
      BitVec.ofNat 32 w2, secWord ns, nsWord ns, 0, 0, 0x80000000#32] }
    let s := s.wr (MAC_RXQ_NEXT n q) (BitVec.ofNat 32 ((next + 1) % size))
    s.rxCounted n f

/-- Checks 6 and 7 of R259: the destination of a frame (R263). -/
def State.rxSteer (s : State) (n : Nat) (f : RxFrame) (ns : Int) : State :=
  match (upTo 64).find? (fun i => s.fltMatch n i f.bytes) with
  | some i =>
    let a := s.rd (MAC_FLT_A n i)
    if bit a 26 then s.strmReceive n (f.bytes.take (f.bytes.length - 4)) else s.rxStore n (bits a 23 20) (some i) f ns
  | none =>
    if s.rdB (MAC_CTRL n) 7 then s.count (MAC_FILTDROP_CNT n)
    else s.rxStore n (s.rdF (MAC_CTRL n) 11 8) none f ns

/-- MAC_FRAME_RECEIVE (R257, R259): the start of a frame, or a frame that reaches the end of reception, on a link that
is UP; or the answer that verifies preemption (R268). -/
def State.macReceive (s : State) (n : Nat) (f : RxFrame) : State :=
  if !(s.macUp n) then s
  else if f.verified then s.verifyIn n
  else if f.sfd then s.setRx n f (some (s.maxlen n, s.stcInt + sbits (s.rd (MAC_TSADJ n)) 15 0))
  else
    let start := s.rxStart n f
    let s := (s.setRx n f none).countF (MAC_FRAG_RX_CNT n) 31 0 f.frags
    let len := f.bytes.length
    if f.codeErr then s.count (MAC_PHYERR_CNT n)
    else if f.reasmErr then s.count (MAC_REASM_CNT n)
    else if len < 64 then s.count (MAC_RUNT_CNT n)
    else if start.1 < len then s.count (MAC_OVERSIZE_CNT n)
    else if leBytes 4 (crc32 (f.bytes.take (len - 4))).toNat != f.bytes.drop (len - 4) then s.count (MAC_FCS_CNT n)
    else if beAt f.bytes 12 2 = 0x8808 then
      if beAt f.bytes 14 2 = 1 then s.pauseIn n (beAt f.bytes 16 2) else s.count (MAC_FILTDROP_CNT n)
    else s.rxSteer n f start.2

def execMacFrameReceive (n : Fin 2) (f : RxFrame) (s : State) : Out := done (s.macReceive n f)
def execStreamPathDown (i : Fin 128) (pathB : Bool) (s : State) : Out := done (s.pathDown i pathB)

end Sys2Proof.Machine
end

