-- ==== Sys2Proof/Machine/Dongo.lean ====
section
/-! DEFINITION. Dongo links (R313 to R325): link states, frames and retry, alignment, audio and cascade
channels, timing, and event forwarding. -/

namespace Sys2Proof.Machine

/-- DNG_Ln_STAT.state: 0 OFF, 1 TRAIN, 2 UP. -/
def State.dngState (s : State) (n : Nat) : Nat := s.rdF (DNG_L_STAT n) 1 0

/-- A change of state (R316). -/
def State.setDngState (s : State) (n v : Nat) : State :=
  if s.dngState n = v then s
  else ((s.wrF (DNG_L_STAT n) 1 0 v).wrB DNG_STAT n (v == 2)).raise (DNG_L_INT n) 1#32

/-- Update a link's hidden state. -/
def State.updLink (s : State) (n : Nat) (f : Dng → Dng) : State := s.setLink n (f (s.link n))

/-- Kinds that only an aligned link carries (R317). -/
def dngTied (k : DngKind) : Bool := k == .audio || k == .casc

/-- A change of alignment (R317): AUDIO and CASC frames that wait do not go out on a link that is not aligned; those
sent before are still sent again where the peer asks for them. DEDUCED: assumption 55. -/
def State.setAligned (s : State) (n : Nat) (b : Bool) : State :=
  if s.rdB (DNG_L_STAT n) 4 = b then s
  else
    let s := ((s.wrB (DNG_L_STAT n) 4 b).wrB DNG_STAT (4 + n) b).raise (DNG_L_INT n) 2#32
    (s.lineRun n).updLink n (fun l => { l with al := 0, rx := [], queue := l.queue.filter (fun f => b || !(dngTied f.kind)) })

/-- The link sends a HELLO: payload byte 0 tells a request (0) from an echo (1). -/
def State.dngHello (s : State) (n : Nat) (echo : Bool) : State :=
  (if echo then s else s.updLink n (fun l => { l with helloAt := s.now })).dngSend n { kind := .hello, seq := 0, payload := [if echo then 1 else 0] }

/-- The code of a kind, and the kind of a code (R314). -/
def kindCode : DngKind → Nat
  | .audio => 1
  | .casc => 2
  | .time => 3
  | .event => 4
  | .mirror => 5
  | .ack => 6
  | .nak => 7
  | .hello => 8
  | .other => 0
def codeKind (c : Nat) : DngKind := match c with
  | 1 => .audio
  | 2 => .casc
  | 3 => .time
  | 4 => .event
  | 5 => .mirror
  | 6 => .ack
  | 7 => .nak
  | 8 => .hello
  | _ => .other

/-- The header of a frame as a number (R314). DESIGN CHOICE: assumption 53. -/
def dngHeader (f : DngOut) : Nat :=
  kindCode f.kind * 2 ^ 60 + f.seq % 4096 * 2 ^ 48 + f.block.toNat * 2 ^ 16 + f.chan % 256 * 2 ^ 8 + f.cnt % 256

/-- The bytes of a frame on the line: header, payload, CRC-32 (R314). DESIGN CHOICE: assumption 53. -/
def dngWire (f : DngOut) : List Byte :=
  let bs := leBytes 8 (dngHeader f) ++ f.payload
  bs ++ leBytes 4 (crc32 bs).toNat

/-- The frame that bytes from the line make, if its CRC-32 holds and its kind is one of R314. -/
def dngParse (bs : List Byte) : Option DngFrame :=
  let n := bs.length - 4
  let h := ofLeBytes (bs.take 8)
  let k := codeKind (h / 2 ^ 60)
  if bs.length < 12 || ofLeBytes (bs.drop n) != (crc32 (bs.take n)).toNat || k == .other then none
  else some { kind := k, seq := BitVec.ofNat 12 (h / 2 ^ 48), block := BitVec.ofNat 32 (h / 2 ^ 16),
              chan := BitVec.ofNat 8 (h / 2 ^ 8), cnt := BitVec.ofNat 8 h, payload := (bs.take n).drop 8 }

/-- Frame sequence numbers in ACK and NAK payloads (R315). -/
def seqBytes (q : Nat) : List Byte := leBytes 2 q

/-- Cascade terms received on a link and not yet applied go when it leaves UP (R325). -/
def State.cascDrop (s : State) (n : Nat) : State :=
  let open_ := fun (src : Nat) => (upTo 256).any (fun b => (s.cascSrcs b).contains src && !(s.mtx.psum.any (fun x => x.1 = b)))
  { s with mtx := { s.mtx with casc := s.mtx.casc.filter (fun x =>
      !(decide (0x2400 + 256 * n ≤ x.1 ∧ x.1 < 0x2500 + 256 * n) && open_ x.1)) } }

/-- The link leaves UP (R316, R323): events sent and not acknowledged are lost. -/
def State.dngDown (s : State) (n to_ : Nat) : State :=
  let s := s.lineRun n
  let l := s.link n
  let lost := (((l.replay ++ l.queue).filter (fun f => f.kind == .event)).map DngOut.cnt).foldl (· + ·) 0
  let s := s.cascDrop n
  let s := (s.setAligned n false).setDngState n to_
  let s := if lost = 0 then s else (s.countF (DNG_L_EVLOST_CNT n) 31 0 lost).raise (DNG_L_INT n) 0x10#32
  let s := s.updLink n (fun l => { l with txSeq := 0, rxSeq := 0, queue := [], replay := [], again := [],
                                          hello := false, ackDue := false, peer := none })
  s.losSource 5 n

/-- The link leaves UP for TRAIN and trains again (R316). -/
def State.dngRetrain (s : State) (n : Nat) : State :=
  if s.dngState n = 2 then ((s.dngDown n 1).count (DNG_L_DOWN_CNT n)).dngHello n false else s

/-- DNG_Ln_CTRL.en (R316). -/
def State.dngEnable (s : State) (n : Nat) (on : Bool) : State :=
  if on then (if s.dngState n = 0 then (s.setDngState n 1).dngHello n false else s)
  else if s.dngState n = 2 then s.dngDown n 0 else s.setDngState n 0

/-- Distance between sequence numbers, modulo 4,096. -/
def seqDist (a b : Nat) : Nat := (a + 4096 - b) % 4096

/-- A cumulative acknowledgement of every frame before `q` (R315): they leave the replay buffer. -/
def State.dngAcked (s : State) (n q : Nat) : State :=
  (s.lineRun n).updLink n (fun l => match l.replay with
    | [] => l
    | f :: _ =>
      let k := seqDist q f.seq
      if k ≤ l.replay.length then
        { l with replay := l.replay.drop k, again := l.again.filter (fun g => (l.replay.drop k).any (fun x => x.seq = g.seq)),
                 lineFree := max l.lineFree (63 * s.now) }
      else l)

/-- A NAK (R315): every frame from `q` on is sent again, those that still wait for it once; one resent too often
takes the link down. Each is counted when it goes out. -/
def State.dngNaked (s : State) (n q : Nat) : State :=
  let s := s.dngAcked n q
  let l := s.link n
  let due := fun (f : DngOut) => l.again.any (fun g => g.seq = f.seq)
  let again := l.replay.map (fun f => if due f then f else { f with resent := f.resent + 1, at_ := s.now })
  if again.any (fun f => decide (s.rdF (DNG_L_CTRL n) 7 4 < f.resent)) then s.dngRetrain n
  else s.setLink n { l with replay := again, again := again }

/-- The receiver answers with a NAK naming the first frame it is missing (R315). -/
def State.dngNak (s : State) (n : Nat) : State :=
  s.dngSend n { kind := .nak, seq := 0, payload := seqBytes (s.link n).rxSeq }

/-- An AUDIO frame (R317 to R319): channels in order, each B words, least significant byte first. -/
def State.dngAudio (s : State) (n : Nat) (f : DngFrame) : State :=
  if !(s.linkAligned n) then s
  else
    let B := s.blk
    let ws := bytesWords f.payload
    s.each (upTo f.cnt.toNat) (fun s i =>
      let c := (f.chan.toNat + i) % 256
      if s.cascChan n c then s
      else s.updLink n (fun l => { l with
        rx := l.rx.filter (fun x => !(x.1 = c && x.2.1 = f.block.toNat)) ++ [(c, f.block.toNat, (ws.drop (i * B)).take B)] }))

/-- Cascade values from bytes (R141). -/
def cascInts : Nat → List Byte → List Int
  | 0, _ => []
  | k + 1, bs => (BitVec.ofNat 64 (ofLeBytes (bs.take 8))).toInt :: cascInts k (bs.drop 8)

/-- A CASC frame (R141, R143, R319, R320, R325): the term is held for its bus, or discarded after the deadline, at which
it was counted. -/
def State.dngCasc (s : State) (n : Nat) (f : DngFrame) : State :=
  let src := 0x2400 + 256 * n + f.chan.toNat
  if !(s.linkAligned n && s.cascChan n f.chan.toNat) then s
  else if f.block ≠ s.rd SYS_FRM_BLOCK || s.mtx.dead || s.frame.win == .bus || s.frame.win == .tail then s
  else
    let s := { s with mtx := { s.mtx with casc := s.mtx.casc ++ [(src, cascInts s.blk f.payload)] } }
    s.each ((upTo s.mtx.next).filter (fun b => (s.cascSrcs b).contains src)) (fun s b =>
      if s.busWaits b then s else s.busFinish b)

/-- A TIME frame (R317, R321, R324): STC seconds and ns, the quality byte, the rate, B and whether it was sent
at a tick, and the block number. -/
def State.dngTime (s : State) (n : Nat) (f : DngFrame) : State :=
  let p := f.payload
  let peer : Int := (ofLeBytes (p.take 6) : Int) * 1000000000 + ofLeBytes ((p.drop 6).take 4)
  let q := byteAt p 10
  let fmt := byteAt p 11
  let blk := BitVec.ofNat 32 (ofLeBytes ((p.drop 12).take 4))
  let d : Int := s.rdF (DNG_L_DELAY n) 15 0 + sbits (s.rd (DNG_L_DLYADJ n)) 15 0
  let clash := q / 16 % 8 = s.rdF DNG_CTRL 2 0
  let s := s.wrF (DNG_L_STAT n) 31 24 q
  let s := (s.wrF (DNG_L_STAT n) 18 16 (q / 16)).wrB (DNG_L_STAT n) 7 clash
  let s := s.updLink n (fun l => { l with phase := peer + d - s.stcInt, qual := q % 16, time := some (peer, s.now) })
  if fmt / 16 % 2 = 1 then
    let s := s.updLink n (fun l => { l with peer := some (fmt % 4, fmt / 4 % 4, blk) })
    match (s.link n).own with
    | none => s.setAligned n false
    | some o =>
      let fd := o.1 ≠ fmt % 4 || o.2.1 ≠ fmt / 4 % 4
      let nd := o.2.2 ≠ blk
      ((s.wrB (DNG_L_STAT n) 5 fd).wrB (DNG_L_STAT n) 6 nd).setAligned n (!fd && !nd && !clash)
  else if clash then s.setAligned n false else s

/-- A received event record is posted to the flow it names (R323). -/
def State.dngEvent (s : State) (n : Nat) (ws : List Word) : State :=
  let w := ws.getD 0 0
  let flow := bits (ws.getD 7 0) 11 0
  let cls := bits w 15 14
  if s.postBusy cls flow || decide (2048 ≤ flow ∧ flow < 2304) || decide (2367 < flow) then
    s.count (DNG_L_EVDROP_CNT n)
  else
    s.acceptAs { no := 0, type := bits w 23 16, cls := cls, origin := bits w 13 12, flow := flow,
                 sec := ws.getD 1 0, ns := ws.getD 2 0, payload := ws.drop 3 }

/-- The kinds of frame that carry a sequence number, acted on when they arrive in order. -/
def State.dngAct (s : State) (n : Nat) (f : DngFrame) : State :=
  match f.kind with
  | .audio => s.dngAudio n f
  | .casc => s.dngCasc n f
  | .time => s.dngTime n f
  | .event => s.each (upTo f.cnt.toNat) (fun s i => s.dngEvent n ((bytesWords f.payload).drop (8 * i) |>.take 8))
  | _ => s

/-- DNG_Ln_DELAY: half the round trip of a HELLO echo (R321). -/
def State.setDelay (s : State) (n roundTrip : Nat) : State :=
  s.wr (DNG_L_DELAY n) (BitVec.ofNat 32 (min (roundTrip / 2) 65535))

/-- A HELLO (R316, R321): an echo is sent where one is asked for; the echo of the link's own ends its training, and
its round trip is the link delay, then and again when it answers the HELLO of each second. -/
def State.dngHelloIn (s : State) (n : Nat) (f : DngFrame) : State :=
  if f.payload.headD 0 = 0 then s.dngHello n true
  else if s.dngState n = 1 then
    ((s.setDngState n 2).setDelay n (s.now - (s.link n).helloAt)).updLink n (fun l => { l with hello := true })
  else s.setDelay n (s.now - (s.link n).helloAt)

/-- DONGO_FRAME_RECEIVE (R314, R315). -/
def State.dngReceive (s : State) (n : Nat) (bs : List Byte) : State :=
  if s.dngState n = 0 then s
  else match dngParse bs with
    | none =>
      let s := s.count (DNG_L_CRC_CNT n)
      if s.dngState n = 2 then s.dngNak n else s
    | some f =>
      if f.kind == .hello then s.dngHelloIn n f
      else if s.dngState n ≠ 2 then s
      else
        let q := ofLeBytes (f.payload.take 2) % 4096
        match f.kind with
        | .ack => s.dngAcked n q
        | .nak => s.dngNaked n q
        | _ =>
          let l := s.link n
          if f.seq.toNat = l.rxSeq then
            (s.setLink n { l with rxSeq := (l.rxSeq + 1) % 4096, ackDue := true }).dngAct n f
          else s.dngNak n

/-- DONGO_TRAIN_TIMEOUT (R316): training restarts. -/
def State.dngTrain (s : State) (n : Nat) : State := if s.dngState n = 1 then s.dngHello n false else s

/-- DONGO_ACK_TIMER (R315): a cumulative ACK of every frame before the next expected. -/
def State.dngAck (s : State) (n : Nat) : State :=
  if s.dngState n = 2 then
    (s.updLink n (fun l => { l with ackDue := false })).dngSend n
      { kind := .ack, seq := 0, payload := seqBytes (s.link n).rxSeq }
  else s

/-- The quality byte a link sends: Q is 15 where the selected reference is this link (R321). -/
def State.dngQual (s : State) (n : Nat) : Nat :=
  let own := match s.safSel with
    | some i => s.refSrc i = 5 && s.refIx i = n
    | none => false
  s.rdF DNG_CTRL 2 0 * 16 + (if own then 15 else s.rdF SAF_STAT 15 12)

/-- DONGO_TIME_SEND (R321); a frame of the cycle of a tick carries the tick's numbers (R317), and its first ten bytes
are stamped when it starts.
DESIGN CHOICE: assumption 53. -/
def State.dngTimeSend (s : State) (n : Nat) : State :=
  if s.dngState n = 2 then
    let tick := s.running && s.frame.ticking && s.now = s.frame.tickAt
    let fmt := s.rdF SYS_FRM_CTRL 1 0 + 4 * s.rdF SYS_FRM_CTRL 5 4 + 16 * b2n tick
    let body := leBytes 10 0 ++ leBytes 1 (s.dngQual n) ++ leBytes 1 fmt ++ leBytes 4 (if tick then s.blockNo else 0)
    s.dngSend n { kind := .time, seq := 0, payload := body }
  else s

/-- DONGO_DELAY_MEASURE (R321): half the round trip of a HELLO echo; a link in UP sends the HELLO, whose echo, where it
comes as a frame, gives the delay as well. DESIGN CHOICE: assumption 110. -/
def State.dngDelay (s : State) (n roundTrip : Nat) : State :=
  match s.dngState n with
  | 0 => s
  | 1 => s.setDelay n roundTrip
  | _ => (s.setDelay n roundTrip).dngHello n false

/-- DONGO_EVENT_FORWARD (R323): pop the ready head of the link's flow and send it. -/
def State.dngForward (s : State) (n : Nat) : State :=
  let f := 2360 + n
  if s.forwarded f then
    let s := s.cloveHost
    let s := popStale (s.depth f) s f
    match s.hostHead f with
    | some v =>
      let s := ((s.unqueue v).consumed v).cloveHost
      s.dngSend n { kind := .event, seq := 0, cnt := 1, payload := wordBytes (evWords v 0) }
    | none => s
  else s

/-- The numbers compared for alignment, at a tick (R317). -/
def State.dngTick (s : State) : State :=
  s.each (upTo 4) (fun s n => (s.lineRun n).updLink n (fun l => { l with
    own := some (s.rdF SYS_FRM_CTRL 1 0, s.rdF SYS_FRM_CTRL 5 4, s.rd SYS_FRM_BLOCK) }))

/-- The bitmaps of cascade channels come into force at a boundary (R36, R319). -/
def State.dngBitmaps (s : State) : State :=
  s.each (upTo 4) (fun s n => s.updLink n (fun l => { l with
    casc := (upTo 8).foldl (fun m i => sset 0 m i (s.rd (DNG_L_CASC n i))) l.casc }))

/-- The frame has stopped: the links are not aligned (R317). -/
def State.dngStop (s : State) : State :=
  s.each (upTo 4) (fun s n => (s.updLink n (fun l => { l with own := none })).setAligned n false)

/-- A receive channel's share of a tick, `b` the peer's block: its words, or where they have not all arrived a fade
out, counted late. -/
def State.dngChannel (s : State) (b n c : Nat) : State :=
  if s.cascChan n c then s
  else
    let l := s.link n
    let got := (l.rx.find? (fun x => x.1 = c && x.2.1 = b && decide (s.blk ≤ x.2.2.length))).map (fun x => x.2.2)
    let f := fadeBlock (sget {} l.fade c) ((upTo s.blk).map (fun j => got.map (fun ws => sampleAt ws j)))
    if got.isNone && decide (l.al < 2) then s
    else
      let s := (s.setLink n { l with fade := sset {} l.fade c f.1 }).produce (0x2400 + 256 * n + c) f.2.1
      if got.isNone then (s.count (DNG_L_LATE_CNT n)).raise (DNG_L_INT n) 4#32 else s

/-- DONGO_AUDIO_LATE and delivery (R317, R318): at the tick that ends block `b + 1`, the peer's block `b` is the
source data of every channel of an aligned link; a block from before its alignment is not awaited. A link that
is not aligned delivers nothing. DEDUCED: assumption 55. -/
def State.dngDeliver (s : State) (b : Nat) : State :=
  let s := s.hush 0x2400 0x400
  s.each (upTo 4) (fun s n =>
    if s.linkAligned n then
      let s := s.updLink n (fun l => { l with al := min (l.al + 1) 2 })
      let s := s.each (upTo 256) (fun s c => s.dngChannel b n c)
      s.updLink n (fun l => { l with rx := l.rx.filter (fun x => x.2.1 != b) })
    else s.updLink n (fun l => { l with rx := [], fade := [] }))

/-- AUDIO frames of the transmit sinks consumed at the Bus close, one for each audio channel (R318, R319).
DEDUCED: assumption 55. -/
def State.dngAudioOut (s : State) : State :=
  s.each ((upTo 4).filter s.linkAligned) (fun s n =>
    s.each ((upTo 256).filter (fun c => !(s.cascChan n c))) (fun s c =>
      s.dngSend n { kind := .audio, seq := 0, block := s.rd SYS_FRM_BLOCK, chan := c, cnt := 1,
                    payload := wordBytes ((upTo s.blk).map (sampleAt (sget [] s.router.txOut (0x1800 + 256 * n + c)))) }))

/-- Cascade transmit channels whose source is no bus: x × 2¹⁶ of the sink's words, consumed at the Bus close before this
tick (R168, R319). -/
def State.dngCascOut (s : State) : State :=
  s.each (s.sinksIn 0x1800 1024) (fun s i =>
    let n := (i - 0x1800) / 256
    let c := i % 256
    let bus := match entrySrc (s.sinkInForce i) with
      | some src => decide (0x2000 ≤ src ∧ src < 0x2100)
      | none => false
    if s.linkAligned n && s.cascChan n c && !bus then
      let ws := sget [] s.router.play i
      let body := (upTo s.blk).flatMap (fun j => leBytes 8 (BitVec.ofInt 64 ((sampleAt ws j).toInt * 65536)).toNat)
      s.dngSend n { kind := .casc, seq := 0, block := s.rd SYS_FRM_BLOCK, chan := c, cnt := 1, payload := body }
    else s)

def execDongoFrameReceive (n : Fin 4) (bytes : List Byte) (s : State) : Out := done (s.dngReceive n bytes)
def execDongoRxTimeout (n : Fin 4) (s : State) : Out := done (s.dngRetrain n)
def execDongoTrainTimeout (n : Fin 4) (s : State) : Out := done (s.dngTrain n)
def execDongoAckTimer (n : Fin 4) (s : State) : Out := done (s.dngAck n)
def execDongoTimeSend (n : Fin 4) (s : State) : Out := done (s.dngTimeSend n)
def execDongoDelayMeasure (n : Fin 4) (roundTrip : BitVec 17) (s : State) : Out := done (s.dngDelay n roundTrip.toNat)
def execDongoEventForward (n : Fin 4) (s : State) : Out := done (s.dngForward n)
def execDongoLaneLockLoss (n : Fin 4) (s : State) : Out := done (s.dngRetrain n)

end Sys2Proof.Machine
end

