-- ==== Sys2Proof/Machine/Power.lean ====
section
/-! DEFINITION. Power states, wake events and temperature (R369 to R377), and the effect of a write to the frame
registers (R26 to R31, R39 to R42, R295, R402). The exit from S4 and the restart after a thermal trip are
with the resets. -/

namespace Sys2Proof.Machine

/-- PWR_STAT.state: 0 Run, 1 to 4 S1 to S4, 7 entering. -/
def State.pwrState (s : State) : Nat := s.rdF PWR_STAT 2 0

/-- A signed temperature register. -/
def State.temp (s : State) (r : Reg) : Int := sbits (s.rd r) 15 0
def tempWord (t : Int) : Word := BitVec.ofNat 32 (BitVec.ofInt 16 t).toNat

/-- T_max at or above the alarm (R376). -/
def State.hot (s : State) : Bool := decide (s.temp PWR_TALARM ≤ s.temp PWR_TMAX)

/-- FAULT_N is driven low (R376), but for S3 and S4 (R392). DESIGN CHOICE: assumption 71. -/
def State.faultLow (s : State) : Bool :=
  s.pwr.trip || (s.rdB PWR_CTRL 8 && s.hot && !s.deep && !s.held)

/-- The state that a stay, or an entry, is in. -/
def State.stay (s : State) : Option Nat :=
  match s.pwr.entering with
  | some t => some t
  | none => if decide (1 ≤ s.pwrState ∧ s.pwrState ≤ 4) then some s.pwrState else none

/-- A wake event of an enabled source that the state admits (R372, R374): the first counts, and of two in one
cycle the lowest. -/
def State.wakeEvent (s : State) (src : Nat) : State :=
  match s.stay with
  | none => s
  | some t =>
    let enabled := s.rdB PWR_WAKE_EN (min src 17) && !(src = 17 && t = 4)
    if !enabled then s
    else
      match s.pwr.woke with
      | none => { s with pwr := { s.pwr with woke := some src, wokeAt := s.now } }
      | some w => if s.pwr.wokeAt = s.now && decide (src < w) then { s with pwr := { s.pwr with woke := some src } } else s

/-- The host's write to SYS_FRM_CTRL or PWR_REQ.wake ends an S1 stay (R372). -/
def State.hostWake (s : State) (q : Req) : State := if s.stay = some 1 && q.master = 6 then s.wakeEvent 17 else s

/-- A DMA channel runs on any unit. -/
def State.anyDma (s : State) : Bool := (upTo 5).any (fun u => (upTo (dmaChans u)).any (fun c => s.dmaRunning u c))

/-- The refusal code of a power request, 0 for none (R370). -/
def State.pwrRefuse (s : State) : Nat :=
  let t := s.rdF PWR_CTRL 2 0
  let wake := s.rd PWR_WAKE_EN &&& (if t = 4 then 0x1FFFF#32 else 0x3FFFF#32)
  if s.running || s.rdB SYS_FRM_STAT 2 || s.rdB STC_STAT 1 then 1
  else if 2 ≤ t && (s.anyDma || s.rdB (HSE_MB_STAT 0) 30 || s.rdB (HSE_MB_STAT 1) 30) then 2
  else if s.rdB ANI_CTRL 0 then 3
  else if wake = 0 then 4
  else 0

/-- POWER_STATE_REQUEST (R370): PWR_REQ written, in Run, in S1 or during an entry, which a request that is accepted
replaces. DESIGN CHOICE: assumption 115. -/
def State.pwrReq (s : State) (q : Req) (data : Word) : State :=
  let s := if bit data 1 then s.hostWake q else s
  if bit data 0 && !s.asleep then
    match s.pwrRefuse with
    | 0 => { s.wrF PWR_STAT 2 0 7 with
        pwr := { s.pwr with entering := some (s.rdF PWR_CTRL 2 0), at_ := s.now } }
    | c => (s.wrF PWR_STAT 31 28 c).raise PWR_INT 4#32
  else s

/-- No access to the device is outstanding (R370). -/
def State.noAccess (s : State) : Bool := s.bmx.txns.isEmpty && s.portWait.isEmpty

/-- POWER_STATE_ENTER (R370, R371): once the accesses are complete, links go OFF; in S2 to S4 the cores halt; in S3 and S4
HB_TX is low (R392); in S4 the PCIe link goes down. -/
def State.pwrEnter (s : State) : State :=
  match if s.noAccess then s.pwr.entering else none with
  | none => s
  | some t =>
    let boots := if 2 ≤ t then (upTo 2).filter (fun c => s.coreState c = 1) else []
    let s := { s.wrF PWR_STAT 2 0 t with pwr := { s.pwr with entering := none, at_ := s.now, booting := boots } }
    let s := s.each (upTo 2) (fun s n => s.macEnable n false)
    let s := s.each (upTo 4) (fun s n => s.dngEnable n false)
    let s := if 2 ≤ t then
        s.each (upTo 2) (fun s c => if 1 ≤ s.coreState c then s.wrF HSE_CORE_STAT (4 * c + 1) (4 * c) 3 else s) else s
    let s := if 3 ≤ t then { s with ani := { s.ani with hbTx := false } } else s
    (if t = 4 then s.wr HIF_STAT 0 else s).cloveHost

/-- Return to Run from S1 to S3 (R371): links that are enabled acquire and train again, the cores go on, and
after S2 or S3 a new Saffron window starts. -/
def State.pwrResume (s : State) (t w : Nat) : State :=
  let s := ((s.wrF PWR_STAT 2 0 0).wrF PWR_STAT 20 16 w).raise PWR_INT 1#32
  let d := s.now - s.pwr.at_
  let boots := s.pwr.booting
  let s := { s with pwr := { s.pwr with woke := none, booting := [] } }
  let s := s.each (upTo 2) (fun s n => if s.rdB (MAC_CTRL n) 0 then s.macEnable n true else s)
  let s := s.each (upTo 4) (fun s n => if s.rdB (DNG_L_CTRL n) 0 then s.dngEnable n true else s)
  if 2 ≤ t then
    let s := s.each (upTo 2) (fun s c =>
      if s.coreState c = 3 then s.wrF HSE_CORE_STAT (4 * c + 1) (4 * c) (if boots.contains c then 1 else 2) else s)
    let due : List (Nat × Nat) := s.house.due.map (fun (x : Nat × Nat) => (x.1, x.2 + d))
    let refs : List (Nat × SafRef) := s.saf.refs.map (fun (x : Nat × SafRef) => (x.1, { x.2 with disc := 0 }))
    let past := s.now - s.saf.winAt
    ({ s with house := { s.house with due := due },
              saf := { s.saf with winAt := s.now, tSum := 0, tNum := 0, refs := refs,
                                  hAge := s.saf.hAge + past, pAge := s.saf.pAge + past } } : State).cloveHost.portGo
  else s

/-- HOT_ALARM (R376): once per block, or once per nominal block period while stopped. -/
def State.hotBlock (s : State) : State := if s.hot then (s.raise PWR_INT 2#32).count PWR_HOT_CNT else s

/-- HOT_COUNT_PERIOD (R376): while the frame is stopped, in Run or S1. -/
def State.hotPeriod (s : State) : State := if !s.running && decide (s.pwrState ≤ 1) then s.hotBlock else s

/-- The sensors' registers and T_max (R375, R403). -/
def State.tempRegs (s : State) (ts : List Int) : State :=
  let top := ts.foldl max (ts.headD 0)
  let s := s.each ts.zipIdx (fun s t => s.wr (PWR_TSENS t.2) (tempWord t.1))
  let s := s.wr PWR_TMAX (tempWord top)
  let s := if !s.pwr.peakSeen || decide (s.temp PWR_TPEAK < top) then s.wr PWR_TPEAK (tempWord top) else s
  let s := { s with pwr := { s.pwr with peakSeen := true },
                    saf := { s.saf with tSum := s.saf.tSum + ts.foldl (· + ·) 0, tNum := s.saf.tNum + ts.length } }
  if s.hot then s.raise PWR_INT 2#32 else s

/-- The Background budget of a block (R377). -/
def State.budgetB (s : State) : Nat :=
  let t := s.temp PWR_TMAX
  let lo := sbits (s.rd PWR_TB_TEMP) 15 0
  let hi := sbits (s.rd PWR_TB_TEMP) 31 16
  let base := s.rdF PWR_TB_BASE 15 0
  if s.rdF PWR_TB_PCAP 15 0 < s.rdF PWR_PEST 15 0 then 0
  else if t ≤ lo then base
  else if hi ≤ t then 0
  else (((base : Int) * (hi - t)) / (hi - lo)).toNat

/-- Step 10 of R37 (R217, R377): the budget, and Clove's allowance. -/
def State.budgetStep (s : State) (pest : Nat) : State :=
  let s := s.wr PWR_PEST (BitVec.ofNat 32 pest)
  let b := s.budgetB
  let s := (s.wr PWR_TB_B (BitVec.ofNat 32 b)).hotBlock
  let s := { s with clove := { s.clove with bgWait := false } }
  (s.wrF CLV_BGALLOW 23 0 (min (s.allowance + b) (s.rdF CLV_BGCAP 23 0))).cloveHost

/-- P_nom and W_guard (R28). -/
def pNomOf (fs B : Nat) : Nat := (2 * B * 1000000000 + fs) / (2 * fs)
def guardOf (p : Nat) : Nat := ceilDiv (p * 500) 1000000 + 2

/-- A window's cycles (R29). -/
def windowOf (p pct : Nat) : Nat := p * pct / 100

/-- The window registers for the rate and B in SYS_FRM_CTRL and the split in force (R28, R29, R39). -/
def State.setWindows (s : State) : State :=
  let p := pNomOf s.fs s.blk
  let w := fun pct => BitVec.ofNat 32 (windowOf p pct)
  let s := (s.wr SYS_FRM_PERIOD (BitVec.ofNat 32 p)).wr SYS_FRM_GUARD (BitVec.ofNat 32 (guardOf p))
  ((s.wr SYS_FRM_WSTRIP (w (bits s.frame.split 7 0))).wr SYS_FRM_WSUM (w (bits s.frame.split 15 8))).wr
    SYS_FRM_WBUS (w (bits s.frame.split 23 16))

/-- The last condition of R30. -/
def sumFits (fs B : Nat) (split : Word) : Bool := decide (2048 * B ≤ windowOf (pNomOf fs B) (bits split 15 8))

/-- SPLIT_WRITE (R30, R42). DEDUCED: assumption 13. -/
def State.splitWrite (s : State) (q : Req) (data : Word) : State :=
  let a := bits data 7 0
  let b := bits data 15 8
  let c := bits data 23 16
  let ok := decide (1 ≤ a ∧ a ≤ 98 ∧ 1 ≤ b ∧ b ≤ 98 ∧ 1 ≤ c ∧ c ≤ 98 ∧ a + b + c = 100)
  if ok && sumFits s.fs s.blk data then (s.wr SYS_FRM_SPLIT (data &&& 0xFFFFFF#32)).wrB SYS_FRM_STAT 1 true
  else s.reject q (BitVec.ofNat 32 SYS_FRM_SPLIT.addr) data

/-- The start of R40, as if its write completed at STC time `t`: tick 0 falls at the first sample edge at or
after t + 2 ÷ fs, and no source keeps what was produced before. DEDUCED: assumption 10. -/
def State.frameStart (s : State) (t : Nat) : State :=
  let s := s.wrB SYS_FRM_STAT 0 true
  { s with frame := { s.frame with win := .none, edge := ceilDiv (t * s.fs) stcSecond + 2, first := true,
                                   ticking := false, age := 0, final := false, restart := false },
           router := { s.router with src := [], tapIn := [], txOut := [], play := [] } }

/-- A timed start is disarmed (R295). -/
def State.disarm (s : State) : State := (s.wrB STC_STAT 1 false).wrB STC_START_CTRL 0 false

/-- A change of SYS_FRM_CTRL.run (R40, R41, R402), `t` the STC time of the write. -/
def State.runWrite (s : State) (run : Bool) (t : Nat) : State :=
  let s := s.wrB SYS_FRM_CTRL 8 run
  if run then
    if s.rdB SYS_FRM_STAT 2 then s.wrB SYS_FRM_STAT 2 false
    else if s.frame.final then { s with frame := { s.frame with restart := true } }
    else if s.running then s
    else s.frameStart t
  else if s.running && !s.frame.final then s.wrB SYS_FRM_STAT 2 true
  else s

/-- A gain-memory unit is fenced: the frame cannot run (R185). -/
def State.gainFenced (s : State) : Bool := (upTo 48).any (fun u => s.fenced (672 + u))

/-- A change of rate or blen while stopped (R39): the windows, the slice tables (R109), and the ports and
streams that the new rate rules out (R224, R247, R278). -/
def State.formatChange (s : State) (rate blen : Nat) : State :=
  let s := (s.sapRateDrop rate).aesRateDrop (rateHz rate)
  let was := s.rdF SYS_FRM_CTRL 5 4
  let s := ((s.wrF SYS_FRM_CTRL 1 0 rate).wrF SYS_FRM_CTRL 5 4 blen).setWindows
  if was = blen then s else s.each (upTo 32) (fun s e => s.revalidate e)

/-- SYS_FRM_CTRL written (R39 to R41, R278, R295, R372, R402): a write whose rate is 44.1 or 88.2 kHz sets that rate, also
where it stood before. DEDUCED: assumption 119. -/
def State.frmCtrlWrite (s : State) (q : Req) (data : Word) : State :=
  let s := s.hostWake q
  let rate := bits data 1 0
  let blen := bits data 5 4
  let run := bit data 8
  let change := rate ≠ s.rdF SYS_FRM_CTRL 1 0 || blen ≠ s.rdF SYS_FRM_CTRL 5 4
  let split := if s.rdB SYS_FRM_STAT 1 then s.rd SYS_FRM_SPLIT else s.frame.split
  if blen = 3 || (change && s.running) || (change && !(sumFits (rateHz rate) (blockLen blen) split)) ||
      (run && s.gainFenced) then
    s.reject q (BitVec.ofNat 32 SYS_FRM_CTRL.addr) data
  else
    let s := (if change then s.formatChange rate blen else s).rateDrop
    let s := if run then s.disarm else s
    s.runWrite run s.stc

/-- The word a frame command writes to SYS_FRM_CTRL. -/
def frmWord (rate blen : BitVec 2) (run : Bool) : Word :=
  BitVec.ofNat 32 (rate.toNat + 16 * blen.toNat + 256 * b2n run)

/-- TIMED_START (R295, R310): the STC is at or after T_s. A start that comes when T_s has passed, at the arm or
by a step of the STC, is late and placed from its cycle. -/
def State.timedStart (s : State) (late : Bool) : State :=
  if s.rdB STC_STAT 1 then
    let t := s.stcRegs STC_START_SECH STC_START_SECL STC_START_NS
    let late := late || decide (t + s.stcRate ≤ s.stc)
    let s := s.advance (s.cyclesTo t)
    let s := ((s.disarm).wrB STC_STAT 2 late).raise STC_INT 1#32
    if s.gainFenced then s else s.runWrite true (if late then s.stc else t)
  else s

/-- STC_START_CTRL written (R295). -/
def State.startCtrl (s : State) (q : Req) (data : Word) : State :=
  let arm := bit data 0
  let cancel := bit data 1
  if (arm && cancel) || (arm && s.running) then s.reject q (BitVec.ofNat 32 STC_START_CTRL.addr) data
  else if cancel then s.disarm
  else if arm then
    let s := (s.wrB STC_STAT 1 true).wrB STC_START_CTRL 0 true
    if s.stcRegs STC_START_SECH STC_START_SECL STC_START_NS < s.stc then s.timedStart true else s
  else s

def execFrameRun (r : Req) (rate blen : BitVec 2) (s : State) : Out :=
  let d := frmWord rate blen true
  done (s.gated r SYS_FRM_CTRL d (fun s => s.frmCtrlWrite r d))
def execFrameStop (r : Req) (rate blen : BitVec 2) (s : State) : Out :=
  let d := frmWord rate blen false
  done (s.gated r SYS_FRM_CTRL d (fun s => s.frmCtrlWrite r d))
def execFrameFormatChange (r : Req) (rate blen : BitVec 2) (run : Bool) (s : State) : Out :=
  let d := frmWord rate blen run
  done (s.gated r SYS_FRM_CTRL d (fun s => s.frmCtrlWrite r d))
def execSplitWrite (r : Req) (data : Word) (s : State) : Out :=
  done (s.gated r SYS_FRM_SPLIT data (fun s => s.splitWrite r data))
def execTimedStartArm (r : Req) (cancel : Bool) (s : State) : Out :=
  let d : Word := if cancel then 3#32 else 1#32
  done (s.gated r STC_START_CTRL d (fun s => s.startCtrl r d))
def execTimedStartCancel (r : Req) (s : State) : Out :=
  done (s.gated r STC_START_CTRL 2#32 (fun s => s.startCtrl r 2#32))
def execTimedStart (s : State) : Out := done (s.timedStart false)
def execPowerStateRequest (r : Req) (s : State) : Out := done (s.gated r PWR_REQ 1#32 (fun s => s.pwrReq r 1#32))
def execPowerStateEnter (s : State) : Out := done s.pwrEnter
def execHostWake (r : Req) (s : State) : Out := done (s.gated r PWR_REQ 2#32 (fun s => s.pwrReq r 2#32))
def execGpioWake (n : Fin 16) (falling : Bool) (s : State) : Out :=
  done (if s.rdB PWR_WAKE_POL n = falling then s.wakeEvent n else s)
def execAonTimerExpiry (s : State) : Out := done (if s.rd PWR_AON_TIMER = 0 then s else s.wakeEvent 16)
def execHotCountPeriod (s : State) : Out := done s.hotPeriod

end Sys2Proof.Machine
end

