-- ==== Sys2Proof/Machine/House.lean ====
section
/-! DEFINITION. The mailboxes, the house firmware's commands and duties, firmware images (R354 to R361), Function
Level Reset and interrupt re-arming (R348, R353), and the PCI Express link's state (R366). -/

namespace Sys2Proof.Machine

/-- A core takes a state (R359). -/
def State.setCore (s : State) (c v : Nat) : State := s.wrF HSE_CORE_STAT (4 * c + 1) (4 * c) v

/-- Whether a requester uses a mailbox: not the other function (R354). -/
def mbUser (q : Req) (m : Nat) : Bool := !(q.master == 6) || (q.guest == (m == 1))

def State.mbBusy (s : State) (m : Nat) : Bool := s.rdB (HSE_MB_STAT m) 30
def State.mbOp (s : State) (m : Nat) : Nat := s.rdF (HSE_MB_CMD m) 7 0
def State.mbArg (s : State) (m k : Nat) : Word := s.rd (HSE_MB_ARG m k)

/-- A mailbox command is completed (R354, R356). -/
def State.mbDone (s : State) (m status : Nat) (rsp : List Word) : State :=
  let rsp := if status = 0 || status = 2 then rsp.take 16 else []
  let s := s.each (upTo 16) (fun s k => s.wr (HSE_MB_RSP m k) (rsp.getD k 0))
  let s := s.upd (HSE_MB_STAT m) (fun w =>
    setBits (setBits (setBits (setBit (setBit w 31 true) 30 false) 23 16 (s.rdF (HSE_MB_CMD m) 31 24)) 12 8 rsp.length)
      7 0 status)
  { s with house := { s.house with due := sset 0 s.house.due m 0, lost := s.house.lost.filter (· != m) } }

/-- MAILBOX_GO (R354, R355): HSE_MBm_DOOR written. -/
def State.mbGo (s : State) (q : Req) (m : Nat) : State :=
  if !(mbUser q m) then s
  else if s.mbBusy m then s.raise (HSE_MB_STAT m) 0x20000000#32
  else
    let s := s.wrB (HSE_MB_STAT m) 30 true
    if s.anyCore then
      { s with house := { s.house with due := sset 0 s.house.due m (s.now + 1000000 * s.rdF (HSE_MB_TO m) 9 0) } }
    else s.mbDone m 3 []

/-- A command ends with TIMEOUT (R355): an answer is still to come, unless a core's reset has lost it (R365). -/
def State.mbExpire (s : State) (m : Nat) : State :=
  let u := s.mbDone m 5 []
  if s.house.lost.contains m then u
  else { u with house := { u.house with late := sset [] u.house.late m (sget [] u.house.late m ++ [s.mbOp m]) } }

/-- MAILBOX_TIMEOUT (R355). -/
def State.mbTimeout (s : State) (m : Nat) : State :=
  if s.mbBusy m then (s.advanceTo (sget 0 s.house.due m)).mbExpire m else s

/-- A command whose time is over ends before anything that the firmware does in the same cycle or later (R355, R365). -/
def State.mbOver (s : State) (m : Nat) : State :=
  if s.mbBusy m && decide (sget 0 s.house.due m ≤ s.now) then s.mbExpire m else s

/-- The answer to the oldest command timed out is discarded and counted (R355). -/
def State.lateTake (s : State) (m : Nat) : State :=
  let s := s.count HSE_LATE_CNT
  { s with house := { s.house with late := sset [] s.house.late m (sget [] s.house.late m).tail } }

/-- The firmware runs a mailbox's outstanding command of an opcode (R351, R355 to R358): late, shed, denied to the Guest, or
`f`. Answers come in the order of the commands. DESIGN CHOICE: assumption 56. -/
def State.fwCmd (s : State) (m op : Nat) (owner : Bool) (f : State → State) : State :=
  let s := s.mbOver m
  if s.anyCore && (sget [] s.house.late m).headD 256 == op then s.lateTake m
  else if s.mbBusy m && s.mbOp m = op && s.anyCore && !(s.house.lost.contains m) then
    if 3 ≤ s.shedLevel then s.mbDone m 6 []
    else if owner && m = 1 then s.mbDone m 4 []
    else f s
  else s

/-- GET_VERSION (R357). -/
def State.getVersion (s : State) (m : Nat) : State :=
  s.fwCmd m 1 false (fun s => s.mbDone m 0 [s.rd HSE_FW_VER, s.rd HSE_CORE_STAT, BitVec.ofNat 32 s.shedLevel])

/-- GET_STATS (R357, R358): a page of counters, those last collected while statistics are shed. What is counted is the
firmware's. DESIGN CHOICE: assumption 58. -/
def State.getStats (s : State) (m : Nat) : State :=
  s.fwCmd m 2 false (fun s =>
    let p := (s.mbArg m 0).toNat
    if 3 < p then s.mbDone m 2 []
    else
      let r := if s.shedLevel = 0 then s.freeWords 16 else (sget [] s.house.pages p, s)
      let ws := r.1
      r.2.mbDone m 0 ((upTo 16).map (fun k => if k = 15 then setBit (ws.getD k 0) 31 (s.shedLevel != 0) else ws.getD k 0)))

/-- The port that an argument names. -/
def State.mbPort (s : State) (m : Nat) : Nat := b2n (bit (s.mbArg m 0) 0)

/-- A filter entry of a running instance (R263, R289): entry 62 takes the event messages' UDP port and 63 the general
messages', or entry 62 the EtherType of 802.1AS, each to queue 15. DESIGN CHOICE: assumption 57. -/
def State.ptpFilters (s : State) (p profile : Nat) : State :=
  if profile = 3 then
    ((s.wr (MAC_FLT_A p 62) 0x90F00000#32).wr (MAC_FLT_B p 62) 0x88F70000#32).wr (MAC_FLT_A p 63) 0
  else
    (((s.wr (MAC_FLT_A p 62) 0x88F00000#32).wr (MAC_FLT_B p 62) 319#32).wr (MAC_FLT_A p 63) 0x88F00000#32).wr
      (MAC_FLT_B p 63) 320#32

/-- PTP_SET (R289, R357): the instance takes its filter entries. -/
def State.ptpSet (s : State) (m : Nat) : State :=
  s.fwCmd m 0x10 true (fun s =>
    let p := s.mbPort m
    if !(s.rdB (MAC_CTRL p) 0) then s.mbDone m 3 []
    else if (s.ptpInst p).any PtpInst.starting then s.mbDone m 1 []
    else
      let s := s.setPtpInst p (some { args := (upTo 4).map (s.mbArg m) })
      (s.ptpFilters p (bits (s.mbArg m 0) 2 1)).mbDone m 0 [])

/-- The instance gives its filter entries back, and its frames that wait in class 7 go (R289). DESIGN CHOICE:
assumption 57. -/
def State.ptpRelease (s : State) (p : Nat) : State :=
  ((s.wr (MAC_FLT_A p 62) 0).wr (MAC_FLT_A p 63) 0).setMac p { s.mac p with fwQ := [], reqAt := none, fwRx := [] }

/-- PTP_STOP (R357). -/
def State.ptpStop (s : State) (m : Nat) : State :=
  s.fwCmd m 0x11 true (fun s =>
    let p := s.mbPort m
    if (s.ptpInst p).isNone then s.mbDone m 3 [] else ((s.setPtpInst p none).ptpRelease p).mbDone m 0 [])

/-- The grandmaster of an instance: its own clock as a master, else that of the last Announce (R357). -/
def PtpInst.leader (i : PtpInst) : List Byte := if i.state = 3 then i.clock else i.gm

/-- PTP_STATUS (R357): the state, the grandmaster, what the instance last reported and the mean path delay; a word that
nothing has given yet is free. DESIGN CHOICE: assumption 58. -/
def State.ptpStatus (s : State) (m : Nat) : State :=
  s.fwCmd m 0x12 false (fun s =>
    let x := s.freeWords 5
    let f := fun k => x.1.getD k 0
    x.2.mbDone m 0 (match s.ptpInst (s.mbPort m) with
      | none => 0 :: x.1
      | some i =>
        let gm := fun o k => if i.leader.isEmpty then f k else BitVec.ofNat 32 (beAt i.leader o 4)
        [BitVec.ofNat 32 i.state, gm 4 0, gm 0 1, if i.known then BitVec.ofNat 32 (i.cls * 256 + i.acc) else f 2,
          if i.known then satWord i.offset else f 3, (i.delay.map satWord).getD (f 4)]))

/-- DISC_SET (R357). -/
def State.discSet (s : State) (m : Nat) : State :=
  s.fwCmd m 0x20 true (fun s =>
    let a := s.mbArg m 0
    if bits a 15 8 = 0 then s.mbDone m 2 []
    else { s with house := { s.house with disc := sset (0, 0) s.house.disc (s.mbPort m) (a, s.mbArg m 1) } }.mbDone m 0 [])

/-- A frame of the house firmware is offered to a port: its bytes are the firmware's own. -/
def State.fwFrame (s : State) (p cls : Nat) (args : List Word) : State :=
  { s with free := s.free + 1 }.offerFrame p cls (Config.firmwareFrame s.free args)

/-- DISCOVERY_ANNOUNCE (R357, R358). -/
def State.discAnnounce (s : State) (p : Nat) : State :=
  let d := sget (0, 0) s.house.disc p
  if bit d.1 1 && decide (s.shedLevel < 2) && s.anyCore then s.fwFrame p 0 [d.1, d.2] else s

/-- ANI_STATS (R357). -/
def State.aniStats (s : State) (m : Nat) : State :=
  s.fwCmd m 0x30 false (fun s =>
    let h := s.house
    s.mbDone m 0 [BitVec.ofNat 32 h.takes, h.takeAt, BitVec.ofNat 32 h.drops, h.chgAt])

/-- The check of an image (R360): the code of the first check that fails, 0 for none. -/
def State.imageCode (s : State) (img : List Byte) : Nat :=
  let w := fun o => ofLeBytes ((img.drop o).take 4)
  let len := w 8
  let body := (img.drop 256).take len
  let key := (img.drop 64).take 64
  if w 0 ≠ 0x5124F1A5 then 1
  else if len = 0 || decide (458752 < len) || decide (img.length < 256 + len) || decide (len ≤ w 12) || decide (len ≤ w 16) then 2
  else if sha256 key ≠ s.boot.key then 3
  else if w 4 < (s.rd TST_FUSE_MINVER).toNat then 4
  else if !(ecdsaOk key ((img.drop 128).take 64) (sha256 (img.take 128 ++ body))) then 5
  else 0

/-- Base address of a half of house SRAM (R361), and the image that stands there. -/
def halfBase (h : Nat) : Nat := 0x100000 + 0x80000 * h
def State.imageAt (s : State) (a : Nat) : List Byte :=
  bytesAt s.mem a (256 + min (wordOf s.mem (a + 8)).toNat 458752)

/-- The half in force. -/
def State.half (s : State) : Nat := b2n (s.rdB HSE_CORE_STAT 8)

/-- An image of a half comes into force: its version and entry offsets. -/
def State.takeImage (s : State) (h : Nat) : State :=
  let a := halfBase h
  let s := (s.wrB HSE_CORE_STAT 8 (h == 1)).wr HSE_FW_VER (wordOf s.mem (a + 4))
  { s with boot := { s.boot with entry0 := wordOf s.mem (a + 12), entry1 := wordOf s.mem (a + 16) } }

/-- A core is reset and boots again; its house flows move (R215, R359). No answer to a command outstanding, or to one that
has timed out, comes any more (R365). DESIGN CHOICE: assumption 56. -/
def State.coreReset (s : State) (c : Nat) : State :=
  let s := { s with house := { s.house with late := [], lost := (upTo 2).filter s.mbBusy } }
  (s.setCore c 1).cloveHost

/-- FW_UPDATE (R361). -/
def State.fwUpdate (s : State) (m : Nat) : State :=
  s.fwCmd m 0x40 true (fun s =>
    let off := (s.mbArg m 0).toNat
    let n := (s.mbArg m 1).toNat
    if s.house.update then s.mbDone m 1 []
    else if 2 ^ 25 < off + n then s.mbDone m 2 []
    else
      let h := 1 - s.half
      let a := 0x10000000 + off
      let k := min n 0x80000
      let img := (upTo k).map (fun i => if s.whole (a + i) then s.byte (a + i) else 0)
      let s := if (s.fencedIn a k).isSome then (s.fenceRange a k 4 false).busErr 4 false false 4 (targetOf a) a else s
      let s := { s with mem := putBytes s.mem (halfBase h) img }
      match s.imageCode img with
      | 0 =>
        let s := ((s.mbDone m 0 []).takeImage h)
        let s := { s with house := { s.house with update := true } }
        (s.coreReset 0).coreReset 1
      | c => ((s.wr HSE_FW_ERR (BitVec.ofNat 32 c)).raise HSE_INT 4#32).mbDone m 2 [BitVec.ofNat 32 c])

/-- CORE_RESTART (R357, R359): the answer comes first. -/
def State.coreRestart (s : State) (m : Nat) : State :=
  s.fwCmd m 0x41 true (fun s =>
    let a := (s.mbArg m 0).toNat
    if a = 0 || decide (3 < a) then s.mbDone m 2 []
    else s.mbDone m 0 [] |>.each ((upTo 2).filter (fun c => a.testBit c)) (fun s c => s.coreReset c))

/-- The firmware runs the outstanding command of a mailbox; an opcode that R357 does not give is UNSUPPORTED. -/
def State.fwRun (s : State) (m : Nat) : State :=
  match s.mbOp m with
  | 0x01 => s.getVersion m
  | 0x02 => s.getStats m
  | 0x10 => s.ptpSet m
  | 0x11 => s.ptpStop m
  | 0x12 => s.ptpStatus m
  | 0x20 => s.discSet m
  | 0x30 => s.aniStats m
  | 0x40 => s.fwUpdate m
  | 0x41 => s.coreRestart m
  | op => s.fwCmd m op false (fun s => s.mbDone m 7 [])

/-- MAILBOX_ANSWER (R354 to R358): the firmware answers the oldest command it has not answered. One that has timed out is
late; else the command runs, and its code and response are those of its rules: an answer with another code does not occur.
DESIGN CHOICE: assumption 56. -/
def State.mbAnswer (s : State) (m status : Nat) : State :=
  let u := s.mbOver m
  if !s.anyCore then u
  else if sget [] u.house.late m ≠ [] then u.lateTake m
  else
    let v := u.fwRun m
    if u.mbBusy m && !(v.mbBusy m) && v.rdF (HSE_MB_STAT m) 7 0 = status then v else u

/-- HOUSE_CORE_RUNNING (R359, R360): a restarting core has re-verified the image in force. -/
def State.coreUp (s : State) (c : Nat) : State :=
  if s.coreState c = 1 && s.boot.ready then
    match s.imageCode (s.imageAt (halfBase s.half)) with
    | 0 =>
      let s := (s.setCore c 2).cloveHost
      if s.coreRuns 0 && s.coreRuns 1 then { s with house := { s.house with update := false } } else s
    | k => ((s.wr HSE_FW_ERR (BitVec.ofNat 32 k)).setCore c 0).cloveHost
  else s

/-- HOUSE_WATCHDOG_RESET (R359). -/
def State.coreDog (s : State) (c : Nat) : State :=
  if s.coreRuns c then ((s.coreReset c).raise HSE_INT 2#32).count HSE_WDT_CNT else s

/-- The cores' loads over the last 10 ms. -/
def State.setLoads (s : State) (l0 l1 : Nat) : State := (s.wrF HSE_HOUSE_STAT 15 8 l0).wrF HSE_HOUSE_STAT 23 16 l1

/-- The statistics pages as they stand when their collection ends: their words are the firmware's (R358). DESIGN CHOICE:
assumption 58. -/
def State.keepPages (s : State) : State :=
  s.each (upTo 4) (fun s p =>
    let r := s.freeWords 16
    { r.2 with house := { r.2.house with pages := sset [] r.2.house.pages p r.1 } })

/-- SHED_LEVEL_RISE (R358, R365). -/
def State.shedRise (s : State) (l0 l1 : Nat) : State :=
  let s := s.setLoads l0 l1
  if (90 < l0 || 90 < l1) && s.shedLevel < 5 then
    let s := if s.shedLevel = 0 then s.keepPages else s
    let s := ((s.wrF HSE_HOUSE_STAT 2 0 (s.shedLevel + 1)).raise HSE_INT 1#32).count HSE_SHED_CNT
    if s.shedLevel = 3 then s.each ((upTo 2).filter s.mbBusy) (fun s m => s.mbDone m 6 []) else s
  else s

/-- SHED_LEVEL_FALL (R358). -/
def State.shedFall (s : State) (l0 l1 : Nat) : State :=
  let s := s.setLoads l0 l1
  if l0 < 70 ∧ l1 < 70 then s.wrF HSE_HOUSE_STAT 2 0 (s.shedLevel - 1) else s

/-- A profile's domain, and its logSync, logAnnounce and logMinDelayReq as bytes (R289). -/
def ptpDomain (profile : Nat) : Nat := if profile = 2 then 127 else 0
def ptpLogs (profile : Nat) : Nat × Nat × Nat := match profile with
  | 0 => (0, 1, 0)
  | 1 => (253, 1, 253)
  | 2 => (253, 254, 253)
  | _ => (253, 0, 0)

/-- A PTP message (R289). PRESUMED, from IEEE 1588-2019: assumption 92. -/
def ptpMessage (i : PtpInst) (p type flags seq log : Nat) (body : List Byte) : List Byte :=
  let as := decide (i.profile = 3)
  beBytes 1 ((if as then 16 else 0) + type) ++ beBytes 1 0x12 ++ beBytes 2 (34 + body.length) ++
    beBytes 1 (ptpDomain i.profile) ++ beBytes 1 0 ++ beBytes 2 flags ++ beBytes 8 0 ++ beBytes 4 0 ++
    i.clock ++ beBytes 2 (p + 1) ++ beBytes 2 seq ++
    beBytes 1 (match type with | 0 => 0 | 1 => 1 | 8 => 2 | 9 => 3 | _ => 5) ++ beBytes 1 log ++ body

/-- The frame of a PTP message in its profile's transport: Layer 2 in 802.1AS, else UDP over IPv4 (R289); `event`
messages use port 319 and the others 320. PRESUMED, from IEEE 1588-2019: assumption 92. -/
def ptpFrame (i : PtpInst) (event : Bool) (msg : List Byte) : List Byte :=
  if i.profile = 3 then beBytes 6 0x0180C200000E ++ i.eui ++ beBytes 2 0x88F7 ++ msg
  else
    let port := if event then 319 else 320
    let udp := beBytes 2 port ++ beBytes 2 port ++ beBytes 2 (8 + msg.length) ++ beBytes 2 0 ++ msg
    let ip := beBytes 1 0x45 ++ beBytes 1 0 ++ beBytes 2 (20 + udp.length) ++ beBytes 4 0 ++ beBytes 1 1 ++ beBytes 1 17 ++
      beBytes 2 0 ++ beBytes 4 (i.args.getD 1 0).toNat ++ beBytes 4 0xE0000181
    putIpSum (beBytes 6 0x01005E000181 ++ i.eui ++ beBytes 2 0x0800 ++ ip ++ udp) ⟨14, 34, 42⟩

/-- `n` bytes that the spec leaves to the firmware. DESIGN CHOICE: assumption 57. -/
def State.fwBytes (s : State) (n : Nat) (args : List Word) : List Byte :=
  let bs := Config.firmwareFrame s.free args
  (upTo n).map (fun k => bs.getD k 0)

/-- The frame of a message with its stamping (R274, R275, R289): a one-step Sync takes its stamp in place, a two-step
one asks for it and names the Follow_Up, as does a Pdelay_Resp; the requests ask for it. An answer carries the receive stamp
and the port identity of the oldest request `rq`. An Announce's contents are the firmware's, but for the priorities. -/
def State.ptpBuild (s : State) (i : PtpInst) (p seq : Nat) (rq : Int × List Byte) (k : PtpMsg) : FwFrame :=
  let who := (rq.2.drop 20).take 10
  let log := ptpLogs i.profile
  let mk := fun (event : Bool) type flags log body => ptpFrame i event (ptpMessage i p type flags seq log body)
  let o := ptpOff i + 34
  match k with
  | .sync true => { bytes := mk true 0 0 log.1 (beBytes 10 0), one := some o }
  | .sync false => { bytes := mk true 0 0x0200 log.1 (beBytes 10 0), ts := some seq,
                     follow := some (mk false 8 0 log.1 (beBytes 10 0), o) }
  | .announce =>
    let bs := s.fwBytes 30 i.args
    { bytes := mk false 11 0 log.2.1 (putBe (putBe bs 13 1 (bits (i.args.getD 0 0) 15 8)) 18 1 (bits (i.args.getD 0 0) 23 16)) }
  | .delayReq => { bytes := mk true 1 0 0x7F (beBytes 10 0), ts := some seq, req := true }
  | .pdelayReq => { bytes := mk true 2 0 log.2.2 (beBytes 20 0), ts := some seq, req := true }
  | .delayResp => { bytes := mk false 9 0 log.2.2 (stampBytes rq.1 ++ who) }
  | .pdelayResp => { bytes := mk true 3 0x0200 0x7F (stampBytes rq.1 ++ who), ts := some seq,
                     follow := some (mk false 10 0 0x7F (beBytes 10 0 ++ who), o) }

/-- The messageType of a message. -/
def ptpType : PtpMsg → Nat
  | .sync _ => 0
  | .delayReq => 1
  | .pdelayReq => 2
  | .announce => 11
  | .delayResp => 9
  | .pdelayResp => 3

/-- A message that answers a request. -/
def ptpAnswer : PtpMsg → Bool
  | .delayResp | .pdelayResp => true
  | .sync _ | .announce | .delayReq | .pdelayReq => false

/-- Whether an instance sends a message: Sync and Announce where it is master-capable, and the requests of its
profile's delay mechanism and the answers to them where a request `waits` (R289). -/
def PtpInst.sends (i : PtpInst) (waits : Bool) (k : PtpMsg) : Bool := match k with
  | .sync _ => i.master
  | .announce => i.master
  | .delayReq => i.profile != 3
  | .pdelayReq => i.profile == 3
  | .delayResp => i.profile != 3 && waits
  | .pdelayResp => i.profile == 3 && waits

/-- Whether a message is a master's. -/
def ptpLeads : PtpMsg → Bool
  | .sync _ | .announce => true
  | .delayReq | .pdelayReq | .delayResp | .pdelayResp => false

/-- PTP_MESSAGE_SEND (R289, R358): through the class 7 ring, unless PTP is shed; an answer to the oldest request, with its
sequence number. -/
def State.ptpSend (s : State) (p : Nat) (k : PtpMsg) : State :=
  match s.ptpInst p with
  | some i =>
    let rx := (s.mac p).fwRx
    if s.ptpRuns && i.sends (!rx.isEmpty) k then
      let rq := rx.headD (0, [])
      let seq := if ptpAnswer k then beAt rq.2 30 2 else sget 0 i.seq (ptpType k)
      let f := s.ptpBuild i p seq rq k
      let s := if ptpAnswer k then s.setMac p { s.mac p with fwRx := rx.tail } else s
      let s := { s with free := s.free + 1 }.setPtpInst p
        (some { i with starting := false, state := if ptpLeads k then 3 else i.state,
                       seq := sset 0 i.seq (ptpType k) ((seq + 1) % 65536) })
      s.fwOffer p f
    else s
  | none => s

/-- PTP_OFFSET_REPORT (R290, R308, R357, R358): the firmware reports for the instance of a port, which is a slave. -/
def State.ptpReportIn (s : State) (p : Nat) (offset : Int) (cls acc : Nat) : State :=
  match s.ptpInst p with
  | some i =>
    if s.ptpRuns then
      (s.ptpReport p offset cls acc).setPtpInst p (some { i with starting := false, state := 2, known := true,
                                                                 offset := offset, cls := cls, acc := acc })
    else s
  | none => s

/-- PTP_ANNOUNCE_TIMEOUT (R290, R358): the instance of a port reports its reference as lost, and is a master or listens
again (R357). PRESUMED: assumption 95. -/
def State.ptpAnnounceLost (s : State) (p : Nat) : State :=
  match s.ptpInst p with
  | some i =>
    if s.ptpRuns then
      (s.ptpLost p).setPtpInst p (some { i with starting := false, state := if i.master then 3 else 1 })
    else s
  | none => s

/-- The registers of a mailbox. -/
def mbRegs (m : Nat) : List Reg :=
  [HSE_MB_CMD m, HSE_MB_DOOR m, HSE_MB_STAT m, HSE_MB_TO m] ++ (upTo 16).map (HSE_MB_ARG m) ++ (upTo 16).map (HSE_MB_RSP m)

/-- FUNCTION_LEVEL_RESET (R348): the function's mailbox, MSI-X state and HIF DMA channels. -/
def State.flr (s : State) (fn : Nat) : State :=
  let s := s.each (mbRegs fn) (fun s r => s.wr r r.reset)
  let s := { s with hif := s.hif.setMsix fn {},
                    house := { s.house with due := sset 0 s.house.due fn 0, late := sset [] s.house.late fn [],
                                              lost := s.house.lost.filter (· != fn) } }
  s.each ((upTo 4).filter (fun c => b2n (s.rdB (dmaReg 4 c 0) 8) = fn)) (fun s c =>
    (s.each (upTo 5) (fun s k => s.wr (dmaReg 4 c k) (dmaReg 4 c k).reset)).setDmaCh 4 c {})

/-- INTERRUPT_REARM (R353): each vector of the writing function whose condition is true is sent again. -/
def State.rearm (s : State) (q : Req) (vec : Nat) : State :=
  if q.master == 6 then
    let fn := b2n q.guest
    s.each ((upTo 8).filter (fun v => vec.testBit v)) (fun s v =>
      let v := if v = 1 && fn = 1 then 65 else v
      if s.vecFn v = fn && s.vecCond v then { s with hif := s.hif.send fn v } else s)
  else s

/-- PCIE_LINK_CHANGE (R366). -/
def State.pcieLink (s : State) (up : Bool) (width speed : Nat) : State :=
  (s.wr HIF_STAT (if up then BitVec.ofNat 32 (256 + width * 16 + speed) else 0)).raise HIF_INT 2#32

def execMailboxGo (r : Req) (m : Fin 2) (s : State) : Out :=
  done (s.gated r (HSE_MB_DOOR m) 1#32 (fun s => s.mbGo r m))
def execMailboxAnswer (m : Fin 2) (status : BitVec 8) (_rsp : List Word) (s : State) : Out :=
  done (s.mbAnswer m status.toNat)
def execMailboxTimeout (m : Fin 2) (s : State) : Out := done (s.mbTimeout m)
def execGetVersion (m : Fin 2) (s : State) : Out := done (s.getVersion m)
def execGetStats (m : Fin 2) (s : State) : Out := done (s.getStats m)
def execPtpSet (m : Fin 2) (s : State) : Out := done (s.ptpSet m)
def execPtpStop (m : Fin 2) (s : State) : Out := done (s.ptpStop m)
def execPtpStatus (m : Fin 2) (s : State) : Out := done (s.ptpStatus m)
def execDiscSet (m : Fin 2) (s : State) : Out := done (s.discSet m)
def execDiscoveryAnnounce (port : Fin 2) (s : State) : Out := done (s.discAnnounce port)
def execAniStats (m : Fin 2) (s : State) : Out := done (s.aniStats m)
def execFwUpdate (m : Fin 2) (s : State) : Out := done (s.fwUpdate m)
def execCoreRestart (m : Fin 2) (s : State) : Out := done (s.coreRestart m)
def execShedLevelRise (l0 l1 : BitVec 8) (s : State) : Out := done (s.shedRise l0.toNat l1.toNat)
def execShedLevelFall (l0 l1 : BitVec 8) (s : State) : Out := done (s.shedFall l0.toNat l1.toNat)
def execHouseWatchdogReset (c : Fin 2) (s : State) : Out := done (s.coreDog c)
def execHouseCoreRunning (c : Fin 2) (s : State) : Out := done (s.coreUp c)
def execPtpMessageSend (port : Fin 2) (k : PtpMsg) (s : State) : Out := done (s.ptpSend port k)
def execPtpOffsetReport (port : Fin 2) (offset : Int) (cc ca : BitVec 8) (s : State) : Out :=
  done (s.ptpReportIn port offset cc.toNat ca.toNat)
def execPtpAnnounceTimeout (port : Fin 2) (s : State) : Out := done (s.ptpAnnounceLost port)
def execFunctionLevelReset (fn : Fin 2) (s : State) : Out := done (s.flr fn)
def execInterruptRearm (r : Req) (vec : BitVec 8) (s : State) : Out :=
  done (s.gated r HIF_IREARM (vec.zeroExtend 32) (fun s => s.rearm r vec.toNat))
def execPcieLinkChange (up : Bool) (width : BitVec 4) (speed : BitVec 3) (s : State) : Out :=
  done (s.pcieLink up width.toNat speed.toNat)

end Sys2Proof.Machine
end

