-- ==== Sys2Proof/Machine/Startup.lean ====
section
/-! DEFINITION. Resets (R380, R386, R404), fuse load and self-test (R182 to R185), boot (R381, R382), the TAP (R384), the
exit from a power state (R371, R373) and the temperature samples (R375, R376). -/

namespace Sys2Proof.Machine

/-- Registers of the always-on domain (R184, R378, R386). -/
def aonReg (a : Nat) : Bool :=
  a = 0x50000004 || [0x50010014, 0x50010018, 0x5001001C, 0x50010080].contains a || decide (0x50130400 ≤ a ∧ a < 0x501304A0)

/-- The HIF block. -/
def hifReg (a : Nat) : Bool := decide (0x50100000 ≤ a ∧ a < 0x50110000)

/-- Every block that a reset reaches takes its reset values (R11), HIF unless `hif` keeps it; memories, the
always-on domain and the STC stay, and the sequence of R381 starts at the fuse load. A self-test still due
stays due (R380). -/
def State.blocksReset (s : State) (hif : Bool) (pins : Nat) : State :=
  { pending := s.pending, now := s.now, free := s.free, rsp := s.rsp, nextReq := s.nextReq,
    regs := s.regs.filter (fun kv => aonReg kv.1 || (hif && hifReg kv.1)),
    mem := s.mem, rep := s.rep, stc := s.stc, io33 := s.io33,
    hif := if hif then s.hif else {}, dma := if hif then s.dma.filter (fun u => u.1 = 4) else [],
    saf := { winAt := s.now, usAt := s.now },
    boot := { pins := pins, test := s.boot.test && (s.boot.step == .fuses || s.boot.step == .test),
              jtag := s.boot.jtag, cells := s.boot.cells, locked := s.boot.locked } }

/-- The ramp state takes the words of bank A (R134). -/
def State.loadRamp (s : State) : State :=
  if s.running then s else { s with mem := copyRange s.mem 0x30000000 0x30200000 0x100000 }

/-- SYS_RST_CAUSE keeps its bits and takes the bit of a reset's cause (R386). -/
def State.resetCause (s : State) (b : Nat) : State := s.wrB SYS_RST_CAUSE b true

/-- POWER_ON_RESET (R380, R386, R389, R404): it starts with PORn low or VDD_AON below 0.70 V, and holds the device until PORn
is high with VDD_AON above 0.74 V; the I/O banks sense their supplies while PORn is low (R390). -/
def State.porReset (s : State) (p : PorPins) : State :=
  if s.pwr.por || !p.porn || decide (p.aon < 700) then
    let up := p.porn && decide (740 < p.aon)
    { pending := s.pending, now := s.now, free := s.free, rsp := s.rsp, nextReq := s.nextReq, mem := s.mem,
      saf := { winAt := s.now, usAt := s.now }, pwr := { por := !up },
      boot := { pins := p.boot.toNat, step := if up then .fuses else .stopped, locked := s.boot.locked },
      io33 := if p.porn then s.io33 else p.io33 }
  else s

/-- A system reset, which keeps HIF, by a write (`why` 1) or an ECC failure (2) (R380). DEDUCED: assumption 62. -/
def State.sysReset (s : State) (pins why : Nat) : State :=
  let s := ((s.blocksReset true pins).loadRamp).resetCause 1
  { s with boot := { s.boot with sys := why } }

/-- A PCI Express fundamental reset (R380): a trip or a power-on reset that holds the device goes on (R376, R389). -/
def State.perstReset (s : State) (pins : Nat) : State :=
  if s.pwr.por then s
  else if s.pwr.trip then s.resetCause 2
  else ((s.blocksReset false pins).loadRamp).resetCause 2

/-- S4_WAKE_RESTART (R373): every word of every unfenced unit is 0, the STC restarts from 0. -/
def State.deepRestart (s : State) (cause : Nat) : State :=
  let s := (s.blocksReset false s.boot.pins).resetCause cause
  let keep := s.mem.filter (fun kv =>
    match unitAt kv.1 with
    | some u => s.fenced u
    | none => false)
  { s with stc := 0, mem := keep }

/-- SYS_RST_CTRL written (R385). -/
def State.rstCtrl (s : State) (q : Req) (data : Word) (pins : Nat) : State :=
  if bit data 0 then
    if bits data 31 16 = 0xA5C3 then s.sysReset pins 1
    else s.reject q (BitVec.ofNat 32 SYS_RST_CTRL.addr) data
  else s

/-- The boot stops with an error; both cores are in reset (R382). -/
def State.bootStop (s : State) (err : Nat) : State :=
  let s := (((s.wrF SYS_BOOT_STAT 3 0 err).wrB SYS_BOOT_STAT 29 false).setCore 0 0).setCore 1 0
  { s with boot := { s.boot with step := .stopped } }

/-- Steps 3 and 4 of R381 begin: a fenced house SRAM unit or a reserved mode stops the boot, a host download
waits (R185, R381, R382). -/
def State.bootSource (s : State) : State :=
  let e := s.rdF SYS_BOOT_STAT 3 0
  if e ≠ 0 then s.bootStop e
  else if (upTo 4).any (fun i => s.fenced (724 + i)) then s.bootStop 2
  else
    let s := s.wrF SYS_BOOT_STAT 9 8 s.boot.pins
    if s.boot.pins = 3 then s.bootStop 1
    else
      let s := (s.wrB SYS_BOOT_STAT 29 (s.boot.pins == 1)).setCore 0 1
      { s with boot := { s.boot with step := .image } }

/-- FUSE_LOAD_DONE (R182, R380, R381, R384, R385): an uncorrectable error at the load of a system reset makes a system
reset (DESIGN CHOICE: assumption 116: once); else it stops the boot, after the self-test where one is due. DEDUCED:
assumption 63. -/
def State.fuseDone (s : State) (f : Fuses) : State :=
  if s.boot.step = .fuses && f.eccErr && s.boot.sys = 1 then s.sysReset s.boot.pins 2
  else if s.boot.step = .fuses then
    let st := setBit (setBit (setBit 0 0 true) 1 f.eccErr) 2 f.dbgLock
    let s := (s.wr TST_FUSE_STAT st).wr TST_FUSE_MINVER f.minVer
    let s := s.each f.hard (fun s h => { s with rep := sset {} s.rep h.1 { s.unit h.1 with hard := min h.2 4 } })
    let s := { s with boot := { s.boot with vendor := f.vendor.toNat, subsys := f.subsys, key := f.keyHash,
                                            mfr := f.mfrCode.toNat,
                                            locked := s.boot.locked || f.dbgLock } }
    let s := if f.eccErr then s.wrF SYS_BOOT_STAT 3 0 5 else s
    if s.boot.test then { s with boot := { s.boot with step := .test } }
    else s.loadRamp.bootSource
  else s

/-- What the self-test finds of a unit (R183, R185): it is fenced where its failing columns exceed its free
spares, or where it still fails. DEDUCED: assumption 64. -/
def State.unitTested (s : State) (t : UnitTest) : State :=
  let r := s.unit t.unit
  let r := { r with failCols := min t.failCols 15, soft := min t.failCols (4 - r.hard),
                    fenced := t.stillBad || decide (4 - r.hard < t.failCols) }
  { s with rep := sset {} s.rep t.unit r }

/-- SELF_TEST_DONE (R183, R187): soft repair, fencing, memory all zero, then TST_MEM_STAT.done. -/
def State.selfTested (s : State) (res : List UnitTest) : State :=
  if s.boot.step = .test then
    let s := s.each res State.unitTested
    let s := { s with mem := [] }
    let bad := (upTo 728).filter s.fenced
    let sum := fun (f : RepUnit → Nat) => (s.rep.map (fun x => f x.2)).foldl (· + ·) 0
    let s := s.wr TST_MEM_STAT (setBits (setBit (setBit 0 31 true) 30 (!bad.isEmpty)) 25 16 bad.length)
    let s := s.wr TST_MEM_REP (setBits (setBits 0 31 16 (sum RepUnit.soft)) 15 0 (sum RepUnit.hard))
    let s := s.each bad (fun s u => s.wrB (TST_MEM_BAD (u / 32)) (u % 32) true)
    ({ s with boot := { s.boot with test := false } }).bootSource
  else s

/-- BOOT_HOST_GO (R381, R385): SYS_BOOT_CTRL.go is effective only while waiting is 1. -/
def State.hostGo (s : State) : State :=
  if s.rdB SYS_BOOT_STAT 29 then
    { (s.wrB SYS_BOOT_STAT 29 false).wrB SYS_BOOT_CTRL 0 true with boot := { s.boot with go := true } }
  else s

/-- The ROM boots from flash: no fallback yet (R381). -/
def State.fromFlash (s : State) : Bool :=
  (s.boot.pins == 0 || s.boot.pins == 2) && !(s.rdB SYS_BOOT_STAT 30)

/-- A failure of the flash image (R382): the fallback to host download, or the boot stops. -/
def State.flashFail (s : State) (err : Nat) : State :=
  if s.boot.pins = 2 then (s.wrB SYS_BOOT_STAT 30 true).wrB SYS_BOOT_STAT 29 true else s.bootStop err

/-- BOOT_FLASH_TIMEOUT (R382). -/
def State.flashTimeout (s : State) : State :=
  if s.boot.step = .image && s.fromFlash && !s.asleep then s.flashFail 3 else s

/-- The image is checked under R360: it comes into force in half 0, or HSE_FW_ERR takes the code. -/
def State.checkImage (s : State) (fail : State → State) : State :=
  match s.imageCode (s.imageAt 0x100000) with
  | 0 =>
    let s := ((s.takeImage 0).setCore 0 1).setCore 1 1
    { s with boot := { s.boot with step := .start } }
  | c => fail (s.wr HSE_FW_ERR (BitVec.ofNat 32 c))

/-- BOOT_IMAGE_CHECK (R381, R382): the image comes from `flash`, or stands where the host has written it. -/
def State.bootImage (s : State) (flash : List Byte) : State :=
  if s.boot.step = .image && !s.asleep then
    if s.fromFlash then
      let head := flash.take 4
      if head.all (· == 0) || head.all (· == 0xFF#8) then s.flashFail 3
      else
        let img := flash.take (256 + min (ofLeBytes ((flash.drop 8).take 4)) 458752)
        ({ s with mem := putBytes s.mem 0x100000 img }).checkImage (fun s => s.flashFail 4)
    else if s.boot.go then
      let s := { s.wrB SYS_BOOT_CTRL 0 false with boot := { s.boot with go := false } }
      s.checkImage (fun s => s.bootStop 4)
    else s
  else s

/-- BOOT_READY (R381 step 5). -/
def State.bootReadyNow (s : State) : State :=
  if s.boot.step = .start && !s.asleep then
    let s := ((s.setCore 0 2).setCore 1 2).wrB SYS_BOOT_STAT 31 true
    { s with boot := { s.boot with step := .ready, ready := true } }.cloveHost
  else s

/-- What IDCODE reads (R384). -/
def State.idcode (s : State) : Word :=
  let rev := match Config.revision with
    | .a0 => 0
    | .a1 => 1
    | .b0 => 2
  BitVec.ofNat 32 (rev * 2 ^ 28 + 0x5124 * 2 ^ 12 + s.boot.mfr * 2 + 1)

/-- JTAG_INSTRUCTION (R384, R190): the debug instructions drive master DBG, and act as BYPASS while locked; PRELOAD loads
the boundary cells.
DESIGN CHOICE: assumption 66. -/
def State.jtagLoad (s : State) (i : JtagInstr) : State :=
  match i with
  | .debug t =>
    if s.dbgLocked then { s with boot := { s.boot with jtag := .bypass } }
    else ({ s with boot := { s.boot with jtag := i } }).acceptBurst t
  | .idcode => ({ s with boot := { s.boot with jtag := i } }).respond s.idcode false
  | .samplePreload cells => { s with boot := { s.boot with jtag := i, cells := cells } }
  | _ => { s with boot := { s.boot with jtag := i } }

/-- A stay ends at its wake event (R371, R373, R374). -/
def State.pwrExit (s : State) : State :=
  match s.pwr.woke with
  | some w =>
    let t := s.pwrState
    if 1 ≤ t ∧ t ≤ 3 then s.pwrResume t w
    else if t = 4 then
      let s := s.deepRestart 3
      ((s.wrF PWR_STAT 20 16 w).raise PWR_INT 1#32).wrB PWR_AON_STAT 1 true
    else s
  | none => s

/-- A thermal trip holds every domain but the always-on domain in reset (R376). DEDUCED: assumption 65. -/
def State.trip (s : State) : State :=
  let s := (s.blocksReset false s.boot.pins).wrB PWR_AON_STAT 0 true
  { s with pwr := { s.pwr with trip := true }, boot := { s.boot with step := .stopped } }

/-- TEMPERATURE_SAMPLE (R375, R376): a trip at 125 °C, a restart below 115 °C. -/
def State.tempSample (s : State) (ts : List Int) : State :=
  let top := ts.foldl max (ts.headD 0)
  if s.pwr.por then s
  else if s.pwr.trip then
    if top < 1840 then ((s.deepRestart 4).raise PWR_INT 8#32).tempRegs ts else s
  else
    let s := s.tempRegs ts
    if 2000 ≤ top then s.trip else s

def execPowerOnReset (pins : PorPins) (s : State) : Out := done (s.porReset pins)
def execSystemReset (r : Req) (key : BitVec 16) (boot : BitVec 2) (s : State) : Out :=
  let d := BitVec.ofNat 32 (key.toNat * 2 ^ 16 + 1)
  done (s.gated r SYS_RST_CTRL d (fun s => s.rstCtrl r d boot.toNat))
def execPcieFundamentalReset (boot : BitVec 2) (s : State) : Out := done (s.perstReset boot.toNat)
def execFuseLoadDone (f : Fuses) (s : State) : Out := done (s.fuseDone f)
def execSelfTestDone (res : List UnitTest) (s : State) : Out := done (s.selfTested res)
def execBootHostGo (r : Req) (s : State) : Out := done (s.gated r SYS_BOOT_CTRL 1#32 State.hostGo)
def execBootFlashTimeout (s : State) : Out := done s.flashTimeout
def execBootImageCheck (flash : List Byte) (s : State) : Out := done (s.bootImage flash)
def execBootReady (s : State) : Out := done s.bootReadyNow
def execJtagInstruction (i : JtagInstr) (s : State) : Out := done (s.jtagLoad i)
def execTemperatureSample (t : List (BitVec 16)) (s : State) : Out := done (s.tempSample (t.map BitVec.toInt))

end Sys2Proof.Machine
end

