-- ==== Sys2Proof/Machine/AniseCtl.lean ====
section
/-! DEFINITION. Anise's control: the writes of ANI_CTRL and ANI_CMD, the mirror copy's start and end, the
heartbeat and the loss of a path (R327, R328, R339, R340, R342, R344, R345, R347). -/

namespace Sys2Proof.Machine

/-- ANI_STAT.state: 0 OFF, 1 ACTIVE, 2 SYNC, 3 LOCKSTEP, 4 UNFIT, 5 HOLD, 6 LOST_SYNC, 7 ISOLATED (R347). -/
def State.aniState (s : State) : Nat := s.rdF ANI_STAT 2 0
def State.setAniState (s : State) (v : Nat) : State :=
  let s := s.wrF ANI_STAT 2 0 v
  if s.shedLevel < 4 then { s with house := { s.house with chgAt := s.rd SYS_FRM_BLOCK } } else s
def State.peerState (s : State) : Nat := s.rdF ANI_STAT 6 4
def State.aniTerm (s : State) : Nat := s.rdF ANI_STAT 31 16
def State.aniOn (s : State) : Bool := s.rdB ANI_CTRL 0
def State.aniRole (s : State) : Nat := s.rdF ANI_CTRL 2 1
def State.copying (s : State) : Bool := s.rdB ANI_CMD 2

/-- Change what no register shows. -/
def State.updAni (s : State) (f : Anise → Anise) : State := { s with ani := f s.ani }

/-- The peer has failed: both paths are lost, or its last record said so (R339). -/
def State.peerDown (s : State) : Bool := s.ani.peerFailed || (s.ani.hLost && s.ani.mLost)

/-- ANI_STAT.h_ok and m_ok (R347). -/
def State.showPaths (s : State) : State :=
  (s.wrB ANI_STAT 8 (s.aniOn && !s.ani.hLost)).wrB ANI_STAT 9 (s.aniOn && !s.ani.mLost)

/-- What no epoch of the old role is left of at a change of role. -/
def State.roleClear (s : State) : State :=
  s.updAni (fun a => { a with cap := [], capBytes := [], wait := [], rx := [], rxBytes := [], mis := 0, mat := 0,
                              take := false, taking := false, release := .none, ack := false, relOpen := .none,
                              verified := false, discarded := false, bad := false, loads := [], loaded := [], unitIn := 0,
                              copyGone := false })

/-- The item that tells a standby that the copy has ended ABORTED: a unit record with no body. DESIGN CHOICE:
assumption 36. -/
def copyGoneItem : AniItem := .unit []

/-- A mirror copy reaches its final status (R344, R345); the standby of one that ends ABORTED is told. DESIGN CHOICE:
assumption 36. -/
def State.copyEnd (s : State) (status : Nat) : State :=
  if s.copying then
    let s := if status = 2 then s.aniSend copyGoneItem else s
    let s := s.upd ANI_COPY_STAT (fun w => setBits (setBits (setBit w 31 true) 5 4 status) 1 0 0)
    let s := ((s.wrB ANI_CMD 2 false).wr ANI_COPY_LEFT 0).raise ANI_INT 0x80#32
    s.updAni (fun a => { a with left := [], flying := none, abort := false, doneAt := some s.now })
  else s

/-- Pairing takes filter entry 61 of a network port for EtherType 0x88B5 to queue 14, or gives it back with what waits
in class 6 (R263, R328). DESIGN CHOICE: assumption 94. -/
def State.aniFilter (s : State) (n : Nat) (on : Bool) : State :=
  if on then (s.wr (MAC_FLT_A n 61) 0x90E00000#32).wr (MAC_FLT_B n 61) 0x88B50000#32
  else (s.wr (MAC_FLT_A n 61) 0).setMac n { s.mac n with aniQ := [] }

/-- ANI_CTRL written (R327, R328, R340, R347). -/
def State.aniCtrl (s : State) (q : Req) (data : Word) : State :=
  let d := data &&& ANI_CTRL.rw
  let old := s.rd ANI_CTRL
  let fixed := bits d 5 1 = bits old 5 1
  if bits d 31 24 = 0 || decide (bits d 23 16 < 2) || bits d 2 1 = 3 || (bit d 3 && bit d 5) || (s.aniOn && !fixed) then
    s.reject q (BitVec.ofNat 32 ANI_CTRL.addr) data
  else
    let s := s.wr ANI_CTRL d
    let s := if bit d 3 && (bit d 0 != bit old 0) then s.aniFilter (bits d 5 4) (bit d 0) else s
    let s := if bit d 0 && !(bit old 0) then
        s.updAni (fun a => { a with hTicks := 0, mTicks := 0, hLost := false, mLost := false, peerFailed := false,
                                    peerTerm := 0, mis := 0, mat := 0, rx := [], rxBytes := [] })
      else s
    (if bit d 0 then (if s.aniRole = 2 && !(bit old 0) then s.roleClear else s)
     else (s.copyEnd 2).updAni (fun a => { a with
       take := false, taking := false, release := none, ack := false, relOpen := none })).showPaths

/-- The valid slices, by slice ID (R344). -/
def State.validSlices (s : State) : List Nat :=
  s.engs.flatMap (fun g => (g.2.live.filter (fun u => u.2.valid)).map (fun u => g.1 * 64 + u.1))

/-- MIRROR_COPY (R344): a copy starts on an active whose peer is in LOST_SYNC. -/
def State.copyStart (s : State) : State :=
  if s.aniOn && s.aniState = 1 && s.peerState = 6 && !s.copying then
    let l := s.validSlices
    let s := ((s.wrB ANI_CMD 2 true).wrF ANI_COPY_STAT 5 4 0).wrF ANI_COPY_STAT 1 0 1
    (s.wr ANI_COPY_LEFT (BitVec.ofNat 32 l.length)).updAni (fun a =>
      { a with left := l, bulkAt := 0, flying := none, abort := false, doneAt := none })
  else s

/-- ANI_CMD written (R340, R342, R344 to R346): a take waits for the tick, a release goes with the commit
record of this epoch and while none is under way, an abort takes effect at the next tick, and in the cycle of the last
load it is late. -/
def State.aniCmd (s : State) (data : Word) : State :=
  let s := if bit data 0 && s.aniOn && s.aniRole = 2 then s.updAni (fun a => { a with take := true }) else s
  let s := if bit data 1 && !(bit data 0) && s.aniOn && s.aniState = 1 && s.peerState = 3 && s.ani.release.isNone then
      s.updAni (fun a => { a with release := some s.blockNo, ack := false }) else s
  let s := if bit data 2 then s.copyStart else s
  if !(bit data 3) then s
  else if s.copying then s.updAni (fun a => { a with abort := true })
  else if s.rdF ANI_COPY_STAT 5 4 = 1 && s.ani.doneAt == some s.now then s.wrF ANI_COPY_STAT 5 4 3
  else s

/-- The peer has just failed, or has not (R339). -/
def State.peerWatch (s : State) (was : Bool) : State :=
  if s.peerDown && !was then s.raise ANI_INT 4#32 else s

/-- ANISE_PATH_LOSS (R339, R345): hb_to ticks of this device have passed with no valid input on a path. -/
def State.pathLoss (s : State) (p : AniPath) : State :=
  let a := s.ani
  let to_ := s.rdF ANI_CTRL 23 16
  let h := p == .h
  let due := if h then !a.hLost && decide (to_ ≤ a.hTicks) else !a.mLost && decide (to_ ≤ a.mTicks)
  if s.aniOn && due then
    let s := s.updAni (fun a => if h then { a with hLost := true } else { a with mLost := true })
    let s := ((s.raise ANI_INT 8#32).count (if h then ANI_HLOSS_CNT else ANI_MLOSS_CNT)).showPaths
    (s.peerWatch a.peerFailed).copyEnd 2
  else s

/-- HEARTBEAT_RECEIVE (R328, R339): an edge on HB_RX; pulses shorter than 20 ns are ignored. -/
def State.heartbeat (s : State) (width : Nat) : State :=
  if width < 20 then s else (s.updAni (fun a => { a with hTicks := 0, hLost := false })).showPaths

def execHeartbeatReceive (width : Nat) (s : State) : Out := done (s.heartbeat width)
def execAnisePathLoss (path : AniPath) (s : State) : Out := done (s.pathLoss path)
def execAniseTake (r : Req) (s : State) : Out := done (s.gated r ANI_CMD 1#32 (fun s => s.aniCmd 1#32))
def execAniseRelease (r : Req) (s : State) : Out := done (s.gated r ANI_CMD 2#32 (fun s => s.aniCmd 2#32))
def execMirrorCopy (r : Req) (s : State) : Out := done (s.gated r ANI_CMD 4#32 (fun s => s.aniCmd 4#32))
def execMirrorCopyAbort (r : Req) (s : State) : Out := done (s.gated r ANI_CMD 8#32 (fun s => s.aniCmd 8#32))

end Sys2Proof.Machine
end

