-- ==== Sys2Proof/Machine/RegMap.lean ====
section
/-! DEFINITION. REGISTER_WRITE: what a write of each register does, the ranges of its fields and the writes
rejected under R10, block by block (R5 to R11, R43, R72, R120, R121, R144, R158, R175, R188, R205, R221,
R239, R248, R252, R277, R291, R311, R312, R325, R347, R366 to R368, R378, R386). -/

namespace Sys2Proof.Machine

/-- A write whose value lies in the ranges of its fields takes effect; any other is rejected (R10).
DEDUCED: assumption 15. -/
def State.ranged (s : State) (q : Req) (r : Reg) (d : Word) (ok : Bool) : State :=
  if ok then s.plainWrite r d else s.reject q (BitVec.ofNat 32 r.addr) d

/-- A field of nanoseconds. -/
def nsOk (d : Word) : Bool := decide (bits d 29 0 ≤ 999999999)

/-- A write of a DMA channel's CTRL (R351, R363, R364): fn by the Owner on an idle channel, abort on a
running one, go on an idle one. -/
def State.dmaCtrl (s : State) (q : Req) (u c : Nat) (d : Word) : State :=
  let run := s.dmaRunning u c
  let s := if u = 4 && !run && !q.guest then s.wrB (dmaReg u c 0) 8 (bit d 8) else s
  if run then (if bit d 1 then s.setDmaCh u c { s.dmaCh u c with abort := true } else s)
  else if bit d 0 then
    let s := (s.wr (dmaReg u c 2) (s.rd (dmaReg u c 1))).wr (dmaReg u c 4) 0
    let s := s.upd (dmaReg u c 3) (fun w => setBit (setBits (setBits w 11 8 0) 5 4 0) 0 true)
    s.setDmaCh u c {}
  else s

/-- SYS (R43, R385, R386). -/
def State.writeSys (s : State) (q : Req) (r : Reg) (o : Nat) (d : Word) : State :=
  if o = 0x8 then s.rstCtrl q d s.boot.pins
  else if o = 0x10 then (if bit d 0 then s.hostGo else s)
  else if o = 0x100 then s.frmCtrlWrite q d
  else if o = 0x104 then s.splitWrite q d
  else s.plainWrite r d

/-- PWR (R378). -/
def State.writePwr (s : State) (q : Req) (r : Reg) (o : Nat) (d : Word) : State :=
  if o = 0 then s.ranged q r d (decide (1 ≤ bits d 2 0 ∧ bits d 2 0 ≤ 4))
  else if o = 0x4 then s.pwrReq q d
  else if o = 0x34 then
    s.ranged q r d (decide (sbits d 15 0 < sbits d 31 16 ∧ sbits d 31 16 ≤ 0x690 ∧ -640 ≤ sbits d 15 0))
  else if o = 0x38 then s.ranged q r d (decide (1000 ≤ bits d 15 0 ∧ bits d 15 0 ≤ 40000))
  else if o = 0x44 then s.ranged q r d (decide (0x500 ≤ sbits d 15 0 ∧ sbits d 15 0 ≤ 0x730))
  else s.plainWrite r d

/-- BMX (R199, R203, R205). -/
def State.writeBmx (s : State) (q : Req) (r : Reg) (o : Nat) (d : Word) : State :=
  if o = 0x20 then s.sliceWrite d
  else if o = 0x28 then s.ranged q r d (decide (16 ≤ bits d 9 0))
  else if 0x1000 ≤ o ∧ o % 16 = 8 then s.windowWrite ((o - 0x1000) / 256) (o % 256 / 16) d
  else s.plainWrite r d

/-- CLV and the migration unit (R121, R208, R216, R221). -/
def State.writeClv (s : State) (q : Req) (r : Reg) (o : Nat) (d : Word) : State :=
  if 0x2000 ≤ o then
    if o = 0x2014 then s.migCtrl d
    else if o ≤ 0x2010 then
      s.ranged q r d (!(s.rdB CLV_MIG_STAT 0) &&
        (if o = 0x2004 then decide (bits d 29 16 ≤ 0x3BFF)
         else if o = 0x2008 then decide (bits d 6 0 ≤ 95) else true))
    else s.plainWrite r d
  else if o = 0xC then s.ranged q r d (decide (1 ≤ bits d 27 16 ∧ bits d 10 0 ≤ 1024))
  else if o = 0x40 then s.ranged q r d (decide (bits d 11 0 ≤ 2367))
  else if 0x100 ≤ o ∧ o < 0x200 then
    let p := (o - 0x100) / 0x40
    let k := o % 0x40
    if postAgent q p then
      if k = 0 then s.eventPost q p d
      else if k = 8 then s.ranged q r d (nsOk d)
      else s.plainWrite r d
    else s
  else if o = 0x200 then s.hostPop (bits d 5 0)
  else if r.addr = CLV_BGCOST.addr then (s.plainWrite r d).cloveHost
  else s.plainWrite r d

/-- The sources of R296: their highest index, and whether they take a ratio. -/
def safIndexMax (src : Nat) : Nat :=
  if src = 0 ∨ src = 3 then 7 else if src = 1 then 1 else if src = 5 then 3 else 0

/-- Whether SAF_REFi_CFG may be written with a value (R296, R311). -/
def State.refCfgOk (s : State) (i : Nat) (d : Word) : Bool :=
  let src := bits d 27 24
  let twin := (upTo 8).any (fun j =>
    j != i && s.rdB (SAF_REF_CFG j) 31 && s.rdF (SAF_REF_CFG j) 27 24 == src &&
      s.rdF (SAF_REF_CFG j) 18 16 == bits d 18 16)
  decide (src ≤ 6 ∧ bits d 18 16 ≤ safIndexMax src) && bits d 13 12 != 3 &&
    (bits d 13 12 == 0 || src == 2 || src == 3) && !(bit d 31 && src != 0 && twin)

/-- SAF (R311). -/
def State.writeSaf (s : State) (q : Req) (r : Reg) (o : Nat) (d : Word) : State :=
  let lim := fun (x : Int) (lo hi : Int) => s.ranged q r d (decide (lo ≤ x ∧ x ≤ hi))
  if o = 0 then
    if bits d 5 4 = 3 then s.reject q (BitVec.ofNat 32 r.addr) d
    else ((s.plainWrite r d).clkWrite 0 (d &&& r.rw)).safForce
  else if o = 0x20 then s.ranged q r d (decide (1 ≤ bits d 31 16 ∧ bits d 31 16 ≤ 500 ∧ 1 ≤ bits d 15 0))
  else if o = 0x24 then lim (bits d 16 0) 10 100000
  else if o = 0x28 then lim (bits d 11 0) 16 3600
  else if o = 0x40 then lim (sbits d 15 0) (-640) 1680
  else if o = 0x50 then lim d.toInt (-100000) 100000
  else if o = 0x60 then s.ranged q r d (decide (1 ≤ bits d 31 28 ∧ 1 ≤ bits d 19 0))
  else if 0x70 ≤ o ∧ o < 0x80 then
    if bits d 1 0 = 3 then s.reject q (BitVec.ofNat 32 r.addr) d
    else (s.plainWrite r d).clkWrite (1 + (o - 0x70) / 4) (d &&& r.rw)
  else if 0x100 ≤ o then
    let i := (o - 0x100) / 0x20
    let k := o % 0x20
    if k = 0 then
      let t := s.ranged q r d (s.refCfgOk i d)
      if s.refCfgOk i d && (s.rd r ^^^ d) &&& 0x8F073000#32 != 0 then
        (t.setSafRef i {}).wrB (SAF_REF_STAT i) 3 false
      else t
    else if k = 4 then lim d.toNat 1000 500000000
    else if k = 8 then
      s.ranged q r d (decide (3 ≤ bits d 25 16 ∧ bits d 25 16 ≤ 600 ∧ 1 ≤ bits d 7 0 ∧ bits d 7 0 ≤ 60))
    else s.plainWrite r d
  else s.plainWrite r d

/-- STC (R293, R295, R312). -/
def State.writeStc (s : State) (q : Req) (r : Reg) (o : Nat) (d : Word) : State :=
  if o = 0x10 then (if bit d 0 then s.stcSnapNow else s)
  else if o = 0x38 ∨ o = 0x58 then s.ranged q r d (nsOk d)
  else if o = 0x3C then (if bit d 0 then s.stcApply q else s)
  else if o = 0x5C then s.startCtrl q d
  else s.plainWrite r d

/-- SAP (R239). -/
def State.writeSap (s : State) (q : Req) (r : Reg) (o : Nat) (d : Word) : State :=
  let n := o / 0x100
  let k := o % 0x100
  if o = 0x2000 then s.sapGrpWrite q d
  else if 0x2000 ≤ o then s.plainWrite r d
  else if k = 0 then s.sapCtrlWrite q n d
  else if k = 4 then s.sapFmtWrite q n d
  else if k = 0x10 then s.sapCommit n d
  else if k = 0x40 ∨ k = 0x44 then s.sapRingReg q n (k == 0x40) d
  else if k = 0x48 then s.sapRingCfg q n d
  else s.plainWrite r d

/-- AES (R248). -/
def State.writeAes (s : State) (q : Req) (r : Reg) (o : Nat) (d : Word) : State :=
  let n := (o - 0x800) / 0x100
  let k := o % 0x100
  if 0x800 ≤ o ∧ k = 0 then s.aesTxCtrl q n d
  else if 0x800 ≤ o ∧ k = 8 then s.aesTxCommitW n d
  else s.plainWrite r d

/-- SRC (R249, R252). -/
def State.writeSrc (s : State) (q : Req) (r : Reg) (o : Nat) (d : Word) : State :=
  if o < 0x400 then s.srcChWrite q (o / 4) d
  else if o = 0x400 then s.srcCommitW d
  else s.plainWrite r d

/-- MACn_CTRL (R255, R256, R258). -/
def State.macCtrl (s : State) (q : Req) (n : Nat) (data : Word) : State :=
  let r := MAC_CTRL n
  let d := data &&& r.rw
  let old := s.rd r
  let bad := bits d 3 2 = 3 || (bits d 3 2 = 2 && bit d 1) || (bit old 0 && bits d 3 1 != bits old 3 1) ||
    (bit d 0 && s.netFenced)
  if bad then s.reject q (BitVec.ofNat 32 r.addr) data
  else
    let s := s.plainWrite r d
    let s := if bit d 4 then s else s.wrB (MAC_STAT n) 5 false
    if bit d 0 == bit old 0 then s else s.macEnable n (bit d 0)

/-- A ring's registers of a port (R277): BASE, SIZE, the host's index. -/
def State.macRing (s : State) (q : Req) (n : Nat) (r : Reg) (o : Nat) (d : Word) : State :=
  let k := o % 16
  let still := !(s.rdB (MAC_CTRL n) 0) || (d &&& r.rw) == s.rd r
  if k = 0 then
    s.ranged q r d (still && decide (d.toNat % 32 = 0 ∧ 0x40000000 ≤ d.toNat ∧ d.toNat ≤ 0x403FFFFF))
  else if k = 4 then
    s.ranged q r d (still && (bits d 12 0 == 0 || decide (2 ≤ bits d 12 0 ∧ bits d 12 0 ≤ 4096)))
  else if k = 8 then
    let size := if o < 0x200 then s.rdF (MAC_RXQ_SIZE n ((o - 0x100) / 16)) 12 0
      else s.rdF (MAC_TXQ_SIZE n ((o - 0x200) / 16)) 12 0
    s.ranged q r d (decide (bits d 11 0 < max size 1))
  else s.plainWrite r d

/-- MACn (R277). -/
def State.writeMac (s : State) (q : Req) (r : Reg) (n o : Nat) (d : Word) : State :=
  let lim := fun (x lo hi : Nat) => s.ranged q r d (decide (lo ≤ x ∧ x ≤ hi))
  if o = 0 then s.macCtrl q n d
  else if o = 0x10 then lim (bits d 13 0) 64 9216
  else if o = 0x14 then lim (bits d 15 0) 10 65535
  else if o = 0x20 then s.segAbort n (bits d 7 0)
  else if o = 0x30 then (if bit d 0 then s.stampPop n else s)
  else if o = 0x64 then s.ranged q r d (nsOk d)
  else if o = 0x68 then lim (bits d 29 0) 1000 999999999
  else if o = 0x6C then lim (bits d 6 0) 1 64
  else if o = 0x70 then (if bit d 0 then s.gclCommit n else s)
  else if 0x80 ≤ o ∧ o < 0xA0 then lim (bits d 24 0) 0 (s.portRate n)
  else if 0x100 ≤ o ∧ o < 0x280 then s.macRing q n r o d
  else if 0x400 ≤ o ∧ o < 0x600 ∧ o % 8 = 4 then s.ranged q r d (nsOk d)
  else s.plainWrite r d

/-- The fields of a receive stream as a write of its CTRL would leave them (R278 to R280, R291). -/
def State.rxEnableOk (s : State) (i : Nat) (d : Word) : Bool :=
  let ch := bits d 6 0
  let np := packetN s.fs (bits d 21 20)
  let len := fmtHlen (bits d 26 24) + np * ch * fmtBytes (bits d 26 24) + 4
  let ports := [bits d 29 29] ++ (if bit d 30 then [bits d 28 28] else [])
  let depth := s.rdF (STRM_RX_DEPTH i) 8 0
  let delay := s.rdF (STRM_RX_MAP i) 8 0
  s.strmRate && decide (1 ≤ ch) && ports.all (fun n => decide (len ≤ s.maxlen n)) &&
    decide (s.rdF (STRM_RX_MAP i) 25 16 + ch ≤ 1024 ∧ s.blk + np ≤ depth ∧ delay + s.blk ≤ depth ∧
      s.rdF (STRM_RX_BUF i) 21 4 * 16 + depth * ch * 4 ≤ 0x400000) &&
    (!(fmtRtp (bits d 26 24)) || s.rdF (STRM_RX_KEY1 i) 31 16 == 0)

/-- STRM_RXs_CTRL (R278 to R280, R285, R291). -/
def State.rxCtrl (s : State) (q : Req) (i : Nat) (data : Word) : State :=
  let r := STRM_RX_CTRL i
  let d := data &&& r.rw
  let old := s.rd r
  let bad := bits d 26 24 % 4 = 3 || bits d 21 20 = 3 || (bit d 30 && bits d 29 29 == bits d 28 28) ||
    decide (64 < bits d 6 0) || (bit old 31 && bits d 30 0 != bits old 30 0) ||
    (bit d 31 && !(bit old 31) && !(s.rxEnableOk i d))
  if bad then s.reject q (BitVec.ofNat 32 r.addr) data
  else
    let s := s.plainWrite r d
    if bit d 31 == bit old 31 then s
    else if bit d 31 then
      s.setSrx i { cnt := (s.srx i).cnt, seenA := s.now, seenB := s.now }
    else s.wrF (STRM_RX_STAT i) 3 1 0

/-- STRM_TXt_CTRL (R278 to R280, R291). DEDUCED: assumption 16. -/
def State.txCtrl (s : State) (q : Req) (t : Nat) (data : Word) : State :=
  let r := STRM_TX_CTRL t
  let d := data &&& r.rw
  let old := s.rd r
  let ch := bits d 6 0
  let len := s.rdF (STRM_TX_HDR t) 31 24 +
    packetN s.fs (bits d 21 20) * ch * fmtBytes (bits d 26 24) + 4
  let ok := s.strmRate && decide (bits d 30 29 ≠ 0 ∧ 38 ≤ s.rdF (STRM_TX_HDR t) 31 24 ∧
      s.rdF (STRM_TX_MAP t) 25 16 + ch ≤ 1024) &&
    (upTo 2).all (fun n => !(bit d (30 - n)) || decide (len ≤ s.maxlen n))
  let bad := bits d 26 24 % 4 = 3 || bits d 21 20 = 3 || ch = 0 || decide (64 < ch) ||
    (bit old 31 && bits d 30 0 != bits old 30 0) || (bit d 31 && !(bit old 31) && !ok)
  if bad then s.reject q (BitVec.ofNat 32 r.addr) data
  else
    let s := s.plainWrite r d
    if bit d 31 && !(bit old 31) then (s.setStx t {}).wrF (STRM_TX_STAT t) 2 1 0 else s

/-- STRM (R258, R291): the engine's enable, and the registers of each stream. -/
def State.writeStrm (s : State) (q : Req) (r : Reg) (o : Nat) (d : Word) : State :=
  let i := o % 0x1000 / 0x20
  let k := o % 0x20
  let same := fun e : Bool => !e || (d &&& r.rw) == s.rd r
  if o = 0 then
    if bit d 0 && s.netFenced then s.reject q (BitVec.ofNat 32 r.addr) d
    else
      let on := bit d 0 && !(s.rdB r 0)
      let s := s.plainWrite r d
      if on then
        let s := s.each ((upTo 128).filter (fun i => s.rdB (STRM_RX_CTRL i) 31)) (fun s i =>
          s.setSrx i { cnt := (s.srx i).cnt, seenA := s.now, seenB := s.now })
        s.each ((upTo 128).filter (fun t => s.rdB (STRM_TX_CTRL t) 31)) (fun s t => s.setStx t {})
      else s
  else if 0x1000 ≤ o ∧ o < 0x2000 then
    let c := s.rd (STRM_RX_CTRL i)
    if k = 0 then s.rxCtrl q i d
    else if k = 0x18 then s
    else
      s.ranged q r d (same (bit c 31) &&
        (if k = 8 then !(fmtRtp (bits c 26 24)) || bits d 31 16 == 0
         else if k = 0xC then decide (bits d 25 16 + bits c 6 0 ≤ 1024 ∧ bits d 8 0 ≤ 383)
         else if k = 0x10 then
           decide (bits d 21 4 * 16 + s.rdF (STRM_RX_DEPTH i) 8 0 * bits c 6 0 * 4 ≤ 0x400000)
         else if k = 0x14 then
           decide (s.blk + packetN s.fs (bits c 21 20) ≤ bits d 8 0 ∧ bits d 8 0 ≤ 384 ∧
             s.rdF (STRM_RX_MAP i) 8 0 + s.blk ≤ bits d 8 0)
         else true))
  else if 0x2000 ≤ o then
    let c := s.rd (STRM_TX_CTRL i)
    if k = 0 then s.txCtrl q i d
    else if k = 0x10 then s
    else
      s.ranged q r d (same (bit c 31) &&
        (if k = 4 then decide (bits d 25 16 + bits c 6 0 ≤ 1024)
         else if k = 8 then decide (38 ≤ bits d 31 24 ∧ bits d 31 24 ≤ 128) else true))
  else s.plainWrite r d

/-- DNG (R316, R325). -/
def State.writeDng (s : State) (q : Req) (r : Reg) (o : Nat) (d : Word) : State :=
  if 0x100 ≤ o ∧ o % 0x100 = 0 then
    let n := o / 0x100 - 1
    let was := s.rdB r 0
    if bits d 7 4 = 0 then s.reject q (BitVec.ofNat 32 r.addr) d
    else
      let s := s.plainWrite r d
      if was == bit d 0 then s else s.dngEnable n (bit d 0)
  else s.plainWrite r d

/-- ANI (R347). -/
def State.writeAni (s : State) (q : Req) (r : Reg) (o : Nat) (d : Word) : State :=
  if o = 0 then s.aniCtrl q d
  else if o = 0x10 then s.aniCmd d
  else s.plainWrite r d

/-- MXM (R138, R144, R149, R158). -/
def State.writeMxm (s : State) (q : Req) (r : Reg) (o : Nat) (d : Word) : State :=
  if 0x40 ≤ o ∧ o < 0x60 then s.flipWrite ((o - 0x40) / 4) d
  else if 0x400 ≤ o ∧ o < 0x800 then s.ranged q r d (decide (bits d 24 20 ≤ 16 ∧ 1 ≤ bits d 19 0))
  else if 0x1000 ≤ o ∧ o < 0x1400 then
    let m : Fin 4 := Fin.ofNat 4 ((o - 0x1000) / 0x100)
    let k := o % 0x100
    if k = 0 then s.morphCtrl m (bit d 0) (bit d 1)
    else if k = 0x14 ∨ k = 0x18 then s.plainWrite r d
    else
      s.ranged q r d (s.slotState m == 0 &&
        (if k = 4 then decide (1 ≤ bits d 19 0) else if k = 0x10 then nsOk d else true))
  else s.plainWrite r d

/-- PRT (R174, R175). -/
def State.writePrt (s : State) (q : Req) (r : Reg) (o : Nat) (d : Word) : State :=
  if 0x800 ≤ o then
    let g := (o - 0x800) / 16
    let k := o % 16
    s.ranged q r d
      (if k = 0 then !(bit d 1) || g == 12
       else if k = 4 then !(bit d 31)
       else if g < 8 then !(bit d 31)
       else if g < 12 then d != 0
       else decide (1 ≤ bits d 19 0))
  else s.plainWrite r d

/-- HIF (R353, R366). -/
def State.writeHif (s : State) (q : Req) (r : Reg) (o : Nat) (d : Word) : State :=
  if o = 0x2C then s.rearm q (bits d 7 0)
  else if 0x400 ≤ o ∧ o % 0x20 = 0 then s.dmaCtrl q 4 ((o - 0x400) / 0x20) d
  else s.plainWrite r d

/-- HSE (R354, R367): a mailbox belongs to its function. -/
def State.writeHse (s : State) (q : Req) (r : Reg) (o : Nat) (d : Word) : State :=
  let m := o / 0x100
  let k := o % 0x100
  if 0x400 ≤ o then s.plainWrite r d
  else if !(mbUser q m) then s
  else if k = 0 then s.ranged q r d (!(s.mbBusy m) && decide (bits d 20 16 ≤ 16))
  else if k = 4 then (if bit d 0 then s.mbGo q m else s)
  else if k = 0xC then s.ranged q r d (decide (1 ≤ bits d 9 0 ∧ bits d 9 0 ≤ 1000))
  else if 0x40 ≤ k ∧ k < 0x80 then s.ranged q r d (!(s.mbBusy m))
  else s.plainWrite r d

/-- CDMA (R368). -/
def State.writeCdma (s : State) (q : Req) (r : Reg) (o : Nat) (d : Word) : State :=
  let k := o % 0x400
  if k < 0x100 ∧ k % 0x20 = 0 then s.dmaCtrl q (o / 0x400) (k / 0x20) d else s.plainWrite r d

/-- TST (R188). -/
def State.writeTst (s : State) (q : Req) (r : Reg) (o : Nat) (d : Word) : State :=
  if o = 0x410 then s.ranged q r d (decide (bits d 9 0 ≤ 727)) else s.plainWrite r d

/-- A staged slice-table register (R107, R120). -/
def State.writeSlt (s : State) (q : Req) (r : Reg) (e sl k : Nat) (d : Word) : State :=
  let id := e * 64 + sl
  let busy := s.rdB CLV_MIG_STAT 0 && (decide (id = s.mig.src) || decide (id = s.mig.dst))
  s.ranged q r d (!busy &&
    (if k = 0 then
       decide (bits d 30 29 ≠ 3 ∧ bits d 12 0 ≤ 6143) && !(bits d 30 29 == 2 && !(bit d 28)) &&
         !(bit d 31 && s.rdF (SLT_BUDGET e sl) 19 0 == 0)
     else if k = 4 then decide (bits d 13 0 ≤ 0x3BFF)
     else if k = 8 then
       decide (4 ≤ bits d 19 0) || (bits d 19 0 == 0 && !(s.rdB (SLT_CTRL e sl) 31))
     else if k = 0x10 then
       decide (bits d 31 24 + bits d 22 16 ≤ 128 ∧ bits d 6 0 ≤ 95 ∧ bits d 14 8 + bits d 6 0 ≤ 96)
     else true))

/-- The registers of an engine (R72, R120). -/
def State.writeEng (s : State) (q : Req) (r : Reg) (e o : Nat) (d : Word) : State :=
  if o = 4 then s.ranged q r d (!(bit d 0 && s.engFenced e))
  else if o = 0xC then s.ranged q r d (decide (8 ≤ bits d 15 0))
  else if o = 0x10 then s.ranged q r d (decide (bits d 12 0 ≤ 6143))
  else if o = 0x40 then s.sltCommit e d
  else if 0x1000 ≤ o ∧ o < 0x1800 then s.writeSlt q r e ((o - 0x1000) / 0x20) (o % 0x20) d
  else s.plainWrite r d

/-- A write that has reached its register. -/
def State.writeReg (s : State) (q : Req) (a : Nat) (d : Word) : State :=
  match regAt a with
  | none => s
  | some r =>
    if a < 0x50000000 then s.writeEng q r ((a - 0x20000000) / 0x80000) (a % 0x80000 - 0x70000) d
    else
      let o := a % 0x10000
      match (a - 0x50000000) / 0x10000 with
      | 0 => s.writeSys q r o d
      | 1 => s.writePwr q r o d
      | 2 => s.writeBmx q r o d
      | 3 => s.writeClv q r o d
      | 4 => s.writeSaf q r o d
      | 5 => s.writeStc q r o d
      | 6 => s.writeSap q r o d
      | 7 => s.writeAes q r o d
      | 8 => s.writeSrc q r o d
      | 9 => s.writeMac q r 0 o d
      | 10 => s.writeMac q r 1 o d
      | 11 => s.writeStrm q r o d
      | 12 => s.writeDng q r o d
      | 13 => s.writeAni q r o d
      | 14 => s.writeMxm q r o d
      | 15 => s.writePrt q r o d
      | 16 => s.writeHif q r o d
      | 17 => s.writeHse q r o d
      | 18 => s.writeCdma q r o d
      | 19 => s.writeTst q r o d
      | _ => s.plainWrite r d

/-- The register at an address; an unlisted offset is a reserved word of its block (R6). -/
def regOr (a : Nat) : Reg := (regAt a).getD { addr := a, reset := 0 }

/-- A write of one whole word to register space, with its response. A post goes to its port, which answers it
on an active and on a standby too (R330, R331). -/
def State.busWriteReg (s : State) (q : Req) (a : Nat) (d : Word) : State :=
  if isPostHdr a && writerOk q (regOr a) then
    let s := s.respond 0 false
    if s.held then s else s.writeReg q a d
  else s.gated q (regOr a) d (fun s => s.writeReg q a d)

/-- REGISTER_WRITE (R5, R6, R10, R11). DESIGN CHOICE: assumption 14. -/
def State.registerWrite (s : State) (q : Req) (a : Nat) (d : Word) (be : BitVec 4) : State :=
  if be != 0xF#4 || a % 4 != 0 || !(isRegAddr a) then s.respond 0 true else s.busWriteReg q a d

def execRegisterWrite (r : Req) (addr : BitVec 32) (data : Word) (be : BitVec 4) (s : State) : Out :=
  done (s.registerWrite r addr.toNat data be)
def execDmaGo (r : Req) (u : Fin 5) (c : Fin 8) (s : State) : Out :=
  done (if c.val < dmaChans u then
    s.gated r (dmaReg u c 0) 1#32 (fun s => s.dmaCtrl r u c (setBit 1#32 8 (s.rdB (dmaReg u c 0) 8))) else s)
def execDmaAbort (r : Req) (u : Fin 5) (c : Fin 8) (s : State) : Out :=
  done (if c.val < dmaChans u then
    s.gated r (dmaReg u c 0) 2#32 (fun s => s.dmaCtrl r u c (setBit 2#32 8 (s.rdB (dmaReg u c 0) 8))) else s)

end Sys2Proof.Machine
end

