-- ==== Sys2Proof/Machine/RegRead.lean ====
section
/-! DEFINITION. Reads of registers (R7, R8, R193, R403): the values that show the state of a unit, the fields
that a read clears, and READ_CLEAR. -/

namespace Sys2Proof.Machine

/-- A number made of fields: value and lowest bit. -/
def pack (l : List (Nat × Nat)) : Word := BitVec.ofNat 32 ((l.map (fun x => x.1 * 2 ^ x.2)).foldl (· + ·) 0)

/-- A word whose bit i says whether `p i`, for i below n. -/
def bitsOf (n : Nat) (p : Nat → Bool) : Word := (upTo n).foldl (fun w i => setBit w i (p i)) 0

/-- ENG_STAT.window (R72). -/
def winCode : Window → Nat
  | .none => 0
  | .strip => 1
  | .sum => 2
  | .bus => 3
  | .tail => 4

/-- Whether an engine is gated (R369, R371). -/
def State.engGated (s : State) (e : Nat) : Bool :=
  s.rdF PWR_STAT 2 0 = 1 || (!(s.eng e).active && (s.outOf e).isNone)

/-- Registers that show an engine's state (R72). -/
def State.showEng (s : State) (r : Reg) (e o : Nat) : Word :=
  let g := s.eng e
  if o = 0 then pack [(e / 8, 8), (e, 0)]
  else if o = 8 then
    pack [(g.far.length, 16), (b2n (g.cur.isSome || g.draining.isSome), 14), (g.cur.getD (g.draining.getD 0), 8),
      (b2n (s.rdB (ENG_CTRL e) 0 != g.active), 5), (b2n g.active, 4), (b2n g.inEvt, 3), (winCode s.frame.win, 0)]
  else if o = 0x38 then pack [(g.far.length, 16)] ||| bitsOf 16 (fun t => g.far.any (fun x => x.tag.val == t))
  else s.rd r

/-- Units gated in Run (R369): the unit of a register block with several parts is gated while each is. In S1 every unit
of R369 is (R371). DEDUCED: assumption 20. -/
def State.gateStat (s : State) : Word :=
  bitsOf 21 (fun n =>
    if s.rdF PWR_STAT 2 0 = 1 then decide (6 ≤ n ∧ n ≤ 12 ∨ n = 14 ∨ n = 15)
    else if n = 14 ∨ n = 15 then !(s.rdB SYS_FRM_STAT 0)
    else if n = 6 then (upTo 24).all (fun p => !(s.sapRunning p))
    else if n = 7 then (upTo 8).all (fun p => !(s.rdB (AES_RX_CTRL p) 0) && !(s.rdB (AES_TX_CTRL p) 0))
    else if n = 8 then s.src.all (fun x => x.2.st == .idle)
    else if n = 9 ∨ n = 10 then s.macLink (n - 9) == 0
    else if n = 11 then !(s.rdB STRM_CTRL 0)
    else if n = 12 then (upTo 4).all (fun l => s.dngState l == 0)
    else false)

/-- CLV_FLOW_STAT (R221). -/
def State.flowStat (s : State) : Word :=
  let f := s.rdF CLV_FLOW_SEL 11 0
  let h := s.head? f
  let house := decide (2048 ≤ f ∧ f < 2304)
  pack [(if house then s.affinity f else 0, 28), (b2n (s.flowOut f), 27), (b2n (h.any s.ready), 26),
    ((h.map Ev.cls).getD 0, 24), (if f < 2048 then s.epochOf f else 0, 16), (s.depth f, 0)]

/-- Whether an input or output of the converters has a channel that delivers (R228, R249). -/
def State.converted (s : State) (kind dir ix : Nat) : Bool :=
  match s.servedBy kind dir ix with
  | some c => (s.srcCh c).deliver
  | none => false

/-- SRC_CHSTAT, SRC_RATIO and SRC_INRATE of the channel in SRC_SEL (R250, R254). The ratio is that of the rate in
whole hertz, as in the worked example. DEDUCED: assumption 44. -/
def State.showSrc (s : State) (o : Nat) : Word :=
  let x := s.srcCh (s.rdF SRC_SEL 7 0)
  if o = 0x408 then
    pack [(b2n x.conflict, 3), (b2n x.outRange, 2), (match x.st with | .idle => 0 | .acquiring => 1 | .locked => 2, 0)]
  else if x.st = .idle then 0
  else if o = 0x40C then
    BitVec.ofNat 32 (min (2 ^ 32 - 1) (x.hz * 2 ^ 29 / s.fs))
  else BitVec.ofNat 32 (min (2 ^ 18 - 1) x.hz)

/-- PRT_STAT and the peek registers (R175). -/
def State.showPrt (s : State) (r : Reg) (o : Nat) : Word :=
  let i := s.rdF PRT_PEEK_IDX 12 0
  if o = 4 then
    pack [(s.pendingSinks.length, 16),
      ((s.router.sinks.filter (fun x => !x.2.terms.isEmpty && decide (x.2.count < x.2.len))).length, 0)]
  else if o = 0x24 then (if sinkAllocated i then s.sinkInForce i else 0)
  else if o = 0x28 then pack [(b2n (s.waitsTerm i), 2), ((s.sink i).terms.length, 0)]
  else s.rd r

/-- SAPn_UNCONV (R228). -/
def State.unconv (s : State) (n : Nat) : Word :=
  bitsOf (s.sapSlots n) (fun k =>
    s.sapAsync n && s.rdB (SAP_RXMASK_LIVE n) k && !(s.converted 1 0 (32 * n + k)))

/-- Registers of the ports that show state (R228, R239, R246, R247, R248). -/
def State.showPort (s : State) (r : Reg) (blk o : Nat) : Word :=
  let n := o % 0x800 / 0x100
  let w := s.rd r
  if blk = 6 then
    if o = 0x2008 then bitsOf 24 (fun n => s.flagged (SAP_INT n) (SAP_IEN n))
    else if o < 0x1800 ∧ o % 0x100 = 0x64 then s.unconv (o / 0x100)
    else w
  else if o % 0x100 = 4 then
    if o < 0x800 then
      let on := (s.aesR n).on && !((s.aesR n).sync)
      setBit (setBit w 4 (on && !(s.converted 0 0 (2 * n)))) 5 (on && !(s.converted 0 0 (2 * n + 1)))
    else
      let on := bit w 0
      setBit (setBit w 1 (on && s.aesUnconv n 0)) 2 (on && s.aesUnconv n 1)
  else w

/-- Registers of the network and the streams that show state (R258, R267, R272, R291). -/
def State.showNet (s : State) (r : Reg) (blk o : Nat) : Word :=
  let w := s.rd r
  if blk = 11 then
    let i := o % 0x1000 / 0x20
    if o = 4 then
      pack [(((upTo 128).filter s.txRuns).length, 16), (((upTo 128).filter s.rxRuns).length, 0)]
    else if 0x20 ≤ o ∧ o < 0x3C then sget 0 (s.srx (s.rdF STRM_SEL 6 0)).cnt ((o - 0x20) / 4)
    else if 0x1000 ≤ o ∧ o < 0x2000 ∧ o % 0x20 = 0x18 then setBit w 0 (s.rxRuns i)
    else if 0x2000 ≤ o ∧ o % 0x20 = 0x10 then setBit w 0 (s.txRuns i && !(bit w 1) && !(bit w 2))
    else w
  else
    let n := blk - 9
    if o = 4 then setBit w 2 s.netFenced
    else if o = 0x24 then bitsOf 8 (s.segHead n)
    else if o = 0x74 then setBit w 0 ((s.mac n).oper.isNone || !(s.rdB (MAC_CTRL n) 6))
    else w

/-- A repair unit's findings (R183, R188); 0 before the self-test is done. -/
def State.unitInfo (s : State) : Word :=
  let u := s.unit (s.rdF TST_MEM_UNIT 9 0)
  if s.rdB TST_MEM_STAT 31 then pack [(b2n u.fenced, 31), (u.failCols, 16), (u.soft, 4), (u.hard, 0)] else 0

/-- What a read of a register returns, but for write-only fields. -/
def State.showReg (s : State) (r : Reg) (a : Nat) : Word :=
  if a < 0x50000000 then s.showEng r ((a - 0x20000000) / 0x80000) (a % 0x80000 - 0x70000)
  else
    let o := a % 0x10000
    match (a - 0x50000000) / 0x10000 with
    | 0 => if o = 0 then Config.sysId Config.revision else s.rd r
    | 1 => if o = 0x20 then s.gateStat
           else if o = 0x24 then bitsOf 32 s.engGated
           else s.rd r
    | 2 => if o = 0 then
             s.rd r ||| bitsOf 30 (fun t => decide (16 ≤ t) &&
               ((s.holder (t - 16)).isSome || s.bmx.locks.any (fun l => l.1 == t - 16)))
           else s.rd r
    | 3 => if o = 0 then BitVec.ofNat 32 s.freeBufs else if o = 0x44 then s.flowStat else s.rd r
    | 6 => s.showPort r 6 o
    | 7 => s.showPort r 7 o
    | 8 => if o = 0x408 ∨ o = 0x40C ∨ o = 0x410 then s.showSrc o else s.rd r
    | 9 => s.showNet r 9 o
    | 10 => s.showNet r 10 o
    | 11 => s.showNet r 11 o
    | 15 => s.showPrt r o
    | 16 => if o = 0x20 then s.isum else if o = 0x24 then s.isumEng
            else if 0x400 ≤ o ∧ o % 0x20 = 0 then setBit (s.rd r) 1 (s.dmaCh 4 ((o - 0x400) / 0x20)).abort
            else s.rd r
    | 18 => if o % 0x400 < 0x100 ∧ o % 0x20 = 0 then
              setBit (s.rd r) 1 (s.dmaCh (o / 0x400) (o % 0x400 / 0x20)).abort
            else s.rd r
    | 19 => if o = 0x414 then s.unitInfo else s.rd r
    | _ => s.rd r

/-- The fields that a read clears (R7, R403): an extremum is empty afterwards, and the counters at
STRM_SEL's stream are that stream's (R291). -/
def State.readClears (s : State) (r : Reg) : State :=
  let a := r.addr
  let s := if r.rc = 0 then s else s.upd r (fun w => w &&& ~~~r.rc)
  if a = SYS_FRM_DEV.addr then { s with frame := { s.frame with devSeen := false } }
  else if a = PWR_TPEAK.addr then { s with pwr := { s.pwr with peakSeen := false } }
  else if 0x500B0020 ≤ a ∧ a < 0x500B003C then
    let i := s.rdF STRM_SEL 6 0
    let x := s.srx i
    s.setSrx i { x with cnt := sset 0 x.cnt ((a - 0x500B0020) / 4) 0 }
  else s

/-- A read of a register by a requester: its data, and the state after it. What the other function reads of a
mailbox the spec does not say (R354). DESIGN CHOICE: assumption 19. -/
def State.readReg (s : State) (q : Req) (a : Nat) : Word × State :=
  match regAt a with
  | none => (0, s)
  | some r =>
    let s := if 0x50030000 ≤ a ∧ a < 0x50040000 then s.cloveHost
      else if 0x500C0000 ≤ a ∧ a < 0x500D0000 then s.each (upTo 4) (fun s n => s.lineRun n)
      else s
    if 0x50110000 ≤ a ∧ a < 0x50110200 ∧ !(mbUser q ((a - 0x50110000) / 0x100)) then s.freeWord
    else (s.showReg r a &&& ~~~r.wo, s.readClears r)

/-- READ_CLEAR (R5, R7, R8, R403), and a read of any register. -/
def State.readClear (s : State) (q : Req) (a : Nat) : State :=
  if a % 4 != 0 || !(isRegAddr a) then s.respond 0 true
  else
    let x := s.readReg q a
    x.2.respond x.1 false

def execReadClear (r : Req) (addr : BitVec 32) (s : State) : Out := done (s.readClear r addr.toNat)

end Sys2Proof.Machine
end

