-- ==== Sys2Proof/Machine/BusRegs.lean ====
section
/-! DEFINITION. BMX_BEAT_SERVE with the beats of register space (R5, R54, R193, R195), and the host's requests:
PCIE_TLP_RECEIVE with their division into transactions (R192, R349) and the MSI-X table (R348, R353). -/

namespace Sys2Proof.Machine

/-- The requester of a transaction. -/
def Req.ofTxn (t : Txn) : Req := ⟨t.master, t.guest⟩

/-- A beat at REGS (R193). -/
def State.regsBeat (s : State) (x : BusTxn) (a : Nat) (b : Beat) : State :=
  match oneWord b.strb with
  | none => s.errBeat x
  | some k =>
    if x.txn.beats.length ≠ 1 then s.errBeat x
    else if x.txn.write then
      (s.busWriteReg (Req.ofTxn x.txn) (a + 4 * k) (beatWord b.data k)).beatDone x 0
    else
      let r := s.readReg (Req.ofTxn x.txn) (a + 4 * k)
      r.2.beatDone x (BitVec.ofNat 256 (r.1.toNat * 2 ^ (32 * k)))

/-- A beat at the register block of an engine window (R5, R54): each word that the transaction touches is strobed whole,
or none of its registers changes. A transaction is one access for R5. DEDUCED: assumption 18. -/
def State.engRegsBeat (s : State) (x : BusTxn) (a : Nat) (b : Beat) : State :=
  let ks := (upTo 8).filter (fun k => b.strb.getLsbD (4 * k))
  if x.txn.splits 4 then s.errBeat x
  else if x.txn.write then
    (s.each ks (fun s k => s.busWriteReg (Req.ofTxn x.txn) (a + 4 * k) (beatWord b.data k))).beatDone x 0
  else
    let r := ks.foldl (fun (r : Nat × State) k =>
      let y := r.2.readReg (Req.ofTxn x.txn) (a + 4 * k)
      (r.1 + y.1.toNat * 2 ^ (32 * k), y.2)) (0, s)
    r.2.beatDone x (BitVec.ofNat 256 r.1)

/-- The next beat of a granted transaction at its target (R135, R195, R201). -/
def State.beatServe (s : State) (x : BusTxn) : State :=
  match x.next? with
  | none => s
  | some (a, b) =>
    if s.mxmHeld x then s
    else if isRegAddr a then
      if x.killed && x.txn.write then s.beatDone x 0
      else if x.target = 13 then s.regsBeat x a b
      else s.engRegsBeat x a b
    else s.memBeat x

/-- BMX_BEAT_SERVE (R195, R200): a target serves a beat; 15 is DEFAULT. -/
def State.serve (s : State) (t : Nat) : State :=
  if t = 15 then s.defaultBeat
  else match s.holder t with
    | some x => s.beatServe x
    | none => s

/-- The runs of a request's bytes that become one transaction each, as first address and length (R192, R349):
dwords in register space; else the whole request, or where that makes more than 16 beats its parts between
512-byte boundaries. -/
def tlpParts (a n : Nat) : List (Nat × Nat) :=
  stepParts (if 0x50000000 ≤ a ∧ a < 0x60000000 then 4
    else if (a + n - 1) / 32 - a / 32 < 16 then n + a else 512) a n

/-- The transaction of a part of a request. -/
def tlpTxn (fn : Nat) (write : Bool) (a : Nat) (d : List (Byte × Bool)) (p : Nat × Nat) : Txn :=
  runTxn ⟨6, fn == 1⟩ write false p.1 ((d.drop (p.1 - a)).take p.2)

/-- A memory request of the host (R349): its transactions wait for the master port in order of arrival. -/
def State.hostReq (s : State) (fn : Nat) (write : Bool) (a : Nat) (d : List (Byte × Bool)) : State :=
  if d.isEmpty || decide (2 ^ 31 < a + d.length) then s
  else
    let ts := (tlpParts a d.length).map (tlpTxn fn write a d)
    let id := s.nextReq
    let r : HostReq := { id := id, fn := fn, read := !write, addr := a, len := d.length, left := ts.length }
    ({ s with reqs := s.reqs ++ [r], nextReq := id + 1, portWait := s.portWait ++ ts.map (fun t => (Origin.tlp id, t)) }).portGo

/-- The condition of vector v as function fn sees it (R352). -/
def State.fnCond (s : State) (fn v : Nat) : Bool :=
  if v = 1 then s.vecCond (if fn = 0 then 1 else 65) else s.vecFn v == fn && s.vecCond v

/-- A function's MSI-X state changes: what is pending and now passes is sent, if its condition is still true (R353). -/
def State.msixPut (s : State) (fn : Nat) (m : Msix) : State :=
  let out := m.pending.filter m.passes
  let h := s.hif.setMsix fn { m with pending := m.pending.filter (fun v => !(m.passes v)) }
  { s with hif := { h with msgs := h.msgs ++ (out.filter (s.fnCond fn)).map (fun v => (fn, v)) } }

/-- A write to BAR2 (R348, R353): the MSI-X table; a vector unmasked while pending is sent if its condition is
still true. -/
def State.msixWrite (s : State) (fn off : Nat) (d : Word) : State :=
  let i := off / 4
  let v := i / 4
  let m := s.hif.msix fn
  if off < 0x400 then
    if i % 4 = 3 then
      if bit d 0 then
        { s with hif := s.hif.setMsix fn { m with unmasked := m.unmasked.filter (· != v) } }
      else s.msixPut fn { m with unmasked := if m.unmasked.contains v then m.unmasked else m.unmasked ++ [v] }
    else { s with hif := s.hif.setMsix fn { m with table := sset 0 m.table i d } }
  else s

/-- A read of BAR2 (R348): the table, the pending bits at 0x2000, else 0. -/
def State.msixRead (s : State) (fn off : Nat) : Word :=
  let i := off / 4
  let m := s.hif.msix fn
  if off < 0x400 then
    (if i % 4 = 3 then (if m.unmasked.contains (i / 4) then 0 else 1) else sget 0 m.table i)
  else if 0x2000 ≤ off ∧ off < 0x2008 then bitsOf 32 (fun b => m.pending.contains (32 * ((off - 0x2000) / 4) + b))
  else 0

/-- What a configuration item reads (R348, R350). PRESUMED, from PCI Express: assumption 113. -/
def State.cfgRead (s : State) (fn : Nat) : CfgItem → Word
  | .ids => BitVec.ofNat 32 (0x51240000 + s.boot.vendor % 65536)
  | .classCode => 0x040100#32
  | .subsystem => s.boot.subsys
  | .msixControl => pack [(b2n (s.hif.msix fn).on, 15), (b2n (s.hif.msix fn).mask, 14), (63, 0)]
  | .deviceControl => let x := sget (0, 2) s.hif.sizes fn; pack [(x.2, 12), (x.1, 5)]
  | .aerStatus => pack [(b2n (s.hif.aer.contains fn), 15)]

/-- A configuration write (R348): a payload size of 128 to 512 bytes, a read request size of 128 to 4,096 bytes, the MSI-X
enable and function mask, the error status cleared. PRESUMED, from PCI Express: assumption 113. -/
def State.cfgWrite (s : State) (fn : Nat) (i : CfgItem) (d : Word) : State :=
  match i with
  | .ids | .classCode | .subsystem => s
  | .msixControl => s.msixPut fn { s.hif.msix fn with on := bit d 15, mask := bit d 14 }
  | .deviceControl =>
    if bits d 7 5 ≤ 2 ∧ bits d 14 12 ≤ 5 then
      { s with hif := { s.hif with sizes := sset (0, 2) s.hif.sizes fn (bits d 7 5, bits d 14 12) } }
    else s
  | .aerStatus => if bit d 15 then { s with hif := { s.hif with aer := s.hif.aer.filter (· != fn) } } else s

/-- A read whose word is there at once completes after the reads before it (R349). -/
def State.hostWord (s : State) (fn : Nat) (w : Word) : State :=
  let r : HostReq := { id := s.nextReq, fn := fn, read := true, addr := 0, len := 4, left := 0,
                       data := (leBytes 4 w.toNat).zipIdx.map (fun x => (x.2, x.1)) }
  ({ s with reqs := s.reqs ++ [r], nextReq := s.nextReq + 1 } : State).reqFlush

/-- A request of the host is carried out (R348, R349): one to memory becomes transactions, of which a byte that is not
enabled is not strobed. -/
def State.tlpNow (s : State) (t : Tlp) : State :=
  match t with
  | .read fn a en => s.hostReq fn false a.toNat (en.map (fun b => (0, b)))
  | .write fn a d => s.hostReq fn true a.toNat d
  | .msixWrite fn off d => s.msixWrite fn off.toNat d
  | .msixRead fn off => s.hostWord fn (s.msixRead fn off.toNat)
  | .cfgRead fn i => s.hostWord fn (s.cfgRead fn i)
  | .cfgWrite fn i d => s.cfgWrite fn i d

/-- PCIE_TLP_RECEIVE (R349, R350, R353, R372): any TLP wakes S2 and S3, and completes after the exit.
DEDUCED: assumption 67. -/
def State.tlp (s : State) (t : Tlp) : State :=
  let s := if s.stay = some 2 || s.stay = some 3 then s.wakeEvent 17 else s
  if s.asleep then { s with hif := { s.hif with later := s.hif.later ++ [t] } } else s.tlpNow t

/-- The requests that waited for the exit from S2 or S3 (R372). -/
def State.tlpLate (s : State) : State :=
  ({ s with hif := { s.hif with later := [] } } : State).each s.hif.later State.tlpNow

def execBmxBeatServe (t : Fin 16) (s : State) : Out := done (s.serve t)
def execPcieTlpReceive (t : Tlp) (s : State) : Out := done (s.tlp t)

/-- POWER_STATE_EXIT (R371, R372, R373, R374): a stay ends at its wake event, and the requests that waited for it follow. -/
def State.wakeUp (s : State) : State :=
  let s := s.pwrExit
  if s.asleep then s else s.tlpLate

def execPowerStateExit (s : State) : Out := done s.wakeUp

end Sys2Proof.Machine
end

