-- ==== Sys2Proof/Machine/Dma.lean ====
section
/-! DEFINITION. DMA_TRANSACTION_ISSUE (R362 to R364): the channels of a unit issue one transaction each in
turn, a descriptor's fetch, a read or a write of bytes to move, or its write-back, under the arbitration and the order of
the Bus Matrix. What a transaction's end does is in Machine/DmaChan.lean. -/

namespace Sys2Proof.Machine

/-- A channel issues a transaction on a run of bytes at a device address (R363). -/
def State.dmaSend (s : State) (u c : Nat) (write : Bool) (a : Nat) (bytes : List Byte) (k : DmaStep) : State :=
  let n := s.bmx.nextId
  (s.setDmaCh u c { s.dmaCh u c with busy := some n }).acceptTxn
    (runTxn (s.dmaReq u c) write false a (bytes.map (fun b => (b, true)))) (.dma u c n k)

/-- The write-back of word 7 (R362) to the descriptor in CUR. -/
def State.dmaBack (s : State) (u c status err : Nat) : State :=
  let w := pack [(1, 31), (status, 28), (err, 24), (s.dmaMoved u c, 0)]
  s.dmaSend u c true ((s.rd (dmaReg u c 2)).toNat + 28) (leBytes 4 w.toNat) (.back status err)

/-- The next move of a descriptor's bytes (R363): the write of what has been read, or the next read; what the host
returns for a read of its memory, asked for under the requester ID of the channel's function, is `host`, and a return that
is short is an error. -/
def State.dmaMove (s : State) (u c : Nat) (d : Desc) (host : List Byte) : State :=
  let ch := s.dmaCh u c
  let moved := s.dmaMoved u c
  let n := d.step moved
  if !ch.buf.isEmpty then s.dmaSend u c true (d.dst + moved) ch.buf .write
  else if !d.srcHost then s.dmaSend u c false (d.src + moved) (List.replicate n 0) .read
  else
    let s := { s with hif := { s.hif with asked := s.hif.asked ++ [(b2n (s.dmaReq u c).guest, d.src + moved, n)] } }
    if host.length < n then s.dmaBack u c 2 2
    else (s.setDmaCh u c { ch with buf := host.take n }).dmaSend u c true (d.dst + moved) (host.take n) .write

/-- A running channel's next transaction; an abort takes effect before it, but not between the read and the write of one
move, and the descriptor in progress takes its status, fetched or not (R364). -/
def State.dmaTxn (s : State) (u c : Nat) (host : List Byte) : State :=
  let ch := s.dmaCh u c
  let d := descOf ch.desc
  let done_ := decide (d.len ≤ s.dmaMoved u c)
  match ch.stop with
  | some (status, err) => s.dmaBack u c status err
  | none =>
    if ch.abort && ch.buf.isEmpty then
      if d.last && done_ && !ch.desc.isEmpty then s.dmaBack u c 3 0
      else s.dmaBack u c 2 1
    else if ch.desc.isEmpty then s.dmaSend u c false (s.rd (dmaReg u c 2)).toNat (List.replicate 32 0) .fetch
    else if done_ then s.dmaBack u c 1 0
    else s.dmaMove u c d host

/-- The channel of a unit whose turn it is: the next that runs and awaits no transaction. -/
def State.dmaNext (s : State) (u : Nat) : Option Nat :=
  let n := dmaChans u
  ((upTo n).map (fun i => ((s.dmaUnit u).turn + i) % n)).find? (fun c =>
    s.dmaRunning u c && (s.dmaCh u c).busy.isNone)

/-- Whether a unit's master port takes a transaction of a channel now (R191). -/
def State.dmaOpen (s : State) (u : Nat) : Bool :=
  s.portFree (dmaMaster u) && !(s.portWait.any (fun w => w.2.master.val == dmaMaster u))

/-- DMA_TRANSACTION_ISSUE (R363): the channel whose turn it is. DEDUCED: assumption 60. -/
def State.dmaIssue (s : State) (u : Nat) (host : List Byte) : State :=
  match s.dmaNext u with
  | none => s
  | some c =>
    if s.dmaOpen u then
      let s := s.dmaTxn u c host
      { s with dma := sset {} s.dma u { s.dmaUnit u with turn := (c + 1) % dmaChans u } }
    else s

def execDmaTransactionIssue (u : Fin 5) (hostData : List Byte) (s : State) : Out := done (s.dmaIssue u hostData)

end Sys2Proof.Machine
end

