-- ==== Sys2Proof/Machine/Anise.lean ====
section
/-! DEFINITION. Anise's work at a tick (R332 to R345): epochs, commit and status records, their application, the
state table, takeover and release, mirrored inputs, the mirror copy; and the records received. -/

namespace Sys2Proof.Machine

/-- The CRC of a record over delta bytes and its words 0 to 6 (R334). -/
def recCrc (deltas : List Byte) (ws : List Word) : Word := crc32 (deltas ++ wordBytes (ws.take 7))

/-- A fixed record as this device sends it (R334). -/
def State.aniRecord (s : State) (kind : Nat) (k seq wseq hash : Word) (rel : Bool) (deltas : List Byte) : AniRecord :=
  let ws := [pack [(kind, 24), (s.aniState, 16), (s.aniTerm, 0)], k, seq, wseq, hash,
    pack [(b2n (s.rdB ANI_CTRL 10), 1), (b2n rel, 0)], BitVec.ofNat 32 deltas.length]
  .fixed (ws ++ [recCrc deltas ws])

/-- This device's output hash of a block (R338). -/
def State.hashOf (s : State) (k : Nat) : Option Word := (s.ani.hashes.find? (fun h => h.1 = k)).map Prod.snd

/-- The active closes the epoch of block k and sends its commit record (R332), whose words are those of R334's table:
CLV_SEQ where R219 speaks of CLV_SEQ_APPLIED. DESIGN CHOICE: assumption 112. -/
def State.epochClose (s : State) (k : Nat) : State :=
  let a := s.ani
  let rel := a.release == some k
  let hash := (s.hashOf k).getD 0
  let x := s.aniRecord 1 (BitVec.ofNat 32 k) (s.rd CLV_SEQ) (s.rd ANI_WSEQ) hash rel a.capBytes
  let e : Epoch := { k := k, items := a.cap, seq := s.rd CLV_SEQ, wseq := s.rd ANI_WSEQ, hash := hash, release := rel }
  State.aniOut { s with ani := { a with cap := [], capBytes := [], wait := a.wait ++ [e] } } x

/-- A beat of a mirrored write at its application (R332): registers word by word, where it has the shape that they
take (R5, R54, R193), memory as the target does it. -/
def State.applyBeat (s : State) (guest : Bool) (a : Nat) (strb : BitVec 32) (data : BitVec 256) : State :=
  if isRegAddr a then
    if !(if targetOf a = 13 then (oneWord strb).isSome else wholeGroups 4 strb) then s
    else s.each ((upTo 8).filter (fun k => strb.getLsbD (4 * k))) (fun s k =>
      if writerOk ⟨6, guest⟩ (regOr (a + 4 * k)) then s.writeReg ⟨6, guest⟩ (a + 4 * k) (beatWord data k) else s)
  else (s.memBeatWrite 6 a strb data).1

/-- A register's settings from a mirror copy: a fenced engine, and the network's units over a fenced buffer, stay
disabled (R185). -/
def State.chunkReg (s : State) (r : Reg) (w : Word) : Word :=
  let barred := (upTo 32).any (fun e => r.addr == (ENG_CTRL e).addr && s.engFenced e) ||
    ([STRM_CTRL, MAC_CTRL 0, MAC_CTRL 1].any (fun x => r.addr == x.addr) && s.netFenced)
  if barred then setBit w 0 false else w

/-- A chunk of a mirror copy at a standby (R344): memory bytes, and the settings of registers. The bytes of a fenced
unit keep nothing, and the access ends with an error (R186, R200). -/
def State.applyChunk (s : State) (a : Nat) (d : List Byte) : State :=
  if isRegAddr a then
    s.each ((bytesWords d).zipIdx) (fun s x =>
      match regAt (a + 4 * x.2) with
      | some r => s.upd r (fun w => (w &&& ~~~r.rw) ||| (s.chunkReg r x.1 &&& r.rw))
      | none => s)
  else if targetOf a = 9 then
    s.each ((bytesWords d).zipIdx) (fun s x => s.writeSink ((a - 0x38000000) / 4 + x.2) x.1)
  else
    let hit := (upTo d.length).findSome? (fun i => (unitAt (a + i)).filter (fun u => s.fenced u))
    let m := (d.zipIdx.filter (fun x => s.whole (a + x.2))).foldl (fun m x => putByte m (a + x.2) x.1) s.mem
    match hit with
    | some u => ({ s with mem := m }.fenceLog u 10 true).busErr 10 false true 4 (targetOf a) a
    | none => { s with mem := m }

/-- The body of a unit record (R344): the generator counts, the Clove epochs, CLV_SEQ, the bank selections. -/
def State.unitBytes (s : State) : List Byte :=
  (upTo 13).flatMap (fun i => leBytes 4 (s.gen i).ph ++ leBytes 4 (s.gen i).s.toNat ++ leBytes 4 (s.gen i).t) ++
  (upTo 2048).flatMap (fun f => leBytes 1 (s.epochOf f)) ++ leBytes 4 (s.rd CLV_SEQ).toNat ++
  (upTo 256).flatMap (fun b => leBytes 1 (b2n (s.bus b).sel))

/-- CLV_SEQ_APPLIED once CLV_SEQ has been copied (R219): every number up to CLV_SEQ is consumed but those of the
events that the device holds. -/
def State.seqCopied (s : State) : State :=
  let top := s.rd CLV_SEQ
  let held := (s.clove.queue ++ s.clove.out.map Prod.snd).filterMap Ev.seq
  let back := (held.map (fun q => (top - q).toNat + 1)).foldl max 0
  let low := top - BitVec.ofNat 32 back
  { s.wr CLV_SEQ_APPLIED low with clove := { s.clove with
      done_ := ((upTo back).map (fun i => low + BitVec.ofNat 32 (i + 1))).filter (fun q => !(held.contains q)) } }

/-- A unit record at a standby (R344). In a quiet block no commit is pending on the active, so the tables and
settings that the bulk phase staged are its live ones: they come into force at this boundary. The generators have run one
block more since the record's epoch was closed (R332). -/
def State.applyUnit (s : State) (d : List Byte) : State :=
  let w := fun (o n : Nat) => ofLeBytes ((d.drop o).take n)
  let s := s.each (upTo 13) (fun s i =>
    let g := s.gen i
    let g0 : Gen := { run := s.rdB (PRT_GEN_CFG i) 0, neg := s.rdB (PRT_GEN_CFG i) 1, lvl := s.rd (PRT_GEN_LVL i),
                      par := s.rd (PRT_GEN_PAR i), ph := w (12 * i) 4, s := BitVec.ofNat 32 (w (12 * i + 4) 4),
                      t := w (12 * i + 8) 4 }
    let g' := if g0.run then (upTo s.blk).foldl (fun g _ => (genSample s.fs i g).2) g0 else g0
    if g = g' then s else { s with router := { s.router with gens := sset {} s.router.gens i g' } })
  let s := s.each (upTo 2048) (fun s f =>
    if s.epochOf f = w (156 + f) 1 then s
    else { s with clove := { s.clove with epoch := sset 0 s.clove.epoch f (w (156 + f) 1) } })
  let s := (s.wr CLV_SEQ (BitVec.ofNat 32 (w 2204 4))).seqCopied
  let s := s.each (upTo 256) (fun s b =>
    let sel := w (2208 + b) 1 == 1
    if (s.bus b).sel == sel then s else (s.setBus b { s.bus b with sel := sel }).showBus b false sel)
  let s := s.each (upTo 32) (fun s e => s.sltCommit e 1#32)
  let s := s.each (upTo 24) (fun s n => s.sapCommit n 1#32)
  let s := (s.each (upTo 8) (fun s n => s.aesTxCommitW n 1#32)).srcCommitW 1#32
  s.updAni (fun a => { a with unitIn := 1 })

/-- An item of an epoch at its application (R332). -/
def State.applyItem (s : State) (x : AniItem) : State :=
  match x with
  | .write g a strb d => s.applyBeat g a strb d
  | .post _ v =>
    let s := if s.aniRole = 2 then s.wr CLV_SEQ (v.seq.getD 0) else s
    s.acceptAs v
  | .chunk a d => s.applyChunk a d
  | .unit [] => s.updAni (fun a => { a with copyGone := true })
  | .unit d => s.applyUnit d
  | .slice .. | .input .. => s

/-- An epoch is applied whole (R332). -/
def State.epochApply (s : State) (e : Epoch) : State :=
  let s := { s.each e.items State.applyItem with rsp := s.rsp }
  (s.wr ANI_EPOCH (BitVec.ofNat 32 e.k)).wr ANI_SEQ e.seq

/-- Whether block number `a` comes before `b`, by the signed difference (R27). -/
def blkBefore (a b : Nat) : Bool := decide (0 < (b + 2 ^ 32 - a) % 2 ^ 32 ∧ (b + 2 ^ 32 - a) % 2 ^ 32 < 2 ^ 31)

/-- The block number after. -/
def blkNext (k : Nat) : Nat := (k + 1) % 2 ^ 32

/-- The hashes of a block on both devices (R338); `mis` and `mat` count the consecutive mismatches and matches. -/
def State.hashCompare (s : State) (k : Nat) (peer : Word) : State :=
  match s.hashOf k with
  | none => s
  | some own =>
    let s := (s.wr ANI_HASH own).wr ANI_PHASH peer
    if own = peer then s.updAni (fun a => { a with mis := 0, mat := a.mat + 1 })
    else (s.count ANI_HMIS_CNT).updAni (fun a => { a with mis := a.mis + 1, mat := 0 })

/-- The states in which a standby expects an epoch in every block (R340). -/
def State.inStep (s : State) : Bool := [2, 3, 4].contains s.aniState

/-- The standby's share of step 3 for block k (R332, R334, R336): its status record, then the epoch of block
k - 1, applied if verified, else discarded. DEDUCED: assumption 35. -/
def State.standbyStep (s : State) (k : Nat) : State :=
  let a := s.ani
  let last := a.wait.getLast?
  let lk := (last.map Epoch.k).getD (s.rd ANI_EPOCH).toNat
  let x := s.aniRecord 2 (BitVec.ofNat 32 lk) ((last.map Epoch.seq).getD (s.rd ANI_SEQ))
    ((last.map Epoch.wseq).getD (s.rd ANI_WSEQ)) ((s.hashOf lk).getD 0) false []
  let s := s.aniOut x
  if a.taking || s.frame.age < 2 then s
  else match a.wait.find? (fun e => blkNext e.k == k) with
    | some e =>
      let s := (s.epochApply e).wr ANI_WSEQ e.wseq
      (s.hashCompare e.k e.hash).updAni (fun a => { a with wait := a.wait.filter (fun e => !(blkBefore e.k k)) })
    | none =>
      if s.inStep || a.bad then
        let s := (s.count ANI_DISC_CNT).updAni (fun a => { a with discarded := true, bad := false })
        if s.shedLevel < 4 then { s with house := { s.house with drops := s.house.drops + 1 } } else s
      else s

/-- The epochs before block k are applied (R332). -/
def State.epochsDue (s : State) (k : Nat) : State :=
  let s := s.each (s.ani.wait.filter (fun e => blkBefore e.k k)) State.epochApply
  s.updAni (fun a => { a with wait := a.wait.filter (fun e => !(blkBefore e.k k)) })

/-- What an active held when its pairing ended is still applied, two ticks after its block (R332). DESIGN CHOICE:
assumption 36. -/
def State.heldStep (s : State) (k : Nat) : State :=
  let a := s.ani
  let s := if a.cap.isEmpty then s else
    let e : Epoch := { k := k, items := a.cap, seq := s.rd CLV_SEQ, wseq := s.rd ANI_WSEQ, hash := 0, release := false }
    s.updAni (fun a => { a with cap := [], capBytes := [], wait := a.wait ++ [e] })
  s.epochsDue k

/-- The active's share of step 3 for block k: the epoch closes, and every earlier one is applied (R332). -/
def State.activeStep (s : State) (k : Nat) : State :=
  (s.epochClose k).epochsDue k

/-- The role of ANI_CTRL. -/
def State.setRole (s : State) (r : Nat) : State := s.wrF ANI_CTRL 2 1 r

/-- Changes of role that fall at step 3 for block k (R341 step 2, R342), and the standby gate (R329, R340). -/
def State.roleStep (s : State) (k : Nat) : State :=
  let a := s.ani
  let s :=
    if a.taking then ((s.roleClear.setRole 1).setAniState 1).raise ANI_INT 1#32
    else if s.aniRole = 2 && a.relOpen.any (fun r => blkBefore r k) && !a.take then
      ((s.roleClear.setRole 1).setAniState 1).wrF ANI_STAT 31 16 (a.peerTerm + 1)
    else if s.aniRole = 1 && a.release.any (fun r => blkBefore r k) then
      if a.ack then ((s.roleClear.setRole 2).setAniState 6).raise ANI_INT 2#32
      else s.updAni (fun a => { a with release := .none, ack := false })
    else s
  s.updAni (fun a => { a with gateOpen := if s.aniState = 0 then a.gateOpen else s.aniState == 1 })

/-- A takeover is decided at the tick (R341 step 1). -/
def State.takeOver (s : State) : State :=
  let s := s.wrF ANI_STAT 31 16 (s.ani.peerTerm + 1)
  let s := ((s.wr ANI_TAKE_BLOCK (s.rd ANI_EPOCH)).wr ANI_TAKE_SEQ (s.rd ANI_SEQ)).wr ANI_TAKE_WSEQ (s.rd ANI_WSEQ)
  let s := (s.count ANI_TAKE_CNT).updAni (fun a => { a with take := false, taking := true })
  if s.shedLevel < 4 then
    { s with house := { s.house with takes := s.house.takes + 1, takeAt := s.rd SYS_FRM_BLOCK } }
  else s

/-- The whole copy is in: the unit record at an earlier tick, and every valid slice (R340, R344). -/
def State.copyWhole (s : State) : Bool := s.ani.unitIn == 2 && s.validSlices.all (fun id => s.ani.loaded.contains id)

/-- The standby's rows of R340, the discard before the takeover (R346). -/
def State.standbyTable (s : State) : State :=
  let a := s.ani
  let n := s.rdF ANI_CTRL 31 24
  let lost := fun (s : State) => (s.setAniState 6).raise ANI_INT 0x10#32
  let st := s.aniState
  let s :=
    if st = 0 then s.setAniState 6
    else if st = 6 && a.copying then s.setAniState 2
    else if st = 2 && (a.discarded || a.hLost || a.mLost || a.copyGone) then lost s
    else if st = 2 && s.copyWhole then (s.setAniState 3).raise ANI_INT 0x80#32
    else if (st = 3 || st = 4) && a.discarded then s.setAniState 5
    else if st = 5 && a.verified then lost s
    else if st = 3 && decide (n ≤ a.mis) then (s.setAniState 4).raise ANI_INT 0x20#32
    else if st = 4 && decide (n ≤ a.mat) then s.setAniState 3
    else s
  let kept := s.aniState == 2 && st == 2
  let s := s.updAni (fun a => { a with verified := false, discarded := false, copying := false, copyGone := false,
                                       loaded := if kept then a.loaded else [],
                                       unitIn := if kept && a.unitIn != 0 then 2 else 0 })
  let auto := s.peerDown && s.rdB ANI_CTRL 6 && (s.aniState == 3 || s.aniState == 5)
  if (auto || a.take) && !a.taking then s.takeOver else s

/-- The state table (R340), evaluated at every tick after step 3. -/
def State.stateTable (s : State) : State :=
  if !s.aniOn then (if s.aniState = 0 then s else s.setAniState 0)
  else if s.aniRole = 1 then
    if s.aniState = 0 then s.setAniState 1
    else if s.aniState = 1 && decide (s.aniTerm < s.ani.peerTerm) then
      ((s.setAniState 7).raise ANI_INT 0x40#32).copyEnd 2
    else s
  else if s.aniRole = 2 then s.standbyTable
  else s

/-- The converters' inputs, and the channels of running streams (R337). -/
def State.convSources (s : State) : List Nat :=
  ((s.src.filter (fun x => bit x.2.live 31 && !(bit x.2.live 30))).map (fun x => srcInputId x.2.live)).dedup
def State.netSources (s : State) : List Nat :=
  (((upTo 128).filter s.rxRuns).flatMap (fun i =>
    (upTo (s.rdF (STRM_RX_CTRL i) 6 0)).map (fun c => 0x800 + s.rdF (STRM_RX_MAP i) 25 16 + c))).dedup.filter
      (fun i => decide (i < 0xC00))

/-- The sources that ANI_CTRL mirrors (R337). -/
def State.mirroredSources (s : State) : List Nat :=
  (if s.rdB ANI_CTRL 8 then s.convSources else []) ++ (if s.rdB ANI_CTRL 9 then s.netSources else [])

/-- This device's own data of every source that can be mirrored, for the block last captured: what a source mirrored from
the next tick on delivers there (R337). -/
def State.ownData (s : State) : List (Nat × List Word) :=
  (s.convSources ++ s.netSources).foldl (fun m id => sset [] m id (s.source id)) []

/-- A block of samples in full. -/
def State.fullBlock (s : State) (ws : List Word) : List Word := (upTo s.blk).map (sampleAt ws)

/-- A mirrored source at a tick (R337): it delivers the data of the block before; the active sends its own, the
standby takes what it received, and fades what is missing. -/
def State.mirrorSource (s : State) (id : Nat) : State :=
  let now := s.source id
  if s.aniRole = 1 then
    (s.aniSend (.input id (s.fullBlock now))).produce id (sget [] s.ani.own id)
  else
    let got := s.ani.inputs.find? (fun x => x.1 = id)
    let g := sget (64, 0) s.ani.inFade id
    let ys := (upTo s.blk).map (fun j => got.bind (fun x => x.2[j]?))
    let f := fadeBlock ⟨g.1, g.2⟩ ys
    let s := if ys.any Option.isNone then s.count ANI_IMISS_CNT else s
    (s.updAni (fun a => { a with inFade := sset (64, 0) a.inFade id (f.1.g, f.1.v) })).produce id f.2.1

/-- Mirrored inputs at a tick of a paired device (R337). -/
def State.mirrorInputs (s : State) : State :=
  let own := s.ownData
  let s := if s.aniOn && s.frame.ticking then
      (s.each s.mirroredSources State.mirrorSource).updAni (fun a => { a with inputs := [] })
    else s
  s.updAni (fun a => { a with own := own })

/-- The locations of R330 in ascending order: address and bytes. -/
def copyRanges : List (Nat × Nat) :=
  (upTo 32).flatMap (fun e => [(0x20000000 + e * 0x80000, 0x4C000), (0x20070000 + e * 0x80000, 0x2000)]) ++
  [(0x30000000, 0x300000), (0x38000000, 0x8000), (0x50000100, 0x40), (0x50030100, 0x80), (0x50032000, 0x20),
   (0x50060000, 0x2200), (0x50070000, 0x1000), (0x50080000, 0x600), (0x500B0000, 0x3000), (0x500E0000, 0x1A00),
   (0x500F0000, 0xA00), (0x50120000, 0x1200)]

/-- Chunk `i` of the bulk phase: up to 512 bytes of a range. -/
def copyChunk : List (Nat × Nat) → Nat → Option (Nat × Nat)
  | [], _ => none
  | (a, n) :: l, i =>
    if i < ceilDiv n 512 then some (a + 512 * i, min 512 (n - 512 * i)) else copyChunk l (i - ceilDiv n 512)

/-- What a location reads, as a chunk record carries it. -/
def State.copyBytes (s : State) (a n : Nat) : List Byte :=
  if isRegAddr a then wordBytes ((upTo (n / 4)).map (fun k => s.showReg (regOr (a + 4 * k)) (a + 4 * k)))
  else if targetOf a = 9 then wordBytes ((upTo (n / 4)).map (fun k =>
    let i := (a - 0x38000000) / 4 + k
    if sinkAllocated i && s.whole (a + 4 * k) then s.sinkWritten i else 0))
  else (upTo n).map (fun i => if s.whole (a + i) then s.byte (a + i) else 0)

/-- An access of master ANI to a run of bytes: where a fenced unit is in it, it ends with an error, counted and logged
(R186, R200). -/
def State.aniFence (s : State) (write : Bool) (a n : Nat) : State :=
  match s.fencedIn a n with
  | some u => (s.fenceLog u 10 write).busErr 10 false write 4 (targetOf a) a
  | none => s

/-- A fade in progress. -/
def TapFade.moving (f : TapFade) : Bool := decide (0 < f.g ∧ f.g < 64)

/-- A quiet block (R344): no flip, entry or armed slot waits either. -/
def State.quiet (s : State) : Bool :=
  let calm := fun (l : List (Nat × TapFade)) => l.all (fun x => !x.2.moving)
  s.mtx.bus.all (fun b => b.2.segs.isEmpty && (b.2.f = 0 || b.2.f = 64)) && s.morph.lanes.isEmpty &&
    s.router.sinks.all (fun k => !k.2.deferred && decide (k.2.len ≤ k.2.count)) &&
    s.engs.all (fun g => calm g.2.fade) && s.saps.all (fun p => calm p.2.fade) &&
    s.aesRx.all (fun p => !p.2.fadeA.moving && !p.2.fadeB.moving) && s.src.all (fun c => !c.2.fade.moving) &&
    s.strmRx.all (fun x => calm x.2.fade) && s.dng.all (fun x => calm x.2.fade) && !s.migBusy &&
    (upTo 32).all (fun e => !(s.rdB (ENG_SLT_COMMIT e) 0)) && (upTo 24).all (fun n => !(s.rdB (SAP_COMMIT n) 0)) &&
    (upTo 8).all (fun n => !(s.rdB (AES_TX_COMMIT n) 0)) && !(s.rdB SRC_COMMIT 0) &&
    (upTo 8).all (fun n => s.rd (MXM_FLIP n) == 0) && s.pendingSinks.isEmpty && s.router.fresh.isEmpty &&
    ([0, 1, 2, 3] : List (Fin 4)).all (fun m => s.slotState m == 0)

/-- The bytes of a slice's window: those of a fenced unit are zeros (R186). -/
def State.windowBytes (s : State) (id : Nat) : List Byte :=
  let t := s.liveOf id
  let a := dmemAddr (id / 64) (t.sb * 4)
  (upTo (t.winSize * 16)).map (fun i => if s.whole (a + i) then s.byte (a + i) else 0)

/-- The slice phase at the tick that ends block k (R344): a snapshot that did not load in its block is
repeated, and the lowest slice left that ended and is neither migrated nor in morph is sent. -/
def State.copySlices (s : State) (k : Nat) : State :=
  let late := s.ani.flying.any (fun x => blkBefore x.2 k)
  let s := if late then s.updAni (fun a => { a with flying := .none }) else s
  if s.ani.flying.isSome then s
  else
    let ok := fun id : Nat => ((s.eng (id / 64)).sb (id % 64)).ended && !(s.inMorph id) &&
      !(s.migBusy && (id == s.mig.src || id == s.mig.dst))
    match s.ani.left.find? ok with
    | some id =>
      let t := s.liveOf id
      let s := s.aniFence false (dmemAddr (id / 64) (t.sb * 4)) (t.winSize * 16)
      (s.aniSend (.slice id (s.windowBytes id))).updAni (fun a => { a with flying := some (id, blkNext k) })
    | none => s

/-- The unit phase at the tick that ends block k (R344): the unit record of a quiet block goes into its epoch. -/
def State.copyUnit (s : State) (k : Nat) : State :=
  if s.copying && !s.ani.abort && s.rdF ANI_COPY_STAT 1 0 = 2 && s.quiet then
    let s := (s.aniSend (.unit s.unitBytes)).wrF ANI_COPY_STAT 1 0 3
    let l := s.validSlices
    let s := (s.wr ANI_COPY_LEFT (BitVec.ofNat 32 l.length)).updAni (fun a => { a with left := l, unitAt := k })
    if l.isEmpty then s.copyEnd 1 else s
  else s

/-- The mirror copy's share of the tick that ends block k, on the active (R344, R345).
DESIGN CHOICE: assumption 34. -/
def State.copyStep (s : State) (k : Nat) : State :=
  if !s.copying then s
  else if s.ani.abort then s.copyEnd 2
  else match s.rdF ANI_COPY_STAT 1 0 with
    | 1 =>
      match copyChunk copyRanges s.ani.bulkAt with
      | some (a, n) =>
        let s := if isRegAddr a then s else s.aniFence false a n
        (s.aniSend (.chunk a (s.copyBytes a n))).updAni (fun a => { a with bulkAt := a.bulkAt + 1 })
      | none => s.wrF ANI_COPY_STAT 1 0 2
    | 2 => s
    | _ => if s.ani.unitAt = k then s else s.copySlices k

/-- Step 3 of R37 at the tick that ends block k, the state table after it (R340), and the heartbeat (R328). At
the first tick of a run no block ends. -/
def State.aniTick (s : State) (ended : Option Nat) : State :=
  let s := match ended with
    | some k =>
      if s.aniActive then ((s.copyUnit k).activeStep k).roleStep k
      else if s.aniStandby then (s.standbyStep k).roleStep k
      else if s.aniRole = 1 then s.heldStep k
      else s
    | none => s
  let s := s.updAni (fun a => { a with gate := s.rd ANI_GATE })
  let s := if s.aniOn && !(s.rdB ANI_CTRL 10) then s.updAni (fun a => { a with hbTx := !a.hbTx }) else s
  let s := if s.aniOn then
      ((s.updAni (fun a => { a with hTicks := a.hTicks + 1, mTicks := a.mTicks + 1 })).pathLoss .h).pathLoss .m
    else s
  let s := s.stateTable
  match ended with
  | some k => if s.aniActive then s.copyStep k else s
  | none => s

/-- The item that a delta record makes (R335); bodies of other lengths or kinds make none. -/
def deltaItem (kind : Nat) (b : List Byte) : Option AniItem :=
  let w := fun o : Nat => ofLeBytes ((b.drop o).take 4)
  let ws := (upTo 8).map (fun k => BitVec.ofNat 32 (w (8 + 4 * k)))
  let h := ws.getD 0 0
  match kind with
  | 1 => if b.length = 40 then
      some (.write (decide (2 ^ 31 ≤ w 0)) (w 0 % 2 ^ 31) (BitVec.ofNat 32 (w 4)) (BitVec.ofNat 256 (ofLeBytes (b.drop 8)))) else none
  | 2 => if b.length = 40 then
      some (.post (w 0) { no := 0, type := bits h 23 16, cls := bits h 15 14, origin := bits h 13 12,
                          flow := bits h 11 0, sec := ws.getD 1 0, ns := ws.getD 2 0, payload := ws.drop 3,
                          seq := some (BitVec.ofNat 32 (w 4)) }) else none
  | 3 => some (.chunk (w 0) (b.drop 4))
  | 4 => some (.slice (w 0) (b.drop 4))
  | 5 => some (.input (w 0) (bytesWords (b.drop 4)))
  | 6 => some (.unit b)
  | _ => none

/-- A delta record at a standby (R335, R337, R344): inputs and slice snapshots are for this block, the others
belong to their epoch. -/
def State.deltaIn (s : State) (kind : BitVec 4) (body : List Byte) : State :=
  let bytes := leBytes 4 (kind.toNat * 2 ^ 28 + body.length) ++ body
  let s := s.updAni (fun a => { a with rxBytes := a.rxBytes ++ bytes })
  match deltaItem kind.toNat body with
  | some (.slice id d) => s.updAni (fun a => { a with loads := a.loads ++ [(id, d)] })
  | some (.input id ws) =>
    s.updAni (fun a => { a with inputs := a.inputs.filter (fun x => x.1 != id) ++ [(id, ws)] })
  | some x =>
    let start := match x with
      | .chunk .. => true
      | _ => false
    s.updAni (fun a => { a with rx := a.rx ++ [x], copying := a.copying || start })
  | none => s

/-- A commit record at a standby whose CRC matches (R336, R342): verified if it is in time and whole. -/
def State.commitIn (s : State) (k : Nat) (ws : List Word) (items : List AniItem) (bytes : Nat) : State :=
  let n := s.blockNo
  let fresh := !(s.ani.wait.any (fun e => e.k = k))
  if (k = n || blkNext k = n) && fresh && (ws.getD 6 0).toNat = bytes then
    let rel := bit (ws.getD 5 0) 0
    let e : Epoch := { k := k, items := items, seq := ws.getD 2 0, wseq := ws.getD 3 0, hash := ws.getD 4 0,
                       release := rel }
    let s := s.updAni (fun a => { a with wait := a.wait ++ [e], verified := true })
    if rel then
      let x := s.aniRecord 3 (BitVec.ofNat 32 k) e.seq e.wseq ((s.hashOf k).getD 0) false []
      (s.aniOut x).updAni (fun a => { a with relOpen := some k })
    else s
  else s.updAni (fun a => { a with bad := true })

/-- A status record at an active whose CRC matches (R338, R342, R344): the peer's hash, an ack, and a copy whose
standby has fallen out of step. -/
def State.statusIn (s : State) (kind k : Nat) (was : Nat) (ws : List Word) : State :=
  let s := if kind = 3 && s.ani.release == some k then s.updAni (fun a => { a with ack := true })
    else s.hashCompare k (ws.getD 4 0)
  if was = 2 && s.peerState = 6 then s.copyEnd 2 else s

/-- A fixed record received (R334, R336, R339). A record whose CRC fails counts as none, and what came before it
is lost with it. -/
def State.fixedIn (s : State) (ws : List Word) : State :=
  let a := s.ani
  let h := ws.getD 0 0
  let s := s.updAni (fun a => { a with rx := [], rxBytes := [] })
  if ws.length = 8 && recCrc a.rxBytes ws = ws.getD 7 0 then
    let was := s.peerState
    let down := s.peerDown
    let s := (s.updAni (fun a => { a with mTicks := 0, mLost := false, peerTerm := bits h 15 0,
                                          peerFailed := bit (ws.getD 5 0) 1 })).showPaths
    let s := (s.wrF ANI_STAT 6 4 (bits h 18 16)).peerWatch down
    let k := (ws.getD 1 0).toNat
    if s.aniRole = 2 && bits h 31 24 = 1 then s.commitIn k ws a.rx a.rxBytes.length
    else if s.aniRole = 1 && (bits h 31 24 = 2 || bits h 31 24 = 3) then s.statusIn (bits h 31 24) k was ws
    else s
  else if s.aniRole = 2 then s.updAni (fun a => { a with bad := true }) else s

/-- ANISE_RECORD_RECEIVE (R334 to R336), unless the M path carries nothing (R258). -/
def State.recordIn (s : State) (r : AniRecord) : State :=
  if !s.aniOn || s.pathShut then s
  else match r with
    | .fixed ws => s.fixedIn ws
    | .delta kind body => if s.aniRole = 2 then s.deltaIn kind body else s

/-- MIRROR_SLICE_LOAD (R344, R345): at a standby the next snapshot received loads into its slice's window, unless
the slice has switched in; at the active the slice sent has loaded, and with the last the copy ends. -/
def State.sliceLoad (s : State) : State :=
  if s.aniStandby then
    match s.ani.loads with
    | [] => s
    | (id, d) :: rest =>
      let s := s.updAni (fun a => { a with loads := rest })
      if ((s.eng (id / 64)).sb (id % 64)).started || !(s.liveOf id).valid then s
      else
        let t := s.liveOf id
        let a := dmemAddr (id / 64) (t.sb * 4)
        let bs := ((d.take (t.winSize * 16)).zipIdx).filter (fun x => s.whole (a + x.2))
        let m := bs.foldl (fun m x => putByte m (a + x.2) x.1) s.mem
        let s := { s.aniFence true a (t.winSize * 16) with mem := m }
        s.updAni (fun a => { a with loaded := if a.loaded.contains id then a.loaded else a.loaded ++ [id] })
  else match s.ani.flying with
    | some (id, _) =>
      if s.copying then
        let l := s.ani.left.filter (· != id)
        let s := (s.updAni (fun a => { a with left := l, flying := .none })).wr ANI_COPY_LEFT (BitVec.ofNat 32 l.length)
        if l.isEmpty then s.copyEnd (if s.ani.abort then 3 else 1) else s
      else s
    | none => s

def execAniseRecordReceive (a : AniRecord) (s : State) : Out := done (s.recordIn a)
def execMirrorSliceLoad (s : State) : Out := done s.sliceLoad

end Sys2Proof.Machine
end

