-- ==== Sys2Proof/Machine/Frame.lean ====
section
/-! DEFINITION. The block tick and the window closes (R26 to R43, R402): what each window's close takes and
produces (R34, R136, R168), and the eleven steps of R37 at the tick. -/

namespace Sys2Proof.Machine

/-- Put the window of the block; the Matrix shows whether it sums. -/
def State.setWin (s : State) (w : Window) : State :=
  { s.wrB MXM_STAT 0 (w == .sum) with frame := { s.frame with win := w } }

/-- The source blocks of the cascade sinks' other terms, taken at the Strip close (R141, R168). -/
def State.cascTails (s : State) : List (Nat × List Word) :=
  let ids := ((s.sinksIn 0x1C00 256).flatMap (fun i => ((s.sink i).terms.map Term.src).filter
    (fun src => !(s.cascSrc src)))).dedup
  ids.foldl (fun m src => sset [] m src (s.source src)) []

/-- What still runs on any engine is halted (R32, R113). -/
def State.haltAll (s : State) : State := s.each s.engList (fun s e => s.haltSlice e)

/-- STRIP_WINDOW_CLOSE (R34, R135, R168): the Strip taps are produced, the Matrix takes its inputs, and the Sum
window opens. -/
def State.stripClose (s : State) : State :=
  if s.frame.win == .strip then
    let s := s.advanceTo (s.frame.tickAt + s.wStrip)
    let s := s.each s.engList (fun s e => (s.closePhase 0 e).producePhase 0 e)
    let s := { s with mtx := { s.mtx with xin := s.consume 0 1024, ctail := s.cascTails } }
    (s.setWin .sum).mxmHold
  else s

/-- The fills of a phase's slices on every engine that may run slices (R169, R170). -/
def State.fillsOf (s : State) (phase : Nat) : State :=
  s.each s.engList (fun s e => if (s.eng e).active then s.queueFills e phase else s)

/-- SUM_WINDOW_CLOSE (R32, R135, R136, R168): the ramp states update, the buses are produced, the Bus taps are
taken, and the held accesses complete. -/
def State.sumClose (s : State) : State :=
  let s := s.stripClose
  if s.frame.win == .sum then
    let s := s.cascDeadline
    let s := (s.advanceTo (s.frame.tickAt + s.wStrip + s.wSum)).haltAll
    let s := s.produceBuses
    let s := s.each s.gainBuses (fun s b => s.rollBus b)
    let s := ((s.takeTaps 1).fillsOf 1).setWin .bus
    s.mxmRelease maxTxns
  else s

/-- The output hash of the block (R338): every transmit sink, in ascending index and sample. -/
def State.outputHash (s : State) : Word :=
  crc32 (wordBytes ((upTo 0xC00).flatMap (fun i => s.fullBlock (sget [] s.router.txOut (0x1000 + i)))))

/-- The hash of the block is kept, in ANI_HASH too while no peer's hash is compared with it (R338).
DEDUCED: assumption 33. -/
def State.keepHash (s : State) : State :=
  let h := s.outputHash
  let s := s.updAni (fun a => { a with hashes := ((s.blockNo, h) :: a.hashes).take 16 })
  if s.aniOn then s else s.wr ANI_HASH h

/-- The transmit mask under which a port's block is packed (R229). -/
def State.sapMask (s : State) (n : Nat) : State :=
  if s.sapRunning n then s.updSap n (fun p => { p with txMask := s.rd (SAP_TXMASK_LIVE n) }) else s

/-- What the close of the Bus window does (R34, R168, R234, R286, R318, R338): the Bus taps are produced and the
transmit channels consumed. -/
def State.busEnd (s : State) : State :=
  let s := s.each s.engList (fun s e => (s.closePhase 1 e).producePhase 1 e)
  let s := State.keepHash { s with router := { s.router with txOut := s.consume 0x1000 0xC00 } }
  let s := s.each (upTo 24) (fun s n => (s.sapTransmit n).sapMask n)
  (s.strmSend.dngAudioOut).setWin .tail

/-- BUS_WINDOW_CLOSE (R34): the Bus window closes at its computed end, and the tail follows. -/
def State.busClose (s : State) : State :=
  let s := s.sumClose
  if s.frame.win == .bus then (s.advanceTo (s.frame.tickAt + s.wStrip + s.wSum + s.wBus)).busEnd else s

/-- The cycle of the next tick (R27, R40): the first at which the STC has reached its sample edge. -/
def State.tickCycle (s : State) : Nat := s.now + s.cyclesTo (ceilDiv (s.frame.edge * stcSecond) s.fs)

/-- Step 1 of R37, with the windows that no command has closed: a Bus window whose computed end comes later is
cut by the tick (R35). DESIGN CHOICE: assumption 11. -/
def State.tickClose (s : State) : State :=
  let at_ := s.tickCycle
  let s := if s.frame.win == .strip || s.frame.win == .sum then s.sumClose else s
  let s := if s.frame.win == .bus && decide (s.frame.tickAt + s.wStrip + s.wSum + s.wBus ≤ at_) then s.busClose
    else s
  let s := s.advanceTo at_
  if s.frame.win == .bus then (s.busEnd.raise SYS_FRM_INT 1#32).countF SYS_FRM_CUT 15 0 1 else s

/-- SYS_FRM_DEV at the end of a block (R43, R403). -/
def State.devStep (s : State) : State :=
  let d : Int := (s.now : Int) - s.frame.tickAt - s.pNom
  let w := (BitVec.ofInt 16 d).toNat
  let s := s.wrF SYS_FRM_DEV 15 0 w
  if !s.frame.devSeen || decide (d < sbits (s.rd SYS_FRM_DEV) 31 16) then
    { s.wrF SYS_FRM_DEV 31 16 w with frame := { s.frame with devSeen := true } }
  else s

/-- OVERRUN of one phase of an engine: counted and reported (R34, R118). -/
def State.overrun (s : State) (e phase : Nat) (x : Option (Nat × Nat)) : State :=
  match x with
  | none => s
  | some (first, n) =>
    (s.countF (ENG_OVR_CNT e) 15 0 1).report e 0x40 2 (s.rd SYS_FRM_BLOCK)
      (BitVec.ofNat 32 (phase + first * 256 + n * 65536))

/-- An engine at the end of a block: its Free slices' taps are produced, its records are made, and a slice whose
halt or drain goes on is carried over (R34, R113, R118, R168). -/
def State.finaliseEngine (s : State) (e : Nat) : State :=
  let s := ((s.producePhase 2 e).unrunPhase 2 e).clearMeas e
  let g := s.eng e
  let s := (s.overrun e 0 g.ovrStrip).overrun e 1 g.ovrBus
  let g := (s.eng e).payHold
  let busy := min g.busy (2 ^ 20 - 1)
  let run := match g.cur with
    | some sl => some sl
    | none => g.draining
  let s := s.setEng e { g with
    waitAt := max g.waitAt g.cyc, busy := 0, ovrStrip := .none, ovrBus := .none,
    carry := match g.carry, run with
      | some c, _ => some c
      | none, some sl => some { g.sb sl with budget := s.budgetOf (e * 64 + sl) }
      | none, none => none
    xq := g.xq.filter (fun x => x.collect && (g.entry x.slice).nrt) }
  s.wr (ENG_BUSY e) (BitVec.ofNat 32 busy)

/-- BLOCK_FINALISE, step 2 of R37 for block `k`: SYS_FRM_DEV, the engines' records, the glides and crossfades of
the block done, the migration's checks. -/
def State.finalise (s : State) (k : Nat) : State :=
  let s := s.haltAll.devStep
  let s := s.each s.engList (fun s e => s.finaliseEngine e)
  (s.rollSinks.rollLanes).migCheck k

/-- The records of a block end with it. -/
def State.clearBlk (s : State) : State :=
  s.each s.engList (fun s e => s.updEng e (fun g => { g with blk := [] }))

/-- Step 4 of R37, for the tick at sample edge `edge`; the cascade values of the block before are gone. -/
def State.blockCount (s : State) (edge : Nat) : State :=
  let n : Word := if s.frame.first then 0 else s.rd SYS_FRM_BLOCK + 1#32
  let t := edgeNs s.fs edge
  let s := ((s.wr SYS_FRM_BLOCK n).wr SYS_FRM_TICK_SECL (secWord t)).wr SYS_FRM_TICK_NS (nsWord t)
  { s with frame := { s.frame with tickAt := s.now, first := false, ticking := true,
                                   age := min (s.frame.age + 1) 2 },
           mtx := { s.mtx with next := 0, lsum := [], psum := [], casc := [], dead := false } }

/-- The frames captured ahead of the first block's capture window are dropped: its first three are in (R38); no
mirrored data of an earlier run is left (R40). -/
def State.trimCaptures (s : State) : State :=
  let s := s.each (s.saps.map Prod.fst) (fun s n => s.updSap n (fun p => { p with cap := lastThree p.cap, fresh := true }))
  let s := s.each (s.aesRx.map Prod.fst) (fun s n =>
    let p := s.aesR n
    let keep := p.cap.drop (p.cap.length - 3)
    s.setAesR n { p with cap := if p.sync then List.replicate (3 - keep.length) (none, none) ++ keep else [] })
  s.updAni (fun a => { a with own := [] })

/-- The receive sources of the tick: the capture block before it, a stream's and a peer's (R38, R168, R283, R318). -/
def State.takeSources (s : State) (edge : Nat) : State :=
  let s := ((s.sapsReceive edge).aesReceiveAll edge).strmTake
  s.dngDeliver ((s.blockNo + 2 ^ 32 - 2) % 2 ^ 32)

/-- Capture sources of block 0 are silent (R40). DEDUCED: assumption 12. -/
def State.hushCaptures (s : State) : State := (s.hush 0x100 0xB00).hush 0x2400 0x400

/-- The sample edge of the tick that follows (R27). -/
def State.moveEdge (s : State) : State := { s with frame := { s.frame with edge := s.frame.edge + s.blk } }

/-- Receive sources at a tick: none at tick 0, silent for capture block 0, and mirrored ones a block later (R40,
R337). `age` counts ticks before. -/
def State.tickSources (s : State) (edge age : Nat) : State :=
  (match age with
  | 0 => s.trimCaptures.hushCaptures
  | 1 => (s.takeSources edge).hushCaptures.mirrorInputs.hushCaptures
  | _ => (s.takeSources edge).mirrorInputs).moveEdge

/-- The fades of the receive sources keep the state they had (R41). -/
def State.keepFades (s old : State) : State :=
  let s := s.each (s.saps.map Prod.fst) (fun s n => s.updSap n (fun p => { p with fade := (old.sap n).fade }))
  let s := s.each (s.aesRx.map Prod.fst) (fun s n =>
    s.setAesR n { s.aesR n with fadeA := (old.aesR n).fadeA, fadeB := (old.aesR n).fadeB })
  let s := s.each (s.src.map Prod.fst) (fun s c => s.setSrcCh c { s.srcCh c with fade := (old.srcCh c).fade })
  let s := s.each (s.strmRx.map Prod.fst) (fun s i => s.setSrx i { s.srx i with fade := (old.srx i).fade })
  s.each (s.dng.map Prod.fst) (fun s n => s.setLink n { s.link n with fade := (old.link n).fade })

/-- The block that plays from the tick: the transmit sinks consumed at the last Bus close (R37). -/
def State.playStep (s : State) : State := { s with router := { s.router with play := s.router.txOut, txOut := [] } }

/-- SPLIT_APPLY (R42). -/
def State.splitApply (s : State) : State :=
  if s.rdB SYS_FRM_STAT 1 then
    let s := { s.wrB SYS_FRM_STAT 1 false with frame := { s.frame with split := s.rd SYS_FRM_SPLIT } }
    s.setWindows.raise SYS_FRM_INT 2#32
  else s

/-- STOP_APPLY (R41): the final block opens no window. -/
def State.stopApply (s : State) : State :=
  let s := (s.wrB SYS_FRM_STAT 2 false).setWin .none
  State.bgWaits { s with frame := { s.frame with final := true }, clove := { s.clove with bgWait := false } }

/-- An engine's settings that come into force at a boundary (R36, R72, R159, R181). -/
def State.engineStep (s : State) (e : Nat) : State :=
  s.updEng e (fun g => { g with active := s.rdB (ENG_CTRL e) 0, rcap := s.rdF (ENG_RCAP e) 15 0,
                                xw2 := s.rdB (ENG_XW_CTRL e) 0 })

/-- What a block finds in the live table: extra budgets, and the slices whose ENG_FSLICE bit bars them (R70,
R155). -/
def State.openEngine (s : State) (e : Nat) : State :=
  s.updEng e (fun g =>
    let ids := (g.live.filter (fun (u : Nat × Entry) => u.2.valid)).map Prod.fst
    let g := { g with xbud := ids.foldl (fun m i => sset 0 m i (s.rdF (ENG_MXBUD e i) 19 0)) [] }
    (ids.filter (s.fslice e)).foldl (fun g i => g.updSb i (fun b => { b with barred := true })) g)

/-- Step 6 of R37: slice tables, placement epochs, and the other engine settings. -/
def State.tableStep (s : State) : State :=
  let s := s.migNewBlock.migStep6
  let s := s.each (upTo 32) (fun s e => (s.engineStep e).commitEngine e)
  s.each s.engList (fun s e => s.openEngine e)

/-- STRIP_WINDOW_OPEN, step 11 of R37. -/
def State.stripOpen (s : State) : State :=
  (((s.takeTaps 0).takeTaps 2).fillsOf 2 |>.fillsOf 0).setWin .strip

/-- Steps 6 to 11 of R37, `tick` the STC of the tick in ns. -/
def State.openBlock (s : State) (tick edge pest : Nat) : State :=
  let s := s.tableStep
  let s := s.routerStep.migStep7
  let s := ((s.sapsApply.aesApply).sapsPlay edge).aesPlay edge
  let s := (s.matrixStep tick).dngTick.dngBitmaps.dngCascOut
  (s.budgetStep pest).stripOpen

/-- FRAME_STOPPED (R41, R402): the tick after the final block. -/
def State.frameStopped (s : State) : State :=
  let again := s.frame.restart
  let s := (s.wrB SYS_FRM_STAT 0 false).raise SYS_FRM_INT 4#32
  let s := { s with frame := { s.frame with win := .none, ticking := false, final := false, restart := false },
                    router := { s.router with play := [], txOut := [] } }
  let s := s.each (upTo 24) (fun s n => (s.sapMask n).updSap n (fun p =>
    { p with playMask := p.txMask, skew := 0, ring := [], fetched := .none, under := false }))
  let s := s.aesStopped.migFrameStop.dngStop
  if again then s.frameStart s.stc else s

/-- BLOCK_TICK (R37, R40, R41): the next tick of the running frame. -/
def State.blockTick (s : State) (pest : Nat) : State :=
  if !s.running then s
  else if s.frame.final then (s.advanceTo s.tickCycle).frameStopped
  else
    let edge := s.frame.edge
    let age := s.frame.age
    let s := s.tickClose
    let k := s.blockNo
    let s := if s.frame.ticking then ((s.finalise k).aniTick (some k)).clearBlk else s.aniTick .none
    let s := s.blockCount edge
    if s.rdB SYS_FRM_STAT 2 then
      let s := ((s.tickSources edge age).keepFades s).playStep
      ((s.sapsPlay edge).aesPlay edge).dngTick.splitApply.stopApply
    else
      let s := (s.tickSources edge age).playStep.splitApply
      s.openBlock (edgeNs s.fs edge) edge pest

def execBlockTick (pest : BitVec 16) (s : State) : Out := done (s.blockTick pest.toNat)
def execStripWindowClose (s : State) : Out := done s.stripClose
def execSumWindowClose (s : State) : Out := done s.sumClose
def execBusWindowClose (s : State) : Out := done s.busClose

end Sys2Proof.Machine
end

