-- ==== Sys2Proof/Machine/Cycle.lean ====
section
/-! DEFINITION. One engine cycle with no command: the engines run their programs (R45, R53, R55). -/

namespace Sys2Proof.Machine

/-- An engine's share of a cycle: one that has not run past it issues the bundle at its PC, if it runs a slice
or a handler and none has issued in the cycle (R45). -/
def State.fetchIssue (s : State) (e : Nat) : State :=
  let g := s.eng e
  if decide (g.cyc ≤ s.now) && !g.issued && g.runnable then s.issue e (decodeBundle (s.fetchWord e)) else s

/-- One engine cycle passes. -/
def State.cycle (s : State) : State := (s.each s.engList (fun s e => s.fetchIssue e)).advance 1

end Sys2Proof.Machine
end

