-- ==== Sys2Proof/Machine/Prehotrix.lean ====
section
/-! DEFINITION. The Prehotrix instructions (R74 to R105): each issues one bundle on an engine, its own
operation in its slot and the operations of the other slots beside it. -/

namespace Sys2Proof.Machine

/-- Issue a bundle of these operations on an engine. -/
def State.run (s : State) (e : Fin 32) (b : Bundle) : Out := done (s.issue e (some (Bundle.fit b)))

/-- NOP (R74): the complete no-operation. -/
def execNop (e : Fin 32) (st : State) : Out := st.run e .nop

/-- MAC (R79). Multiply two Q1.31 words and accumulate into Am with saturation lock. -/
def execMac (e : Fin 32) (m : Fin 4) (s : Fin 16) (t : MulT) (w : Bundle) (st : State) : Out :=
  st.run e { w with a := .mac m s t }

/-- MSB (R79). Multiply and subtract the product from Am. -/
def execMsb (e : Fin 32) (m : Fin 4) (s : Fin 16) (t : MulT) (w : Bundle) (st : State) : Out :=
  st.run e { w with a := .msb m s t }

/-- MPY (R79). Load Am with the product and clear its lock. -/
def execMpy (e : Fin 32) (m : Fin 4) (s : Fin 16) (t : MulT) (w : Bundle) (st : State) : Out :=
  st.run e { w with a := .mpy m s t }

/-- MPYN (R79). Load Am with the negated product and clear its lock. -/
def execMpyn (e : Fin 32) (m : Fin 4) (s : Fin 16) (t : MulT) (w : Bundle) (st : State) : Out :=
  st.run e { w with a := .mpyn m s t }

/-- MACL (R79). Accumulate a signed-by-unsigned low-word product for double-precision coefficients. -/
def execMacl (e : Fin 32) (m : Fin 4) (s t : Fin 16) (w : Bundle) (st : State) : Out :=
  st.run e { w with a := .macl m s t }

/-- MSBL (R79). Subtract a signed-by-unsigned low-word product from Am. -/
def execMsbl (e : Fin 32) (m : Fin 4) (s t : Fin 16) (w : Bundle) (st : State) : Out :=
  st.run e { w with a := .msbl m s t }

/-- CLR (R86). Clear Am and its lock bit. -/
def execClr (e : Fin 32) (m : Fin 4) (w : Bundle) (st : State) : Out :=
  st.run e { w with a := .clr m }

/-- LDA (R86). Load Am with a sign-extended word scaled by 2^32. -/
def execLda (e : Fin 32) (m : Fin 4) (s : Fin 16) (w : Bundle) (st : State) : Out :=
  st.run e { w with a := .lda m s }

/-- EXT (R81). Convert an accumulator to a 32-bit word with shift, rounding or dither, and saturation. -/
def execExt (e : Fin 32) (d : Fin 16) (m : Fin 4) (sh : BitVec 5) (rm : Rm) (w : Bundle) (st : State) : Out :=
  st.run e { w with a := .ext d m sh rm }

/-- NORM (R84). Normalise an accumulator into a mantissa and an exponent count. -/
def execNorm (e : Fin 32) (d c : Fin 16) (m : Fin 4) (w : Bundle) (st : State) : Out :=
  st.run e { w with a := .norm d c m }

/-- ADD (R86). Saturating add of two D registers. -/
def execAdd (e : Fin 32) (d s t : Fin 16) (w : Bundle) (st : State) : Out :=
  st.run e { w with a := .add d s t }

/-- SUB (R86). Saturating subtract of two D registers. -/
def execSub (e : Fin 32) (d s t : Fin 16) (w : Bundle) (st : State) : Out :=
  st.run e { w with a := .sub d s t }

/-- MIN (R86). Signed minimum of two D registers. -/
def execMin (e : Fin 32) (d s t : Fin 16) (w : Bundle) (st : State) : Out :=
  st.run e { w with a := .min d s t }

/-- MAX (R86). Signed maximum of two D registers. -/
def execMax (e : Fin 32) (d s t : Fin 16) (w : Bundle) (st : State) : Out :=
  st.run e { w with a := .max d s t }

/-- SEL (R86). Select one of two registers by a flag condition. -/
def execSel (e : Fin 32) (d s t : Fin 16) (cond : Cond) (w : Bundle) (st : State) : Out :=
  st.run e { w with a := .sel d s t cond }

/-- CMP (R86). Compare two registers and set Z and N. -/
def execCmp (e : Fin 32) (s t : Fin 16) (w : Bundle) (st : State) : Out :=
  st.run e { w with a := .cmp s t }

/-- AND (R86). Bitwise AND. -/
def execAnd (e : Fin 32) (d s t : Fin 16) (w : Bundle) (st : State) : Out :=
  st.run e { w with a := .and d s t }

/-- OR (R86). Bitwise OR. -/
def execOr (e : Fin 32) (d s t : Fin 16) (w : Bundle) (st : State) : Out :=
  st.run e { w with a := .or d s t }

/-- XOR (R86). Bitwise exclusive OR. -/
def execXor (e : Fin 32) (d s t : Fin 16) (w : Bundle) (st : State) : Out :=
  st.run e { w with a := .xor d s t }

/-- SHL (R86). Shift left by a register amount. -/
def execShl (e : Fin 32) (d s t : Fin 16) (w : Bundle) (st : State) : Out :=
  st.run e { w with a := .shl d s t }

/-- ASR (R86). Arithmetic shift right by a register amount. -/
def execAsr (e : Fin 32) (d s t : Fin 16) (w : Bundle) (st : State) : Out :=
  st.run e { w with a := .asr d s t }

/-- SCALE (R85). Scale a word by a clamped power of two, saturating on left shifts. -/
def execScale (e : Fin 32) (d s t : Fin 16) (w : Bundle) (st : State) : Out :=
  st.run e { w with a := .scale d s t }

/-- EXPT (R85). Count redundant sign bits of a word. -/
def execExpt (e : Fin 32) (d s : Fin 16) (w : Bundle) (st : State) : Out :=
  st.run e { w with a := .expt d s }

/-- ABS (R86). Saturating absolute value. -/
def execAbs (e : Fin 32) (d s : Fin 16) (w : Bundle) (st : State) : Out :=
  st.run e { w with a := .abs d s }

/-- NEG (R86). Saturating negation. -/
def execNeg (e : Fin 32) (d s : Fin 16) (w : Bundle) (st : State) : Out :=
  st.run e { w with a := .neg d s }

/-- MOV (R86). Copy one D register to another. -/
def execMov (e : Fin 32) (d s : Fin 16) (w : Bundle) (st : State) : Out :=
  st.run e { w with a := .mov d s }

/-- ADDI (R86). Add a signed immediate, modulo 2^32. -/
def execAddi (e : Fin 32) (d s : Fin 16) (imm : BitVec 9) (w : Bundle) (st : State) : Out :=
  st.run e { w with a := .addi d s imm }

/-- CMPI (R86). Compare a register with an immediate. -/
def execCmpi (e : Fin 32) (s : Fin 16) (imm : BitVec 9) (w : Bundle) (st : State) : Out :=
  st.run e { w with a := .cmpi s imm }

/-- SHLI (R86). Shift left by an immediate. -/
def execShli (e : Fin 32) (d s : Fin 16) (imm : BitVec 5) (w : Bundle) (st : State) : Out :=
  st.run e { w with a := .shli d s imm }

/-- ASRI (R86). Arithmetic shift right by an immediate. -/
def execAsri (e : Fin 32) (d s : Fin 16) (imm : BitVec 5) (w : Bundle) (st : State) : Out :=
  st.run e { w with a := .asri d s imm }

/-- LSRI (R86). Logical shift right by an immediate. -/
def execLsri (e : Fin 32) (d s : Fin 16) (imm : BitVec 5) (w : Bundle) (st : State) : Out :=
  st.run e { w with a := .lsri d s imm }

/-- BCST (R78). Broadcast lane k of Ds to Dd in every lane. -/
def execBcst (e : Fin 32) (d s : Fin 16) (k : Fin 4) (w : Bundle) (st : State) : Out :=
  st.run e { w with a := .bcst d s k }

/-- MOVI (R86). Load a 16-bit immediate, sign-extended or into the high half. -/
def execMovi (e : Fin 32) (d : Fin 16) (imm : BitVec 16) (h : Bool) (w : Bundle) (st : State) : Out :=
  st.run e { w with a := .movi d imm h }

/-- LDQ (R91). Load a quad, one word per lane, with post-modification. -/
def execLdq (e : Fin 32) (sl : Slot) (r : Fin 16) (i : Fin 8) (j : Fin 4) (w : Bundle) (st : State) : Out :=
  match sl with
  | .x => st.run e { w with x := .ldq r i j }
  | .y => st.run e { w with y := .ldq r i j }

/-- LDW (R91). Load one word and broadcast it to all lanes. -/
def execLdw (e : Fin 32) (sl : Slot) (r : Fin 16) (i : Fin 8) (j : Fin 4) (w : Bundle) (st : State) : Out :=
  match sl with
  | .x => st.run e { w with x := .ldw r i j }
  | .y => st.run e { w with y := .ldw r i j }

/-- STQ (R91). Store a quad from the four lanes. -/
def execStq (e : Fin 32) (sl : Slot) (r : Fin 16) (i : Fin 8) (j : Fin 4) (w : Bundle) (st : State) : Out :=
  match sl with
  | .x => st.run e { w with x := .stq r i j }
  | .y => st.run e { w with y := .stq r i j }

/-- STW (R91). Store one word from the lane that owns it. -/
def execStw (e : Fin 32) (sl : Slot) (r : Fin 16) (i : Fin 8) (j : Fin 4) (w : Bundle) (st : State) : Out :=
  match sl with
  | .x => st.run e { w with x := .stw r i j }
  | .y => st.run e { w with y := .stw r i j }

/-- LDR (R91). Load a P or N register from DMEM. -/
def execLdr (e : Fin 32) (sl : Slot) (r : Fin 16) (i : Fin 8) (j : Fin 4) (w : Bundle) (st : State) : Out :=
  match sl with
  | .x => st.run e { w with x := .ldr r i j }
  | .y => st.run e { w with y := .ldr r i j }

/-- LDL (R91). Load an L register from DMEM. -/
def execLdl (e : Fin 32) (sl : Slot) (r : Fin 8) (i : Fin 8) (j : Fin 4) (w : Bundle) (st : State) : Out :=
  match sl with
  | .x => st.run e { w with x := .ldl r i j }
  | .y => st.run e { w with y := .ldl r i j }

/-- STR (R91). Store a P or N register to DMEM. -/
def execStr (e : Fin 32) (sl : Slot) (r : Fin 16) (i : Fin 8) (j : Fin 4) (w : Bundle) (st : State) : Out :=
  match sl with
  | .x => st.run e { w with x := .str r i j }
  | .y => st.run e { w with y := .str r i j }

/-- STL (R91). Store an L register to DMEM. -/
def execStl (e : Fin 32) (sl : Slot) (r : Fin 8) (i : Fin 8) (j : Fin 4) (w : Bundle) (st : State) : Out :=
  match sl with
  | .x => st.run e { w with x := .stl r i j }
  | .y => st.run e { w with y := .stl r i j }

/-- LDPQ (R97). Set Pi to a quad offset from SB. -/
def execLdpq (e : Fin 32) (i : Fin 8) (q : BitVec 11) (w : Bundle) (st : State) : Out :=
  st.run e { w with c := .ldpq i q }

/-- SETN (R97). Set a modifier register from a short immediate. -/
def execSetn (e : Fin 32) (i : Fin 8) (imm : BitVec 10) (w : Bundle) (st : State) : Out :=
  st.run e { w with c := .setn i imm }

/-- SETL (R97). Set a circular length from a short immediate. -/
def execSetl (e : Fin 32) (i : Fin 8) (imm : BitVec 10) (w : Bundle) (st : State) : Out :=
  st.run e { w with c := .setl i imm }

/-- ADDP (R97). Post-modify a pointer by a modifier under R89. -/
def execAddp (e : Fin 32) (i j : Fin 8) (w : Bundle) (st : State) : Out :=
  st.run e { w with c := .addp i j }

/-- MTP (R97). Move lane 0 of a D register to a pointer. -/
def execMtp (e : Fin 32) (i : Fin 8) (d : Fin 16) (w : Bundle) (st : State) : Out :=
  st.run e { w with c := .mtp i d }

/-- MTN (R97). Move lane 0 of a D register to a modifier. -/
def execMtn (e : Fin 32) (i : Fin 8) (d : Fin 16) (w : Bundle) (st : State) : Out :=
  st.run e { w with c := .mtn i d }

/-- MTL (R97). Move lane 0 of a D register to a length. -/
def execMtl (e : Fin 32) (i : Fin 8) (d : Fin 16) (w : Bundle) (st : State) : Out :=
  st.run e { w with c := .mtl i d }

/-- EI (R103). Set the event permit. -/
def execEi (e : Fin 32) (w : Bundle) (st : State) : Out :=
  st.run e { w with c := .ei }

/-- DI (R103). Clear the event permit. -/
def execDi (e : Fin 32) (w : Bundle) (st : State) : Out :=
  st.run e { w with c := .di }

/-- GADV (R101). Advance the glide index. -/
def execGadv (e : Fin 32) (w : Bundle) (st : State) : Out :=
  st.run e { w with c := .gadv }

/-- GSET (R101). Set the glide index. -/
def execGset (e : Fin 32) (j : BitVec 5) (w : Bundle) (st : State) : Out :=
  st.run e { w with c := .gset j }

/-- CLRF (R97). Clear selected sticky sat and gov flags. -/
def execClrf (e : Fin 32) (mask : BitVec 8) (w : Bundle) (st : State) : Out :=
  st.run e { w with c := .clrf mask }

/-- PWAIT (R63). Stall until the far request with tag t is complete. -/
def execPwait (e : Fin 32) (t : Fin 16) (w : Bundle) (st : State) : Out :=
  st.run e { w with c := .pwait t }

/-- BRA (R98). Relative branch with two delay slots. -/
def execBra (e : Fin 32) (rel : BitVec 12) (w : Bundle) (st : State) : Out :=
  st.run e { w with c := .bra rel }

/-- BC (R98). Conditional relative branch on lane-0 flags or on any gov or sat. -/
def execBc (e : Fin 32) (cond : Fin 8) (rel : BitVec 9) (w : Bundle) (st : State) : Out :=
  st.run e { w with c := .bc cond rel }

/-- DJN (R99). Decrement lane 0 of Dd and branch if the result is not zero. -/
def execDjn (e : Fin 32) (d : Fin 16) (rel : BitVec 8) (w : Bundle) (st : State) : Out :=
  st.run e { w with c := .djn d rel }

/-- RPT (R100). Repeat the next bundle n times. -/
def execRpt (e : Fin 32) (n : BitVec 12) (w : Bundle) (st : State) : Out :=
  st.run e { w with c := .rpt n }

/-- RPTW (R100). Repeat the next bundle up to 65,535 times. -/
def execRptw (e : Fin 32) (n : BitVec 16) (w : Bundle) (st : State) : Out :=
  st.run e { w with c := .rptw n }

/-- JMP (R98). Absolute jump with two delay slots. -/
def execJmp (e : Fin 32) (pc : BitVec 13) (w : Bundle) (st : State) : Out :=
  st.run e { w with c := .jmp pc }

/-- SETP (R97). Set a pointer to an absolute word address. -/
def execSetp (e : Fin 32) (i : Fin 8) (addr : BitVec 16) (w : Bundle) (st : State) : Out :=
  st.run e { w with c := .setp i addr }

/-- SETNW (R97). Set a modifier from a 16-bit immediate. -/
def execSetnw (e : Fin 32) (i : Fin 8) (imm : BitVec 16) (w : Bundle) (st : State) : Out :=
  st.run e { w with c := .setnw i imm }

/-- SETLW (R97). Set a length from a 16-bit immediate. -/
def execSetlw (e : Fin 32) (i : Fin 8) (imm : BitVec 16) (w : Bundle) (st : State) : Out :=
  st.run e { w with c := .setlw i imm }

/-- END (R102). End the running slice after its bundle. -/
def execEndSlice (e : Fin 32) (w : Bundle) (st : State) : Out :=
  st.run e { w with c := .endSlice }

/-- RTE (R66). Return from an event handler after two delay slots. -/
def execRte (e : Fin 32) (w : Bundle) (st : State) : Out :=
  st.run e { w with c := .rte }

/-- PGET (R92). Queue a far request that copies Pool quads into the exchange window. -/
def execPget (e : Fin 32) (t : Fin 16) (i : Fin 8) (s cnt : Fin 16) (w : Bundle) (st : State) : Out :=
  st.run e { w with c := .pget t i s cnt }

/-- PPUT (R92). Queue a far request that copies exchange-window quads into the Pool. -/
def execPput (e : Fin 32) (t : Fin 16) (i : Fin 8) (s cnt : Fin 16) (w : Bundle) (st : State) : Out :=
  st.run e { w with c := .pput t i s cnt }

/-- ILLEGAL_OP (R69, R77): a word reaches issue on an engine. One whose encoding is reserved or undefined
faults there; one that encodes a bundle issues as that bundle. -/
def execIllegalOp (e : Fin 32) (word : DWord) (st : State) : Out := done (st.issue e (decodeBundle word))

end Sys2Proof.Machine
end

