-- ==== Sys2Proof/Machine/Dispatch.lean ====
section
/-! DEFINITION. The meaning of each command: one arm per constructor of Instr. -/

namespace Sys2Proof.Machine

/-- A command's effect on everything but the queue. -/
def exec (i : Instr) (s : State) : Host.Outcome State Fault Refusal :=
  match i with
  | .registerWrite r addr data be => Sys2Proof.Machine.execRegisterWrite r addr data be s
  | .readClear r addr => Sys2Proof.Machine.execReadClear r addr s
  | .frameRun r rate blen => Sys2Proof.Machine.execFrameRun r rate blen s
  | .frameStop r rate blen => Sys2Proof.Machine.execFrameStop r rate blen s
  | .frameFormatChange r rate blen run => Sys2Proof.Machine.execFrameFormatChange r rate blen run s
  | .splitWrite r data => Sys2Proof.Machine.execSplitWrite r data s
  | .blockTick pest => Sys2Proof.Machine.execBlockTick pest s
  | .stripWindowClose => Sys2Proof.Machine.execStripWindowClose s
  | .matrixBusComplete b => Sys2Proof.Machine.execMatrixBusComplete b s
  | .cascadeDeadline => Sys2Proof.Machine.execCascadeDeadline s
  | .sumWindowClose => Sys2Proof.Machine.execSumWindowClose s
  | .busWindowClose => Sys2Proof.Machine.execBusWindowClose s
  | .sliceStart e => Sys2Proof.Machine.execSliceStart e s
  | .routerTapTransfer e => Sys2Proof.Machine.execRouterTapTransfer e s
  | .externalDmemAccess e quad write strb data => Sys2Proof.Machine.execExternalDmemAccess e quad write strb data s
  | .eventTake e => Sys2Proof.Machine.execEventTake e s
  | .handlerTimeout e => Sys2Proof.Machine.execHandlerTimeout e s
  | .pipelineResultLand e => Sys2Proof.Machine.execPipelineResultLand e s
  | .nop e => Sys2Proof.Machine.execNop e s
  | .mac e m x2 t w => Sys2Proof.Machine.execMac e m x2 t w s
  | .msb e m x2 t w => Sys2Proof.Machine.execMsb e m x2 t w s
  | .mpy e m x2 t w => Sys2Proof.Machine.execMpy e m x2 t w s
  | .mpyn e m x2 t w => Sys2Proof.Machine.execMpyn e m x2 t w s
  | .macl e m x2 t w => Sys2Proof.Machine.execMacl e m x2 t w s
  | .msbl e m x2 t w => Sys2Proof.Machine.execMsbl e m x2 t w s
  | .clr e m w => Sys2Proof.Machine.execClr e m w s
  | .lda e m x2 w => Sys2Proof.Machine.execLda e m x2 w s
  | .ext e d m sh rm w => Sys2Proof.Machine.execExt e d m sh rm w s
  | .norm e d c m w => Sys2Proof.Machine.execNorm e d c m w s
  | .add e d x2 t w => Sys2Proof.Machine.execAdd e d x2 t w s
  | .sub e d x2 t w => Sys2Proof.Machine.execSub e d x2 t w s
  | .min e d x2 t w => Sys2Proof.Machine.execMin e d x2 t w s
  | .max e d x2 t w => Sys2Proof.Machine.execMax e d x2 t w s
  | .sel e d x2 t cond w => Sys2Proof.Machine.execSel e d x2 t cond w s
  | .cmp e x1 t w => Sys2Proof.Machine.execCmp e x1 t w s
  | .and e d x2 t w => Sys2Proof.Machine.execAnd e d x2 t w s
  | .or e d x2 t w => Sys2Proof.Machine.execOr e d x2 t w s
  | .xor e d x2 t w => Sys2Proof.Machine.execXor e d x2 t w s
  | .shl e d x2 t w => Sys2Proof.Machine.execShl e d x2 t w s
  | .asr e d x2 t w => Sys2Proof.Machine.execAsr e d x2 t w s
  | .scale e d x2 t w => Sys2Proof.Machine.execScale e d x2 t w s
  | .expt e d x2 w => Sys2Proof.Machine.execExpt e d x2 w s
  | .abs e d x2 w => Sys2Proof.Machine.execAbs e d x2 w s
  | .neg e d x2 w => Sys2Proof.Machine.execNeg e d x2 w s
  | .mov e d x2 w => Sys2Proof.Machine.execMov e d x2 w s
  | .addi e d x2 imm w => Sys2Proof.Machine.execAddi e d x2 imm w s
  | .cmpi e x1 imm w => Sys2Proof.Machine.execCmpi e x1 imm w s
  | .shli e d x2 imm w => Sys2Proof.Machine.execShli e d x2 imm w s
  | .asri e d x2 imm w => Sys2Proof.Machine.execAsri e d x2 imm w s
  | .lsri e d x2 imm w => Sys2Proof.Machine.execLsri e d x2 imm w s
  | .bcst e d x2 k w => Sys2Proof.Machine.execBcst e d x2 k w s
  | .movi e d imm h w => Sys2Proof.Machine.execMovi e d imm h w s
  | .ldq e sl r k j w => Sys2Proof.Machine.execLdq e sl r k j w s
  | .ldw e sl r k j w => Sys2Proof.Machine.execLdw e sl r k j w s
  | .stq e sl r k j w => Sys2Proof.Machine.execStq e sl r k j w s
  | .stw e sl r k j w => Sys2Proof.Machine.execStw e sl r k j w s
  | .ldr e sl r k j w => Sys2Proof.Machine.execLdr e sl r k j w s
  | .ldl e sl r k j w => Sys2Proof.Machine.execLdl e sl r k j w s
  | .str e sl r k j w => Sys2Proof.Machine.execStr e sl r k j w s
  | .stl e sl r k j w => Sys2Proof.Machine.execStl e sl r k j w s
  | .ldpq e k q w => Sys2Proof.Machine.execLdpq e k q w s
  | .setn e k imm w => Sys2Proof.Machine.execSetn e k imm w s
  | .setl e k imm w => Sys2Proof.Machine.execSetl e k imm w s
  | .addp e k j w => Sys2Proof.Machine.execAddp e k j w s
  | .mtp e k d w => Sys2Proof.Machine.execMtp e k d w s
  | .mtn e k d w => Sys2Proof.Machine.execMtn e k d w s
  | .mtl e k d w => Sys2Proof.Machine.execMtl e k d w s
  | .ei e w => Sys2Proof.Machine.execEi e w s
  | .di e w => Sys2Proof.Machine.execDi e w s
  | .gadv e w => Sys2Proof.Machine.execGadv e w s
  | .gset e j w => Sys2Proof.Machine.execGset e j w s
  | .clrf e mask w => Sys2Proof.Machine.execClrf e mask w s
  | .pwait e t w => Sys2Proof.Machine.execPwait e t w s
  | .bra e rel w => Sys2Proof.Machine.execBra e rel w s
  | .bc e cond rel w => Sys2Proof.Machine.execBc e cond rel w s
  | .djn e d rel w => Sys2Proof.Machine.execDjn e d rel w s
  | .rpt e n w => Sys2Proof.Machine.execRpt e n w s
  | .rptw e n w => Sys2Proof.Machine.execRptw e n w s
  | .jmp e pc w => Sys2Proof.Machine.execJmp e pc w s
  | .setp e k addr w => Sys2Proof.Machine.execSetp e k addr w s
  | .setnw e k imm w => Sys2Proof.Machine.execSetnw e k imm w s
  | .setlw e k imm w => Sys2Proof.Machine.execSetlw e k imm w s
  | .endSlice e w => Sys2Proof.Machine.execEndSlice e w s
  | .rte e w => Sys2Proof.Machine.execRte e w s
  | .pget e t k x3 cnt w => Sys2Proof.Machine.execPget e t k x3 cnt w s
  | .pput e t k x3 cnt w => Sys2Proof.Machine.execPput e t k x3 cnt w s
  | .farBeatServe e => Sys2Proof.Machine.execFarBeatServe e s
  | .farRequestComplete e => Sys2Proof.Machine.execFarRequestComplete e s
  | .sliceTableCommit r e => Sys2Proof.Machine.execSliceTableCommit r e s
  | .migrationStart r => Sys2Proof.Machine.execMigrationStart r s
  | .migrationAbort r => Sys2Proof.Machine.execMigrationAbort r s
  | .migrationLoad => Sys2Proof.Machine.execMigrationLoad s
  | .migrationCompare => Sys2Proof.Machine.execMigrationCompare s
  | .busFlip r n flip => Sys2Proof.Machine.execBusFlip r n flip s
  | .morphArm r m abort => Sys2Proof.Machine.execMorphArm r m abort s
  | .morphAbort r m => Sys2Proof.Machine.execMorphAbort r m s
  | .bmxTransactionAccept t => Sys2Proof.Machine.execBmxTransactionAccept t s
  | .bmxArbitrationGrant t => Sys2Proof.Machine.execBmxArbitrationGrant t s
  | .bmxBeatServe t => Sys2Proof.Machine.execBmxBeatServe t s
  | .bmxTransactionComplete t => Sys2Proof.Machine.execBmxTransactionComplete t s
  | .lockTimeout t => Sys2Proof.Machine.execLockTimeout t s
  | .masterReset m => Sys2Proof.Machine.execMasterReset m s
  | .bmxSliceApply bit_ => Sys2Proof.Machine.execBmxSliceApply bit_ s
  | .bmxWindowAttrWrite r m w data => Sys2Proof.Machine.execBmxWindowAttrWrite r m w data s
  | .eventPost r p hdr => Sys2Proof.Machine.execEventPost r p hdr s
  | .outboxPost e o => Sys2Proof.Machine.execOutboxPost e o s
  | .eventDeliver d => Sys2Proof.Machine.execEventDeliver d s
  | .timedEventDue flow => Sys2Proof.Machine.execTimedEventDue flow s
  | .hostPop r q => Sys2Proof.Machine.execHostPop r q s
  | .slotMaskCommit r n => Sys2Proof.Machine.execSlotMaskCommit r n s
  | .groupStart r start => Sys2Proof.Machine.execGroupStart r start s
  | .groupStop r stop => Sys2Proof.Machine.execGroupStop r stop s
  | .sapFrame n f => Sys2Proof.Machine.execSapFrame n f s
  | .sapClockLoss n => Sys2Proof.Machine.execSapClockLoss n s
  | .sapRingWrite n => Sys2Proof.Machine.execSapRingWrite n s
  | .sapRingFetch n => Sys2Proof.Machine.execSapRingFetch n s
  | .aes3Frame n f => Sys2Proof.Machine.execAes3Frame n f s
  | .aes3LockLoss n => Sys2Proof.Machine.execAes3LockLoss n s
  | .aesTxCommit r n => Sys2Proof.Machine.execAesTxCommit r n s
  | .aesTxBlockStart n => Sys2Proof.Machine.execAesTxBlockStart n s
  | .srcCommit r => Sys2Proof.Machine.execSrcCommit r s
  | .srcLock c => Sys2Proof.Machine.execSrcLock c s
  | .macFrameReceive n f => Sys2Proof.Machine.execMacFrameReceive n f s
  | .macTxSelect n => Sys2Proof.Machine.execMacTxSelect n s
  | .macTxComplete n => Sys2Proof.Machine.execMacTxComplete n s
  | .segAbort r n abort => Sys2Proof.Machine.execSegAbort r n abort s
  | .timestampPop r n => Sys2Proof.Machine.execTimestampPop r n s
  | .gateListCommit r n => Sys2Proof.Machine.execGateListCommit r n s
  | .gateListActivate n => Sys2Proof.Machine.execGateListActivate n s
  | .gateIntervalEnd n => Sys2Proof.Machine.execGateIntervalEnd n s
  | .pauseExpire n => Sys2Proof.Machine.execPauseExpire n s
  | .pauseWatchdog n => Sys2Proof.Machine.execPauseWatchdog n s
  | .linkBlockLockTimer n => Sys2Proof.Machine.execLinkBlockLockTimer n s
  | .linkLoss n => Sys2Proof.Machine.execLinkLoss n s
  | .remoteFaultReceive n => Sys2Proof.Machine.execRemoteFaultReceive n s
  | .remoteFaultClear n => Sys2Proof.Machine.execRemoteFaultClear n s
  | .streamPathDown x0 pathB => Sys2Proof.Machine.execStreamPathDown x0 pathB s
  | .ptpOffsetReport port offset clockClass clockAccuracy => Sys2Proof.Machine.execPtpOffsetReport port offset clockClass clockAccuracy s
  | .ptpAnnounceTimeout port => Sys2Proof.Machine.execPtpAnnounceTimeout port s
  | .stcSteerUpdate => Sys2Proof.Machine.execStcSteerUpdate s
  | .saffronWindowEnd meas => Sys2Proof.Machine.execSaffronWindowEnd meas s
  | .referenceLos k => Sys2Proof.Machine.execReferenceLos k s
  | .stcSet r => Sys2Proof.Machine.execStcSet r s
  | .stcSnap r => Sys2Proof.Machine.execStcSnap r s
  | .timedStartArm r cancel => Sys2Proof.Machine.execTimedStartArm r cancel s
  | .timedStartCancel r => Sys2Proof.Machine.execTimedStartCancel r s
  | .timedStart => Sys2Proof.Machine.execTimedStart s
  | .dongoFrameReceive n bytes => Sys2Proof.Machine.execDongoFrameReceive n bytes s
  | .dongoRxTimeout n => Sys2Proof.Machine.execDongoRxTimeout n s
  | .dongoTrainTimeout n => Sys2Proof.Machine.execDongoTrainTimeout n s
  | .dongoAckTimer n => Sys2Proof.Machine.execDongoAckTimer n s
  | .dongoTimeSend n => Sys2Proof.Machine.execDongoTimeSend n s
  | .dongoDelayMeasure n roundTrip => Sys2Proof.Machine.execDongoDelayMeasure n roundTrip s
  | .dongoEventForward n => Sys2Proof.Machine.execDongoEventForward n s
  | .heartbeatReceive width => Sys2Proof.Machine.execHeartbeatReceive width s
  | .aniseRecordReceive a => Sys2Proof.Machine.execAniseRecordReceive a s
  | .anisePathLoss path => Sys2Proof.Machine.execAnisePathLoss path s
  | .aniseTake r => Sys2Proof.Machine.execAniseTake r s
  | .aniseRelease r => Sys2Proof.Machine.execAniseRelease r s
  | .mirrorCopy r => Sys2Proof.Machine.execMirrorCopy r s
  | .mirrorCopyAbort r => Sys2Proof.Machine.execMirrorCopyAbort r s
  | .mirrorSliceLoad => Sys2Proof.Machine.execMirrorSliceLoad s
  | .pcieTlpReceive t => Sys2Proof.Machine.execPcieTlpReceive t s
  | .functionLevelReset fn => Sys2Proof.Machine.execFunctionLevelReset fn s
  | .interruptRearm r vec => Sys2Proof.Machine.execInterruptRearm r vec s
  | .mailboxGo r m => Sys2Proof.Machine.execMailboxGo r m s
  | .mailboxAnswer m status rsp => Sys2Proof.Machine.execMailboxAnswer m status rsp s
  | .mailboxTimeout m => Sys2Proof.Machine.execMailboxTimeout m s
  | .getVersion m => Sys2Proof.Machine.execGetVersion m s
  | .getStats m => Sys2Proof.Machine.execGetStats m s
  | .ptpSet m => Sys2Proof.Machine.execPtpSet m s
  | .ptpStop m => Sys2Proof.Machine.execPtpStop m s
  | .ptpStatus m => Sys2Proof.Machine.execPtpStatus m s
  | .discSet m => Sys2Proof.Machine.execDiscSet m s
  | .discoveryAnnounce port => Sys2Proof.Machine.execDiscoveryAnnounce port s
  | .aniStats m => Sys2Proof.Machine.execAniStats m s
  | .fwUpdate m => Sys2Proof.Machine.execFwUpdate m s
  | .coreRestart m => Sys2Proof.Machine.execCoreRestart m s
  | .shedLevelRise load0 load1 => Sys2Proof.Machine.execShedLevelRise load0 load1 s
  | .shedLevelFall load0 load1 => Sys2Proof.Machine.execShedLevelFall load0 load1 s
  | .houseWatchdogReset c => Sys2Proof.Machine.execHouseWatchdogReset c s
  | .dmaGo r u c => Sys2Proof.Machine.execDmaGo r u c s
  | .dmaAbort r u c => Sys2Proof.Machine.execDmaAbort r u c s
  | .dmaTransactionIssue u hostData => Sys2Proof.Machine.execDmaTransactionIssue u hostData s
  | .powerStateRequest r => Sys2Proof.Machine.execPowerStateRequest r s
  | .powerStateEnter => Sys2Proof.Machine.execPowerStateEnter s
  | .hostWake r => Sys2Proof.Machine.execHostWake r s
  | .gpioWake n falling => Sys2Proof.Machine.execGpioWake n falling s
  | .aonTimerExpiry => Sys2Proof.Machine.execAonTimerExpiry s
  | .powerStateExit => Sys2Proof.Machine.execPowerStateExit s
  | .temperatureSample t => Sys2Proof.Machine.execTemperatureSample t s
  | .hotCountPeriod => Sys2Proof.Machine.execHotCountPeriod s
  | .powerOnReset pins => Sys2Proof.Machine.execPowerOnReset pins s
  | .systemReset r key boot => Sys2Proof.Machine.execSystemReset r key boot s
  | .pcieFundamentalReset boot => Sys2Proof.Machine.execPcieFundamentalReset boot s
  | .fuseLoadDone f => Sys2Proof.Machine.execFuseLoadDone f s
  | .selfTestDone res => Sys2Proof.Machine.execSelfTestDone res s
  | .bootHostGo r => Sys2Proof.Machine.execBootHostGo r s
  | .bootFlashTimeout => Sys2Proof.Machine.execBootFlashTimeout s
  | .bootImageCheck flash => Sys2Proof.Machine.execBootImageCheck flash s
  | .bootReady => Sys2Proof.Machine.execBootReady s
  | .jtagInstruction k => Sys2Proof.Machine.execJtagInstruction k s
  | .illegalOp e word => Sys2Proof.Machine.execIllegalOp e word s
  | .dongoLaneLockLoss n => Sys2Proof.Machine.execDongoLaneLockLoss n s
  | .referenceInputEdge video width err ago => Sys2Proof.Machine.execReferenceInputEdge video width err ago s
  | .pcieLinkChange up width speed => Sys2Proof.Machine.execPcieLinkChange up width speed s
  | .houseCoreRunning c => Sys2Proof.Machine.execHouseCoreRunning c s
  | .ptpMessageSend port k => Sys2Proof.Machine.execPtpMessageSend port k s

end Sys2Proof.Machine
end

