-- ==== Sys2Proof/Machine/Pins.lean ====
section
/-! DEFINITION. What the output pins do (R236, R309, R328, R329, R376, R384, R392). -/

namespace Sys2Proof.Machine

/-- What a pin does: a level, a released or high-impedance pin, one with a pull-down, or the signal that its unit sends. -/
inductive PinState where
  | low | high | input | hiz | pullDown | signal
deriving DecidableEq, Repr

/-- A driven level. -/
def pinLevel (b : Bool) : PinState := if b then .high else .low

/-- An EXTEST-class instruction is in the instruction register (R384). -/
def State.scanning (s : State) : Bool :=
  s.boot.jtag == .extest || s.boot.jtag == .extestPulse || s.boot.jtag == .extestTrain

/-- A port's format has its two BCLK edges swapped (R223). -/
def State.bclkInv (s : State) (n : Nat) : Bool := s.rdB (SAP_FMT n) 12

/-- BCLK in the first or second half of a bit period of a port that drives it (R223, R226, R236): data changes on its
falling edge, and a stopped master holds it low. DEDUCED: assumption 117. -/
def State.bclkLevel (s : State) (n : Nat) (second : Bool) : Bool := s.sapRunning n && (second != s.bclkInv n)

/-- WS in BCLK period `p` of a frame of a port that drives it (R223, R226, R236). -/
def State.wsLevel (s : State) (n p : Nat) : Bool := s.sapRunning n && fmtWs (s.rd (SAP_FMT n)) p

/-- BCLK and WS of a port (R222, R236, R392): inputs until it is a master. -/
def State.clockPin (s : State) (n : Nat) (level : Bool) : PinState :=
  if s.held then .input
  else if s.deep then .pullDown
  else if s.sapMaster n then pinLevel level
  else .input

/-- SDO of a port in slot `i` of frame `j`, in its bit `k` (R392); held, it keeps the level that it had (R237). -/
def State.sdoPin (s : State) (n i j k : Nat) : PinState :=
  if s.deep then .pullDown
  else match s.sdo n i j with
    | .hiz => .hiz
    | .low => .low
    | .hold => .signal
    | .word w => pinLevel (w.getLsbD (31 - k))

/-- AESTXn (R247, R329, R392): low until enabled. -/
def State.aesPin (s : State) (n : Nat) : PinState :=
  if s.held then .low
  else if s.deep then .pullDown
  else if (s.aesTxFrame n 0).isSome then .signal
  else .low

/-- WCLK_OUT (0) or MCLKm (1 + m) (R309, R392). -/
def State.clkPin (s : State) (k : Nat) : PinState :=
  if s.held then .low else if s.deep then .pullDown else pinLevel (s.clkLevel k)

/-- A flash pin (R392): driven in step 4 of R381 while the image comes from flash. -/
def State.qspiPin (s : State) : PinState :=
  if s.deep then .pullDown
  else if s.boot.step == .image && s.fromFlash then .signal
  else .hiz

/-- What the device does with a pin (R392). TDO is driven while an instruction or data is shifted, which no command of the
model is in the middle of. -/
def State.devicePin (s : State) : Pin → PinState
  | .sapSdo n => if s.deep then .pullDown else if s.sapRunning n && !(s.gatedOut 0) && !s.held then .signal else .hiz
  | .sapBclk n => s.clockPin n (s.bclkLevel n false)
  | .sapWs n => s.clockPin n (s.wsLevel n 0)
  | .aesTx n => s.aesPin n
  | .mclk m => s.clkPin (1 + m)
  | .wclkOut => s.clkPin 0
  | .hbTx => pinLevel (s.ani.hbTx && !s.deep && !s.held)
  | .faultN => if s.faultLow then .low else .hiz
  | .gpio _ => .input
  | .qspiClk | .qspiIo _ => s.qspiPin
  | .tdo => .hiz
  | .macTx _ | .dngTx _ _ | .pcieTx _ => .signal

/-- What a pin does (R384, R392): while an EXTEST-class instruction is in force the boundary cells drive the pins in place
of the device. A cell that nothing preloaded is low. DESIGN CHOICE: assumption 118. -/
def State.pin (s : State) (p : Pin) : PinState :=
  if s.scanning && p != .tdo then pinLevel ((s.boot.cells.lookup p).getD false) else s.devicePin p

end Sys2Proof.Machine
end

