-- ==== Sys2Proof/Safety.lean ====
section
/-! DEFINITION. What counts as a safe run of the block, and the terms in which claims about it are stated. -/

namespace Sys2Proof

open Sys2Proof.Machine

/-- A command completes in a next state, of which `P` holds: it ends neither in a fault nor in a refusal. -/
def Gives (c : Instr) (s : State) (P : State → Prop) : Prop := ∃ t, exec c s = .next t ∧ P t

/-- The interrupt vectors whose condition holds are the ones recorded as signalled (R352, R353). -/
def VectorsSettled (s : State) : Prop := s.hif.cond = vectors.filter (fun v => s.vecCond v)

/-- A write of register `r` by `q` reaches it: `q` may write it (R11, R203, R351), no thermal trip or power-on reset holds the device
(R376, R389), and no Anise pairing mirrors or discards it (R330, R331). -/
def Reaches (s : State) (q : Req) (r : Reg) : Prop :=
  writerOk q r = true ∧ s.held = false ∧
    (q.master = 6 → mirrored r.addr = true → s.aniStandby = false ∧ s.aniActive = false)

/-- A memory operation put in a slot of a bundle. -/
def Bundle.put (w : Bundle) (sl : Slot) (op : MemOp) : Bundle :=
  match sl with
  | .x => { w with x := op }
  | .y => { w with y := op }

/-- The engine and the bundle of a command that issues one (R73). -/
def Instr.bundle? : Instr → Option (Fin 32 × Bundle)
  | .nop e => some (e, .nop)
  | .mac e m s t w => some (e, Bundle.fit { w with a := .mac m s t })
  | .msb e m s t w => some (e, Bundle.fit { w with a := .msb m s t })
  | .mpy e m s t w => some (e, Bundle.fit { w with a := .mpy m s t })
  | .mpyn e m s t w => some (e, Bundle.fit { w with a := .mpyn m s t })
  | .macl e m s t w => some (e, Bundle.fit { w with a := .macl m s t })
  | .msbl e m s t w => some (e, Bundle.fit { w with a := .msbl m s t })
  | .clr e m w => some (e, Bundle.fit { w with a := .clr m })
  | .lda e m s w => some (e, Bundle.fit { w with a := .lda m s })
  | .ext e d m sh rm w => some (e, Bundle.fit { w with a := .ext d m sh rm })
  | .norm e d c m w => some (e, Bundle.fit { w with a := .norm d c m })
  | .add e d s t w => some (e, Bundle.fit { w with a := .add d s t })
  | .sub e d s t w => some (e, Bundle.fit { w with a := .sub d s t })
  | .min e d s t w => some (e, Bundle.fit { w with a := .min d s t })
  | .max e d s t w => some (e, Bundle.fit { w with a := .max d s t })
  | .sel e d s t cond w => some (e, Bundle.fit { w with a := .sel d s t cond })
  | .cmp e s t w => some (e, Bundle.fit { w with a := .cmp s t })
  | .and e d s t w => some (e, Bundle.fit { w with a := .and d s t })
  | .or e d s t w => some (e, Bundle.fit { w with a := .or d s t })
  | .xor e d s t w => some (e, Bundle.fit { w with a := .xor d s t })
  | .shl e d s t w => some (e, Bundle.fit { w with a := .shl d s t })
  | .asr e d s t w => some (e, Bundle.fit { w with a := .asr d s t })
  | .scale e d s t w => some (e, Bundle.fit { w with a := .scale d s t })
  | .expt e d s w => some (e, Bundle.fit { w with a := .expt d s })
  | .abs e d s w => some (e, Bundle.fit { w with a := .abs d s })
  | .neg e d s w => some (e, Bundle.fit { w with a := .neg d s })
  | .mov e d s w => some (e, Bundle.fit { w with a := .mov d s })
  | .addi e d s imm w => some (e, Bundle.fit { w with a := .addi d s imm })
  | .cmpi e s imm w => some (e, Bundle.fit { w with a := .cmpi s imm })
  | .shli e d s imm w => some (e, Bundle.fit { w with a := .shli d s imm })
  | .asri e d s imm w => some (e, Bundle.fit { w with a := .asri d s imm })
  | .lsri e d s imm w => some (e, Bundle.fit { w with a := .lsri d s imm })
  | .bcst e d s k w => some (e, Bundle.fit { w with a := .bcst d s k })
  | .movi e d imm h w => some (e, Bundle.fit { w with a := .movi d imm h })
  | .ldq e sl r i j w => some (e, (w.put sl (.ldq r i j)).fit)
  | .ldw e sl r i j w => some (e, (w.put sl (.ldw r i j)).fit)
  | .stq e sl r i j w => some (e, (w.put sl (.stq r i j)).fit)
  | .stw e sl r i j w => some (e, (w.put sl (.stw r i j)).fit)
  | .ldr e sl r i j w => some (e, (w.put sl (.ldr r i j)).fit)
  | .ldl e sl r i j w => some (e, (w.put sl (.ldl r i j)).fit)
  | .str e sl r i j w => some (e, (w.put sl (.str r i j)).fit)
  | .stl e sl r i j w => some (e, (w.put sl (.stl r i j)).fit)
  | .ldpq e i q w => some (e, Bundle.fit { w with c := .ldpq i q })
  | .setn e i imm w => some (e, Bundle.fit { w with c := .setn i imm })
  | .setl e i imm w => some (e, Bundle.fit { w with c := .setl i imm })
  | .addp e i j w => some (e, Bundle.fit { w with c := .addp i j })
  | .mtp e i d w => some (e, Bundle.fit { w with c := .mtp i d })
  | .mtn e i d w => some (e, Bundle.fit { w with c := .mtn i d })
  | .mtl e i d w => some (e, Bundle.fit { w with c := .mtl i d })
  | .ei e w => some (e, Bundle.fit { w with c := .ei })
  | .di e w => some (e, Bundle.fit { w with c := .di })
  | .gadv e w => some (e, Bundle.fit { w with c := .gadv })
  | .gset e j w => some (e, Bundle.fit { w with c := .gset j })
  | .clrf e mask w => some (e, Bundle.fit { w with c := .clrf mask })
  | .pwait e t w => some (e, Bundle.fit { w with c := .pwait t })
  | .bra e rel w => some (e, Bundle.fit { w with c := .bra rel })
  | .bc e cond rel w => some (e, Bundle.fit { w with c := .bc cond rel })
  | .djn e d rel w => some (e, Bundle.fit { w with c := .djn d rel })
  | .rpt e n w => some (e, Bundle.fit { w with c := .rpt n })
  | .rptw e n w => some (e, Bundle.fit { w with c := .rptw n })
  | .jmp e pc w => some (e, Bundle.fit { w with c := .jmp pc })
  | .setp e i addr w => some (e, Bundle.fit { w with c := .setp i addr })
  | .setnw e i imm w => some (e, Bundle.fit { w with c := .setnw i imm })
  | .setlw e i imm w => some (e, Bundle.fit { w with c := .setlw i imm })
  | .endSlice e w => some (e, Bundle.fit { w with c := .endSlice })
  | .rte e w => some (e, Bundle.fit { w with c := .rte })
  | .pget e t i s cnt w => some (e, Bundle.fit { w with c := .pget t i s cnt })
  | .pput e t i s cnt w => some (e, Bundle.fit { w with c := .pput t i s cnt })
  | _ => none

/-- The engine at the cycle in which it issues a bundle: its present one, or the next where a bundle has issued in
it (R45). -/
def issueEng (s : State) (e : Fin 32) (_b : Bundle) : Engine := (s.engAt e).toIssue

/-- Whether an engine can take an external access to a DMEM quad by its cluster's DMA now: the external port of the
exchange window is free, or a half-cycle of the rest of DMEM (R51, R52, R179). -/
def extReady (e : Fin 32) (quad : Nat) (write : Bool) (g : Engine) : Bool :=
  let p := g.portAt (portClass (e / 8))
  if inXwin quad then (if write then decide (p ≤ g.writeSlot) else decide (p < g.readEnd)) else decide (0 < g.spare)

/-- The state in which an external access is made: the program goes on until the engine can take it (R51, R52). -/
def extState (s : State) (e : Fin 32) (quad : Nat) (write : Bool) : State :=
  s.waitExt e (extReady e quad write) maxWait

/-- The state in that cycle. -/
def issueState (s : State) (e : Fin 32) (b : Bundle) : State := s.setEng e (issueEng s e b)

/-- An engine issues a bundle: a slice or a handler runs on it with no hold, and the bundle breaks no rule of R69. -/
def Ready (s : State) (e : Fin 32) (b : Bundle) : Prop :=
  (s.engAt e).runnable = true ∧ issueFault (issueEng s e b) (some b) = none

/-- The next bundle is the second delay slot of an RTE (R66). -/
def Machine.Engine.returns (g : Engine) : Bool := match g.delay with
  | some d => d.rte && decide (d.left ≤ 1)
  | none => false

/-- A bundle that ends no slice, with no halt waiting, and is not the second delay slot of an RTE. -/
def Straight (g : Engine) (b : Bundle) : Prop := g.returns = false ∧ b.c ≠ .endSlice ∧ g.halting = false

/-- A result is on its way to the register set that issued it, to be seen `n` bundles after its own (R55). -/
def Lands (u : State) (e : Fin 32) (g : Engine) (n : Nat) (x : Landing) : Prop :=
  (⟨g.cyc + n, g.inEvt, x⟩ : Flight) ∈ (u.eng e).flight

/-- The write-back of a memory slot's pointer, seen by the next bundle (R88). -/
def pointerBack (g : Engine) (i : Fin 8) (j : Fin 4) : Flight :=
  ⟨g.cyc + 1, g.inEvt, .p i (modify (g.rs.pR i) (g.rs.nR (slotMod i j)) (g.rs.lR i))⟩

/-- What a control instruction puts in flight (R97, R99, R103). -/
def ctlPuts (g : Engine) : CtlOp → List Flight
  | .ei => [⟨g.cyc + 1, g.inEvt, .epm true⟩]
  | .di => [⟨g.cyc + 1, g.inEvt, .epm false⟩]
  | .clrf m => [⟨g.cyc + 1, g.inEvt, .clrf m⟩]
  | .addp i j => [⟨g.cyc + 1, g.inEvt, .p i (modify (g.rs.pR i) (g.rs.nR j) (g.rs.lR i))⟩]
  | .mtp i d => [⟨g.cyc + 1, g.inEvt, .p i ((g.rs.dL d 0).extractLsb' 0 16)⟩]
  | .mtn i d => [⟨g.cyc + 1, g.inEvt, .n i ((g.rs.dL d 0).extractLsb' 0 16)⟩]
  | .mtl i d => [⟨g.cyc + 1, g.inEvt, .l i ((g.rs.dL d 0).extractLsb' 0 16)⟩]
  | .ldpq i q => [⟨g.cyc + 1, g.inEvt, .p i (BitVec.ofNat 16 ((g.rs.sb.toNat + q.toNat) % 2 ^ 14 * 4))⟩]
  | .setp i a => [⟨g.cyc + 1, g.inEvt, .p i a⟩]
  | .setn i v => [⟨g.cyc + 1, g.inEvt, .n i (v.signExtend 16)⟩]
  | .setnw i v => [⟨g.cyc + 1, g.inEvt, .n i v⟩]
  | .setl i v => [⟨g.cyc + 1, g.inEvt, .l i (v.zeroExtend 16)⟩]
  | .setlw i v => [⟨g.cyc + 1, g.inEvt, .l i v⟩]
  | .djn d _ => [⟨g.cyc + 2, g.inEvt, .d d ⟨some (g.rs.dL d 0 - 1), none, none, none⟩⟩]
  | _ => []

/-- The registers of a set that a bundle can read. -/
def SameRegs (r t : RegSet) : Prop :=
  t.d = r.d ∧ t.a = r.a ∧ t.p = r.p ∧ t.n = r.n ∧ t.l = r.l ∧ t.sb = r.sb ∧ t.sr = r.sr

/-- The device address of a DMEM word as an X or Y access of an engine reaches it (R54, R146). -/
def wordAt (s : State) (e : Fin 32) (w : Nat) : Nat := dmemAddr e (s.viewWord e w)

/-- The state in which a memory slot of an issuing bundle makes its access: Y comes after X (R49). -/
def slotState (s : State) (e : Fin 32) (b : Bundle) (sl : Slot) : State :=
  match sl with
  | .x => issueState s e b
  | .y => (issueState s e b).memSlot e (issueEng s e b).rs b.x

/-- A load of the DMEM word reads what the memory holds: no outstanding PGET is to write it (R63), and the external port
writes no byte of it in a later cycle (R180). -/
def LoadDefined (t : State) (e : Fin 32) (w : Nat) : Prop :=
  (∀ q ∈ (t.eng e).far, q.get = true → q.covers (t.viewWord e w) = false) ∧
  ∀ x ∈ (t.eng e).xold, ¬(wordAt t e w ≤ x.2.1 ∧ x.2.1 < wordAt t e w + 4)

/-- A word loaded is what the memory holds, where that is defined. -/
def Loaded (t : State) (e : Fin 32) (w : Nat) (v : Word) : Prop := LoadDefined t e w → v = wordOf t.mem (wordAt t e w)

/-- What a memory slot puts in flight: what it loads, seen three bundles later, then its pointer's write-back (R91). -/
def MemPuts (t : State) (e : Fin 32) (g : Engine) : MemOp → List Flight → Prop
  | .nop, fl => fl = []
  | .ldq r i j, fl => ∃ v : L4 Word, (∀ k : Fin 4, Loaded t e ((g.rs.pR i).toNat / 4 * 4 + k.val) (v.get k)) ∧
      fl = [⟨g.cyc + 3, g.inEvt, .d r (v.map some)⟩, pointerBack g i j]
  | .ldw r i j, fl => ∃ v, Loaded t e (g.rs.pR i).toNat v ∧
      fl = [⟨g.cyc + 3, g.inEvt, .d r (L4.all (some v))⟩, pointerBack g i j]
  | .ldr r i j, fl => ∃ v, Loaded t e (g.rs.pR i).toNat v ∧
      fl = [⟨g.cyc + 3, g.inEvt, xrLanding r (v.extractLsb' 0 16)⟩, pointerBack g i j]
  | .ldl r i j, fl => ∃ v, Loaded t e (g.rs.pR i).toNat v ∧
      fl = [⟨g.cyc + 3, g.inEvt, .l r (v.extractLsb' 0 16)⟩, pointerBack g i j]
  | .stq _ i j, fl | .stw _ i j, fl | .str _ i j, fl | .stl _ i j, fl => fl = [pointerBack g i j]

/-- The results in flight after a bundle has issued: those before it, then exactly what its slots put there, the
arithmetic slot `xs`, to be seen `n` bundles later. -/
def InFlight (s u : State) (e : Fin 32) (b : Bundle) (n : Nat) (xs : List Landing) : Prop :=
  let g := issueEng s e b
  ∃ fx fy, MemPuts (slotState s e b .x) e g b.x fx ∧ MemPuts (slotState s e b .y) e g b.y fy ∧
    (u.eng e).flight = g.flight ++ fx ++ fy ++ xs.map (fun x => ⟨g.cyc + n, g.inEvt, x⟩) ++ ctlPuts g b.c

/-- The device bytes that a bundle's memory slots store. -/
def storedBytes (s : State) (e : Fin 32) (b : Bundle) (a : Nat) : Prop :=
  ∃ op ∈ [b.x, b.y], ∃ w n, storeSpan (issueEng s e b).rs op = some (w, n) ∧
    ∃ i < n, wordAt (issueState s e b) e (w + i) ≤ a ∧ a < wordAt (issueState s e b) e (w + i) + 4

end Sys2Proof
end

