-- ==== Sys2Proof/Certificates/Slice0/Obligations.lean ====
section
/-! DEFINITION. The statements about the model: what a step does, what the engines' bundles do, and what each
family of commands does to the registers, the memory, the queues and the pins of the block. -/

namespace Sys2Proof

open Sys2Proof.Machine

/-- The value clamped to a 32-bit word (sat32 of R86). -/
def clamp32 (v : Int) : Word := BitVec.ofInt 32 (max (-2147483648) (min 2147483647 v))

/-- The value does not fit in a 32-bit word. -/
def over32 (v : Int) : Bool := decide (v < -2147483648) || decide (2147483647 < v)

/-- The word and the sticky flags that an arithmetic bundle puts in flight: the word `f` and Z and N from it in
every lane, seen two bundles later, and SR.sat of the lanes in which `sat` holds, if any; nothing else goes in flight but
what the other slots put there, unless the handler returns with the bundle. -/
def WordResult (c : Instr) (s : State) (e : Fin 32) (b : Bundle) (d : Fin 16) (f : RegSet → Fin 4 → Word)
    (sat : RegSet → Fin 4 → Bool) : Prop :=
  Ready s e b → Gives c s fun u =>
    let g := issueEng s e b
    Lands u e g 2 (.d d (L4.of fun k => some (f g.rs k))) ∧
    Lands u e g 2 (.zn (L4.of fun k => f g.rs k == 0) (L4.of fun k => (f g.rs k).msb)) ∧
    ((∃ k, sat g.rs k = true) → Lands u e g 2 (.sticky (L4.all false) (L4.of fun k => sat g.rs k))) ∧
    (g.returns = false → InFlight s u e b 2 ([.d d (L4.of fun k => some (f g.rs k)),
        .zn (L4.of fun k => f g.rs k == 0) (L4.of fun k => (f g.rs k).msb)] ++
      if (∃ k, sat g.rs k = true) then [.sticky (L4.all false) (L4.of fun k => sat g.rs k)] else []))

/-- What adding `q` writes to an accumulator: nothing while it is locked, else the exact sum clamped to 80 bits, which
locks when it clamps (R79). -/
def accSum (a : AccV) (q : Int) : Option AccV :=
  if a.lock then none
  else some ⟨BitVec.ofInt 80 (max (-(2 ^ 79)) (min (2 ^ 79 - 1) (a.v.toInt + q))),
             decide (a.v.toInt + q < -(2 ^ 79)) || decide (2 ^ 79 - 1 < a.v.toInt + q)⟩

/-- Adding `q` overflows the guard bits. -/
def accOver (a : AccV) (q : Int) : Bool :=
  !a.lock && (decide (a.v.toInt + q < -(2 ^ 79)) || decide (2 ^ 79 - 1 < a.v.toInt + q))

/-- An accumulation of `q` in every lane, seen four bundles later, with SR.gov of the lanes that overflow: the model's
choice (assumption 74), as R86's text gives a flag two bundles and its table four. Nothing else goes in flight but what the
other slots put there, unless the handler returns with the bundle. -/
def AccResult (c : Instr) (s : State) (e : Fin 32) (b : Bundle) (m : Fin 4)
    (q : RegSet → L4 Word → Fin 4 → Int) : Prop :=
  Ready s e b → Gives c s fun u =>
    let g := issueEng s e b
    let gl := (issueState s e b).gOf e
    let a := pathStart g.rs m g.cyc
    Lands u e g 4 (.a m (L4.of fun k => accSum (a.get k) (q g.rs gl k))) ∧
    ((∃ k, accOver (a.get k) (q g.rs gl k) = true) →
      Lands u e g 4 (.sticky (L4.of fun k => accOver (a.get k) (q g.rs gl k)) (L4.all false))) ∧
    (g.returns = false → InFlight s u e b 4 ([.a m (L4.of fun k => accSum (a.get k) (q g.rs gl k))] ++
      if (∃ k, accOver (a.get k) (q g.rs gl k) = true)
      then [.sticky (L4.of fun k => accOver (a.get k) (q g.rs gl k)) (L4.all false)] else []))

/-- An accumulator loaded with `q` in every lane and its lock cleared, seen `n` bundles later, and nothing else but what
the other slots put in flight, unless the handler returns with the bundle. -/
def AccLoad (c : Instr) (s : State) (e : Fin 32) (b : Bundle) (n : Nat) (m : Fin 4)
    (q : RegSet → L4 Word → Fin 4 → Int) : Prop :=
  Ready s e b → Gives c s fun u =>
    let g := issueEng s e b
    let x := Landing.a m (L4.of fun k => some ⟨BitVec.ofInt 80 (q g.rs ((issueState s e b).gOf e) k), false⟩)
    Lands u e g n x ∧ (g.returns = false → InFlight s u e b n [x])

/-- The number of leading bits of a word equal to its top bit, minus 1. -/
def IsSignCount {n : Nat} (w : BitVec n) (r : Nat) : Prop :=
  r < n ∧ (∀ i, i ≤ r → w.getLsbD (n - 1 - i) = w.msb) ∧ (r + 1 < n → w.getLsbD (n - 1 - (r + 1)) ≠ w.msb)

/-- The value EXT rounds: the accumulator, with the lane's new dither value for TPDF (R81, R82). -/
def extValue (r : RegSet) (m k : Fin 4) (sh : BitVec 5) (rm : Rm) : Int :=
  match rm with
  | .tpdf => (r.aL m k).v.toInt + dithOf (lfsrStep (r.dith.get k)) * 2 ^ ((32 - sh.toInt).toNat - 16)
  | _ => (r.aL m k).v.toInt

/-- EXT's word before it is clamped. -/
def extRounded (r : RegSet) (m k : Fin 4) (sh : BitVec 5) (rm : Rm) : Int :=
  match rm with
  | .trunc => extValue r m k sh rm / 2 ^ (32 - sh.toInt).toNat
  | _ => roundHalfEven (extValue r m k sh rm) (2 ^ (32 - sh.toInt).toNat)

/-- SCALE's exponent, clamped to −32 … +31. -/
def scaleBy (t : Word) : Int := max (-32) (min 31 t.toInt)

/-- The value of a register after results have landed in it in one cycle: that of the last that writes it (R58). -/
def landed {α : Type} (f : Landing → Option α) (l : List Landing) (old : α) : α := (l.reverse.findSome? f).getD old

/-- A load of one word into a register, seen three bundles later: the low 16 bits of the DMEM word the pointer names,
or any value while a PGET is to write that word. -/
def LoadsHalf (c : Instr) (s : State) (e : Fin 32) (b : Bundle) (sl : Slot) (i : Fin 8)
    (x : BitVec 16 → Landing) : Prop :=
  Ready s e b → Gives c s fun u =>
    let g := issueEng s e b
    let t := slotState s e b sl
    ∃ v, Lands u e g 3 (x v) ∧
      (LoadDefined t e (g.rs.pR i).toNat → v = (wordOf t.mem (wordAt t e (g.rs.pR i).toNat)).extractLsb' 0 16)

/-- A control write of a register or flag, seen by the next bundle. -/
def WritesNext (c : Instr) (s : State) (e : Fin 32) (b : Bundle) (x : RegSet → Landing) : Prop :=
  Ready s e b → (issueEng s e b).returns = false → Gives c s fun u =>
    Lands u e (issueEng s e b) 1 (x (issueEng s e b).rs)

/-- A branch: if it is taken, its target issues after the next two bundles; if not, the next bundle follows. -/
def BranchTo (c : Instr) (s : State) (e : Fin 32) (b : Bundle) (t : Engine → Option Nat) : Prop :=
  Ready s e b → Straight (issueEng s e b) b → Gives c s fun u =>
    let g := issueEng s e b
    (u.eng e).pc = (g.pc + 1) % 8192 ∧ (u.eng e).rpt = none ∧
      (u.eng e).delay = (t g).map (fun a => ⟨2, a, false⟩)

/-- What an issue fault leaves (R69, R70, R71): it is counted and flagged, logged with its code, context and PC if
no fault was flagged, and the slice stops with its bit set, or the handler is abandoned. -/
def FaultLeft (s u : State) (e : Fin 32) (g : Engine) (code : Nat) : Prop :=
  u.rdF (ENG_FAULT_CNT e) 15 0 = min (s.rdF (ENG_FAULT_CNT e) 15 0 + 1) 65535 ∧
  u.rdB (ENG_INT e) 0 = true ∧
  (s.rdB (ENG_INT e) 0 = false → u.rd (ENG_FAULT e) =
    BitVec.ofNat 32 (code * 2 ^ 27 + (if g.inEvt then 2 ^ 26 else 0) + g.ctx * 2 ^ 20 + g.pc % 8192)) ∧
  (s.rdB (ENG_INT e) 0 = true → u.rd (ENG_FAULT e) = s.rd (ENG_FAULT e)) ∧
  (u.eng e).inEvt = false ∧
  (∀ sl, g.inEvt = false → g.cur = some sl → (u.eng e).cur = none ∧
    (sl < 32 → u.rdB (ENG_FSLICE_LO e) sl = true) ∧ (32 ≤ sl → sl < 64 → u.rdB (ENG_FSLICE_HI e) (sl - 32) = true))

/-- Only the registers listed, the response and the interrupt messages change. -/
def OnlyRegs (s u : State) (rs : List Reg) : Prop :=
  u = { s with regs := u.regs, rsp := u.rsp, hif := u.hif } ∧ ∀ r : Reg, r.addr ∉ rs.map Reg.addr → u.rd r = s.rd r

/-- A write outside a field's range changes nothing, is counted, and is logged if nothing was (R10, R385, R386). -/
def Rejected (s u : State) (q : Req) (a d : Word) : Prop :=
  u.rdF SYS_REJ_CNT 31 0 = min (s.rdF SYS_REJ_CNT 31 0 + 1) (2 ^ 32 - 1) ∧
  (s.rdB SYS_REJLOG 31 = false →
    u.rd SYS_REJLOG = BitVec.ofNat 32 (2 ^ 31 + b2n q.guest * 2 ^ 30 + q.master.val * 2 ^ 24) ∧
    u.rd SYS_REJADDR = a ∧ u.rd SYS_REJDATA = d) ∧
  (s.rdB SYS_REJLOG 31 = true → OnlyRegs s u [SYS_REJ_CNT]) ∧
  OnlyRegs s u [SYS_REJ_CNT, SYS_REJLOG, SYS_REJADDR, SYS_REJDATA]

/-- A register of the map, at an address that one word can name. -/
def IsRegister (r : Reg) : Prop :=
  regAt r.addr = some r ∧ isRegAddr r.addr = true ∧ r.addr % 4 = 0 ∧ r.addr < 2 ^ 32

/-- A write of the register at an address has an effect or a range of its own, by the tables of the register blocks. -/
def hasOwnWrite (a : Nat) : Bool :=
  let o := if a < 0x50000000 then a % 0x80000 - 0x70000 else a % 0x10000
  let k := o % 0x100
  if a < 0x50000000 then [4, 0xC, 0x10, 0x40].contains o || decide (0x1000 ≤ o ∧ o < 0x1800)
  else match (a - 0x50000000) / 0x10000 with
    | 0 => [8, 0x10, 0x100, 0x104].contains o
    | 1 => [0, 4, 0x34, 0x38, 0x44].contains o
    | 2 => [0x20, 0x28].contains o || (decide (0x1000 ≤ o) && o % 16 == 8)
    | 3 => [0xC, 0x40, 0x200].contains o || decide (0x100 ≤ o ∧ o < 0x200) || decide (0x2000 ≤ o ∧ o ≤ 0x2014) ||
        a == CLV_BGCOST.addr
    | 4 => [0, 0x20, 0x24, 0x28, 0x40, 0x50, 0x60].contains o || decide (0x70 ≤ o ∧ o < 0x80) ||
        (decide (0x100 ≤ o) && [0, 4, 8].contains (o % 0x20))
    | 5 => [0x10, 0x38, 0x3C, 0x58, 0x5C].contains o
    | 6 => o == 0x2000 || (decide (o < 0x2000) && [0, 4, 0x10, 0x40, 0x44, 0x48].contains k)
    | 7 => decide (0x800 ≤ o) && [0, 8].contains k
    | 8 => decide (o ≤ 0x400)
    | 9 | 10 => [0, 0x10, 0x14, 0x20, 0x30, 0x64, 0x68, 0x6C, 0x70].contains o || decide (0x80 ≤ o ∧ o < 0xA0) ||
        (decide (0x100 ≤ o ∧ o < 0x280) && o % 16 != 12) || (decide (0x400 ≤ o ∧ o < 0x600) && o % 8 == 4)
    | 11 => o == 0 || decide (0x1000 ≤ o)
    | 12 => decide (0x100 ≤ o) && k == 0
    | 13 => o == 0 || o == 0x10
    | 14 => decide (0x40 ≤ o ∧ o < 0x60) || decide (0x400 ≤ o ∧ o < 0x800) ||
        (decide (0x1000 ≤ o ∧ o < 0x1400) && k != 0x14 && k != 0x18)
    | 15 => decide (0x800 ≤ o)
    | 16 => o == 0x2C || (decide (0x400 ≤ o) && o % 0x20 == 0)
    | 17 => decide (o < 0x400)
    | 18 => decide (o % 0x400 < 0x100) && o % 0x20 == 0
    | 19 => o == 0x410
    | _ => false

/-- A read of the register at an address shows state of its unit, brings it up to date first (Clove, Dongo), or depends on
who reads (the mailboxes). -/
def hasOwnRead (a : Nat) : Bool :=
  let o := if a < 0x50000000 then a % 0x80000 - 0x70000 else a % 0x10000
  let k := o % 0x100
  if a < 0x50000000 then [0, 8, 0x38].contains o
  else match (a - 0x50000000) / 0x10000 with
    | 0 => o == 0
    | 1 => o == 0x20 || o == 0x24
    | 2 => o == 0
    | 3 => true
    | 6 => o == 0x2008 || (decide (o < 0x1800) && k == 0x64)
    | 7 => k == 4
    | 8 => [0x408, 0x40C, 0x410].contains o
    | 9 | 10 => [4, 0x24, 0x74].contains o
    | 11 => o == 4 || decide (0x20 ≤ o ∧ o < 0x3C) || (decide (0x1000 ≤ o ∧ o < 0x2000) && o % 0x20 == 0x18) ||
        (decide (0x2000 ≤ o) && o % 0x20 == 0x10)
    | 12 => true
    | 15 => [4, 0x24, 0x28].contains o
    | 16 => o == 0x20 || o == 0x24 || (decide (0x400 ≤ o) && o % 0x20 == 0)
    | 17 => decide (o < 0x200)
    | 18 => decide (o % 0x400 < 0x100) && o % 0x20 == 0
    | 19 => o == 0x414
    | _ => false

/-- Registers with one range that depends on nothing else, and whether a value lies in it (R43, R72, R188, R203, R277, R311,
R312, R378). -/
def rangeTable (d : Word) : List (Reg × Bool) :=
  [(BMX_LOCK_TO, decide (16 ≤ bits d 9 0)), (PWR_CTRL, decide (1 ≤ bits d 2 0 ∧ bits d 2 0 ≤ 4)),
   (PWR_TALARM, decide (0x500 ≤ sbits d 15 0 ∧ sbits d 15 0 ≤ 0x730)),
   (SAF_LOCKTH, decide (10 ≤ bits d 16 0 ∧ bits d 16 0 ≤ 100000)), (SAF_HLEN, decide (16 ≤ bits d 11 0 ∧ bits d 11 0 ≤ 3600)),
   (STC_SET_NS, decide (bits d 29 0 ≤ 999999999)), (STC_START_NS, decide (bits d 29 0 ≤ 999999999)),
   (TST_MEM_UNIT, decide (bits d 9 0 ≤ 727))] ++
  (upTo 2).flatMap (fun n => [(MAC_MAXLEN n, decide (64 ≤ bits d 13 0 ∧ bits d 13 0 ≤ 9216)),
    (MAC_PWD n, decide (10 ≤ bits d 15 0 ∧ bits d 15 0 ≤ 65535))]) ++
  (upTo 32).flatMap (fun e => [(ENG_RCAP e, decide (8 ≤ bits d 15 0)), (ENG_EVT_VEC e, decide (bits d 12 0 ≤ 6143))])

/-- A mailbox command ended with a status and a response: done, the command's tag, and the response registers, those
past the response 0 (R354, R356). -/
def Answered (s u : State) (m status : Nat) (rsp : List Word) : Prop :=
  u.rdB (HSE_MB_STAT m) 31 = true ∧ u.rdB (HSE_MB_STAT m) 30 = false ∧
  u.rdF (HSE_MB_STAT m) 23 16 = s.rdF (HSE_MB_CMD m) 31 24 ∧ u.rdF (HSE_MB_STAT m) 12 8 = rsp.length ∧
  u.rdF (HSE_MB_STAT m) 7 0 = status ∧ ∀ k < 16, u.rd (HSE_MB_RSP m k) = rsp.getD k 0

/-- Nothing but a mailbox, the firmware's own state and the free values moved on. -/
def OnlyMailbox (s u : State) (m : Nat) : Prop :=
  u = { s with regs := u.regs, hif := u.hif, house := u.house, free := u.free } ∧
  ∀ r : Reg, r.addr ∉ (mbRegs m).map Reg.addr → u.rd r = s.rd r

/-- Nothing but a mailbox, the firmware's own state and its filter entries and frames on a port moved on (R289). -/
def OnlyMailboxPtp (s u : State) (m p : Nat) : Prop :=
  u = { s with regs := u.regs, hif := u.hif, house := u.house, free := u.free, macs := u.macs } ∧
  (∀ n, n ≠ p → u.mac n = s.mac n) ∧
  ∀ r : Reg, r.addr ∉ (mbRegs m ++ [MAC_FLT_A p 62, MAC_FLT_B p 62, MAC_FLT_A p 63, MAC_FLT_B p 63]).map Reg.addr →
    u.rd r = s.rd r

/-- A command of an opcode is outstanding on a mailbox, in time, and a house core runs: no core was reset since its go
(R365), and no command of that opcode that timed out before it still waits for its answer (R355). -/
def Outstanding (s : State) (m op : Nat) : Prop :=
  s.mbBusy m = true ∧ s.mbOp m = op ∧ s.anyCore = true ∧ s.now < sget 0 s.house.due m ∧
  (sget [] s.house.late m).headD 256 ≠ op ∧ m ∉ s.house.lost

/-- The rows of the firmware's commands, with their opcodes (R357). -/
def fwCommands (m : Fin 2) : List (Instr × Nat) :=
  [(.getVersion m, 0x01), (.getStats m, 0x02), (.ptpSet m, 0x10), (.ptpStop m, 0x11), (.ptpStatus m, 0x12),
   (.discSet m, 0x20), (.aniStats m, 0x30), (.fwUpdate m, 0x40), (.coreRestart m, 0x41)]

/-- A late answer is counted (R355). -/
def LateCounted (s u : State) : Prop :=
  u.rdF HSE_LATE_CNT 31 0 = min (s.rdF HSE_LATE_CNT 31 0 + 1) (2 ^ 32 - 1) ∧ u.mem = s.mem

/-- A memory request of a function took the next number, and its transactions wait behind those of its master that
waited, but for those that the master port has taken (R192, R349). -/
def TlpQueued (s u : State) (fn : Fin 2) (write : Bool) (a : Nat) (d : List (Byte × Bool)) : Prop :=
  u.nextReq = s.nextReq + 1 ∧
  ∃ moved, (s.portWait.filter (fun w => w.2.master == 6)) ++ (tlpParts a d.length).map (fun p =>
    (Origin.tlp s.nextReq, tlpTxn fn write a d p)) = moved ++ u.portWait.filter (fun w => w.2.master == 6)

/-- The reads of the MSI-X table and of configuration space, with the words they read (R348). -/
def hostWords (s : State) (fn : Fin 2) : List (Tlp × Word) :=
  (upTo 64).flatMap (fun v => (upTo 3).map (fun k =>
    (Tlp.msixRead fn (BitVec.ofNat 14 (16 * v + 4 * k)), sget 0 (s.hif.msix fn).table (4 * v + k))) ++
    [(Tlp.msixRead fn (BitVec.ofNat 14 (16 * v + 12)), if (s.hif.msix fn).unmasked.contains v then 0 else 1)]) ++
  (upTo 2).map (fun k => (Tlp.msixRead fn (BitVec.ofNat 14 (0x2000 + 4 * k)),
    bitsOf 32 (fun b => (s.hif.msix fn).pending.contains (32 * k + b)))) ++
  [(.cfgRead fn .ids, BitVec.ofNat 32 (0x51240000 + s.boot.vendor % 65536)), (.cfgRead fn .classCode, 0x040100#32),
   (.cfgRead fn .subsystem, s.boot.subsys)]

/-- On a link's line nothing happened but what was due: frames sent again since were counted (R315). -/
def OnlyRetries (s u : State) (n : Nat) : Prop :=
  (∀ r : Reg, r.addr ≠ (DNG_L_RETRY_CNT n).addr → u.rd r = s.rd r) ∧
  u.rdF (DNG_L_RETRY_CNT n) 31 0 = min (s.rdF (DNG_L_RETRY_CNT n) 31 0 +
    (((s.linkNow n).sent.drop (s.link n).sent.length).filter (fun x => x.2.resent != 0)).length) (2 ^ 32 - 1)

/-- An AUDIO frame on an aligned link (R317, R318, R319): each of its channels that is not a cascade channel has its words of
the peer's block; on one that is not aligned it is discarded. -/
def AudioTaken (s u : State) (n : Nat) (f : DngFrame) : Prop :=
  u.regs = s.regs ∧ u.mem = s.mem ∧ u.clove = s.clove ∧
  (s.linkAligned n = false → (u.link n).rx = (s.link n).rx) ∧
  (s.linkAligned n = true → ∀ i < f.cnt.toNat, s.cascChan n ((f.chan.toNat + i) % 256) = false →
    ((f.chan.toNat + i) % 256, f.block.toNat, ((bytesWords f.payload).drop (i * s.blk)).take s.blk) ∈ (u.link n).rx)

/-- A CASC frame (R141, R319, R320): its term is held for its bus, which it completes where nothing else is missing; on a
channel that is no cascade channel, for another block, or after the deadline it is discarded. -/
def CascTaken (s u : State) (n : Nat) (f : DngFrame) : Prop :=
  let src := 0x2400 + 256 * n + f.chan.toNat
  let open_ := s.linkAligned n = true ∧ s.cascChan n f.chan.toNat = true ∧ f.block = s.rd SYS_FRM_BLOCK ∧
    s.mtx.dead = false ∧ s.frame.win ≠ .bus ∧ s.frame.win ≠ .tail
  u.mem = s.mem ∧ u.clove = s.clove ∧
  (¬ open_ → u.mtx = s.mtx ∧ u.regs = s.regs) ∧
  (open_ → u.mtx.casc = s.mtx.casc ++ [(src, cascInts s.blk f.payload)] ∧
    ∀ b < s.mtx.next, s.cascSrcs b = [src] → u.mtx.psum.any (fun x => x.1 = b) = true)

/-- A TIME frame (R317, R321): the peer's quality byte, the phase point, and, of one sent at a tick, whether rate, block
length, block number and device numbers let the link be aligned; a link no longer aligned sends no AUDIO or CASC frame that
waits. -/
def TimeTaken (s u : State) (n : Nat) (f : DngFrame) : Prop :=
  let q := byteAt f.payload 10
  let fmt := byteAt f.payload 11
  let clash := decide (q / 16 % 8 = s.rdF DNG_CTRL 2 0)
  u.mem = s.mem ∧ u.clove = s.clove ∧ u.rdF (DNG_L_STAT n) 31 24 = q ∧ u.rdF (DNG_L_STAT n) 18 16 = q / 16 % 8 ∧
  u.rdB (DNG_L_STAT n) 7 = clash ∧ (u.link n).qual = q % 16 ∧
  (u.link n).phase = (ofLeBytes (f.payload.take 6) : Int) * 1000000000 + ofLeBytes ((f.payload.drop 6).take 4) +
    s.rdF (DNG_L_DELAY n) 15 0 + sbits (s.rd (DNG_L_DLYADJ n)) 15 0 - s.stcInt ∧
  (fmt / 16 % 2 = 1 → (s.link n).own = none → u.rdB (DNG_L_STAT n) 4 = false) ∧
  (∀ o, fmt / 16 % 2 = 1 → (s.link n).own = some o →
    let fd := decide (o.1 ≠ fmt % 4 ∨ o.2.1 ≠ fmt / 4 % 4)
    let nd := decide (o.2.2 ≠ BitVec.ofNat 32 (ofLeBytes ((f.payload.drop 12).take 4)))
    u.rdB (DNG_L_STAT n) 5 = fd ∧ u.rdB (DNG_L_STAT n) 6 = nd ∧ u.rdB (DNG_L_STAT n) 4 = (!fd && !nd && !clash)) ∧
  (s.rdB (DNG_L_STAT n) 4 = true → u.rdB (DNG_L_STAT n) 4 = false →
    ∀ g ∈ (u.link n).queue, g.kind ≠ .audio ∧ g.kind ≠ .casc)

/-- An EVENT frame of one record (R323): posted to the flow that its last word names, or dropped and counted. -/
def EventTaken (s u : State) (n : Nat) (f : DngFrame) : Prop :=
  let ws := (bytesWords f.payload).take 8
  let w := ws.getD 0 0
  let flow := bits (ws.getD 7 0) 11 0
  let shut := s.postBusy (bits w 15 14) flow = true ∨ (2048 ≤ flow ∧ flow < 2304) ∨ 2367 < flow
  f.cnt = 1 → s.rdB ANI_CTRL 0 = false →
    u.mem = s.mem ∧
    (shut → u.clove = s.clove ∧
      u.rdF (DNG_L_EVDROP_CNT n) 31 0 = min (s.rdF (DNG_L_EVDROP_CNT n) 31 0 + 1) (2 ^ 32 - 1)) ∧
    (¬ shut → u.clove.next = s.clove.next + 1 ∧ ∃ v ∈ u.clove.queue, v.no = s.clove.next ∧ v.flow = flow ∧
      v.type = bits w 23 16 ∧ v.cls = bits w 15 14 ∧ v.origin = bits w 13 12 ∧ v.sec = ws.getD 1 0 ∧ v.ns = ws.getD 2 0 ∧
      v.payload = ws.drop 3 ∧ v.seq = none)

/-- The turn of a DMA unit is channel `c`'s, and its master port takes a transaction. -/
def DmaOpen (s : State) (n c : Nat) : Prop := s.dmaNext n = some c ∧ s.dmaOpen n = true

/-- A channel has issued a transaction: it is in its master's queue with the cause that keeps it from its target, the
channel awaits it, and the turn passes on. -/
def DmaSent (s u : State) (n c : Nat) (t : Txn) (k : DmaStep) : Prop :=
  (u.dmaCh n c).busy = some s.bmx.nextId ∧ (u.dmaUnit n).turn = (c + 1) % dmaChans n ∧ u.mem = s.mem ∧
  ∃ x ∈ u.bmx.txns, x.id = s.bmx.nextId ∧ x.txn = t ∧ x.origin = .dma n c s.bmx.nextId k ∧ x.cause = s.acceptCause t

/-- The write of word 7 back to the descriptor in CUR. -/
def backTxn (s : State) (n c status err : Nat) : Txn :=
  runTxn (s.dmaReq n c) true false ((s.rd (dmaReg n c 2)).toNat + 28)
    ((leBytes 4 (pack [(1, 31), (status, 28), (err, 24), (s.dmaMoved n c, 0)]).toNat).map (fun b => (b, true)))

/-- The code with which a power request is refused, 0 for none (R370). -/
def powerRefusal (s : State) : Nat :=
  let t := s.rdF PWR_CTRL 2 0
  let dma := (upTo 4).any (fun n => (upTo 8).any (fun c => s.rdB (CDMA_CH_STAT n c) 0)) ||
    (upTo 4).any (fun c => s.rdB (HIF_CH_STAT c) 0)
  if s.rdB SYS_FRM_STAT 0 || s.rdB SYS_FRM_STAT 2 || s.rdB STC_STAT 1 then 1
  else if 2 ≤ t && (dma || s.rdB (HSE_MB_STAT 0) 30 || s.rdB (HSE_MB_STAT 1) 30) then 2
  else if s.rdB ANI_CTRL 0 then 3
  else if bits (s.rd PWR_WAKE_EN) (if t = 4 then 16 else 17) 0 = 0 then 4
  else 0

/-- A channel reached its final status with a cause. -/
def DmaEnded (u : State) (n c status cause : Nat) : Prop :=
  u.rdB (dmaReg n c 3) 31 = true ∧ u.rdB (dmaReg n c 3) 0 = false ∧ u.rdF (dmaReg n c 3) 5 4 = status ∧
  u.rdF (dmaReg n c 3) 11 8 = cause ∧ u.rdB (dmaInt n) c = true

end Sys2Proof

open Sys2Proof Sys2Proof.Machine

/-- A step with a command at the front of the queue is that command's effect on the state with the rest of the queue;
with no command waiting, one engine cycle passes (the model's choice, assumption 2): an engine that runs and has issued no
bundle in the cycle issues the one at its PC, a word with no meaning being no bundle (R45, R53). -/
def Obligations.StepRunsFrontCommand : Prop :=
  (∀ (c : Instr) (rest : List Instr) (s : State),
    step { s with pending := c :: rest } = exec c { s with pending := rest }) ∧
  (∀ s : State, s.pending = [] → s.engs = [] → ∃ t, step s = .next t ∧ t.now = s.now + 1 ∧ t.regs = s.regs ∧
    t.mem = s.mem) ∧
  ∀ (s : State) (e : Fin 32) (g : Engine), s.pending = [] → s.engs = [(e.val, g)] → g.cyc = s.now →
    (g.runnable = true → g.issued = false → g.pold = [] →
      (∀ (c : Instr) (b : Bundle), c.bundle? = some (e, b) →
        decodeBundle (wordOf s.mem (pmemAddr e g.pc + 4) ++ wordOf s.mem (pmemAddr e g.pc)) = some b →
        ∃ t : State, exec c s = .next t.settle ∧ step s = .next (t.advance 1).settle) ∧
      (∀ w : DWord, w = wordOf s.mem (pmemAddr e g.pc + 4) ++ wordOf s.mem (pmemAddr e g.pc) → decodeBundle w = none →
        ∃ t : State, exec (.illegalOp e w) s = .next t.settle ∧ step s = .next (t.advance 1).settle)) ∧
    (g.runnable = false ∨ g.issued = true → step s = .next (s.advance 1).settle)

/-- R85, R86. ADD, SUB, ABS, NEG and SCALE give the result clamped to 32 bits, with Z and N from it, and SR.sat where
it clamps. -/
def Obligations.SaturatingArithmeticResults : Prop :=
  ∀ (s : State) (e : Fin 32) (w : Bundle),
    (∀ d x t, WordResult (.add e d x t w) s e (Bundle.fit { w with a := .add d x t }) d
      (fun r k => clamp32 ((r.dL x k).toInt + (r.dL t k).toInt))
      (fun r k => over32 ((r.dL x k).toInt + (r.dL t k).toInt))) ∧
    (∀ d x t, WordResult (.sub e d x t w) s e (Bundle.fit { w with a := .sub d x t }) d
      (fun r k => clamp32 ((r.dL x k).toInt - (r.dL t k).toInt))
      (fun r k => over32 ((r.dL x k).toInt - (r.dL t k).toInt))) ∧
    (∀ d x, WordResult (.abs e d x w) s e (Bundle.fit { w with a := .abs d x }) d
      (fun r k => clamp32 |(r.dL x k).toInt|) (fun r k => over32 |(r.dL x k).toInt|)) ∧
    (∀ d x, WordResult (.neg e d x w) s e (Bundle.fit { w with a := .neg d x }) d
      (fun r k => clamp32 (-(r.dL x k).toInt)) (fun r k => over32 (-(r.dL x k).toInt))) ∧
    (∀ d x t, WordResult (.scale e d x t w) s e (Bundle.fit { w with a := .scale d x t }) d
      (fun r k => if 0 ≤ scaleBy (r.dL t k) then clamp32 ((r.dL x k).toInt * 2 ^ (scaleBy (r.dL t k)).toNat)
        else BitVec.ofInt 32 ((r.dL x k).toInt / 2 ^ (-(scaleBy (r.dL t k))).toNat))
      (fun r k => decide (0 ≤ scaleBy (r.dL t k)) &&
        over32 ((r.dL x k).toInt * 2 ^ (scaleBy (r.dL t k)).toNat)))

/-- R76, R78, R86. The instructions that cannot saturate: the signed minimum and maximum, the bitwise operations, the
shifts, ADDI modulo 2³², MOV, BCST and both forms of MOVI; SEL, which writes one of two registers and no flag; CMP and
CMPI, which write no register and set Z and N from the signed comparison. What each puts in flight is all that goes in
flight beside what the other slots put there, unless the handler returns with the bundle. -/
def Obligations.PlainWordResults : Prop :=
  ∀ (s : State) (e : Fin 32) (w : Bundle),
    (∀ d x t, WordResult (.min e d x t w) s e (Bundle.fit { w with a := .min d x t }) d
      (fun r k => BitVec.ofInt 32 (min (r.dL x k).toInt (r.dL t k).toInt)) (fun _ _ => false)) ∧
    (∀ d x t, WordResult (.max e d x t w) s e (Bundle.fit { w with a := .max d x t }) d
      (fun r k => BitVec.ofInt 32 (max (r.dL x k).toInt (r.dL t k).toInt)) (fun _ _ => false)) ∧
    (∀ d x t, WordResult (.and e d x t w) s e (Bundle.fit { w with a := .and d x t }) d
      (fun r k => r.dL x k &&& r.dL t k) (fun _ _ => false)) ∧
    (∀ d x t, WordResult (.or e d x t w) s e (Bundle.fit { w with a := .or d x t }) d
      (fun r k => r.dL x k ||| r.dL t k) (fun _ _ => false)) ∧
    (∀ d x t, WordResult (.xor e d x t w) s e (Bundle.fit { w with a := .xor d x t }) d
      (fun r k => r.dL x k ^^^ r.dL t k) (fun _ _ => false)) ∧
    (∀ d x t, WordResult (.shl e d x t w) s e (Bundle.fit { w with a := .shl d x t }) d
      (fun r k => BitVec.ofNat 32 ((r.dL x k).toNat * 2 ^ ((r.dL t k).toNat % 32))) (fun _ _ => false)) ∧
    (∀ d x t, WordResult (.asr e d x t w) s e (Bundle.fit { w with a := .asr d x t }) d
      (fun r k => BitVec.ofInt 32 ((r.dL x k).toInt / 2 ^ ((r.dL t k).toNat % 32))) (fun _ _ => false)) ∧
    (∀ d x imm, WordResult (.addi e d x imm w) s e (Bundle.fit { w with a := .addi d x imm }) d
      (fun r k => BitVec.ofInt 32 ((r.dL x k).toInt + imm.toInt)) (fun _ _ => false)) ∧
    (∀ d x imm, WordResult (.shli e d x imm w) s e (Bundle.fit { w with a := .shli d x imm }) d
      (fun r k => BitVec.ofNat 32 ((r.dL x k).toNat * 2 ^ imm.toNat)) (fun _ _ => false)) ∧
    (∀ d x imm, WordResult (.asri e d x imm w) s e (Bundle.fit { w with a := .asri d x imm }) d
      (fun r k => BitVec.ofInt 32 ((r.dL x k).toInt / 2 ^ imm.toNat)) (fun _ _ => false)) ∧
    (∀ d x imm, WordResult (.lsri e d x imm w) s e (Bundle.fit { w with a := .lsri d x imm }) d
      (fun r k => BitVec.ofNat 32 ((r.dL x k).toNat / 2 ^ imm.toNat)) (fun _ _ => false)) ∧
    (∀ d x, WordResult (.mov e d x w) s e (Bundle.fit { w with a := .mov d x }) d
      (fun r k => r.dL x k) (fun _ _ => false)) ∧
    (∀ d x j, WordResult (.bcst e d x j w) s e (Bundle.fit { w with a := .bcst d x j }) d
      (fun r _ => r.dL x j) (fun _ _ => false)) ∧
    (∀ d imm, WordResult (.movi e d imm false w) s e (Bundle.fit { w with a := .movi d imm false }) d
      (fun _ _ => BitVec.ofInt 32 imm.toInt) (fun _ _ => false)) ∧
    (∀ d imm, WordResult (.movi e d imm true w) s e (Bundle.fit { w with a := .movi d imm true }) d
      (fun r k => BitVec.ofNat 32 (imm.toNat * 2 ^ 16 + (r.dL d k).toNat % 2 ^ 16)) (fun _ _ => false)) ∧
    (∀ d x t c, let b := Bundle.fit { w with a := .sel d x t c }
      Ready s e b → Gives (.sel e d x t c w) s fun u =>
        let g := issueEng s e b
        let y := Landing.d d (L4.of fun k => some (
          let z := (g.rs.sr).getLsbD (8 + k.val)
          let n := (g.rs.sr).getLsbD (12 + k.val)
          if (match c with
            | .z => z
            | .nz => !z
            | .n => n
            | .nn => !n
            | .nOrZ => n || z
            | .nnAndNz => !n && !z) then g.rs.dL x k else g.rs.dL t k))
        Lands u e g 2 y ∧ (g.returns = false → InFlight s u e b 2 [y])) ∧
    (∀ x t, let b := Bundle.fit { w with a := .cmp x t }
      Ready s e b → Gives (.cmp e x t w) s fun u =>
        let g := issueEng s e b
        let y := Landing.zn (L4.of fun k => g.rs.dL x k == g.rs.dL t k)
          (L4.of fun k => decide ((g.rs.dL x k).toInt < (g.rs.dL t k).toInt))
        Lands u e g 2 y ∧ (g.returns = false → InFlight s u e b 2 [y])) ∧
    (∀ x imm, let b := Bundle.fit { w with a := .cmpi x imm }
      Ready s e b → Gives (.cmpi e x imm w) s fun u =>
        let g := issueEng s e b
        let y := Landing.zn (L4.of fun k => g.rs.dL x k == imm.signExtend 32)
          (L4.of fun k => decide ((g.rs.dL x k).toInt < imm.toInt))
        Lands u e g 2 y ∧ (g.returns = false → InFlight s u e b 2 [y]))

/-- R84, R85. EXPT counts redundant sign bits; NORM gives the mantissa and the count less 16, with Z and N from the
mantissa. -/
def Obligations.NormaliseResults : Prop :=
  ∀ (s : State) (e : Fin 32) (w : Bundle),
    (∀ d x, let b := Bundle.fit { w with a := .expt d x }
      Ready s e b → Gives (.expt e d x w) s fun u =>
        let g := issueEng s e b
        ∃ r : Fin 4 → Nat, (∀ k, IsSignCount (g.rs.dL x k) (r k)) ∧
          Lands u e g 2 (.d d (L4.of fun k => some (BitVec.ofNat 32 (r k)))) ∧
          Lands u e g 2 (.zn (L4.of fun k => r k == 0) (L4.all false)) ∧
          (g.returns = false → InFlight s u e b 2 [.d d (L4.of fun k => some (BitVec.ofNat 32 (r k))),
            .zn (L4.of fun k => r k == 0) (L4.all false)])) ∧
    (∀ d c m, let b := Bundle.fit { w with a := .norm d c m }
      Ready s e b → Gives (.norm e d c m w) s fun u =>
        let g := issueEng s e b
        ∃ r : Fin 4 → Nat, (∀ k, IsSignCount (g.rs.aL m k).v (r k)) ∧
          Lands u e g 2 (.d d (L4.of fun k => some (((g.rs.aL m k).v <<< r k).extractLsb' 48 32))) ∧
          Lands u e g 2 (.d c (L4.of fun k => some (BitVec.ofInt 32 ((r k : Int) - 16)))) ∧
          Lands u e g 2 (.zn (L4.of fun k => ((g.rs.aL m k).v <<< r k).extractLsb' 48 32 == 0)
            (L4.of fun k => (((g.rs.aL m k).v <<< r k).extractLsb' 48 32).msb)) ∧
          (g.returns = false → InFlight s u e b 2 [.d d (L4.of fun k => some (((g.rs.aL m k).v <<< r k).extractLsb' 48 32)),
            .d c (L4.of fun k => some (BitVec.ofInt 32 ((r k : Int) - 16))),
            .zn (L4.of fun k => ((g.rs.aL m k).v <<< r k).extractLsb' 48 32 == 0)
              (L4.of fun k => (((g.rs.aL m k).v <<< r k).extractLsb' 48 32).msb)]))

/-- R81. EXT rounds, truncates or dithers an accumulator to a word, saturates it and sets SR.sat where it clamps. -/
def Obligations.ExtractResult : Prop :=
  ∀ (s : State) (e : Fin 32) (d : Fin 16) (m : Fin 4) (sh : BitVec 5) (rm : Rm) (w : Bundle),
    WordResult (.ext e d m sh rm w) s e (Bundle.fit { w with a := .ext d m sh rm }) d
      (fun r k => clamp32 (extRounded r m k sh rm)) (fun r k => over32 (extRounded r m k sh rm))

/-- R79, R80, R86. The multiply instructions, CLR and LDA: MAC, MSB, MACL and MSBL add to the accumulate path with
saturation and lock; MPY, MPYN, CLR and LDA load the accumulator and clear its lock. That SR.gov is seen with its
accumulator, at n+4, is the model's choice (assumption 74). -/
def Obligations.AccumulatorResults : Prop :=
  ∀ (s : State) (e : Fin 32) (w : Bundle),
    (∀ m x t, AccResult (.mac e m x t w) s e (Bundle.fit { w with a := .mac m x t }) m
      (fun r g k => 2 * ((r.dL x k).toInt * (mulVal t r g k).toInt))) ∧
    (∀ m x t, AccResult (.msb e m x t w) s e (Bundle.fit { w with a := .msb m x t }) m
      (fun r g k => -(2 * ((r.dL x k).toInt * (mulVal t r g k).toInt)))) ∧
    (∀ m x t, AccResult (.macl e m x t w) s e (Bundle.fit { w with a := .macl m x t }) m
      (fun r _ k => (r.dL x k).toInt * ((r.dL t k).toNat : Int) / 2 ^ 31)) ∧
    (∀ m x t, AccResult (.msbl e m x t w) s e (Bundle.fit { w with a := .msbl m x t }) m
      (fun r _ k => -((r.dL x k).toInt * ((r.dL t k).toNat : Int) / 2 ^ 31))) ∧
    (∀ m x t, AccLoad (.mpy e m x t w) s e (Bundle.fit { w with a := .mpy m x t }) 4 m
      (fun r g k => 2 * ((r.dL x k).toInt * (mulVal t r g k).toInt))) ∧
    (∀ m x t, AccLoad (.mpyn e m x t w) s e (Bundle.fit { w with a := .mpyn m x t }) 4 m
      (fun r g k => -(2 * ((r.dL x k).toInt * (mulVal t r g k).toInt)))) ∧
    (∀ m, AccLoad (.clr e m w) s e (Bundle.fit { w with a := .clr m }) 2 m (fun _ _ _ => 0)) ∧
    (∀ m x, AccLoad (.lda e m x w) s e (Bundle.fit { w with a := .lda m x }) 2 m
      (fun r _ k => (r.dL x k).toInt * 2 ^ 32))

/-- R49, R63, R91. LDQ loads a quad, a word per lane, LDW one word into every lane, LDR and LDL the low half of one
word; each reaches its register at n+3. A word that a PGET is to write may read as any value (the model's free
value, assumption 8). -/
def Obligations.LoadResults : Prop :=
  ∀ (s : State) (e : Fin 32) (sl : Slot) (i : Fin 8) (j : Fin 4) (w : Bundle), sl.fits w.c = true →
    (∀ r, let b := (w.put sl (.ldq r i j)).fit
      Ready s e b → Gives (.ldq e sl r i j w) s fun u =>
        let g := issueEng s e b
        let t := slotState s e b sl
        let q := (g.rs.pR i).toNat / 4 * 4
        ∃ v : Fin 4 → Word, Lands u e g 3 (.d r (L4.of fun k => some (v k))) ∧
          ∀ k : Fin 4, LoadDefined t e (q + k.val) → v k = wordOf t.mem (wordAt t e (q + k.val))) ∧
    (∀ r, let b := (w.put sl (.ldw r i j)).fit
      Ready s e b → Gives (.ldw e sl r i j w) s fun u =>
        let g := issueEng s e b
        let t := slotState s e b sl
        ∃ v : Word, Lands u e g 3 (.d r (L4.all (some v))) ∧
          (LoadDefined t e (g.rs.pR i).toNat → v = wordOf t.mem (wordAt t e (g.rs.pR i).toNat))) ∧
    (∀ r, LoadsHalf (.ldr e sl r i j w) s e (w.put sl (.ldr r i j)).fit sl i (xrLanding r)) ∧
    (∀ r, LoadsHalf (.ldl e sl r i j w) s e (w.put sl (.ldl r i j)).fit sl i (.l r))

/-- R49, R91. STQ stores the four lanes of a register in a quad, STW the lane that owns the word, STR a P
register zero-extended or an N register sign-extended, STL a length zero-extended. -/
def Obligations.StoreResults : Prop :=
  ∀ (s : State) (e : Fin 32) (sl : Slot) (i : Fin 8) (j : Fin 4) (w : Bundle), sl.fits w.c = true →
    (∀ r, let b := (w.put sl (.stq r i j)).fit
      Ready s e b → Straight (issueEng s e b) b → (issueEng s e b).ext = [] →
      Gives (.stq e sl r i j w) s fun u =>
        let g := issueEng s e b
        ∀ k : Fin 4, wordOf u.mem (wordAt (issueState s e b) e ((g.rs.pR i).toNat / 4 * 4 + k.val)) = g.rs.dL r k) ∧
    (∀ r, let b := (w.put sl (.stw r i j)).fit
      Ready s e b → Straight (issueEng s e b) b → (issueEng s e b).ext = [] →
      Gives (.stw e sl r i j w) s fun u =>
        let g := issueEng s e b
        wordOf u.mem (wordAt (issueState s e b) e (g.rs.pR i).toNat) =
          g.rs.dL r ⟨(g.rs.pR i).toNat % 4, by omega⟩) ∧
    (∀ r : Fin 16, let b := (w.put sl (.str r i j)).fit
      Ready s e b → Straight (issueEng s e b) b → (issueEng s e b).ext = [] →
      Gives (.str e sl r i j w) s fun u =>
        let g := issueEng s e b
        let x := wordOf u.mem (wordAt (issueState s e b) e (g.rs.pR i).toNat)
        (∀ h : r.val < 8, x = (g.rs.pR ⟨r.val, h⟩).zeroExtend 32) ∧
        (∀ h : 8 ≤ r.val, x = (g.rs.nR ⟨r.val - 8, by omega⟩).signExtend 32)) ∧
    (∀ r, let b := (w.put sl (.stl r i j)).fit
      Ready s e b → Straight (issueEng s e b) b → (issueEng s e b).ext = [] →
      Gives (.stl e sl r i j w) s fun u =>
        let g := issueEng s e b
        wordOf u.mem (wordAt (issueState s e b) e (g.rs.pR i).toNat) = (g.rs.lR r).zeroExtend 32)

/-- R88. Every memory operation writes back modify(Pi, N, Li) to its pointer, seen by the next bundle: N is
the modifier of the pointer's half that the slot names. -/
def Obligations.PointerWriteBack : Prop :=
  ∀ (s : State) (e : Fin 32) (sl : Slot) (op : MemOp) (i : Fin 8) (j : Fin 4) (w : Bundle) (c : Instr),
    (∃ r, (op = .ldq r i j ∧ c = .ldq e sl r i j w) ∨ (op = .ldw r i j ∧ c = .ldw e sl r i j w) ∨
      (op = .stq r i j ∧ c = .stq e sl r i j w) ∨ (op = .stw r i j ∧ c = .stw e sl r i j w) ∨
      (op = .ldr r i j ∧ c = .ldr e sl r i j w) ∨ (op = .str r i j ∧ c = .str e sl r i j w)) ∨
    (∃ r, (op = .ldl r i j ∧ c = .ldl e sl r i j w) ∨ (op = .stl r i j ∧ c = .stl e sl r i j w)) →
    sl.fits w.c = true →
    let b := (w.put sl op).fit
    Ready s e b → (issueEng s e b).returns = false → Gives c s fun u =>
      let g := issueEng s e b
      let n := if i.val < 4 then g.rs.nR ⟨j.val, by omega⟩ else g.rs.nR ⟨4 + j.val, by omega⟩
      Lands u e g 1 (.p i (modify (g.rs.pR i) n (g.rs.lR i)))

/-- R89. modify(p, n, l): linear modulo 2¹⁶ when l is 0, else circular in a buffer of l words that starts at a
multiple of the smallest power of two not below l. -/
def Obligations.PointerModification : Prop :=
  ∀ p n l : BitVec 16,
    (l = 0 → modify p n l = BitVec.ofInt 16 ((p.toNat : Int) + n.toInt)) ∧
    (l ≠ 0 → ∃ k, l.toNat ≤ 2 ^ k ∧ (∀ j < k, 2 ^ j < l.toNat) ∧
      modify p n l = BitVec.ofInt 16 (((p.toNat / 2 ^ k * 2 ^ k : Nat) : Int) +
        (((p.toNat % 2 ^ k : Nat) : Int) + n.toInt) % (l.toNat : Int)))

/-- R97, R103. The control instructions that write a pointer, a modifier, a length or SR: the value is seen by the
next bundle. -/
def Obligations.ControlRegisterWrites : Prop :=
  ∀ (s : State) (e : Fin 32) (w : Bundle),
    (∀ i q, WritesNext (.ldpq e i q w) s e (Bundle.fit { w with c := .ldpq i q })
      (fun r => .p i (BitVec.ofNat 16 ((r.sb.toNat + q.toNat) % 2 ^ 14 * 4)))) ∧
    (∀ i a, WritesNext (.setp e i a w) s e (Bundle.fit { w with c := .setp i a }) (fun _ => .p i a)) ∧
    (∀ i v, WritesNext (.setn e i v w) s e (Bundle.fit { w with c := .setn i v })
      (fun _ => .n i (BitVec.ofInt 16 v.toInt))) ∧
    (∀ i v, WritesNext (.setnw e i v w) s e (Bundle.fit { w with c := .setnw i v }) (fun _ => .n i v)) ∧
    (∀ i v, WritesNext (.setl e i v w) s e (Bundle.fit { w with c := .setl i v })
      (fun _ => .l i (BitVec.ofNat 16 v.toNat))) ∧
    (∀ i v, WritesNext (.setlw e i v w) s e (Bundle.fit { w with c := .setlw i v }) (fun _ => .l i v)) ∧
    (∀ i j, WritesNext (.addp e i j w) s e (Bundle.fit { w with c := .addp i j })
      (fun r => .p i (modify (r.pR i) (r.nR j) (r.lR i)))) ∧
    (∀ i d, WritesNext (.mtp e i d w) s e (Bundle.fit { w with c := .mtp i d })
      (fun r => .p i (BitVec.ofNat 16 (r.dL d 0).toNat))) ∧
    (∀ i d, WritesNext (.mtn e i d w) s e (Bundle.fit { w with c := .mtn i d })
      (fun r => .n i (BitVec.ofNat 16 (r.dL d 0).toNat))) ∧
    (∀ i d, WritesNext (.mtl e i d w) s e (Bundle.fit { w with c := .mtl i d })
      (fun r => .l i (BitVec.ofNat 16 (r.dL d 0).toNat))) ∧
    WritesNext (.ei e w) s e (Bundle.fit { w with c := .ei }) (fun _ => .epm true) ∧
    WritesNext (.di e w) s e (Bundle.fit { w with c := .di }) (fun _ => .epm false) ∧
    (∀ m, WritesNext (.clrf e m w) s e (Bundle.fit { w with c := .clrf m }) (fun _ => .clrf m))

/-- R101, R63, R92. GADV and GSET move the glide index of a slice and do nothing in a handler; PWAIT holds the
engine while its tag is outstanding; PGET and PPUT queue a far request. -/
def Obligations.GlideWaitAndFarRequests : Prop :=
  ∀ (s : State) (e : Fin 32) (w : Bundle),
    (let b := Bundle.fit { w with c := .gadv };
      Ready s e b → Straight (issueEng s e b) b → Gives (.gadv e w) s fun u =>
        let g := issueEng s e b
        (u.eng e).gidx = if g.inEvt then g.gidx else min (g.gidx + 1) (s.blk - 1)) ∧
    (∀ j, let b := Bundle.fit { w with c := .gset j }
      Ready s e b → Straight (issueEng s e b) b → Gives (.gset e j w) s fun u =>
        let g := issueEng s e b
        (u.eng e).gidx = if g.inEvt then g.gidx else min j.toNat (s.blk - 1)) ∧
    (∀ t, let b := Bundle.fit { w with c := .pwait t }
      Ready s e b → Straight (issueEng s e b) b → Gives (.pwait e t w) s fun u =>
        let g := issueEng s e b
        ((∃ q ∈ g.far, q.tag = t) → (u.eng e).wait = .tag t) ∧
        ((∀ q ∈ g.far, q.tag ≠ t) → (u.eng e).wait = .none)) ∧
    (∀ t i x cnt, let b := Bundle.fit { w with c := .pget t i x cnt }
      Ready s e b → Straight (issueEng s e b) b → Gives (.pget e t i x cnt w) s fun u =>
        let g := issueEng s e b
        (u.eng e).far.length = g.far.length + 1 ∧
        (u.eng e).far.getLast? = some
          { tag := t, get := true, q0 := (g.rs.pR i).toNat / 4, quads := cnt.val + 1,
            off := (g.rs.dL x 0 &&& 0x01FFFFF0#32).toNat, issued := g.cyc, headAt := g.cyc }) ∧
    (∀ t i x cnt, let b := Bundle.fit { w with c := .pput t i x cnt }
      Ready s e b → Straight (issueEng s e b) b → Gives (.pput e t i x cnt w) s fun u =>
        let g := issueEng s e b
        (u.eng e).far.length = g.far.length + 1 ∧
        (u.eng e).far.getLast? = some
          { tag := t, get := false, q0 := (g.rs.pR i).toNat / 4, quads := cnt.val + 1,
            off := (g.rs.dL x 0 &&& 0x01FFFFF0#32).toNat, issued := g.cyc, headAt := g.cyc })

/-- R55, R98, R99. BRA and JMP are always taken, BC on its condition of SR at issue, DJN while its decremented
register is not 0; a target issues after two delay slots. -/
def Obligations.BranchFlow : Prop :=
  ∀ (s : State) (e : Fin 32) (w : Bundle),
    (∀ rel, BranchTo (.bra e rel w) s e (Bundle.fit { w with c := .bra rel })
      (fun g => some (((g.pc : Int) + rel.toInt) % 8192).toNat)) ∧
    (∀ a, BranchTo (.jmp e a w) s e (Bundle.fit { w with c := .jmp a }) (fun _ => some a.toNat)) ∧
    (∀ c rel, BranchTo (.bc e c rel w) s e (Bundle.fit { w with c := .bc c rel })
      (fun g => if (match c.val with
          | 0 => g.rs.sr.getLsbD 8
          | 1 => !(g.rs.sr.getLsbD 8)
          | 2 => g.rs.sr.getLsbD 12
          | 3 => !(g.rs.sr.getLsbD 12)
          | 4 => g.rs.sr.getLsbD 12 || g.rs.sr.getLsbD 8
          | 5 => !(g.rs.sr.getLsbD 12) && !(g.rs.sr.getLsbD 8)
          | 6 => g.rs.sr.getLsbD 0 || g.rs.sr.getLsbD 1 || g.rs.sr.getLsbD 2 || g.rs.sr.getLsbD 3
          | _ => g.rs.sr.getLsbD 4 || g.rs.sr.getLsbD 5 || g.rs.sr.getLsbD 6 || g.rs.sr.getLsbD 7)
        then some (((g.pc : Int) + rel.toInt) % 8192).toNat else none)) ∧
    (∀ d rel, BranchTo (.djn e d rel w) s e (Bundle.fit { w with c := .djn d rel })
      (fun g => if g.rs.dL d 0 = 1 then none else some (((g.pc : Int) + rel.toInt) % 8192).toNat)) ∧
    (∀ d rel, let b := Bundle.fit { w with c := .djn d rel }
      Ready s e b → Gives (.djn e d rel w) s fun u =>
        Lands u e (issueEng s e b) 2 (.d d ⟨some ((issueEng s e b).rs.dL d 0 - 1), none, none, none⟩))

/-- R55, R74, R100. Where a bundle with no branch leaves the program: RPT and RPTW make the next bundle issue n
times, a repeated bundle counts down, a delay slot leads to the target, and NOP and every other bundle to the next. -/
def Obligations.SequentialFlow : Prop :=
  ∀ (s : State) (e : Fin 32) (w : Bundle),
    (∀ n : BitVec 12, let b := Bundle.fit { w with c := .rpt n }
      Ready s e b → Straight (issueEng s e b) b → Gives (.rpt e n w) s fun u =>
        (u.eng e).rpt = some n.toNat ∧ (u.eng e).pc = ((issueEng s e b).pc + 1) % 8192) ∧
    (∀ n : BitVec 16, let b := Bundle.fit { w with c := .rptw n }
      Ready s e b → Straight (issueEng s e b) b → Gives (.rptw e n w) s fun u =>
        (u.eng e).rpt = some n.toNat ∧ (u.eng e).pc = ((issueEng s e b).pc + 1) % 8192) ∧
    (∀ c b, c.bundle? = some (e, b) → isFlow b.c = false → rptCount b.c = none →
      Ready s e b → Straight (issueEng s e b) b → Gives c s fun u =>
        let g := issueEng s e b
        (∀ k, g.rpt = some (k + 2) → (u.eng e).rpt = some (k + 1) ∧ (u.eng e).pc = g.pc) ∧
        (g.rpt = some 1 → (u.eng e).rpt = none ∧ (u.eng e).pc = (g.pc + 1) % 8192) ∧
        (∀ a, g.rpt = none → g.delay = some ⟨2, a, false⟩ →
          (u.eng e).delay = some ⟨1, a, false⟩ ∧ (u.eng e).pc = (g.pc + 1) % 8192) ∧
        (∀ a, g.rpt = none → g.delay = some ⟨1, a, false⟩ → (u.eng e).delay = none ∧ (u.eng e).pc = a) ∧
        (g.rpt = none → g.delay = none → (u.eng e).delay = none ∧ (u.eng e).pc = (g.pc + 1) % 8192))

/-- The frame of every command that issues a bundle: but for results that land later, no register of either set, no
other engine, no register of the device and no byte of memory outside the bytes its slots store changes, and nothing
else of the device; and what goes in flight is what the slots put there, each memory and control slot what its
instruction loads and writes, an empty arithmetic slot nothing (R56, R78, R91). -/
def Obligations.BundleFrame : Prop :=
  ∀ (c : Instr) (e : Fin 32) (b : Bundle) (s u : State), c.bundle? = some (e, b) → Ready s e b →
    Straight (issueEng s e b) b → (issueEng s e b).ext = [] → exec c s = .next u →
    (∀ f : Nat, f ≠ e.val → u.eng f = s.eng f) ∧
    SameRegs (issueEng s e b).main (u.eng e).main ∧ SameRegs (issueEng s e b).shadow (u.eng e).shadow ∧
    (∀ a, ¬ storedBytes s e b a → sget 0 u.mem a = sget 0 s.mem a) ∧
    (∃ xs, InFlight s u e b (arithLatency b.a) xs ∧ (b.a = .nop → xs = [])) ∧
    u = { s with engs := u.engs, mem := u.mem, free := u.free, hif := u.hif }

/-- R63, R102. END ends the running slice after its bundle; the next switch waits for the far queue. -/
def Obligations.EndStopsSlice : Prop :=
  ∀ (s : State) (e : Fin 32) (w : Bundle), let b := Bundle.fit { w with c := .endSlice }
    Ready s e b → Gives (.endSlice e w) s fun u =>
      let g := issueEng s e b
      (u.eng e).cur = none ∧ (u.eng e).delay = none ∧ (u.eng e).rpt = none ∧
      (g.far = [] → (u.eng e).draining = none ∧ (u.eng e).wait = .none) ∧
      (g.far ≠ [] → (u.eng e).draining = g.cur ∧ (u.eng e).wait = .drain)

/-- R66, R214. RTE behaves as a taken branch to EPC; after its second delay slot the engine is back in the interrupted
set at EPC, held as it was, and the handler's event is consumed. -/
def Obligations.HandlerReturns : Prop :=
  (∀ (s : State) (e : Fin 32) (w : Bundle), let b := Bundle.fit { w with c := .rte }
    Ready s e b → Gives (.rte e w) s fun u =>
      let g := issueEng s e b
      (u.eng e).delay = some ⟨2, g.epc, true⟩ ∧ (u.eng e).inEvt = true ∧ (u.eng e).pc = (g.pc + 1) % 8192) ∧
  (∀ (c : Instr) (s : State) (e : Fin 32) (b : Bundle), c.bundle? = some (e, b) → Ready s e b →
    (issueEng s e b).returns = true → (issueEng s e b).halting = false → (∀ t, b.c ≠ .pwait t) →
    Gives c s fun u =>
      let g := issueEng s e b
      (u.eng e).inEvt = false ∧ (u.eng e).pc = g.epc ∧ (u.eng e).delay = none ∧ (u.eng e).wait = g.mainWait ∧
      u.outOf e = none)

/-- R69. The cause of each issue fault and its code, for a bundle at a legal PC whose other slots are empty. -/
def Obligations.IssueFaultCodes : Prop :=
  ∀ (g : Engine), g.pc ≤ 6143 →
    (∀ d m, issueFault g (some { Bundle.nop with a := .norm d d m }) = some 1) ∧
    (issueFault g (some { Bundle.nop with c := .rpt 0 }) = some 1) ∧
    (g.inEvt = true → issueFault g (some { Bundle.nop with c := .endSlice }) = some 1) ∧
    (issueFault g none = some 1) ∧
    (∀ x y, memStores x = true → memStores y = true → issueFault g (some { Bundle.nop with x := x, y := y }) = some 2) ∧
    (∀ r i j k l, issueFault g (some { Bundle.nop with x := .ldq r i j, y := .ldq r k l }) = some 3) ∧
    (∀ n : BitVec 12, n ≠ 0 → g.rcap < n.toNat → issueFault g (some { Bundle.nop with c := .rpt n }) = some 4) ∧
    (∀ n : BitVec 12, n ≠ 0 → n.toNat ≤ g.rcap → g.delay.isSome = true →
      issueFault g (some { Bundle.nop with c := .rpt n }) = some 5) ∧
    (g.rpt.isSome = true → issueFault g (some { Bundle.nop with c := .ei }) = some 5) ∧
    (∀ rel, g.rpt = none → g.delay.isSome = true → issueFault g (some { Bundle.nop with c := .bra rel }) = some 6) ∧
    (∀ b pc, 6143 < pc → issueFault { g with pc := pc } (some b) = some 7) ∧
    (∀ t i x c, g.rpt = none → 16 ≤ g.far.length → issueFault g (some { Bundle.nop with c := .pget t i x c }) = some 8) ∧
    (∀ t i x c, g.rpt = none → g.far.length < 16 → (∃ q ∈ g.far, q.tag = t) →
      issueFault g (some { Bundle.nop with c := .pput t i x c }) = some 9) ∧
    (∀ t i x c, g.rpt = none → g.far = [] → (g.rs.pR i).toNat / 4 < 0x3C00 →
      issueFault g (some { Bundle.nop with c := .pget t i x c }) = some 10) ∧
    (g.rpt = none → g.delay = none → g.inEvt = false → issueFault g (some { Bundle.nop with c := .rte }) = some 11) ∧
    (g.inEvt = true → g.evtFirst + g.rcap ≤ g.cyc → issueFault g (some Bundle.nop) = some 12) ∧
    ((g.inEvt = true → g.cyc < g.evtFirst + g.rcap) → issueFault g (some Bundle.nop) = none)

/-- R67, R69, R70, R71. A bundle that breaks a rule at issue, a word with a reserved encoding, and a handler that
exceeds RCAP cycles are counted and logged, and stop the slice or the handler. -/
def Obligations.FaultsAreRecorded : Prop :=
  (∀ (c : Instr) (s : State) (e : Fin 32) (b : Bundle) (code : Nat), c.bundle? = some (e, b) →
    (s.engAt e).runnable = true → issueFault (issueEng s e b) (some b) = some code →
    Gives c s fun u => FaultLeft s u e (issueEng s e b) code) ∧
  (∀ (s : State) (e : Fin 32) (word : DWord), decodeBundle word = none → (s.engAt e).runnable = true →
    ((s.engAt e).toIssue).pc ≤ 6143 →
    Gives (.illegalOp e word) s fun u => FaultLeft s u e ((s.engAt e).toIssue) 1) ∧
  (∀ (s : State) (e : Fin 32), (s.engAt e).inEvt = true →
    Gives (.handlerTimeout e) s fun u =>
      FaultLeft s u e (engTo (s.engAt e) ((s.engAt e).evtFirst + (s.engAt e).rcap)) 12)

/-- R55, R58, R87. Time passes on an engine until its next result lands: what is due has left flight and the rest has
not, and every register of each set holds what landed in it: of two results that reach one in a cycle the later-issued
stays, a sticky flag set in the cycle in which CLRF clears it ends set, and every other register keeps its value. -/
def Obligations.ResultsLand : Prop :=
  ∀ (s : State) (e : Fin 32) (c : Nat), (s.engAt e).nextLand = some c → (s.engAt e).cyc < c →
    c ≤ (s.engAt e).cyc + 4 → Gives (.pipelineResultLand e) s fun u =>
      let g := s.engAt e
      (u.eng e).cyc = c ∧ (u.eng e).flight = g.flight.filter (fun f => decide (c < f.due)) ∧
      ∀ sh : Bool,
        let q := if sh then g.shadow else g.main
        let r := if sh then (u.eng e).shadow else (u.eng e).main
        let l := (g.flight.filter (fun f => decide (f.due = c) && f.shadow == sh)).map Flight.res
        (∀ d k, r.dL d k = landed (fun x => match x with | .d i v => if i = d then v.get k else none | _ => none) l (q.dL d k)) ∧
        (∀ m k, r.aL m k = landed (fun x => match x with | .a i v => if i = m then v.get k else none | _ => none) l (q.aL m k)) ∧
        (∀ i, r.pR i = landed (fun x => match x with | .p j v => if j = i then some v else none | _ => none) l (q.pR i)) ∧
        (∀ i, r.nR i = landed (fun x => match x with | .n j v => if j = i then some v else none | _ => none) l (q.nR i)) ∧
        (∀ i, r.lR i = landed (fun x => match x with | .l j v => if j = i then some v else none | _ => none) l (q.lR i)) ∧
        (∀ k : Fin 4, bit r.sr (8 + k) = landed (fun x => match x with | .zn z _ => some (z.get k) | _ => none) l (bit q.sr (8 + k)) ∧
          bit r.sr (12 + k) = landed (fun x => match x with | .zn _ n => some (n.get k) | _ => none) l (bit q.sr (12 + k)) ∧
          bit r.sr k = (l.any (fun x => match x with | .sticky v _ => v.get k | _ => false) ||
            (bit q.sr k && !l.any (fun x => match x with | .clrf m => m.getLsbD k | _ => false))) ∧
          bit r.sr (4 + k) = (l.any (fun x => match x with | .sticky _ v => v.get k | _ => false) ||
            (bit q.sr (4 + k) && !l.any (fun x => match x with | .clrf m => m.getLsbD (4 + k) | _ => false)))) ∧
        bit r.sr 16 = landed (fun x => match x with | .epm v => some v | _ => none) l (bit q.sr 16) ∧
        (∀ i, 16 < i → bit r.sr i = bit q.sr i) ∧
        r.sb = q.sb

/-- R51, R180, R186. An external access moves one quad of DMEM, in the state in which the engine can take it, which is
the model's choice (assumptions 76 and 77: for how long it waits, and the class of the port it asks as): a write
stores the strobed bytes and no other, a read answers the quad. An engine that can take it at once, or that runs no
bundle, changes no memory and no register before it. A fenced bank keeps nothing and answers zeros with an error,
which is counted. -/
def Obligations.ExternalAccess : Prop :=
  ∀ (s : State) (e : Fin 32) (quad : BitVec 14) (strb : BitVec 16) (data : BitVec 128),
    let a := quadAddr e quad.toNat
    (s.fenced (e * 16 + quad.toNat / 1024) = false →
      Gives (.externalDmemAccess e quad true strb data) s fun u =>
        let t := extState s e quad.toNat true
        (∀ i < 16, strb.getLsbD i = true → sget 0 u.mem (a + i) = data.extractLsb' (8 * i) 8) ∧
        (∀ x, (∀ i < 16, strb.getLsbD i = true → x ≠ a + i) → sget 0 u.mem x = sget 0 t.mem x) ∧
        u.rsp.err = false ∧ u.regs = t.regs) ∧
    (s.fenced (e * 16 + quad.toNat / 1024) = false →
      Gives (.externalDmemAccess e quad false strb data) s fun u =>
        let t := extState s e quad.toNat false
        u.rsp = ⟨[(wordOf t.mem (a + 12) ++ wordOf t.mem (a + 8) ++ wordOf t.mem (a + 4) ++ wordOf t.mem a
          : BitVec 128).zeroExtend 256], false⟩ ∧ u.mem = t.mem ∧ u.regs = t.regs) ∧
    (∀ wr, (extReady e quad.toNat wr (s.engAt e) = true → extState s e quad.toNat wr = s) ∧
      ((s.engAt e).runnable = false →
        (extState s e quad.toNat wr).mem = s.mem ∧ (extState s e quad.toNat wr).regs = s.regs)) ∧
    (∀ wr, s.fenced (e * 16 + quad.toNat / 1024) = true →
      Gives (.externalDmemAccess e quad wr strb data) s fun u =>
        u.rsp = ⟨[0], true⟩ ∧ OnlyRegs s u [TST_MEM_FENCE_CNT, TST_MEM_FENCE_LOG] ∧
        u.rdF TST_MEM_FENCE_CNT 31 0 = min (s.rdF TST_MEM_FENCE_CNT 31 0 + 1) (2 ^ 32 - 1))

/-- R46, R60, R64. The slice that the sequencer picks starts with the register values of a slice start, at its entry PC,
four cycles later. -/
def Obligations.SliceStarts : Prop :=
  ∀ (s : State) (e : Fin 32) (sl : Nat),
    let g := (s.engAt e).atTurn
    g.inEvt = false → g.takeable = false → s.seqPick e g = ([], some sl) → s.rdB CLV_MIG_STAT 0 = false →
    Gives (.sliceStart e) s fun u =>
      let h := u.eng e
      h.cur = some sl ∧ h.pc = (g.entry sl).pc ∧ h.cyc = g.cyc + 4 ∧ h.meas = 4 ∧ h.gidx = 0 ∧
      h.main.sr = 0x00010000#32 ∧ h.main.sb = BitVec.ofNat 14 (g.entry sl).sb ∧
      (∀ i, h.main.dAll i = L4.all 0) ∧ (∀ i, h.main.aAll i = L4.all {}) ∧
      (∀ i, h.main.pR i = BitVec.ofNat 16 ((g.entry sl).sb * 4)) ∧ (∀ i, h.main.nR i = 0) ∧ (∀ i, h.main.lR i = 0)

/-- R64, R65. At an eligible boundary an engine takes its oldest delivered event: EPC takes the PC, the shadow set
comes into use with SB, P7 and SR as given and its other registers as they were, and PC is ENG_EVT_VEC. -/
def Obligations.EventsAreTaken : Prop :=
  ∀ (s : State) (e : Fin 32) (d : Delivery) (ds : List Delivery),
    let g := (s.engAt e).boundary
    g.deliv = d :: ds → g.evtOpen = true → d.at_ ≤ g.cyc → s.engFenced e = false → g.flight = [] →
    Gives (.eventTake e) s fun u =>
      let h := u.eng e
      h.inEvt = true ∧ h.epc = g.pc ∧ h.pc = s.rdF (ENG_EVT_VEC e) 12 0 ∧ h.deliv = ds ∧ h.evtSlice = d.slice ∧
      h.wait = .none ∧ h.mainWait = g.wait ∧ h.main = g.main ∧
      h.shadow.sr = 0x00020000#32 ∧ h.shadow.sb = BitVec.ofNat 14 (g.entry d.slice).sb ∧
      h.shadow.pR 7 = BitVec.ofNat 16 (0xFFC0 + 8 * d.slot) ∧ (∀ i, i ≠ 7 → h.shadow.pR i = g.shadow.pR i) ∧
      h.shadow.d = g.shadow.d ∧ h.shadow.a = g.shadow.a ∧ h.shadow.n = g.shadow.n ∧ h.shadow.l = g.shadow.l ∧
      u.rd (ENG_EVT_CNT e) = s.rd (ENG_EVT_CNT e) + (if s.rd (ENG_EVT_CNT e) = 0xFFFFFFFF#32 then 0 else 1)

/-- R7, R10, R11, R385, R403. A register write of part of a word or outside register space is an error; a write of any
register that no effect and no range of its own takes its RW fields from the data and clears its W1C bits; a value out of
range changes nothing and is logged; a requester without the right changes nothing. A read of a register that shows no
state of its unit answers the value, its WO fields 0, and then clears its RC fields; an extremum so cleared is empty. That
no write takes effect while a trip or a power-on reset holds the device is the model's reading (assumption 65). -/
def Obligations.RegisterAccesses : Prop :=
  (∀ (s : State) (q : Req) (a d : Word) (be : BitVec 4),
    (be ≠ 0xF#4 ∨ a.toNat % 4 ≠ 0 ∨ isRegAddr a.toNat = false) →
    Gives (.registerWrite q a d be) s fun u => u.rsp = ⟨[0], true⟩ ∧ OnlyRegs s u []) ∧
  (∀ (s : State) (q : Req) (d : Word) (r : Reg), IsRegister r → hasOwnWrite r.addr = false → Reaches s q r →
    Gives (.registerWrite q (BitVec.ofNat 32 r.addr) d 0xF#4) s fun u =>
      u.rd r = ((s.rd r &&& ~~~r.rw) ||| (d &&& r.rw)) &&& ~~~(d &&& r.w1c) ∧
      u.rsp = ⟨[0], false⟩ ∧ OnlyRegs s u [r]) ∧
  (∀ (s : State) (q : Req) (d : Word), ∀ x ∈ rangeTable d, Reaches s q x.1 →
    Gives (.registerWrite q (BitVec.ofNat 32 x.1.addr) d 0xF#4) s fun u => u.rsp = ⟨[0], false⟩ ∧
      (x.2 = false → Rejected s u q (BitVec.ofNat 32 x.1.addr) d) ∧
      (x.2 = true → u.rd x.1 = (s.rd x.1 &&& ~~~x.1.rw) ||| (d &&& x.1.rw) ∧ OnlyRegs s u [x.1])) ∧
  (∀ (s : State) (q : Req) (r : Reg) (d : Word), IsRegister r → (writerOk q r = false ∨ s.held = true) →
    (q.master = 6 → mirrored r.addr = true → s.held = false → s.aniStandby = false ∧ s.aniActive = false) →
    Gives (.registerWrite q (BitVec.ofNat 32 r.addr) d 0xF#4) s fun u =>
      u.rsp = ⟨[0], false⟩ ∧ OnlyRegs s u []) ∧
  (∀ (s : State) (q : Req) (a : Word), (a.toNat % 4 ≠ 0 ∨ isRegAddr a.toNat = false) →
    Gives (.readClear q a) s fun u => u.rsp = ⟨[0], true⟩ ∧ OnlyRegs s u []) ∧
  (∀ (s : State) (q : Req) (r : Reg), IsRegister r → hasOwnRead r.addr = false →
    Gives (.readClear q (BitVec.ofNat 32 r.addr)) s fun u =>
      u.rsp = ⟨[(s.rd r &&& ~~~r.wo).zeroExtend 256], false⟩ ∧ u.rd r = s.rd r &&& ~~~r.rc ∧
      (∀ x : Reg, x.addr ≠ r.addr → u.rd x = s.rd x) ∧ u.mem = s.mem ∧
      (r.addr ≠ SYS_FRM_DEV.addr → r.addr ≠ PWR_TPEAK.addr → OnlyRegs s u [r]) ∧
      (r.addr = SYS_FRM_DEV.addr → u.frame = { s.frame with devSeen := false }) ∧
      (r.addr = PWR_TPEAK.addr → u.pwr = { s.pwr with peakSeen := false }))

/-- R39, R40, R41, R42, R278, R295, R402. What an accepted write of run, and of the split, does: run 1 cancels a pending
stop, restarts after the final block, or starts the frame with tick 0 at the first sample edge two sample periods
on, and disarms a timed start; run 0 makes a running frame stop at the next tick; a split waits for a tick. Which
edge is tick 0, and that a write which leaves 44.1 or 88.2 kHz in force drops the streams, are the model's readings
(assumptions 10 and 119). -/
def Obligations.FrameRunsAndStops : Prop :=
  (∀ (s : State) (q : Req) (rate blen : BitVec 2), Reaches s q SYS_FRM_CTRL → rate.toNat = s.rdF SYS_FRM_CTRL 1 0 →
    blen.toNat = s.rdF SYS_FRM_CTRL 5 4 → blen ≠ 3 → s.gainFenced = false →
    Gives (.frameRun q rate blen) s fun u =>
      u.rdB SYS_FRM_CTRL 8 = true ∧ u.rdB STC_STAT 1 = false ∧
      (s.rdB SYS_FRM_STAT 2 = true → u.rdB SYS_FRM_STAT 2 = false ∧ u.frame = s.frame) ∧
      (s.rdB SYS_FRM_STAT 2 = false → s.frame.final = true → u.frame = { s.frame with restart := true }) ∧
      (s.rdB SYS_FRM_STAT 2 = false → s.frame.final = false → s.running = true → u.frame = s.frame) ∧
      (s.rdB SYS_FRM_STAT 2 = false → s.frame.final = false → s.running = false →
        u.running = true ∧ u.frame.first = true ∧ u.frame.win = .none ∧
        u.frame.edge = ceilDiv (s.stc * s.fs) stcSecond + 2)) ∧
  (∀ (s : State) (q : Req) (rate blen : BitVec 2), Reaches s q SYS_FRM_CTRL → rate.toNat = s.rdF SYS_FRM_CTRL 1 0 →
    blen.toNat = s.rdF SYS_FRM_CTRL 5 4 → blen ≠ 3 →
    Gives (.frameStop q rate blen) s fun u =>
      u.rdB SYS_FRM_CTRL 8 = false ∧ u.frame = s.frame ∧ u.running = s.running ∧
      u.rdB SYS_FRM_STAT 2 = (s.rdB SYS_FRM_STAT 2 || (s.running && !s.frame.final)) ∧
      (s.fs = 48000 ∨ s.fs = 96000 →
        ∀ r : Reg, r.addr ∉ [SYS_FRM_CTRL.addr, SYS_FRM_STAT.addr] → u.rd r = s.rd r) ∧
      (s.fs = 44100 ∨ s.fs = 88200 → u.rdB STRM_INT 2 = true ∧
        ∀ i < 128, u.rdB (STRM_RX_CTRL i) 31 = false ∧ u.rdB (STRM_TX_CTRL i) 31 = false) ∧
      u.mem = s.mem ∧ u.engs = s.engs) ∧
  (∀ (s : State) (q : Req) (d : Word), Reaches s q SYS_FRM_SPLIT →
    1 ≤ bits d 7 0 → 1 ≤ bits d 15 8 → 1 ≤ bits d 23 16 → bits d 7 0 + bits d 15 8 + bits d 23 16 = 100 →
    2048 * s.blk ≤ windowOf (pNomOf s.fs s.blk) (bits d 15 8) →
    Gives (.splitWrite q d) s fun u =>
      u.rd SYS_FRM_SPLIT = d &&& 0xFFFFFF#32 ∧ u.rdB SYS_FRM_STAT 1 = true ∧
      OnlyRegs s u [SYS_FRM_SPLIT, SYS_FRM_STAT]) ∧
  (∀ (s : State) (q : Req) (d : Word), Reaches s q SYS_FRM_SPLIT →
    bits d 7 0 + bits d 15 8 + bits d 23 16 ≠ 100 →
    Gives (.splitWrite q d) s fun u => Rejected s u q (BitVec.ofNat 32 SYS_FRM_SPLIT.addr) d)

/-- R28, R29, R39. A change of rate or block length while stopped brings P_nom, W_guard and the three windows to the
new format under the split in force; while the frame runs, it is rejected. -/
def Obligations.FormatChanges : Prop :=
  (∀ (s : State) (q : Req) (rate blen : BitVec 2) (run : Bool), Reaches s q SYS_FRM_CTRL → s.running = false →
    s.rdB SYS_FRM_STAT 1 = false → blen ≠ 3 → (run = true → s.gainFenced = false) →
    (rate.toNat ≠ s.rdF SYS_FRM_CTRL 1 0 ∨ blen.toNat ≠ s.rdF SYS_FRM_CTRL 5 4) →
    2048 * blockLen blen.toNat ≤ windowOf (pNomOf (rateHz rate.toNat) (blockLen blen.toNat)) (bits s.frame.split 15 8) →
    Gives (.frameFormatChange q rate blen run) s fun u =>
      let p := pNomOf (rateHz rate.toNat) (blockLen blen.toNat)
      u.fs = rateHz rate.toNat ∧ u.blk = blockLen blen.toNat ∧ u.rdB SYS_FRM_CTRL 8 = run ∧
      u.rd SYS_FRM_PERIOD = BitVec.ofNat 32 p ∧ u.rd SYS_FRM_GUARD = BitVec.ofNat 32 (ceilDiv (p * 500) 1000000 + 2) ∧
      u.rd SYS_FRM_WSTRIP = BitVec.ofNat 32 (p * bits s.frame.split 7 0 / 100) ∧
      u.rd SYS_FRM_WSUM = BitVec.ofNat 32 (p * bits s.frame.split 15 8 / 100) ∧
      u.rd SYS_FRM_WBUS = BitVec.ofNat 32 (p * bits s.frame.split 23 16 / 100)) ∧
  (∀ (s : State) (q : Req) (rate blen : BitVec 2) (run : Bool), Reaches s q SYS_FRM_CTRL → s.running = true →
    (q.master = 6 → s.stay ≠ some 1) → (rate.toNat ≠ s.rdF SYS_FRM_CTRL 1 0 ∨ blen.toNat ≠ s.rdF SYS_FRM_CTRL 5 4) →
    Gives (.frameFormatChange q rate blen run) s fun u =>
      Rejected s u q (BitVec.ofNat 32 SYS_FRM_CTRL.addr) (frmWord rate blen run))

/-- R34, R37, R41, R132, R136, R139, R140, R143, R168. The order of the windows and what each close does: the tick opens
the Strip window, or the final block with none, and a tick while the frame is stopped changes nothing; the Strip close
takes the Matrix's inputs and opens the Sum window; a bus whose sum is complete holds its local sum plus its cascade
term, and a bus that does not glide sums its inputs times its ramp and target gains; at the cascade deadline every bus is
complete and one whose term has not come is flagged; the Sum close turns the sums into output words and opens the Bus
window; the Bus close takes the transmit sinks and opens the tail. That a tick closes windows no command has closed, and
how two cascade channels of one bus share its fade, are the model's choices (assumptions 11 and 86). -/
def Obligations.WindowsFollow : Prop :=
  (∀ (s : State) (pest : BitVec 16), s.running = true → s.frame.final = false → s.rdB ANI_CTRL 0 = false →
    Gives (.blockTick pest) s fun u =>
      (s.rdB SYS_FRM_STAT 2 = false → u.frame.win = .strip ∧ u.frame.final = false) ∧
      (s.rdB SYS_FRM_STAT 2 = true → u.frame.win = .none ∧ u.frame.final = true ∧ u.rdB SYS_FRM_STAT 2 = false)) ∧
  (∀ (s : State) (pest : BitVec 16), s.running = true → s.frame.final = false →
    Gives (.blockTick pest) s fun u => u.frame.win = .strip ∨ u.frame.win = .none) ∧
  (∀ (s : State) (pest : BitVec 16), s.running = false → Gives (.blockTick pest) s fun u => OnlyRegs s u []) ∧
  (∀ s : State, s.frame.win = .strip → Gives .stripWindowClose s fun u =>
    u.frame = { s.frame with win := .sum } ∧ u.rdB MXM_STAT 0 = true ∧ s.frame.tickAt + s.wStrip ≤ u.now ∧
    (s.engs = [] → u.mtx = { s.mtx with xin := s.consume 0 1024, ctail := s.cascTails } ∧ u.router = s.router ∧
      u.mem = s.mem)) ∧
  (∀ s : State, s.frame.win ≠ .strip → Gives .stripWindowClose s fun u => OnlyRegs s u []) ∧
  (∀ (s : State) (b : Fin 256), s.frame.win = .sum → Gives (.matrixBusComplete b) s fun u =>
    u.mtx.next = max s.mtx.next (b.val + 1) ∧ u.mtx.xin = s.mtx.xin ∧ u.frame = s.frame ∧ u.router = s.router ∧
    u.mem = s.mem ∧
    (s.mtx.next = b.val → s.frame.tickAt + s.wStrip + 8 * s.blk * (b.val + 1) ≤ u.now ∧
      (∀ j < s.blk, (s.bus b).segs = [] → (sget [] u.mtx.lsum b).getD j 0 = s.mtx.xin.foldl (fun (a : Int) x =>
        a + (sampleAt x.2 j).toInt * (s.gainWord 2 b x.1 + roundHalfEven
          ((s.gainWord (b2n (s.bus b).sel) b x.1 - s.gainWord 2 b x.1) * (j + 1)) s.blk) * 16) 0) ∧
      (s.busWaits b = false → (∀ p, (b.val, p) ∉ s.mtx.psum) →
        (b.val, (upTo s.blk).map (fun j => (s.localSum b).getD j 0 + (s.cascTerm b).2.2.getD j 0)) ∈ u.mtx.psum))) ∧
  (∀ s : State, s.frame.win = .sum → s.mtx.dead = false → Gives .cascadeDeadline s fun u =>
    u.mtx.dead = true ∧ 256 ≤ u.mtx.next ∧ u.frame = s.frame ∧ u.router = s.router ∧ u.mem = s.mem ∧
    s.frame.tickAt + s.wStrip + s.wSum - 8 ≤ u.now ∧ (∀ b < 256, ∃ p, (b, p) ∈ u.mtx.psum) ∧
    ∀ b < 256, ∀ src ∈ s.cascSrcs b, (∀ v, (src, v) ∉ s.mtx.casc) → (∀ p, (b, p) ∉ s.mtx.psum) →
      u.rdB (MXM_CLOST (b / 32)) (b % 32) = true ∧ u.rdB MXM_INT 1 = true) ∧
  (∀ s : State, s.frame.win = .sum → Gives .sumWindowClose s fun u =>
    u.frame.win = .bus ∧ u.rdB MXM_STAT 0 = false ∧ s.frame.tickAt + s.wStrip + s.wSum ≤ u.now ∧
    (∀ (b : Fin 256) (p : List Int), s.mtx.dead = true → s.engs = [] → s.mtx.psum = [(b.val, p)] →
      sget [] u.router.src (0x2000 + b) = normBlock (p.map (fun v =>
        clamp32 (roundHalfEven v (2 ^ (32 + (s.bus b).hs))))))) ∧
  (∀ s : State, s.frame.win = .bus → Gives .busWindowClose s fun u =>
    u.frame.win = .tail ∧ s.frame.tickAt + s.wStrip + s.wSum + s.wBus ≤ u.now ∧
    (s.engs = [] → (∀ n < 24, s.rdB (SAP_CTRL n) 3 = false) → u.router.txOut = s.consume 0x1000 0xC00))

/-- The tick opens a block with nothing to stop, mirror or migrate. -/
def TickOpens (s : State) : Prop :=
  s.running = true ∧ s.frame.final = false ∧ s.rdB SYS_FRM_STAT 2 = false ∧ s.rdB ANI_CTRL 0 = false ∧
  s.rdB CLV_MIG_STAT 0 = false ∧ s.mig.clean = [] ∧ s.mig.finishing = false ∧ s.router.rewrites = []

/-- One of `n` taps from tap `b` on lies among the taps that `f` names of another valid entry of a table than `i`. -/
def tapsShared (tbl : Nat → Entry) (f : Entry → Nat × Nat) (i b n : Nat) : Bool :=
  (upTo 64).any (fun j => j != i && (tbl j).valid &&
    (upTo n).any (fun k => decide ((f (tbl j)).1 ≤ b + k ∧ b + k < (f (tbl j)).1 + (f (tbl j)).2)))

/-- The lowest of the codes 1 to 4 of R108 that entry `i` fails beside a table, its window and taps where given, its sizes
and counts those of `t`; 0 for none. -/
def entryFault (tbl : Nat → Entry) (t : Entry) (i sb inBase outBase blk : Nat) : Nat :=
  if 0x3C00 < sb + t.winSize then 1
  else if tapsShared tbl (fun x => (x.inBase, x.inCnt)) i inBase t.inCnt then 2
  else if tapsShared tbl (fun x => (x.outBase, x.outCnt)) i outBase t.outCnt then 3
  else if t.inSize < ceilDiv t.inCnt 4 * blk ∨ t.outSize < ceilDiv t.outCnt 4 * blk then 4
  else 0

/-- The lowest code of R108 that a staged entry of an engine fails while no migration is in progress, 0 for none. -/
def stagedFault (s : State) (e i : Nat) : Nat :=
  let t := s.staged e i
  if t.valid then entryFault (s.staged e) t i t.sb t.inBase t.outBase s.blk else 0

/-- The lowest refuse code of R122 that holds of a migration's start, 0 for none. That taps past the engine's last are
refused with code 4 is the model's choice (assumption 81). -/
def startRefused (s : State) : Nat :=
  let src := s.rdF CLV_MIG_SRC 10 0
  let dst := s.rdF CLV_MIG_DST 10 0
  let t := (s.eng (src / 64)).entry (src % 64)
  let g := s.eng (dst / 64)
  let inBase := s.rdF CLV_MIG_TAPS 6 0
  let outBase := s.rdF CLV_MIG_TAPS 22 16
  if s.rdB CLV_MIG_STAT 0 then 1
  else if t.valid = false ∨ t.phase = 2 ∨ s.fslice (src / 64) (src % 64) = true then 2
  else if (g.entry (dst % 64)).valid = true ∨ (s.staged (dst / 64) (dst % 64)).valid = true ∨ g.active = false then 3
  else if entryFault g.entry t (dst % 64) (s.rdF CLV_MIG_DST 29 16) inBase outBase s.blk ≠ 0 ∨
    96 < inBase + t.inCnt ∨ 128 < outBase + t.outCnt then 4
  else if s.rdF (ENG_MRPH (src / 64) (src % 64)) 23 20 ≠ 0 ∨
    (∃ m : Fin 4, s.slotState m = 1 ∧ ∃ k : Fin 4, s.rdB (ENG_MRPH (src / 64) (src % 64)) (4 * m.val + k.val) = true) then 5
  else if 2 ^ 25 < s.rdF CLV_MIG_POOL 24 4 * 16 + (t.winSize + t.inSize) * 16 then 6
  else if s.running = false ∨ (s.rd CLV_MIG_BLOCK).toNat ≤ (s.rd SYS_FRM_BLOCK).toNat then 7
  else 0

/-- R37, R42, R106, R108, R137, R150, R151, R162, R164, R165. What a tick that opens a block does: the block number and the
tick's time; a split that waits comes into force with its windows; a slice table whose commit waits is copied if no valid
entry fails a check, and refused with the lowest failing slice and code otherwise; each written sink entry comes into force
with the change of its terms, or waits where it needs a fourth; flips start glides of flip_len to the other bank; an armed
slot whose time has come starts its glides at its sample, any other stays armed. -/
def Obligations.TickSteps : Prop :=
  (∀ (s : State) (pest : BitVec 16), s.running = true → s.frame.final = false → s.rdB ANI_CTRL 0 = false →
    Gives (.blockTick pest) s fun u =>
      u.rd SYS_FRM_BLOCK = (if s.frame.first then 0 else s.rd SYS_FRM_BLOCK + 1) ∧ u.frame.first = false ∧
      u.frame.edge = s.frame.edge + s.blk ∧
      u.rd SYS_FRM_TICK_NS = BitVec.ofNat 32 (s.frame.edge * 1000000000 / s.fs % 1000000000) ∧
      (s.rdB SYS_FRM_STAT 1 = false → u.frame.split = s.frame.split) ∧
      (s.rdB SYS_FRM_STAT 1 = true → u.frame.split = s.rd SYS_FRM_SPLIT ∧ u.rdB SYS_FRM_STAT 1 = false ∧
        u.rdB SYS_FRM_INT 1 = true ∧
        u.rd SYS_FRM_WSTRIP = BitVec.ofNat 32 (pNomOf s.fs s.blk * s.rdF SYS_FRM_SPLIT 7 0 / 100) ∧
        u.rd SYS_FRM_WSUM = BitVec.ofNat 32 (pNomOf s.fs s.blk * s.rdF SYS_FRM_SPLIT 15 8 / 100) ∧
        u.rd SYS_FRM_WBUS = BitVec.ofNat 32 (pNomOf s.fs s.blk * s.rdF SYS_FRM_SPLIT 23 16 / 100))) ∧
  (∀ (s : State) (pest : BitVec 16) (e : Fin 32), TickOpens s → s.rdB (ENG_SLT_COMMIT e) 0 = true →
    Gives (.blockTick pest) s fun u =>
      u.rdB (ENG_SLT_COMMIT e) 0 = false ∧ u.rdB (ENG_SLT_STAT e) 0 = false ∧
      ((∀ i < 64, stagedFault s e i = 0) → ∀ i < 64, (u.eng e).entry i = s.staged e i) ∧
      (∀ i < 64, stagedFault s e i ≠ 0 → (∀ j < i, stagedFault s e j = 0) →
        (∀ k, (u.eng e).entry k = (s.eng e).entry k) ∧ u.rdB (ENG_SLT_STAT e) 1 = true ∧
        u.rdF (ENG_SLT_STAT e) 13 8 = i ∧ u.rdF (ENG_SLT_STAT e) 19 16 = stagedFault s e i)) ∧
  (∀ (s : State) (pest : BitVec 16) (i : Nat), TickOpens s → s.rdB PRT_CTRL 0 = false → s.sinkWritten i ≠ s.sinkInForce i →
    Gives (.blockTick pest) s fun u =>
      let w := s.sinkWritten i
      let k := if s.frame.ticking then (s.sink i).roll s.blk else s.sink i
      let new := bit w 31 && !k.terms.any (fun t => t.src == bits w 13 0)
      (3 ≤ k.terms.length → (new = true ∨ k.deferred = true) →
        u.sinkInForce i = s.sinkInForce i ∧ (u.sink i).terms = k.terms ∧ (u.sink i).deferred = true ∧
        u.rdB PRT_INT 2 = true) ∧
      (k.terms.length < 3 ∨ (new = false ∧ k.deferred = false) →
        u.sinkInForce i = w ∧ u.rdB PRT_INT 3 = true ∧ (u.sink i).count = 0 ∧ (u.sink i).len = bits w 25 16 ∧
        (u.sink i).terms = k.terms.map (fun t =>
          { t with gs := t.g, e := if bit w 31 = true ∧ t.src = bits w 13 0 then 2 ^ 30 else 0 }) ++
            (if new then [⟨bits w 13 0, 0, 0, 2 ^ 30⟩] else []))) ∧
  (∀ (s : State) (pest : BitVec 16) (b : Fin 256), TickOpens s → s.frame.win ≠ .strip → s.frame.win ≠ .sum →
    (∀ m : Fin 4, s.slotState m = 0 ∧ s.rdB (MXM_MR_CTRL m) 1 = false) → s.rdB MXM_STAT 1 = true →
    Gives (.blockTick pest) s fun u =>
      (∀ n < 8, u.rd (MXM_FLIP n) = 0) ∧ u.rdB MXM_STAT 1 = false ∧ u.rdB MXM_INT 2 = true ∧
      (s.rdB (MXM_FLIP (b / 32)) (b % 32) = true →
        let bank := !(s.bus b).selNow
        (u.bus b).segs = [(0, ⟨bank, s.rdF (MXM_BUS b) 19 0, 1⟩)] ∧ u.rdB (MXM_BUS b) 30 = bank ∧
        u.rdB (MXM_BUS b) 31 = true ∧ u.rdB (MXM_GLIDE (b / 32)) (b % 32) = true) ∧
      (s.rdB (MXM_FLIP (b / 32)) (b % 32) = false → (u.bus b).segs = (s.bus b).segs)) ∧
  (∀ (s : State) (pest : BitVec 16) (m : Fin 4), TickOpens s → s.frame.win ≠ .strip → s.frame.win ≠ .sum →
    (∀ e < 32, s.rdB (ENG_SLT_COMMIT e) 0 = false) → (∀ m : Fin 4, s.rdB (MXM_MR_CTRL m) 1 = false) →
    s.slotState m = 1 → (∀ m' : Fin 4, m' ≠ m → s.slotState m' = 0) →
    Gives (.blockTick pest) s fun u =>
      let d : Int := s.slotTime m - (s.frame.edge * 1000000000 / s.fs : Nat)
      let j := if d < 0 then 0 else (d * s.fs / 1000000000).toNat
      (s.blk ≤ j → u.slotState m = 1) ∧
      (j < s.blk → u.slotState m = 2 ∧ u.rdF (MXM_MR_STAT m) 12 8 = j ∧
        u.rdB (MXM_MR_STAT m) 29 = decide (d * s.fs ≤ -1000000000) ∧ u.rd (MXM_MR_SBLK m) = u.rd SYS_FRM_BLOCK ∧
        (∀ b : Fin 256, s.rdB (MXM_MR_BUS m (b / 32)) (b % 32) = true → (u.bus b).owner = some m ∧
          (u.bus b).segs.getLast? = some (j, ⟨s.rdB (MXM_MR_CFG m) 28, s.rdF (MXM_MR_CFG m) 19 0, 1 - (j : Int)⟩)) ∧
        (∀ (e : Fin 32) (i : Fin 64) (c : Fin 4), s.rdB (ENG_MRPH e i) (4 * m + c) = true →
          ((s.eng e).entry i).valid = true → s.rdB (MXM_MR_CFG m) 29 = false →
          let l := u.lane ((e * 64 + i) * 4 + c)
          l.owner = some m ∧ u.rdB (ENG_MRPH e i) (20 + c) = true ∧
          ∃ g, l.segs.getLast? = some (j, g) ∧ g.up = true ∧ g.len = s.rdF (MXM_MR_CFG m) 19 0)))

/-- R41, R402. The tick after the final block stops the frame: running and the window end, and SYS_FRM_INT.stopped is
set; with a restart waiting, the frame starts again. -/
def Obligations.FinalBlockEnds : Prop :=
  ∀ (s : State) (pest : BitVec 16), s.running = true → s.frame.final = true → Gives (.blockTick pest) s fun u =>
    u.running = s.frame.restart ∧ u.rdB SYS_FRM_INT 2 = true ∧ u.frame.win = .none ∧ u.frame.ticking = false ∧
    u.frame.final = false ∧ u.frame.first = (if s.frame.restart then true else s.frame.first) ∧
    u.router.play = [] ∧ u.router.txOut = []

/-- R62, R92, R111, R169, R197. One tap quad of a fill reaches DMEM; one beat of a far request moves its quads
between Pool and exchange window; a far request that completes leaves the queue and frees its tag. Beats are
commands of their own (the model's choice, assumption 25). -/
def Obligations.TransfersMoveData : Prop :=
  (∀ (s : State) (e : Fin 32) (x : Xfer), (s.eng e).nextXfer = some x → x.collect = false → s.frame.win ≠ .none →
    s.rdB CLV_MIG_STAT 0 = false → (0 < (s.engAt e).spare ∨ (s.engAt e).runnable = false) → Gives (.routerTapTransfer e) s fun u =>
      let t := (s.eng e).entry x.slice
      let tap := fun i => tapSink e (t.inBase + 4 * (x.pos / s.blk) + i)
      (∀ i < 4, 4 * (x.pos / s.blk) + i < t.inCnt →
        wordOf u.mem (quadAddr e (t.sb + x.pos) + 4 * i) = sampleAt (sget [] s.router.tapIn (tap i)) (x.pos % s.blk)) ∧
      (∀ a, (∀ i < 16, a ≠ quadAddr e (t.sb + x.pos) + i) → sget 0 u.mem a = sget 0 s.mem a) ∧
      u.regs = s.regs ∧ u.router = s.router) ∧
  (∀ (s : State) (e : Fin 32) (x : Xfer), (s.eng e).nextXfer = some x → x.collect = true → s.frame.win ≠ .none →
    (0 < (s.engAt e).spare ∨ (s.engAt e).runnable = false) → Gives (.routerTapTransfer e) s fun u =>
      ((u.eng e).sb x.slice).coll = x.pos + 1 ∧ u.mem = s.mem ∧ u.regs = s.regs ∧ u.router = s.router) ∧
  (∀ (s : State) (e : Fin 32) (t w : Nat) (q : FarReq) (rest : List FarReq), (s.eng e).beatAt = some t →
    s.farTurn t = some w → (s.eng w).far = q :: rest → q.alt = [] →
    (∀ k, s.fenced (poolUnit (q.pool k - 0x10000000)) = false) → Gives (.farBeatServe e) s fun u =>
      (u.eng w).far = { q with beats := q.beats + 1,
                               cont := q.cont || decide (1 < (s.beatsAt t).length) || s.busAt t } :: rest ∧
      u.regs = s.regs ∧
      (∀ k < q.quads, k / 2 = q.beats → ∀ i < 4,
        (q.get = true → wordOf u.mem (dmemAddr w ((q.q0 + k) * 4 + i)) = wordOf s.mem (q.pool k + 4 * i)) ∧
        (q.get = false → wordOf u.mem (q.pool k + 4 * i) = wordOf s.mem (dmemAddr w ((q.q0 + k) * 4 + i))))) ∧
  (∀ (s : State) (e : Fin 32) (q : FarReq) (rest : List FarReq), (s.eng e).far = q :: rest →
    (s.eng e).inEvt = false → (s.eng e).draining = none → Gives (.farRequestComplete e) s fun u =>
      (u.eng e).far.map FarReq.tag = rest.map FarReq.tag ∧
      (q.cont = false → u.rdF (ENG_FARQ_LATMAX e) 12 0 = max (s.rdF (ENG_FARQ_LATMAX e) 12 0)
        (min (q.headAt + q.quads + 24 - q.issued) 8191)) ∧
      (u.eng e).wait = (if (s.eng e).wait = .tag q.tag then .none else (s.eng e).wait))

/-- R106, R137, R149, R156. Staged requests that wait for the next boundary: a slice-table commit, bus flips, a morph
arm (refused while the slot is not idle) and a morph abort. -/
def Obligations.BoundaryRequestsWait : Prop :=
  (∀ (s : State) (q : Req) (e : Fin 32), Reaches s q (ENG_SLT_COMMIT e) → Gives (.sliceTableCommit q e) s fun u =>
    u.rd (ENG_SLT_COMMIT e) = 1 ∧ u.rdB (ENG_SLT_STAT e) 0 = true ∧ OnlyRegs s u [ENG_SLT_COMMIT e, ENG_SLT_STAT e]) ∧
  (∀ (s : State) (q : Req) (n : Fin 8) (w : Word), Reaches s q (MXM_FLIP n) → w ≠ 0 → Gives (.busFlip q n w) s fun u =>
    u.rd (MXM_FLIP n) = s.rd (MXM_FLIP n) ||| w ∧ u.rdB MXM_STAT 1 = true ∧ OnlyRegs s u [MXM_FLIP n, MXM_STAT]) ∧
  (∀ (s : State) (q : Req) (m : Fin 4) (abort : Bool), Reaches s q (MXM_MR_CTRL m) → Gives (.morphArm q m abort) s fun u =>
    (s.slotState m = 0 → u.slotState m = 1 ∧ u.rdB (MXM_MR_STAT m) 31 = false ∧ u.rdF (MXM_MR_STAT m) 5 4 = 0) ∧
    (s.slotState m ≠ 0 → u.slotState m = s.slotState m ∧ u.rdB (MXM_MR_STAT m) 30 = true) ∧
    u.rdB (MXM_MR_CTRL m) 1 = (abort || s.rdB (MXM_MR_CTRL m) 1) ∧ OnlyRegs s u [MXM_MR_STAT m, MXM_MR_CTRL m]) ∧
  (∀ (s : State) (q : Req) (m : Fin 4), Reaches s q (MXM_MR_CTRL m) → Gives (.morphAbort q m) s fun u =>
    u.rdB (MXM_MR_CTRL m) 1 = true ∧ OnlyRegs s u [MXM_MR_CTRL m])

/-- R122, R124, R127. A migration start is armed, or refused with the lowest code of R122 that holds; an abort ends it
ABORTED with cause 1, or in the cycle of tick k+3 lets it go on to end ABORT_LATE; the load copies the snapshot, and over its
input area the input history, to the destination window once that history is whole, where no bank is fenced; the comparison
passes equal windows and aborts with cause 4 otherwise. That destination taps past the engine's last are refused with code
4, and what an accepted start keeps, are the model's choices (assumptions 81 and 101). -/
def Obligations.MigrationSteps : Prop :=
  (∀ (s : State) (q : Req), Reaches s q CLV_MIG_CTRL →
    (∀ x ∈ (s.eng (s.rdF CLV_MIG_DST 10 0 / 64)).live,
      x.1 < 64 ∧ (s.eng (s.rdF CLV_MIG_DST 10 0 / 64)).entry x.1 = x.2) → Gives (.migrationStart q) s fun u =>
    (startRefused s = 0 → u.rdB CLV_MIG_STAT 0 = true ∧ u.rdF CLV_MIG_STAT 3 1 = 1 ∧ u.rd CLV_MIG_DIFF = 0 ∧
      u.mig.src = s.rdF CLV_MIG_SRC 10 0 ∧ u.mig.dst = s.rdF CLV_MIG_DST 10 0 ∧ u.mig.k = (s.rd CLV_MIG_BLOCK).toNat) ∧
    (startRefused s ≠ 0 → u.rdF CLV_MIG_STAT 15 12 = startRefused s ∧ u.rdB CLV_MIG_STAT 16 = true ∧ u.mig = s.mig ∧
      OnlyRegs s u [CLV_MIG_STAT])) ∧
  (∀ (s : State) (q : Req), Reaches s q CLV_MIG_CTRL → s.rdB CLV_MIG_STAT 0 = true → 0 < s.stcRate →
    Gives (.migrationAbort q) s fun u =>
      let due := s.blockNo = (s.mig.k + 2) % 2 ^ 32 ∧ s.running = true ∧ s.frame.final = false ∧
        ceilDiv (s.frame.edge * stcSecond) s.fs ≤ s.stc
      (¬due → u.rdB CLV_MIG_STAT 0 = false ∧ u.rdF CLV_MIG_STAT 5 4 = 2 ∧ u.rdF CLV_MIG_STAT 11 8 = 1 ∧ u.mem = s.mem) ∧
      (due → u.mig = { s.mig with late := true } ∧ OnlyRegs { s with mig := u.mig } u [])) ∧
  (∀ s : State, s.rdB CLV_MIG_STAT 0 = true → s.blockNo = (s.mig.k + 1) % 2 ^ 32 → s.mig.created = true →
    s.mig.snap = true → s.mig.loaded = false → Memory.wf s.mem = true → (s.liveOf s.mig.dst).inQuads s.blk ≤ s.mig.hist →
    s.mig.pool + ((s.liveOf s.mig.dst).winSize + (s.liveOf s.mig.dst).inQuads s.blk) * 16 ≤ 2 ^ 25 →
    (∀ x, s.fenced x = false) → Gives .migrationLoad s fun u =>
      let t := s.liveOf s.mig.dst
      let a := dmemAddr (s.mig.dst / 64) (t.sb * 4)
      let n := t.inQuads s.blk
      u.mig.loaded = true ∧ u.regs = s.regs ∧
      (∀ i, n * 16 ≤ i → i < t.winSize * 16 → sget 0 u.mem (a + i) = sget 0 s.mem (s.migPool + i)) ∧
      (∀ q < n, ∀ i < 4, q / s.blk * 4 + i < t.inCnt →
        wordOf u.mem (a + q * 16 + 4 * i) = wordOf s.mem (s.migPool + t.winSize * 16 + q * 16 + 4 * i)) ∧
      (∀ x, (x < a ∨ a + max (t.winSize * 16) (n * 16) ≤ x) → sget 0 u.mem x = sget 0 s.mem x)) ∧
  (∀ s : State, s.rdB CLV_MIG_STAT 0 = true → s.blockNo = (s.mig.k + 2) % 2 ^ 32 → s.mig.cmp = false →
    s.migUnrun s.mig.src = false → s.migUnrun s.mig.dst = false → Gives .migrationCompare s fun u =>
      let a := dmemAddr (s.mig.src / 64) ((s.liveOf s.mig.src).sb * 4)
      let b := dmemAddr (s.mig.dst / 64) ((s.liveOf s.mig.dst).sb * 4)
      let n := (s.liveOf s.mig.src).winSize * 4
      ((∀ k < n, wordOf s.mem (a + 4 * k) = wordOf s.mem (b + 4 * k)) →
        u.mig.cmp = true ∧ u.rdB CLV_MIG_STAT 0 = true ∧ u.mig.clean = s.mig.clean) ∧
      (∀ k < n, wordOf s.mem (a + 4 * k) ≠ wordOf s.mem (b + 4 * k) →
        u.rdB CLV_MIG_STAT 0 = false ∧ u.rdF CLV_MIG_STAT 5 4 = 2 ∧ u.rdF CLV_MIG_STAT 11 8 = 4 ∧
        u.rdB CLV_MIG_DIFF 31 = true))

/-- R135, R191, R194, R195, R196, R199, R200, R201, R202, R203. The Bus Matrix: an accepted transaction joins its
master's queue with the cause that keeps it from its target, a page crossing among them; a free target goes to the
waiting transaction of highest priority; a write beat stores its strobed bytes; the last beat frees the target and
answers; a lock times out; a reset master keeps only what was granted. Which byte BMX_ERRADDR names is the model's
reading (assumption 28). -/
def Obligations.BusMatrixTransactions : Prop :=
  (∀ (s : State) (t p : Txn) (ps : List Txn), s.portFree t.master = true → s.portWait = [] → portTxns t = p :: ps →
    (s.acceptCause p ≠ 0 ∨ s.mirrors p = false) → Gives (.bmxTransactionAccept t) s fun u =>
      (portWidth t.master = 32 → p = t ∧ ps = []) ∧
      (∃ n ≤ ps.length, u.portWait.map Prod.snd = ps.drop n ∧ u.bmx.nextId = s.bmx.nextId + 1 + n) ∧
      (∃ x ∈ u.bmx.txns, x.id = s.bmx.nextId ∧ x.txn = p ∧ x.cause = s.acceptCause p ∧ x.granted = false ∧ x.beat = 0 ∧
        (x.cause = 0 → x.target = targetOf p.lo)) ∧
      (s.lockSeq p.master = none → s.bmx.lapsed = [] → p.lo / 4096 ≠ p.hi / 4096 → s.acceptCause p = 3)) ∧
  (∀ (s : State) (t : Fin 14) (x : BusTxn), s.holder t = none → s.winner t (s.bmx.txns.filter (s.grantable t)) = some x →
    Gives (.bmxArbitrationGrant t) s fun u =>
      (∃ y ∈ u.bmx.txns, y.id = x.id ∧ y.granted = true ∧ y.txn = x.txn) ∧
      sget 0 u.bmx.ptr t = (x.txn.master.val + 1) % 12 ∧
      (∀ y ∈ s.bmx.txns, s.grantable t y = true → s.priority y.txn.master t ≤ s.priority x.txn.master t) ∧
      u.mem = s.mem) ∧
  (∀ (s : State) (t : Fin 4) (x : BusTxn) (b : Beat), s.holder t = some x → x.txn.write = true → x.killed = false →
    x.txn.beats[x.beat]? = some b → 0x10000000 ≤ x.txn.lo → x.txn.lo + 32 * x.beat + 32 ≤ 0x12000000 →
    targetOf (x.txn.lo + 32 * x.beat) = t → s.fencedHit (x.txn.lo + 32 * x.beat) b.strb = none →
    Gives (.bmxBeatServe (t.castLE (by decide))) s fun u =>
      let a := x.txn.lo + 32 * x.beat
      (∀ i < 32, b.strb.getLsbD i = true → sget 0 u.mem (a + i) = b.data.extractLsb' (8 * i) 8) ∧
      (∀ j, (∀ i < 32, b.strb.getLsbD i = true → j ≠ a + i) → sget 0 u.mem j = sget 0 s.mem j) ∧
      u.regs = s.regs ∧ (s.beatsAt t = [] → u.engs = s.engs) ∧
      (x.beat + 1 = x.txn.beats.length → (∀ y ∈ s.bmx.txns, y.granted = true → y.id = x.id) → u.holder t = none)) ∧
  (∀ (s : State) (t : Fin 4) (x : BusTxn) (b : Beat), s.holder t = some x → x.txn.write = false →
    x.txn.beats[x.beat]? = some b → 0x10000000 ≤ x.txn.lo → x.txn.lo + 32 * x.beat + 32 ≤ 0x12000000 →
    targetOf (x.txn.lo + 32 * x.beat) = t → s.fencedHit (x.txn.lo + 32 * x.beat) b.strb = none →
    Gives (.bmxBeatServe (t.castLE (by decide))) s fun u =>
      u.mem = s.mem ∧ u.regs = s.regs ∧ ∃ y ∈ u.bmx.txns, y.id = x.id ∧ y.txn = x.txn ∧ y.beat = x.beat + 1 ∧
        y.data = x.data ++ [s.beatAt (x.txn.lo + 32 * x.beat)]) ∧
  (∀ (s : State) (x : BusTxn), s.defaultNext = some x →
    x.err = 0 → x.txn.master.val ≠ 6 → Gives (.bmxBeatServe 15) s fun u =>
      u.rdF BMX_ERR_CNT 31 0 = min (s.rdF BMX_ERR_CNT 31 0 + 1) (2 ^ 32 - 1) ∧ u.rdB BMX_INT 0 = true ∧
      (s.rdB BMX_ERRLOG 31 = false → u.rdB BMX_ERRLOG 31 = true ∧ u.rdF BMX_ERRLOG 11 8 = x.txn.master.val ∧
        u.rd BMX_ERRADDR = BitVec.ofNat 32 x.txn.first) ∧ u.mem = s.mem) ∧
  (∀ (s : State) (t : Fin 16) (x : BusTxn), s.doneAt t = some x → x.killed = false →
    x.origin = .plain → s.portWait = [] → Gives (.bmxTransactionComplete t) s fun u =>
      u.rsp = ⟨if x.txn.write then [] else x.data, x.err != 0⟩ ∧ (∀ y ∈ u.bmx.txns, y.id ≠ x.id) ∧ u.mem = s.mem) ∧
  (∀ (s : State) (t : Fin 14) (l : Lock), s.bmx.locks.find? (fun k => k.1 = t.val) = some (t.val, l) →
    s.lockWrite l.master = false → Gives (.lockTimeout t) s fun u =>
      (∀ k ∈ u.bmx.locks, k.1 ≠ t.val) ∧ l.master ∈ u.bmx.lapsed ∧ l.from_ + s.rdF BMX_LOCK_TO 9 0 ≤ u.now ∧
      u.mem = s.mem ∧ u.regs = s.regs) ∧
  (∀ (s : State) (m : Fin 12), Gives (.masterReset m) s fun u =>
    let live := s.bmx.txns.any (fun x => x.txn.master == m && x.granted && decide (x.cause = 0))
    (∀ x ∈ u.bmx.txns, x.txn.master = m → x.granted = true ∧ x.cause = 0 ∧ x.killed = true) ∧
    (∀ x ∈ s.bmx.txns, x.txn.master ≠ m → x ∈ u.bmx.txns) ∧
    u.rdB BMX_STAT m = live ∧ u.rdF BMX_ERR_CNT 31 0 = min (s.rdF BMX_ERR_CNT 31 0 + 1) (2 ^ 32 - 1) ∧ u.mem = s.mem) ∧
  (∀ (s : State) (i : Fin 32), s.rdB BMX_SLICE_STAT i = true → s.portIdle i = true → Gives (.bmxSliceApply i) s fun u =>
    u.rdB BMX_SLICE_STAT i = false ∧ bit u.bmx.slice i = s.rdB BMX_SLICE i ∧
    (∀ r : Reg, r.addr ≠ BMX_SLICE_STAT.addr → u.rd r = s.rd r) ∧ u.mem = s.mem) ∧
  (∀ (s : State) (q : Req) (m : Fin 12) (w : Fin 16) (d : Word), Reaches s q (BMX_WIN_ATTR m w) →
    Gives (.bmxWindowAttrWrite q m w d) s fun u =>
      u.win m w = ⟨s.rd (BMX_WIN_BASE m w), s.rd (BMX_WIN_LIMIT m w), d &&& 0x8000000F#32⟩ ∧
      (∀ m' w', m' * 16 + w' ≠ m.val * 16 + w.val → u.win m' w' = s.win m' w') ∧
      u.rd (BMX_WIN_ATTR m w) = d &&& 0x8000000F#32 ∧
      (∀ r : Reg, r.addr ≠ (BMX_WIN_ATTR m w).addr → u.rd r = s.rd r) ∧ u.mem = s.mem)

/-- R207, R208, R209, R210, R218. Posts: a port's post is queued with its port's payload and answered OK, or BUSY or
DENIED with nothing queued; an outbox slot is taken as a post of its engine and word 0 shows how it ended. -/
def Obligations.EventPosts : Prop :=
  (∀ (s : State) (q : Req) (p : Fin 4) (hdr : Word), writerOk q (CLV_POST_HDR p) = true → s.held = false →
    postAgent q p = true → bits hdr 11 0 < 2368 → s.rdB ANI_CTRL 0 = false →
    Gives (.eventPost q p hdr) s fun u =>
      let cls := bits hdr 15 14
      let flow := bits hdr 11 0
      (p.val < 2 → 2048 ≤ flow → flow < 2304 → u.rd (CLV_POST_RES p) = 4 ∧ u.clove = s.clove) ∧
      (¬ (p.val < 2 ∧ 2048 ≤ flow ∧ flow < 2304) → s.postBusy cls flow = true →
        u.rd (CLV_POST_RES p) = 1 ∧ u.clove = s.clove ∧
        u.rdF CLV_BUSY_CNT 31 0 = min (s.rdF CLV_BUSY_CNT 31 0 + 1) (2 ^ 32 - 1)) ∧
      (¬ (p.val < 2 ∧ 2048 ≤ flow ∧ flow < 2304) → s.postBusy cls flow = false →
        u.rd (CLV_POST_RES p) = 0 ∧ u.clove.next = s.clove.next + 1 ∧
        (p.val < 2 → u.rd CLV_SEQ = s.rd CLV_SEQ + 1 ∧ u.rd (CLV_POST_SEQ p) = s.rd CLV_SEQ + 1) ∧
        ∃ v ∈ u.clove.queue, v.no = s.clove.next ∧ v.flow = flow ∧ v.cls = cls ∧ v.type = bits hdr 23 16 ∧
          v.origin = min p.val 2 ∧ v.payload = (upTo 5).map (fun k => s.rd (CLV_POST_P p k)) ∧
          (cls = 1 → v.sec = s.rd (CLV_POST_TSEC p) ∧ v.ns = s.rd (CLV_POST_TNS p)))) ∧
  (∀ (s : State) (e : Fin 32) (o : Fin 8) (st : Nat), sget 0 (s.eng e).obox o = st + 1 →
    let a := dmemAddr e (0xFF80 + 8 * o)
    let w := fun i => wordOf s.mem (a + 4 * i)
    bits (w 0) 13 12 = 3 → bits (w 0) 11 0 < 2368 → s.rdB ANI_CTRL 0 = false →
    Gives (.outboxPost e o) s fun u =>
      sget 0 (u.eng e).obox o = 0 ∧
      (s.postBusy (bits (w 0) 15 14) (bits (w 0) 11 0) = true → wordOf u.mem a = 1 ∧ u.clove = s.clove) ∧
      (s.postBusy (bits (w 0) 15 14) (bits (w 0) 11 0) = false → wordOf u.mem a = 0 ∧ u.clove.next = s.clove.next + 1 ∧
        (st % 256 = s.epochOf (st / 256) → ∃ v ∈ u.clove.queue, v.no = s.clove.next ∧ v.flow = bits (w 0) 11 0 ∧
          v.origin = 3 ∧ v.payload = [w 3, w 4, w 5, w 6, w 7] ∧ v.srcFlow = some (st / 256))) ∧
      (∀ j, (∀ i < 4, j ≠ a + i) → sget 0 u.mem j = sget 0 s.mem j))

/-- R119, R213, R214, R215, R216. The head that goes first is written as a record to the engine's next delivery
slot, two cycles ahead of its eligibility, or handed to the house core, or discarded where its slice masks its type;
a Timed head becomes due as the STC reaches its stamp; a host pop moves the ready head to CLV_HREC, or zeros it. The
cycles to eligibility are the model's reading (assumption 26). -/
def Obligations.EventDeliveries : Prop :=
  (∀ (s : State) (e : Fin 32) (v : Ev), s.firstCand (s.engCands e) = some ⟨v, 0⟩ → s.stale v = false →
    (discards (s.liveOf (s.target v.flow)) v = false → Gives (.eventDeliver (.engine e)) s fun u =>
      let r := sget 0 s.clove.count e
      (e.val, v) ∈ u.clove.out ∧ (∀ x ∈ u.clove.queue, x.no ≠ v.no) ∧
      (u.eng e).deliv = (s.engAt e).deliv ++
        [⟨s.target v.flow % 64, r % 8, (s.engAt e).cyc + (s.engAt e).recordTime, v.flow, (s.engAt e).cyc⟩] ∧
      (v.payload.length = 5 → ∀ i < 8, wordOf u.mem (dmemAddr e (0xFFC0 + 8 * (r % 8) + i)) =
        (evWords v (s.epochOf v.flow)).getD i 0)) ∧
    (discards (s.liveOf (s.target v.flow)) v = true → Gives (.eventDeliver (.engine e)) s fun u =>
      (∀ x ∈ u.clove.queue, x.no ≠ v.no) ∧ u.mem = s.mem ∧ u.engs = s.engs ∧
      u.rdF CLV_DISC_CNT 31 0 = min (s.rdF CLV_DISC_CNT 31 0 + 1) (2 ^ 32 - 1))) ∧
  (∀ (s : State) (c : Fin 2) (v : Ev), s.firstCand ((s.clove.queue.filter (fun v => decide (2048 ≤ v.flow ∧ v.flow < 2304) &&
      decide (s.coreOf v.flow = c) && s.isHead v && s.ready v)).map (fun v => (⟨v, 0⟩ : Cand))) = some ⟨v, 0⟩ →
    s.stale v = false → Gives (.eventDeliver (.core c)) s fun u =>
      u.clove.house = s.clove.house ++ [(c.val, v)] ∧ (∀ x ∈ u.clove.queue, x.no ≠ v.no) ∧
      sget 0 u.clove.aff v.flow = c.val + 1 ∧ u.mem = s.mem ∧ u.engs = s.engs) ∧
  (∀ (s : State) (f : BitVec 12) (v : Ev), s.head? f.toNat = some v → v.cls = 1 → s.rdB ANI_CTRL 0 = false →
    0 < s.stcRate → s.stc + (s.stampDist v).toNat * 1000000000000 + s.stcRate < 2 ^ 48 * stcSecond →
    Gives (.timedEventDue f) s fun u =>
      s.now ≤ u.now ∧ s.stc / 1000000000000 * 1000000000000 + (s.stampDist v).toNat * 1000000000000 ≤ u.stc ∧
      u.due v = true) ∧
  (∀ (s : State) (q : Req) (n : Fin 64), Reaches s q CLV_HPOP → s.clove.queue = [] → Gives (.hostPop q n) s fun u =>
    (∀ i < 8, u.rd (CLV_HREC i) = 0) ∧ u.rdB CLV_HPOP_STAT 31 = false ∧ u.rdF CLV_HPOP_STAT 11 0 = 0) ∧
  (∀ (s : State) (q : Req) (n : Fin 64) (v : Ev), Reaches s q CLV_HPOP → s.clove.queue = [v] → v.flow = 2304 + n.val →
    v.cls = 0 → v.srcFlow = none → s.forwarded v.flow = false →
    Gives (.hostPop q n) s fun u =>
      (∀ i < 8, u.rd (CLV_HREC i) = (evWords v v.epoch).getD i 0) ∧ u.rdB CLV_HPOP_STAT 31 = true ∧
      u.rdF CLV_HPOP_STAT 11 0 = 0 ∧ u.clove.queue = [])

/-- R229, R236, R248, R249, R250. Commits and group requests of the audio ports wait for the next boundary or block start;
a block start of a running transmitter makes the committed channel status live, and a converter channel that acquires
locks after 4,096 good frames (R250). -/
def Obligations.PortCommitsWait : Prop :=
  (∀ (s : State) (q : Req) (n : Fin 24), Reaches s q (SAP_COMMIT n) → Gives (.slotMaskCommit q n) s fun u =>
    u.rd (SAP_COMMIT n) = 1 ∧ u.rdB (SAP_STAT n) 3 = true ∧ OnlyRegs s u [SAP_COMMIT n, SAP_STAT n]) ∧
  (∀ (s : State) (q : Req) (g : BitVec 4), Reaches s q SAP_GRP_CTRL →
    (∀ n < 24, s.rdF (SAP_CTRL n) 10 8 ≤ 4 ∧ ∀ k < 4, s.rdF (SAP_CTRL n) 10 8 = k + 1 → g.getLsbD k = true →
      fmtValid (s.rd (SAP_FMT n)) (s.sapAsync n) (s.rdF SYS_FRM_CTRL 1 0) = true) →
    Gives (.groupStart q g) s fun u =>
      u.rd SAP_GRP_CTRL = s.rd SAP_GRP_CTRL ||| g.zeroExtend 32 ∧ OnlyRegs s u [SAP_GRP_CTRL]) ∧
  (∀ (s : State) (q : Req) (g : BitVec 4), Reaches s q SAP_GRP_CTRL → (∀ n < 24, s.rdF (SAP_CTRL n) 10 8 ≤ 4) →
    Gives (.groupStop q g) s fun u =>
      u.rd SAP_GRP_CTRL = s.rd SAP_GRP_CTRL ||| (g.zeroExtend 32 <<< 4) ∧ OnlyRegs s u [SAP_GRP_CTRL]) ∧
  (∀ (s : State) (q : Req) (n : Fin 8), Reaches s q (AES_TX_COMMIT n) → Gives (.aesTxCommit q n) s fun u =>
    u.rd (AES_TX_COMMIT n) = 1 ∧ OnlyRegs s u [AES_TX_COMMIT n]) ∧
  (∀ (s : State) (n : Fin 8), s.rdB (AES_TX_STAT n) 0 = true → Gives (.aesTxBlockStart n) s fun u =>
    (u.aesT n).idx = 0 ∧ u.rdB (AES_TX_COMMIT n) 0 = false ∧ u.mem = s.mem ∧
    (u.aesT n).live = (if s.rdB (AES_TX_COMMIT n) 0 then s.aesStaged n else (s.aesT n).live)) ∧
  (∀ (s : State) (q : Req), Reaches s q SRC_COMMIT → Gives (.srcCommit q) s fun u =>
    u.rd SRC_COMMIT = 1 ∧ OnlyRegs s u [SRC_COMMIT]) ∧
  (∀ (s : State) (c : Fin 256), (s.srcCh c).st = .acquiring → 4096 ≤ (s.srcCh c).good → Gives (.srcLock c) s fun u =>
    u.srcCh c = { s.srcCh c with st := .locked } ∧ u.rdB SRC_INT 0 = true ∧ u.rdB (SRC_LOCK (c / 32)) (c % 32) = true ∧
    (∀ r : Reg, r.addr ≠ SRC_INT.addr → r.addr ≠ (SRC_LOCK (c / 32)).addr → u.rd r = s.rd r) ∧ u.mem = s.mem)

/-- R223, R225, R233, R235, R237. Serial-port frames: a good frame of a running slave port is captured and counts toward
lock; a frame with another number of bit clocks is counted and repeats the frame before; a lost clock clears the lock;
the ring copy and the ring fetch move one block at the port's ring address. -/
def Obligations.SerialFrames : Prop :=
  (∀ (s : State) (n : Fin 24) (f : SapFrame), s.sapMaster n = false → s.sapAsync n = false → s.sapRunning n = true →
    s.frame.ticking = true → s.sapLost n = false → (s.sap n).resume = false →
    let bits_ := fmtBits (s.rd (SAP_FMT n))
    (f.bclks = fmtSlots (s.rd (SAP_FMT n)) * bits_ → s.offWindow f.offset = false → Gives (.sapFrame n f) s fun u =>
      (u.sap n).cap = (s.sap n).cap ++ [⟨some ((upTo (s.sapSlots n)).map (sdiSlot (s.rd (SAP_FMT n)) f)), f.offset, false,
        (s.sap n).slip⟩] ∧ (u.sap n).slip = false ∧
      (u.sap n).good = min ((s.sap n).good + 1) 16 ∧ (u.sap n).bad = 0 ∧
      ((s.sap n).good = 15 → u.sapLocked n = true) ∧ u.rdF (SAP_PHASE n) 15 0 = (f.offset % 65536).toNat ∧
      u.mem = s.mem) ∧
    (f.bclks ≠ fmtSlots (s.rd (SAP_FMT n)) * bits_ → s.offWindow f.offset = false → (s.sap n).bad < 3 →
      Gives (.sapFrame n f) s fun u =>
        (u.sap n).cap = (s.sap n).cap ++ [⟨some (s.sap n).prev, f.offset, true, (s.sap n).slip⟩] ∧
        (u.sap n).good = 0 ∧ (u.sap n).bad = (s.sap n).bad + 1 ∧ u.rdB (SAP_INT n) 3 = true ∧
        u.rdF (SAP_FERR_CNT n) 31 0 = min (s.rdF (SAP_FERR_CNT n) 31 0 + 1) (2 ^ 32 - 1) ∧ u.mem = s.mem)) ∧
  (∀ (s : State) (n : Fin 24), s.sapMaster n = false → s.sapLost n = false → Gives (.sapClockLoss n) s fun u =>
    u.sapLost n = true ∧ u.sapLocked n = false ∧ u.rdB (SAP_INT n) 0 = true ∧ u.rd (SAP_RATE n) = 0 ∧
    (u.sap n).good = 0 ∧ u.rdF (SAP_CLKLOSS_CNT n) 31 0 = min (s.rdF (SAP_CLKLOSS_CNT n) 31 0 + 1) (2 ^ 32 - 1) ∧
    u.mem = s.mem) ∧
  (∀ (s : State) (n : Fin 24) (k : Nat) (bs : List Byte) (rest : List (Nat × List Byte)), (s.sap n).ring = (k, bs) :: rest →
    s.frame.ticking = true → s.busIdle = true → s.portFree 8 = true → Gives (.sapRingWrite n) s fun u =>
      let a := 0x10000000 + s.rdF (SAP_RXRING n) 24 4 * 16 + k % s.rdF (SAP_RINGCFG n) 6 0 * (32 + 128 * s.blk)
      (u.sap n).ring = rest ∧
      u.mem = ((s.masterWrite 8 (a + 32) (bs.drop 32)).masterWrite 8 a (bs.take 32)).mem) ∧
  (∀ (s : State) (n : Fin 24), s.rdB (SAP_CTRL n) 3 = true → s.sapRunning n = true →
    (s.frame.win = .strip ∨ s.frame.win = .sum ∨ s.frame.win = .bus) → s.busIdle = true → s.portFree 8 = true →
    s.rdB BMX_STAT 8 = false → Gives (.sapRingFetch n) s fun u =>
      let a := 0x10000000 + s.rdF (SAP_TXRING n) 24 4 * 16 +
        (s.blockNo + 1) % 2 ^ 32 % s.rdF (SAP_RINGCFG n) 14 8 * (32 + 128 * s.blk)
      ∃ bs, (s.masterRead 8 a (32 + 128 * s.blk)).1 = some bs ∧ (u.sap n).fetched = some (bytesWords bs) ∧
        bs.length = 32 + 128 * s.blk ∧ u.mem = s.mem)

/-- R241, R242, R243. AES3: a valid frame of a locked synchronous receiver is captured with its subframes' words; a frame
without valid preambles restarts the count of good frames; a lock loss clears the lock, the grade and the rate. -/
def Obligations.AesFrames : Prop :=
  (∀ (s : State) (n : Fin 8) (f : AesFrame), (s.aesR n).on = true → (s.aesR n).sync = true → s.frame.ticking = true →
    s.aesLocked n = true → (s.aesR n).deliver = true → s.rdB (AES_RX_CTRL n) 3 = false →
    (f.a.pre = .x ∨ f.a.pre = .z) → f.b.pre = .y → 31000 * f.elapsed ≤ 1000000000 → 1000000000 ≤ 194000 * f.elapsed →
    subValid f.a = true → subValid f.b = true → s.offWindow f.offset = false → Gives (.aes3Frame n f) s fun u =>
      (u.aesR n).cap = (s.aesR n).cap ++
        [(some (subWord (s.rdB (AES_RX_CTRL n) 2) f.a), some (subWord (s.rdB (AES_RX_CTRL n) 2) f.b))] ∧
      (u.aesR n).good = min ((s.aesR n).good + 1) 16 ∧ u.aesLocked n = true ∧ u.mem = s.mem) ∧
  (∀ (s : State) (n : Fin 8) (f : AesFrame), (s.aesR n).on = true → (s.aesR n).sync = true → f.b.pre ≠ .y →
    ((s.aesR n).noPre < 3 → Gives (.aes3Frame n f) s fun u =>
      (u.aesR n).good = 0 ∧ (u.aesR n).noPre = (s.aesR n).noPre + 1 ∧ u.regs = s.regs ∧ u.mem = s.mem) ∧
    (3 ≤ (s.aesR n).noPre → s.aesLocked n = true → Gives (.aes3Frame n f) s fun u =>
      u.aesLocked n = false ∧ u.rdB (AES_RX_INT n) 0 = true ∧ u.mem = s.mem)) ∧
  (∀ (s : State) (n : Fin 8), s.aesLocked n = true → Gives (.aes3LockLoss n) s fun u =>
    u.aesLocked n = false ∧ u.rdB (AES_RX_STAT n) 1 = false ∧ u.rdF (AES_RX_STAT n) 7 6 = 0 ∧ u.rd (AES_RX_RATE n) = 0 ∧
    u.rdB (AES_RX_INT n) 0 = true ∧ (u.aesR n).deliver = false ∧ (u.aesR n).good = 0 ∧
    u.rdF (AES_RX_LOSS_CNT n) 31 0 = min (s.rdF (AES_RX_LOSS_CNT n) 31 0 + 1) (2 ^ 32 - 1) ∧ u.mem = s.mem)

/-- R257, R259, R260, R264, R268, R274. Frames received: none on a link that is not UP; the answer to the verify exchange sets
verify_ok where preemption asks for it; a coding error, a frame under 64 bytes and a wrong FCS are counted and
dropped; a frame that no filter matches is stored in the default queue with its length, and its descriptor is handed
back. At the start of a frame, its SFD, the length that it may
have and its stamp are kept (R260, R274); that they are those of the command that brings the start, and how the stamp of a
frame with no such command comes about, is the model's reading (assumption 49). How the verify exchange succeeds is the
model's choice (assumption 47). -/
def Obligations.MacReceives : Prop :=
  ∀ (s : State) (n : Fin 2) (f : RxFrame),
    (s.macUp n = false → Gives (.macFrameReceive n f) s fun u => OnlyRegs s u []) ∧
    (s.macUp n = true → f.verified = true → Gives (.macFrameReceive n f) s fun u => OnlyRegs s u [MAC_STAT n] ∧
      (s.rdB (MAC_CTRL n) 4 = true → s.rdB (MAC_CTRL n) 5 = false → u.rdB (MAC_STAT n) 5 = true)) ∧
    (s.macUp n = true → f.verified = false → f.sfd = true → f.frags = 0 → Gives (.macFrameReceive n f) s fun u =>
      (u.mac n).rx = some (s.maxlen n, s.stcInt + sbits (s.rd (MAC_TSADJ n)) 15 0) ∧ OnlyRegs s u []) ∧
    (s.macUp n = true → f.verified = false → f.sfd = false → f.frags = 0 → f.codeErr = true → Gives (.macFrameReceive n f) s fun u =>
      u.rdF (MAC_PHYERR_CNT n) 31 0 = min (s.rdF (MAC_PHYERR_CNT n) 31 0 + 1) (2 ^ 32 - 1) ∧
      OnlyRegs s u [MAC_PHYERR_CNT n]) ∧
    (s.macUp n = true → f.verified = false → f.sfd = false → f.frags = 0 → f.codeErr = false → f.reasmErr = false →
      f.bytes.length < 64 →
      Gives (.macFrameReceive n f) s fun u =>
        u.rdF (MAC_RUNT_CNT n) 31 0 = min (s.rdF (MAC_RUNT_CNT n) 31 0 + 1) (2 ^ 32 - 1) ∧
        OnlyRegs s u [MAC_RUNT_CNT n]) ∧
    (s.macUp n = true → f.verified = false → f.sfd = false → f.frags = 0 → f.codeErr = false → f.reasmErr = false →
      64 ≤ f.bytes.length → f.bytes.length ≤ (s.rxStart n f).1 →
      let len := f.bytes.length - 4
      (leBytes 4 (crc32 (f.bytes.take len)).toNat ≠ f.bytes.drop len → Gives (.macFrameReceive n f) s fun u =>
        u.rdF (MAC_FCS_CNT n) 31 0 = min (s.rdF (MAC_FCS_CNT n) 31 0 + 1) (2 ^ 32 - 1) ∧
        OnlyRegs s u [MAC_FCS_CNT n]) ∧
      (leBytes 4 (crc32 (f.bytes.take len)).toNat = f.bytes.drop len → beAt f.bytes 12 2 ≠ 0x8808 →
        (∀ i < 64, s.fltMatch n i f.bytes = false) → s.rdB (MAC_CTRL n) 7 = false →
        let q := s.rdF (MAC_CTRL n) 11 8
        let next := s.rdF (MAC_RXQ_NEXT n q) 11 0
        let d := (s.rd (MAC_RXQ_BASE n q)).toNat + 32 * next
        let addr := (wordOf s.mem d).toNat
        q < 8 → s.rdF (MAC_RXQ_SIZE n q) 12 0 ≠ 0 → next ≠ s.rdF (MAC_RXQ_AVAIL n q) 11 0 →
        len ≤ bits (wordOf s.mem (d + 4)) 15 0 → inNet addr len = true → Gives (.macFrameReceive n f) s fun u =>
          (∀ i < len, (addr + i < d + 4 ∨ d + 32 ≤ addr + i) → sget 0 u.mem (addr + i) = f.bytes.getD i 0) ∧
          wordOf u.mem (d + 28) = 0x80000000#32 ∧ bits (wordOf u.mem (d + 8)) 15 0 = len ∧
          wordOf u.mem (d + 12) = secWord (s.rxStart n f).2 ∧ wordOf u.mem (d + 16) = nsWord (s.rxStart n f).2 ∧
          (∀ a, (a < d + 4 ∨ d + 32 ≤ a) → (a < addr ∨ addr + len ≤ a) → sget 0 u.mem a = sget 0 s.mem a) ∧
          u.rd (MAC_RXQ_NEXT n q) = BitVec.ofNat 32 ((next + 1) % s.rdF (MAC_RXQ_SIZE n q) 12 0) ∧
          u.rdF (MAC_RXFRM_CNT n) 31 0 = min (s.rdF (MAC_RXFRM_CNT n) 31 0 + 1) (2 ^ 32 - 1)))

/-- R261, R265, R266, R273. Frames sent: on an idle port with neither gates, shaping nor pause, the one class that
waits starts its frame, the stream engine's or the plain frame of its head descriptor, padded and with its FCS; a
whole frame of a ring that leaves is counted and its descriptor is written back; an abort ends a segmentation send,
at once if no segment is on the wire. Instants in units of 1/25 ns are the model's (assumption 45). -/
def Obligations.MacTransmits : Prop :=
  (∀ (s : State) (n : Fin 2) (t : Fin 8), s.macUp n = true → s.rdB (MAC_CTRL n) 6 = false →
    (s.mac n).wire = none → (s.mac n).held = none → (s.mac n).pause = none → (s.mac n).segs = [] →
    (s.mac n).fwQ = [] → (s.mac n).aniQ = [] →
    (∀ k < 8, s.rdB (MAC_TCCFG n) (8 + k) = false) →
    (∀ bs : List Byte, (s.mac n).strmQ = [(t.val, bs)] → (∀ k < 8, s.txReady n k = false) → bs.length + 4 ≤ s.maxlen n →
      Gives (.macTxSelect n) s fun u =>
        (u.mac n).wire = some { cls := t, ring := false, data := sealFrame bs, upto := max bs.length 60 + 4,
                                start := max (s.mac n).free (25 * s.now) } ∧
        (u.mac n).strmQ = [] ∧ u.mem = s.mem) ∧
    (let d := txD (s.txWords n t)
     (s.mac n).strmQ = [] → (∀ k < 8, s.txReady n k = decide (k = t.val)) → s.txErr n t d = 0 → d.seg = false →
     d.csum = false → d.one = false → d.ts = false → Gives (.macTxSelect n) s fun u =>
       (u.mac n).wire = some { cls := t, ring := true, data := sealFrame (bytesAt s.mem d.addr d.len),
                               upto := max d.len 60 + 4, start := max (s.mac n).free (25 * s.now) } ∧
       u.mem = s.mem)) ∧
  (∀ (s : State) (n : Fin 2) (w : Wire), (s.mac n).wire = some w → w.upto = w.data.length → w.gone = 0 → w.ring = true →
    w.stamp = none → w.cls < 8 → sget 0 (s.mac n).segs w.cls = 0 → Gives (.macTxComplete n) s fun u =>
      (u.mac n).wire = none ∧ (u.mac n).sent = (s.mac n).sent ++ [(w.start, w.data)] ∧ s.wireEnd n w ≤ 25 * u.now ∧
      wordOf u.mem (s.txDesc n w.cls + 28) = 0x90000000#32 ∧
      (∀ a, (∀ i < 4, a ≠ s.txDesc n w.cls + 28 + i) → sget 0 u.mem a = sget 0 s.mem a) ∧
      u.rd (MAC_TXQ_HEAD n w.cls) =
        BitVec.ofNat 32 (((s.rd (MAC_TXQ_HEAD n w.cls)).toNat + 1) % s.rdF (MAC_TXQ_SIZE n w.cls) 12 0) ∧
      u.rdF (MAC_TXFRM_CNT n) 31 0 = min (s.rdF (MAC_TXFRM_CNT n) 31 0 + 1) (2 ^ 32 - 1)) ∧
  (∀ (s : State) (q : Req) (n : Fin 2) (t : Fin 8), Reaches s q (MAC_SEG_ABORT n) → s.segHead n t = true →
    let mine := fun (w : Wire) => w.ring && decide (w.cls = t.val)
    Gives (.segAbort q n (BitVec.ofNat 8 (2 ^ t.val))) s fun u =>
      (((s.mac n).wire.any mine || (s.mac n).held.any mine) = true →
        u.rdB (MAC_SEG_ABORT n) t = true ∧ OnlyRegs s u [MAC_SEG_ABORT n]) ∧
      (((s.mac n).wire.any mine || (s.mac n).held.any mine) = false →
        u.rdB (MAC_SEG_ABORT n) t = false ∧ u.rdB (MAC_INT n) 5 = true ∧ sget 0 (u.mac n).segs t = 0 ∧
        wordOf u.mem (s.txDesc n t + 28) = BitVec.ofNat 32 (2 ^ 31 + 2 * 2 ^ 28 + s.segsSent n t % 65536)))

/-- R256. The link's states: block lock brings an acquiring link UP, a loss takes it back and is counted, a remote
fault and its end move it between UP and RFAULT. -/
def Obligations.LinksChangeState : Prop :=
  ∀ (s : State) (n : Fin 2), (∀ w, ((s.mac n).wire = some w ∨ (s.mac n).held = some w) → w.cls < 8) →
    (s.macLink n = 1 → Gives (.linkBlockLockTimer n) s fun u =>
      u.macLink n = 2 ∧ u.rdB (MAC_INT n) 0 = true ∧ OnlyRegs s u [MAC_STAT n, MAC_INT n]) ∧
    ((s.macLink n = 2 ∨ s.macLink n = 3) → Gives (.linkLoss n) s fun u =>
      u.macLink n = 1 ∧ u.rdB (MAC_INT n) 0 = true ∧
      u.rdF (MAC_LINKDN_CNT n) 31 0 = min (s.rdF (MAC_LINKDN_CNT n) 31 0 + 1) (2 ^ 32 - 1) ∧
      (s.macLink n = 2 → (u.mac n).wire = none ∧ (u.mac n).held = none)) ∧
    (s.macLink n = 2 → Gives (.remoteFaultReceive n) s fun u =>
      u.macLink n = 3 ∧ u.rdB (MAC_INT n) 0 = true ∧ (u.mac n).wire = none ∧ (u.mac n).held = none) ∧
    (s.macLink n = 3 → Gives (.remoteFaultClear n) s fun u =>
      u.macLink n = 2 ∧ u.rdB (MAC_INT n) 0 = true ∧ OnlyRegs s u [MAC_STAT n, MAC_INT n])

/-- R267, R269, R270, R274. A gate list is scheduled at the first start of its cycle not before now, becomes operational
then, and its intervals end in time; a pause expires, or the watchdog's ceiling releases the express classes; a pop moves
the oldest stamp into the pop registers. -/
def Obligations.GatesPausesAndStamps : Prop :=
  (∀ (s : State) (q : Req) (n : Fin 2), Reaches s q (MAC_GCL_COMMIT n) → s.rdF (MAC_GCL_CYCLE n) 29 0 ≠ 0 →
    Gives (.gateListCommit q n) s fun u =>
      let base : Int := s.nearSec (s.rd (MAC_GCL_BASE_SEC n)) * 1000000000 + s.rdF (MAC_GCL_BASE_NS n) 29 0
      let now : Int := ceilDiv s.stc 1000000000000
      u.rd (MAC_GCL_COMMIT n) = 1 ∧ u.mem = s.mem ∧ (u.mac n).oper = (s.mac n).oper ∧
      ∃ (g : GateList) (k : Nat), (u.mac n).next = some (g, base + k * s.rdF (MAC_GCL_CYCLE n) 29 0) ∧
        g.cycle = s.rdF (MAC_GCL_CYCLE n) 29 0 ∧ g.ivls.length = s.rdF (MAC_GCL_LEN n) 6 0 ∧
        now ≤ base + k * g.cycle ∧ (k = 0 ∨ base + k * g.cycle < now + g.cycle)) ∧
  (∀ (s : State) (n : Fin 2) (g : GateList) (i : Int), (s.mac n).next = some (g, i) → Gives (.gateListActivate n) s fun u =>
    (u.mac n).oper = some g ∧ (u.mac n).next = none ∧ u.rd (MAC_GCL_COMMIT n) = 0 ∧
    u.rdF (MAC_GCL_STAT n) 14 8 = g.ivls.length % 128 ∧ u.rdB (MAC_INT n) 6 = true ∧ u.mem = s.mem) ∧
  (∀ (s : State) (n : Fin 2) (d : Nat), (s.gatesAt n s.stcInt).2 = some d → 0 < s.stcRate →
    s.stc + d * 1000000000000 + s.stcRate < 2 ^ 48 * stcSecond → Gives (.gateIntervalEnd n) s fun u =>
      s.now ≤ u.now ∧ (s.stc / 1000000000000 + d) * 1000000000000 ≤ u.stc ∧ (u.mac n).oper = (s.mac n).oper ∧
      u.mem = s.mem) ∧
  (∀ (s : State) (n : Fin 2) (f e : Nat), (s.mac n).pause = some (f, e) → Gives (.pauseExpire n) s fun u =>
    (u.mac n).pause = none ∧ u.rdF (MAC_STAT n) 4 3 = 0 ∧ e ≤ 25 * u.now ∧ u.mem = s.mem) ∧
  (∀ (s : State) (n : Fin 2) (f e : Nat), (s.mac n).pause = some (f, e) → s.rdB (MAC_STAT n) 4 = false →
    (s.mac n).meas + 25000 * s.rdF (MAC_PWD n) 15 0 < e → Gives (.pauseWatchdog n) s fun u =>
      u.rdB (MAC_STAT n) 4 = true ∧ u.rdB (MAC_INT n) 1 = true ∧
      u.rdF (MAC_PWD_CNT n) 31 0 = min (s.rdF (MAC_PWD_CNT n) 31 0 + 1) (2 ^ 32 - 1) ∧
      (s.mac n).meas + 25000 * s.rdF (MAC_PWD n) 15 0 ≤ 25 * u.now ∧ u.mem = s.mem) ∧
  (∀ (s : State) (q : Req) (n : Fin 2), Reaches s q (MAC_TSQ_POP n) → Gives (.timestampPop q n) s fun u =>
    ((s.mac n).tsq = [] → u.rdB (MAC_TSQ_STAT n) 31 = false ∧ OnlyRegs s u [MAC_TSQ_STAT n]) ∧
    (∀ x r, (s.mac n).tsq = x :: r → (u.mac n).tsq = r ∧
      u.rd (MAC_TSQ_STAT n) = BitVec.ofNat 32 (2 ^ 31 + 2 ^ 30 * b2n x.lost.isSome + r.length) ∧
      u.rd (MAC_TSQ_ID n) = BitVec.ofNat 32 (x.lost.getD 0 * 65536 + x.id) ∧
      u.rd (MAC_TSQ_SEC n) = secWord x.ns ∧ u.rd (MAC_TSQ_NS n) = nsWord x.ns ∧ u.mem = s.mem))

/-- R285, R290, R292, R293, R296, R297, R300, R371. Saffron: the steer and the slew stay within 500 ppm and move once each
microsecond; a window's end disables entries that are off, starts the wait of word clocks and video syncs that come on,
and finds the loss of an AES3 receiver not locked; a loss of signal disqualifies an entry at once; a pulse too short is a
glitch, any other an edge, discarded where it is more than 5 % off, else at ratio 0b00 compared with the nearest sample
edge, half a period off at most; Announces that an instance misses are a loss of the PTP entry; a stream's silent path is marked down. While the clocks
stand still, in S2 to S4, no window ends (R371). The model's readings: one steer update moves a microsecond (assumption 41), the thresholds
are compared on doubled deviations (assumption 38), and the phase of an edge is taken as its command gives it
(assumption 90). -/
def Obligations.ReferencesAndSteer : Prop :=
  (∀ s : State, Gives .stcSteerUpdate s fun u =>
    -500000000 ≤ u.steer ∧ u.steer ≤ 500000000 ∧ -500000000 ≤ u.steer + u.slew ∧ u.steer + u.slew ≤ 500000000 ∧
    u.saf.us = (s.saf.us + 1) % 1000 ∧ s.saf.usAt + 1000 ≤ u.now ∧ u.saf.rem = s.saf.rem - s.slew / 1000000 ∧
    u.mem = s.mem) ∧
  (∀ (s : State) (meas : List Int), s.asleep = true → Gives (.saffronWindowEnd meas) s fun u => OnlyRegs s u []) ∧
  (∀ (s : State) (meas : List Int), s.asleep = false → Gives (.saffronWindowEnd meas) s fun u =>
    s.saf.winAt + 1000000000 ≤ u.now ∧ u.saf.winAt = u.now ∧ u.mem = s.mem ∧
    (∀ i < 8, s.refOn i = false → u.refState i = 0) ∧
    (∀ i < 8, s.refOn i = true → s.refState i = 0 → s.refSrc i = 6 → u.refState i = 2) ∧
    (∀ i < 8, s.refOn i = true → s.refState i = 0 → (s.refSrc i = 2 ∨ s.refSrc i = 4) →
      u.refState i = 1 ∧ u.rdF (SAF_REF_STAT i) 31 16 = s.rdF (SAF_REF_TIME i) 25 16) ∧
    (∀ i < 8, s.refOn i = true → s.refSrc i = 3 → s.rdB (AES_RX_STAT (s.refIx i)) 0 = false →
      s.rdB (SAF_REF_STAT i) 3 = false → u.refState i = 4 ∧ u.rdB (SAF_REF_STAT i) 3 = true ∧ u.rdB SAF_INT 7 = true)) ∧
  (∀ (s : State) (i : Fin 8), s.refOn i = true → s.refSrc i ≠ 6 → s.rdB (SAF_REF_STAT i) 3 = false →
    Gives (.referenceLos i) s fun u =>
      u.rdB (SAF_REF_STAT i) 3 = true ∧ u.rdB SAF_INT 7 = true ∧
      u.rdF SAF_LOS_CNT 31 0 = min (s.rdF SAF_LOS_CNT 31 0 + 1) (2 ^ 32 - 1) ∧
      u.refState i = 4 ∧ u.mem = s.mem) ∧
  (∀ (s : State) (video : Bool) (width : Nat) (err : Int) (ago : Nat),
    Gives (.referenceInputEdge video width err ago) s fun u =>
      (width < (if video then 100 else 20) → OnlyRegs s u [SAF_GLITCH_CNT] ∧
        u.rdF SAF_GLITCH_CNT 31 0 = min (s.rdF SAF_GLITCH_CNT 31 0 + 1) (2 ^ 32 - 1)) ∧
      ((if video then 100 else 20) ≤ width → ∀ i < 8, s.refOn i = true → s.refSrc i = (if video then 4 else 2) →
        s.refIx i = 0 → u.rdB (SAF_REF_STAT i) 3 = false ∧
        let (hz, per) := s.refRate i
        (1000000000 * per < 20 * err.natAbs * hz → (u.safRef i).disc = (s.safRef i).disc + 1 ∧
          (u.safRef i).phase = (s.safRef i).phase) ∧
        (20 * err.natAbs * hz ≤ 1000000000 * per → (u.safRef i).disc = (s.safRef i).disc ∧
          (video = false → s.rdF (SAF_REF_CFG i) 13 12 = 0 → (u.safRef i).phase = s.edgePhase ((s.stc : Int) - ago * 1000000000000) 1 ∧
            2 * (u.safRef i).phase.natAbs * s.fs ≤ 1000000000 + s.fs)))) ∧
  (∀ (s : State) (p : Fin 2), (s.ptpInst p).isSome = true → s.anyCore = true → s.shedLevel < 5 →
    Gives (.ptpAnnounceTimeout p) s fun u => (u.ptpRep p).lost = true ∧ u.mem = s.mem ∧
    (∀ i < 8, s.refOn i = true → s.refSrc i = 1 → s.refIx i = p → u.rdB (SAF_REF_STAT i) 3 = true)) ∧
  (∀ (s : State) (i : Fin 128) (pathB : Bool), s.rxRuns i = true → (pathB = true → s.rdB (STRM_RX_CTRL i) 30 = true) →
    s.rdB (STRM_RX_STAT i) (if pathB then 2 else 1) = true → Gives (.streamPathDown i pathB) s fun u =>
      u.rdB (STRM_RX_STAT i) (if pathB then 2 else 1) = false ∧ u.rdB STRM_INT 1 = true ∧ u.mem = s.mem ∧
      (∀ r : Reg, r.addr ≠ (STRM_RX_STAT i).addr → r.addr ≠ STRM_INT.addr → u.rd r = s.rd r))

/-- R294, R295, R310, R312. The STC is set while the frame is stopped and snapped at any time; a timed start is armed,
cancelled, or starts the frame as if run had been written at T_s, or, late, in its own cycle where T_s has passed: tick 0
falls at the first sample edge two sample periods or more after (the model's reading, assumption 10). -/
def Obligations.StcAndTimedStart : Prop :=
  (∀ (s : State) (q : Req), Reaches s q STC_SET_CTRL → Gives (.stcSet q) s fun u =>
    (s.running = false → u.stc = stcOf (s.rdF STC_SET_SECH 15 0 * 2 ^ 32 + (s.rd STC_SET_SECL).toNat)
        (s.rdF STC_SET_NS 29 0) % (2 ^ 48 * stcSecond) ∧ u.rdB STC_INT 1 = true ∧
      (∀ r : Reg, r.addr ≠ STC_INT.addr → u.rd r = s.rd r)) ∧
    (s.running = true → u.stc = s.stc ∧ Rejected s u q (BitVec.ofNat 32 STC_SET_CTRL.addr) 1)) ∧
  (∀ (s : State) (q : Req), Reaches s q STC_SNAP → Gives (.stcSnap q) s fun u =>
    u.rd STC_SNAP_SECH = BitVec.ofNat 32 (stcSec s.stc / 2 ^ 32) ∧ u.rd STC_SNAP_SECL = BitVec.ofNat 32 (stcSec s.stc) ∧
    u.rd STC_SNAP_NS = BitVec.ofNat 32 (stcNs s.stc) ∧ u.rd STC_SNAP_FRAC = BitVec.ofNat 32 (stcFrac s.stc) ∧
    OnlyRegs s u [STC_SNAP_SECH, STC_SNAP_SECL, STC_SNAP_NS, STC_SNAP_FRAC]) ∧
  (∀ (s : State) (q : Req), Reaches s q STC_START_CTRL → s.running = false → Gives (.timedStartArm q false) s fun u =>
    (s.stc ≤ s.stcRegs STC_START_SECH STC_START_SECL STC_START_NS →
      u.rdB STC_STAT 1 = true ∧ u.rdB STC_START_CTRL 0 = true ∧ OnlyRegs s u [STC_STAT, STC_START_CTRL]) ∧
    (s.stcRegs STC_START_SECH STC_START_SECL STC_START_NS < s.stc → s.stc < 2 ^ 48 * stcSecond →
      s.gainFenced = false → s.rdB SYS_FRM_STAT 2 = false → s.frame.final = false →
      u.running = true ∧ u.rdB STC_STAT 1 = false ∧ u.rdB STC_STAT 2 = true ∧ u.rdB STC_INT 0 = true ∧
      u.frame.edge = ceilDiv (s.stc * s.fs) stcSecond + 2)) ∧
  (∀ (s : State) (q : Req) (cancel : Bool), Reaches s q STC_START_CTRL → (cancel = true ∨ s.running = true) →
    Gives (.timedStartArm q cancel) s fun u =>
      Rejected s u q (BitVec.ofNat 32 STC_START_CTRL.addr) (if cancel then 3 else 1)) ∧
  (∀ (s : State) (q : Req), Reaches s q STC_START_CTRL → Gives (.timedStartCancel q) s fun u =>
    u.rdB STC_STAT 1 = false ∧ u.rdB STC_START_CTRL 0 = false ∧ OnlyRegs s u [STC_STAT, STC_START_CTRL]) ∧
  (∀ s : State, s.rdB STC_STAT 1 = true → s.gainFenced = false → s.running = false → s.rdB SYS_FRM_STAT 2 = false →
    s.frame.final = false → Gives .timedStart s fun u =>
      let t := s.stcRegs STC_START_SECH STC_START_SECL STC_START_NS
      u.running = true ∧ u.rdB STC_STAT 1 = false ∧ u.rdB STC_INT 0 = true ∧
      u.rdB SYS_FRM_CTRL 8 = true ∧ u.frame.first = true ∧
      (s.stc < t + s.stcRate → u.rdB STC_STAT 2 = false ∧ u.frame.edge = ceilDiv (t * s.fs) stcSecond + 2) ∧
      (t + s.stcRate ≤ s.stc → u.rdB STC_STAT 2 = true ∧ u.frame.edge = ceilDiv (s.stc * s.fs) stcSecond + 2))

/-- R314, R315, R316, R317, R318, R319, R320, R321, R323. Frames received on a Dongo link: none while it is OFF; a CRC error
is counted and answered with a NAK that names the next frame expected; a HELLO is echoed, and the echo of its own brings a
training link UP and gives its delay, in UP too; a frame in sequence advances the expected number and acts by its kind,
every one out of sequence is answered with a NAK; an ACK drops what it acknowledges, and a NAK has the rest sent again, or
takes the link down where a frame has been resent too often; and a frame on the line reads back as it was formed. An
AUDIO frame's channels await their block, a CASC frame's term goes to its bus before the deadline, a TIME frame gives the
phase, the quality and, sent at a tick, the alignment, an EVENT frame's record is posted. The bytes of these frames are the
model's choice (assumption 53); that a MIRROR frame only takes its number, its records coming as ANISE_RECORD_RECEIVE, is its
reading (assumption 55). -/
def Obligations.DongoReceives : Prop :=
  (∀ f : DngOut, f.kind ≠ .other → f.seq < 4096 → f.chan < 256 → f.cnt < 256 → dngParse (dngWire f) =
    some ⟨f.kind, BitVec.ofNat 12 f.seq, f.block, BitVec.ofNat 8 f.chan, BitVec.ofNat 8 f.cnt, f.payload⟩) ∧
  ∀ (s : State) (n : Fin 4) (bs : List Byte),
    let nak : DngOut := { kind := .nak, seq := 0, payload := leBytes 2 (s.link n).rxSeq, at_ := s.now }
    (s.dngState n = 0 → Gives (.dongoFrameReceive n bs) s fun u => OnlyRegs s u []) ∧
    (s.dngState n = 2 → dngParse bs = none → Gives (.dongoFrameReceive n bs) s fun u =>
      u.rdF (DNG_L_CRC_CNT n) 31 0 = min (s.rdF (DNG_L_CRC_CNT n) 31 0 + 1) (2 ^ 32 - 1) ∧
      (u.link n).queue = (s.linkNow n).queue ++ [nak] ∧
      (u.link n).rxSeq = (s.link n).rxSeq ∧ u.mem = s.mem ∧ u.clove = s.clove) ∧
    ∀ f, dngParse bs = some f →
    (s.dngState n = 1 → f.kind = .hello → f.payload.headD 0 ≠ 0 → Gives (.dongoFrameReceive n bs) s fun u =>
      u.dngState n = 2 ∧ u.rdB DNG_STAT n = true ∧ u.rdB (DNG_L_INT n) 0 = true ∧ (u.link n).hello = true ∧
      u.rd (DNG_L_DELAY n) = BitVec.ofNat 32 (min ((s.now - (s.link n).helloAt) / 2) 65535) ∧ u.mem = s.mem) ∧
    (s.dngState n = 2 → f.kind = .hello → f.payload.headD 0 ≠ 0 → Gives (.dongoFrameReceive n bs) s fun u =>
      u.rd (DNG_L_DELAY n) = BitVec.ofNat 32 (min ((s.now - (s.link n).helloAt) / 2) 65535) ∧
      OnlyRegs s u [DNG_L_DELAY n]) ∧
    (s.dngState n ≠ 0 → f.kind = .hello → f.payload.headD 0 = 0 → Gives (.dongoFrameReceive n bs) s fun u =>
      (u.link n).queue = (s.linkNow n).queue ++ [{ kind := .hello, seq := 0, payload := [1], at_ := s.now }] ∧
      OnlyRetries s u n ∧ u.mem = s.mem) ∧
    (s.dngState n = 2 → (f.kind = .audio ∨ f.kind = .casc ∨ f.kind = .time ∨ f.kind = .event ∨ f.kind = .mirror) →
      f.seq.toNat = (s.link n).rxSeq → Gives (.dongoFrameReceive n bs) s fun u =>
        (u.link n).rxSeq = ((s.link n).rxSeq + 1) % 4096 ∧ (u.link n).ackDue = true ∧ u.dngState n = 2 ∧
        (f.kind = .audio → AudioTaken s u n f) ∧ (f.kind = .casc → CascTaken s u n f) ∧
        (f.kind = .time → TimeTaken s u n f) ∧ (f.kind = .event → EventTaken s u n f) ∧
        (f.kind = .mirror → u.regs = s.regs ∧ u.ani = s.ani ∧ u.clove = s.clove ∧ u.mem = s.mem)) ∧
    (s.dngState n = 2 → (f.kind = .audio ∨ f.kind = .casc ∨ f.kind = .time ∨ f.kind = .event ∨ f.kind = .mirror) →
      f.seq.toNat ≠ (s.link n).rxSeq → Gives (.dongoFrameReceive n bs) s fun u =>
        (u.link n).rxSeq = (s.link n).rxSeq ∧ (u.link n).queue = (s.linkNow n).queue ++ [nak] ∧
        OnlyRetries s u n ∧ u.mem = s.mem) ∧
    (∀ g rest, s.dngState n = 2 → (s.linkNow n).replay = g :: rest →
      let k := (ofLeBytes (f.payload.take 2) % 4096 + 4096 - g.seq) % 4096
      let kept := (g :: rest).drop k
      let most := s.rdF (DNG_L_CTRL n) 7 4
      k ≤ rest.length + 1 →
      (f.kind = .ack → Gives (.dongoFrameReceive n bs) s fun u =>
        (u.link n).replay = kept ∧ OnlyRetries s u n ∧ u.mem = s.mem) ∧
      (f.kind = .nak → (s.linkNow n).again = [] → (∀ x ∈ kept, x.resent < most) →
        Gives (.dongoFrameReceive n bs) s fun u =>
          (u.link n).again = kept.map (fun x => { x with resent := x.resent + 1, at_ := s.now }) ∧
          (u.link n).replay = (u.link n).again ∧ u.dngState n = 2 ∧ OnlyRetries s u n ∧ u.mem = s.mem) ∧
      (f.kind = .nak → (s.linkNow n).again = [] → (∃ x ∈ kept, most ≤ x.resent) →
        Gives (.dongoFrameReceive n bs) s fun u =>
          u.dngState n = 1 ∧ (u.link n).replay = [] ∧ u.rdB (DNG_L_INT n) 0 = true ∧
          u.rdF (DNG_L_DOWN_CNT n) 31 0 = min (s.rdF (DNG_L_DOWN_CNT n) 31 0 + 1) (2 ^ 32 - 1)))

/-- R314, R315, R316, R321, R323. A Dongo link in UP that receives nothing, or loses lane lock, trains again, its frames
unacknowledged gone; a training link asks again; ACK and TIME frames wait for the line; half a round trip is the delay; a
ready event of the link's flow is sent. Of the frames that wait, one of the first kind in the order ACK and NAK, CASC,
TIME, AUDIO, EVENT, MIRROR starts, takes the next sequence number and, a TIME frame, the STC of its first bit; one sent
again goes as it was. The bytes of these frames are the model's choice (assumption 53), as are the place of resends and of
a full replay buffer in that order (assumption 54) and what the measurement's row gives (assumption 110). -/
def Obligations.DongoTimersAndSends : Prop :=
  (∀ (l : Dng) (t : Nat) (f g : DngOut), l.again = [] → l.pick t = some f → f.resent = 0 → g ∈ l.queue →
    l.mayStart g = true → g.resent = 0 → 63 * g.at_ ≤ t → dngRank f.kind ≤ dngRank g.kind) ∧
  (∀ (l : Dng) (f : DngOut) (t stc : Nat), f.kind = .time → f.resent = 0 →
    let u := l.start f t stc
    ∃ g, u.sent = l.sent ++ [(t / 63, g)] ∧ u.replay = l.replay ++ [g] ∧ g.kind = .time ∧ g.seq = l.txSeq ∧
      g.payload = leBytes 6 (stcSec stc) ++ leBytes 4 (stcNs stc) ++ f.payload.drop 10 ∧
      u.txSeq = (l.txSeq + 1) % 4096 ∧ u.lineFree = t + 8 * (f.payload.length + 12)) ∧
  (∀ (l : Dng) (f : DngOut) (t stc : Nat), f.resent ≠ 0 →
    (l.start f t stc).sent = l.sent ++ [(t / 63, f)] ∧ (l.start f t stc).again = l.again.drop 1 ∧
      (l.start f t stc).replay = l.replay) ∧
  ∀ (s : State) (n : Fin 4),
    (s.dngState n = 2 → ∀ c ∈ [Instr.dongoRxTimeout n, Instr.dongoLaneLockLoss n], Gives c s fun u =>
      u.dngState n = 1 ∧ u.linkAligned n = false ∧ u.rdB (DNG_L_INT n) 0 = true ∧
      u.rdF (DNG_L_DOWN_CNT n) 31 0 = min (s.rdF (DNG_L_DOWN_CNT n) 31 0 + 1) (2 ^ 32 - 1) ∧
      (u.link n).queue = [{ kind := .hello, seq := 0, payload := [0], at_ := s.now }] ∧
      (u.link n).replay = [] ∧ (u.link n).txSeq = 0 ∧ (u.link n).rxSeq = 0 ∧ u.mem = s.mem) ∧
    (s.dngState n ≠ 2 → ∀ c ∈ [Instr.dongoRxTimeout n, Instr.dongoLaneLockLoss n], Gives c s fun u => OnlyRegs s u []) ∧
    (s.dngState n = 1 → Gives (.dongoTrainTimeout n) s fun u =>
      (u.link n).queue = (s.linkNow n).queue ++ [{ kind := .hello, seq := 0, payload := [0], at_ := s.now }] ∧
      (u.link n).helloAt = s.now ∧ OnlyRetries s u n ∧ u.mem = s.mem) ∧
    (s.dngState n = 2 → Gives (.dongoAckTimer n) s fun u =>
      (u.link n).queue = (s.linkNow n).queue ++
        [{ kind := .ack, seq := 0, payload := leBytes 2 (s.link n).rxSeq, at_ := s.now }] ∧
      (u.link n).ackDue = false ∧ OnlyRetries s u n ∧ u.mem = s.mem) ∧
    (s.dngState n = 2 → Gives (.dongoTimeSend n) s fun u =>
      ∃ p, (u.link n).queue = (s.linkNow n).queue ++ [{ kind := .time, seq := 0, payload := p, at_ := s.now }] ∧
        p.length = 16 ∧ p.getD 10 0 = BitVec.ofNat 8 (s.dngQual n) ∧ OnlyRetries s u n ∧ u.mem = s.mem) ∧
    (∀ rt : BitVec 17, s.dngState n = 1 → Gives (.dongoDelayMeasure n rt) s fun u =>
      u.rd (DNG_L_DELAY n) = BitVec.ofNat 32 (min (rt.toNat / 2) 65535) ∧ OnlyRegs s u [DNG_L_DELAY n]) ∧
    (∀ rt : BitVec 17, s.dngState n = 2 → Gives (.dongoDelayMeasure n rt) s fun u =>
      u.rd (DNG_L_DELAY n) = BitVec.ofNat 32 (min (rt.toNat / 2) 65535) ∧ (u.link n).helloAt = s.now ∧
      (u.link n).queue = (s.linkNow n).queue ++ [{ kind := .hello, seq := 0, payload := [0], at_ := s.now }] ∧
      (∀ r : Reg, r.addr ∉ [(DNG_L_DELAY n).addr, (DNG_L_RETRY_CNT n).addr] → u.rd r = s.rd r) ∧ u.mem = s.mem) ∧
    (∀ v : Ev, s.forwarded (2360 + n) = true → s.clove.queue = [v] → v.flow = 2360 + n.val → v.cls = 0 →
      v.srcFlow = none → Gives (.dongoEventForward n) s fun u =>
        u.clove.queue = [] ∧ (u.link n).queue = (s.linkNow n).queue ++
          [{ kind := .event, seq := 0, cnt := 1, payload := wordBytes (evWords v 0), at_ := s.now }] ∧ u.mem = s.mem)

/-- R328, R330, R331, R334, R335, R338, R339. Anise's two paths: a heartbeat edge of 20 ns or more and a record whose CRC
matches are valid input of their path, and a record shows the peer's state; delta bytes gather at a standby; a path silent
for hb_to ticks is lost; a host write to a mirrored location is held on the active and discarded on the standby. -/
def Obligations.AnisePaths : Prop :=
  (∀ (s : State) (w : Nat), Gives (.heartbeatReceive w) s fun u =>
    (w < 20 → OnlyRegs s u []) ∧
    (20 ≤ w → u.ani = { s.ani with hTicks := 0, hLost := false } ∧ u.rdB ANI_STAT 8 = s.rdB ANI_CTRL 0 ∧
      (∀ r : Reg, r.addr ≠ ANI_STAT.addr → u.rd r = s.rd r))) ∧
  (∀ (s : State) (ws : List Word), s.rdB ANI_CTRL 0 = true → s.pathShut = false → ws.length = 8 →
    Gives (.aniseRecordReceive (.fixed ws)) s fun u =>
    u.ani.rx = [] ∧ u.ani.rxBytes = [] ∧
    (crc32 (s.ani.rxBytes ++ wordBytes (ws.take 7)) = ws.getD 7 0 →
      u.ani.mTicks = 0 ∧ u.ani.mLost = false ∧ u.rdF ANI_STAT 6 4 = bits (ws.getD 0 0) 18 16 ∧ u.rdB ANI_STAT 9 = true) ∧
    (crc32 (s.ani.rxBytes ++ wordBytes (ws.take 7)) ≠ ws.getD 7 0 → u.regs = s.regs ∧ u.ani.mTicks = s.ani.mTicks)) ∧
  (∀ (s : State) (kind : BitVec 4) (body : List Byte), s.rdB ANI_CTRL 0 = true → s.pathShut = false → s.aniRole = 2 →
    Gives (.aniseRecordReceive (.delta kind body)) s fun u =>
      u.ani.rxBytes = s.ani.rxBytes ++ leBytes 4 (kind.toNat * 2 ^ 28 + body.length) ++ body ∧ u.regs = s.regs ∧
      u.mem = s.mem) ∧
  (∀ s : State, s.rdB ANI_CTRL 0 = true → s.ani.hLost = false → s.rdF ANI_CTRL 23 16 ≤ s.ani.hTicks →
    Gives (.anisePathLoss .h) s fun u =>
      u.ani.hLost = true ∧ u.rdB ANI_INT 3 = true ∧ u.rdB ANI_STAT 8 = false ∧
      u.rdF ANI_HLOSS_CNT 31 0 = min (s.rdF ANI_HLOSS_CNT 31 0 + 1) (2 ^ 32 - 1) ∧ u.mem = s.mem) ∧
  (∀ s : State, s.rdB ANI_CTRL 0 = true → s.ani.mLost = false → s.rdF ANI_CTRL 23 16 ≤ s.ani.mTicks →
    Gives (.anisePathLoss .m) s fun u =>
      u.ani.mLost = true ∧ u.rdB ANI_INT 3 = true ∧ u.rdB ANI_STAT 9 = false ∧
      u.rdF ANI_MLOSS_CNT 31 0 = min (s.rdF ANI_MLOSS_CNT 31 0 + 1) (2 ^ 32 - 1) ∧ u.mem = s.mem) ∧
  (∀ (s : State) (q : Req) (d : Word), q.master = 6 → writerOk q SYS_FRM_SPLIT = true → s.held = false →
    Gives (.splitWrite q d) s fun u =>
      (s.aniStandby = true → (∀ r : Reg, r.addr ≠ ANI_SBWR_CNT.addr → r.addr ≠ ANI_INT.addr → u.rd r = s.rd r) ∧
        u.rsp = ⟨[0], false⟩ ∧ u.rdB ANI_INT 8 = true ∧
        u.rdF ANI_SBWR_CNT 31 0 = min (s.rdF ANI_SBWR_CNT 31 0 + 1) (2 ^ 32 - 1)) ∧
      (s.aniActive = true → (∀ r : Reg, r.addr ∉ (ANI_WSEQ :: ((upTo 4).map DNG_L_RETRY_CNT ++ (upTo 2).map MAC_TXLINKDN_CNT)).map Reg.addr →
          u.rd r = s.rd r) ∧ u.rsp = ⟨[0], false⟩ ∧
        u.rd ANI_WSEQ = s.rd ANI_WSEQ + 1 ∧ u.ani.cap.length = s.ani.cap.length + 1))

/-- R341, R342, R344, R345. Anise's commands: a take waits for the tick on a standby, a release goes with this block's
commit record on an active in lockstep unless one is under way, a copy starts on an active whose peer has lost step, an
abort waits for the tick, is late in the cycle in which the copy has become COMPLETE, and has no effect otherwise;
a slice snapshot loads into the slice's window on the standby, and with the last slice loaded the copy ends, COMPLETE or,
with an abort waiting, ABORT_LATE. -/
def Obligations.AniseCommands : Prop :=
  (∀ (s : State) (q : Req), Reaches s q ANI_CMD → s.rdB ANI_CTRL 0 = true →
    (s.aniRole = 2 → Gives (.aniseTake q) s fun u => u.ani = { s.ani with take := true } ∧ u.regs = s.regs) ∧
    (s.aniState = 1 → s.peerState = 3 → Gives (.aniseRelease q) s fun u =>
      u.ani = (if s.ani.release = none then { s.ani with release := some s.blockNo, ack := false } else s.ani) ∧
      u.regs = s.regs) ∧
    (s.aniState = 1 → s.peerState = 6 → s.copying = false → Gives (.mirrorCopy q) s fun u =>
      u.copying = true ∧ u.rdF ANI_COPY_STAT 1 0 = 1 ∧ u.rdF ANI_COPY_STAT 5 4 = 0 ∧ u.ani.left = s.validSlices ∧
      u.rd ANI_COPY_LEFT = BitVec.ofNat 32 s.validSlices.length ∧ u.mem = s.mem) ∧
    (s.copying = true → Gives (.mirrorCopyAbort q) s fun u =>
      u.ani = { s.ani with abort := true } ∧ u.regs = s.regs) ∧
    (s.copying = false → Gives (.mirrorCopyAbort q) s fun u =>
      (s.rdF ANI_COPY_STAT 5 4 = 1 → s.ani.doneAt = some s.now → u.rdF ANI_COPY_STAT 5 4 = 3 ∧ OnlyRegs s u [ANI_COPY_STAT]) ∧
      (¬ (s.rdF ANI_COPY_STAT 5 4 = 1 ∧ s.ani.doneAt = some s.now) → OnlyRegs s u []))) ∧
  (∀ (s : State) (id : Nat) (d : List Byte) (rest : List (Nat × List Byte)), s.aniStandby = true →
    s.ani.loads = (id, d) :: rest → ((s.eng (id / 64)).sb (id % 64)).started = false → (s.liveOf id).valid = true →
    (∀ x, s.fenced x = false) → Gives .mirrorSliceLoad s fun u =>
      let a := dmemAddr (id / 64) ((s.liveOf id).sb * 4)
      let n := min d.length ((s.liveOf id).winSize * 16)
      u.ani.loads = rest ∧ (∀ i < n, sget 0 u.mem (a + i) = d.getD i 0) ∧
      (∀ x, (x < a ∨ a + n ≤ x) → sget 0 u.mem x = sget 0 s.mem x) ∧ id ∈ u.ani.loaded ∧ u.regs = s.regs) ∧
  (∀ (s : State) (id k : Nat), s.aniStandby = false → s.ani.flying = some (id, k) → s.copying = true →
    Gives .mirrorSliceLoad s fun u =>
      ((∀ x ∈ s.ani.left, x = id) → u.copying = false ∧ u.rdB ANI_COPY_STAT 31 = true ∧
        u.rdF ANI_COPY_STAT 5 4 = (if s.ani.abort then 3 else 1) ∧ u.rdF ANI_COPY_STAT 1 0 = 0 ∧
        u.rd ANI_COPY_LEFT = 0 ∧ u.rdB ANI_INT 7 = true ∧ u.mem = s.mem) ∧
      ((∃ x ∈ s.ani.left, x ≠ id) → u.ani.left = s.ani.left.filter (· != id) ∧ u.ani.flying = none ∧
        u.rd ANI_COPY_LEFT = BitVec.ofNat 32 u.ani.left.length ∧ OnlyRegs { s with ani := u.ani } u [ANI_COPY_LEFT]))

/-- R354, R355, R356, R365. The mailbox: a go is taken, sets ovr while a command is outstanding, and is answered BAD_STATE
at once while no core runs; an answer is what the command's own row leaves, where it has that code; an opcode that is not
in the table is UNSUPPORTED; a time-out answers TIMEOUT, and an answer at that time or later is only counted; after a core's
reset only the time-out is left. Answers in the order of the commands, and answers with another code, which change
nothing, are the model's choice (assumption 56). -/
def Obligations.Mailboxes : Prop :=
  (∀ (s : State) (q : Req) (m : Fin 2), Reaches s q (HSE_MB_DOOR m) → mbUser q m = true →
    Gives (.mailboxGo q m) s fun u =>
      (s.mbBusy m = true → u.rd (HSE_MB_STAT m) = s.rd (HSE_MB_STAT m) ||| 0x20000000#32 ∧ OnlyRegs s u [HSE_MB_STAT m]) ∧
      (s.mbBusy m = false → s.anyCore = true → u.rdB (HSE_MB_STAT m) 30 = true ∧
        sget 0 u.house.due m = s.now + 1000000 * s.rdF (HSE_MB_TO m) 9 0 ∧ u.mem = s.mem ∧
        ∀ r : Reg, r.addr ≠ (HSE_MB_STAT m).addr → u.rd r = s.rd r) ∧
      (s.mbBusy m = false → s.anyCore = false → Answered s u m 3 [])) ∧
  (∀ (s : State) (q : Req) (m : Fin 2), mbUser q m = false → Gives (.mailboxGo q m) s fun u => u.mem = s.mem ∧
    u.rd (HSE_MB_STAT m) = s.rd (HSE_MB_STAT m) ∧ u.house = s.house) ∧
  (∀ (s : State) (m : Fin 2) (status : BitVec 8) (rsp : List Word), ∀ c ∈ fwCommands m, Outstanding s m c.2 →
    sget [] s.house.late m = [] → ∃ t, exec c.1 s = .next t ∧ t.mbBusy m = false ∧
      (t.rdF (HSE_MB_STAT m) 7 0 = status.toNat → exec (.mailboxAnswer m status rsp) s = .next t) ∧
      (t.rdF (HSE_MB_STAT m) 7 0 ≠ status.toNat → Gives (.mailboxAnswer m status rsp) s fun u => OnlyRegs s u [])) ∧
  (∀ (s : State) (m : Fin 2) (rsp : List Word) (op : Nat), op ∉ (fwCommands m).map Prod.snd → Outstanding s m op →
    sget [] s.house.late m = [] →
    (s.shedLevel < 3 → Gives (.mailboxAnswer m 7 rsp) s fun u => Answered s u m 7 [] ∧ OnlyMailbox s u m) ∧
    (3 ≤ s.shedLevel → Gives (.mailboxAnswer m 6 rsp) s fun u => Answered s u m 6 [] ∧ OnlyMailbox s u m)) ∧
  (∀ (s : State) (m : Fin 2) (status : BitVec 8) (rsp : List Word) (op : Nat) (rest : List Nat),
    sget [] s.house.late m = op :: rest → s.anyCore = true → (s.mbBusy m = false ∨ s.now < sget 0 s.house.due m) →
    ∀ c ∈ (Instr.mailboxAnswer m status rsp, op) :: fwCommands m, c.2 = op → Gives c.1 s fun u =>
      LateCounted s u ∧ sget [] u.house.late m = rest ∧ ∀ r : Reg, r.addr ≠ HSE_LATE_CNT.addr → u.rd r = s.rd r) ∧
  (∀ (s : State) (m : Fin 2) (status : BitVec 8) (rsp : List Word), s.mbBusy m = true → s.anyCore = true →
    sget 0 s.house.due m ≤ s.now → m.val ∉ s.house.lost → sget [] s.house.late m = [] →
    ∀ c ∈ (Instr.mailboxAnswer m status rsp, s.mbOp m) :: fwCommands m, c.2 = s.mbOp m → Gives c.1 s fun u =>
      Answered s u m 5 [] ∧ LateCounted s u ∧ sget [] u.house.late m = [] ∧
      ∀ r : Reg, r.addr ∉ HSE_LATE_CNT.addr :: (mbRegs m).map Reg.addr → u.rd r = s.rd r) ∧
  (∀ (s : State) (m : Fin 2) (status : BitVec 8) (rsp : List Word), s.mbBusy m = true → m.val ∈ s.house.lost →
    s.now < sget 0 s.house.due m → sget [] s.house.late m = [] →
    ∀ c ∈ (Instr.mailboxAnswer m status rsp, 0) :: fwCommands m, Gives c.1 s fun u => OnlyRegs s u []) ∧
  (∀ (s : State) (m : Fin 2), s.mbBusy m = true → Gives (.mailboxTimeout m) s fun u =>
    Answered s u m 5 [] ∧ sget 0 s.house.due m ≤ u.now ∧ u.mem = s.mem ∧
    sget [] u.house.late m = sget [] s.house.late m ++ (if m.val ∈ s.house.lost then [] else [s.mbOp m]) ∧
    ∀ r : Reg, r.addr ∉ (mbRegs m).map Reg.addr → u.rd r = s.rd r)

/-- R351, R356, R357, R358, R361. The firmware's commands: SHED at shed level 3 and above; an Owner command of the
Guest is DENIED; and what each command answers and does. When the firmware answers, and what ends a start of PTP,
are the model's choices, and the words of PTP_STATUS not yet reported are free values (assumptions 56 and 58); statistics pages are free values (assumption 8). -/
def Obligations.HouseCommands : Prop :=
  (∀ (s : State) (m : Fin 2), ∀ c ∈ fwCommands m, Outstanding s m c.2 → 3 ≤ s.shedLevel → Gives c.1 s fun u => Answered s u m 6 [] ∧ OnlyMailbox s u m) ∧
  (∀ s : State, ∀ c ∈ [(Instr.ptpSet 1, 0x10), (.ptpStop 1, 0x11), (.discSet 1, 0x20), (.fwUpdate 1, 0x40),
      (.coreRestart 1, 0x41)],
    Outstanding s 1 c.2 → s.shedLevel < 3 → Gives c.1 s fun u => Answered s u 1 4 [] ∧ OnlyMailbox s u 1) ∧
  (∀ (s : State) (m : Fin 2), Outstanding s m 0x01 → s.shedLevel < 3 → Gives (.getVersion m) s fun u =>
    Answered s u m 0 [s.rd HSE_FW_VER, s.rd HSE_CORE_STAT, BitVec.ofNat 32 s.shedLevel] ∧ OnlyMailbox s u m) ∧
  (∀ (s : State) (m : Fin 2), Outstanding s m 0x02 → s.shedLevel < 3 → Gives (.getStats m) s fun u =>
    let p := (s.mbArg m 0).toNat
    OnlyMailbox s u m ∧ (3 < p → Answered s u m 2 []) ∧
    (p ≤ 3 → ∃ ws : List Word, ws.length = 16 ∧ Answered s u m 0 ws ∧ bit (ws.getD 15 0) 31 = (s.shedLevel != 0) ∧
      (s.shedLevel ≠ 0 → ∀ k < 15, ws.getD k 0 = (sget [] s.house.pages p).getD k 0))) ∧
  (∀ s : State, Outstanding s 0 0x10 → s.shedLevel < 3 → Gives (.ptpSet 0) s fun u =>
    let p := s.mbPort 0
    let open_ := s.rdB (MAC_CTRL p) 0
    let busy := (s.ptpInst p).any PtpInst.starting
    OnlyMailboxPtp s u 0 p ∧ (open_ = false → Answered s u 0 3 [] ∧ u.ptpInst p = s.ptpInst p ∧ OnlyMailbox s u 0) ∧
    (open_ = true → busy = true → Answered s u 0 1 [] ∧ u.ptpInst p = s.ptpInst p ∧ OnlyMailbox s u 0) ∧
    (open_ = true → busy = false → Answered s u 0 0 [] ∧ u.rdB (MAC_FLT_A p 62) 31 = true ∧
      u.rdF (MAC_FLT_A p 62) 23 20 = 15 ∧
      u.ptpInst p = some { args := [s.mbArg 0 0, s.mbArg 0 1, s.mbArg 0 2, s.mbArg 0 3] })) ∧
  (∀ s : State, Outstanding s 0 0x11 → s.shedLevel < 3 → Gives (.ptpStop 0) s fun u =>
    u.ptpInst (s.mbPort 0) = none ∧ OnlyMailboxPtp s u 0 (s.mbPort 0) ∧
    ((s.ptpInst (s.mbPort 0)).isSome = true → u.rd (MAC_FLT_A (s.mbPort 0) 62) = 0 ∧ u.rd (MAC_FLT_A (s.mbPort 0) 63) = 0 ∧
      (u.mac (s.mbPort 0)).fwQ = []) ∧
    Answered s u 0 (if (s.ptpInst (s.mbPort 0)).isSome then 0 else 3) []) ∧
  (∀ (s : State) (m : Fin 2), Outstanding s m 0x12 → s.shedLevel < 3 → Gives (.ptpStatus m) s fun u =>
    OnlyMailbox s u m ∧
    (s.ptpInst (s.mbPort m) = none → ∃ ws : List Word, ws.length = 5 ∧ Answered s u m 0 (0 :: ws)) ∧
    (∀ i, s.ptpInst (s.mbPort m) = some i → ∃ gm0 gm1 quality offset delay : Word,
      Answered s u m 0 [BitVec.ofNat 32 i.state, gm1, gm0, quality, offset, delay] ∧
      (i.state = 3 → i.clock ≠ [] → gm0 = BitVec.ofNat 32 (beAt i.clock 0 4) ∧ gm1 = BitVec.ofNat 32 (beAt i.clock 4 4)) ∧
      (i.state ≠ 3 → i.gm ≠ [] → gm0 = BitVec.ofNat 32 (beAt i.gm 0 4) ∧ gm1 = BitVec.ofNat 32 (beAt i.gm 4 4)) ∧
      (i.known = true → quality = BitVec.ofNat 32 (i.cls * 256 + i.acc) ∧ offset = clamp32 i.offset) ∧
      (∀ v, i.delay = some v → delay = clamp32 v))) ∧
  (∀ s : State, Outstanding s 0 0x20 → s.shedLevel < 3 → Gives (.discSet 0) s fun u =>
    OnlyMailbox s u 0 ∧ (bits (s.mbArg 0 0) 15 8 = 0 → Answered s u 0 2 [] ∧ u.house.disc = s.house.disc) ∧
    (bits (s.mbArg 0 0) 15 8 ≠ 0 → Answered s u 0 0 [] ∧
      sget (0, 0) u.house.disc (s.mbPort 0) = (s.mbArg 0 0, s.mbArg 0 1))) ∧
  (∀ (s : State) (m : Fin 2), Outstanding s m 0x30 → s.shedLevel < 3 → Gives (.aniStats m) s fun u =>
    OnlyMailbox s u m ∧ Answered s u m 0 [BitVec.ofNat 32 s.house.takes, s.house.takeAt,
      BitVec.ofNat 32 s.house.drops, s.house.chgAt]) ∧
  (∀ s : State, Outstanding s 0 0x40 → s.shedLevel < 3 → s.house.update = false → Gives (.fwUpdate 0) s fun u =>
    let off := (s.mbArg 0 0).toNat
    let n := min (s.mbArg 0 1).toNat 0x80000
    let img := bytesAt s.mem (0x10000000 + off) n
    let half := halfBase (1 - s.half)
    (2 ^ 25 < off + (s.mbArg 0 1).toNat → Answered s u 0 2 [] ∧ OnlyMailbox s u 0) ∧
    (off + (s.mbArg 0 1).toNat ≤ 2 ^ 25 → (∀ i < 64, s.fenced (608 + i) = false) →
      (∀ i < n, sget 0 u.mem (half + i) = sget 0 s.mem (0x10000000 + off + i)) ∧
      (s.imageCode img = 0 → Answered s u 0 0 [] ∧ u.half = 1 - s.half ∧ u.rd HSE_FW_VER = wordOf u.mem (half + 4) ∧
        u.coreState 0 = 1 ∧ u.coreState 1 = 1) ∧
      (s.imageCode img ≠ 0 → Answered s u 0 2 [BitVec.ofNat 32 (s.imageCode img)] ∧ u.half = s.half ∧
        u.rd HSE_FW_ERR = BitVec.ofNat 32 (s.imageCode img) ∧ u.rdB HSE_INT 2 = true))) ∧
  (∀ s : State, Outstanding s 0 0x41 → s.shedLevel < 3 → Gives (.coreRestart 0) s fun u =>
    let a := (s.mbArg 0 0).toNat
    (a = 0 ∨ 3 < a → Answered s u 0 2 [] ∧ OnlyMailbox s u 0) ∧
    (1 ≤ a → a ≤ 3 → Answered s u 0 0 [] ∧
      ∀ c < 2, u.coreState c = (if a.testBit c then 1 else s.coreState c)))

/-- R289, R294, R308, R358, R359, R360. The house complex's own duties: the shed level rises above 90 % load of either
core and falls below 70 % of both; the watchdog restarts a core, which runs once the image in force passes; PTP
messages go out in class 7 and announcements in class 0, each until it is shed; a report sets the offset of the port's
instance, and steps the STC where auto_step is set, the frame is stopped, the offset is more than 1 ms and the grandmaster
is the same: the offset that was stepped is gone (assumption 120). The bytes of the frames are free values and the class of an announcement is the model's choice (assumption 57), as are
the end of a start and the state of an instance (assumption 58). -/
def Obligations.HouseDuties : Prop :=
  (∀ (s : State) (l0 l1 : BitVec 8), Gives (.shedLevelRise l0 l1) s fun u =>
    u.rdF HSE_HOUSE_STAT 15 8 = l0.toNat ∧ u.rdF HSE_HOUSE_STAT 23 16 = l1.toNat ∧ u.mem = s.mem ∧
    (s.shedLevel < 5 → (90 < l0.toNat ∨ 90 < l1.toNat) → u.shedLevel = s.shedLevel + 1 ∧ u.rdB HSE_INT 0 = true ∧
      u.rdF HSE_SHED_CNT 31 0 = min (s.rdF HSE_SHED_CNT 31 0 + 1) (2 ^ 32 - 1) ∧
      (s.shedLevel = 2 → ∀ m < 2, s.mbBusy m = true → Answered s u m 6 [])) ∧
    (l0.toNat ≤ 90 → l1.toNat ≤ 90 → u.shedLevel = s.shedLevel ∧ OnlyRegs s u [HSE_HOUSE_STAT])) ∧
  (∀ (s : State) (l0 l1 : BitVec 8), Gives (.shedLevelFall l0 l1) s fun u => OnlyRegs s u [HSE_HOUSE_STAT] ∧
    (l0.toNat < 70 → l1.toNat < 70 → u.shedLevel = s.shedLevel - 1) ∧
    (70 ≤ l0.toNat ∨ 70 ≤ l1.toNat → u.shedLevel = s.shedLevel)) ∧
  (∀ (s : State) (c : Fin 2), s.coreRuns c = true → Gives (.houseWatchdogReset c) s fun u =>
    u.coreState c = 1 ∧ u.coreState (1 - c.val) = s.coreState (1 - c.val) ∧ u.rdB HSE_INT 1 = true ∧
    (∀ m < 2, s.mbBusy m = true → u.mbBusy m = true ∧ m ∈ u.house.lost) ∧
    u.rdF HSE_WDT_CNT 31 0 = min (s.rdF HSE_WDT_CNT 31 0 + 1) (2 ^ 32 - 1) ∧ u.mem = s.mem) ∧
  (∀ (s : State) (c : Fin 2), s.coreState c = 1 → s.boot.ready = true → Gives (.houseCoreRunning c) s fun u =>
    let code := s.imageCode (s.imageAt (halfBase s.half))
    u.mem = s.mem ∧ (code = 0 → u.coreState c = 2) ∧
    (code ≠ 0 → u.coreState c = 0 ∧ u.rd HSE_FW_ERR = BitVec.ofNat 32 code)) ∧
  (∀ (s : State) (p : Fin 2) (k : PtpMsg) (i : PtpInst), s.ptpInst p = some i → s.anyCore = true → s.shedLevel < 5 →
    i.sends (!(s.mac p).fwRx.isEmpty) k = true → s.macUp p = true → Gives (.ptpMessageSend p k) s fun u =>
      let rx := (s.mac p).fwRx
      let seq := if ptpAnswer k then beAt (rx.headD (0, [])).2 30 2 else sget 0 i.seq (ptpType k)
      (u.mac p).fwQ = (s.mac p).fwQ ++ [s.ptpBuild i p seq (rx.headD (0, [])) k] ∧
      (u.mac p).fwRx = (if ptpAnswer k then rx.tail else rx) ∧
      u.ptpInst p = some { i with starting := false, state := if ptpLeads k then 3 else i.state,
                                  seq := sset 0 i.seq (ptpType k) ((seq + 1) % 65536) } ∧
      u.mem = s.mem) ∧
  (∀ (s : State) (p : Fin 2) (k : PtpMsg), 5 ≤ s.shedLevel ∨ s.ptpInst p = none →
    Gives (.ptpMessageSend p k) s fun u => OnlyRegs s u []) ∧
  (∀ (s : State) (p : Fin 2), bit (sget (0, 0) s.house.disc p).1 1 = true → s.shedLevel < 2 → s.anyCore = true →
    s.macUp p = true → Gives (.discoveryAnnounce p) s fun u =>
      (∃ l, (u.mac p).strmQ = l ++ [(0, Config.firmwareFrame s.free
        [(sget (0, 0) s.house.disc p).1, (sget (0, 0) s.house.disc p).2])]) ∧ u.mem = s.mem) ∧
  (∀ (s : State) (p : Fin 2), 2 ≤ s.shedLevel → Gives (.discoveryAnnounce p) s fun u => OnlyRegs s u []) ∧
  (∀ (s : State) (p : Fin 2) (offset : Int) (cls acc : BitVec 8) (i : PtpInst), s.ptpInst p = some i →
    s.anyCore = true → s.shedLevel < 5 → Gives (.ptpOffsetReport p offset cls acc) s fun u =>
      (s.rdB STC_CTRL 0 = false ∨ s.running = true → (u.ptpRep p).offset = offset ∧ u.stc = s.stc) ∧
      ((s.ptpRep p).stcAt.isSome = true → (s.ptpRep p).cls ≠ cls.toNat ∨ (s.ptpRep p).acc ≠ acc.toNat →
        (u.ptpRep p).offset = offset ∧ u.stc = s.stc) ∧
      (∀ x : Nat, s.safSel = some x → s.refSrc x = 1 → s.refIx x = p.val → s.rdB STC_CTRL 0 = true → s.running = false →
        1000000 < offset.natAbs → (s.ptpRep p).stcAt = none ∨ ((s.ptpRep p).cls = cls.toNat ∧ (s.ptpRep p).acc = acc.toNat) →
        0 ≤ (s.stc : Int) - offset * 1000000000000 → (s.stc : Int) - offset * 1000000000000 < 2 ^ 48 * stcSecond →
        (u.stc : Int) = (s.stc : Int) - offset * 1000000000000 ∧ (u.ptpRep p).offset = 0) ∧
      (u.ptpRep p).cls = cls.toNat ∧ (u.ptpRep p).acc = acc.toNat ∧
      (u.ptpRep p).lost = false ∧ u.mem = s.mem ∧
      u.ptpInst p = some { i with starting := false, state := 2, known := true, offset := offset, cls := cls.toNat,
                                  acc := acc.toNat }) ∧
  (∀ (s : State) (p : Fin 2) (offset : Int) (cls acc : BitVec 8), 5 ≤ s.shedLevel ∨ s.ptpInst p = none →
    Gives (.ptpOffsetReport p offset cls acc) s fun u => OnlyRegs s u [])

/-- R348, R349, R350, R352, R353, R366, R372. The host interface: a memory request becomes transactions that wait in order
of arrival, one per dword in register space, bytes not enabled not strobed; a read that ended in an error completes with zeros, or as
one Completer Abort reported through AER; the MSI-X table and the configuration space, whose reads complete after the reads
before them; any TLP wakes S2 and S3 and is carried out after the exit; a re-armed vector whose condition holds is sent
again, or left pending while masked; a Function Level Reset clears one function's state; the link's state. That a
reset masks the vectors is presumed from PCI Express (assumption 61), as is the configuration space's layout (113). -/
def Obligations.HostInterface : Prop :=
  (∀ (s : State) (fn : Fin 2) (a : BitVec 32) (en : List Bool), en ≠ [] → a.toNat + en.length ≤ 2 ^ 31 → s.asleep = false →
    Gives (.pcieTlpReceive (.read fn a en)) s fun u =>
      TlpQueued s u fn false a.toNat (en.map (fun b => (0, b))) ∧
      (0x50000000 ≤ a.toNat → a.toNat < 0x60000000 → ∀ p ∈ tlpParts a.toNat en.length, p.1 / 4 = (p.1 + p.2 - 1) / 4)) ∧
  (∀ (s : State) (fn : Fin 2) (a : BitVec 32) (d : List (Byte × Bool)), d ≠ [] → a.toNat + d.length ≤ 2 ^ 31 →
    s.asleep = false → Gives (.pcieTlpReceive (.write fn a d)) s fun u => TlpQueued s u fn true a.toNat d) ∧
  (∀ (s : State) (t : Fin 16) (x : BusTxn) (id : Nat) (r : HostReq), s.doneAt t = some x → x.killed = false →
    x.origin = .tlp id → x.txn.write = false → x.err ≠ 0 → s.portWait = [] → s.reqs = [r] → r.id = id → r.read = true →
    r.left = 1 → Gives (.bmxTransactionComplete t) s fun u => u.reqs = [] ∧
      (s.rdB HIF_CTRL 0 = true → u.hif.cpls = s.hif.cpls ++ [([], true)] ∧ u.hif.errs = s.hif.errs ++ [r.fn] ∧
        r.fn ∈ u.hif.aer) ∧
      (s.rdB HIF_CTRL 0 = false → u.hif.errs = s.hif.errs ∧
        ∃ bytes, bytes.length = r.len ∧ u.hif.cpls = s.hif.cpls ++ [(bytes, false)])) ∧
  (∀ (s : State) (fn : Fin 2) (off : BitVec 14) (d : Word), off.toNat < 0x400 → s.asleep = false →
    Gives (.pcieTlpReceive (.msixWrite fn off d)) s fun u =>
      let v := off.toNat / 16
      let m := s.hif.msix fn
      u.regs = s.regs ∧ u.mem = s.mem ∧
      (off.toNat / 4 % 4 ≠ 3 → sget 0 (u.hif.msix fn).table (off.toNat / 4) = d) ∧
      (off.toNat / 4 % 4 = 3 → (v ∈ (u.hif.msix fn).unmasked ↔ bit d 0 = false)) ∧
      (off.toNat / 4 % 4 = 3 → bit d 0 = false → v ∈ m.pending → m.on = true → m.mask = false → s.fnCond fn v = true →
        (fn.val, v) ∈ u.hif.msgs)) ∧
  (∀ (s : State) (fn : Fin 2), s.asleep = false → ∀ c ∈ hostWords s fn,
    Gives (.pcieTlpReceive c.1) s fun u =>
      (s.reqs = [] → u.hif.cpls = s.hif.cpls ++ [(leBytes 4 c.2.toNat, false)]) ∧
      (∀ r l, s.reqs = r :: l → r.read = true → r.left ≠ 0 →
        u.hif.cpls = s.hif.cpls ∧ ∃ x ∈ u.reqs, x.id = s.nextReq ∧ x.left = 0 ∧ x.read = true) ∧ u.regs = s.regs) ∧
  (∀ (s : State) (fn : Fin 2) (d : Word), s.asleep = false →
    (Gives (.pcieTlpReceive (.cfgWrite fn .msixControl d)) s fun u =>
      (u.hif.msix fn).on = bit d 15 ∧ (u.hif.msix fn).mask = bit d 14 ∧ u.regs = s.regs ∧
      (bit d 15 = true → bit d 14 = false → ∀ v ∈ (s.hif.msix fn).pending, v ∈ (s.hif.msix fn).unmasked →
        s.fnCond fn v = true → (fn.val, v) ∈ u.hif.msgs)) ∧
    (Gives (.pcieTlpReceive (.cfgWrite fn .deviceControl d)) s fun u => u.regs = s.regs ∧
      sget (0, 2) u.hif.sizes fn =
        (if bits d 7 5 ≤ 2 ∧ bits d 14 12 ≤ 5 then (bits d 7 5, bits d 14 12) else sget (0, 2) s.hif.sizes fn)) ∧
    (Gives (.pcieTlpReceive (.cfgWrite fn .aerStatus d)) s fun u => u.regs = s.regs ∧
      (fn.val ∈ u.hif.aer ↔ fn.val ∈ s.hif.aer ∧ bit d 15 = false)) ∧
    (∀ i ∈ [CfgItem.ids, .classCode, .subsystem], Gives (.pcieTlpReceive (.cfgWrite fn i d)) s fun u =>
      OnlyRegs { s with pwr := u.pwr } u [])) ∧
  (∀ (s : State) (t : Tlp), s.stay = some 2 ∨ s.stay = some 3 → Gives (.pcieTlpReceive t) s fun u =>
    (s.rdB PWR_WAKE_EN 17 = true → s.pwr.woke = none → u.pwr.woke = some 17) ∧
    (s.asleep = true → u.hif.later = s.hif.later ++ [t] ∧ u.hif.cpls = s.hif.cpls ∧
      OnlyRegs { s with pwr := u.pwr } u [])) ∧
  (∀ (s : State) (w : Nat), s.pwrState = 2 ∨ s.pwrState = 3 → s.pwr.woke = some w → Gives .powerStateExit s fun u =>
    u.hif.later = [] ∧
    (∀ fn off, s.hif.later = [.msixRead fn off] → s.reqs = [] →
      u.hif.cpls = s.hif.cpls ++ [(leBytes 4 (s.msixRead fn off.toNat).toNat, false)]) ∧
    (∀ fn a en, s.hif.later = [.read fn a en] → en ≠ [] → a.toNat + en.length ≤ 2 ^ 31 →
      TlpQueued s u fn false a.toNat (en.map (fun b => (0, b)))) ∧
    (∀ fn a d, s.hif.later = [.write fn a d] → d ≠ [] → a.toNat + d.length ≤ 2 ^ 31 →
      TlpQueued s u fn true a.toNat d)) ∧
  (∀ (s : State) (q : Req) (v : Fin 8), Reaches s q HIF_IREARM → q.master = 6 → VectorsSettled s →
    Gives (.interruptRearm q (BitVec.ofNat 8 (2 ^ v.val))) s fun u =>
      let fn := b2n q.guest
      let x := if v = 1 ∧ q.guest = true then 65 else v.val
      let m := s.hif.msix fn
      (s.vecFn x = fn → s.vecCond x = true → m.on = true → m.mask = false → v.val ∈ m.unmasked →
        u.hif.msgs = s.hif.msgs ++ [(fn, v.val)]) ∧
      (s.vecFn x = fn → s.vecCond x = true → m.on = false ∨ m.mask = true ∨ v.val ∉ m.unmasked →
        u.hif.msgs = s.hif.msgs ∧ v.val ∈ (u.hif.msix fn).pending) ∧
      (s.vecFn x ≠ fn ∨ s.vecCond x = false → u.hif = s.hif)) ∧
  (∀ (s : State) (fn : Fin 2), Gives (.functionLevelReset fn) s fun u =>
    (∀ r ∈ mbRegs fn, u.rd r = r.reset) ∧ (u.hif.msix fn).on = false ∧ (u.hif.msix fn).unmasked = [] ∧ (u.hif.msix fn).table = [] ∧
    (∀ c < 4, s.rdB (HIF_CH_CTRL c) 8 = (fn.val == 1) →
      u.dmaCh 4 c = {} ∧ ∀ k < 5, u.rd (dmaReg 4 c k) = (dmaReg 4 c k).reset) ∧
    (∀ c < 4, s.rdB (HIF_CH_CTRL c) 8 ≠ (fn.val == 1) →
      u.dmaCh 4 c = s.dmaCh 4 c ∧ ∀ k < 5, u.rd (dmaReg 4 c k) = s.rd (dmaReg 4 c k)) ∧
    (∀ r : Reg, r.addr / 0x1000 ≠ 0x50110 → r.addr / 0x1000 ≠ 0x50100 → u.rd r = s.rd r) ∧ u.mem = s.mem) ∧
  (∀ (s : State) (up : Bool) (width : BitVec 4) (speed : BitVec 3), Gives (.pcieLinkChange up width speed) s fun u =>
    u.rd HIF_STAT = (if up then BitVec.ofNat 32 (256 + width.toNat * 16 + speed.toNat) else 0) ∧
    u.rdB HIF_INT 1 = true ∧ OnlyRegs s u [HIF_STAT, HIF_INT])

/-- R362, R363, R364. A DMA channel: go starts at the first descriptor with its status cleared; abort waits for the
boundary, not between a read and the write of the bytes that it read, and the descriptor in CUR takes its status also where it
was not fetched; each turn issues one transaction: a descriptor's fetch, a read or the write of its next bytes, or its
write-back; what the end of each does: a descriptor checked, bytes held, bytes moved, the next descriptor or the end.
That a channel awaits one transaction at a time is the model's reading (assumption 60). -/
def Obligations.DmaChannels : Prop :=
  (∀ (s : State) (q : Req) (n : Fin 5) (c : Fin 8), c.val < dmaChans n → Reaches s q (dmaReg n c 0) →
    Gives (.dmaGo q n c) s fun u => u.mem = s.mem ∧
      (s.dmaRunning n c = true → OnlyRegs s u []) ∧
      (s.dmaRunning n c = false → u.rd (dmaReg n c 2) = s.rd (dmaReg n c 1) ∧ u.rd (dmaReg n c 4) = 0 ∧
        u.rdB (dmaReg n c 3) 0 = true ∧ u.rdF (dmaReg n c 3) 5 4 = 0 ∧ u.rdF (dmaReg n c 3) 11 8 = 0 ∧
        u.dmaCh n c = {} ∧ ∀ r : Reg, r.addr ∉ [(dmaReg n c 0).addr, (dmaReg n c 2).addr, (dmaReg n c 3).addr,
          (dmaReg n c 4).addr] → u.rd r = s.rd r)) ∧
  (∀ (s : State) (q : Req) (n : Fin 5) (c : Fin 8), c.val < dmaChans n → Reaches s q (dmaReg n c 0) →
    s.dmaRunning n c = true → Gives (.dmaAbort q n c) s fun u =>
      u.dmaCh n c = { s.dmaCh n c with abort := true } ∧ u.regs = s.regs ∧ u.mem = s.mem) ∧
  (∀ (s : State) (n : Fin 5) (host : List Byte), (∀ c < dmaChans n, s.dmaRunning n c = false) →
    Gives (.dmaTransactionIssue n host) s fun u => OnlyRegs s u []) ∧
  (∀ (s : State) (n : Fin 5) (c : Fin 8) (host : List Byte), DmaOpen s n c →
    Gives (.dmaTransactionIssue n host) s fun u =>
      let ch := s.dmaCh n c
      let d := descOf ch.desc
      let moved := s.dmaMoved n c
      let k := min (d.len - moved) (min (moveLimit d.srcHost (d.src + moved)) (moveLimit d.dstHost (d.dst + moved)))
      (∀ st er, ch.stop = some (st, er) → DmaSent s u n c (backTxn s n c st er) (.back st er)) ∧
      (ch.stop = none → ch.abort = true → ch.buf = [] →
        (d.last = true → d.len ≤ moved → DmaSent s u n c (backTxn s n c 3 0) (.back 3 0)) ∧
        (d.last = false ∨ moved < d.len → DmaSent s u n c (backTxn s n c 2 1) (.back 2 1))) ∧
      (ch.stop = none → ch.abort = false ∨ ch.buf ≠ [] → ch.desc = [] → DmaSent s u n c
        (runTxn (s.dmaReq n c) false false (s.rd (dmaReg n c 2)).toNat (List.replicate 32 (0, true))) .fetch) ∧
      (ch.stop = none → ch.abort = false ∨ ch.buf ≠ [] → ch.desc ≠ [] → d.len ≤ moved →
        DmaSent s u n c (backTxn s n c 1 0) (.back 1 0)) ∧
      (ch.stop = none → ch.desc ≠ [] → moved < d.len → ch.buf ≠ [] → DmaSent s u n c
        (runTxn (s.dmaReq n c) true false (d.dst + moved) (ch.buf.map (fun b => (b, true)))) .write) ∧
      (ch.stop = none → ch.abort = false → ch.desc ≠ [] → moved < d.len → ch.buf = [] → d.srcHost = false →
        DmaSent s u n c (runTxn (s.dmaReq n c) false false (d.src + moved) (List.replicate k (0, true))) .read) ∧
      (ch.stop = none → ch.abort = false → ch.desc ≠ [] → moved < d.len → ch.buf = [] → d.srcHost = true →
        u.hif.asked = s.hif.asked ++ [(b2n (s.dmaReq n c).guest, d.src + moved, k)] ∧
        (k ≤ host.length → DmaSent s u n c (runTxn (s.dmaReq n c) true false (d.dst + moved)
          ((host.take k).map (fun b => (b, true)))) .write) ∧
        (host.length < k → DmaSent s u n c (backTxn s n c 2 2) (.back 2 2)))) ∧
  (∀ (s : State) (t : Fin 16) (x : BusTxn) (n : Fin 5) (c : Fin 8) (token : Nat) (k : DmaStep), c.val < dmaChans n →
    s.doneAt t = some x → x.killed = false → x.origin = .dma n c token k → (s.dmaCh n c).busy = some token →
    Gives (.bmxTransactionComplete t) s fun u =>
      let ch := s.dmaCh n c
      let d := descOf ch.desc
      let bytes := (readBytes x.txn x.data).map Prod.snd
      u.mem = s.mem ∧
      (k = .fetch → x.err ≠ 0 → DmaEnded u n c 2 2) ∧
      (k = .fetch → x.err = 0 → u.dmaCh n c = { ch with
        busy := none, desc := bytesWords bytes, stop := if descOk n (bytesWords bytes) then none else some (2, 3) }) ∧
      (k = .read ∨ k = .write → x.err ≠ 0 → (u.dmaCh n c).stop = some (2, 2) ∧ u.dmaMoved n c = s.dmaMoved n c) ∧
      (k = .read → x.err = 0 → d.dstHost = false → u.dmaCh n c = { ch with busy := none, buf := bytes } ∧
        u.dmaMoved n c = s.dmaMoved n c) ∧
      (k = .read → x.err = 0 → d.dstHost = true → s.dmaMoved n c + bytes.length < 2 ^ 24 →
        u.dmaMoved n c = s.dmaMoved n c + bytes.length ∧
        u.hif.wrote = s.hif.wrote ++ [(b2n (s.dmaReq n c).guest, d.dst + s.dmaMoved n c, bytes)]) ∧
      (k = .write → x.err = 0 → s.dmaMoved n c + ch.buf.length < 2 ^ 24 →
        u.dmaMoved n c = s.dmaMoved n c + ch.buf.length ∧ u.dmaCh n c = { ch with busy := none, buf := [] }) ∧
      (k = .back 1 0 → x.err ≠ 0 → DmaEnded u n c 2 2) ∧
      (k = .back 1 0 → x.err = 0 → (d.irq = true → u.rdB (dmaInt n) c = true) ∧
        (d.last = true → ch.abort = false → DmaEnded u n c 1 0) ∧
        (d.last = true → ch.abort = true → (u.dmaCh n c).stop = some (3, 0)) ∧
        (d.last = false → u.rd (dmaReg n c 2) = BitVec.ofNat 32 (d.next / 32 * 32) ∧ u.rd (dmaReg n c 4) = 0 ∧
          (u.dmaCh n c).desc = [] ∧ (d.next % 32 ≠ 0 → DmaEnded u n c 2 3))) ∧
      (∀ st er, st ≠ 1 → st < 4 → er < 16 → k = .back st er → DmaEnded u n c st er))

/-- R370, R371, R372, R373, R375, R376, R403. Power: a request is refused with its code or begins the entry; a state,
once the accesses are complete, turns the links off and halts the cores; a wake event of an enabled source is kept; the exit returns to Run, or restarts
from S4 with every unfenced memory zero; temperature samples, the hot count and the thermal trip. That a request of
the host wakes by its command is the model's reading (assumption 67), and what a request made in S1 or during an entry does
its choice (assumption 115). -/
def Obligations.PowerStates : Prop :=
  (∀ (s : State) (q : Req), Reaches s q PWR_REQ → Gives (.powerStateRequest q) s fun u =>
    (s.asleep = true → OnlyRegs s u []) ∧
    (s.asleep = false → powerRefusal s = 0 → u.pwrState = 7 ∧ u.pwr.entering = some (s.rdF PWR_CTRL 2 0) ∧ u.mem = s.mem ∧
      ∀ r : Reg, r.addr ≠ PWR_STAT.addr → u.rd r = s.rd r) ∧
    (s.asleep = false → powerRefusal s ≠ 0 → u.rdF PWR_STAT 31 28 = powerRefusal s ∧ u.rdB PWR_INT 2 = true ∧
      OnlyRegs s u [PWR_STAT, PWR_INT])) ∧
  (∀ (s : State) (t : Nat), s.pwr.entering = some t → t ≤ 4 → Gives .powerStateEnter s fun u =>
    (s.bmx.txns ≠ [] ∨ s.portWait ≠ [] → OnlyRegs s u []) ∧
    (s.bmx.txns = [] → s.portWait = [] →
      u.pwrState = t ∧ u.pwr.entering = none ∧ (∀ n < 2, u.macLink n = 0) ∧ (∀ n < 4, u.dngState n = 0) ∧
      (∀ c < 2, u.coreState c = (if 2 ≤ t ∧ 1 ≤ s.coreState c then 3 else s.coreState c)) ∧
      (∀ c < 2, c ∈ u.pwr.booting ↔ 2 ≤ t ∧ s.coreState c = 1) ∧
      (3 ≤ t → u.ani.hbTx = false) ∧ (t = 4 → u.rd HIF_STAT = 0) ∧
      ((∀ n < 2, (s.mac n).wire = none ∧ (s.mac n).held = none) → u.mem = s.mem))) ∧
  (∀ (s : State) (q : Req), Reaches s q PWR_REQ → Gives (.hostWake q) s fun u =>
    (s.stay = some 1 → q.master = 6 → s.rdB PWR_WAKE_EN 17 = true → s.pwr.woke = none →
      u.pwr.woke = some 17 ∧ u.regs = s.regs ∧ u.mem = s.mem) ∧
    (s.stay ≠ some 1 ∨ q.master ≠ 6 → OnlyRegs s u [])) ∧
  (∀ (s : State) (n : Fin 16) (falling : Bool), Gives (.gpioWake n falling) s fun u =>
    u.regs = s.regs ∧ u.mem = s.mem ∧
    (s.rdB PWR_WAKE_POL n = falling → s.stay ≠ none → s.rdB PWR_WAKE_EN n = true → s.pwr.woke = none →
      u.pwr.woke = some n.val ∧ u.pwr.wokeAt = s.now) ∧
    (s.rdB PWR_WAKE_POL n ≠ falling ∨ s.stay = none ∨ s.rdB PWR_WAKE_EN n = false → u.pwr = s.pwr)) ∧
  (∀ s : State, Gives .aonTimerExpiry s fun u => u.regs = s.regs ∧ u.mem = s.mem ∧
    (s.rd PWR_AON_TIMER ≠ 0 → s.stay ≠ none → s.rdB PWR_WAKE_EN 16 = true → s.pwr.woke = none →
      u.pwr.woke = some 16) ∧
    (s.rd PWR_AON_TIMER = 0 ∨ s.stay = none → u.pwr = s.pwr)) ∧
  (∀ (s : State) (w : Nat), s.pwr.woke = some w → w < 18 → Gives .powerStateExit s fun u =>
    (1 ≤ s.pwrState → s.pwrState ≤ 3 → u.pwrState = 0 ∧ u.rdF PWR_STAT 20 16 = w ∧ u.rdB PWR_INT 0 = true ∧
      u.pwr.woke = none ∧
      ∀ c < 2, u.coreState c =
        (if 2 ≤ s.pwrState ∧ s.coreState c = 3 then (if c ∈ s.pwr.booting then 1 else 2) else s.coreState c)) ∧
    (s.pwrState = 4 → u.stc = 0 ∧ u.pwrState = 0 ∧ u.rdF PWR_STAT 20 16 = w ∧ u.rdB PWR_AON_STAT 1 = true ∧
      u.boot.step = .fuses ∧ u.running = false ∧
      (∀ a, (∀ x, unitAt a = some x → s.fenced x = false) → sget 0 u.mem a = 0) ∧
      (∀ r : Reg, aonReg r.addr = false → r.addr ∉ [PWR_STAT.addr, PWR_INT.addr] → u.rd r = r.reset))) ∧
  (∀ s : State, s.pwr.woke = none → s.hif.later = [] → Gives .powerStateExit s fun u => OnlyRegs s u []) ∧
  (∀ s : State, Gives .hotCountPeriod s fun u =>
    (s.running = false → s.pwrState ≤ 1 → s.hot = true → u.rdB PWR_INT 1 = true ∧
      u.rdF PWR_HOT_CNT 31 0 = min (s.rdF PWR_HOT_CNT 31 0 + 1) (2 ^ 32 - 1) ∧ OnlyRegs s u [PWR_INT, PWR_HOT_CNT]) ∧
    (s.running = true ∨ s.hot = false ∨ 2 ≤ s.pwrState → OnlyRegs s u [])) ∧
  (∀ (s : State) (t : List (BitVec 16)), t.length = 9 → Gives (.temperatureSample t) s fun u =>
    (s.pwr.por = true → OnlyRegs s u []) ∧
    (s.held = false → (∀ x ∈ t, x.toInt < 2000) → u.mem = s.mem ∧ u.pwr.trip = false ∧
      (∀ i < 9, u.temp (PWR_TSENS i) = (t.getD i 0).toInt) ∧ (∀ x ∈ t, x.toInt ≤ u.temp PWR_TMAX) ∧
      (∃ x ∈ t, u.temp PWR_TMAX = x.toInt) ∧ u.temp PWR_TPEAK =
        (if s.pwr.peakSeen then max (s.temp PWR_TPEAK) (u.temp PWR_TMAX) else u.temp PWR_TMAX) ∧ (u.hot = true → u.rdB PWR_INT 1 = true)) ∧
    (s.held = false → (∃ x ∈ t, 2000 ≤ x.toInt) → u.pwr.trip = true ∧ u.faultLow = true ∧
      u.rdB PWR_AON_STAT 0 = true ∧ u.running = false) ∧
    (s.pwr.trip = true → (∃ x ∈ t, 1840 ≤ x.toInt) → OnlyRegs s u []) ∧
    (s.pwr.trip = true → s.pwr.por = false → (∀ x ∈ t, x.toInt < 1840) → u.pwr.trip = false ∧ u.stc = 0 ∧
      u.boot.step = .fuses ∧ u.rdB PWR_INT 3 = true ∧ u.rdB SYS_RST_CAUSE 4 = true))

/-- R182, R183, R184, R185, R376, R380, R381, R382, R384, R389, R390, R392. Resets and the boot sequence, step by
step, the TAP, and the pins under them. A power-on reset starts with PORn low or VDD_AON below 0.70 V and holds the device,
its pins low or released, until PORn is high with VDD_AON above 0.74 V. What a reset leaves of transactions, and soft
repair, are the model's readings (assumptions 62 and 64); steps of the boot, assumption 63; the ECC failure at a system
reset, assumption 116; a cell that nothing loaded, assumption 118. -/
def Obligations.ResetsAndBoot : Prop :=
  (∀ (s : State) (pins : PorPins), Gives (.powerOnReset pins) s fun u =>
    (s.pwr.por = false → pins.porn = true → 700 ≤ pins.aon → OnlyRegs s u []) ∧
    (s.pwr.por = true ∨ pins.porn = false ∨ pins.aon < 700 →
      (∀ r : Reg, u.rd r = r.reset) ∧ u.stc = 0 ∧ u.rep = [] ∧ u.boot.test = true ∧ u.boot.pins = pins.boot.toNat ∧
      u.running = false ∧ u.mem = s.mem ∧ (u.pwr.por = false ↔ pins.porn = true ∧ 740 < pins.aon) ∧
      u.boot.step = (if pins.porn = true ∧ 740 < pins.aon then .fuses else .stopped) ∧
      u.io33 = (if pins.porn then s.io33 else pins.io33) ∧
      (u.pwr.por = true → (∀ n, u.pin (.aesTx n) = .low ∧ ∀ m, u.pin (.mclk m) = .low) ∧ u.pin .wclkOut = .low ∧
        u.pin .hbTx = .low ∧ u.pin .faultN = .hiz ∧ ∀ n, u.pin (.sapSdo n) = .hiz ∧ u.pin (.sapBclk n) = .input ∧
          u.pin (.sapWs n) = .input))) ∧
  (∀ (s : State) (q : Req) (key : BitVec 16) (pins : BitVec 2), Reaches s q SYS_RST_CTRL →
    Gives (.systemReset q key pins) s fun u =>
      (key.toNat ≠ 0xA5C3 → Rejected s u q (BitVec.ofNat 32 SYS_RST_CTRL.addr)
        (BitVec.ofNat 32 (key.toNat * 2 ^ 16 + 1))) ∧
      (key.toNat = 0xA5C3 → (∀ r : Reg, r.addr ≠ SYS_RST_CAUSE.addr →
          u.rd r = (if aonReg r.addr ∨ hifReg r.addr then s.rd r else r.reset)) ∧
        u.rdB SYS_RST_CAUSE 1 = true ∧ u.stc = s.stc ∧ u.rep = s.rep ∧ u.io33 = s.io33 ∧ u.boot.step = .fuses ∧
        u.boot.pins = pins.toNat ∧
        (∀ a, a < 0x30200000 ∨ 0x30300000 ≤ a → sget 0 u.mem a = sget 0 s.mem a) ∧
        (Memory.wf s.mem = true → ∀ i < 0x100000, sget 0 u.mem (0x30200000 + i) = sget 0 s.mem (0x30000000 + i)))) ∧
  (∀ (s : State) (pins : BitVec 2), s.pwr.por = true → Gives (.pcieFundamentalReset pins) s fun u => OnlyRegs s u []) ∧
  (∀ (s : State) (pins : BitVec 2), s.pwr.por = false → s.pwr.trip = true → Gives (.pcieFundamentalReset pins) s fun u =>
    u.rdB SYS_RST_CAUSE 2 = true ∧ OnlyRegs s u [SYS_RST_CAUSE]) ∧
  (∀ (s : State) (pins : BitVec 2), s.held = false → Gives (.pcieFundamentalReset pins) s fun u =>
    (∀ r : Reg, r.addr ≠ SYS_RST_CAUSE.addr → u.rd r = (if aonReg r.addr then s.rd r else r.reset)) ∧
    u.rdB SYS_RST_CAUSE 2 = true ∧ u.stc = s.stc ∧ u.io33 = s.io33 ∧ u.boot.step = .fuses ∧
    (∀ a, a < 0x30200000 ∨ 0x30300000 ≤ a → sget 0 u.mem a = sget 0 s.mem a)) ∧
  (∀ (s : State) (f : Fuses), s.boot.step = .fuses → f.eccErr = true → s.boot.sys = 1 → Gives (.fuseLoadDone f) s fun u =>
    u.boot.step = .fuses ∧ u.boot.sys = 2 ∧ u.boot.pins = s.boot.pins ∧ u.rdB SYS_RST_CAUSE 1 = true ∧
    ∀ r : Reg, r.addr ≠ SYS_RST_CAUSE.addr → u.rd r = (if aonReg r.addr ∨ hifReg r.addr then s.rd r else r.reset)) ∧
  (∀ (s : State) (f : Fuses), s.boot.step = .fuses → f.eccErr = false ∨ s.boot.sys ≠ 1 → Gives (.fuseLoadDone f) s fun u =>
    u.boot.locked = (s.boot.locked || f.dbgLock) ∧
    u.rd TST_FUSE_STAT = BitVec.ofNat 32 (1 + 2 * b2n f.eccErr + 4 * b2n f.dbgLock) ∧ u.rd TST_FUSE_MINVER = f.minVer ∧
    u.boot.vendor = f.vendor.toNat ∧ u.boot.subsys = f.subsys ∧ u.boot.key = f.keyHash ∧
    (s.boot.test = true → u.boot.step = .test ∧ u.mem = s.mem) ∧
    (s.boot.test = false → f.eccErr = true → u.boot.step = .stopped ∧ u.rdF SYS_BOOT_STAT 3 0 = 5) ∧
    (s.boot.test = false → f.eccErr = false → s.rdF SYS_BOOT_STAT 3 0 = 0 → (∀ i < 4, s.fenced (724 + i) = false) →
      (s.boot.pins = 3 → u.boot.step = .stopped ∧ u.rdF SYS_BOOT_STAT 3 0 = 1 ∧ u.coreState 0 = 0) ∧
      (s.boot.pins < 3 → u.boot.step = .image ∧ u.coreState 0 = 1 ∧ u.rdF SYS_BOOT_STAT 9 8 = s.boot.pins ∧
        u.rdB SYS_BOOT_STAT 29 = (s.boot.pins == 1))) ∧
    (s.boot.test = false → f.eccErr = false → s.rdF SYS_BOOT_STAT 3 0 = 0 → (∃ i < 4, s.fenced (724 + i) = true) →
      u.boot.step = .stopped ∧ u.rdF SYS_BOOT_STAT 3 0 = 2)) ∧
  (∀ (s : State) (res : List UnitTest), s.boot.step = .test → (res.map UnitTest.unit).Nodup →
    Gives (.selfTestDone res) s fun u =>
      u.mem = [] ∧ u.rdB TST_MEM_STAT 31 = true ∧ u.boot.test = false ∧
      (∀ t ∈ res, u.fenced t.unit = (t.stillBad || decide (4 - (s.unit t.unit).hard < t.failCols))) ∧
      (∀ x < 728, (∀ t ∈ res, t.unit.val ≠ x) → u.fenced x = s.fenced x) ∧
      (u.rdB TST_MEM_STAT 30 = true ↔ ∃ x < 728, u.fenced x = true)) ∧
  (∀ (s : State) (q : Req), Reaches s q SYS_BOOT_CTRL → Gives (.bootHostGo q) s fun u =>
    (s.rdB SYS_BOOT_STAT 29 = true → u.rdB SYS_BOOT_STAT 29 = false ∧ u.boot.go = true ∧ u.mem = s.mem) ∧
    (s.rdB SYS_BOOT_STAT 29 = false → OnlyRegs s u [])) ∧
  (∀ s : State, s.boot.step = .image → s.fromFlash = true → s.asleep = false → Gives .bootFlashTimeout s fun u => u.mem = s.mem ∧
    (s.boot.pins = 2 → u.rdB SYS_BOOT_STAT 30 = true ∧ u.rdB SYS_BOOT_STAT 29 = true ∧ u.boot = s.boot) ∧
    (s.boot.pins ≠ 2 → u.boot.step = .stopped ∧ u.rdF SYS_BOOT_STAT 3 0 = 3 ∧ u.coreState 0 = 0 ∧ u.coreState 1 = 0)) ∧
  (∀ (s : State) (flash : List Byte), s.boot.step = .image → s.fromFlash = true → s.asleep = false →
    Gives (.bootImageCheck flash) s fun u =>
      let blank := (flash.take 4).all (· == 0) || (flash.take 4).all (· == 0xFF#8)
      let img := flash.take (256 + min (ofLeBytes ((flash.drop 8).take 4)) 458752)
      let code := s.imageCode img
      (blank = true → u.mem = s.mem) ∧ (blank = false → u.mem = putBytes s.mem 0x100000 img) ∧
      (blank = false → img.length = 256 + min (ofLeBytes ((flash.drop 8).take 4)) 458752 → code = 0 →
        u.boot.step = .start ∧ u.half = 0 ∧ u.coreState 0 = 1 ∧ u.coreState 1 = 1) ∧
      (blank = false → img.length = 256 + min (ofLeBytes ((flash.drop 8).take 4)) 458752 → code ≠ 0 →
        u.rd HSE_FW_ERR = BitVec.ofNat 32 code ∧
        (s.boot.pins = 2 → u.rdB SYS_BOOT_STAT 30 = true ∧ u.rdB SYS_BOOT_STAT 29 = true ∧ u.boot = s.boot) ∧
        (s.boot.pins ≠ 2 → u.boot.step = .stopped ∧ u.rdF SYS_BOOT_STAT 3 0 = 4))) ∧
  (∀ (s : State) (flash : List Byte), s.boot.step = .image → s.fromFlash = false → s.boot.go = true → s.asleep = false →
    Gives (.bootImageCheck flash) s fun u =>
      let code := s.imageCode (s.imageAt 0x100000)
      u.mem = s.mem ∧ (code = 0 → u.boot.step = .start ∧ u.half = 0 ∧ u.rd HSE_FW_VER = wordOf s.mem 0x100004 ∧
        u.coreState 0 = 1 ∧ u.coreState 1 = 1) ∧
      (code ≠ 0 → u.boot.step = .stopped ∧ u.rdF SYS_BOOT_STAT 3 0 = 4 ∧ u.rd HSE_FW_ERR = BitVec.ofNat 32 code)) ∧
  (∀ s : State, s.boot.step = .start → s.asleep = false → Gives .bootReady s fun u =>
    u.coreState 0 = 2 ∧ u.coreState 1 = 2 ∧ u.rdB SYS_BOOT_STAT 31 = true ∧ u.boot.step = .ready ∧ u.mem = s.mem) ∧
  (∀ s : State, Gives (.jtagInstruction .idcode) s fun u => u.rsp = ⟨[s.idcode.zeroExtend 256], false⟩ ∧
    (s.boot.mfr < 2 ^ 11 → bits s.idcode 27 12 = 0x5124) ∧ bit s.idcode 0 = true ∧ OnlyRegs { s with boot := u.boot } u []) ∧
  (∀ (s : State) (t : Txn), s.boot.locked = true → Gives (.jtagInstruction (.debug t)) s fun u =>
    u.boot.jtag = .bypass ∧ u.bmx = s.bmx ∧ OnlyRegs { s with boot := u.boot } u []) ∧
  (∀ (s : State) (cells : List (Pin × Bool)), Gives (.jtagInstruction (.samplePreload cells)) s fun u =>
    u.boot.cells = cells ∧ (∀ p, u.pin p = u.devicePin p) ∧ OnlyRegs { s with boot := u.boot } u []) ∧
  (∀ s : State, ∀ i ∈ [JtagInstr.extest, .extestPulse, .extestTrain], Gives (.jtagInstruction i) s fun u =>
    (∀ p, p ≠ .tdo → u.pin p = if (s.boot.cells.lookup p).getD false then .high else .low) ∧
    OnlyRegs { s with boot := u.boot } u [])

/-- Every step ends in a next state, whatever command is in front, and leaves the interrupt vectors settled. That no
command stops is the model's choice (assumption 72). -/
def Obligations.EveryStepSettles : Prop :=
  (∀ (c : Instr) (s : State), Gives c s VectorsSettled) ∧ ∀ s : State, ∃ t, step s = .next t ∧ VectorsSettled t

/-- Every command leaves the memory in its canonical form, addresses strictly rising and no byte listed that reads as an
unlisted one, and so does a step, with a command waiting or without. -/
def Obligations.MemoryStaysCanonical : Prop :=
  (∀ (s t : State) (c : Instr), Memory.wf s.mem = true → exec c s = .next t → Memory.wf t.mem = true) ∧
  ∀ s t : State, Memory.wf s.mem = true → step s = .next t → Memory.wf t.mem = true

/-- R74, R75, R77. Every well-formed bundle's word decodes to the bundle it stands for, and a word decodes to
well-formed bundles only. -/
def Obligations.BundleCodesRoundTrip : Prop :=
  (∀ b : Bundle, b.wf = true → decodeBundle (encodeBundle b) = some b) ∧
  ∀ (w : BitVec 64) (b : Bundle), decodeBundle w = some b → b.wf = true

/-- The state right after reset: every register at its reset value, memory empty, no command waiting, the engines
idle, the STC 0, and the boot sequence at its first step. Hidden state with no stated reset, and memory before the
self-test, are the model's choices (assumptions 4 and 5). -/
def Obligations.ResetState : Prop :=
  (∀ r : Reg, State.reset.rd r = r.reset) ∧ State.reset.mem = [] ∧ Memory.wf State.reset.mem = true ∧
  State.reset.pending = [] ∧ State.reset.engs = [] ∧ State.reset.stc = 0 ∧ State.reset.running = false ∧
  State.reset.boot.step = .fuses ∧ VectorsSettled State.reset

/-- R75, R90, R95. Words written out from the encodings decode to the bundles they stand for: MAC A1, D3, D7;
EXT D9, A1, #1, rne; LDQ D4,(P0)+N0 in X; SETN N0, #4; LDPQ P3, #36; DJN D11, #-3; a reserved opcode and a zero repeat
count decode to none. -/
def Obligations.BundleWordsDecode : Prop :=
  decodeBundle 0x029B800000000000#64 = some ⟨.mac 1 3 (.reg 7), .nop, .nop, .nop⟩ ∧
  decodeBundle 0x14C8100000000000#64 = some ⟨.ext 9 1 1#5 .rne, .nop, .nop, .nop⟩ ∧
  decodeBundle 0x0000002800000000#64 = some ⟨.nop, .ldq 4 0 0, .nop, .nop⟩ ∧
  decodeBundle 0x0000000000008004#64 = some ⟨.nop, .nop, .nop, .setn 0 4#10⟩ ∧
  decodeBundle 0x0000000000005824#64 = some ⟨.nop, .nop, .nop, .ldpq 3 36#11⟩ ∧
  decodeBundle 0x000000000000EBFD#64 = some ⟨.nop, .nop, .nop, .djn 11 (BitVec.ofInt 8 (-3))⟩ ∧
  decodeBundle 0x0E00000000000000#64 = none ∧ decodeBundle 0x000000000000F000#64 = none
end

