-- ==== Sys2Proof/Laws/Sparse.lean ====
section
/-! SUPPORT. Laws of the sparse maps in which the registers, the memory and the per-unit state are held: a
read after a write, and the canonical form that every operation over memory keeps. -/

namespace Sys2Proof

/-- Keys strictly rising: the order part of the canonical form. -/
def Rising {α : Type} (m : List (Nat × α)) : Prop := (m.map Prod.fst).Pairwise (· < ·)

theorem rising_nil {α : Type} : Rising ([] : List (Nat × α)) := List.Pairwise.nil

theorem rising_cons {α : Type} {j : Nat} {v : α} {m : List (Nat × α)} :
    Rising ((j, v) :: m) ↔ (∀ k ∈ m.map Prod.fst, j < k) ∧ Rising m := List.pairwise_cons

@[simp] theorem sget_nil {α : Type} (d : α) (k : Nat) : sget d [] k = d := rfl

theorem sget_cons {α : Type} (d : α) (j : Nat) (v : α) (m : List (Nat × α)) (k : Nat) :
    sget d ((j, v) :: m) k = if j = k then v else sget d m k := rfl

/-- A key that the map does not list reads the default. -/
theorem sget_unlisted {α : Type} (d : α) {m : List (Nat × α)} {k : Nat} (h : k ∉ m.map Prod.fst) :
    sget d m k = d := by
  induction m with
  | nil => rfl
  | cons a m ih =>
    simp only [List.map_cons, List.mem_cons, not_or] at h
    rw [show a = (a.1, a.2) from rfl, sget_cons, if_neg (Ne.symm h.1)]
    exact ih h.2

theorem sget_sins_same {α : Type} (d : α) (m : List (Nat × α)) (k : Nat) (x : α) :
    sget d (sins m k x) k = x := by
  induction m with
  | nil => simp [sins, sget]
  | cons a m ih =>
    unfold sins
    split
    · simp [sget]
    · split
      · simp [sget]
      · next h _ => rw [sget_cons, if_neg h]; exact ih

theorem sget_sins_other {α : Type} (d : α) (m : List (Nat × α)) {k j : Nat} (x : α) (h : j ≠ k) :
    sget d (sins m k x) j = sget d m j := by
  induction m with
  | nil => simp [sins, sget, h.symm]
  | cons a m ih =>
    unfold sins
    split
    · next e => simp [sget, e, h.symm]
    · split
      · simp [sget, h.symm]
      · simp [sget, ih]

theorem sget_sdel_other {α : Type} (d : α) (m : List (Nat × α)) {k j : Nat} (h : j ≠ k) :
    sget d (sdel m k) j = sget d m j := by
  induction m with
  | nil => rfl
  | cons a m ih =>
    unfold sdel
    split
    · next e => rw [ih, show a = (a.1, a.2) from rfl, sget_cons, if_neg (e ▸ h.symm)]
    · simp [sget, ih]

theorem sget_sdel_same {α : Type} (d : α) (m : List (Nat × α)) (k : Nat) :
    sget d (sdel m k) k = d := by
  induction m with
  | nil => rfl
  | cons a m ih =>
    unfold sdel
    split
    · exact ih
    · next e => rw [sget_cons, if_neg e]; exact ih

/-- Read after write, same key. -/
@[simp] theorem sget_sset_same {α : Type} [DecidableEq α] (d : α) (m : List (Nat × α)) (k : Nat) (x : α) :
    sget d (sset d m k x) k = x := by
  unfold sset
  split
  · next e => rw [sget_sdel_same d m k, e]
  · exact sget_sins_same d m k x

/-- Read after write, another key. The two defaults may differ: each key has its own. -/
@[simp] theorem sget_sset_other {α : Type} [DecidableEq α] (d d' : α) (m : List (Nat × α)) {k j : Nat} (x : α)
    (h : j ≠ k) : sget d (sset d' m k x) j = sget d m j := by
  unfold sset
  split
  · exact sget_sdel_other d m h
  · exact sget_sins_other d m x h

theorem mem_sins_key {α : Type} {m : List (Nat × α)} {k j : Nat} {x : α}
    (h : j ∈ (sins m k x).map Prod.fst) : j = k ∨ j ∈ m.map Prod.fst := by
  induction m with
  | nil => simpa [sins] using h
  | cons a m ih =>
    unfold sins at h
    split at h
    · simp only [List.map_cons, List.mem_cons] at h ⊢
      tauto
    · split at h
      · simp only [List.map_cons, List.mem_cons] at h ⊢
        tauto
      · simp only [List.map_cons, List.mem_cons] at h ⊢
        rcases h with h | h
        · exact Or.inr (Or.inl h)
        · rcases ih h with h | h
          · exact Or.inl h
          · exact Or.inr (Or.inr h)

theorem rising_sins {α : Type} {m : List (Nat × α)} (k : Nat) (x : α) (hm : Rising m) :
    Rising (sins m k x) := by
  induction m with
  | nil => exact rising_cons.2 ⟨by simp, rising_nil⟩
  | cons a m ih =>
    obtain ⟨ha, hm'⟩ := rising_cons.1 hm
    unfold sins
    split
    · next e => exact rising_cons.2 ⟨fun j hj => e ▸ ha j hj, hm'⟩
    · next e =>
      split
      · next l =>
        refine rising_cons.2 ⟨fun j hj => ?_, hm⟩
        simp only [List.map_cons, List.mem_cons] at hj
        rcases hj with hj | hj
        · omega
        · exact Nat.lt_trans l (ha j hj)
      · next l =>
        refine rising_cons.2 ⟨fun j hj => ?_, ih hm'⟩
        rcases mem_sins_key hj with hj | hj
        · omega
        · exact ha j hj

theorem sdel_sublist {α : Type} (m : List (Nat × α)) (k : Nat) : (sdel m k).Sublist m := by
  induction m with
  | nil => exact List.Sublist.refl _
  | cons a m ih =>
    unfold sdel
    split
    · exact ih.cons _
    · exact ih.cons_cons _

theorem rising_sublist {α : Type} {m m' : List (Nat × α)} (h : m'.Sublist m) (hm : Rising m) : Rising m' :=
  List.Pairwise.sublist (h.map Prod.fst) hm

theorem rising_sset {α : Type} [DecidableEq α] (d : α) {m : List (Nat × α)} (k : Nat) (x : α) (hm : Rising m) :
    Rising (sset d m k x) := by
  unfold sset
  split
  · exact rising_sublist (sdel_sublist m k) hm
  · exact rising_sins k x hm

/-- The canonical form, in two parts. -/
theorem swf_iff {α : Type} [DecidableEq α] (d : Nat → α) (m : List (Nat × α)) :
    swf d m = true ↔ Rising m ∧ ∀ kv ∈ m, kv.2 ≠ d kv.1 := by
  simp [swf, Rising]

theorem mem_sins {α : Type} {m : List (Nat × α)} {k : Nat} {x : α} {kv : Nat × α} (h : kv ∈ sins m k x) :
    kv = (k, x) ∨ kv ∈ m := by
  induction m with
  | nil => simpa [sins] using h
  | cons a m ih =>
    unfold sins at h
    split at h
    · rcases List.mem_cons.1 h with h | h
      · exact Or.inl h
      · exact Or.inr (List.mem_cons_of_mem _ h)
    · split at h
      · rcases List.mem_cons.1 h with h | h
        · exact Or.inl h
        · exact Or.inr h
      · rcases List.mem_cons.1 h with h | h
        · exact Or.inr (h ▸ List.mem_cons_self)
        · rcases ih h with h | h
          · exact Or.inl h
          · exact Or.inr (List.mem_cons_of_mem _ h)

/-- A write keeps the canonical form. -/
theorem swf_sset {α : Type} [DecidableEq α] (d : Nat → α) {m : List (Nat × α)} (k : Nat) (x : α)
    (hm : swf d m = true) : swf d (sset (d k) m k x) = true := by
  obtain ⟨hr, hv⟩ := (swf_iff d m).1 hm
  refine (swf_iff d _).2 ⟨rising_sset (d k) k x hr, fun kv h => ?_⟩
  unfold sset at h
  split at h
  · exact hv kv ((sdel_sublist m k).subset h)
  · next e =>
    rcases mem_sins h with h | h
    · rw [h]; exact e
    · exact hv kv h

/-- A part of a canonical map is canonical. -/
theorem swf_filter {α : Type} [DecidableEq α] (d : Nat → α) {m : List (Nat × α)} (p : Nat × α → Bool)
    (hm : swf d m = true) : swf d (m.filter p) = true := by
  obtain ⟨hr, hv⟩ := (swf_iff d m).1 hm
  exact (swf_iff d _).2 ⟨rising_sublist List.filter_sublist hr, fun kv h => hv kv (List.mem_of_mem_filter h)⟩

end Sys2Proof
end

