-- ==== Sys2Proof/Laws/State.lean ====
section
/-! SUPPORT. Laws of the state: each update leaves every other field as it was, a register or an engine read after
it is written, and what bringing the interrupt vectors up to date does. -/

namespace Sys2Proof.Machine

/-! wr changes only regs. -/

@[simp] theorem State.wr_pending (s : State) (r : Reg) (v : Word) : (s.wr r v).pending = s.pending := rfl
@[simp] theorem State.wr_now (s : State) (r : Reg) (v : Word) : (s.wr r v).now = s.now := rfl
@[simp] theorem State.wr_free (s : State) (r : Reg) (v : Word) : (s.wr r v).free = s.free := rfl
@[simp] theorem State.wr_rsp (s : State) (r : Reg) (v : Word) : (s.wr r v).rsp = s.rsp := rfl
@[simp] theorem State.wr_mem (s : State) (r : Reg) (v : Word) : (s.wr r v).mem = s.mem := rfl
@[simp] theorem State.wr_frame (s : State) (r : Reg) (v : Word) : (s.wr r v).frame = s.frame := rfl
@[simp] theorem State.wr_engs (s : State) (r : Reg) (v : Word) : (s.wr r v).engs = s.engs := rfl
@[simp] theorem State.wr_mtx (s : State) (r : Reg) (v : Word) : (s.wr r v).mtx = s.mtx := rfl
@[simp] theorem State.wr_morph (s : State) (r : Reg) (v : Word) : (s.wr r v).morph = s.morph := rfl
@[simp] theorem State.wr_router (s : State) (r : Reg) (v : Word) : (s.wr r v).router = s.router := rfl
@[simp] theorem State.wr_hif (s : State) (r : Reg) (v : Word) : (s.wr r v).hif = s.hif := rfl
@[simp] theorem State.wr_clove (s : State) (r : Reg) (v : Word) : (s.wr r v).clove = s.clove := rfl
@[simp] theorem State.wr_mig (s : State) (r : Reg) (v : Word) : (s.wr r v).mig = s.mig := rfl
@[simp] theorem State.wr_bmx (s : State) (r : Reg) (v : Word) : (s.wr r v).bmx = s.bmx := rfl
@[simp] theorem State.wr_reqs (s : State) (r : Reg) (v : Word) : (s.wr r v).reqs = s.reqs := rfl
@[simp] theorem State.wr_portWait (s : State) (r : Reg) (v : Word) : (s.wr r v).portWait = s.portWait := rfl
@[simp] theorem State.wr_nextReq (s : State) (r : Reg) (v : Word) : (s.wr r v).nextReq = s.nextReq := rfl
@[simp] theorem State.wr_dma (s : State) (r : Reg) (v : Word) : (s.wr r v).dma = s.dma := rfl
@[simp] theorem State.wr_ani (s : State) (r : Reg) (v : Word) : (s.wr r v).ani = s.ani := rfl
@[simp] theorem State.wr_saps (s : State) (r : Reg) (v : Word) : (s.wr r v).saps = s.saps := rfl
@[simp] theorem State.wr_aesRx (s : State) (r : Reg) (v : Word) : (s.wr r v).aesRx = s.aesRx := rfl
@[simp] theorem State.wr_aesTx (s : State) (r : Reg) (v : Word) : (s.wr r v).aesTx = s.aesTx := rfl
@[simp] theorem State.wr_src (s : State) (r : Reg) (v : Word) : (s.wr r v).src = s.src := rfl
@[simp] theorem State.wr_dng (s : State) (r : Reg) (v : Word) : (s.wr r v).dng = s.dng := rfl
@[simp] theorem State.wr_macs (s : State) (r : Reg) (v : Word) : (s.wr r v).macs = s.macs := rfl
@[simp] theorem State.wr_strmRx (s : State) (r : Reg) (v : Word) : (s.wr r v).strmRx = s.strmRx := rfl
@[simp] theorem State.wr_strmTx (s : State) (r : Reg) (v : Word) : (s.wr r v).strmTx = s.strmTx := rfl
@[simp] theorem State.wr_saf (s : State) (r : Reg) (v : Word) : (s.wr r v).saf = s.saf := rfl
@[simp] theorem State.wr_house (s : State) (r : Reg) (v : Word) : (s.wr r v).house = s.house := rfl
@[simp] theorem State.wr_pwr (s : State) (r : Reg) (v : Word) : (s.wr r v).pwr = s.pwr := rfl
@[simp] theorem State.wr_boot (s : State) (r : Reg) (v : Word) : (s.wr r v).boot = s.boot := rfl
@[simp] theorem State.wr_io33 (s : State) (r : Reg) (v : Word) : (s.wr r v).io33 = s.io33 := rfl
@[simp] theorem State.wr_rep (s : State) (r : Reg) (v : Word) : (s.wr r v).rep = s.rep := rfl
@[simp] theorem State.wr_stc (s : State) (r : Reg) (v : Word) : (s.wr r v).stc = s.stc := rfl
@[simp] theorem State.wr_steer (s : State) (r : Reg) (v : Word) : (s.wr r v).steer = s.steer := rfl
@[simp] theorem State.wr_slew (s : State) (r : Reg) (v : Word) : (s.wr r v).slew = s.slew := rfl

/-! upd changes only regs. -/

@[simp] theorem State.upd_pending (s : State) (r : Reg) (f : Word → Word) : (s.upd r f).pending = s.pending := rfl
@[simp] theorem State.upd_now (s : State) (r : Reg) (f : Word → Word) : (s.upd r f).now = s.now := rfl
@[simp] theorem State.upd_free (s : State) (r : Reg) (f : Word → Word) : (s.upd r f).free = s.free := rfl
@[simp] theorem State.upd_rsp (s : State) (r : Reg) (f : Word → Word) : (s.upd r f).rsp = s.rsp := rfl
@[simp] theorem State.upd_mem (s : State) (r : Reg) (f : Word → Word) : (s.upd r f).mem = s.mem := rfl
@[simp] theorem State.upd_frame (s : State) (r : Reg) (f : Word → Word) : (s.upd r f).frame = s.frame := rfl
@[simp] theorem State.upd_engs (s : State) (r : Reg) (f : Word → Word) : (s.upd r f).engs = s.engs := rfl
@[simp] theorem State.upd_mtx (s : State) (r : Reg) (f : Word → Word) : (s.upd r f).mtx = s.mtx := rfl
@[simp] theorem State.upd_morph (s : State) (r : Reg) (f : Word → Word) : (s.upd r f).morph = s.morph := rfl
@[simp] theorem State.upd_router (s : State) (r : Reg) (f : Word → Word) : (s.upd r f).router = s.router := rfl
@[simp] theorem State.upd_hif (s : State) (r : Reg) (f : Word → Word) : (s.upd r f).hif = s.hif := rfl
@[simp] theorem State.upd_clove (s : State) (r : Reg) (f : Word → Word) : (s.upd r f).clove = s.clove := rfl
@[simp] theorem State.upd_mig (s : State) (r : Reg) (f : Word → Word) : (s.upd r f).mig = s.mig := rfl
@[simp] theorem State.upd_bmx (s : State) (r : Reg) (f : Word → Word) : (s.upd r f).bmx = s.bmx := rfl
@[simp] theorem State.upd_reqs (s : State) (r : Reg) (f : Word → Word) : (s.upd r f).reqs = s.reqs := rfl
@[simp] theorem State.upd_portWait (s : State) (r : Reg) (f : Word → Word) : (s.upd r f).portWait = s.portWait := rfl
@[simp] theorem State.upd_nextReq (s : State) (r : Reg) (f : Word → Word) : (s.upd r f).nextReq = s.nextReq := rfl
@[simp] theorem State.upd_dma (s : State) (r : Reg) (f : Word → Word) : (s.upd r f).dma = s.dma := rfl
@[simp] theorem State.upd_ani (s : State) (r : Reg) (f : Word → Word) : (s.upd r f).ani = s.ani := rfl
@[simp] theorem State.upd_saps (s : State) (r : Reg) (f : Word → Word) : (s.upd r f).saps = s.saps := rfl
@[simp] theorem State.upd_aesRx (s : State) (r : Reg) (f : Word → Word) : (s.upd r f).aesRx = s.aesRx := rfl
@[simp] theorem State.upd_aesTx (s : State) (r : Reg) (f : Word → Word) : (s.upd r f).aesTx = s.aesTx := rfl
@[simp] theorem State.upd_src (s : State) (r : Reg) (f : Word → Word) : (s.upd r f).src = s.src := rfl
@[simp] theorem State.upd_dng (s : State) (r : Reg) (f : Word → Word) : (s.upd r f).dng = s.dng := rfl
@[simp] theorem State.upd_macs (s : State) (r : Reg) (f : Word → Word) : (s.upd r f).macs = s.macs := rfl
@[simp] theorem State.upd_strmRx (s : State) (r : Reg) (f : Word → Word) : (s.upd r f).strmRx = s.strmRx := rfl
@[simp] theorem State.upd_strmTx (s : State) (r : Reg) (f : Word → Word) : (s.upd r f).strmTx = s.strmTx := rfl
@[simp] theorem State.upd_saf (s : State) (r : Reg) (f : Word → Word) : (s.upd r f).saf = s.saf := rfl
@[simp] theorem State.upd_house (s : State) (r : Reg) (f : Word → Word) : (s.upd r f).house = s.house := rfl
@[simp] theorem State.upd_pwr (s : State) (r : Reg) (f : Word → Word) : (s.upd r f).pwr = s.pwr := rfl
@[simp] theorem State.upd_boot (s : State) (r : Reg) (f : Word → Word) : (s.upd r f).boot = s.boot := rfl
@[simp] theorem State.upd_io33 (s : State) (r : Reg) (f : Word → Word) : (s.upd r f).io33 = s.io33 := rfl
@[simp] theorem State.upd_rep (s : State) (r : Reg) (f : Word → Word) : (s.upd r f).rep = s.rep := rfl
@[simp] theorem State.upd_stc (s : State) (r : Reg) (f : Word → Word) : (s.upd r f).stc = s.stc := rfl
@[simp] theorem State.upd_steer (s : State) (r : Reg) (f : Word → Word) : (s.upd r f).steer = s.steer := rfl
@[simp] theorem State.upd_slew (s : State) (r : Reg) (f : Word → Word) : (s.upd r f).slew = s.slew := rfl

/-! wrF changes only regs. -/

@[simp] theorem State.wrF_pending (s : State) (r : Reg) (hi lo v : Nat) : (s.wrF r hi lo v).pending = s.pending := rfl
@[simp] theorem State.wrF_now (s : State) (r : Reg) (hi lo v : Nat) : (s.wrF r hi lo v).now = s.now := rfl
@[simp] theorem State.wrF_free (s : State) (r : Reg) (hi lo v : Nat) : (s.wrF r hi lo v).free = s.free := rfl
@[simp] theorem State.wrF_rsp (s : State) (r : Reg) (hi lo v : Nat) : (s.wrF r hi lo v).rsp = s.rsp := rfl
@[simp] theorem State.wrF_mem (s : State) (r : Reg) (hi lo v : Nat) : (s.wrF r hi lo v).mem = s.mem := rfl
@[simp] theorem State.wrF_frame (s : State) (r : Reg) (hi lo v : Nat) : (s.wrF r hi lo v).frame = s.frame := rfl
@[simp] theorem State.wrF_engs (s : State) (r : Reg) (hi lo v : Nat) : (s.wrF r hi lo v).engs = s.engs := rfl
@[simp] theorem State.wrF_mtx (s : State) (r : Reg) (hi lo v : Nat) : (s.wrF r hi lo v).mtx = s.mtx := rfl
@[simp] theorem State.wrF_morph (s : State) (r : Reg) (hi lo v : Nat) : (s.wrF r hi lo v).morph = s.morph := rfl
@[simp] theorem State.wrF_router (s : State) (r : Reg) (hi lo v : Nat) : (s.wrF r hi lo v).router = s.router := rfl
@[simp] theorem State.wrF_hif (s : State) (r : Reg) (hi lo v : Nat) : (s.wrF r hi lo v).hif = s.hif := rfl
@[simp] theorem State.wrF_clove (s : State) (r : Reg) (hi lo v : Nat) : (s.wrF r hi lo v).clove = s.clove := rfl
@[simp] theorem State.wrF_mig (s : State) (r : Reg) (hi lo v : Nat) : (s.wrF r hi lo v).mig = s.mig := rfl
@[simp] theorem State.wrF_bmx (s : State) (r : Reg) (hi lo v : Nat) : (s.wrF r hi lo v).bmx = s.bmx := rfl
@[simp] theorem State.wrF_reqs (s : State) (r : Reg) (hi lo v : Nat) : (s.wrF r hi lo v).reqs = s.reqs := rfl
@[simp] theorem State.wrF_portWait (s : State) (r : Reg) (hi lo v : Nat) : (s.wrF r hi lo v).portWait = s.portWait := rfl
@[simp] theorem State.wrF_nextReq (s : State) (r : Reg) (hi lo v : Nat) : (s.wrF r hi lo v).nextReq = s.nextReq := rfl
@[simp] theorem State.wrF_dma (s : State) (r : Reg) (hi lo v : Nat) : (s.wrF r hi lo v).dma = s.dma := rfl
@[simp] theorem State.wrF_ani (s : State) (r : Reg) (hi lo v : Nat) : (s.wrF r hi lo v).ani = s.ani := rfl
@[simp] theorem State.wrF_saps (s : State) (r : Reg) (hi lo v : Nat) : (s.wrF r hi lo v).saps = s.saps := rfl
@[simp] theorem State.wrF_aesRx (s : State) (r : Reg) (hi lo v : Nat) : (s.wrF r hi lo v).aesRx = s.aesRx := rfl
@[simp] theorem State.wrF_aesTx (s : State) (r : Reg) (hi lo v : Nat) : (s.wrF r hi lo v).aesTx = s.aesTx := rfl
@[simp] theorem State.wrF_src (s : State) (r : Reg) (hi lo v : Nat) : (s.wrF r hi lo v).src = s.src := rfl
@[simp] theorem State.wrF_dng (s : State) (r : Reg) (hi lo v : Nat) : (s.wrF r hi lo v).dng = s.dng := rfl
@[simp] theorem State.wrF_macs (s : State) (r : Reg) (hi lo v : Nat) : (s.wrF r hi lo v).macs = s.macs := rfl
@[simp] theorem State.wrF_strmRx (s : State) (r : Reg) (hi lo v : Nat) : (s.wrF r hi lo v).strmRx = s.strmRx := rfl
@[simp] theorem State.wrF_strmTx (s : State) (r : Reg) (hi lo v : Nat) : (s.wrF r hi lo v).strmTx = s.strmTx := rfl
@[simp] theorem State.wrF_saf (s : State) (r : Reg) (hi lo v : Nat) : (s.wrF r hi lo v).saf = s.saf := rfl
@[simp] theorem State.wrF_house (s : State) (r : Reg) (hi lo v : Nat) : (s.wrF r hi lo v).house = s.house := rfl
@[simp] theorem State.wrF_pwr (s : State) (r : Reg) (hi lo v : Nat) : (s.wrF r hi lo v).pwr = s.pwr := rfl
@[simp] theorem State.wrF_boot (s : State) (r : Reg) (hi lo v : Nat) : (s.wrF r hi lo v).boot = s.boot := rfl
@[simp] theorem State.wrF_io33 (s : State) (r : Reg) (hi lo v : Nat) : (s.wrF r hi lo v).io33 = s.io33 := rfl
@[simp] theorem State.wrF_rep (s : State) (r : Reg) (hi lo v : Nat) : (s.wrF r hi lo v).rep = s.rep := rfl
@[simp] theorem State.wrF_stc (s : State) (r : Reg) (hi lo v : Nat) : (s.wrF r hi lo v).stc = s.stc := rfl
@[simp] theorem State.wrF_steer (s : State) (r : Reg) (hi lo v : Nat) : (s.wrF r hi lo v).steer = s.steer := rfl
@[simp] theorem State.wrF_slew (s : State) (r : Reg) (hi lo v : Nat) : (s.wrF r hi lo v).slew = s.slew := rfl

/-! wrB changes only regs. -/

@[simp] theorem State.wrB_pending (s : State) (r : Reg) (i : Nat) (b : Bool) : (s.wrB r i b).pending = s.pending := rfl
@[simp] theorem State.wrB_now (s : State) (r : Reg) (i : Nat) (b : Bool) : (s.wrB r i b).now = s.now := rfl
@[simp] theorem State.wrB_free (s : State) (r : Reg) (i : Nat) (b : Bool) : (s.wrB r i b).free = s.free := rfl
@[simp] theorem State.wrB_rsp (s : State) (r : Reg) (i : Nat) (b : Bool) : (s.wrB r i b).rsp = s.rsp := rfl
@[simp] theorem State.wrB_mem (s : State) (r : Reg) (i : Nat) (b : Bool) : (s.wrB r i b).mem = s.mem := rfl
@[simp] theorem State.wrB_frame (s : State) (r : Reg) (i : Nat) (b : Bool) : (s.wrB r i b).frame = s.frame := rfl
@[simp] theorem State.wrB_engs (s : State) (r : Reg) (i : Nat) (b : Bool) : (s.wrB r i b).engs = s.engs := rfl
@[simp] theorem State.wrB_mtx (s : State) (r : Reg) (i : Nat) (b : Bool) : (s.wrB r i b).mtx = s.mtx := rfl
@[simp] theorem State.wrB_morph (s : State) (r : Reg) (i : Nat) (b : Bool) : (s.wrB r i b).morph = s.morph := rfl
@[simp] theorem State.wrB_router (s : State) (r : Reg) (i : Nat) (b : Bool) : (s.wrB r i b).router = s.router := rfl
@[simp] theorem State.wrB_hif (s : State) (r : Reg) (i : Nat) (b : Bool) : (s.wrB r i b).hif = s.hif := rfl
@[simp] theorem State.wrB_clove (s : State) (r : Reg) (i : Nat) (b : Bool) : (s.wrB r i b).clove = s.clove := rfl
@[simp] theorem State.wrB_mig (s : State) (r : Reg) (i : Nat) (b : Bool) : (s.wrB r i b).mig = s.mig := rfl
@[simp] theorem State.wrB_bmx (s : State) (r : Reg) (i : Nat) (b : Bool) : (s.wrB r i b).bmx = s.bmx := rfl
@[simp] theorem State.wrB_reqs (s : State) (r : Reg) (i : Nat) (b : Bool) : (s.wrB r i b).reqs = s.reqs := rfl
@[simp] theorem State.wrB_portWait (s : State) (r : Reg) (i : Nat) (b : Bool) : (s.wrB r i b).portWait = s.portWait := rfl
@[simp] theorem State.wrB_nextReq (s : State) (r : Reg) (i : Nat) (b : Bool) : (s.wrB r i b).nextReq = s.nextReq := rfl
@[simp] theorem State.wrB_dma (s : State) (r : Reg) (i : Nat) (b : Bool) : (s.wrB r i b).dma = s.dma := rfl
@[simp] theorem State.wrB_ani (s : State) (r : Reg) (i : Nat) (b : Bool) : (s.wrB r i b).ani = s.ani := rfl
@[simp] theorem State.wrB_saps (s : State) (r : Reg) (i : Nat) (b : Bool) : (s.wrB r i b).saps = s.saps := rfl
@[simp] theorem State.wrB_aesRx (s : State) (r : Reg) (i : Nat) (b : Bool) : (s.wrB r i b).aesRx = s.aesRx := rfl
@[simp] theorem State.wrB_aesTx (s : State) (r : Reg) (i : Nat) (b : Bool) : (s.wrB r i b).aesTx = s.aesTx := rfl
@[simp] theorem State.wrB_src (s : State) (r : Reg) (i : Nat) (b : Bool) : (s.wrB r i b).src = s.src := rfl
@[simp] theorem State.wrB_dng (s : State) (r : Reg) (i : Nat) (b : Bool) : (s.wrB r i b).dng = s.dng := rfl
@[simp] theorem State.wrB_macs (s : State) (r : Reg) (i : Nat) (b : Bool) : (s.wrB r i b).macs = s.macs := rfl
@[simp] theorem State.wrB_strmRx (s : State) (r : Reg) (i : Nat) (b : Bool) : (s.wrB r i b).strmRx = s.strmRx := rfl
@[simp] theorem State.wrB_strmTx (s : State) (r : Reg) (i : Nat) (b : Bool) : (s.wrB r i b).strmTx = s.strmTx := rfl
@[simp] theorem State.wrB_saf (s : State) (r : Reg) (i : Nat) (b : Bool) : (s.wrB r i b).saf = s.saf := rfl
@[simp] theorem State.wrB_house (s : State) (r : Reg) (i : Nat) (b : Bool) : (s.wrB r i b).house = s.house := rfl
@[simp] theorem State.wrB_pwr (s : State) (r : Reg) (i : Nat) (b : Bool) : (s.wrB r i b).pwr = s.pwr := rfl
@[simp] theorem State.wrB_boot (s : State) (r : Reg) (i : Nat) (b : Bool) : (s.wrB r i b).boot = s.boot := rfl
@[simp] theorem State.wrB_io33 (s : State) (r : Reg) (i : Nat) (b : Bool) : (s.wrB r i b).io33 = s.io33 := rfl
@[simp] theorem State.wrB_rep (s : State) (r : Reg) (i : Nat) (b : Bool) : (s.wrB r i b).rep = s.rep := rfl
@[simp] theorem State.wrB_stc (s : State) (r : Reg) (i : Nat) (b : Bool) : (s.wrB r i b).stc = s.stc := rfl
@[simp] theorem State.wrB_steer (s : State) (r : Reg) (i : Nat) (b : Bool) : (s.wrB r i b).steer = s.steer := rfl
@[simp] theorem State.wrB_slew (s : State) (r : Reg) (i : Nat) (b : Bool) : (s.wrB r i b).slew = s.slew := rfl

/-! raise changes only regs. -/

@[simp] theorem State.raise_pending (s : State) (r : Reg) (m : Word) : (s.raise r m).pending = s.pending := rfl
@[simp] theorem State.raise_now (s : State) (r : Reg) (m : Word) : (s.raise r m).now = s.now := rfl
@[simp] theorem State.raise_free (s : State) (r : Reg) (m : Word) : (s.raise r m).free = s.free := rfl
@[simp] theorem State.raise_rsp (s : State) (r : Reg) (m : Word) : (s.raise r m).rsp = s.rsp := rfl
@[simp] theorem State.raise_mem (s : State) (r : Reg) (m : Word) : (s.raise r m).mem = s.mem := rfl
@[simp] theorem State.raise_frame (s : State) (r : Reg) (m : Word) : (s.raise r m).frame = s.frame := rfl
@[simp] theorem State.raise_engs (s : State) (r : Reg) (m : Word) : (s.raise r m).engs = s.engs := rfl
@[simp] theorem State.raise_mtx (s : State) (r : Reg) (m : Word) : (s.raise r m).mtx = s.mtx := rfl
@[simp] theorem State.raise_morph (s : State) (r : Reg) (m : Word) : (s.raise r m).morph = s.morph := rfl
@[simp] theorem State.raise_router (s : State) (r : Reg) (m : Word) : (s.raise r m).router = s.router := rfl
@[simp] theorem State.raise_hif (s : State) (r : Reg) (m : Word) : (s.raise r m).hif = s.hif := rfl
@[simp] theorem State.raise_clove (s : State) (r : Reg) (m : Word) : (s.raise r m).clove = s.clove := rfl
@[simp] theorem State.raise_mig (s : State) (r : Reg) (m : Word) : (s.raise r m).mig = s.mig := rfl
@[simp] theorem State.raise_bmx (s : State) (r : Reg) (m : Word) : (s.raise r m).bmx = s.bmx := rfl
@[simp] theorem State.raise_reqs (s : State) (r : Reg) (m : Word) : (s.raise r m).reqs = s.reqs := rfl
@[simp] theorem State.raise_portWait (s : State) (r : Reg) (m : Word) : (s.raise r m).portWait = s.portWait := rfl
@[simp] theorem State.raise_nextReq (s : State) (r : Reg) (m : Word) : (s.raise r m).nextReq = s.nextReq := rfl
@[simp] theorem State.raise_dma (s : State) (r : Reg) (m : Word) : (s.raise r m).dma = s.dma := rfl
@[simp] theorem State.raise_ani (s : State) (r : Reg) (m : Word) : (s.raise r m).ani = s.ani := rfl
@[simp] theorem State.raise_saps (s : State) (r : Reg) (m : Word) : (s.raise r m).saps = s.saps := rfl
@[simp] theorem State.raise_aesRx (s : State) (r : Reg) (m : Word) : (s.raise r m).aesRx = s.aesRx := rfl
@[simp] theorem State.raise_aesTx (s : State) (r : Reg) (m : Word) : (s.raise r m).aesTx = s.aesTx := rfl
@[simp] theorem State.raise_src (s : State) (r : Reg) (m : Word) : (s.raise r m).src = s.src := rfl
@[simp] theorem State.raise_dng (s : State) (r : Reg) (m : Word) : (s.raise r m).dng = s.dng := rfl
@[simp] theorem State.raise_macs (s : State) (r : Reg) (m : Word) : (s.raise r m).macs = s.macs := rfl
@[simp] theorem State.raise_strmRx (s : State) (r : Reg) (m : Word) : (s.raise r m).strmRx = s.strmRx := rfl
@[simp] theorem State.raise_strmTx (s : State) (r : Reg) (m : Word) : (s.raise r m).strmTx = s.strmTx := rfl
@[simp] theorem State.raise_saf (s : State) (r : Reg) (m : Word) : (s.raise r m).saf = s.saf := rfl
@[simp] theorem State.raise_house (s : State) (r : Reg) (m : Word) : (s.raise r m).house = s.house := rfl
@[simp] theorem State.raise_pwr (s : State) (r : Reg) (m : Word) : (s.raise r m).pwr = s.pwr := rfl
@[simp] theorem State.raise_boot (s : State) (r : Reg) (m : Word) : (s.raise r m).boot = s.boot := rfl
@[simp] theorem State.raise_io33 (s : State) (r : Reg) (m : Word) : (s.raise r m).io33 = s.io33 := rfl
@[simp] theorem State.raise_rep (s : State) (r : Reg) (m : Word) : (s.raise r m).rep = s.rep := rfl
@[simp] theorem State.raise_stc (s : State) (r : Reg) (m : Word) : (s.raise r m).stc = s.stc := rfl
@[simp] theorem State.raise_steer (s : State) (r : Reg) (m : Word) : (s.raise r m).steer = s.steer := rfl
@[simp] theorem State.raise_slew (s : State) (r : Reg) (m : Word) : (s.raise r m).slew = s.slew := rfl

/-! countF changes only regs. -/

@[simp] theorem State.countF_pending (s : State) (r : Reg) (hi lo n : Nat) : (s.countF r hi lo n).pending = s.pending := rfl
@[simp] theorem State.countF_now (s : State) (r : Reg) (hi lo n : Nat) : (s.countF r hi lo n).now = s.now := rfl
@[simp] theorem State.countF_free (s : State) (r : Reg) (hi lo n : Nat) : (s.countF r hi lo n).free = s.free := rfl
@[simp] theorem State.countF_rsp (s : State) (r : Reg) (hi lo n : Nat) : (s.countF r hi lo n).rsp = s.rsp := rfl
@[simp] theorem State.countF_mem (s : State) (r : Reg) (hi lo n : Nat) : (s.countF r hi lo n).mem = s.mem := rfl
@[simp] theorem State.countF_frame (s : State) (r : Reg) (hi lo n : Nat) : (s.countF r hi lo n).frame = s.frame := rfl
@[simp] theorem State.countF_engs (s : State) (r : Reg) (hi lo n : Nat) : (s.countF r hi lo n).engs = s.engs := rfl
@[simp] theorem State.countF_mtx (s : State) (r : Reg) (hi lo n : Nat) : (s.countF r hi lo n).mtx = s.mtx := rfl
@[simp] theorem State.countF_morph (s : State) (r : Reg) (hi lo n : Nat) : (s.countF r hi lo n).morph = s.morph := rfl
@[simp] theorem State.countF_router (s : State) (r : Reg) (hi lo n : Nat) : (s.countF r hi lo n).router = s.router := rfl
@[simp] theorem State.countF_hif (s : State) (r : Reg) (hi lo n : Nat) : (s.countF r hi lo n).hif = s.hif := rfl
@[simp] theorem State.countF_clove (s : State) (r : Reg) (hi lo n : Nat) : (s.countF r hi lo n).clove = s.clove := rfl
@[simp] theorem State.countF_mig (s : State) (r : Reg) (hi lo n : Nat) : (s.countF r hi lo n).mig = s.mig := rfl
@[simp] theorem State.countF_bmx (s : State) (r : Reg) (hi lo n : Nat) : (s.countF r hi lo n).bmx = s.bmx := rfl
@[simp] theorem State.countF_reqs (s : State) (r : Reg) (hi lo n : Nat) : (s.countF r hi lo n).reqs = s.reqs := rfl
@[simp] theorem State.countF_portWait (s : State) (r : Reg) (hi lo n : Nat) : (s.countF r hi lo n).portWait = s.portWait := rfl
@[simp] theorem State.countF_nextReq (s : State) (r : Reg) (hi lo n : Nat) : (s.countF r hi lo n).nextReq = s.nextReq := rfl
@[simp] theorem State.countF_dma (s : State) (r : Reg) (hi lo n : Nat) : (s.countF r hi lo n).dma = s.dma := rfl
@[simp] theorem State.countF_ani (s : State) (r : Reg) (hi lo n : Nat) : (s.countF r hi lo n).ani = s.ani := rfl
@[simp] theorem State.countF_saps (s : State) (r : Reg) (hi lo n : Nat) : (s.countF r hi lo n).saps = s.saps := rfl
@[simp] theorem State.countF_aesRx (s : State) (r : Reg) (hi lo n : Nat) : (s.countF r hi lo n).aesRx = s.aesRx := rfl
@[simp] theorem State.countF_aesTx (s : State) (r : Reg) (hi lo n : Nat) : (s.countF r hi lo n).aesTx = s.aesTx := rfl
@[simp] theorem State.countF_src (s : State) (r : Reg) (hi lo n : Nat) : (s.countF r hi lo n).src = s.src := rfl
@[simp] theorem State.countF_dng (s : State) (r : Reg) (hi lo n : Nat) : (s.countF r hi lo n).dng = s.dng := rfl
@[simp] theorem State.countF_macs (s : State) (r : Reg) (hi lo n : Nat) : (s.countF r hi lo n).macs = s.macs := rfl
@[simp] theorem State.countF_strmRx (s : State) (r : Reg) (hi lo n : Nat) : (s.countF r hi lo n).strmRx = s.strmRx := rfl
@[simp] theorem State.countF_strmTx (s : State) (r : Reg) (hi lo n : Nat) : (s.countF r hi lo n).strmTx = s.strmTx := rfl
@[simp] theorem State.countF_saf (s : State) (r : Reg) (hi lo n : Nat) : (s.countF r hi lo n).saf = s.saf := rfl
@[simp] theorem State.countF_house (s : State) (r : Reg) (hi lo n : Nat) : (s.countF r hi lo n).house = s.house := rfl
@[simp] theorem State.countF_pwr (s : State) (r : Reg) (hi lo n : Nat) : (s.countF r hi lo n).pwr = s.pwr := rfl
@[simp] theorem State.countF_boot (s : State) (r : Reg) (hi lo n : Nat) : (s.countF r hi lo n).boot = s.boot := rfl
@[simp] theorem State.countF_io33 (s : State) (r : Reg) (hi lo n : Nat) : (s.countF r hi lo n).io33 = s.io33 := rfl
@[simp] theorem State.countF_rep (s : State) (r : Reg) (hi lo n : Nat) : (s.countF r hi lo n).rep = s.rep := rfl
@[simp] theorem State.countF_stc (s : State) (r : Reg) (hi lo n : Nat) : (s.countF r hi lo n).stc = s.stc := rfl
@[simp] theorem State.countF_steer (s : State) (r : Reg) (hi lo n : Nat) : (s.countF r hi lo n).steer = s.steer := rfl
@[simp] theorem State.countF_slew (s : State) (r : Reg) (hi lo n : Nat) : (s.countF r hi lo n).slew = s.slew := rfl

/-! count changes only regs. -/

@[simp] theorem State.count_pending (s : State) (r : Reg) : (s.count r).pending = s.pending := rfl
@[simp] theorem State.count_now (s : State) (r : Reg) : (s.count r).now = s.now := rfl
@[simp] theorem State.count_free (s : State) (r : Reg) : (s.count r).free = s.free := rfl
@[simp] theorem State.count_rsp (s : State) (r : Reg) : (s.count r).rsp = s.rsp := rfl
@[simp] theorem State.count_mem (s : State) (r : Reg) : (s.count r).mem = s.mem := rfl
@[simp] theorem State.count_frame (s : State) (r : Reg) : (s.count r).frame = s.frame := rfl
@[simp] theorem State.count_engs (s : State) (r : Reg) : (s.count r).engs = s.engs := rfl
@[simp] theorem State.count_mtx (s : State) (r : Reg) : (s.count r).mtx = s.mtx := rfl
@[simp] theorem State.count_morph (s : State) (r : Reg) : (s.count r).morph = s.morph := rfl
@[simp] theorem State.count_router (s : State) (r : Reg) : (s.count r).router = s.router := rfl
@[simp] theorem State.count_hif (s : State) (r : Reg) : (s.count r).hif = s.hif := rfl
@[simp] theorem State.count_clove (s : State) (r : Reg) : (s.count r).clove = s.clove := rfl
@[simp] theorem State.count_mig (s : State) (r : Reg) : (s.count r).mig = s.mig := rfl
@[simp] theorem State.count_bmx (s : State) (r : Reg) : (s.count r).bmx = s.bmx := rfl
@[simp] theorem State.count_reqs (s : State) (r : Reg) : (s.count r).reqs = s.reqs := rfl
@[simp] theorem State.count_portWait (s : State) (r : Reg) : (s.count r).portWait = s.portWait := rfl
@[simp] theorem State.count_nextReq (s : State) (r : Reg) : (s.count r).nextReq = s.nextReq := rfl
@[simp] theorem State.count_dma (s : State) (r : Reg) : (s.count r).dma = s.dma := rfl
@[simp] theorem State.count_ani (s : State) (r : Reg) : (s.count r).ani = s.ani := rfl
@[simp] theorem State.count_saps (s : State) (r : Reg) : (s.count r).saps = s.saps := rfl
@[simp] theorem State.count_aesRx (s : State) (r : Reg) : (s.count r).aesRx = s.aesRx := rfl
@[simp] theorem State.count_aesTx (s : State) (r : Reg) : (s.count r).aesTx = s.aesTx := rfl
@[simp] theorem State.count_src (s : State) (r : Reg) : (s.count r).src = s.src := rfl
@[simp] theorem State.count_dng (s : State) (r : Reg) : (s.count r).dng = s.dng := rfl
@[simp] theorem State.count_macs (s : State) (r : Reg) : (s.count r).macs = s.macs := rfl
@[simp] theorem State.count_strmRx (s : State) (r : Reg) : (s.count r).strmRx = s.strmRx := rfl
@[simp] theorem State.count_strmTx (s : State) (r : Reg) : (s.count r).strmTx = s.strmTx := rfl
@[simp] theorem State.count_saf (s : State) (r : Reg) : (s.count r).saf = s.saf := rfl
@[simp] theorem State.count_house (s : State) (r : Reg) : (s.count r).house = s.house := rfl
@[simp] theorem State.count_pwr (s : State) (r : Reg) : (s.count r).pwr = s.pwr := rfl
@[simp] theorem State.count_boot (s : State) (r : Reg) : (s.count r).boot = s.boot := rfl
@[simp] theorem State.count_io33 (s : State) (r : Reg) : (s.count r).io33 = s.io33 := rfl
@[simp] theorem State.count_rep (s : State) (r : Reg) : (s.count r).rep = s.rep := rfl
@[simp] theorem State.count_stc (s : State) (r : Reg) : (s.count r).stc = s.stc := rfl
@[simp] theorem State.count_steer (s : State) (r : Reg) : (s.count r).steer = s.steer := rfl
@[simp] theorem State.count_slew (s : State) (r : Reg) : (s.count r).slew = s.slew := rfl

/-! respond changes only rsp. -/

@[simp] theorem State.respond_pending (s : State) (d : Word) (e : Bool) : (s.respond d e).pending = s.pending := rfl
@[simp] theorem State.respond_now (s : State) (d : Word) (e : Bool) : (s.respond d e).now = s.now := rfl
@[simp] theorem State.respond_free (s : State) (d : Word) (e : Bool) : (s.respond d e).free = s.free := rfl
@[simp] theorem State.respond_regs (s : State) (d : Word) (e : Bool) : (s.respond d e).regs = s.regs := rfl
@[simp] theorem State.respond_mem (s : State) (d : Word) (e : Bool) : (s.respond d e).mem = s.mem := rfl
@[simp] theorem State.respond_frame (s : State) (d : Word) (e : Bool) : (s.respond d e).frame = s.frame := rfl
@[simp] theorem State.respond_engs (s : State) (d : Word) (e : Bool) : (s.respond d e).engs = s.engs := rfl
@[simp] theorem State.respond_mtx (s : State) (d : Word) (e : Bool) : (s.respond d e).mtx = s.mtx := rfl
@[simp] theorem State.respond_morph (s : State) (d : Word) (e : Bool) : (s.respond d e).morph = s.morph := rfl
@[simp] theorem State.respond_router (s : State) (d : Word) (e : Bool) : (s.respond d e).router = s.router := rfl
@[simp] theorem State.respond_hif (s : State) (d : Word) (e : Bool) : (s.respond d e).hif = s.hif := rfl
@[simp] theorem State.respond_clove (s : State) (d : Word) (e : Bool) : (s.respond d e).clove = s.clove := rfl
@[simp] theorem State.respond_mig (s : State) (d : Word) (e : Bool) : (s.respond d e).mig = s.mig := rfl
@[simp] theorem State.respond_bmx (s : State) (d : Word) (e : Bool) : (s.respond d e).bmx = s.bmx := rfl
@[simp] theorem State.respond_reqs (s : State) (d : Word) (e : Bool) : (s.respond d e).reqs = s.reqs := rfl
@[simp] theorem State.respond_portWait (s : State) (d : Word) (e : Bool) : (s.respond d e).portWait = s.portWait := rfl
@[simp] theorem State.respond_nextReq (s : State) (d : Word) (e : Bool) : (s.respond d e).nextReq = s.nextReq := rfl
@[simp] theorem State.respond_dma (s : State) (d : Word) (e : Bool) : (s.respond d e).dma = s.dma := rfl
@[simp] theorem State.respond_ani (s : State) (d : Word) (e : Bool) : (s.respond d e).ani = s.ani := rfl
@[simp] theorem State.respond_saps (s : State) (d : Word) (e : Bool) : (s.respond d e).saps = s.saps := rfl
@[simp] theorem State.respond_aesRx (s : State) (d : Word) (e : Bool) : (s.respond d e).aesRx = s.aesRx := rfl
@[simp] theorem State.respond_aesTx (s : State) (d : Word) (e : Bool) : (s.respond d e).aesTx = s.aesTx := rfl
@[simp] theorem State.respond_src (s : State) (d : Word) (e : Bool) : (s.respond d e).src = s.src := rfl
@[simp] theorem State.respond_dng (s : State) (d : Word) (e : Bool) : (s.respond d e).dng = s.dng := rfl
@[simp] theorem State.respond_macs (s : State) (d : Word) (e : Bool) : (s.respond d e).macs = s.macs := rfl
@[simp] theorem State.respond_strmRx (s : State) (d : Word) (e : Bool) : (s.respond d e).strmRx = s.strmRx := rfl
@[simp] theorem State.respond_strmTx (s : State) (d : Word) (e : Bool) : (s.respond d e).strmTx = s.strmTx := rfl
@[simp] theorem State.respond_saf (s : State) (d : Word) (e : Bool) : (s.respond d e).saf = s.saf := rfl
@[simp] theorem State.respond_house (s : State) (d : Word) (e : Bool) : (s.respond d e).house = s.house := rfl
@[simp] theorem State.respond_pwr (s : State) (d : Word) (e : Bool) : (s.respond d e).pwr = s.pwr := rfl
@[simp] theorem State.respond_boot (s : State) (d : Word) (e : Bool) : (s.respond d e).boot = s.boot := rfl
@[simp] theorem State.respond_io33 (s : State) (d : Word) (e : Bool) : (s.respond d e).io33 = s.io33 := rfl
@[simp] theorem State.respond_rep (s : State) (d : Word) (e : Bool) : (s.respond d e).rep = s.rep := rfl
@[simp] theorem State.respond_stc (s : State) (d : Word) (e : Bool) : (s.respond d e).stc = s.stc := rfl
@[simp] theorem State.respond_steer (s : State) (d : Word) (e : Bool) : (s.respond d e).steer = s.steer := rfl
@[simp] theorem State.respond_slew (s : State) (d : Word) (e : Bool) : (s.respond d e).slew = s.slew := rfl

/-! respondBeats changes only rsp. -/

@[simp] theorem State.respondBeats_pending (s : State) (d : List (BitVec 256)) (e : Bool) : (s.respondBeats d e).pending = s.pending := rfl
@[simp] theorem State.respondBeats_now (s : State) (d : List (BitVec 256)) (e : Bool) : (s.respondBeats d e).now = s.now := rfl
@[simp] theorem State.respondBeats_free (s : State) (d : List (BitVec 256)) (e : Bool) : (s.respondBeats d e).free = s.free := rfl
@[simp] theorem State.respondBeats_regs (s : State) (d : List (BitVec 256)) (e : Bool) : (s.respondBeats d e).regs = s.regs := rfl
@[simp] theorem State.respondBeats_mem (s : State) (d : List (BitVec 256)) (e : Bool) : (s.respondBeats d e).mem = s.mem := rfl
@[simp] theorem State.respondBeats_frame (s : State) (d : List (BitVec 256)) (e : Bool) : (s.respondBeats d e).frame = s.frame := rfl
@[simp] theorem State.respondBeats_engs (s : State) (d : List (BitVec 256)) (e : Bool) : (s.respondBeats d e).engs = s.engs := rfl
@[simp] theorem State.respondBeats_mtx (s : State) (d : List (BitVec 256)) (e : Bool) : (s.respondBeats d e).mtx = s.mtx := rfl
@[simp] theorem State.respondBeats_morph (s : State) (d : List (BitVec 256)) (e : Bool) : (s.respondBeats d e).morph = s.morph := rfl
@[simp] theorem State.respondBeats_router (s : State) (d : List (BitVec 256)) (e : Bool) : (s.respondBeats d e).router = s.router := rfl
@[simp] theorem State.respondBeats_hif (s : State) (d : List (BitVec 256)) (e : Bool) : (s.respondBeats d e).hif = s.hif := rfl
@[simp] theorem State.respondBeats_clove (s : State) (d : List (BitVec 256)) (e : Bool) : (s.respondBeats d e).clove = s.clove := rfl
@[simp] theorem State.respondBeats_mig (s : State) (d : List (BitVec 256)) (e : Bool) : (s.respondBeats d e).mig = s.mig := rfl
@[simp] theorem State.respondBeats_bmx (s : State) (d : List (BitVec 256)) (e : Bool) : (s.respondBeats d e).bmx = s.bmx := rfl
@[simp] theorem State.respondBeats_reqs (s : State) (d : List (BitVec 256)) (e : Bool) : (s.respondBeats d e).reqs = s.reqs := rfl
@[simp] theorem State.respondBeats_portWait (s : State) (d : List (BitVec 256)) (e : Bool) : (s.respondBeats d e).portWait = s.portWait := rfl
@[simp] theorem State.respondBeats_nextReq (s : State) (d : List (BitVec 256)) (e : Bool) : (s.respondBeats d e).nextReq = s.nextReq := rfl
@[simp] theorem State.respondBeats_dma (s : State) (d : List (BitVec 256)) (e : Bool) : (s.respondBeats d e).dma = s.dma := rfl
@[simp] theorem State.respondBeats_ani (s : State) (d : List (BitVec 256)) (e : Bool) : (s.respondBeats d e).ani = s.ani := rfl
@[simp] theorem State.respondBeats_saps (s : State) (d : List (BitVec 256)) (e : Bool) : (s.respondBeats d e).saps = s.saps := rfl
@[simp] theorem State.respondBeats_aesRx (s : State) (d : List (BitVec 256)) (e : Bool) : (s.respondBeats d e).aesRx = s.aesRx := rfl
@[simp] theorem State.respondBeats_aesTx (s : State) (d : List (BitVec 256)) (e : Bool) : (s.respondBeats d e).aesTx = s.aesTx := rfl
@[simp] theorem State.respondBeats_src (s : State) (d : List (BitVec 256)) (e : Bool) : (s.respondBeats d e).src = s.src := rfl
@[simp] theorem State.respondBeats_dng (s : State) (d : List (BitVec 256)) (e : Bool) : (s.respondBeats d e).dng = s.dng := rfl
@[simp] theorem State.respondBeats_macs (s : State) (d : List (BitVec 256)) (e : Bool) : (s.respondBeats d e).macs = s.macs := rfl
@[simp] theorem State.respondBeats_strmRx (s : State) (d : List (BitVec 256)) (e : Bool) : (s.respondBeats d e).strmRx = s.strmRx := rfl
@[simp] theorem State.respondBeats_strmTx (s : State) (d : List (BitVec 256)) (e : Bool) : (s.respondBeats d e).strmTx = s.strmTx := rfl
@[simp] theorem State.respondBeats_saf (s : State) (d : List (BitVec 256)) (e : Bool) : (s.respondBeats d e).saf = s.saf := rfl
@[simp] theorem State.respondBeats_house (s : State) (d : List (BitVec 256)) (e : Bool) : (s.respondBeats d e).house = s.house := rfl
@[simp] theorem State.respondBeats_pwr (s : State) (d : List (BitVec 256)) (e : Bool) : (s.respondBeats d e).pwr = s.pwr := rfl
@[simp] theorem State.respondBeats_boot (s : State) (d : List (BitVec 256)) (e : Bool) : (s.respondBeats d e).boot = s.boot := rfl
@[simp] theorem State.respondBeats_io33 (s : State) (d : List (BitVec 256)) (e : Bool) : (s.respondBeats d e).io33 = s.io33 := rfl
@[simp] theorem State.respondBeats_rep (s : State) (d : List (BitVec 256)) (e : Bool) : (s.respondBeats d e).rep = s.rep := rfl
@[simp] theorem State.respondBeats_stc (s : State) (d : List (BitVec 256)) (e : Bool) : (s.respondBeats d e).stc = s.stc := rfl
@[simp] theorem State.respondBeats_steer (s : State) (d : List (BitVec 256)) (e : Bool) : (s.respondBeats d e).steer = s.steer := rfl
@[simp] theorem State.respondBeats_slew (s : State) (d : List (BitVec 256)) (e : Bool) : (s.respondBeats d e).slew = s.slew := rfl

/-! setEng changes only engs. -/

@[simp] theorem State.setEng_pending (s : State) (e : Nat) (g : Engine) : (s.setEng e g).pending = s.pending := rfl
@[simp] theorem State.setEng_now (s : State) (e : Nat) (g : Engine) : (s.setEng e g).now = s.now := rfl
@[simp] theorem State.setEng_free (s : State) (e : Nat) (g : Engine) : (s.setEng e g).free = s.free := rfl
@[simp] theorem State.setEng_rsp (s : State) (e : Nat) (g : Engine) : (s.setEng e g).rsp = s.rsp := rfl
@[simp] theorem State.setEng_regs (s : State) (e : Nat) (g : Engine) : (s.setEng e g).regs = s.regs := rfl
@[simp] theorem State.setEng_mem (s : State) (e : Nat) (g : Engine) : (s.setEng e g).mem = s.mem := rfl
@[simp] theorem State.setEng_frame (s : State) (e : Nat) (g : Engine) : (s.setEng e g).frame = s.frame := rfl
@[simp] theorem State.setEng_mtx (s : State) (e : Nat) (g : Engine) : (s.setEng e g).mtx = s.mtx := rfl
@[simp] theorem State.setEng_morph (s : State) (e : Nat) (g : Engine) : (s.setEng e g).morph = s.morph := rfl
@[simp] theorem State.setEng_router (s : State) (e : Nat) (g : Engine) : (s.setEng e g).router = s.router := rfl
@[simp] theorem State.setEng_hif (s : State) (e : Nat) (g : Engine) : (s.setEng e g).hif = s.hif := rfl
@[simp] theorem State.setEng_clove (s : State) (e : Nat) (g : Engine) : (s.setEng e g).clove = s.clove := rfl
@[simp] theorem State.setEng_mig (s : State) (e : Nat) (g : Engine) : (s.setEng e g).mig = s.mig := rfl
@[simp] theorem State.setEng_bmx (s : State) (e : Nat) (g : Engine) : (s.setEng e g).bmx = s.bmx := rfl
@[simp] theorem State.setEng_reqs (s : State) (e : Nat) (g : Engine) : (s.setEng e g).reqs = s.reqs := rfl
@[simp] theorem State.setEng_portWait (s : State) (e : Nat) (g : Engine) : (s.setEng e g).portWait = s.portWait := rfl
@[simp] theorem State.setEng_nextReq (s : State) (e : Nat) (g : Engine) : (s.setEng e g).nextReq = s.nextReq := rfl
@[simp] theorem State.setEng_dma (s : State) (e : Nat) (g : Engine) : (s.setEng e g).dma = s.dma := rfl
@[simp] theorem State.setEng_ani (s : State) (e : Nat) (g : Engine) : (s.setEng e g).ani = s.ani := rfl
@[simp] theorem State.setEng_saps (s : State) (e : Nat) (g : Engine) : (s.setEng e g).saps = s.saps := rfl
@[simp] theorem State.setEng_aesRx (s : State) (e : Nat) (g : Engine) : (s.setEng e g).aesRx = s.aesRx := rfl
@[simp] theorem State.setEng_aesTx (s : State) (e : Nat) (g : Engine) : (s.setEng e g).aesTx = s.aesTx := rfl
@[simp] theorem State.setEng_src (s : State) (e : Nat) (g : Engine) : (s.setEng e g).src = s.src := rfl
@[simp] theorem State.setEng_dng (s : State) (e : Nat) (g : Engine) : (s.setEng e g).dng = s.dng := rfl
@[simp] theorem State.setEng_macs (s : State) (e : Nat) (g : Engine) : (s.setEng e g).macs = s.macs := rfl
@[simp] theorem State.setEng_strmRx (s : State) (e : Nat) (g : Engine) : (s.setEng e g).strmRx = s.strmRx := rfl
@[simp] theorem State.setEng_strmTx (s : State) (e : Nat) (g : Engine) : (s.setEng e g).strmTx = s.strmTx := rfl
@[simp] theorem State.setEng_saf (s : State) (e : Nat) (g : Engine) : (s.setEng e g).saf = s.saf := rfl
@[simp] theorem State.setEng_house (s : State) (e : Nat) (g : Engine) : (s.setEng e g).house = s.house := rfl
@[simp] theorem State.setEng_pwr (s : State) (e : Nat) (g : Engine) : (s.setEng e g).pwr = s.pwr := rfl
@[simp] theorem State.setEng_boot (s : State) (e : Nat) (g : Engine) : (s.setEng e g).boot = s.boot := rfl
@[simp] theorem State.setEng_io33 (s : State) (e : Nat) (g : Engine) : (s.setEng e g).io33 = s.io33 := rfl
@[simp] theorem State.setEng_rep (s : State) (e : Nat) (g : Engine) : (s.setEng e g).rep = s.rep := rfl
@[simp] theorem State.setEng_stc (s : State) (e : Nat) (g : Engine) : (s.setEng e g).stc = s.stc := rfl
@[simp] theorem State.setEng_steer (s : State) (e : Nat) (g : Engine) : (s.setEng e g).steer = s.steer := rfl
@[simp] theorem State.setEng_slew (s : State) (e : Nat) (g : Engine) : (s.setEng e g).slew = s.slew := rfl

/-! updEng changes only engs. -/

@[simp] theorem State.updEng_pending (s : State) (e : Nat) (f : Engine → Engine) : (s.updEng e f).pending = s.pending := rfl
@[simp] theorem State.updEng_now (s : State) (e : Nat) (f : Engine → Engine) : (s.updEng e f).now = s.now := rfl
@[simp] theorem State.updEng_free (s : State) (e : Nat) (f : Engine → Engine) : (s.updEng e f).free = s.free := rfl
@[simp] theorem State.updEng_rsp (s : State) (e : Nat) (f : Engine → Engine) : (s.updEng e f).rsp = s.rsp := rfl
@[simp] theorem State.updEng_regs (s : State) (e : Nat) (f : Engine → Engine) : (s.updEng e f).regs = s.regs := rfl
@[simp] theorem State.updEng_mem (s : State) (e : Nat) (f : Engine → Engine) : (s.updEng e f).mem = s.mem := rfl
@[simp] theorem State.updEng_frame (s : State) (e : Nat) (f : Engine → Engine) : (s.updEng e f).frame = s.frame := rfl
@[simp] theorem State.updEng_mtx (s : State) (e : Nat) (f : Engine → Engine) : (s.updEng e f).mtx = s.mtx := rfl
@[simp] theorem State.updEng_morph (s : State) (e : Nat) (f : Engine → Engine) : (s.updEng e f).morph = s.morph := rfl
@[simp] theorem State.updEng_router (s : State) (e : Nat) (f : Engine → Engine) : (s.updEng e f).router = s.router := rfl
@[simp] theorem State.updEng_hif (s : State) (e : Nat) (f : Engine → Engine) : (s.updEng e f).hif = s.hif := rfl
@[simp] theorem State.updEng_clove (s : State) (e : Nat) (f : Engine → Engine) : (s.updEng e f).clove = s.clove := rfl
@[simp] theorem State.updEng_mig (s : State) (e : Nat) (f : Engine → Engine) : (s.updEng e f).mig = s.mig := rfl
@[simp] theorem State.updEng_bmx (s : State) (e : Nat) (f : Engine → Engine) : (s.updEng e f).bmx = s.bmx := rfl
@[simp] theorem State.updEng_reqs (s : State) (e : Nat) (f : Engine → Engine) : (s.updEng e f).reqs = s.reqs := rfl
@[simp] theorem State.updEng_portWait (s : State) (e : Nat) (f : Engine → Engine) : (s.updEng e f).portWait = s.portWait := rfl
@[simp] theorem State.updEng_nextReq (s : State) (e : Nat) (f : Engine → Engine) : (s.updEng e f).nextReq = s.nextReq := rfl
@[simp] theorem State.updEng_dma (s : State) (e : Nat) (f : Engine → Engine) : (s.updEng e f).dma = s.dma := rfl
@[simp] theorem State.updEng_ani (s : State) (e : Nat) (f : Engine → Engine) : (s.updEng e f).ani = s.ani := rfl
@[simp] theorem State.updEng_saps (s : State) (e : Nat) (f : Engine → Engine) : (s.updEng e f).saps = s.saps := rfl
@[simp] theorem State.updEng_aesRx (s : State) (e : Nat) (f : Engine → Engine) : (s.updEng e f).aesRx = s.aesRx := rfl
@[simp] theorem State.updEng_aesTx (s : State) (e : Nat) (f : Engine → Engine) : (s.updEng e f).aesTx = s.aesTx := rfl
@[simp] theorem State.updEng_src (s : State) (e : Nat) (f : Engine → Engine) : (s.updEng e f).src = s.src := rfl
@[simp] theorem State.updEng_dng (s : State) (e : Nat) (f : Engine → Engine) : (s.updEng e f).dng = s.dng := rfl
@[simp] theorem State.updEng_macs (s : State) (e : Nat) (f : Engine → Engine) : (s.updEng e f).macs = s.macs := rfl
@[simp] theorem State.updEng_strmRx (s : State) (e : Nat) (f : Engine → Engine) : (s.updEng e f).strmRx = s.strmRx := rfl
@[simp] theorem State.updEng_strmTx (s : State) (e : Nat) (f : Engine → Engine) : (s.updEng e f).strmTx = s.strmTx := rfl
@[simp] theorem State.updEng_saf (s : State) (e : Nat) (f : Engine → Engine) : (s.updEng e f).saf = s.saf := rfl
@[simp] theorem State.updEng_house (s : State) (e : Nat) (f : Engine → Engine) : (s.updEng e f).house = s.house := rfl
@[simp] theorem State.updEng_pwr (s : State) (e : Nat) (f : Engine → Engine) : (s.updEng e f).pwr = s.pwr := rfl
@[simp] theorem State.updEng_boot (s : State) (e : Nat) (f : Engine → Engine) : (s.updEng e f).boot = s.boot := rfl
@[simp] theorem State.updEng_io33 (s : State) (e : Nat) (f : Engine → Engine) : (s.updEng e f).io33 = s.io33 := rfl
@[simp] theorem State.updEng_rep (s : State) (e : Nat) (f : Engine → Engine) : (s.updEng e f).rep = s.rep := rfl
@[simp] theorem State.updEng_stc (s : State) (e : Nat) (f : Engine → Engine) : (s.updEng e f).stc = s.stc := rfl
@[simp] theorem State.updEng_steer (s : State) (e : Nat) (f : Engine → Engine) : (s.updEng e f).steer = s.steer := rfl
@[simp] theorem State.updEng_slew (s : State) (e : Nat) (f : Engine → Engine) : (s.updEng e f).slew = s.slew := rfl

/-! settle changes only hif. -/

@[simp] theorem State.settle_pending (s : State) : s.settle.pending = s.pending := rfl
@[simp] theorem State.settle_now (s : State) : s.settle.now = s.now := rfl
@[simp] theorem State.settle_free (s : State) : s.settle.free = s.free := rfl
@[simp] theorem State.settle_rsp (s : State) : s.settle.rsp = s.rsp := rfl
@[simp] theorem State.settle_regs (s : State) : s.settle.regs = s.regs := rfl
@[simp] theorem State.settle_mem (s : State) : s.settle.mem = s.mem := rfl
@[simp] theorem State.settle_frame (s : State) : s.settle.frame = s.frame := rfl
@[simp] theorem State.settle_engs (s : State) : s.settle.engs = s.engs := rfl
@[simp] theorem State.settle_mtx (s : State) : s.settle.mtx = s.mtx := rfl
@[simp] theorem State.settle_morph (s : State) : s.settle.morph = s.morph := rfl
@[simp] theorem State.settle_router (s : State) : s.settle.router = s.router := rfl
@[simp] theorem State.settle_clove (s : State) : s.settle.clove = s.clove := rfl
@[simp] theorem State.settle_mig (s : State) : s.settle.mig = s.mig := rfl
@[simp] theorem State.settle_bmx (s : State) : s.settle.bmx = s.bmx := rfl
@[simp] theorem State.settle_reqs (s : State) : s.settle.reqs = s.reqs := rfl
@[simp] theorem State.settle_portWait (s : State) : s.settle.portWait = s.portWait := rfl
@[simp] theorem State.settle_nextReq (s : State) : s.settle.nextReq = s.nextReq := rfl
@[simp] theorem State.settle_dma (s : State) : s.settle.dma = s.dma := rfl
@[simp] theorem State.settle_ani (s : State) : s.settle.ani = s.ani := rfl
@[simp] theorem State.settle_saps (s : State) : s.settle.saps = s.saps := rfl
@[simp] theorem State.settle_aesRx (s : State) : s.settle.aesRx = s.aesRx := rfl
@[simp] theorem State.settle_aesTx (s : State) : s.settle.aesTx = s.aesTx := rfl
@[simp] theorem State.settle_src (s : State) : s.settle.src = s.src := rfl
@[simp] theorem State.settle_dng (s : State) : s.settle.dng = s.dng := rfl
@[simp] theorem State.settle_macs (s : State) : s.settle.macs = s.macs := rfl
@[simp] theorem State.settle_strmRx (s : State) : s.settle.strmRx = s.strmRx := rfl
@[simp] theorem State.settle_strmTx (s : State) : s.settle.strmTx = s.strmTx := rfl
@[simp] theorem State.settle_saf (s : State) : s.settle.saf = s.saf := rfl
@[simp] theorem State.settle_house (s : State) : s.settle.house = s.house := rfl
@[simp] theorem State.settle_pwr (s : State) : s.settle.pwr = s.pwr := rfl
@[simp] theorem State.settle_boot (s : State) : s.settle.boot = s.boot := rfl
@[simp] theorem State.settle_io33 (s : State) : s.settle.io33 = s.io33 := rfl
@[simp] theorem State.settle_rep (s : State) : s.settle.rep = s.rep := rfl
@[simp] theorem State.settle_stc (s : State) : s.settle.stc = s.stc := rfl
@[simp] theorem State.settle_steer (s : State) : s.settle.steer = s.steer := rfl
@[simp] theorem State.settle_slew (s : State) : s.settle.slew = s.slew := rfl

/-! Registers. -/

@[simp] theorem State.rd_wr_same (s : State) (r : Reg) (v : Word) : (s.wr r v).rd r = v :=
  sget_sset_same r.reset s.regs r.addr v

/-- A write to one address leaves the registers at every other address. -/
theorem State.rd_wr_other (s : State) {r q : Reg} (v : Word) (h : q.addr ≠ r.addr) : (s.wr r v).rd q = s.rd q :=
  sget_sset_other q.reset r.reset s.regs v h

/-- Reading registers depends on the register map alone. -/
theorem State.rd_congr {s t : State} (h : s.regs = t.regs) (r : Reg) : s.rd r = t.rd r := by
  unfold State.rd; rw [h]

@[simp] theorem State.rd_settle (s : State) (r : Reg) : s.settle.rd r = s.rd r := rfl
@[simp] theorem State.rdF_settle (s : State) (r : Reg) (hi lo : Nat) : s.settle.rdF r hi lo = s.rdF r hi lo := rfl
@[simp] theorem State.rdB_settle (s : State) (r : Reg) (i : Nat) : s.settle.rdB r i = s.rdB r i := rfl
@[simp] theorem State.rd_respond (s : State) (d : Word) (e : Bool) (r : Reg) : (s.respond d e).rd r = s.rd r := rfl
@[simp] theorem State.rd_respondBeats (s : State) (d : List (BitVec 256)) (e : Bool) (r : Reg) :
    (s.respondBeats d e).rd r = s.rd r := rfl
@[simp] theorem State.rd_setEng (s : State) (e : Nat) (g : Engine) (r : Reg) : (s.setEng e g).rd r = s.rd r := rfl
@[simp] theorem State.rd_updEng (s : State) (e : Nat) (f : Engine → Engine) (r : Reg) :
    (s.updEng e f).rd r = s.rd r := rfl

@[simp] theorem State.rd_upd_same (s : State) (r : Reg) (f : Word → Word) : (s.upd r f).rd r = f (s.rd r) :=
  State.rd_wr_same s r _
theorem State.rd_upd_other (s : State) {r q : Reg} (f : Word → Word) (h : q.addr ≠ r.addr) :
    (s.upd r f).rd q = s.rd q := State.rd_wr_other s _ h

@[simp] theorem State.rd_raise_same (s : State) (r : Reg) (m : Word) : (s.raise r m).rd r = s.rd r ||| m :=
  State.rd_upd_same s r _
theorem State.rd_raise_other (s : State) {r q : Reg} (m : Word) (h : q.addr ≠ r.addr) :
    (s.raise r m).rd q = s.rd q := State.rd_wr_other s _ h

@[simp] theorem State.rd_wrF_same (s : State) (r : Reg) (hi lo v : Nat) :
    (s.wrF r hi lo v).rd r = setBits (s.rd r) hi lo v := State.rd_upd_same s r _
theorem State.rd_wrF_other (s : State) {r q : Reg} (hi lo v : Nat) (h : q.addr ≠ r.addr) :
    (s.wrF r hi lo v).rd q = s.rd q := State.rd_wr_other s _ h

@[simp] theorem State.rd_wrB_same (s : State) (r : Reg) (i : Nat) (b : Bool) :
    (s.wrB r i b).rd r = setBit (s.rd r) i b := State.rd_upd_same s r _
theorem State.rd_wrB_other (s : State) {r q : Reg} (i : Nat) (b : Bool) (h : q.addr ≠ r.addr) :
    (s.wrB r i b).rd q = s.rd q := State.rd_wr_other s _ h

@[simp] theorem State.rd_countF_same (s : State) (r : Reg) (hi lo n : Nat) :
    (s.countF r hi lo n).rd r = setBits (s.rd r) hi lo (min (bits (s.rd r) hi lo + n) (2 ^ (hi + 1 - lo) - 1)) :=
  State.rd_upd_same s r _
theorem State.rd_countF_other (s : State) {r q : Reg} (hi lo n : Nat) (h : q.addr ≠ r.addr) :
    (s.countF r hi lo n).rd q = s.rd q := State.rd_wr_other s _ h
theorem State.rd_count_other (s : State) {r q : Reg} (h : q.addr ≠ r.addr) : (s.count r).rd q = s.rd q :=
  State.rd_wr_other s _ h

/-- A maximum touches no other register. -/
theorem State.rd_maxF_other (s : State) {r q : Reg} (hi lo v : Nat) (h : q.addr ≠ r.addr) :
    (s.maxF r hi lo v).rd q = s.rd q := by
  unfold State.maxF
  simp only
  split
  all_goals first
    | rfl
    | exact State.rd_wrF_other s _ _ _ h
    | (split <;> first | rfl | exact State.rd_wrF_other s _ _ _ h)

/-! Bits of a word. -/

@[simp] theorem bit_or (v w : Word) (i : Nat) : bit (v ||| w) i = (bit v i || bit w i) := by
  simp [bit]

theorem bit_ofNat_two_pow (i j : Nat) : (BitVec.ofNat 32 (2 ^ i)).getLsbD j = (decide (j < 32) && decide (i = j)) := by
  rw [BitVec.getLsbD_ofNat, Nat.testBit_two_pow]

theorem bit_setBit_same (w : Word) {i : Nat} (h : i < 32) (b : Bool) : bit (setBit w i b) i = b := by
  cases b <;> simp only [bit, setBit, Bool.false_eq_true, if_false, if_true, BitVec.getLsbD_or, BitVec.getLsbD_and,
    BitVec.getLsbD_not, bit_ofNat_two_pow] <;> simp [h]

theorem bit_setBit_other (w : Word) {i j : Nat} (h : j ≠ i) (b : Bool) : bit (setBit w i b) j = bit w j := by
  by_cases hj : j < 32
  · cases b <;> simp only [bit, setBit, Bool.false_eq_true, if_false, if_true, BitVec.getLsbD_or, BitVec.getLsbD_and,
      BitVec.getLsbD_not, bit_ofNat_two_pow] <;> simp [hj, h.symm]
  · simp only [bit]
    rw [BitVec.getLsbD_of_ge _ j (by omega), BitVec.getLsbD_of_ge _ j (by omega)]

/-! Engines. -/

@[simp] theorem State.eng_setEng_same (s : State) (e : Nat) (g : Engine) : (s.setEng e g).eng e = g :=
  sget_sset_same ({} : Engine) s.engs e g
theorem State.eng_setEng_other (s : State) {e f : Nat} (g : Engine) (h : f ≠ e) : (s.setEng e g).eng f = s.eng f :=
  sget_sset_other ({} : Engine) {} s.engs g h
@[simp] theorem State.eng_updEng_same (s : State) (e : Nat) (f : Engine → Engine) : (s.updEng e f).eng e = f (s.eng e) :=
  State.eng_setEng_same s e _
@[simp] theorem State.eng_wr (s : State) (r : Reg) (v : Word) (e : Nat) : (s.wr r v).eng e = s.eng e := rfl
@[simp] theorem State.eng_settle (s : State) (e : Nat) : s.settle.eng e = s.eng e := rfl
@[simp] theorem State.eng_respond (s : State) (d : Word) (b : Bool) (e : Nat) : (s.respond d b).eng e = s.eng e := rfl

/-! The end of every command. -/

theorem done_eq (s : State) : done s = .next s.settle := rfl

theorem vecHif_fold (s : State) (h0 : Hif) (l : List Nat) :
    (l.foldl (fun h v =>
      let c := s.vecCond v
      let h' := if c && !(s.hif.cond.contains v) then h.send (s.vecFn v) v else h
      { h' with cond := if c then h'.cond ++ [v] else h'.cond }) h0).cond = h0.cond ++ l.filter (fun v => s.vecCond v) := by
  induction l generalizing h0 with
  | nil => simp
  | cons v l ih =>
    rw [List.foldl_cons, ih]
    have hs : ∀ b : Bool, (if b then h0.send (s.vecFn v) v else h0).cond = h0.cond := by
      intro b
      cases b
      · rfl
      · unfold Hif.send Hif.setMsix
        simp only [if_true]
        split <;> split <;> first | rfl | (split <;> rfl)
    cases hc : s.vecCond v
    · simp [hc]
    · simp only [Bool.true_and, if_true]
      rw [hs]
      simp [List.append_assoc, hc]

/-- After a command, the recorded vectors are those whose condition holds (R352). -/
theorem State.settle_cond (s : State) : s.settle.hif.cond = vectors.filter (fun v => s.settle.vecCond v) := by
  show s.vecHif.cond = _
  unfold State.vecHif
  rw [vecHif_fold]
  rfl

end Sys2Proof.Machine
end

