-- ==== Sys2Proof/Laws/Clove.lean ====
section
/-! SUPPORT. What Clove's operations leave as it was: the engines and the memory. -/

namespace Sys2Proof.Machine

/-- The engines, the memory and the engine cycle are as they were. -/
def Keeps (s t : State) : Prop := t.engs = s.engs ∧ t.mem = s.mem ∧ t.now = s.now

theorem Keeps.refl (s : State) : Keeps s s := ⟨rfl, rfl, rfl⟩

theorem Keeps.trans {s t u : State} (h : Keeps s t) (k : Keeps t u) : Keeps s u :=
  ⟨k.1.trans h.1, k.2.1.trans h.2.1, k.2.2.trans h.2.2⟩

/-- A first change that keeps these fields by definition, then another. -/
theorem Keeps.after {s t u : State} (k : Keeps t u) (h1 : t.engs = s.engs) (h2 : t.mem = s.mem)
    (h3 : t.now = s.now) : Keeps s u := Keeps.trans ⟨h1, h2, h3⟩ k

theorem Keeps.eng {s t : State} (h : Keeps s t) (e : Nat) : t.eng e = s.eng e := by
  unfold State.eng; rw [h.1]

theorem keeps_maxF (s : State) (r : Reg) (hi lo v : Nat) : Keeps s (s.maxF r hi lo v) := by
  unfold State.maxF
  simp only
  split <;> (split <;> exact ⟨rfl, rfl, rfl⟩)

theorem keeps_each {α : Type} (s : State) (l : List α) (f : State → α → State) (h : ∀ s x, Keeps s (f s x)) :
    Keeps s (s.each l f) := by
  unfold State.each
  induction l generalizing s with
  | nil => exact .refl s
  | cons x l ih => exact (h s x).trans (ih (f s x))

theorem keeps_consumed (s : State) (v : Ev) : Keeps s (s.consumed v) := by
  unfold State.consumed
  split <;> exact ⟨rfl, rfl, rfl⟩

theorem keeps_dropStale (s : State) (v : Ev) : Keeps s (s.dropStale v) :=
  (keeps_consumed _ v).after rfl rfl rfl

theorem keeps_bgWaits (s : State) : Keeps s s.bgWaits := by
  unfold State.bgWaits
  split
  · split <;> exact ⟨rfl, rfl, rfl⟩
  · exact .refl s

theorem keeps_bgAdmitHost (n : Nat) (s : State) : Keeps s (State.bgAdmitHost n s) := by
  induction n generalizing s with
  | zero => exact .refl s
  | succ n ih =>
    unfold State.bgAdmitHost
    split
    · split
      · exact Keeps.trans ⟨rfl, rfl, rfl⟩ (ih _)
      · exact .refl s
    · exact .refl s

theorem keeps_cloveHost (s : State) : Keeps s s.cloveHost := by
  unfold State.cloveHost
  simp only
  split
  all_goals exact ((keeps_bgAdmitHost _ s).trans (keeps_bgWaits _)).trans ⟨rfl, rfl, rfl⟩

theorem keeps_acceptAs (s : State) (v : Ev) : Keeps s (s.acceptAs v) := by
  unfold State.acceptAs
  simp only
  split
  · exact (keeps_dropStale _ _).after rfl rfl rfl
  · split
    · exact (keeps_consumed _ _).after rfl rfl rfl
    · exact (keeps_cloveHost _).after rfl rfl rfl

theorem keeps_report (s : State) (e type cls : Nat) (w0 w1 : Word) : Keeps s (s.report e type cls w0 w1) := by
  unfold State.report
  simp only
  split
  · exact ⟨rfl, rfl, rfl⟩
  · exact keeps_acceptAs _ _

/-- A change that notes the buffers it frees keeps what the change keeps. -/
theorem keeps_freeing (s : State) (f : State → State) (h : Keeps s (f s)) : Keeps s (s.freeing f) := by
  unfold State.freeing
  simp only
  split
  · exact h
  · exact h.trans ⟨rfl, rfl, rfl⟩

theorem keeps_consumeOut (s : State) (e : Nat) : Keeps s (s.consumeOut e) := by
  unfold State.consumeOut
  split
  · exact .refl s
  · refine Keeps.trans ?_ (keeps_cloveHost _)
    exact (keeps_freeing s _ ⟨rfl, rfl, rfl⟩).trans (keeps_consumed _ _)

theorem keeps_sliceReports (s : State) (e sl : Nat) (b : Word) (o d : Bool) (sr : Word) (c : Nat) :
    Keeps s (s.sliceReports e sl b o d sr c) := by
  unfold State.sliceReports
  simp only
  have h1 : ∀ (s : State) (b : Bool) (t k : Nat) (w v : Word), Keeps s (if b then s.report e t k w v else s) := by
    intro s b t k w v
    cases b
    · exact .refl s
    · exact keeps_report s e t k w v
  exact ((h1 _ _ _ _ _ _).trans (h1 _ _ _ _ _ _)).trans (h1 _ _ _ _ _ _)

/-! Of the registers, Clove's operations touch Clove's own alone. -/

/-- The registers outside Clove's block are as they were. -/
def ClvOnly (s t : State) : Prop :=
  ∀ r : Reg, r.addr < 0x50030000 ∨ 0x50040000 ≤ r.addr → t.rd r = s.rd r

theorem ClvOnly.refl (s : State) : ClvOnly s s := fun _ _ => rfl
theorem ClvOnly.trans {s t u : State} (h : ClvOnly s t) (k : ClvOnly t u) : ClvOnly s u :=
  fun r hr => (k r hr).trans (h r hr)

theorem ClvOnly.after {s t u : State} (k : ClvOnly t u) (h : t.regs = s.regs) : ClvOnly s u :=
  fun r hr => (k r hr).trans (State.rd_congr h r)

theorem ClvOnly.before {s t u : State} (k : ClvOnly s t) (h : t.regs = u.regs) : ClvOnly s u :=
  fun r hr => (State.rd_congr h.symm r).trans (k r hr)

theorem ClvOnly.wr (s : State) (q : Reg) (v : Word) (h : 0x50030000 ≤ q.addr ∧ q.addr < 0x50040000) :
    ClvOnly s (s.wr q v) := fun _ hr => State.rd_wr_other s v (by omega)

theorem ClvOnly.upd (s : State) (q : Reg) (f : Word → Word) (h : 0x50030000 ≤ q.addr ∧ q.addr < 0x50040000) :
    ClvOnly s (s.upd q f) := ClvOnly.wr s q _ h

theorem clv_consumed (s : State) (v : Ev) : ClvOnly s (s.consumed v) := by
  unfold State.consumed
  split
  · exact .refl s
  · exact ClvOnly.before (ClvOnly.wr s CLV_SEQ_APPLIED _ (by decide)) rfl

theorem clv_dropStale (s : State) (v : Ev) : ClvOnly s (s.dropStale v) := by
  unfold State.dropStale
  refine ClvOnly.trans ?_ (clv_consumed _ v)
  refine ClvOnly.trans ?_ (ClvOnly.upd _ CLV_INT _ (by decide))
  exact (ClvOnly.upd (s.unqueue v) CLV_STALE_CNT _ (by decide)).after rfl

theorem clv_bgWaits (s : State) : ClvOnly s s.bgWaits := by
  unfold State.bgWaits
  split
  · split
    · exact ClvOnly.before (t := s.count CLV_BGWAIT_CNT) (ClvOnly.upd s CLV_BGWAIT_CNT _ (by decide)) rfl
    · exact .refl s
  · exact .refl s

theorem clv_bgAdmitHost (n : Nat) (s : State) : ClvOnly s (State.bgAdmitHost n s) := by
  induction n generalizing s with
  | zero => exact .refl s
  | succ n ih =>
    unfold State.bgAdmitHost
    split
    · split
      · refine ClvOnly.trans ?_ (ih _)
        exact ClvOnly.before (t := s.charge _) (ClvOnly.upd s CLV_BGALLOW _ (by decide)) rfl
      · exact .refl s
    · exact .refl s

theorem clv_cloveHost (s : State) : ClvOnly s s.cloveHost := by
  unfold State.cloveHost
  simp only
  have h := (clv_bgAdmitHost s.clove.queue.length s).trans (clv_bgWaits _)
  generalize (State.bgAdmitHost s.clove.queue.length s).bgWaits = t at h ⊢
  have h2 := (h.trans (ClvOnly.wr t (CLV_HNE 0) (t.hneBits 0) (by decide))).trans
    (ClvOnly.wr _ (CLV_HNE 1) (t.hneBits 1) (by decide))
  split
  · exact h2.trans (ClvOnly.upd _ CLV_INT _ (by decide))
  · exact h2

theorem clv_acceptAs (s : State) (v : Ev) : ClvOnly s (s.acceptAs v) := by
  unfold State.acceptAs
  simp only
  split
  · exact (clv_dropStale _ _).after rfl
  · split
    · exact (clv_consumed _ _).after rfl
    · exact (clv_cloveHost _).after rfl

theorem clv_report (s : State) (e type cls : Nat) (w0 w1 : Word) : ClvOnly s (s.report e type cls w0 w1) := by
  unfold State.report
  simp only
  split
  · exact (ClvOnly.upd s CLV_DROP_CNT _ (by decide)).trans (ClvOnly.upd _ CLV_INT _ (by decide))
  · exact clv_acceptAs _ _

theorem clv_freeing (s : State) (f : State → State) (h : ClvOnly s (f s)) : ClvOnly s (s.freeing f) := by
  unfold State.freeing
  simp only
  split
  · exact h
  · exact h.before rfl

theorem clv_consumeOut (s : State) (e : Nat) : ClvOnly s (s.consumeOut e) := by
  unfold State.consumeOut
  split
  · exact .refl s
  · refine ClvOnly.trans ?_ (clv_cloveHost _)
    refine (clv_freeing s _ ?_).trans (clv_consumed _ _)
    exact (ClvOnly.refl s).before rfl

theorem clv_sliceReports (s : State) (e sl : Nat) (b : Word) (o d : Bool) (sr : Word) (c : Nat) :
    ClvOnly s (s.sliceReports e sl b o d sr c) := by
  unfold State.sliceReports
  simp only
  have h1 : ∀ (s : State) (b : Bool) (t k : Nat) (w v : Word), ClvOnly s (if b then s.report e t k w v else s) := by
    intro s b t k w v
    cases b
    · exact .refl s
    · exact clv_report s e t k w v
  exact ((h1 _ _ _ _ _ _).trans (h1 _ _ _ _ _ _)).trans (h1 _ _ _ _ _ _)

end Sys2Proof.Machine
end

