-- ==== Sys2Proof/Laws/Issue.lean ====
section
/-! SUPPORT. What the slots of an issuing bundle and what follows them do to an engine: results go in flight, and
no register, neither set's nor the program's flow, changes before they land (R55, R56). -/

namespace Sys2Proof.Machine

/-- An engine that takes from another what the slots of a bundle may change: the accumulate path and the dither
generators, the results in flight, far requests, outbox notes, the glide index, a hold, and the bytes that the external
port is to write. -/
def slotMerge (g h : Engine) : Engine :=
  { g with main := { g.main with path := h.main.path, dith := h.main.dith },
           shadow := { g.shadow with path := h.shadow.path, dith := h.shadow.dith },
           flight := h.flight, far := h.far, obox := h.obox, gidx := h.gidx, wait := h.wait, waitAt := h.waitAt,
           xold := h.xold }

/-- A slot's step: nothing but those changes, and results in flight are added after the others. -/
def SlotStep (g h : Engine) : Prop := h = slotMerge g h ∧ ∃ fl, h.flight = g.flight ++ fl

theorem SlotStep.refl (g : Engine) : SlotStep g g := ⟨rfl, [], by simp⟩

theorem SlotStep.trans {g h k : Engine} (x : SlotStep g h) (y : SlotStep h k) : SlotStep g k := by
  obtain ⟨hx, fl, fx⟩ := x
  obtain ⟨hy, fl', fy⟩ := y
  refine ⟨?_, fl ++ fl', by rw [fy, fx, List.append_assoc]⟩
  rw [hx] at hy
  exact hy

theorem SlotStep.flight {g h : Engine} (x : SlotStep g h) {f : Flight} (hf : f ∈ g.flight) : f ∈ h.flight := by
  obtain ⟨_, fl, fx⟩ := x
  rw [fx]
  exact List.mem_append_left _ hf

theorem SlotStep.cyc {g h : Engine} (x : SlotStep g h) : h.cyc = g.cyc := by rw [x.1]; rfl
theorem SlotStep.inEvt {g h : Engine} (x : SlotStep g h) : h.inEvt = g.inEvt := by rw [x.1]; rfl
theorem SlotStep.halting {g h : Engine} (x : SlotStep g h) : h.halting = g.halting := by rw [x.1]; rfl
theorem SlotStep.pc {g h : Engine} (x : SlotStep g h) : h.pc = g.pc := by rw [x.1]; rfl
theorem SlotStep.epc {g h : Engine} (x : SlotStep g h) : h.epc = g.epc := by rw [x.1]; rfl
theorem SlotStep.rpt {g h : Engine} (x : SlotStep g h) : h.rpt = g.rpt := by rw [x.1]; rfl
theorem SlotStep.delay {g h : Engine} (x : SlotStep g h) : h.delay = g.delay := by rw [x.1]; rfl
theorem SlotStep.ext {g h : Engine} (x : SlotStep g h) : h.ext = g.ext := by rw [x.1]; rfl
theorem SlotStep.live {g h : Engine} (x : SlotStep g h) : h.live = g.live := by rw [x.1]; rfl
theorem SlotStep.cur {g h : Engine} (x : SlotStep g h) : h.cur = g.cur := by rw [x.1]; rfl
theorem SlotStep.ctx {g h : Engine} (x : SlotStep g h) : h.ctx = g.ctx := by rw [x.1]; rfl

/-! One result put in flight. -/

theorem fly_step (s : State) (e lat : Nat) (x : Landing) : SlotStep (s.eng e) ((s.fly e lat x).eng e) := by
  rw [State.fly, State.eng_updEng_same]
  exact ⟨rfl, [_], rfl⟩

theorem fly_mem (s : State) (e lat : Nat) (x : Landing) :
    (⟨(s.eng e).cyc + lat, (s.eng e).inEvt, x⟩ : Flight) ∈ ((s.fly e lat x).eng e).flight := by
  rw [State.fly, State.eng_updEng_same]; simp

theorem fly_other (s : State) (e lat : Nat) (x : Landing) {f : Nat} (h : f ≠ e) : (s.fly e lat x).eng f = s.eng f :=
  State.eng_setEng_other s _ h

@[simp] theorem fly_dmem (s : State) (e lat : Nat) (x : Landing) : (s.fly e lat x).mem = s.mem := rfl
@[simp] theorem fly_regs (s : State) (e lat : Nat) (x : Landing) : (s.fly e lat x).regs = s.regs := rfl

/-! Words of DMEM. -/

theorem loadWord_keeps (s : State) (e w : Nat) : Keeps s (s.loadWord e w).2 := by
  unfold State.loadWord
  simp only
  split <;> exact ⟨rfl, rfl, rfl⟩

theorem loadWord_regs (s : State) (e w : Nat) : (s.loadWord e w).2.regs = s.regs := by
  unfold State.loadWord
  simp only
  split <;> rfl

theorem loadQuad_keeps (s : State) (e q : Nat) : Keeps s (s.loadQuad e q).2 := by
  unfold State.loadQuad
  exact ((loadWord_keeps _ _ _).trans (loadWord_keeps _ _ _)).trans ((loadWord_keeps _ _ _).trans (loadWord_keeps _ _ _))

theorem loadQuad_regs (s : State) (e q : Nat) : (s.loadQuad e q).2.regs = s.regs := by
  simp only [State.loadQuad, loadWord_regs]

/-- A word that the external port is not to write reads as the memory holds it. -/
theorem wordNow_plain (s : State) (e w : Nat)
    (h : ∀ x ∈ (s.eng e).xold, ¬(dmemAddr e w ≤ x.2.1 ∧ x.2.1 < dmemAddr e w + 4)) :
    s.wordNow e w = wordOf s.mem (dmemAddr e w) := by
  unfold State.wordNow
  simp only
  rw [List.filter_eq_nil_iff.2 (fun x hx => by simpa using h x hx)]
  rfl

/-- A load of a word that no outstanding PGET and no write to come covers answers what the memory holds. -/
theorem loadWord_plain (s : State) (e w : Nat)
    (h : (s.eng e).far.any (fun q => q.get && q.covers (s.viewWord e w)) = false)
    (hx : ∀ x ∈ (s.eng e).xold, ¬(dmemAddr e (s.viewWord e w) ≤ x.2.1 ∧ x.2.1 < dmemAddr e (s.viewWord e w) + 4)) :
    s.loadWord e w = (wordOf s.mem (dmemAddr e (s.viewWord e w)), s) := by
  unfold State.loadWord
  simp [h, wordNow_plain s e _ hx]

theorem storeWord_step (s : State) (e w : Nat) (v : Word) : SlotStep (s.eng e) ((s.storeWord e w v).eng e) := by
  unfold State.storeWord
  simp only
  show SlotStep _ ((State.setEng s e _).eng e)
  rw [State.eng_setEng_same]
  split
  · exact ⟨rfl, [], by simp [Engine.patchOld]⟩
  · exact ⟨rfl, [], by simp [Engine.patchOld]⟩

theorem storeWord_other (s : State) (e w : Nat) (v : Word) {f : Nat} (h : f ≠ e) :
    (s.storeWord e w v).eng f = s.eng f := by
  unfold State.storeWord
  exact State.eng_setEng_other s _ h

@[simp] theorem storeWord_mem (s : State) (e w : Nat) (v : Word) :
    (s.storeWord e w v).mem = putWord s.mem (dmemAddr e (s.viewWord e w)) v := rfl
@[simp] theorem storeWord_regs (s : State) (e w : Nat) (v : Word) : (s.storeWord e w v).regs = s.regs := rfl

/-- A store leaves every word's place as it was. -/
@[simp] theorem storeWord_view (s : State) (e w : Nat) (v : Word) (x : Nat) :
    (s.storeWord e w v).viewWord e x = s.viewWord e x := by
  have h := storeWord_step s e w v
  unfold State.viewWord State.rdF State.rd Engine.entry
  rw [h.ctx, h.live, storeWord_regs]

/-- A bank view keeps a word in its lane. -/
theorem bankView_mod (t : Entry) (c w : Nat) : bankView t c w % 4 = w % 4 := by
  unfold bankView
  split
  · simp only
    split
    · omega
    · split
      · next h => simp only [Entry.bankB] at h; omega
      · rfl
  · rfl

theorem storeQuad_step (s : State) (e q : Nat) (v : L4 Word) : SlotStep (s.eng e) ((s.storeQuad e q v).eng e) := by
  unfold State.storeQuad
  exact (((storeWord_step s e _ _).trans (storeWord_step _ e _ _)).trans (storeWord_step _ e _ _)).trans
    (storeWord_step _ e _ _)

theorem storeQuad_other (s : State) (e q : Nat) (v : L4 Word) {f : Nat} (h : f ≠ e) :
    (s.storeQuad e q v).eng f = s.eng f := by
  unfold State.storeQuad
  rw [storeWord_other _ _ _ _ h, storeWord_other _ _ _ _ h, storeWord_other _ _ _ _ h, storeWord_other _ _ _ _ h]

/-! The memory slots. -/

theorem memAccess_step (s : State) (e : Nat) (r : RegSet) (op : MemOp) :
    SlotStep (s.eng e) ((s.memAccess e r op).eng e) := by
  cases op with
  | nop => exact .refl _
  | ldq d i j => have h := fly_step (s.loadQuad e ((r.pR i).toNat / 4)).2 e 3 (.d d ((s.loadQuad e ((r.pR i).toNat / 4)).1.map some)); rwa [(loadQuad_keeps _ _ _).eng] at h
  | ldw d i j => have h := fly_step (s.loadWord e (r.pR i).toNat).2 e 3 (.d d (L4.all (some (s.loadWord e (r.pR i).toNat).1))); rwa [(loadWord_keeps _ _ _).eng] at h
  | ldr d i j => have h := fly_step (s.loadWord e (r.pR i).toNat).2 e 3 (xrLanding d ((s.loadWord e (r.pR i).toNat).1.extractLsb' 0 16)); rwa [(loadWord_keeps _ _ _).eng] at h
  | ldl d i j => have h := fly_step (s.loadWord e (r.pR i).toNat).2 e 3 (.l d ((s.loadWord e (r.pR i).toNat).1.extractLsb' 0 16)); rwa [(loadWord_keeps _ _ _).eng] at h
  | stq d i j => exact storeQuad_step s e _ _
  | stw d i j => exact storeWord_step s e _ _
  | str d i j => exact storeWord_step s e _ _
  | stl d i j => exact storeWord_step s e _ _

theorem memModify_step (s : State) (e : Nat) (r : RegSet) (op : MemOp) :
    SlotStep (s.eng e) ((s.memModify e r op).eng e) := by
  cases op <;> first | exact .refl _ | exact fly_step _ _ _ _

theorem memSlot_step (s : State) (e : Nat) (r : RegSet) (op : MemOp) : SlotStep (s.eng e) ((s.memSlot e r op).eng e) :=
  (memAccess_step s e r op).trans (memModify_step _ e r op)

theorem fly_rs (s : State) (e lat : Nat) (x : Landing) : ((s.fly e lat x).eng e).rs = (s.eng e).rs := by
  rw [State.fly, State.eng_updEng_same]; rfl

theorem storeWord_rs (s : State) (e w : Nat) (v : Word) : ((s.storeWord e w v).eng e).rs = (s.eng e).rs := by
  unfold State.storeWord
  simp only
  show ((State.setEng s e _).eng e).rs = _
  rw [State.eng_setEng_same]
  split <;> rfl

theorem storeQuad_rs (s : State) (e q : Nat) (v : L4 Word) : ((s.storeQuad e q v).eng e).rs = (s.eng e).rs := by
  simp only [State.storeQuad, storeWord_rs]

/-- A memory slot leaves both register sets as they were. -/
theorem memSlot_rs (s : State) (e : Nat) (r : RegSet) (op : MemOp) : ((s.memSlot e r op).eng e).rs = (s.eng e).rs := by
  cases op <;> simp only [State.memSlot, State.memAccess, State.memModify, fly_rs, storeWord_rs, storeQuad_rs,
    (loadWord_keeps _ _ _).eng, (loadQuad_keeps _ _ _).eng]

theorem memSlot_other (s : State) (e : Nat) (r : RegSet) (op : MemOp) {f : Nat} (h : f ≠ e) :
    (s.memSlot e r op).eng f = s.eng f := by
  cases op with
  | nop => rfl
  | ldq d i j => exact (fly_other _ _ _ _ h).trans ((fly_other _ _ _ _ h).trans ((loadQuad_keeps _ _ _).eng f))
  | ldw d i j => exact (fly_other _ _ _ _ h).trans ((fly_other _ _ _ _ h).trans ((loadWord_keeps _ _ _).eng f))
  | ldr d i j => exact (fly_other _ _ _ _ h).trans ((fly_other _ _ _ _ h).trans ((loadWord_keeps _ _ _).eng f))
  | ldl d i j => exact (fly_other _ _ _ _ h).trans ((fly_other _ _ _ _ h).trans ((loadWord_keeps _ _ _).eng f))
  | stq d i j => exact (fly_other _ _ _ _ h).trans (storeQuad_other _ _ _ _ h)
  | stw d i j => exact (fly_other _ _ _ _ h).trans (storeWord_other _ _ _ _ h)
  | str d i j => exact (fly_other _ _ _ _ h).trans (storeWord_other _ _ _ _ h)
  | stl d i j => exact (fly_other _ _ _ _ h).trans (storeWord_other _ _ _ _ h)

theorem memSlot_regs (s : State) (e : Nat) (r : RegSet) (op : MemOp) : (s.memSlot e r op).regs = s.regs := by
  cases op <;> simp [State.memSlot, State.memAccess, State.memModify, State.storeQuad, loadWord_regs, loadQuad_regs]

/-- A memory slot that stores nothing leaves the memory as it was. -/
theorem memSlot_mem (s : State) (e : Nat) (r : RegSet) (op : MemOp) (h : memStores op = false) :
    (s.memSlot e r op).mem = s.mem := by
  cases op <;> simp_all [State.memSlot, State.memAccess, State.memModify, memStores, (loadWord_keeps _ _ _).2.1,
    (loadQuad_keeps _ _ _).2.1]

/-! The collision count, the arithmetic slot and the control slot. -/

theorem collide_eng (s : State) (e : Nat) (r : RegSet) (b : Bundle) (f : Nat) : (s.collide e r b).eng f = s.eng f := by
  unfold State.collide
  simp only
  split <;> rfl

/-- With no byte written by the external port in the cycle, nothing collides. -/
theorem collide_none (s : State) (e : Nat) (r : RegSet) (b : Bundle) (h : (s.eng e).ext = []) : s.collide e r b = s := by
  unfold State.collide
  simp [h]

theorem each_fly_step (e lat : Nat) (l : List Landing) (s : State) :
    SlotStep (s.eng e) ((s.each l (fun s x => s.fly e lat x)).eng e) := by
  unfold State.each
  induction l generalizing s with
  | nil => exact .refl _
  | cons x l ih => exact (fly_step s e lat x).trans (ih (s.fly e lat x))

theorem each_fly_other (e lat : Nat) (l : List Landing) (s : State) {f : Nat} (h : f ≠ e) :
    (s.each l (fun s x => s.fly e lat x)).eng f = s.eng f := by
  unfold State.each
  induction l generalizing s with
  | nil => rfl
  | cons x l ih => exact (ih (s.fly e lat x)).trans (fly_other s e lat x h)

theorem each_fly_mem_regs (e lat : Nat) (l : List Landing) (s : State) :
    (s.each l (fun s x => s.fly e lat x)).mem = s.mem ∧ (s.each l (fun s x => s.fly e lat x)).regs = s.regs := by
  unfold State.each
  induction l generalizing s with
  | nil => exact ⟨rfl, rfl⟩
  | cons x l ih => exact ih (s.fly e lat x)

/-- Every result of a list goes in flight with its latency. -/
theorem each_fly_mem (e lat : Nat) (l : List Landing) (s : State) {x : Landing} (hx : x ∈ l) :
    (⟨(s.eng e).cyc + lat, (s.eng e).inEvt, x⟩ : Flight) ∈ ((s.each l (fun s x => s.fly e lat x)).eng e).flight := by
  unfold State.each
  induction l generalizing s with
  | nil => simp at hx
  | cons y l ih =>
    rw [List.foldl_cons]
    rcases List.mem_cons.1 hx with h | h
    · subst h
      exact (each_fly_step e lat l (s.fly e lat x)).flight (fly_mem s e lat x)
    · have hs := fly_step s e lat y
      have := ih (s.fly e lat y) h
      rwa [hs.cyc, hs.inEvt] at this

theorem arithIssue_regs (op : ArithOp) (r : RegSet) (gl : L4 Word) (c : Nat) :
    ∃ p d, arithIssue op r gl c = { r with path := p, dith := d } := by
  unfold arithIssue
  simp only
  split
  · unfold pathPush; split <;> exact ⟨_, _, rfl⟩
  · split <;> exact ⟨_, _, rfl⟩

theorem setRs_step (g : Engine) (op : ArithOp) (gl : L4 Word) (c : Nat) :
    SlotStep g (g.setRs (arithIssue op g.rs gl c)) := by
  obtain ⟨p, d, h⟩ := arithIssue_regs op g.rs gl c
  rw [h]
  unfold Engine.setRs Engine.rs
  cases hg : g.inEvt <;> exact ⟨by simp [slotMerge, hg], [], by simp⟩

theorem arithSlot_step (s : State) (e : Nat) (r : RegSet) (op : ArithOp) (hr : (s.eng e).rs = r) :
    SlotStep (s.eng e) ((s.arithSlot e r op).eng e) := by
  unfold State.arithSlot
  simp only
  refine SlotStep.trans ?_ (each_fly_step _ _ _ _)
  rw [State.eng_setEng_same, ← hr]
  exact setRs_step _ op _ _

theorem arithSlot_other (s : State) (e : Nat) (r : RegSet) (op : ArithOp) {f : Nat} (h : f ≠ e) :
    (s.arithSlot e r op).eng f = s.eng f := by
  unfold State.arithSlot
  exact (each_fly_other _ _ _ _ h).trans (State.eng_setEng_other s _ h)

theorem arithSlot_mem (s : State) (e : Nat) (r : RegSet) (op : ArithOp) : (s.arithSlot e r op).mem = s.mem :=
  (each_fly_mem_regs _ _ _ _).1

theorem arithSlot_regs (s : State) (e : Nat) (r : RegSet) (op : ArithOp) : (s.arithSlot e r op).regs = s.regs :=
  (each_fly_mem_regs _ _ _ _).2

/-- The results of the arithmetic slot go in flight. -/
theorem arithSlot_flight (s : State) (e : Nat) (r : RegSet) (op : ArithOp) {x : Landing}
    (hx : x ∈ arithLandings op (arithOut op r (s.gOf e) (s.eng e).cyc)) :
    (⟨(s.eng e).cyc + arithLatency op, (s.eng e).inEvt, x⟩ : Flight) ∈ ((s.arithSlot e r op).eng e).flight := by
  unfold State.arithSlot
  simp only
  have h := each_fly_mem e (arithLatency op) _
    (s.setEng e ((s.eng e).setRs (arithIssue op r (s.gOf e) (s.eng e).cyc))) hx
  rw [State.eng_setEng_same] at h
  have hc : ∀ q, ((s.eng e).setRs q).cyc = (s.eng e).cyc := by intro q; unfold Engine.setRs; split <;> rfl
  have hv : ∀ q, ((s.eng e).setRs q).inEvt = (s.eng e).inEvt := by intro q; unfold Engine.setRs; split <;> rfl
  rwa [hc, hv] at h

theorem ctlSlot_step (s : State) (e : Nat) (r : RegSet) (op : CtlOp) : SlotStep (s.eng e) ((s.ctlSlot e r op).eng e) := by
  have set : ∀ k : Engine, SlotStep (s.eng e) k → SlotStep (s.eng e) ((s.setEng e k).eng e) := by
    intro k hk; rw [State.eng_setEng_same]; exact hk
  cases op <;> unfold State.ctlSlot <;> simp only <;> first
    | exact .refl _
    | exact fly_step _ _ _ _
    | exact set _ ⟨rfl, [], by simp⟩
    | (split <;> first | exact .refl _ | exact set _ ⟨rfl, [], by simp⟩)

theorem ctlSlot_other (s : State) (e : Nat) (r : RegSet) (op : CtlOp) {f : Nat} (h : f ≠ e) :
    (s.ctlSlot e r op).eng f = s.eng f := by
  cases op <;> unfold State.ctlSlot <;> simp only <;> first
    | rfl
    | exact fly_other _ _ _ _ h
    | exact State.eng_setEng_other _ _ h
    | (split <;> first | rfl | exact State.eng_setEng_other _ _ h)

theorem ctlSlot_mem (s : State) (e : Nat) (r : RegSet) (op : CtlOp) : (s.ctlSlot e r op).mem = s.mem := by
  cases op <;> unfold State.ctlSlot <;> simp only <;> first | rfl | (split <;> rfl)

theorem ctlSlot_regs (s : State) (e : Nat) (r : RegSet) (op : CtlOp) : (s.ctlSlot e r op).regs = s.regs := by
  cases op <;> unfold State.ctlSlot <;> simp only <;> first | rfl | (split <;> rfl)

/-! A bundle whole. -/

/-- The four slots of a bundle in their order (R49). -/
def State.slots (s : State) (e : Nat) (b : Bundle) : State :=
  let r := (s.eng e).rs
  ((((s.memSlot e r b.x).memSlot e r b.y).collide e r b).arithSlot e r b.a).ctlSlot e r b.c

/-- The engine after its slots, with the flow of the program taken one bundle on. -/
def flowed (r : RegSet) (b : Bundle) (h : Engine) : Engine :=
  { flowNext h r b.c with issued := true, spare := 2 - accesses b, busy := h.busy + 1,
                          meas := if h.inEvt then h.meas else h.meas + 1 }

theorem slots_step (s : State) (e : Nat) (b : Bundle) : SlotStep (s.eng e) ((s.slots e b).eng e) := by
  unfold State.slots
  simp only
  refine SlotStep.trans ?_ (ctlSlot_step _ e _ _)
  have h2 : SlotStep (s.eng e) ((((s.memSlot e (s.eng e).rs b.x).memSlot e (s.eng e).rs b.y).collide e (s.eng e).rs b).eng e) := by
    rw [collide_eng]
    exact (memSlot_step s e _ _).trans (memSlot_step _ e _ _)
  refine h2.trans (arithSlot_step _ e _ _ ?_)
  rw [collide_eng, memSlot_rs, memSlot_rs]

theorem slots_other (s : State) (e : Nat) (b : Bundle) {f : Nat} (h : f ≠ e) : (s.slots e b).eng f = s.eng f := by
  unfold State.slots
  simp only
  rw [ctlSlot_other _ _ _ _ h, arithSlot_other _ _ _ _ h, collide_eng, memSlot_other _ _ _ _ h, memSlot_other _ _ _ _ h]

theorem flowNext_flight (g : Engine) (r : RegSet) (op : CtlOp) : (flowNext g r op).flight = g.flight := by
  unfold flowNext
  simp only
  repeat (first | rfl | split)

theorem flowNext_halting (g : Engine) (r : RegSet) (op : CtlOp) : (flowNext g r op).halting = g.halting := by
  unfold flowNext
  simp only
  repeat (first | rfl | split)

/-- What may follow a bundle: the return of a handler, the end of its slice, or a halt that has waited. -/
def State.tail (s : State) (e : Nat) (ret fin : Bool) : State :=
  let s := if ret then
      if (s.eng e).wait == .none then s.handlerReturn e
      else s.updEng e (fun h => { h with delay := some ⟨0, h.epc, true⟩ })
    else s
  let s := if fin then s.stopSlice e (fun x => { x with ended := true }) else s
  let h := s.eng e
  if h.halting && h.rpt.isNone && !h.inEvt then s.stopSlice e id else s

theorem issueEffects_eq (s : State) (e : Nat) (b : Bundle) :
    s.issueEffects e b =
      ((s.slots e b).updEng e (flowed (s.eng e).rs b)).tail e (s.eng e).returns (b.c == .endSlice) := rfl

/-- A straight bundle: its slots, and the flow of the program. -/
theorem issueEffects_straight (s : State) (e : Nat) (b : Bundle) (h : Straight (s.eng e) b) :
    s.issueEffects e b = (s.slots e b).updEng e (flowed (s.eng e).rs b) := by
  obtain ⟨h1, h2, h3⟩ := h
  have hc : (b.c == CtlOp.endSlice) = false := by simpa using h2
  have hh : (((s.slots e b).updEng e (flowed (s.eng e).rs b)).eng e).halting = false := by
    rw [State.eng_updEng_same]
    show (flowNext _ _ _).halting = false
    rw [flowNext_halting, (slots_step s e b).halting, h3]
  rw [issueEffects_eq, h1, hc]
  generalize (s.slots e b).updEng e (flowed (s.eng e).rs b) = t at hh ⊢
  simp [State.tail, hh]

/-! What follows a bundle keeps the results that are to land later than the next cycle. -/

theorem fenceRange_engs (s : State) (a n m : Nat) (w : Bool) : (s.fenceRange a n m w).engs = s.engs := by
  unfold State.fenceRange State.fenceLog; split
  · simp only; split <;> rfl
  · rfl

theorem finalSlice_flight (s : State) (e sl : Nat) : ((s.finalSlice e sl).eng e).flight = (s.eng e).flight := by
  unfold State.finalSlice
  simp only
  have snap : ∀ (s : State) (id : Nat) (c : Bool), (s.migSnapshot id c).engs = s.engs := by
    intro s id c; unfold State.migSnapshot; simp only; split
    · exact fenceRange_engs _ _ _ _ _
    · rfl
  have cnt : ∀ (s : State) (c : Bool), (if c then s.countF (ENG_SLT_MEAS e (sl % 64)) 31 24 1 else s).engs = s.engs := by
    intro s c; cases c <;> rfl
  have hsnap : ∀ (s : State) (c d : Bool) (id : Nat), ((if c then s.migSnapshot id d else s).eng e) = s.eng e := by
    intro s c d id; cases c
    · rfl
    · unfold State.eng; rw [if_pos rfl, snap]
  have hcnt : ∀ (s : State) (c : Bool), ((if c then s.countF (ENG_SLT_MEAS e (sl % 64)) 31 24 1 else s).eng e) = s.eng e := by
    intro s c; cases c <;> rfl
  rw [hsnap, (keeps_sliceReports _ _ _ _ _ _ _ _).eng, hcnt]
  show ((State.setEng s e _).eng e).flight = _
  rw [State.eng_setEng_same]

theorem payHold_flight (g : Engine) : g.payHold.flight = g.flight := by
  unfold Engine.payHold Engine.payTo; split <;> rfl

/-- The PWAITs of a drain touch no result in flight. -/
theorem drainRun_flight (l : List (Fin 16 × Bool)) (g : Engine) : (g.drainRun l).flight = g.flight := by
  induction l generalizing g with
  | nil => rfl
  | cons t l ih =>
    unfold Engine.drainRun
    simp only
    split
    · rw [ih]
    · rfl

theorem stopSlice_flight (s : State) (e : Nat) (f : SliceBlk → SliceBlk) :
    ((s.stopSlice e f).eng e).flight = (s.eng e).flight := by
  unfold State.stopSlice
  simp only
  split
  · rfl
  · have hu : ∀ sl, ((s.eng e).payHold.updRun sl f).flight = (s.eng e).flight := by
      intro sl
      rw [← payHold_flight (s.eng e)]
      unfold Engine.updRun Engine.updSb; split
      · rfl
      · simp only; split <;> rfl
    rw [(keeps_cloveHost _).eng]
    split
    · rw [finalSlice_flight, State.eng_setEng_same, drainRun_flight]; exact hu _
    · rw [State.eng_setEng_same, drainRun_flight]; exact hu _

theorem drainOn_flight (s : State) (e : Nat) : ((s.drainOn e).eng e).flight = (s.eng e).flight := by
  unfold State.drainOn
  simp only
  split
  · split
    · rfl
    · split
      · rw [(keeps_cloveHost _).eng, finalSlice_flight, State.eng_setEng_same, drainRun_flight]
      · rw [State.eng_setEng_same, drainRun_flight]
  · rfl

theorem landSet_flight (g : Engine) (f : Flight) : (landOne g f).flight = g.flight := by
  unfold landOne; split <;> rfl

theorem landFold_flight (l : List Flight) (g : Engine) : (l.foldl landOne g).flight = g.flight := by
  induction l generalizing g with
  | nil => rfl
  | cons x l ih => rw [List.foldl_cons, ih, landSet_flight]

/-- What lands in a cycle leaves flight, and nothing else does. -/
theorem landAt_flight (g : Engine) (c : Nat) : (landAt g c).flight = g.flight.filter (fun f => decide (c < f.due)) := by
  unfold landAt; simp only; rw [landFold_flight]

theorem engRun_one_flight (g : Engine) {f : Flight} (hf : f ∈ g.flight) (h : g.cyc + 1 < f.due) :
    f ∈ (engRun g 1).flight := by
  show f ∈ (landAt g (g.cyc + 0 + 1)).flight
  rw [landAt_flight]
  simp [hf]; omega

theorem handlerReturn_flight (s : State) (e : Nat) {f : Flight} (hf : f ∈ (s.eng e).flight)
    (h : (s.eng e).cyc + 1 < f.due) : f ∈ ((s.handlerReturn e).eng e).flight := by
  unfold State.handlerReturn
  have hb : f ∈ ((s.updEng e (fun g => g.boundary.backToMain)).eng e).flight := by
    rw [State.eng_updEng_same]
    show f ∈ ((s.eng e).boundary).payHold.flight
    rw [payHold_flight]
    unfold Engine.boundary
    split
    · exact engRun_one_flight _ hf h
    · exact hf
  simp only
  rw [(keeps_consumeOut _ _).eng, drainOn_flight]
  split
  · rw [stopSlice_flight]; exact hb
  · exact hb

theorem tail_flight (s : State) (e : Nat) (ret fin : Bool) {f : Flight} (hf : f ∈ (s.eng e).flight)
    (h : (s.eng e).cyc + 1 < f.due) : f ∈ ((s.tail e ret fin).eng e).flight := by
  have h1 : f ∈ ((if ret then
      if (s.eng e).wait == .none then s.handlerReturn e
      else s.updEng e (fun h => { h with delay := some ⟨0, h.epc, true⟩ })
    else s).eng e).flight := by
    cases ret
    · exact hf
    · simp only [if_true]
      split
      · exact handlerReturn_flight s e hf h
      · rw [State.eng_updEng_same]; exact hf
  unfold State.tail
  simp only
  generalize (if ret then
      if (s.eng e).wait == .none then s.handlerReturn e
      else s.updEng e (fun h => { h with delay := some ⟨0, h.epc, true⟩ })
    else s) = t at h1 ⊢
  have h2 : f ∈ ((if fin then t.stopSlice e (fun x => { x with ended := true }) else t).eng e).flight := by
    cases fin
    · exact h1
    · simp only [if_true]; rw [stopSlice_flight]; exact h1
  generalize (if fin then t.stopSlice e (fun x => { x with ended := true }) else t) = u at h2 ⊢
  split
  · rw [stopSlice_flight]; exact h2
  · exact h2

/-- A result that the slots put in flight for a later cycle than the next stays in flight. -/
theorem issueEffects_flight (s : State) (e : Nat) (b : Bundle) {f : Flight}
    (hf : f ∈ ((s.slots e b).eng e).flight) (h : (s.eng e).cyc + 1 < f.due) :
    f ∈ ((s.issueEffects e b).eng e).flight := by
  rw [issueEffects_eq]
  refine tail_flight _ _ _ _ ?_ ?_
  · rw [State.eng_updEng_same]
    show f ∈ (flowNext _ _ _).flight
    rw [flowNext_flight]; exact hf
  · rw [State.eng_updEng_same]
    have hc : ∀ (g : Engine) r op, (flowNext g r op).cyc = g.cyc := by
      intro g r op; unfold flowNext; simp only; repeat (first | rfl | split)
    show (flowNext _ _ _).cyc + 1 < _
    rw [hc, (slots_step s e b).cyc]; exact h

/-! The glide factor as the arithmetic slot reads it. -/

theorem loadWord_morph (s : State) (e w : Nat) : (s.loadWord e w).2.morph = s.morph := by
  unfold State.loadWord
  simp only
  split <;> rfl

theorem loadQuad_morph (s : State) (e q : Nat) : (s.loadQuad e q).2.morph = s.morph := by
  simp only [State.loadQuad, loadWord_morph]

theorem memSlot_morph (s : State) (e : Nat) (r : RegSet) (op : MemOp) : (s.memSlot e r op).morph = s.morph := by
  have fl : ∀ (s : State) (n : Nat) (x : Landing), (s.fly e n x).morph = s.morph := fun _ _ _ => rfl
  have st : ∀ (s : State) (w : Nat) (v : Word), (s.storeWord e w v).morph = s.morph := fun _ _ _ => rfl
  cases op <;> simp only [State.memSlot, State.memAccess, State.memModify, State.storeQuad, fl, st, loadWord_morph,
    loadQuad_morph]

theorem memSlot_gidx (s : State) (e : Nat) (r : RegSet) (op : MemOp) :
    ((s.memSlot e r op).eng e).gidx = (s.eng e).gidx := by
  have fl : ∀ (s : State) (n : Nat) (x : Landing), ((s.fly e n x).eng e).gidx = (s.eng e).gidx := by
    intro s n x; rw [State.fly, State.eng_updEng_same]
  have st : ∀ (s : State) (w : Nat) (v : Word), ((s.storeWord e w v).eng e).gidx = (s.eng e).gidx := by
    intro s w v
    unfold State.storeWord
    simp only
    show ((State.setEng s e _).eng e).gidx = _
    rw [State.eng_setEng_same]
    split <;> rfl
  cases op <;> simp only [State.memSlot, State.memAccess, State.memModify, State.storeQuad, fl, st,
    (loadWord_keeps _ _ _).eng, (loadQuad_keeps _ _ _).eng]

theorem gOf_congr {s t : State} {e : Nat} (h1 : (t.eng e).inEvt = (s.eng e).inEvt) (h2 : (t.eng e).cur = (s.eng e).cur)
    (h3 : (t.eng e).gidx = (s.eng e).gidx) (h4 : t.morph = s.morph) : t.gOf e = s.gOf e := by
  unfold State.gOf
  simp only
  rw [h1, h2, h3, h4]

theorem collide_morph (s : State) (e : Nat) (r : RegSet) (b : Bundle) : (s.collide e r b).morph = s.morph := by
  unfold State.collide
  simp only
  split <;> rfl

/-- What the arithmetic slot of an issuing bundle puts in flight, from the registers and the glide factor at issue. -/
theorem slots_arith (s : State) (e : Nat) (b : Bundle) {x : Landing}
    (hx : x ∈ arithLandings b.a (arithOut b.a (s.eng e).rs (s.gOf e) (s.eng e).cyc)) :
    (⟨(s.eng e).cyc + arithLatency b.a, (s.eng e).inEvt, x⟩ : Flight) ∈ ((s.slots e b).eng e).flight := by
  unfold State.slots
  simp only
  apply (ctlSlot_step _ e _ _).flight
  generalize ht : ((s.memSlot e (s.eng e).rs b.x).memSlot e (s.eng e).rs b.y).collide e (s.eng e).rs b = t
  have hs : SlotStep (s.eng e) (t.eng e) := by
    rw [← ht, collide_eng]
    exact (memSlot_step s e _ _).trans (memSlot_step _ e _ _)
  have hg : t.gOf e = s.gOf e := by
    refine gOf_congr hs.inEvt hs.cur ?_ ?_
    · rw [← ht, collide_eng, memSlot_gidx, memSlot_gidx]
    · rw [← ht, collide_morph, memSlot_morph, memSlot_morph]
  have h := arithSlot_flight t e (s.eng e).rs b.a (x := x) (by rw [hs.cyc, hg]; exact hx)
  rwa [hs.cyc, hs.inEvt] at h

/-- A bundle that is ready issues. -/
theorem ready_issue {s : State} {e : Fin 32} {b : Bundle} (h : Ready s e b) :
    s.issue e (some b) = (issueState s e b).issueEffects e b := by
  obtain ⟨h1, h2⟩ := h
  unfold State.issue
  simp only [h1, if_true]
  have h3 : issueFault (s.engAt e).toIssue (some b) = none := h2
  rw [h3]
  rfl

@[simp] theorem issueState_eng (s : State) (e : Fin 32) (b : Bundle) : (issueState s e b).eng e = issueEng s e b :=
  State.eng_setEng_same s e _

/-- An arithmetic result of a bundle that issues is on its way after the step. -/
theorem issue_lands {s : State} {e : Fin 32} {b : Bundle} (h : Ready s e b) {x : Landing}
    (hx : x ∈ arithLandings b.a (arithOut b.a (issueEng s e b).rs ((issueState s e b).gOf e) (issueEng s e b).cyc)) :
    Lands (s.issue e (some b)).settle e (issueEng s e b) (arithLatency b.a) x := by
  rw [ready_issue h]
  show _ ∈ (((issueState s e b).issueEffects e b).eng e).flight
  have h1 := slots_arith (issueState s e b) e b (x := x) (by rw [issueState_eng]; exact hx)
  rw [issueState_eng] at h1
  refine issueEffects_flight _ e b h1 ?_
  rw [issueState_eng]
  show _ < (issueEng s e b).cyc + arithLatency b.a
  have : 2 ≤ arithLatency b.a := by unfold arithLatency; split <;> omega
  omega

end Sys2Proof.Machine
end

