-- ==== Sys2Proof/Laws/Memory.lean ====
section
/-! SUPPORT. Laws of the memory: its canonical form (R183: an unlisted byte reads 0), kept by every operation,
and reads after writes. -/

namespace Sys2Proof.Machine

theorem Memory.wf_reset : Memory.wf State.reset.mem = true := by decide

theorem Memory.wf_rising {m : List (Nat × Byte)} (h : Memory.wf m = true) : Rising m := ((swf_iff _ _).1 h).1

theorem Memory.wf_putByte {m : List (Nat × Byte)} (a : Nat) (b : Byte) (h : Memory.wf m = true) :
    Memory.wf (putByte m a b) = true := swf_sset (fun _ => (0 : Byte)) a b h

theorem Memory.wf_putWord {m : List (Nat × Byte)} (a : Nat) (w : Word) (h : Memory.wf m = true) :
    Memory.wf (putWord m a w) = true :=
  wf_putByte _ _ (wf_putByte _ _ (wf_putByte _ _ (wf_putByte _ _ h)))

theorem Memory.wf_putWords {m : List (Nat × Byte)} (a : Nat) (ws : List Word) (h : Memory.wf m = true) :
    Memory.wf (putWords m a ws) = true := by
  induction ws generalizing m a with
  | nil => exact h
  | cons w ws ih => exact ih _ (wf_putWord _ _ h)

theorem Memory.wf_putBytes {m : List (Nat × Byte)} (a : Nat) (bs : List Byte) (h : Memory.wf m = true) :
    Memory.wf (putBytes m a bs) = true := by
  induction bs generalizing m a with
  | nil => exact h
  | cons b bs ih => exact ih _ (wf_putByte _ _ h)

/-- Bytes written one after another keep the canonical form. -/
theorem Memory.wf_foldPut {α : Type} (at_ : α → Nat) (val : α → Byte) (l : List α) {m : List (Nat × Byte)}
    (h : Memory.wf m = true) : Memory.wf (l.foldl (fun m x => putByte m (at_ x) (val x)) m) = true := by
  induction l generalizing m with
  | nil => exact h
  | cons x l ih => exact ih (wf_putByte _ _ h)

/-- Words written one after another keep the canonical form. -/
theorem Memory.wf_foldPutWord {α : Type} (at_ : α → Nat) (val : α → Word) (l : List α) {m : List (Nat × Byte)}
    (h : Memory.wf m = true) : Memory.wf (l.foldl (fun m x => putWord m (at_ x) (val x)) m) = true := by
  induction l generalizing m with
  | nil => exact h
  | cons x l ih => exact ih (wf_putWord _ _ h)

theorem Memory.wf_clearRange {m : List (Nat × Byte)} (a n : Nat) (h : Memory.wf m = true) :
    Memory.wf (clearRange m a n) = true := swf_filter _ _ h

theorem Memory.wf_copyRange {m : List (Nat × Byte)} (src dst n : Nat) (h : Memory.wf m = true) :
    Memory.wf (copyRange m src dst n) = true := wf_foldPut _ _ _ (wf_clearRange dst n h)

/-- A byte read after it is written. -/
@[simp] theorem putByte_same (m : List (Nat × Byte)) (a : Nat) (b : Byte) :
    sget 0 (putByte m a b) a = b := sget_sset_same 0 m a b

/-- Another byte read after a write. -/
@[simp] theorem putByte_other (m : List (Nat × Byte)) {a x : Nat} (b : Byte) (h : x ≠ a) :
    sget 0 (putByte m a b) x = sget 0 m x := sget_sset_other 0 0 m b h

/-- A byte outside a word read after the word is written. -/
theorem putWord_other (m : List (Nat × Byte)) {a x : Nat} (w : Word) (h : x < a ∨ a + 4 ≤ x) :
    sget 0 (putWord m a w) x = sget 0 m x := by
  unfold putWord
  rw [putByte_other _ _ (by omega), putByte_other _ _ (by omega), putByte_other _ _ (by omega),
    putByte_other _ _ (by omega)]

/-- The four bytes of a word, joined. -/
theorem joinBytes (w : Word) :
    w.extractLsb' 24 8 ++ w.extractLsb' 16 8 ++ w.extractLsb' 8 8 ++ w.extractLsb' 0 8 = w := by
  apply BitVec.eq_of_getLsbD_eq
  intro i hi
  simp only [BitVec.getLsbD_append, BitVec.getLsbD_extractLsb', Nat.zero_add]
  split
  · simp [*]
  · split
    · next h1 h2 => rw [show 8 + (i - 8) = i by omega]; simp [h2]
    · split
      · next h1 h2 h3 => rw [show 16 + (i - 8 - 8) = i by omega]; simp [h3]
      · next h1 h2 h3 => rw [show 24 + (i - 8 - 8 - 8) = i by omega]; simp; omega

/-- A word read after it is written. -/
theorem putWord_same (m : List (Nat × Byte)) (a : Nat) (w : Word) : wordOf (putWord m a w) a = w := by
  unfold wordOf putWord
  rw [putByte_same, putByte_other (x := a + 2) _ _ (by omega), putByte_same,
    putByte_other (x := a + 1) _ _ (by omega), putByte_other (x := a + 1) _ _ (by omega), putByte_same,
    putByte_other (x := a) _ _ (by omega), putByte_other (x := a) _ _ (by omega),
    putByte_other (x := a) _ _ (by omega), putByte_same]
  exact joinBytes w

end Sys2Proof.Machine
end

