-- ==== Sys2Proof/Laws/PerInstr.lean ====
section
/-! SUPPORT. A family of laws about the commands as syntax, one lemma per constructor: a well-formed command that
carries a requester names the Guest only as the host interface's (R351). -/

namespace Sys2Proof.Laws.Requester

/-- The requester of a register access that a command carries. -/
def requester : Instr → Option Req
  | .registerWrite r ..
  | .readClear r ..
  | .frameRun r ..
  | .frameStop r ..
  | .frameFormatChange r ..
  | .splitWrite r ..
  | .sliceTableCommit r ..
  | .migrationStart r
  | .migrationAbort r
  | .busFlip r ..
  | .morphArm r ..
  | .morphAbort r ..
  | .bmxWindowAttrWrite r ..
  | .eventPost r ..
  | .hostPop r ..
  | .slotMaskCommit r ..
  | .groupStart r ..
  | .groupStop r ..
  | .aesTxCommit r ..
  | .srcCommit r
  | .segAbort r ..
  | .timestampPop r ..
  | .gateListCommit r ..
  | .stcSet r
  | .stcSnap r
  | .timedStartArm r ..
  | .timedStartCancel r
  | .aniseTake r
  | .aniseRelease r
  | .mirrorCopy r
  | .mirrorCopyAbort r
  | .interruptRearm r ..
  | .mailboxGo r ..
  | .dmaGo r ..
  | .dmaAbort r ..
  | .powerStateRequest r
  | .hostWake r
  | .systemReset r ..
  | .bootHostGo r => some r
  | _ => none

/-- A well-formed command's requester is the Guest only at master HIF. -/
def Statement (i : Instr) : Prop := i.wf = true → ∀ r, requester i = some r → r.guest = true → r.master = 6

theorem of_req {r q : Req} (h : r.wf = true) (e : some r = some q) (g : q.guest = true) : q.master = 6 := by
  cases e
  simpa [Req.wf, g] using h

theorem registerWrite : ∀ r addr data be, Statement (.registerWrite r addr data be) := fun _ _ _ _ h _ e g => of_req h e g
theorem readClear : ∀ r addr, Statement (.readClear r addr) := fun _ _ h _ e g => of_req h e g
theorem frameRun : ∀ r rate blen, Statement (.frameRun r rate blen) := fun _ _ _ h _ e g => of_req h e g
theorem frameStop : ∀ r rate blen, Statement (.frameStop r rate blen) := fun _ _ _ h _ e g => of_req h e g
theorem frameFormatChange : ∀ r rate blen run, Statement (.frameFormatChange r rate blen run) := fun _ _ _ _ h _ e g => of_req h e g
theorem splitWrite : ∀ r data, Statement (.splitWrite r data) := fun _ _ h _ e g => of_req h e g
theorem blockTick : ∀ pest, Statement (.blockTick pest) := fun _ _ _ e => nomatch e
theorem stripWindowClose : Statement .stripWindowClose := fun _ _ e => nomatch e
theorem matrixBusComplete : ∀ b, Statement (.matrixBusComplete b) := fun _ _ _ e => nomatch e
theorem cascadeDeadline : Statement .cascadeDeadline := fun _ _ e => nomatch e
theorem sumWindowClose : Statement .sumWindowClose := fun _ _ e => nomatch e
theorem busWindowClose : Statement .busWindowClose := fun _ _ e => nomatch e
theorem sliceStart : ∀ e, Statement (.sliceStart e) := fun _ _ _ e => nomatch e
theorem routerTapTransfer : ∀ e, Statement (.routerTapTransfer e) := fun _ _ _ e => nomatch e
theorem externalDmemAccess : ∀ e quad write strb data, Statement (.externalDmemAccess e quad write strb data) := fun _ _ _ _ _ _ _ e => nomatch e
theorem eventTake : ∀ e, Statement (.eventTake e) := fun _ _ _ e => nomatch e
theorem handlerTimeout : ∀ e, Statement (.handlerTimeout e) := fun _ _ _ e => nomatch e
theorem pipelineResultLand : ∀ e, Statement (.pipelineResultLand e) := fun _ _ _ e => nomatch e
theorem nop : ∀ e, Statement (.nop e) := fun _ _ _ e => nomatch e
theorem mac : ∀ e m s t w, Statement (.mac e m s t w) := fun _ _ _ _ _ _ _ e => nomatch e
theorem msb : ∀ e m s t w, Statement (.msb e m s t w) := fun _ _ _ _ _ _ _ e => nomatch e
theorem mpy : ∀ e m s t w, Statement (.mpy e m s t w) := fun _ _ _ _ _ _ _ e => nomatch e
theorem mpyn : ∀ e m s t w, Statement (.mpyn e m s t w) := fun _ _ _ _ _ _ _ e => nomatch e
theorem macl : ∀ e m s t w, Statement (.macl e m s t w) := fun _ _ _ _ _ _ _ e => nomatch e
theorem msbl : ∀ e m s t w, Statement (.msbl e m s t w) := fun _ _ _ _ _ _ _ e => nomatch e
theorem clr : ∀ e m w, Statement (.clr e m w) := fun _ _ _ _ _ e => nomatch e
theorem lda : ∀ e m s w, Statement (.lda e m s w) := fun _ _ _ _ _ _ e => nomatch e
theorem ext : ∀ e d m sh rm w, Statement (.ext e d m sh rm w) := fun _ _ _ _ _ _ _ _ e => nomatch e
theorem norm : ∀ e d c m w, Statement (.norm e d c m w) := fun _ _ _ _ _ _ _ e => nomatch e
theorem add : ∀ e d s t w, Statement (.add e d s t w) := fun _ _ _ _ _ _ _ e => nomatch e
theorem sub : ∀ e d s t w, Statement (.sub e d s t w) := fun _ _ _ _ _ _ _ e => nomatch e
theorem min : ∀ e d s t w, Statement (.min e d s t w) := fun _ _ _ _ _ _ _ e => nomatch e
theorem max : ∀ e d s t w, Statement (.max e d s t w) := fun _ _ _ _ _ _ _ e => nomatch e
theorem sel : ∀ e d s t cond w, Statement (.sel e d s t cond w) := fun _ _ _ _ _ _ _ _ e => nomatch e
theorem cmp : ∀ e s t w, Statement (.cmp e s t w) := fun _ _ _ _ _ _ e => nomatch e
theorem and : ∀ e d s t w, Statement (.and e d s t w) := fun _ _ _ _ _ _ _ e => nomatch e
theorem or : ∀ e d s t w, Statement (.or e d s t w) := fun _ _ _ _ _ _ _ e => nomatch e
theorem xor : ∀ e d s t w, Statement (.xor e d s t w) := fun _ _ _ _ _ _ _ e => nomatch e
theorem shl : ∀ e d s t w, Statement (.shl e d s t w) := fun _ _ _ _ _ _ _ e => nomatch e
theorem asr : ∀ e d s t w, Statement (.asr e d s t w) := fun _ _ _ _ _ _ _ e => nomatch e
theorem scale : ∀ e d s t w, Statement (.scale e d s t w) := fun _ _ _ _ _ _ _ e => nomatch e
theorem expt : ∀ e d s w, Statement (.expt e d s w) := fun _ _ _ _ _ _ e => nomatch e
theorem abs : ∀ e d s w, Statement (.abs e d s w) := fun _ _ _ _ _ _ e => nomatch e
theorem neg : ∀ e d s w, Statement (.neg e d s w) := fun _ _ _ _ _ _ e => nomatch e
theorem mov : ∀ e d s w, Statement (.mov e d s w) := fun _ _ _ _ _ _ e => nomatch e
theorem addi : ∀ e d s imm w, Statement (.addi e d s imm w) := fun _ _ _ _ _ _ _ e => nomatch e
theorem cmpi : ∀ e s imm w, Statement (.cmpi e s imm w) := fun _ _ _ _ _ _ e => nomatch e
theorem shli : ∀ e d s imm w, Statement (.shli e d s imm w) := fun _ _ _ _ _ _ _ e => nomatch e
theorem asri : ∀ e d s imm w, Statement (.asri e d s imm w) := fun _ _ _ _ _ _ _ e => nomatch e
theorem lsri : ∀ e d s imm w, Statement (.lsri e d s imm w) := fun _ _ _ _ _ _ _ e => nomatch e
theorem bcst : ∀ e d s k w, Statement (.bcst e d s k w) := fun _ _ _ _ _ _ _ e => nomatch e
theorem movi : ∀ e d imm h w, Statement (.movi e d imm h w) := fun _ _ _ _ _ _ _ e => nomatch e
theorem ldq : ∀ e sl r i j w, Statement (.ldq e sl r i j w) := fun _ _ _ _ _ _ _ _ e => nomatch e
theorem ldw : ∀ e sl r i j w, Statement (.ldw e sl r i j w) := fun _ _ _ _ _ _ _ _ e => nomatch e
theorem stq : ∀ e sl r i j w, Statement (.stq e sl r i j w) := fun _ _ _ _ _ _ _ _ e => nomatch e
theorem stw : ∀ e sl r i j w, Statement (.stw e sl r i j w) := fun _ _ _ _ _ _ _ _ e => nomatch e
theorem ldr : ∀ e sl r i j w, Statement (.ldr e sl r i j w) := fun _ _ _ _ _ _ _ _ e => nomatch e
theorem ldl : ∀ e sl r i j w, Statement (.ldl e sl r i j w) := fun _ _ _ _ _ _ _ _ e => nomatch e
theorem str : ∀ e sl r i j w, Statement (.str e sl r i j w) := fun _ _ _ _ _ _ _ _ e => nomatch e
theorem stl : ∀ e sl r i j w, Statement (.stl e sl r i j w) := fun _ _ _ _ _ _ _ _ e => nomatch e
theorem ldpq : ∀ e i q w, Statement (.ldpq e i q w) := fun _ _ _ _ _ _ e => nomatch e
theorem setn : ∀ e i imm w, Statement (.setn e i imm w) := fun _ _ _ _ _ _ e => nomatch e
theorem setl : ∀ e i imm w, Statement (.setl e i imm w) := fun _ _ _ _ _ _ e => nomatch e
theorem addp : ∀ e i j w, Statement (.addp e i j w) := fun _ _ _ _ _ _ e => nomatch e
theorem mtp : ∀ e i d w, Statement (.mtp e i d w) := fun _ _ _ _ _ _ e => nomatch e
theorem mtn : ∀ e i d w, Statement (.mtn e i d w) := fun _ _ _ _ _ _ e => nomatch e
theorem mtl : ∀ e i d w, Statement (.mtl e i d w) := fun _ _ _ _ _ _ e => nomatch e
theorem ei : ∀ e w, Statement (.ei e w) := fun _ _ _ _ e => nomatch e
theorem di : ∀ e w, Statement (.di e w) := fun _ _ _ _ e => nomatch e
theorem gadv : ∀ e w, Statement (.gadv e w) := fun _ _ _ _ e => nomatch e
theorem gset : ∀ e j w, Statement (.gset e j w) := fun _ _ _ _ _ e => nomatch e
theorem clrf : ∀ e mask w, Statement (.clrf e mask w) := fun _ _ _ _ _ e => nomatch e
theorem pwait : ∀ e t w, Statement (.pwait e t w) := fun _ _ _ _ _ e => nomatch e
theorem bra : ∀ e rel w, Statement (.bra e rel w) := fun _ _ _ _ _ e => nomatch e
theorem bc : ∀ e cond rel w, Statement (.bc e cond rel w) := fun _ _ _ _ _ _ e => nomatch e
theorem djn : ∀ e d rel w, Statement (.djn e d rel w) := fun _ _ _ _ _ _ e => nomatch e
theorem rpt : ∀ e n w, Statement (.rpt e n w) := fun _ _ _ _ _ e => nomatch e
theorem rptw : ∀ e n w, Statement (.rptw e n w) := fun _ _ _ _ _ e => nomatch e
theorem jmp : ∀ e pc w, Statement (.jmp e pc w) := fun _ _ _ _ _ e => nomatch e
theorem setp : ∀ e i addr w, Statement (.setp e i addr w) := fun _ _ _ _ _ _ e => nomatch e
theorem setnw : ∀ e i imm w, Statement (.setnw e i imm w) := fun _ _ _ _ _ _ e => nomatch e
theorem setlw : ∀ e i imm w, Statement (.setlw e i imm w) := fun _ _ _ _ _ _ e => nomatch e
theorem endSlice : ∀ e w, Statement (.endSlice e w) := fun _ _ _ _ e => nomatch e
theorem rte : ∀ e w, Statement (.rte e w) := fun _ _ _ _ e => nomatch e
theorem pget : ∀ e t i s cnt w, Statement (.pget e t i s cnt w) := fun _ _ _ _ _ _ _ _ e => nomatch e
theorem pput : ∀ e t i s cnt w, Statement (.pput e t i s cnt w) := fun _ _ _ _ _ _ _ _ e => nomatch e
theorem farBeatServe : ∀ e, Statement (.farBeatServe e) := fun _ _ _ e => nomatch e
theorem farRequestComplete : ∀ e, Statement (.farRequestComplete e) := fun _ _ _ e => nomatch e
theorem sliceTableCommit : ∀ r e, Statement (.sliceTableCommit r e) := fun _ _ h _ e g => of_req h e g
theorem migrationStart : ∀ r, Statement (.migrationStart r) := fun _ h _ e g => of_req h e g
theorem migrationAbort : ∀ r, Statement (.migrationAbort r) := fun _ h _ e g => of_req h e g
theorem migrationLoad : Statement .migrationLoad := fun _ _ e => nomatch e
theorem migrationCompare : Statement .migrationCompare := fun _ _ e => nomatch e
theorem busFlip : ∀ r n flip, Statement (.busFlip r n flip) := fun _ _ _ h _ e g => of_req h e g
theorem morphArm : ∀ r m abort, Statement (.morphArm r m abort) := fun _ _ _ h _ e g => of_req h e g
theorem morphAbort : ∀ r m, Statement (.morphAbort r m) := fun _ _ h _ e g => of_req h e g
theorem bmxTransactionAccept : ∀ t, Statement (.bmxTransactionAccept t) := fun _ _ _ e => nomatch e
theorem bmxArbitrationGrant : ∀ t, Statement (.bmxArbitrationGrant t) := fun _ _ _ e => nomatch e
theorem bmxBeatServe : ∀ t, Statement (.bmxBeatServe t) := fun _ _ _ e => nomatch e
theorem bmxTransactionComplete : ∀ t, Statement (.bmxTransactionComplete t) := fun _ _ _ e => nomatch e
theorem lockTimeout : ∀ t, Statement (.lockTimeout t) := fun _ _ _ e => nomatch e
theorem masterReset : ∀ m, Statement (.masterReset m) := fun _ _ _ e => nomatch e
theorem bmxSliceApply : ∀ bit, Statement (.bmxSliceApply bit) := fun _ _ _ e => nomatch e
theorem bmxWindowAttrWrite : ∀ r m w data, Statement (.bmxWindowAttrWrite r m w data) := fun _ _ _ _ h _ e g => of_req h e g
theorem eventPost : ∀ r p hdr, Statement (.eventPost r p hdr) := fun _ _ _ h _ e g => of_req h e g
theorem outboxPost : ∀ e o, Statement (.outboxPost e o) := fun _ _ _ _ e => nomatch e
theorem eventDeliver : ∀ d, Statement (.eventDeliver d) := fun _ _ _ e => nomatch e
theorem timedEventDue : ∀ flow, Statement (.timedEventDue flow) := fun _ _ _ e => nomatch e
theorem hostPop : ∀ r q, Statement (.hostPop r q) := fun _ _ h _ e g => of_req h e g
theorem slotMaskCommit : ∀ r n, Statement (.slotMaskCommit r n) := fun _ _ h _ e g => of_req h e g
theorem groupStart : ∀ r start, Statement (.groupStart r start) := fun _ _ h _ e g => of_req h e g
theorem groupStop : ∀ r stop, Statement (.groupStop r stop) := fun _ _ h _ e g => of_req h e g
theorem sapFrame : ∀ n f, Statement (.sapFrame n f) := fun _ _ _ _ e => nomatch e
theorem sapClockLoss : ∀ n, Statement (.sapClockLoss n) := fun _ _ _ e => nomatch e
theorem sapRingWrite : ∀ n, Statement (.sapRingWrite n) := fun _ _ _ e => nomatch e
theorem sapRingFetch : ∀ n, Statement (.sapRingFetch n) := fun _ _ _ e => nomatch e
theorem aes3Frame : ∀ n f, Statement (.aes3Frame n f) := fun _ _ _ _ e => nomatch e
theorem aes3LockLoss : ∀ n, Statement (.aes3LockLoss n) := fun _ _ _ e => nomatch e
theorem aesTxCommit : ∀ r n, Statement (.aesTxCommit r n) := fun _ _ h _ e g => of_req h e g
theorem aesTxBlockStart : ∀ n, Statement (.aesTxBlockStart n) := fun _ _ _ e => nomatch e
theorem srcCommit : ∀ r, Statement (.srcCommit r) := fun _ h _ e g => of_req h e g
theorem srcLock : ∀ c, Statement (.srcLock c) := fun _ _ _ e => nomatch e
theorem macFrameReceive : ∀ n f, Statement (.macFrameReceive n f) := fun _ _ _ _ e => nomatch e
theorem macTxSelect : ∀ n, Statement (.macTxSelect n) := fun _ _ _ e => nomatch e
theorem macTxComplete : ∀ n, Statement (.macTxComplete n) := fun _ _ _ e => nomatch e
theorem segAbort : ∀ r n abort, Statement (.segAbort r n abort) := fun _ _ _ h _ e g => of_req h e g
theorem timestampPop : ∀ r n, Statement (.timestampPop r n) := fun _ _ h _ e g => of_req h e g
theorem gateListCommit : ∀ r n, Statement (.gateListCommit r n) := fun _ _ h _ e g => of_req h e g
theorem gateListActivate : ∀ n, Statement (.gateListActivate n) := fun _ _ _ e => nomatch e
theorem gateIntervalEnd : ∀ n, Statement (.gateIntervalEnd n) := fun _ _ _ e => nomatch e
theorem pauseExpire : ∀ n, Statement (.pauseExpire n) := fun _ _ _ e => nomatch e
theorem pauseWatchdog : ∀ n, Statement (.pauseWatchdog n) := fun _ _ _ e => nomatch e
theorem linkBlockLockTimer : ∀ n, Statement (.linkBlockLockTimer n) := fun _ _ _ e => nomatch e
theorem linkLoss : ∀ n, Statement (.linkLoss n) := fun _ _ _ e => nomatch e
theorem remoteFaultReceive : ∀ n, Statement (.remoteFaultReceive n) := fun _ _ _ e => nomatch e
theorem remoteFaultClear : ∀ n, Statement (.remoteFaultClear n) := fun _ _ _ e => nomatch e
theorem streamPathDown : ∀ s pathB, Statement (.streamPathDown s pathB) := fun _ _ _ _ e => nomatch e
theorem ptpOffsetReport : ∀ port offset clockClass clockAccuracy, Statement (.ptpOffsetReport port offset clockClass clockAccuracy) := fun _ _ _ _ _ _ e => nomatch e
theorem ptpAnnounceTimeout : ∀ port, Statement (.ptpAnnounceTimeout port) := fun _ _ _ e => nomatch e
theorem stcSteerUpdate : Statement .stcSteerUpdate := fun _ _ e => nomatch e
theorem saffronWindowEnd : ∀ meas, Statement (.saffronWindowEnd meas) := fun _ _ _ e => nomatch e
theorem referenceLos : ∀ i, Statement (.referenceLos i) := fun _ _ _ e => nomatch e
theorem stcSet : ∀ r, Statement (.stcSet r) := fun _ h _ e g => of_req h e g
theorem stcSnap : ∀ r, Statement (.stcSnap r) := fun _ h _ e g => of_req h e g
theorem timedStartArm : ∀ r cancel, Statement (.timedStartArm r cancel) := fun _ _ h _ e g => of_req h e g
theorem timedStartCancel : ∀ r, Statement (.timedStartCancel r) := fun _ h _ e g => of_req h e g
theorem timedStart : Statement .timedStart := fun _ _ e => nomatch e
theorem dongoFrameReceive : ∀ n bytes, Statement (.dongoFrameReceive n bytes) := fun _ _ _ _ e => nomatch e
theorem dongoRxTimeout : ∀ n, Statement (.dongoRxTimeout n) := fun _ _ _ e => nomatch e
theorem dongoTrainTimeout : ∀ n, Statement (.dongoTrainTimeout n) := fun _ _ _ e => nomatch e
theorem dongoAckTimer : ∀ n, Statement (.dongoAckTimer n) := fun _ _ _ e => nomatch e
theorem dongoTimeSend : ∀ n, Statement (.dongoTimeSend n) := fun _ _ _ e => nomatch e
theorem dongoDelayMeasure : ∀ n roundTrip, Statement (.dongoDelayMeasure n roundTrip) := fun _ _ _ _ e => nomatch e
theorem dongoEventForward : ∀ n, Statement (.dongoEventForward n) := fun _ _ _ e => nomatch e
theorem heartbeatReceive : ∀ width, Statement (.heartbeatReceive width) := fun _ _ _ e => nomatch e
theorem aniseRecordReceive : ∀ a, Statement (.aniseRecordReceive a) := fun _ _ _ e => nomatch e
theorem anisePathLoss : ∀ path, Statement (.anisePathLoss path) := fun _ _ _ e => nomatch e
theorem aniseTake : ∀ r, Statement (.aniseTake r) := fun _ h _ e g => of_req h e g
theorem aniseRelease : ∀ r, Statement (.aniseRelease r) := fun _ h _ e g => of_req h e g
theorem mirrorCopy : ∀ r, Statement (.mirrorCopy r) := fun _ h _ e g => of_req h e g
theorem mirrorCopyAbort : ∀ r, Statement (.mirrorCopyAbort r) := fun _ h _ e g => of_req h e g
theorem mirrorSliceLoad : Statement .mirrorSliceLoad := fun _ _ e => nomatch e
theorem pcieTlpReceive : ∀ t, Statement (.pcieTlpReceive t) := fun _ _ _ e => nomatch e
theorem functionLevelReset : ∀ fn, Statement (.functionLevelReset fn) := fun _ _ _ e => nomatch e
theorem interruptRearm : ∀ r vec, Statement (.interruptRearm r vec) := fun _ _ h _ e g => of_req h e g
theorem mailboxGo : ∀ r m, Statement (.mailboxGo r m) := fun _ _ h _ e g => of_req h e g
theorem mailboxAnswer : ∀ m status rsp, Statement (.mailboxAnswer m status rsp) := fun _ _ _ _ _ e => nomatch e
theorem mailboxTimeout : ∀ m, Statement (.mailboxTimeout m) := fun _ _ _ e => nomatch e
theorem getVersion : ∀ m, Statement (.getVersion m) := fun _ _ _ e => nomatch e
theorem getStats : ∀ m, Statement (.getStats m) := fun _ _ _ e => nomatch e
theorem ptpSet : ∀ m, Statement (.ptpSet m) := fun _ _ _ e => nomatch e
theorem ptpStop : ∀ m, Statement (.ptpStop m) := fun _ _ _ e => nomatch e
theorem ptpStatus : ∀ m, Statement (.ptpStatus m) := fun _ _ _ e => nomatch e
theorem discSet : ∀ m, Statement (.discSet m) := fun _ _ _ e => nomatch e
theorem discoveryAnnounce : ∀ port, Statement (.discoveryAnnounce port) := fun _ _ _ e => nomatch e
theorem aniStats : ∀ m, Statement (.aniStats m) := fun _ _ _ e => nomatch e
theorem fwUpdate : ∀ m, Statement (.fwUpdate m) := fun _ _ _ e => nomatch e
theorem coreRestart : ∀ m, Statement (.coreRestart m) := fun _ _ _ e => nomatch e
theorem shedLevelRise : ∀ load0 load1, Statement (.shedLevelRise load0 load1) := fun _ _ _ _ e => nomatch e
theorem shedLevelFall : ∀ load0 load1, Statement (.shedLevelFall load0 load1) := fun _ _ _ _ e => nomatch e
theorem houseWatchdogReset : ∀ c, Statement (.houseWatchdogReset c) := fun _ _ _ e => nomatch e
theorem dmaGo : ∀ r u c, Statement (.dmaGo r u c) := fun _ _ _ h _ e g => of_req h e g
theorem dmaAbort : ∀ r u c, Statement (.dmaAbort r u c) := fun _ _ _ h _ e g => of_req h e g
theorem dmaTransactionIssue : ∀ u hostData, Statement (.dmaTransactionIssue u hostData) := fun _ _ _ _ e => nomatch e
theorem powerStateRequest : ∀ r, Statement (.powerStateRequest r) := fun _ h _ e g => of_req h e g
theorem powerStateEnter : Statement .powerStateEnter := fun _ _ e => nomatch e
theorem hostWake : ∀ r, Statement (.hostWake r) := fun _ h _ e g => of_req h e g
theorem gpioWake : ∀ n falling, Statement (.gpioWake n falling) := fun _ _ _ _ e => nomatch e
theorem aonTimerExpiry : Statement .aonTimerExpiry := fun _ _ e => nomatch e
theorem powerStateExit : Statement .powerStateExit := fun _ _ e => nomatch e
theorem temperatureSample : ∀ t, Statement (.temperatureSample t) := fun _ _ _ e => nomatch e
theorem hotCountPeriod : Statement .hotCountPeriod := fun _ _ e => nomatch e
theorem powerOnReset : ∀ pins, Statement (.powerOnReset pins) := fun _ _ _ e => nomatch e
theorem systemReset : ∀ r key boot, Statement (.systemReset r key boot) := fun _ _ _ h _ e g => of_req h e g
theorem pcieFundamentalReset : ∀ boot, Statement (.pcieFundamentalReset boot) := fun _ _ _ e => nomatch e
theorem fuseLoadDone : ∀ f, Statement (.fuseLoadDone f) := fun _ _ _ e => nomatch e
theorem selfTestDone : ∀ res, Statement (.selfTestDone res) := fun _ _ _ e => nomatch e
theorem bootHostGo : ∀ r, Statement (.bootHostGo r) := fun _ h _ e g => of_req h e g
theorem bootFlashTimeout : Statement .bootFlashTimeout := fun _ _ e => nomatch e
theorem bootImageCheck : ∀ flash, Statement (.bootImageCheck flash) := fun _ _ _ e => nomatch e
theorem bootReady : Statement .bootReady := fun _ _ e => nomatch e
theorem jtagInstruction : ∀ i, Statement (.jtagInstruction i) := fun _ _ _ e => nomatch e
theorem illegalOp : ∀ e word, Statement (.illegalOp e word) := fun _ _ _ _ e => nomatch e
theorem dongoLaneLockLoss : ∀ n, Statement (.dongoLaneLockLoss n) := fun _ _ _ e => nomatch e
theorem referenceInputEdge : ∀ video width err ago, Statement (.referenceInputEdge video width err ago) := fun _ _ _ _ _ _ e => nomatch e
theorem pcieLinkChange : ∀ up width speed, Statement (.pcieLinkChange up width speed) := fun _ _ _ _ _ e => nomatch e
theorem houseCoreRunning : ∀ c, Statement (.houseCoreRunning c) := fun _ _ _ e => nomatch e
theorem ptpMessageSend : ∀ port k, Statement (.ptpMessageSend port k) := fun _ _ _ _ e => nomatch e

end Sys2Proof.Laws.Requester
end

