-- ==== Sys2Proof/Tests/Slice0.lean ====
section
/-! SUPPORT. Tests: the words that the spec encodes, the terms that WellFormed refuses, the spec's worked examples on
one command each, and for every statement with hypotheses a state and operands that meet them. -/

namespace Sys2Proof.Tests

open Sys2Proof Sys2Proof.Machine

/-- A state with some registers set. -/
def withRegs (rs : List (Reg × Word)) (s : State := State.reset) : State := rs.foldl (fun s x => s.wr x.1 x.2) s

/-- The host's Owner and Guest. -/
def owner : Req := ⟨6, false⟩
def guest : Req := ⟨6, true⟩

/-- Engine 0 as given, every other idle. -/
def withEng (g : Engine) (s : State := State.reset) : State := { s with engs := [(0, g)] }

/-- Slice 0 runs on engine 0; a handler runs on it. -/
def onSlice : State := withEng { cur := some 0 }
def onEvent : State := withEng { inEvt := true, evtFirst := 0 }

/-- Bundles with one slot in use. -/
def only (a : ArithOp) : Bundle := { Bundle.nop with a := a }
def onlyC (c : CtlOp) : Bundle := { Bundle.nop with c := c }
def onlyX (x : MemOp) : Bundle := { Bundle.nop with x := x }

/-- Look at the next state of a command. -/
def after {α : Type} (c : Instr) (s : State) (f : State → α) : Option α :=
  match exec c s with
  | .next t => some (f t)
  | _ => none

/-! ## Encodings -/

/-- Spec: the example words of MAC and EXT. -/
theorem test_word_arith :
    decodeBundle 0x029B800000000000#64 = some (only (.mac 1 3 (.reg 7))) ∧
    decodeBundle 0x14C8100000000000#64 = some (only (.ext 9 1 1#5 .rne)) ∧
    encodeBundle (only (.mac 1 3 (.reg 7))) = 0x029B800000000000#64 := by decide

/-- Spec: the example words of the memory and control slots. -/
theorem test_word_slots :
    decodeMem 0x280 = some (.ldq 4 0 0) ∧ decodeCtl 0x8004 = some (.setn 0 4#10) ∧
    decodeCtl 0x5824 = some (.ldpq 3 36#11) ∧ decodeCtl 0xEBFD = some (.djn 11 (-3)) := by decide

/-- Words written out from the encoding tables: SEL in format R, MOVI in format K, STL in a memory slot, PGET in a wide
slot, and the reserved encodings that none decodes. -/
theorem test_word_formats :
    decodeBundle (0b0#1 ++ 0b010100#6 ++ 0b0010#4 ++ 0b0011#4 ++ 0b0100#4 ++ 0b101#3 ++ 0b00#2 ++ 0#40) =
      some (only (.sel 2 3 4 .nnAndNz)) ∧
    decodeBundle (0b0#1 ++ 0b11#2 ++ 0b1#1 ++ 0b0101#4 ++ 0x8001#16 ++ 0#40) = some (only (.movi 5 0x8001#16 true)) ∧
    decodeMem 0b000110101110 = some (.stl 5 3 2) ∧ decodeMem 0b000001101110 = none ∧
    decodeBundle (0b1#1 ++ 0#35 ++ 0b0110#4 ++ 0b1001#4 ++ 0b101#3 ++ 0b0011#4 ++ 0b1111#4 ++ 0#9) =
      some (onlyC (.pget 9 5 3 15)) ∧
    decodeBundle 0x0E00000000000000#64 = none ∧ decodeCtl 0xF000 = none ∧ decodeCtl 0x0D00 = none := by decide

/-! ## Terms that are not well formed -/

theorem test_wf_bundle :
    (ArithOp.norm 3 3 0).wf = false ∧ (CtlOp.rpt 0).wf = false ∧ (CtlOp.rptw 0).wf = false ∧
    Bundle.wf { onlyC (.jmp 5) with y := .ldq 0 0 0 } = false ∧ Bundle.wf (onlyC (.jmp 5)) = true := by decide

theorem test_wf_commands :
    (Instr.norm 0 3 3 0 .nop).wf = false ∧ (Instr.rpt 0 0 .nop).wf = false ∧ (Instr.rptw 0 0 .nop).wf = false ∧
    (Instr.rptw 0 1 (onlyX .nop)).wf = true ∧ (Instr.jmp 0 4 { Bundle.nop with y := .ldq 0 0 0 }).wf = false ∧
    (Instr.add 0 1 2 3 (onlyC (.rpt 0))).wf = false ∧ (Instr.ldq 0 .y 0 0 0 (onlyC (.jmp 4))).wf = false ∧
    (Instr.ei 0 (only (.norm 1 1 0))).wf = false ∧ (Instr.frameRun ⟨3, true⟩ 0 0).wf = false := by decide

theorem test_wf_transactions :
    (Instr.bmxTransactionAccept ⟨0, false, false, false, 0, []⟩).wf = false ∧
    (Instr.bmxTransactionAccept ⟨0, false, false, false, 4, [⟨0, 1⟩]⟩).wf = false ∧
    (Instr.bmxTransactionAccept ⟨0, true, false, false, 0, [⟨0, 1⟩]⟩).wf = false ∧
    (Instr.bmxTransactionAccept ⟨0, false, false, true, 0, List.replicate 17 ⟨0, 1⟩⟩).wf = false ∧
    (Instr.bmxTransactionAccept ⟨11, false, false, true, 4, List.replicate 128 ⟨0, 1⟩⟩).wf = false ∧
    (Instr.bmxTransactionAccept ⟨11, false, false, false, 4, List.replicate 128 ⟨0, 1⟩⟩).wf = true ∧
    (Instr.bmxTransactionAccept ⟨6, true, false, true, 0, [⟨0, 1⟩]⟩).wf = true ∧
    (Instr.jtagInstruction (.debug ⟨0, false, false, false, 0, [⟨0, 1⟩]⟩)).wf = false := by decide

set_option maxRecDepth 10000 in
theorem test_wf_lengths :
    (Instr.temperatureSample []).wf = false ∧ (Instr.saffronWindowEnd []).wf = false ∧
    (Instr.pcieTlpReceive (.read 0 0 [])).wf = false ∧ (Instr.pcieTlpReceive (.write 0 0 [])).wf = false ∧
    (Instr.aniseRecordReceive (.fixed [])).wf = false ∧
    (Instr.sapFrame 0 ⟨0, 0, 0, [], List.replicate 1026 false⟩).wf = false ∧
    (Instr.dongoFrameReceive 0 (List.replicate 1037 0)).wf = false := by decide


/-! ## The spec's worked examples -/

/-- Spec, one value under each rounding mode: v = 3 × 2³¹ with sh 0, and +1.0. -/
theorem test_ext_rounding :
    extWord 0x180000000#80 0#5 .rne 0 = (2#32, false) ∧ extWord 0x180000000#80 0#5 .trunc 0 = (1#32, false) ∧
    extWord 0x180000000#80 0#5 .tpdf 8192 = (2#32, false) ∧
    extWord 0x8000000000000000#80 0#5 .rne 0 = (0x7FFFFFFF#32, true) := by decide

/-- Spec, the biquad's node array: P0 = 0x0840, N = +12 words, L = 72 gives 0x0804; and a linear step. -/
theorem test_modify_circular :
    modify 0x0840#16 12#16 72#16 = 0x0804#16 ∧ modify 0x0004#16 (BitVec.ofInt 16 (-8)) 0#16 = 0xFFFC#16 := by decide

/-- Spec, changing the split: 48 kHz, B = 32, split 50, 12, 38. -/
theorem test_windows_48k :
    pNomOf 48000 32 = 666667 ∧ guardOf 666667 = 336 ∧ windowOf 666667 50 = 333333 ∧ windowOf 666667 12 = 80000 ∧
    windowOf 666667 38 = 253333 ∧ sumFits 48000 32 0x00260C32#32 = true := by decide

/-- Spec: at 96 kHz and B = 16 the split 0x001F1332 is rejected, and SYS_FRM_SPLIT keeps 0x0023142D. -/
theorem test_split_rejected :
    after (.splitWrite owner 0x001F1332#32) State.reset (fun t => (t.rd SYS_FRM_SPLIT, t.rd SYS_REJDATA, t.rdB SYS_FRM_STAT 1)) =
      some (0x0023142D#32, 0x001F1332#32, false) := by decide

/-- Spec, the thermal budget: at 92.5 °C and 21,400 mW b is 8; at 28,600 mW it is 0. -/
theorem test_thermal_budget :
    (withRegs [(PWR_TMAX, 0x05C8), (PWR_PEST, 21400)]).budgetB = 8 ∧
    (withRegs [(PWR_TMAX, 0x05C8), (PWR_PEST, 28600)]).budgetB = 0 := by decide

/-- Spec, the Guest's window: a read of Pool quadrant 3 is permitted, a write is not. -/
theorem test_guest_window :
    after (.bmxWindowAttrWrite owner 6 1 0x80000004#32)
      (withRegs [(BMX_WIN_BASE 6 1, 0x11800000), (BMX_WIN_LIMIT 6 1, 0x11FFF000)])
      (fun t => (t.permitted 6 true false 0x11800000 0x1180001F, t.permitted 6 true true 0x11800000 0x1180001F,
        (BMX_WIN_BASE 6 1).addr)) = some (true, false, 0x50021610) := by decide

/-- Spec, the limits at maxlen = 1,522: a frame of 63 bytes is a runt. -/
theorem test_mac_runt :
    after (.macFrameReceive 0 ⟨List.replicate 63 0, false, false, 0, false, false⟩) (withRegs [(MAC_STAT 0, 2)])
      (fun t => t.rd (MAC_RUNT_CNT 0)) = some 1 := by decide

/-- R268: with pre_en, the answer to the verify exchange sets verify_ok. -/
theorem test_met_verify :
    after (.macFrameReceive 0 ⟨[], false, false, 0, true, false⟩) (withRegs [(MAC_STAT 0, 2), (MAC_CTRL 0, 0x11)])
      (fun t => (t.rdB (MAC_STAT 0) 5, t.preActive 0)) = some (true, true) := by decide

/-- Spec, a fenced unit: Pool bank 37 is unit 645. -/
theorem test_fenced_unit : poolUnit (2 * 0x800000 + 5 * 0x40) = 645 ∧ unitAt 0x11000140 = some 645 := by decide

/-- R46, R86: an addition that saturates; its result is not there yet. -/
theorem test_add_saturates :
    after (.add 0 1 2 3 .nop) (withEng { cur := some 0, main := { d := [(2, L4.all 0x7FFFFFFF#32), (3, L4.all 1#32)] } })
      (fun t => ((t.eng 0).flight.map Flight.due, (t.eng 0).main.dL 1 0)) = some ([2, 2, 2], 0#32) := by decide

/-- R355: with no core running a go is answered BAD_STATE at once. -/
theorem test_mailbox_no_core :
    after (.mailboxGo owner 0) (withRegs [(HSE_MB_CMD 0, 0x5A000001)]) (fun t => t.rd (HSE_MB_STAT 0)) =
      some 0x805A0003#32 := by decide

/-- R376: at 125 °C the device trips. -/
theorem test_trip :
    after (.temperatureSample (List.replicate 9 2000#16)) State.reset (fun t => (t.rd PWR_AON_STAT, t.faultLow)) =
      some (1#32, true) := by decide

/-- No command waits after reset, and the queue is first in, first out. -/
theorem test_step_front :
    step { State.reset with pending := [.gpioWake 0 false, .aonTimerExpiry] } =
      exec (.gpioWake 0 false) { State.reset with pending := [.aonTimerExpiry] } := by rfl

/-! ## States and operands that meet each statement's hypotheses -/

/-- One bundle of each shape is ready on the engine that runs slice 0. -/
theorem test_met_SaturatingArithmeticResults :
    Ready onSlice 0 (only (.add 1 2 3)) ∧ Ready onSlice 0 (only (.sub 1 2 3)) ∧ Ready onSlice 0 (only (.abs 1 2)) ∧
    Ready onSlice 0 (only (.neg 15 15)) ∧ Ready onSlice 0 (only (.scale 0 1 2)) := by unfold Ready; decide

theorem test_met_PlainWordResults :
    Ready onSlice 0 (only (.min 1 2 3)) ∧ Ready onSlice 0 (only (.max 1 2 3)) ∧ Ready onSlice 0 (only (.and 1 2 3)) ∧
    Ready onSlice 0 (only (.or 1 2 3)) ∧ Ready onSlice 0 (only (.xor 1 2 3)) ∧ Ready onSlice 0 (only (.shl 1 2 3)) ∧
    Ready onSlice 0 (only (.asr 1 2 3)) ∧ Ready onSlice 0 (only (.addi 1 2 0x100#9)) ∧
    Ready onSlice 0 (only (.shli 1 2 31#5)) ∧ Ready onSlice 0 (only (.asri 1 2 31#5)) ∧
    Ready onSlice 0 (only (.lsri 1 2 31#5)) ∧ Ready onSlice 0 (only (.mov 1 2)) ∧ Ready onSlice 0 (only (.bcst 1 2 3)) ∧
    Ready onSlice 0 (only (.movi 1 0xFFFF#16 false)) ∧ Ready onSlice 0 (only (.movi 1 0xFFFF#16 true)) ∧
    Ready onSlice 0 (only (.sel 1 2 3 .nOrZ)) ∧ Ready onSlice 0 (only (.cmp 2 2)) ∧
    Ready onSlice 0 (only (.cmpi 2 0x1FF#9)) ∧ (issueEng onSlice 0 (only (.cmp 2 2))).returns = false := by
  unfold Ready; decide

theorem test_met_NormaliseResults :
    Ready onSlice 0 (only (.expt 1 2)) ∧ Ready onSlice 0 (only (.norm 1 2 3)) := by unfold Ready; decide

theorem test_met_ExtractResult : Ready onSlice 0 (only (.ext 1 2 0x10#5 .tpdf)) := by unfold Ready; decide

theorem test_met_AccumulatorResults :
    Ready onSlice 0 (only (.mac 0 1 .g)) ∧ Ready onSlice 0 (only (.msb 0 1 (.reg 2))) ∧
    Ready onSlice 0 (only (.macl 0 1 2)) ∧ Ready onSlice 0 (only (.msbl 0 1 2)) ∧ Ready onSlice 0 (only (.mpy 0 1 .g)) ∧
    Ready onSlice 0 (only (.mpyn 0 1 .g)) ∧ Ready onSlice 0 (only (.clr 3)) ∧ Ready onSlice 0 (only (.lda 3 15)) := by
  unfold Ready; decide

theorem test_met_LoadResults :
    Slot.y.fits Bundle.nop.c = true ∧ Ready onSlice 0 (onlyX (.ldq 15 0 3)) ∧ Ready onSlice 0 (onlyX (.ldw 15 0 3)) ∧
    Ready onSlice 0 (onlyX (.ldr 15 7 3)) ∧ Ready onSlice 0 (onlyX (.ldl 7 7 3)) ∧
    LoadDefined (slotState onSlice 0 (onlyX (.ldq 15 0 3)) .x) 0 0 := by unfold Ready LoadDefined; decide

theorem test_met_StoreResults :
    Slot.y.fits Bundle.nop.c = true ∧ Ready onSlice 0 (onlyX (.stq 15 0 3)) ∧ Ready onSlice 0 (onlyX (.stw 15 0 3)) ∧
    Ready onSlice 0 (onlyX (.str 15 7 3)) ∧ Ready onSlice 0 (onlyX (.stl 7 7 3)) ∧
    Straight (issueEng onSlice 0 (onlyX (.stq 15 0 3))) (onlyX (.stq 15 0 3)) ∧
    (issueEng onSlice 0 (onlyX (.stq 15 0 3))).ext = [] := by unfold Ready Straight; decide

theorem test_met_PointerWriteBack :
    Ready onSlice 0 (onlyX (.ldl 7 3 0)) ∧ Ready onSlice 0 (onlyX (.stq 7 4 3)) ∧
    (issueEng onSlice 0 (onlyX (.stq 7 4 3))).returns = false := by unfold Ready; decide

theorem test_met_ControlRegisterWrites :
    Ready onSlice 0 (onlyC (.ldpq 7 0x7FF#11)) ∧ Ready onSlice 0 (onlyC (.setp 7 0xFFFF#16)) ∧
    Ready onSlice 0 (onlyC (.setn 7 0x200#10)) ∧ Ready onSlice 0 (onlyC (.setnw 7 0x8000#16)) ∧
    Ready onSlice 0 (onlyC (.setl 7 0x3FF#10)) ∧ Ready onSlice 0 (onlyC (.setlw 7 0xFFFF#16)) ∧
    Ready onSlice 0 (onlyC (.addp 7 7)) ∧ Ready onSlice 0 (onlyC (.mtp 7 15)) ∧ Ready onSlice 0 (onlyC (.mtn 7 15)) ∧
    Ready onSlice 0 (onlyC (.mtl 7 15)) ∧ Ready onSlice 0 (onlyC .ei) ∧ Ready onSlice 0 (onlyC .di) ∧
    Ready onSlice 0 (onlyC (.clrf 0xFF#8)) ∧ (issueEng onSlice 0 (onlyC .di)).returns = false := by
  unfold Ready; decide

/-- P0 at the first word of the exchange window, where PGET and PPUT may reach. -/
def atWindow : Engine := { cur := some 0, main := { p := [(0, 0xF000#16)] } }

theorem test_met_GlideWaitAndFarRequests :
    Ready onSlice 0 (onlyC .gadv) ∧ Ready onEvent 0 (onlyC .gadv) ∧ Ready onSlice 0 (onlyC (.gset 31#5)) ∧
    Ready onSlice 0 (onlyC (.pwait 15)) ∧ Ready (withEng atWindow) 0 (onlyC (.pget 0 0 1 15)) ∧
    Ready (withEng atWindow) 0 (onlyC (.pput 15 0 1 0)) ∧
    Straight (issueEng (withEng atWindow) 0 (onlyC (.pput 15 0 1 0))) (onlyC (.pput 15 0 1 0)) ∧
    Straight (issueEng onEvent 0 (onlyC .gadv)) (onlyC .gadv) := by unfold Ready Straight; decide

theorem test_met_BranchFlow :
    Ready onSlice 0 (onlyC (.bra 0x800#12)) ∧ Ready onSlice 0 (onlyC (.jmp 6143#13)) ∧
    Ready onSlice 0 (onlyC (.bc 7 0x100#9)) ∧ Ready onSlice 0 (onlyC (.djn 0 0x80#8)) ∧
    Straight (issueEng onSlice 0 (onlyC (.jmp 6143#13))) (onlyC (.jmp 6143#13)) := by unfold Ready Straight; decide

/-- A repeated bundle, the two delay slots of a branch, and a bundle with neither. -/
theorem test_met_SequentialFlow :
    Ready onSlice 0 (onlyC (.rpt 1024#12)) ∧ Ready onSlice 0 (onlyC (.rptw 1024#16)) ∧ Ready onSlice 0 .nop ∧
    Straight (issueEng onSlice 0 (onlyC (.rpt 1024#12))) (onlyC (.rpt 1024#12)) ∧
    (Instr.nop 0).bundle? = some (0, .nop) ∧ isFlow Bundle.nop.c = false ∧ rptCount Bundle.nop.c = none ∧
    (∀ k < 3, Ready (withEng { cur := some 0, rpt := some (k + 1) }) 0 .nop ∧
      Straight (issueEng (withEng { cur := some 0, rpt := some (k + 1) }) 0 .nop) .nop) ∧
    (∀ k < 2, Ready (withEng { cur := some 0, delay := some ⟨k + 1, 9, false⟩ }) 0 .nop ∧
      Straight (issueEng (withEng { cur := some 0, delay := some ⟨k + 1, 9, false⟩ }) 0 .nop) .nop) := by
  unfold Ready Straight; decide

theorem test_met_BundleFrame :
    (Instr.nop 0).bundle? = some (0, .nop) ∧ Ready onSlice 0 .nop ∧ Straight (issueEng onSlice 0 .nop) .nop ∧
    (issueEng onSlice 0 .nop).ext = [] ∧ (after (.nop 0) onSlice fun _ => ()) = some () := by
  unfold Ready Straight; decide

/-- With the far queue empty, and with one request in it. -/
theorem test_met_EndStopsSlice :
    Ready onSlice 0 (onlyC .endSlice) ∧ (issueEng onSlice 0 (onlyC .endSlice)).far = [] ∧
    Ready (withEng { cur := some 0, far := [⟨0, true, 0, 1, 0, 0, 0, 0, [], false, false⟩] }) 0 (onlyC .endSlice) := by
  unfold Ready; decide

/-- RTE itself, and the bundle in its second delay slot. -/
theorem test_met_HandlerReturns :
    Ready onEvent 0 (onlyC .rte) ∧
    Ready (withEng { inEvt := true, delay := some ⟨1, 9, true⟩ }) 0 .nop ∧
    (issueEng (withEng { inEvt := true, delay := some ⟨1, 9, true⟩ }) 0 .nop).returns = true ∧
    (issueEng (withEng { inEvt := true, delay := some ⟨1, 9, true⟩ }) 0 .nop).halting = false := by
  unfold Ready; decide

/-- Boundary engines of each code: the highest legal PC, RCAP and the far queue at their limits. -/
theorem test_met_IssueFaultCodes :
    ({ pc := 6143 } : Engine).pc ≤ 6143 ∧ memStores (.stl 0 0 0) = true ∧ ({} : Engine).rcap < (1025#12).toNat ∧
    (1024#12).toNat ≤ ({} : Engine).rcap ∧ ({ delay := some ⟨1, 0, false⟩ } : Engine).delay.isSome = true ∧
    ({ rpt := some 1 } : Engine).rpt.isSome = true ∧
    16 ≤ ({ far := List.replicate 16 ⟨0, true, 0, 1, 0, 0, 0, 0, [], false, false⟩ } : Engine).far.length ∧
    (({ main := { p := [(0, 0xEFFC#16)] } } : Engine).rs.pR 0).toNat / 4 < 0x3C00 ∧
    ({ inEvt := true, cyc := 0x400 } : Engine).evtFirst + 0x400 ≤ 0x400 := by decide

theorem test_met_FaultsAreRecorded :
    (Instr.rpt 0 0 .nop).bundle? = some (0, onlyC (.rpt 0)) ∧ (onSlice.engAt 0).runnable = true ∧
    issueFault (issueEng onSlice 0 (onlyC (.rpt 0))) (some (onlyC (.rpt 0))) = some 1 ∧
    decodeBundle 0x0E00000000000000#64 = none ∧ ((onSlice.engAt 0).toIssue).pc ≤ 6143 ∧
    (onEvent.engAt 0).inEvt = true := by decide

theorem test_met_ResultsLand :
    ((withEng { flight := [⟨4, false, .l 0 1⟩] }).engAt 0).nextLand = some 4 ∧
    ((withEng { flight := [⟨4, false, .l 0 1⟩] }).engAt 0).cyc < 4 ∧
    4 ≤ ((withEng { flight := [⟨4, false, .l 0 1⟩] }).engAt 0).cyc + 4 := by decide

/-- R87: an addition and a later load reach D5 in one cycle, and the loaded word stays; a sticky flag set in the cycle in
which CLRF clears it ends set. -/
theorem test_land_same_cycle :
    after (.pipelineResultLand 0) (withEng { flight := [⟨2, false, .d 5 (L4.all (some 7#32))⟩,
      ⟨2, false, .clrf 0xFF#8⟩, ⟨2, false, .sticky (L4.all false) (L4.all true)⟩, ⟨2, false, .d 5 (L4.all (some 9#32))⟩] })
      (fun t => ((t.eng 0).main.dL 5 3, bits (t.eng 0).main.sr 7 0, (t.eng 0).flight.length)) = some (9#32, 0xF0, 0) := by
  decide

/-- A good bank and a fenced one, and engines that can take an access to either part of DMEM at once. -/
theorem test_met_ExternalAccess :
    extReady 0 0x3BFF true ({} : Engine) = true ∧ extReady 0 0x3C00 true ({} : Engine) = true ∧
    extReady 0 0x3C00 false ({} : Engine) = true ∧ (State.reset.engAt 0).runnable = false ∧
    State.reset.fenced 0 = false ∧ ({ State.reset with rep := [(15, { fenced := true })] } : State).fenced 15 = true := by
  decide

/-- A valid Strip slice of an enabled engine while the Strip window is open. -/
def slotReady : State := withEng { active := true, live := [(0, { ctrl := 0x80000010, budget := 100 })],
                                   blk := [(0, { filled := true })] }
  (withRegs [(SYS_FRM_STAT, 1), (SYS_FRM_WSTRIP, 50000)] { State.reset with frame := { win := .strip, ticking := true } })

theorem test_met_SliceStarts :
    (slotReady.engAt 0).atTurn.inEvt = false ∧ (slotReady.engAt 0).atTurn.takeable = false ∧
    slotReady.seqPick 0 (slotReady.engAt 0).atTurn = ([], some 0) ∧ slotReady.rdB CLV_MIG_STAT 0 = false := by decide

theorem test_met_EventsAreTaken :
    ((withEng { deliv := [⟨0, 7, 0, 3, 0⟩] }).engAt 0).boundary.deliv = [⟨0, 7, 0, 3, 0⟩] ∧
    ((withEng { deliv := [⟨0, 7, 0, 3, 0⟩] }).engAt 0).boundary.evtOpen = true ∧
    (withEng { deliv := [⟨0, 7, 0, 3, 0⟩] }).engFenced 0 = false ∧
    0 ≤ ((withEng { deliv := [⟨0, 7, 0, 3, 0⟩] }).engAt 0).boundary.cyc ∧
    ((withEng { deliv := [⟨0, 7, 0, 3, 0⟩] }).engAt 0).boundary.flight = [] := by decide

/-- The first and the last byte of a register that is not reached, a write of each kind. -/
theorem test_met_RegisterAccesses :
    ((0xE#4 : BitVec 4) ≠ 0xF#4) ∧ (0x50000001#32).toNat % 4 ≠ 0 ∧ isRegAddr 0x4FFFFFFC = false ∧
    isRegAddr 0x60000000 = false ∧ isRegAddr 0x2006FFFC = false ∧
    (∀ r ∈ [SYS_FRM_INT, SYS_FRM_IEN, SYS_FRM_BLOCK, PWR_IEN, CLV_INT, CLV_IEN, MXM_INT, PRT_INT, HIF_IEN,
        ENG_MRPH 31 63, SYS_FRM_DEV],
      Reaches State.reset owner r ∧ IsRegister r ∧ hasOwnWrite r.addr = false) ∧
    (BMX_LOCK_TO, false) ∈ rangeTable 15#32 ∧ (BMX_LOCK_TO, true) ∈ rangeTable 16#32 ∧
    Reaches State.reset owner BMX_LOCK_TO := by unfold Reaches IsRegister; decide

/-- A register that the Guest may not write, one of a device that a trip or a power-on reset holds, and reads of a register
of no unit, of one that RC clears, and of the two extrema. -/
theorem test_met_RegisterAccesses_more :
    (∀ r ∈ [BMX_WIN_ATTR 0 0, SYS_FRM_SPLIT], IsRegister r) ∧ writerOk guest (BMX_WIN_ATTR 0 0) = false ∧
    ({ State.reset with pwr := { trip := true } } : State).held = true ∧
    ({ State.reset with pwr := { por := true } } : State).held = true ∧
    State.reset.aniStandby = false ∧ State.reset.aniActive = false ∧
    (∀ r ∈ [SYS_FRM_IEN, SYS_FRM_DEV, PWR_TPEAK, BMX_WAITMAX 0], IsRegister r ∧ hasOwnRead r.addr = false) := by
  unfold IsRegister; decide

/-- The frame stopped, running, stopping, and in its final block. -/
def stopped : State := State.reset
def going : State := withRegs [(SYS_FRM_STAT, 1)] { State.reset with frame := { ticking := true } }
def stopping : State := withRegs [(SYS_FRM_STAT, 5)] { State.reset with frame := { ticking := true } }
def finalBlock : State := withRegs [(SYS_FRM_STAT, 1)] { State.reset with frame := { ticking := true, final := true } }

theorem test_met_FrameRunsAndStops :
    Reaches stopped owner SYS_FRM_CTRL ∧ (3#2).toNat = stopped.rdF SYS_FRM_CTRL 1 0 ∧
    (1#2).toNat = stopped.rdF SYS_FRM_CTRL 5 4 ∧ stopped.gainFenced = false ∧ stopped.running = false ∧
    going.fs = 96000 ∧ (withRegs [(SYS_FRM_CTRL, 0x110)] going).fs = 44100 ∧
    (3#2).toNat = stopping.rdF SYS_FRM_CTRL 1 0 ∧ stopping.rdB SYS_FRM_STAT 2 = true ∧ stopping.gainFenced = false ∧
    finalBlock.rdB SYS_FRM_STAT 2 = false ∧ finalBlock.frame.final = true ∧ finalBlock.gainFenced = false ∧
    going.running = true ∧ going.frame.final = false ∧
    Reaches stopped owner SYS_FRM_SPLIT ∧ bits 0x0023142D#32 7 0 + bits 0x0023142D#32 15 8 + bits 0x0023142D#32 23 16 = 100 ∧
    2048 * stopped.blk ≤ windowOf (pNomOf stopped.fs stopped.blk) (bits 0x0023142D#32 15 8) ∧
    bits 0x0023142E#32 7 0 + bits 0x0023142E#32 15 8 + bits 0x0023142E#32 23 16 ≠ 100 := by unfold Reaches; decide

theorem test_met_FormatChanges :
    stopped.rdB SYS_FRM_STAT 1 = false ∧ (0#2).toNat ≠ stopped.rdF SYS_FRM_CTRL 1 0 ∧
    2048 * blockLen (1#2).toNat ≤ windowOf (pNomOf (rateHz (0#2).toNat) (blockLen (1#2).toNat))
      (bits stopped.frame.split 15 8) ∧
    Reaches going owner SYS_FRM_CTRL ∧ going.stay ≠ some 1 ∧ (0#2).toNat ≠ going.rdF SYS_FRM_CTRL 1 0 := by
  unfold Reaches; decide

/-- Each window in turn. -/
theorem test_met_WindowsFollow :
    going.running = true ∧ going.frame.final = false ∧ stopped.running = false ∧ going.rdB ANI_CTRL 0 = false ∧
    going.rdB SYS_FRM_STAT 2 = false ∧ stopping.rdB SYS_FRM_STAT 2 = true ∧ stopping.running = true ∧
    (∀ w ∈ [Window.strip, .sum, .bus], ({ going with frame := { win := w } } : State).frame.win = w) ∧
    ({ going with frame := { win := .sum } } : State).mtx.dead = false ∧ going.engs = [] ∧
    (let s : State := { going with frame := { win := .sum }, mtx := { next := 255 } }
     s.mtx.next = (255 : Fin 256).val ∧ (s.bus 255).segs = [] ∧ s.busWaits 255 = false ∧ s.mtx.psum = []) ∧
    (let s : State := { going with mtx := { dead := true, psum := [(255, [2 ^ 70])] } }
     s.mtx.dead = true ∧ s.mtx.psum = [(255, [2 ^ 70])]) ∧
    (let s : State := { going with
       dng := [(3, { casc := [(7, 0x80000000)] })],
       router := { sinks := [(0x1CFF, { terms := [⟨0x27FF, 64, 0, 64⟩] })] } }
     0x27FF ∈ s.cascSrcs 255 ∧ s.mtx.casc = [] ∧ s.mtx.psum = []) ∧
    (∀ n < 24, going.rdB (SAP_CTRL n) 3 = false) := by decide

/-- A tick that opens a block, with registers set. -/
def tickOf (rs : List (Reg × Word)) (s : State := State.reset) : State :=
  withRegs ((SYS_FRM_STAT, 1) :: rs) { s with frame := { ticking := true, win := .tail } }

/-- A split that waits, a slice table that passes and one whose last entry lies outside its DMEM. -/
theorem test_met_TickSteps_tables :
    (tickOf [(SYS_FRM_STAT, 3)]).rdB SYS_FRM_STAT 1 = true ∧ (tickOf []).rdB SYS_FRM_STAT 1 = false ∧
    (let s := tickOf [(ENG_SLT_COMMIT 31, 1), (SLT_CTRL 31 63, 0x80000000)]
     TickOpens s ∧ s.rdB (ENG_SLT_COMMIT 31) 0 = true ∧ ∀ i < 64, stagedFault s 31 i = 0) ∧
    (let s := tickOf [(ENG_SLT_COMMIT 31, 1), (SLT_CTRL 31 63, 0x80000000), (SLT_BASE 31 63, 0x3C00), (SLT_SIZE0 31 63, 1)]
     TickOpens s ∧ stagedFault s 31 63 = 1 ∧ ∀ j < 63, stagedFault s 31 j = 0) := by
  unfold TickOpens; decide

/-- The codes of R108, lowest first: an output tap shared, an area too small. -/
theorem test_stagedFault_codes :
    stagedFault (withRegs [(SLT_CTRL 0 0, 0x80000000), (SLT_TAPS 0 0, 0x01050000), (SLT_CTRL 0 1, 0x80000000),
      (SLT_TAPS 0 1, 0x02040000)]) 0 0 = 3 ∧
    stagedFault (withRegs [(SLT_CTRL 0 0, 0x80000000), (SLT_TAPS 0 0, 0x00000100)]) 0 0 = 4 := by decide

/-- A sink entry written, of a sink with two terms and with three; a flip; an armed slot due in the block, and one due a
millisecond on, with a bus and a lane. -/
theorem test_met_TickSteps_units :
    (let two : List Term := [⟨1, 9, 9, 0⟩, ⟨2, 9, 9, 0⟩]
     let r : List Term → Router := fun t => { written := [(5, 0x80400003)], sinks := [(5, { terms := t, count := 2, len := 64 })] }
     let s := tickOf [] { State.reset with router := r two }
     let z := tickOf [] { State.reset with router := r (⟨4, 9, 9, 0⟩ :: two) }
     TickOpens s ∧ s.rdB PRT_CTRL 0 = false ∧ s.sinkWritten 5 ≠ s.sinkInForce 5 ∧
     ((s.sink 5).roll s.blk).terms.length < 3 ∧ TickOpens z ∧ 3 ≤ ((z.sink 5).roll z.blk).terms.length ∧
     ¬ (z.sink 5).terms.any (fun t => t.src == bits (z.sinkWritten 5) 13 0)) ∧
    (let s := tickOf [(MXM_FLIP 7, 0x80000000), (MXM_STAT, 2)]
     TickOpens s ∧ (∀ m : Fin 4, s.slotState m = 0 ∧ s.rdB (MXM_MR_CTRL m) 1 = false) ∧ s.rdB MXM_STAT 1 = true ∧
     s.rdB (MXM_FLIP 7) 31 = true ∧ s.rdB (MXM_FLIP 0) 0 = false) ∧
    (let s := tickOf [(MXM_MR_STAT 3, 1), (MXM_MR_CFG 3, 0x40), (MXM_MR_BUS 3 7, 0x80000000), (ENG_MRPH 31 63, 0x8000)]
        (withEng {} { State.reset with engs := [(31, { live := [(63, { ctrl := 0x80000000 })] })] })
     TickOpens s ∧ s.slotState 3 = 1 ∧ (∀ m' : Fin 4, m' ≠ 3 → s.slotState m' = 0) ∧
     (s.slotTime 3 : Int) - (s.frame.edge * 1000000000 / s.fs : Nat) < s.blk ∧ s.rdB (MXM_MR_BUS 3 7) 31 = true ∧
     s.rdB (ENG_MRPH 31 63) 15 = true ∧ s.rdB (MXM_MR_CFG 3) 29 = false) ∧
    (let s := tickOf [(MXM_MR_STAT 3, 1), (MXM_MR_TNS 3, 1000000)]
     s.slotState 3 = 1 ∧ (s.blk : Int) ≤ ((s.slotTime 3 : Int) - (s.frame.edge * 1000000000 / s.fs : Nat)) * s.fs / 1000000000) := by
  unfold TickOpens; decide

theorem test_met_FinalBlockEnds : finalBlock.running = true ∧ finalBlock.frame.final = true := by decide

/-- A fill and a collection that are next, a far request with a beat to go at the ends of its window and of the Pool, and
one at the head of the queue. -/
theorem test_met_TransfersMoveData :
    ((withEng { xq := [⟨false, 0, 0⟩] } { State.reset with frame := { win := .strip } }).eng 0).nextXfer =
      some ⟨false, 0, 0⟩ ∧
    ((withEng { xq := [⟨false, 0, 0⟩, ⟨true, 1, 3⟩] } { State.reset with frame := { win := .bus } }).eng 0).nextXfer =
      some ⟨true, 1, 3⟩ ∧
    ((withEng { far := [⟨15, true, 0x3FF0, 16, 0x1FFFF00, 0, 0, 7, [], false, false⟩] }).eng 0).far =
      ⟨15, true, 0x3FF0, 16, 0x1FFFF00, 0, 0, 7, [], false, false⟩ :: [] ∧
    ((withEng { far := [⟨15, true, 0x3FF0, 16, 0x1FFFF00, 0, 0, 7, [], false, false⟩] }).eng 0).beatAt = some 3 ∧
    (withEng { far := [⟨15, true, 0x3FF0, 16, 0x1FFFF00, 0, 0, 7, [], false, false⟩] }).farTurn 3 = some 0 ∧
    0 < ((withEng { xq := [⟨false, 0, 0⟩] } { State.reset with frame := { win := .strip } }).engAt 0).spare ∧
    (∀ k, State.reset.fenced (poolUnit ((⟨15, true, 0x3FF0, 16, 0x1FFFF00, 0, 0, 7, [], false, false⟩ : FarReq).pool k - 0x10000000))
      = false) ∧
    ((withEng { far := [⟨15, true, 0x3FF0, 16, 0x1FFFF00, 0, 0, 8, [], false, false⟩] }).eng 0).draining = none :=
  ⟨by decide, by decide, by decide, by decide, by decide, by decide, fun _ => rfl, by decide⟩

theorem test_met_BoundaryRequestsWait :
    Reaches State.reset owner (ENG_SLT_COMMIT 31) ∧ Reaches State.reset owner (MXM_FLIP 7) ∧
    Reaches State.reset owner (MXM_MR_CTRL 3) ∧ State.reset.slotState 3 = 0 ∧
    (withRegs [(MXM_MR_STAT 3, 1)]).slotState 3 ≠ 0 := by unfold Reaches; decide

/-- Slice 0 of engine 0 to slice 1 of engine 1: a migration in progress, at its second and its third block. -/
def migrating (k : Nat) (m : Mig) : State :=
  withRegs [(CLV_MIG_STAT, 1), (SYS_FRM_STAT, 1), (SYS_FRM_BLOCK, BitVec.ofNat 32 k)]
    { State.reset with
        mig := m
        engs := [(0, { live := [(0, { ctrl := 0x80000000, size0 := 1 })], blk := [(0, { started := true, ended := true })] }),
                 (1, { live := [(1, { ctrl := 0x80000000, size0 := 1 })], blk := [(1, { started := true, ended := true })] })] }

theorem test_met_MigrationSteps :
    Reaches State.reset owner CLV_MIG_CTRL ∧ startRefused State.reset = 2 ∧
    (let s := withRegs [(CLV_MIG_SRC, 0), (CLV_MIG_DST, 65), (CLV_MIG_BLOCK, 1), (SYS_FRM_STAT, 1)]
       { State.reset with engs := [(0, { live := [(0, { ctrl := 0x80000000 })] }),
                                   (1, { active := true, live := [(63, { ctrl := 0x80000000 })] })] }
     startRefused s = 0 ∧ s.eng (s.rdF CLV_MIG_DST 10 0 / 64) = { active := true, live := [(63, { ctrl := 0x80000000 })] }) ∧
    (let s := migrating 7 { src := 0, dst := 65, k := 5 }
     s.blockNo = (s.mig.k + 2) % 2 ^ 32 ∧ s.running = true ∧ s.frame.final = false ∧
     ceilDiv (s.frame.edge * stcSecond) s.fs ≤ s.stc ∧ 0 < s.stcRate) ∧
    (migrating 6 { src := 0, dst := 65, k := 5 }).blockNo ≠ (5 + 2) % 2 ^ 32 ∧
    (migrating 6 { src := 0, dst := 65, k := 5 }).rdB CLV_MIG_STAT 0 = true ∧
    (let s := migrating 6 { src := 0, dst := 65, k := 5, created := true, snap := true }
     s.blockNo = (s.mig.k + 1) % 2 ^ 32 ∧ s.mig.loaded = false ∧ Memory.wf s.mem = true ∧
     (s.liveOf s.mig.dst).inQuads s.blk ≤ s.mig.hist ∧
     s.mig.pool + ((s.liveOf s.mig.dst).winSize + (s.liveOf s.mig.dst).inQuads s.blk) * 16 ≤ 2 ^ 25) ∧
    (let s := migrating 7 { src := 0, dst := 65, k := 5, loaded := true }
     s.blockNo = (s.mig.k + 2) % 2 ^ 32 ∧ s.mig.cmp = false ∧ s.migUnrun s.mig.src = false ∧
     s.migUnrun s.mig.dst = false) := by unfold Reaches; decide

theorem test_met_unfenced : ∀ x, State.reset.fenced x = false := fun _ => rfl

/-- The self-test done, and a write transaction of CDMA0 to the Sample Pool, waiting, granted, and served. -/
def tested (x : List BusTxn) : State := withRegs [(TST_MEM_STAT, 0x80000000)] { State.reset with bmx := { txns := x } }
def poolWrite : Txn := ⟨0, false, true, false, 0x10000000, [⟨0, 0xF#32⟩]⟩
def waitingTxn : BusTxn := { id := 0, txn := poolWrite, target := 0, cause := 0, since := 0 }

/-- A burst of three words of the debug port from address 0x1C: the last word of one block and two of the next. -/
def narrowWrite : Txn := ⟨11, false, true, false, 0x1C, [⟨0x11, 0xF⟩, ⟨0x22, 0xF⟩, ⟨0x33, 0x3⟩]⟩

/-- The width converter packs it into two beats (R192). -/
theorem test_narrow_burst :
    (portTxns narrowWrite).map (fun t => (t.addr, t.beats.map Beat.strb, t.beats.map Beat.data)) =
      [(0, [0xF0000000, 0x3F], [0x11 * 2 ^ 224, 0x3300000022])] := by decide +kernel

theorem test_met_BusMatrixTransactions :
    (tested []).portFree 0 = true ∧ (tested []).portWait = [] ∧ portTxns poolWrite = poolWrite :: [] ∧
    (tested []).mirrors poolWrite = false ∧ (tested []).holder 0 = none ∧
    (tested [waitingTxn]).winner 0 ((tested [waitingTxn]).bmx.txns.filter ((tested [waitingTxn]).grantable 0)) =
      some waitingTxn ∧
    (tested [{ waitingTxn with granted := true }]).holder 0 = some { waitingTxn with granted := true } ∧
    targetOf (poolWrite.lo + 32 * 0) = 0 ∧ poolWrite.lo + 32 * 0 + 32 ≤ 0x12000000 ∧
    (tested []).fencedHit 0x10000000 0xF#32 = none ∧
    (tested [{ waitingTxn with cause := 3 }]).defaultNext = some { waitingTxn with cause := 3 } ∧
    (tested [{ waitingTxn with granted := true, beat := 1 }]).doneAt 0 =
      some { waitingTxn with granted := true, beat := 1 } ∧
    (tested []).lockWrite 6 = false ∧
    (({ State.reset with bmx := { locks := [(13, ⟨6, 0, 3, 0, 0⟩)] } } : State).bmx.locks.find? (fun k => k.1 = 13)) =
      some (13, ⟨6, 0, 3, 0, 0⟩) ∧
    (withRegs [(BMX_SLICE_STAT, 0x80000000)]).rdB BMX_SLICE_STAT 31 = true ∧ State.reset.portIdle 31 = true ∧
    Reaches State.reset owner (BMX_WIN_ATTR 11 15) := by unfold Reaches; decide

/-- A post on the lowest and the highest port, to the last flow, to a house flow, with a buffer free and with none, and
a post in the last outbox slot. -/
theorem test_met_EventPosts :
    writerOk owner (CLV_POST_HDR 0) = true ∧ postAgent owner 0 = true ∧ postAgent ⟨5, false⟩ 3 = true ∧
    writerOk ⟨5, false⟩ (CLV_POST_HDR 3) = true ∧ bits 0x0000093F#32 11 0 < 2368 ∧
    State.reset.held = false ∧ 2048 ≤ bits 0x00000800#32 11 0 ∧ bits 0x00000800#32 11 0 < 2304 ∧ State.reset.rdB ANI_CTRL 0 = false ∧
    State.reset.postBusy 0 2367 = false ∧ (withRegs [(CLV_QCFG, 0)]).postBusy 0 2367 = true ∧
    (let s := withEng { obox := [(7, 0 * 256 + 0 + 1)] }
        { State.reset with mem := putWord [] (dmemAddr 0 0xFFB8) 0x3800#32 }
     let w := fun i => wordOf s.mem (dmemAddr 0 (0xFF80 + 8 * 7) + 4 * i)
     sget 0 (s.eng 0).obox 7 = 0 + 1 ∧ bits (w 0) 13 12 = 3 ∧ bits (w 0) 11 0 < 2368) := by decide

/-- One event queued. -/
def oneEvent (v : Ev) (s : State := State.reset) : State := { s with clove := { queue := [v], next := 1 } }
def urgent (flow : Nat) : Ev := ⟨0, 3, 0, 0, flow, 0, 0, [1, 2, 3, 4, 5], none, 0, none, false⟩

/-- An event for a slice that takes its type, for one that masks it, for a house flow, a Timed event, and a host flow with
nothing and with one event. -/
theorem test_met_EventDeliveries :
    (let s := oneEvent (urgent 0) (withEng { live := [(0, { ctrl := 0x80000000, evt := 8 })] })
     s.firstCand (s.engCands 0) = some ⟨urgent 0, 0⟩ ∧ s.stale (urgent 0) = false ∧
     discards (s.liveOf (s.target 0)) (urgent 0) = false) ∧
    (let s := oneEvent (urgent 0)
     s.firstCand (s.engCands 0) = some ⟨urgent 0, 0⟩ ∧ discards (s.liveOf (s.target 0)) (urgent 0) = true) ∧
    (let s := oneEvent (urgent 2048) (withRegs [(HSE_CORE_STAT, 0x22)])
     s.firstCand ((s.clove.queue.filter (fun v => decide (2048 ≤ v.flow ∧ v.flow < 2304) &&
       decide (s.coreOf v.flow = 0) && s.isHead v && s.ready v)).map (fun v => (⟨v, 0⟩ : Cand))) =
         some ⟨urgent 2048, 0⟩) ∧
    (let v : Ev := { urgent 5 with cls := 1, sec := 1 }
     let s := oneEvent v
     s.head? (5#12).toNat = some v ∧ 0 < s.stcRate ∧
     s.stc + (s.stampDist v).toNat * 1000000000000 + s.stcRate < 2 ^ 48 * stcSecond) ∧
    Reaches State.reset owner CLV_HPOP ∧ State.reset.clove.queue = [] ∧
    (oneEvent (urgent 2367)).clove.queue = [urgent 2367] ∧ (urgent 2367).flow = 2304 + (63 : Fin 64).val ∧
    (oneEvent (urgent 2367)).forwarded 2367 = false := by unfold Reaches; decide

theorem test_met_PortCommitsWait :
    Reaches State.reset owner (SAP_COMMIT 23) ∧ Reaches State.reset owner SAP_GRP_CTRL ∧
    (∀ n < 24, State.reset.rdF (SAP_CTRL n) 10 8 = 0) ∧
    Reaches State.reset owner (AES_TX_COMMIT 7) ∧ (withRegs [(AES_TX_STAT 7, 1)]).rdB (AES_TX_STAT 7) 0 = true ∧
    Reaches State.reset owner SRC_COMMIT ∧
    (({ State.reset with src := [(255, { st := .acquiring, good := 4096 })] } : State).srcCh 255).st = .acquiring ∧
    4096 ≤ (({ State.reset with src := [(255, { st := .acquiring, good := 4096 })] } : State).srcCh 255).good := by
  unfold Reaches; decide

/-- A running slave port, a frame with its 64 bit clocks and one with 63, a staged ring block, a ring to fetch. -/
def slavePort : State := withRegs [(TST_MEM_STAT, 0x80000000), (SAP_STAT 0, 1), (SAP_CTRL 0, 8), (SAP_RINGCFG 0, 0x0404)]
  { State.reset with frame := { win := .strip, ticking := true }, saps := [(0, { ring := [(3, [1, 2, 3])] })] }

theorem test_met_SerialFrames :
    slavePort.sapMaster 0 = false ∧ slavePort.sapAsync 0 = false ∧ slavePort.sapRunning 0 = true ∧
    slavePort.frame.ticking = true ∧ slavePort.sapLost 0 = false ∧ (slavePort.sap 0).resume = false ∧
    64 = fmtSlots (slavePort.rd (SAP_FMT 0)) * fmtBits (slavePort.rd (SAP_FMT 0)) ∧ slavePort.offWindow 0 = false ∧
    63 ≠ fmtSlots (slavePort.rd (SAP_FMT 0)) * fmtBits (slavePort.rd (SAP_FMT 0)) ∧ (slavePort.sap 0).bad < 3 ∧
    slavePort.busIdle = true ∧ slavePort.portFree 8 = true ∧ slavePort.rdB BMX_STAT 8 = false ∧
    (slavePort.sap 0).ring = (3, [1, 2, 3]) :: [] ∧ slavePort.rdB (SAP_CTRL 0) 3 = true ∧
    (slavePort.frame.win = .strip ∨ slavePort.frame.win = .sum ∨ slavePort.frame.win = .bus) := by decide

/-- A locked receiver; a frame at 96 kHz, and one without its second preamble. -/
theorem test_met_AesFrames :
    (let s := withRegs [(AES_RX_STAT 7, 1)] { State.reset with
        frame := { ticking := true }, aesRx := [(7, { on := true, sync := true, deliver := true })] }
     let f : AesFrame := ⟨⟨.z, false, 0⟩, ⟨.y, false, 0⟩, 0, 10416⟩
     (s.aesR 7).on = true ∧ (s.aesR 7).sync = true ∧ s.frame.ticking = true ∧ s.aesLocked 7 = true ∧
     (s.aesR 7).deliver = true ∧ s.rdB (AES_RX_CTRL 7) 3 = false ∧ f.a.pre = .z ∧ f.b.pre = .y ∧
     31000 * f.elapsed ≤ 1000000000 ∧ 1000000000 ≤ 194000 * f.elapsed ∧ subValid f.a = true ∧ subValid f.b = true ∧
     s.offWindow f.offset = false ∧ (s.aesR 7).noPre < 3) ∧ (Preamble.none ≠ .y) ∧
    (let s := withRegs [(AES_RX_STAT 7, 1)] { State.reset with aesRx := [(7, { on := true, sync := true, noPre := 3 })] }
     (s.aesR 7).on = true ∧ (s.aesR 7).sync = true ∧ 3 ≤ (s.aesR 7).noPre ∧ s.aesLocked 7 = true) := by decide

/-- Port 0 with its link in a state. -/
def macIs (l : Nat) (rs : List (Reg × Word)) (m : Mac := {}) (mem : List (Nat × Byte) := []) : State :=
  withRegs ((MAC_STAT 0, BitVec.ofNat 32 l) :: rs) { State.reset with macs := [(0, m)], mem := mem }

/-- A queue with a descriptor for 2,048 bytes, and a whole frame for it. -/
def rxPort : State := macIs 2 [(MAC_RXQ_BASE 0 0, 0x40000000), (MAC_RXQ_SIZE 0 0, 4), (MAC_RXQ_AVAIL 0 0, 1)] {}
  (putWord (putWord [] 0x40000000 0x40001000#32) 0x40000004 2048#32)
def rxFrame : RxFrame := ⟨sealFrame (List.replicate 60 0), false, false, 0, false, false⟩

set_option maxRecDepth 20000 in
theorem test_met_MacReceives :
    (macIs 1 []).macUp 0 = false ∧ rxPort.macUp 0 = true ∧ rxFrame.bytes.length = 64 ∧ 64 ≤ (rxPort.rxStart 0 rxFrame).1 ∧
    (rxFrame.bytes.take 63).length < 64 ∧
    (let len := rxFrame.bytes.length - 4
     leBytes 4 (crc32 (rxFrame.bytes.take len)).toNat = rxFrame.bytes.drop len ∧ beAt rxFrame.bytes 12 2 ≠ 0x8808 ∧
     (∀ i < 64, rxPort.fltMatch 0 i rxFrame.bytes = false) ∧ rxPort.rdB (MAC_CTRL 0) 7 = false ∧
     rxPort.rdF (MAC_CTRL 0) 11 8 = 0 ∧ rxPort.rdF (MAC_RXQ_SIZE 0 0) 12 0 ≠ 0 ∧
     rxPort.rdF (MAC_RXQ_NEXT 0 0) 11 0 ≠ rxPort.rdF (MAC_RXQ_AVAIL 0 0) 11 0 ∧
     len ≤ bits (wordOf rxPort.mem 0x40000004) 15 0 ∧ inNet (wordOf rxPort.mem 0x40000000).toNat len = true) ∧
    leBytes 4 (crc32 (List.replicate 60 0)).toNat ≠ (List.replicate 64 (0 : Byte)).drop 60 := by decide

/-- A plain descriptor at the head of ring 7, one with a segmentation send, and a frame wholly on the wire. -/
def ring7 (w1 : Word) (m : Mac := {}) : State :=
  macIs 2 [(MAC_TXQ_BASE 0 7, 0x40000000), (MAC_TXQ_SIZE 0 7, 4), (MAC_TXQ_TAIL 0 7, 1)] m
    (putWord (putWord [] 0x40000000 0x40001000#32) 0x40000004 w1)

theorem test_met_MacTransmits :
    (let s := macIs 2 [] { strmQ := [(7, [1, 2, 3])] }
     s.macUp 0 = true ∧ s.rdB (MAC_CTRL 0) 6 = false ∧ (s.mac 0).wire = none ∧ (s.mac 0).pause = none ∧
     (s.mac 0).segs = [] ∧ (s.mac 0).fwQ = [] ∧ (s.mac 0).aniQ = [] ∧ (∀ k < 8, s.rdB (MAC_TCCFG 0) (8 + k) = false) ∧ (∀ k < 8, s.txReady 0 k = false) ∧
     3 + 4 ≤ s.maxlen 0) ∧
    (let s := ring7 60#32
     let d := txD (s.txWords 0 7)
     s.macUp 0 = true ∧ (s.mac 0).strmQ = [] ∧ (∀ k < 8, s.txReady 0 k = decide (k = 7)) ∧ s.txErr 0 7 d = 0 ∧
     d.seg = false ∧ d.csum = false ∧ d.one = false ∧ d.ts = false) ∧
    (let w : Wire := { cls := 7, ring := true, data := [1, 2], upto := 2, start := 0 }
     (({ State.reset with macs := [(0, { wire := some w })] } : State).mac 0).wire = some w ∧ w.gone = 0 ∧
     w.upto = w.data.length ∧ w.stamp = none) ∧
    Reaches (ring7 0x80040#32) owner (MAC_SEG_ABORT 0) ∧ (ring7 0x80040#32).segHead 0 7 = true := by
  unfold Reaches; decide

theorem test_met_LinksChangeState :
    (∀ l < 4, (macIs l []).macLink 0 = l) ∧ ((macIs 2 []).mac 0).wire = none ∧ ((macIs 2 []).mac 0).held = none := by
  decide

theorem test_met_GatesPausesAndStamps :
    Reaches State.reset owner (MAC_GCL_COMMIT 1) ∧ (withRegs [(MAC_GCL_CYCLE 1, 1)]).rdF (MAC_GCL_CYCLE 1) 29 0 ≠ 0 ∧
    Reaches (withRegs [(MAC_GCL_CYCLE 1, 1)]) owner (MAC_GCL_COMMIT 1) ∧
    (let s := macIs 2 [(MAC_CTRL 0, 0x40)] { oper := some ⟨0, 1000, [(255, 1000)]⟩ }
     (s.gatesAt 0 s.stcInt).2 = some 1000 ∧ 0 < s.stcRate ∧
     s.stc + 1000 * 1000000000000 + s.stcRate < 2 ^ 48 * stcSecond) ∧
    ((macIs 2 [] { next := some (⟨0, 1000, []⟩, 5) }).mac 0).next = some (⟨0, 1000, []⟩, 5) ∧
    (let s := macIs 2 [(MAC_PWD 0, 1)] { pause := some (0, 25001) }
     (s.mac 0).pause = some (0, 25001) ∧ s.rdB (MAC_STAT 0) 4 = false ∧
     (s.mac 0).meas + 25000 * s.rdF (MAC_PWD 0) 15 0 < 25001) ∧
    Reaches State.reset owner (MAC_TSQ_POP 0) ∧
    ((macIs 2 [] { tsq := [⟨7, 9, none⟩] }).mac 0).tsq = ⟨7, 9, none⟩ :: [] := by unfold Reaches; decide

/-- The clocks running and standing still, an entry that is on, a PTP instance, and the streams' two paths. -/
theorem test_met_ReferencesAndSteer :
    State.reset.asleep = false ∧ (withRegs [(PWR_STAT, 2)]).asleep = true ∧
    (let s := withRegs [(HSE_CORE_STAT, 2), (HSE_HOUSE_STAT, 4), (SAF_REF_CFG 7, 0x81010000)]
       { State.reset with house := { ptp := [(1, {})] } }
     (s.ptpInst 1).isSome = true ∧ s.anyCore = true ∧ s.shedLevel < 5 ∧ s.refOn 7 = true ∧ s.refSrc 7 = 1 ∧ s.refIx 7 = 1) ∧
    (let s := withRegs [(SAF_REF_CFG 7, 0x82000000)]
     s.refOn 7 = true ∧ s.refSrc 7 = 2 ∧ s.rdB (SAF_REF_STAT 7) 3 = false ∧ s.refState 7 = 0) ∧
    (let s := withRegs [(SAF_REF_CFG 0, 0x86000000)]
     s.refOn 0 = true ∧ s.refSrc 0 = 6 ∧ s.refState 0 = 0) ∧ State.reset.refOn 1 = false ∧
    (let s := withRegs [(SAF_REF_CFG 1, 0x83070000)]
     s.refOn 1 = true ∧ s.refSrc 1 = 3 ∧ s.refIx 1 = 7 ∧ s.rdB (AES_RX_STAT 7) 0 = false ∧ s.rdB (SAF_REF_STAT 1) 3 = false) ∧
    (let s := withRegs [(SAF_REF_CFG 0, 0x82000000)]
     s.refIx 0 = 0 ∧ s.refRate 0 = (s.fs, 1) ∧ 20 * (500 : Int).natAbs * s.fs ≤ 1000000000 ∧
     1000000000 < 20 * (1200 : Int).natAbs * s.fs ∧ s.rdF (SAF_REF_CFG 0) 13 12 = 0) ∧
    (let s := withRegs [(STRM_CTRL, 1), (STRM_RX_CTRL 127, 0xC0000000), (STRM_RX_STAT 127, 6)]
     s.rxRuns 127 = true ∧ s.rdB (STRM_RX_CTRL 127) 30 = true ∧ s.rdB (STRM_RX_STAT 127) 2 = true ∧
     s.rdB (STRM_RX_STAT 127) 1 = true) := by decide

theorem test_met_StcAndTimedStart :
    Reaches State.reset owner STC_SET_CTRL ∧ State.reset.running = false ∧ Reaches going owner STC_SET_CTRL ∧
    going.running = true ∧ Reaches State.reset owner STC_SNAP ∧ Reaches State.reset owner STC_START_CTRL ∧
    State.reset.stc ≤ State.reset.stcRegs STC_START_SECH STC_START_SECL STC_START_NS ∧
    (let s : State := { State.reset with stc := 1 }
     s.stcRegs STC_START_SECH STC_START_SECL STC_START_NS < s.stc ∧ s.stc < 2 ^ 48 * stcSecond ∧
     s.gainFenced = false ∧ s.rdB SYS_FRM_STAT 2 = false ∧ s.frame.final = false) ∧
    (withRegs [(STC_STAT, 2)]).rdB STC_STAT 1 = true ∧ (withRegs [(STC_STAT, 2)]).gainFenced = false ∧
    (withRegs [(STC_STAT, 2)]).stcRegs STC_START_SECH STC_START_SECL STC_START_NS + (withRegs [(STC_STAT, 2)]).stcRate ≤ stcSecond ∧
    (withRegs [(STC_STAT, 2)]).running = false := by unfold Reaches; decide

/-- Link 0 in a state, and frames that it receives. -/
def linkIs (l : Nat) (d : Dng := {}) : State :=
  withRegs [(DNG_L_STAT 0, BitVec.ofNat 32 l)] { State.reset with dng := [(0, d)] }
def dngFrame (k : DngKind) (seq : Nat) : DngOut := { kind := k, seq := seq, payload := [2, 0] }
def dngHdr (k : DngKind) (seq : BitVec 12) : DngFrame := ⟨k, seq, 0, 0, 0, [2, 0]⟩

/-- A frame on the line, and one with a bit of its payload inverted (R314). -/
theorem test_dngParse : dngParse (dngWire (dngFrame .hello 0)) = some (dngHdr .hello 0) ∧
    dngParse (dngWire (dngFrame .event 0xFFF)) = some (dngHdr .event 0xFFF) ∧
    dngParse ((dngWire (dngFrame .ack 0)).set 8 3) = none ∧
    (∀ k ∈ [DngKind.audio, .casc, .time, .mirror, .nak], dngParse (dngWire (dngFrame k 5)) = some (dngHdr k 5)) := by
  decide +kernel

theorem test_met_DongoReceives :
    (∀ l < 3, (linkIs l).dngState 0 = l) ∧ (dngHdr .hello 0).payload.headD 0 ≠ 0 ∧
    (dngHdr .casc 0).seq.toNat = ((linkIs 2).link 0).rxSeq ∧ (dngHdr .event 0xFFF).seq.toNat ≠ ((linkIs 2).link 0).rxSeq ∧
    ({ dngHdr .hello 0 with payload := [0] } : DngFrame).payload.headD 0 = 0 ∧
    (let g : DngOut := { kind := .time, seq := 1 }
     let s := linkIs 2 { replay := [g] }
     (s.linkNow 0).replay = g :: [] ∧ (s.linkNow 0).again = [] ∧
     (ofLeBytes ((dngHdr .ack 0).payload.take 2) % 4096 + 4096 - g.seq) % 4096 ≤ ([] : List DngOut).length + 1) ∧
    (let g : DngOut := { kind := .time, seq := 2 }
     let s := withRegs [(DNG_L_CTRL 0, 0x11)] (linkIs 2 { replay := [g] })
     let t := withRegs [(DNG_L_CTRL 0, 0x11)] (linkIs 2 { replay := [{ g with resent := 1 }] })
     (ofLeBytes ((dngHdr .nak 0).payload.take 2) % 4096 + 4096 - g.seq) % 4096 = 0 ∧
     (s.linkNow 0).replay = [g] ∧ g.resent < s.rdF (DNG_L_CTRL 0) 7 4 ∧
     (t.linkNow 0).replay = [{ g with resent := 1 }] ∧ (t.linkNow 0).again = [] ∧ t.rdF (DNG_L_CTRL 0) 7 4 ≤ 1) := by
  decide

/-- What a frame in sequence finds: a link aligned and not, a cascade channel and another, a bus that awaits the channel
alone, a format taken at a tick and none, a post queue with room and with none. -/
theorem test_met_DongoReceives_kinds :
    (linkIs 0x12).linkAligned 0 = true ∧ (linkIs 2).linkAligned 0 = false ∧ (linkIs 0x12).cascChan 0 255 = false ∧
    (let s : State := { linkIs 0x12 { casc := [(7, 0x80000000)] } with
        frame := { win := .sum }, router := { sinks := [(0x1C00, { terms := [⟨0x24FF, 64, 0, 64⟩] })] } }
     s.linkAligned 0 = true ∧ s.cascChan 0 255 = true ∧ s.rd SYS_FRM_BLOCK = 0 ∧ s.mtx.dead = false ∧ s.cascSrcs 0 = [0x24FF]) ∧
    (let f : DngFrame := { dngHdr .time 0 with payload := List.replicate 11 0 ++ [0x10] ++ List.replicate 4 0 }
     byteAt f.payload 11 / 16 % 2 = 1 ∧ ((linkIs 2).link 0).own = none ∧
     ((linkIs 2 { own := some (0, 0, 0) }).link 0).own = some (0, 0, 0) ∧ (linkIs 0x12).rdB (DNG_L_STAT 0) 4 = true) ∧
    (linkIs 2).rdB ANI_CTRL 0 = false ∧ (linkIs 2).postBusy 0 2367 = false ∧
    (withRegs [(CLV_QCFG, 0)] (linkIs 2)).postBusy 0 2367 = true := by decide

theorem test_met_DongoTimersAndSends :
    (let a : DngOut := { kind := .audio, seq := 0 }
     let c : DngOut := { kind := .casc, seq := 0 }
     let l : Dng := { queue := [a, c] }
     l.again = [] ∧ l.pick 0 = some c ∧ a ∈ l.queue ∧ l.mayStart a = true ∧ a.resent = 0 ∧ 63 * a.at_ ≤ 0) ∧
    ({ kind := .time, seq := 0 } : DngOut).resent = 0 ∧
    (linkIs 2).dngState 0 = 2 ∧ (linkIs 1).dngState 0 ≠ 2 ∧ (linkIs 1).dngState 0 ≠ 0 ∧ (linkIs 1).dngState 0 = 1 ∧
    ({ kind := .time, seq := 3, resent := 1 } : DngOut).resent ≠ 0 ∧
    (let s := withRegs [(DNG_L_CTRL 0, 0x32)] (oneEvent (urgent 2360) (linkIs 2))
     s.forwarded 2360 = true ∧ s.clove.queue = [urgent 2360]) := by decide

/-- Each Anise role and state that a clause names. -/
theorem test_met_AnisePaths :
    (withRegs [(ANI_CTRL, 0x04030045)]).rdB ANI_CTRL 0 = true ∧ (withRegs [(ANI_CTRL, 0x04030045)]).aniRole = 2 ∧
    (withRegs [(ANI_CTRL, 0x04030045)]).pathShut = false ∧ (withRegs [(ANI_CTRL, 0x04030045)]).held = false ∧
    (List.replicate 8 (0 : Word)).length = 8 ∧
    (let s := withRegs [(ANI_CTRL, 0x04030041)] { State.reset with ani := { hTicks := 3, mTicks := 3 } }
     s.ani.hLost = false ∧ s.ani.mLost = false ∧ s.rdF ANI_CTRL 23 16 ≤ s.ani.hTicks ∧
     s.rdF ANI_CTRL 23 16 ≤ s.ani.mTicks) ∧
    writerOk owner SYS_FRM_SPLIT = true ∧ (withRegs [(ANI_CTRL, 0x04030045)]).aniStandby = true ∧
    (withRegs [(ANI_CTRL, 0x04030043)]).aniActive = true := by decide

theorem test_met_AniseCommands :
    Reaches (withRegs [(ANI_CTRL, 0x04030045)]) owner ANI_CMD ∧ (withRegs [(ANI_CTRL, 0x04030045)]).aniRole = 2 ∧
    (let s := withRegs [(ANI_CTRL, 0x04030043), (ANI_STAT, 0x31)]
     Reaches s owner ANI_CMD ∧ s.aniState = 1 ∧ s.peerState = 3) ∧
    (let s := withRegs [(ANI_CTRL, 0x04030043), (ANI_STAT, 0x61)]
     s.aniState = 1 ∧ s.peerState = 6 ∧ s.copying = false) ∧
    (withRegs [(ANI_CTRL, 0x04030043), (ANI_CMD, 4)]).copying = true ∧
    (let s := withEng { live := [(0, { ctrl := 0x80000000, size0 := 1 })] }
       (withRegs [(ANI_CTRL, 0x04030045)] { State.reset with ani := { loads := [(0, [1, 2])] } })
     s.aniStandby = true ∧ s.ani.loads = (0, [1, 2]) :: [] ∧ ((s.eng 0).sb 0).started = false ∧
     (s.liveOf 0).valid = true) ∧
    (let s := withRegs [(ANI_CTRL, 0x04030043), (ANI_CMD, 4)] { State.reset with ani := { flying := some (5, 0), left := [5] } }
     s.aniStandby = false ∧ s.ani.flying = some (5, 0) ∧ s.copying = true ∧ (∀ x ∈ s.ani.left, x = 5)) ∧
    (∃ x ∈ [5, 6], x ≠ 5) ∧
    (let s := withRegs [(ANI_CTRL, 0x04030043), (ANI_COPY_STAT, 0x10)] { State.reset with ani := { doneAt := some 0 } }
     Reaches s owner ANI_CMD ∧ s.copying = false ∧ s.rdF ANI_COPY_STAT 5 4 = 1 ∧ s.ani.doneAt = some s.now) := by
  unfold Reaches; decide

/-- R328. A record on a network port's M path waits in class 6 in a frame of EtherType 0x88B5, ahead of the ring. -/
theorem test_mac_mirror :
    (let s := (withRegs [(MAC_STAT 1, 2), (ANI_CTRL, 0x0403001B)]).aniOut (.delta 6 [0xAB])
     ((s.mac 1).aniQ.map (fun x => x.2.drop 12)) = [[0x88, 0xB5, 1, 0, 0, 0x60, 0xAB]] ∧
     ((s.mac 1).offered 6).isSome = true ∧ ((s.mac 1).offered 7) = none) ∧
    ((withRegs [(ANI_CTRL, 0x0403001B)]).aniOut (.delta 6 [0xAB])).rd (MAC_TXLINKDN_CNT 1) = 1 := by decide

/-- Mailbox m with a command outstanding, both cores running, at a shed level. -/
def mbox (m : Nat) (op : Word) (shed : Word := 0) (a0 : Word := 0) (rs : List (Reg × Word) := [])
    (h : House := { due := [(m, 1)] }) : State :=
  withRegs ([(HSE_MB_STAT m, 0x40000000), (HSE_MB_CMD m, op), (HSE_MB_ARG m 0, a0), (HSE_CORE_STAT, 0x22),
    (HSE_HOUSE_STAT, shed)] ++ rs) { State.reset with house := h }

theorem test_met_Mailboxes :
    Reaches State.reset owner (HSE_MB_DOOR 0) ∧ mbUser owner 0 = true ∧ mbUser guest 0 = false ∧ mbUser guest 1 = true ∧
    State.reset.mbBusy 0 = false ∧ State.reset.anyCore = false ∧ (withRegs [(HSE_CORE_STAT, 2)]).anyCore = true ∧
    (mbox 0 1).mbBusy 0 = true ∧ (mbox 0 1).anyCore = true ∧
    (∀ c ∈ fwCommands 0, Outstanding (mbox 0 (BitVec.ofNat 32 c.2)) 0 c.2) ∧ sget [] (mbox 0 1).house.late 0 = [] ∧
    7 ∉ (fwCommands 0).map Prod.snd ∧ Outstanding (mbox 0 7) 0 7 ∧ (mbox 0 7).shedLevel < 3 ∧
    Outstanding (mbox 1 7 3) 1 7 ∧ 3 ≤ (mbox 1 7 3).shedLevel := by unfold Reaches Outstanding; decide

/-- A late answer awaited, a command at its time, and one lost in a core's reset. -/
theorem test_met_Mailboxes_late :
    (let s := mbox 1 0x40 0 0 [] { due := [(1, 1)], late := [(1, [64])] }
     sget [] s.house.late 1 = 64 :: [] ∧ s.anyCore = true ∧ s.now < sget 0 s.house.due 1 ∧
     (Instr.fwUpdate 1, 0x40) ∈ fwCommands 1) ∧
    (let s := mbox 1 0x30 0 0 [] {}
     s.mbBusy 1 = true ∧ sget 0 s.house.due 1 ≤ s.now ∧ 1 ∉ s.house.lost ∧ s.mbOp 1 = 0x30) ∧
    (let s := mbox 1 0x30 0 0 [] { due := [(1, 1)], lost := [1] }
     s.mbBusy 1 = true ∧ 1 ∈ s.house.lost ∧ s.now < sget 0 s.house.due 1) := by decide

theorem test_met_HouseCommands :
    Outstanding (mbox 0 0x10) 0 0x10 ∧ (mbox 0 0x10).shedLevel < 3 ∧ Outstanding (mbox 1 0x41) 1 0x41 ∧
    Outstanding (mbox 1 0x30 3) 1 0x30 ∧ 3 ≤ (mbox 1 0x30 3).shedLevel ∧ (mbox 1 0x41 2).shedLevel < 3 := by
  unfold Outstanding; decide

theorem test_met_HouseCommands_cases :
    3 < ((mbox 0 2 0 4).mbArg 0 0).toNat ∧ ((mbox 0 2 2 3).mbArg 0 0).toNat ≤ 3 ∧ (mbox 0 2 2 3).shedLevel ≠ 0 ∧
    (mbox 0 0x10 0 0 [(MAC_CTRL 0, 1)]).rdB (MAC_CTRL ((mbox 0 0x10 0 0 [(MAC_CTRL 0, 1)]).mbPort 0)) 0 = true ∧
    (({ State.reset with house := { ptp := [(0, {})] } } : State).ptpInst 0).any PtpInst.starting = true ∧
    bits ((mbox 0 0x20 0 0x100).mbArg 0 0) 15 8 ≠ 0 ∧ bits ((mbox 0 0x20 0 0xFF).mbArg 0 0) 15 8 = 0 ∧
    (mbox 0 0x40).house.update = false ∧
    0x2000000 + ((mbox 0 0x40).mbArg 0 1).toNat ≤ 2 ^ 25 ∧
    (mbox 0 0x40).imageCode (bytesAt (mbox 0 0x40).mem 0x10000000 0) ≠ 0 ∧
    1 ≤ ((mbox 0 0x41 0 3).mbArg 0 0).toNat ∧ ((mbox 0 0x41 0 3).mbArg 0 0).toNat ≤ 3 ∧
    (let s := mbox 0 0x12 0 0 [] { due := [(0, 1)], ptp := [(0, { state := 3, known := true, delay := some 5 })] }
     s.ptpInst (s.mbPort 0) = some { state := 3, known := true, delay := some 5 } ∧
     ({ args := List.replicate 4 0 } : PtpInst).clock ≠ []) ∧
    ({ state := 2, gm := [1] } : PtpInst).gm ≠ [] ∧ (mbox 0 0x12).ptpInst ((mbox 0 0x12).mbPort 0) = none := by decide

theorem test_met_HouseDuties :
    (mbox 0 1 4).shedLevel < 5 ∧ 90 < (91#8).toNat ∧ (mbox 0 1 2).shedLevel = 2 ∧ (mbox 0 1 2).mbBusy 0 = true ∧
    (90#8).toNat ≤ 90 ∧ (69#8).toNat < 70 ∧ 70 ≤ (70#8).toNat ∧ (mbox 0 1).coreRuns 1 = true ∧
    (let s := withRegs [(HSE_CORE_STAT, 1)] { State.reset with boot := { ready := true } }
     s.coreState 0 = 1 ∧ s.boot.ready = true ∧ s.imageCode (s.imageAt (halfBase s.half)) ≠ 0) ∧
    (let s := withRegs [(HSE_CORE_STAT, 0x22), (MAC_STAT 1, 2), (HSE_HOUSE_STAT, 4)]
       { State.reset with house := { ptp := [(1, {})], disc := [(1, (2, 0))] } }
     s.ptpInst 1 = some {} ∧ (s.ptpInst 1).isSome = true ∧ s.anyCore = true ∧ s.shedLevel < 5 ∧ ({} : PtpInst).sends true .delayReq = true ∧ s.macUp 1 = true ∧
     bit (sget (0, 0) s.house.disc 1).1 1 = true ∧ 2 ≤ s.shedLevel) ∧
    (let s := withRegs [(STC_CTRL, 1), (SAF_STAT, 0x80), (SAF_REF_CFG 0, 0x81000000), (HSE_CORE_STAT, 2)]
       { State.reset with stc := 2000001 * 1000000000000, house := { ptp := [(0, {})] } }
     s.safSel = some 0 ∧ s.refSrc 0 = 1 ∧ s.refIx 0 = (0 : Fin 2).val ∧ s.rdB STC_CTRL 0 = true ∧ s.running = false ∧
     1000000 < (1000001 : Int).natAbs ∧ (s.ptpRep 0).stcAt = none ∧ 0 ≤ (s.stc : Int) - 1000001 * 1000000000000 ∧
     (s.stc : Int) - 1000001 * 1000000000000 < 2 ^ 48 * stcSecond ∧ s.anyCore = true) ∧
    (let s : State := { State.reset with saf := { ptp := [(0, { stcAt := some 0 })] } }
     (s.ptpRep 0).stcAt.isSome = true ∧ (s.ptpRep 0).cls ≠ (6#8).toNat) ∧
    State.reset.ptpInst 0 = none ∧ 5 ≤ (mbox 0 1 5).shedLevel ∧ (mbox 0 1 1).shedLevel < 2 := by decide

/-- A vector settled as true, unmasked for one function, and a stay in S2 with the host as a wake source. -/
def vectored : State := (withRegs [(HSE_MB_STAT 1, 0x80000000)] { State.reset with hif := { pf1 := { on := true, unmasked := [1] } } }).settle

theorem test_met_HostInterface :
    (0x7FFFFFFF#32).toNat + 1 ≤ 2 ^ 31 ∧ 0x50000000 ≤ (0x5FFFFFFC#32).toNat ∧ (0x5FFFFFFC#32).toNat < 0x60000000 ∧
    (0x3FF#14).toNat < 0x400 ∧ (0x3FC#14).toNat / 4 % 4 = 3 ∧
    State.reset.asleep = false ∧
    (let m := ({ pf0 := { on := true, pending := [63], unmasked := [63] } } : Hif).msix 0
     63 ∈ m.pending ∧ 63 ∈ m.unmasked ∧ m.on = true ∧ m.mask = false) ∧
    (withRegs [(HSE_MB_STAT 0, 0x80000000)]).fnCond 0 1 = true ∧
    ({ State.reset with reqs := [⟨0, 0, true, 0, 4, 1, [], false⟩] } : State).reqs =
      ⟨0, 0, true, 0, 4, 1, [], false⟩ :: [] ∧
    (withRegs [(PWR_STAT, 2), (PWR_WAKE_EN, 0x20000)]).stay = some 2 ∧
    (withRegs [(PWR_STAT, 3), (PWR_WAKE_EN, 0x20000)]).stay = some 3 ∧
    (withRegs [(PWR_STAT, 3), (PWR_WAKE_EN, 0x20000)]).rdB PWR_WAKE_EN 17 = true ∧
    (withRegs [(PWR_STAT, 3)]).asleep = true ∧ (withRegs [(PWR_STAT, 2)]).pwr.woke = none ∧
    Reaches vectored guest HIF_IREARM ∧ guest.master = 6 ∧ VectorsSettled vectored ∧
    vectored.vecFn 65 = b2n guest.guest ∧ vectored.vecCond 65 = true ∧ 1 ∈ (vectored.hif.msix 1).unmasked ∧
    (vectored.hif.msix 1).on = true ∧ (vectored.hif.msix 1).mask = false ∧
    0 ∉ (vectored.hif.msix 1).unmasked ∧ (withRegs [(HIF_CH_CTRL 3, 0x100)]).rdB (HIF_CH_CTRL 3) 8 = true := by
  unfold Reaches VectorsSettled; decide

/-- A request of function 1 whose read ended in an error, with Completer Aborts reported and not; an exit with a read that
came in the stay. -/
theorem test_met_HostInterface_ends :
    (let x : BusTxn := { id := 0, txn := ⟨6, true, false, false, 0x50000000, [⟨0, 0xE⟩]⟩, target := 13, cause := 0,
                         since := 0, granted := true, beat := 1, err := 3, data := [0], origin := .tlp 4 }
     let s : State := { State.reset with bmx := { txns := [x] }, reqs := [⟨4, 1, true, 0x50000000, 4, 1, [], false⟩] }
     s.doneAt 13 = some x ∧ x.killed = false ∧ x.txn.write = false ∧ x.err ≠ 0 ∧ s.portWait = [] ∧
     s.rdB HIF_CTRL 0 = false ∧ (withRegs [(HIF_CTRL, 1)] s).rdB HIF_CTRL 0 = true) ∧
    (let s := withRegs [(PWR_STAT, 3)] { State.reset with
        pwr := { woke := some 17 }, hif := { later := [.read 0 0x5FFFFFFC [false, true]] } }
     s.pwrState = 3 ∧ s.pwr.woke = some 17 ∧ s.hif.later = [.read 0 0x5FFFFFFC [false, true]] ∧
     (0x5FFFFFFC#32).toNat + [false, true].length ≤ 2 ^ 31) := by decide

/-- Channel 7 of CDMA3 running, with its descriptor at the end of the Sample Pool: 64 bytes from there to its start. -/
def dmaWords : List Word := [0x11FFFF00, 0, 0x10000000, 0, 64, 2, 0, 0]
def dmaState (ch : DmaCh) (moved : Word) : State :=
  withRegs [(TST_MEM_STAT, 0x80000000), (CDMA_CH_STAT 3 7, 1), (CDMA_CH_CUR 3 7, 0x11FFFFE0), (CDMA_CH_MOVED 3 7, moved)]
    { State.reset with dma := [(3, { chans := [(7, ch)], turn := 7 })] }

theorem test_met_DmaOpen :
    DmaOpen (dmaState {} 0) 3 7 ∧ DmaOpen (dmaState { desc := dmaWords } 0) 3 7 ∧
    DmaOpen (dmaState { desc := dmaWords } 64) 3 7 ∧ DmaOpen (dmaState { abort := true } 0) 3 7 ∧
    DmaOpen (dmaState { abort := true, desc := dmaWords, buf := [1] } 0) 3 7 ∧
    DmaOpen (dmaState { stop := some (2, 3) } 0) 3 7 := by
  unfold DmaOpen; decide

/-- A fetch of channel 7 of CDMA3 that has been served. -/
def fetched : BusTxn :=
  { id := 0, txn := runTxn ⟨3, false⟩ false false 0x11FFFFE0 (List.replicate 32 (0, true)), target := 3, cause := 0,
    since := 0, granted := true, beat := 1, data := [0], origin := .dma 3 7 0 .fetch }
def dmaWaits : State :=
  { dmaState { busy := some 0 } 0 with bmx := { txns := [fetched], nextId := 1 } }

theorem test_met_dmaEnd :
    dmaWaits.doneAt 3 = some fetched ∧ fetched.killed = false ∧ (dmaWaits.dmaCh 3 7).busy = some 0 := by decide

theorem test_met_DmaChannels :
    (3 : Fin 8).val < dmaChans 4 ∧ Reaches State.reset owner (dmaReg 4 3 0) ∧ Reaches State.reset owner (dmaReg 3 7 0) ∧
    (∀ c < dmaChans 4, State.reset.dmaRunning 4 c = false) ∧ 0x11FFFFE0 % 32 = 0 ∧
    descOk 3 dmaWords = true ∧ descOk 3 (List.replicate 8 0) = false ∧
    (let d := descOf dmaWords
     d.srcHost = false ∧ d.dstHost = false ∧ (dmaState { desc := dmaWords } 0).rdF (dmaReg 3 7 4) 23 0 < d.len ∧
     0x10000000 ≤ d.src ∧ d.src + d.len ≤ 0x12000000 ∧ 0x10000000 ≤ d.dst ∧ d.dst + d.len ≤ 0x12000000 ∧
     (dmaState { desc := dmaWords } 64).rdF (dmaReg 3 7 4) 23 0 = d.len ∧ d.last = true) ∧
    (descOf [0, 0, 0, 0, 4, 1, 0x20, 0]).last = false ∧ (descOf [0, 0, 0, 0, 4, 1, 0x20, 0]).irq = true := by
  unfold Reaches; decide

/-- A channel of the host's DMA whose descriptor reads host memory. -/
theorem test_met_DmaChannels_host :
    (let s := withRegs [(TST_MEM_STAT, 0x80000000), (HIF_CH_STAT 3, 1)]
       { State.reset with dma := [(4, { chans := [(3, { desc := [0, 0, 0x10000000, 0, 64, 6, 0, 0] })], turn := 3 })] }
     DmaOpen s 4 3 ∧ (descOf (s.dmaCh 4 3).desc).srcHost = true ∧ s.dmaMoved 4 3 < (descOf (s.dmaCh 4 3).desc).len) := by
  unfold DmaOpen; decide

/-- The codes of R370 in turn. -/
theorem test_powerRefusal :
    powerRefusal going = 1 ∧ powerRefusal (withRegs [(PWR_CTRL, 2), (HSE_MB_STAT 1, 0x40000000)]) = 2 ∧
    powerRefusal (withRegs [(PWR_CTRL, 3), (CDMA_CH_STAT 3 7, 1)]) = 2 ∧ powerRefusal (withRegs [(ANI_CTRL, 0x04030041)]) = 3 ∧
    powerRefusal (withRegs [(PWR_CTRL, 4), (PWR_WAKE_EN, 0x20000)]) = 4 ∧
    powerRefusal (withRegs [(PWR_CTRL, 3), (PWR_WAKE_EN, 0x20000)]) = 0 := by decide

theorem test_met_PowerStates :
    Reaches State.reset owner PWR_REQ ∧ State.reset.asleep = false ∧ (withRegs [(PWR_STAT, 4)]).asleep = true ∧
    State.reset.bmx.txns = [] ∧ State.reset.portWait = [] ∧ (tested [waitingTxn]).bmx.txns ≠ [] ∧
    ({ State.reset with pwr := { entering := some 4 } } : State).pwr.entering = some 4 ∧
    (let s := withRegs [(PWR_STAT, 1), (PWR_WAKE_EN, 0x38000), (PWR_AON_TIMER, 1)]
     s.stay = some 1 ∧ s.rdB PWR_WAKE_EN 17 = true ∧ s.rdB PWR_WAKE_EN 16 = true ∧ s.rdB PWR_WAKE_EN 15 = true ∧
     s.pwr.woke = none ∧ s.rdB PWR_WAKE_POL 15 = false ∧ s.rd PWR_AON_TIMER ≠ 0) ∧
    State.reset.stay ≠ some 1 ∧ ({ State.reset with pwr := { woke := some 17 } } : State).pwr.woke = some 17 ∧
    State.reset.held = false ∧ ({ State.reset with pwr := { por := true } } : State).pwr.por = true ∧
    ({ State.reset with pwr := { trip := true } } : State).pwr.trip = true ∧ State.reset.hif.later = [] ∧
    (withRegs [(PWR_STAT, 3)]).pwrState = 3 ∧ (withRegs [(PWR_STAT, 4)]).pwrState = 4 ∧
    (withRegs [(PWR_TMAX, 0x690)]).hot = true ∧ State.reset.hot = false ∧
    (List.replicate 9 (1999#16)).length = 9 ∧ (1999#16).toInt < 2000 ∧ 2000 ≤ (2000#16).toInt ∧
    1840 ≤ (1840#16).toInt ∧ (1839#16).toInt < 1840 := by unfold Reaches; decide

theorem test_met_ResetsAndBoot :
    Reaches State.reset owner SYS_RST_CTRL ∧ (0xA5C3#16).toNat = 0xA5C3 ∧ (0xA5C2#16).toNat ≠ 0xA5C3 ∧
    State.reset.boot.step = .fuses ∧ State.reset.boot.test = true ∧ State.reset.rdF SYS_BOOT_STAT 3 0 = 0 ∧
    (∀ i < 4, State.reset.fenced (724 + i) = false) ∧
    (∃ i < 4, ({ State.reset with rep := [(727, { fenced := true })] } : State).fenced (724 + i) = true) ∧
    ([(⟨727, 5, false⟩ : UnitTest)].map UnitTest.unit).Nodup ∧ Reaches State.reset owner SYS_BOOT_CTRL ∧
    (withRegs [(SYS_BOOT_STAT, 0x20000000)]).rdB SYS_BOOT_STAT 29 = true ∧
    ({ State.reset with boot := { step := .image, pins := 2 } } : State).fromFlash = true ∧
    ({ State.reset with boot := { step := .image, pins := 0 } } : State).fromFlash = true ∧
    ({ State.reset with boot := { step := .image, pins := 1, go := true } } : State).fromFlash = false ∧
    State.reset.asleep = false ∧ State.reset.held = false ∧ State.reset.pwr.por = false ∧ State.reset.boot.sys ≠ 1 ∧
    ({ State.reset with boot := { sys := 1 } } : State).boot.sys = 1 ∧
    ({ State.reset with pwr := { por := true } } : State).pwr.por = true ∧
    ({ State.reset with pwr := { trip := true } } : State).pwr.trip = true ∧
    ({ State.reset with boot := { step := .start } } : State).boot.step = .start ∧
    ({ State.reset with boot := { locked := true } } : State).boot.locked = true ∧ State.reset.boot.mfr < 2 ^ 11 := by
  unfold Reaches; decide

/-- R389: PORn high and VDD_AON above 0.74 V end a power-on reset; 0.70 V does not begin one. -/
theorem test_power_on_limits :
    after (.powerOnReset ⟨0, 0, true, 740⟩) { State.reset with pwr := { por := true } } (fun t => t.pwr.por) = some true ∧
    after (.powerOnReset ⟨0, 0, true, 741⟩) { State.reset with pwr := { por := true } } (fun t => t.pwr.por) = some false ∧
    after (.powerOnReset ⟨0, 0, true, 699⟩) State.reset (fun t => t.pwr.por) = some true ∧
    after (.powerOnReset ⟨0, 0, true, 700⟩) State.reset (fun t => t.pwr.por) = some false := by decide

theorem test_met_MemoryStaysCanonical :
    Memory.wf onSlice.mem = true ∧ Memory.wf (putWord [] 0x20000000 5#32) = true ∧
    (after (.stq 0 .x 0 0 0 .nop) onSlice fun _ => ()) = some () := by decide

theorem test_met_BundleCodesRoundTrip :
    Bundle.wf ⟨.norm 15 14 3, .stl 7 7 3, .nop, .pput 15 7 15 15⟩ = true ∧ Bundle.wf .nop = true := by decide

/-- No engine; one that runs, at the bundle NOP and at a word with no meaning; one that runs nothing. -/
theorem test_met_StepRunsFrontCommand :
    State.reset.pending = [] ∧ State.reset.engs = [] ∧
    (let g : Engine := { cur := some 0 }
     let s := withEng g
     let t := withEng g { State.reset with mem := putWord [] (pmemAddr 0 0 + 4) 0x0E000000#32 }
     s.engs = [((0 : Fin 32).val, g)] ∧ g.cyc = s.now ∧ g.runnable = true ∧ g.issued = false ∧ g.pold = [] ∧
     (Instr.nop 0).bundle? = some (0, .nop) ∧
     decodeBundle (wordOf s.mem (pmemAddr 0 0 + 4) ++ wordOf s.mem (pmemAddr 0 0)) = some .nop ∧
     decodeBundle (wordOf t.mem (pmemAddr 0 0 + 4) ++ wordOf t.mem (pmemAddr 0 0)) = none) ∧
    ({} : Engine).runnable = false ∧ ({ cur := some 0, issued := true } : Engine).issued = true := by decide

end Sys2Proof.Tests
end

namespace Sys2Proof.Machine

/-! A response leaves what decides whether a write reaches its register. -/

@[simp] theorem State.held_respond (s : State) (v : Word) (e : Bool) : (s.respond v e).held = s.held := rfl

@[simp] theorem State.aniStandby_respond (s : State) (v : Word) (e : Bool) :
    (s.respond v e).aniStandby = s.aniStandby := rfl

@[simp] theorem State.aniActive_respond (s : State) (v : Word) (e : Bool) :
    (s.respond v e).aniActive = s.aniActive := rfl

end Sys2Proof.Machine

namespace Sys2Proof

open Sys2Proof.Machine

/-! What only the listed registers, the response and the interrupt messages tell apart. -/

namespace OnlyRegs

theorem refl (s : State) : OnlyRegs s s [] := ⟨rfl, fun _ _ => rfl⟩

theorem trans {s t u : State} {rs qs : List Reg} (h : OnlyRegs s t rs) (k : OnlyRegs t u qs) :
    OnlyRegs s u (rs ++ qs) := by
  obtain ⟨hst, hrd⟩ := h
  obtain ⟨htu, krd⟩ := k
  refine ⟨htu.trans (congrArg (fun x : State => { x with regs := u.regs, rsp := u.rsp, hif := u.hif }) hst),
    fun r hr => ?_⟩
  rw [List.map_append, List.mem_append, not_or] at hr
  exact (krd r hr.2).trans (hrd r hr.1)

theorem mono {s u : State} {rs qs : List Reg} (h : OnlyRegs s u rs) (sub : rs ⊆ qs) : OnlyRegs s u qs :=
  ⟨h.1, fun r hr => h.2 r fun hm => hr (List.map_subset Reg.addr sub hm)⟩

theorem respond (s : State) (v : Word) (e : Bool) : OnlyRegs s (s.respond v e) [] := ⟨rfl, fun _ _ => rfl⟩

theorem settle (s : State) : OnlyRegs s s.settle [] := ⟨rfl, fun _ _ => rfl⟩

theorem wr (s : State) (r : Reg) (v : Word) : OnlyRegs s (s.wr r v) [r] :=
  ⟨rfl, fun _ hq => State.rd_wr_other s v (by simpa using hq)⟩

theorem upd (s : State) (r : Reg) (f : Word → Word) : OnlyRegs s (s.upd r f) [r] := wr s r _

theorem count (s : State) (r : Reg) : OnlyRegs s (s.count r) [r] := wr s r _

theorem plainWrite (s : State) (r : Reg) (d : Word) : OnlyRegs s (s.plainWrite r d) [r] := upd s r _

theorem rd {s u : State} (h : OnlyRegs s u []) (r : Reg) : u.rd r = s.rd r := h.2 r List.not_mem_nil

theorem mem {s u : State} {rs : List Reg} (h : OnlyRegs s u rs) : u.mem = s.mem := (congrArg State.mem h.1).trans rfl

theorem frame {s u : State} {rs : List Reg} (h : OnlyRegs s u rs) : u.frame = s.frame :=
  (congrArg State.frame h.1).trans rfl

theorem pwr {s u : State} {rs : List Reg} (h : OnlyRegs s u rs) : u.pwr = s.pwr := (congrArg State.pwr h.1).trans rfl

end OnlyRegs

/-! The log of rejected writes (R10, R385). -/

theorem setBits_whole (w : Word) (v : Nat) : setBits w 31 0 v = BitVec.ofNat 32 v := by
  apply BitVec.eq_of_toNat_eq
  simp [setBits]

theorem bits_whole (w : Word) : bits w 31 0 = w.toNat := by
  simpa [bits] using Nat.mod_eq_of_lt w.isLt

/-- A 32-bit event counter advances by one and stays at its maximum (R9). -/
theorem rdF_count_same (s : State) (r : Reg) :
    (s.count r).rdF r 31 0 = min (s.rdF r 31 0 + 1) (2 ^ 32 - 1) := by
  have hlt : min (bits (s.rd r) 31 0 + 1) (2 ^ 32 - 1) < 2 ^ 32 := by omega
  unfold State.rdF State.count
  rw [State.rd_countF_same, setBits_whole, bits_whole (BitVec.ofNat 32 _), BitVec.toNat_ofNat]
  exact Nat.mod_eq_of_lt hlt

/-- The log's word: valid, the function, the master (R385). -/
theorem rejLog_word : ∀ (g : Bool) (m : Fin 12), setBits (setBit (setBit 0 31 true) 30 g) 27 24 m.val =
    BitVec.ofNat 32 (2 ^ 31 + b2n g * 2 ^ 30 + m.val * 2 ^ 24) := by decide

theorem reject_of_logged {s : State} (h : s.rdB SYS_REJLOG 31 = true) (q : Req) (a d : Word) :
    s.reject q a d = s.count SYS_REJ_CNT := by
  have hc : (s.count SYS_REJ_CNT).rdB SYS_REJLOG 31 = true := by
    unfold State.rdB; rwa [State.rd_count_other s (by decide)]
  simp [State.reject, hc]

theorem reject_of_unlogged {s : State} (h : s.rdB SYS_REJLOG 31 = false) (q : Req) (a d : Word) :
    s.reject q a d = (((s.count SYS_REJ_CNT).wr SYS_REJLOG
      (BitVec.ofNat 32 (2 ^ 31 + b2n q.guest * 2 ^ 30 + q.master.val * 2 ^ 24))).wr SYS_REJADDR a).wr
        SYS_REJDATA d := by
  have hc : (s.count SYS_REJ_CNT).rdB SYS_REJLOG 31 = false := by
    unfold State.rdB; rwa [State.rd_count_other s (by decide)]
  simp only [State.reject, hc, Bool.false_eq_true, if_false, rejLog_word]

theorem rsp_reject (s : State) (q : Req) (a d : Word) : (s.reject q a d).rsp = s.rsp := by
  unfold State.reject
  simp only
  split <;> rfl

theorem rejected_reject (s : State) (q : Req) (a d : Word) : Rejected s (s.reject q a d) q a d := by
  have hcnt : OnlyRegs s (s.count SYS_REJ_CNT) [SYS_REJ_CNT] := OnlyRegs.count s SYS_REJ_CNT
  cases h : s.rdB SYS_REJLOG 31 with
  | true =>
    rw [reject_of_logged h]
    exact ⟨rdF_count_same s _, fun e => absurd (h ▸ e) (by decide), fun _ => hcnt, hcnt.mono (by simp)⟩
  | false =>
    rw [reject_of_unlogged h]
    refine ⟨?_, fun _ => ⟨?_, ?_, ?_⟩, fun e => absurd (h ▸ e) (by decide),
      ((hcnt.trans (.wr _ _ _)).trans (.wr _ _ _)).trans (.wr _ _ _)⟩
    · unfold State.rdF
      rw [State.rd_wr_other _ _ (by decide), State.rd_wr_other _ _ (by decide), State.rd_wr_other _ _ (by decide)]
      exact rdF_count_same s _
    · rw [State.rd_wr_other _ _ (by decide), State.rd_wr_other _ _ (by decide), State.rd_wr_same]
    · rw [State.rd_wr_other _ _ (by decide), State.rd_wr_same]
    · rw [State.rd_wr_same]

/-- What leaves every register as it was, before a rejected write and after it, leaves it a rejected write. -/
theorem Rejected.frame {s t u v : State} {q : Req} {a d : Word} (h : OnlyRegs s t []) (r : Rejected t u q a d)
    (k : OnlyRegs u v []) : Rejected s v q a d := by
  obtain ⟨hcnt, hlog, hfull, honly⟩ := r
  unfold Rejected State.rdF State.rdB at *
  simp only [k.rd, h.rd] at *
  exact ⟨hcnt, hlog, fun e => by simpa using (h.trans (hfull e)).trans k, by simpa using (h.trans honly).trans k⟩

/-! What a register access does: partial and misplaced ones, and those that reach their register or do not (R5, R6, R10,
R11). -/

theorem Gives.registerWrite {s : State} {q : Req} {a d : Word} {be : BitVec 4} {P : State → Prop}
    (h : P (s.registerWrite q a.toNat d be).settle) : Gives (.registerWrite q a d be) s P := ⟨_, rfl, h⟩

theorem Gives.readClear {s : State} {q : Req} {a : Word} {P : State → Prop}
    (h : P (s.readClear q a.toNat).settle) : Gives (.readClear q a) s P := ⟨_, rfl, h⟩

/-- The address of a register, as a command's word names it. -/
theorem IsRegister.toNat_addr {r : Reg} (hr : IsRegister r) : (BitVec.ofNat 32 r.addr).toNat = r.addr := by
  obtain ⟨-, -, -, hlt⟩ := hr
  rw [BitVec.toNat_ofNat]
  exact Nat.mod_eq_of_lt hlt

theorem registerWrite_error {a : Nat} {be : BitVec 4} (s : State) (q : Req) (d : Word)
    (h : be ≠ 0xF#4 ∨ a % 4 ≠ 0 ∨ isRegAddr a = false) : s.registerWrite q a d be = s.respond 0 true := by
  rcases h with h | h | h <;> simp [State.registerWrite, h]

theorem registerWrite_whole {r : Reg} (s : State) (q : Req) (d : Word) (hr : IsRegister r) :
    s.registerWrite q r.addr d 0xF#4 = s.busWriteReg q r.addr d := by
  obtain ⟨-, hreg, hal, -⟩ := hr
  simp [State.registerWrite, hreg, hal]

theorem regOr_addr {r : Reg} (hr : IsRegister r) : regOr r.addr = r := by
  unfold regOr
  rw [hr.1, Option.getD_some]

theorem busWriteReg_reaches {s : State} {q : Req} {r : Reg} (d : Word) (hr : IsRegister r) (h : Reaches s q r) :
    s.busWriteReg q r.addr d = (s.respond 0 false).writeReg q r.addr d := by
  obtain ⟨hw, hheld, hani⟩ := h
  by_cases hm : q.master = 6 ∧ mirrored r.addr = true
  · obtain ⟨hsb, hact⟩ := hani hm.1 hm.2
    simp [State.busWriteReg, regOr_addr hr, State.gated, hheld, hw, hsb, hact]
  · simp [State.busWriteReg, regOr_addr hr, State.gated, hheld, hw, hm]

theorem busWriteReg_blocked {s : State} {q : Req} {r : Reg} (d : Word) (hr : IsRegister r)
    (h : writerOk q r = false ∨ s.held = true)
    (hani : q.master = 6 → mirrored r.addr = true → s.held = false → s.aniStandby = false ∧ s.aniActive = false) :
    s.busWriteReg q r.addr d = s.respond 0 false := by
  cases hheld : s.held with
  | true => simp [State.busWriteReg, State.gated, hheld]
  | false =>
    have hw : writerOk q r = false := h.resolve_right (by simp [hheld])
    by_cases hm : q.master = 6 ∧ mirrored r.addr = true
    · obtain ⟨hsb, hact⟩ := hani hm.1 hm.2 hheld
      simp [State.busWriteReg, regOr_addr hr, State.gated, hheld, hw, hsb, hact]
    · simp [State.busWriteReg, regOr_addr hr, State.gated, hheld, hw, hm]

/-- A write that reaches its register has what the tables of its block say happen, after its response. -/
theorem Gives.registerWrite_reaches {s : State} {q : Req} {r : Reg} {d : Word} {P : State → Prop} (hr : IsRegister r)
    (h : Reaches s q r) (hP : P ((s.respond 0 false).writeReg q r.addr d).settle) :
    Gives (.registerWrite q (BitVec.ofNat 32 r.addr) d 0xF#4) s P := by
  refine Gives.registerWrite ?_
  rwa [hr.toNat_addr, registerWrite_whole s q d hr, busWriteReg_reaches d hr h]

/-! What a write does at the register, by its block (R5, R7, R13). -/

theorem and_not_zero (w : Word) : w &&& ~~~0 = w := BitVec.and_allOnes

theorem rd_plainWrite_same (s : State) (r : Reg) (d : Word) :
    (s.plainWrite r d).rd r = ((s.rd r &&& ~~~r.rw) ||| (d &&& r.rw)) &&& ~~~(d &&& r.w1c) := State.rd_upd_same s r _

theorem writeReg_engine {r : Reg} (s : State) (q : Req) (d : Word) (hr : regAt r.addr = some r)
    (ha : r.addr < 0x50000000) : s.writeReg q r.addr d =
      s.writeEng q r ((r.addr - 0x20000000) / 0x80000) (r.addr % 0x80000 - 0x70000) d := by
  simp [State.writeReg, hr, ha]

/-- A register that no table of its block gives an effect or a range takes its fields as written (R7): what
`hasOwnWrite` rules out are the conditions of the block's other branches. -/
theorem writeReg_plain {r : Reg} (s : State) (q : Req) (d : Word) (hr : regAt r.addr = some r)
    (h : hasOwnWrite r.addr = false) : s.writeReg q r.addr d = s.plainWrite r d := by
  unfold hasOwnWrite at h
  by_cases ha : r.addr < 0x50000000
  · rw [writeReg_engine s q d hr ha]
    simp_all [State.writeEng]
  · obtain ⟨block, hb⟩ : ∃ n, (r.addr - 0x50000000) / 0x10000 = n := ⟨_, rfl⟩
    simp only [State.writeReg, hr, ha, if_false, hb] at h ⊢
    generalize r.addr % 0x10000 = o at h ⊢
    revert h
    match block with
    | 0 => simp +contextual [State.writeSys]
    | 1 => simp +contextual [State.writePwr]
    | 2 => simp +contextual (disch := omega) [State.writeBmx, if_neg]
    | 3 => simp +contextual (disch := omega) [State.writeClv, if_neg, ite_self]
    | 4 => simp +contextual (disch := omega) [State.writeSaf, if_neg, ite_self]
    | 5 => simp +contextual [State.writeStc]
    | 6 => simp +contextual [State.writeSap]
    | 7 => simp +contextual (disch := omega) [State.writeAes, if_neg]
    | 8 => simp +contextual (disch := omega) [State.writeSrc, if_neg]
    | 9 | 10 => simp +contextual (disch := omega) [State.writeMac, State.macRing, if_neg, ite_self]
    | 11 => simp +contextual (disch := omega) [State.writeStrm, if_neg]
    | 12 => simp +contextual (disch := omega) [State.writeDng, if_neg]
    | 13 => simp +contextual [State.writeAni]
    | 14 => simp +contextual (disch := omega) [State.writeMxm, if_neg, ite_self]
    | 15 => simp +contextual (disch := omega) [State.writePrt, if_neg]
    | 16 => simp +contextual (disch := omega) [State.writeHif, if_neg]
    | 17 => simp +contextual [State.writeHse]
    | 18 => simp +contextual (disch := omega) [State.writeCdma, if_neg]
    | 19 => simp +contextual [State.writeTst]
    | _ + 20 => exact fun _ => rfl

section Block

variable {r : Reg} (s : State) (q : Req) (d : Word) (hr : regAt r.addr = some r)
include hr

theorem writeReg_pwr (ha : r.addr / 0x10000 = 0x5001) :
    s.writeReg q r.addr d = s.writePwr q r (r.addr % 0x10000) d := by
  have hb : (r.addr - 0x50000000) / 0x10000 = 1 := by omega
  simp only [State.writeReg, hr, if_neg (show ¬r.addr < 0x50000000 by omega), hb]

theorem writeReg_bmx (ha : r.addr / 0x10000 = 0x5002) :
    s.writeReg q r.addr d = s.writeBmx q r (r.addr % 0x10000) d := by
  have hb : (r.addr - 0x50000000) / 0x10000 = 2 := by omega
  simp only [State.writeReg, hr, if_neg (show ¬r.addr < 0x50000000 by omega), hb]

theorem writeReg_saf (ha : r.addr / 0x10000 = 0x5004) :
    s.writeReg q r.addr d = s.writeSaf q r (r.addr % 0x10000) d := by
  have hb : (r.addr - 0x50000000) / 0x10000 = 4 := by omega
  simp only [State.writeReg, hr, if_neg (show ¬r.addr < 0x50000000 by omega), hb]

theorem writeReg_stc (ha : r.addr / 0x10000 = 0x5005) :
    s.writeReg q r.addr d = s.writeStc q r (r.addr % 0x10000) d := by
  have hb : (r.addr - 0x50000000) / 0x10000 = 5 := by omega
  simp only [State.writeReg, hr, if_neg (show ¬r.addr < 0x50000000 by omega), hb]

theorem writeReg_tst (ha : r.addr / 0x10000 = 0x5013) :
    s.writeReg q r.addr d = s.writeTst q r (r.addr % 0x10000) d := by
  have hb : (r.addr - 0x50000000) / 0x10000 = 19 := by omega
  simp only [State.writeReg, hr, if_neg (show ¬r.addr < 0x50000000 by omega), hb]

theorem writeReg_mac {n : Nat} (hn : n < 2) (ha : r.addr / 0x10000 = 0x5009 + n) :
    s.writeReg q r.addr d = s.writeMac q r n (r.addr % 0x10000) d := by
  have hb : (r.addr - 0x50000000) / 0x10000 = 9 + n := by omega
  match n, hn with
  | 0, _ | 1, _ => simp only [State.writeReg, hr, if_neg (show ¬r.addr < 0x50000000 by omega), hb]

end Block

/-! Registers with one range. -/

/-- A write of the register `r` with the value `d`, of the range that `ok` decides, and nothing else (R10). -/
structure OwnRange (r : Reg) (d : Word) (ok : Bool) : Prop where
  isRegister : IsRegister r
  noW1c : r.w1c = 0
  writeReg (s : State) (q : Req) : s.writeReg q r.addr d = s.ranged q r d ok

theorem isRegister_ofRange : ∀ r ∈ [BMX_LOCK_TO, PWR_CTRL, PWR_TALARM, SAF_LOCKTH, SAF_HLEN, STC_SET_NS, STC_START_NS,
    TST_MEM_UNIT], IsRegister r := by
  unfold IsRegister; decide

theorem isRegister_macRange : ∀ n < 2, IsRegister (MAC_MAXLEN n) ∧ IsRegister (MAC_PWD n) := by
  unfold IsRegister; decide

theorem isRegister_engRange : ∀ e < 32, IsRegister (ENG_RCAP e) ∧ IsRegister (ENG_EVT_VEC e) := by
  unfold IsRegister; decide

theorem ownRange_safLockth (d : Word) :
    OwnRange SAF_LOCKTH d (decide (10 ≤ bits d 16 0 ∧ bits d 16 0 ≤ 100000)) where
  isRegister := isRegister_ofRange _ (by simp)
  noW1c := rfl
  writeReg s q := by
    rw [writeReg_saf s q d (isRegister_ofRange _ (by simp)).1 rfl]
    change s.ranged q SAF_LOCKTH d
      (decide ((10 : Int) ≤ (bits d 16 0 : Nat) ∧ ((bits d 16 0 : Nat) : Int) ≤ 100000)) = _
    norm_cast

theorem ownRange_safHlen (d : Word) :
    OwnRange SAF_HLEN d (decide (16 ≤ bits d 11 0 ∧ bits d 11 0 ≤ 3600)) where
  isRegister := isRegister_ofRange _ (by simp)
  noW1c := rfl
  writeReg s q := by
    rw [writeReg_saf s q d (isRegister_ofRange _ (by simp)).1 rfl]
    change s.ranged q SAF_HLEN d (decide ((16 : Int) ≤ (bits d 11 0 : Nat) ∧ ((bits d 11 0 : Nat) : Int) ≤ 3600)) = _
    norm_cast

theorem ownRange_macMaxlen (d : Word) {n : Nat} (hn : n < 2) :
    OwnRange (MAC_MAXLEN n) d (decide (64 ≤ bits d 13 0 ∧ bits d 13 0 ≤ 9216)) where
  isRegister := (isRegister_macRange n hn).1
  noW1c := rfl
  writeReg s q := by
    have hb : (MAC_MAXLEN n).addr / 0x10000 = 0x5009 + n := by simp only [MAC_MAXLEN]; omega
    have ho : (MAC_MAXLEN n).addr % 0x10000 = 0x10 := by simp only [MAC_MAXLEN]; omega
    rw [writeReg_mac s q d (isRegister_macRange n hn).1.1 hn hb, ho]
    rfl

theorem ownRange_macPwd (d : Word) {n : Nat} (hn : n < 2) :
    OwnRange (MAC_PWD n) d (decide (10 ≤ bits d 15 0 ∧ bits d 15 0 ≤ 65535)) where
  isRegister := (isRegister_macRange n hn).2
  noW1c := rfl
  writeReg s q := by
    have hb : (MAC_PWD n).addr / 0x10000 = 0x5009 + n := by simp only [MAC_PWD]; omega
    have ho : (MAC_PWD n).addr % 0x10000 = 0x14 := by simp only [MAC_PWD]; omega
    rw [writeReg_mac s q d (isRegister_macRange n hn).2.1 hn hb, ho]
    rfl

theorem ownRange_engRcap (d : Word) {e : Nat} (he : e < 32) :
    OwnRange (ENG_RCAP e) d (decide (8 ≤ bits d 15 0)) where
  isRegister := (isRegister_engRange e he).1
  noW1c := rfl
  writeReg s q := by
    have hb : (ENG_RCAP e).addr < 0x50000000 := by simp only [ENG_RCAP]; omega
    have ho : (ENG_RCAP e).addr % 0x80000 - 0x70000 = 0xC := by simp only [ENG_RCAP]; omega
    rw [writeReg_engine s q d (isRegister_engRange e he).1.1 hb, ho]
    rfl

theorem ownRange_engEvtVec (d : Word) {e : Nat} (he : e < 32) :
    OwnRange (ENG_EVT_VEC e) d (decide (bits d 12 0 ≤ 6143)) where
  isRegister := (isRegister_engRange e he).2
  noW1c := rfl
  writeReg s q := by
    have hb : (ENG_EVT_VEC e).addr < 0x50000000 := by simp only [ENG_EVT_VEC]; omega
    have ho : (ENG_EVT_VEC e).addr % 0x80000 - 0x70000 = 0x10 := by simp only [ENG_EVT_VEC]; omega
    rw [writeReg_engine s q d (isRegister_engRange e he).2.1 hb, ho]
    rfl

theorem ownRange_of_mem {d : Word} {x : Reg × Bool} (h : x ∈ rangeTable d) : OwnRange x.1 d x.2 := by
  have hr := isRegister_ofRange
  simp only [rangeTable, upTo, List.mem_append, List.mem_flatMap, List.mem_range, List.mem_cons, List.not_mem_nil,
    or_false] at h
  rcases h with ((rfl | rfl | rfl | rfl | rfl | rfl | rfl | rfl) | ⟨n, hn, rfl | rfl⟩) | ⟨e, he, rfl | rfl⟩
  · exact ⟨hr _ (by simp), rfl, fun s q => writeReg_bmx s q d (hr BMX_LOCK_TO (by simp)).1 rfl⟩
  · exact ⟨hr _ (by simp), rfl, fun s q => writeReg_pwr s q d (hr PWR_CTRL (by simp)).1 rfl⟩
  · exact ⟨hr _ (by simp), rfl, fun s q => writeReg_pwr s q d (hr PWR_TALARM (by simp)).1 rfl⟩
  · exact ownRange_safLockth d
  · exact ownRange_safHlen d
  · exact ⟨hr _ (by simp), rfl, fun s q => writeReg_stc s q d (hr STC_SET_NS (by simp)).1 rfl⟩
  · exact ⟨hr _ (by simp), rfl, fun s q => writeReg_stc s q d (hr STC_START_NS (by simp)).1 rfl⟩
  · exact ⟨hr _ (by simp), rfl, fun s q => writeReg_tst s q d (hr TST_MEM_UNIT (by simp)).1 rfl⟩
  · exact ownRange_macMaxlen d hn
  · exact ownRange_macPwd d hn
  · exact ownRange_engRcap d he
  · exact ownRange_engEvtVec d he

/-! Reads of registers that show the stored value (R7, R8, R403). -/

theorem showEng_stored (s : State) (r : Reg) (e : Nat) {o : Nat} (h : [0, 8, 0x38].contains o = false) :
    s.showEng r e o = s.rd r := by
  simp_all [State.showEng]

/-- A register that no table of its block lets show the state of its unit shows the stored value: what `hasOwnRead`
rules out are the conditions of the block's other branches. -/
theorem showReg_stored {r : Reg} (s : State) (h : hasOwnRead r.addr = false) : s.showReg r r.addr = s.rd r := by
  unfold hasOwnRead at h
  unfold State.showReg
  by_cases ha : r.addr < 0x50000000
  · simp only [ha, if_true] at h ⊢
    exact showEng_stored s r _ h
  · obtain ⟨block, hb⟩ : ∃ n, (r.addr - 0x50000000) / 0x10000 = n := ⟨_, rfl⟩
    simp only [ha, if_false, hb] at h ⊢
    generalize r.addr % 0x10000 = o at h ⊢
    revert h
    match block with
    | 0 | 1 | 2 => simp +contextual
    | 3 => simp
    | 4 | 5 => exact fun _ => rfl
    | 6 => simp +contextual (disch := omega) [State.showPort, if_neg]
    | 7 => simp +contextual [State.showPort]
    | 8 => simp +contextual
    | 9 | 10 => simp +contextual [State.showNet]
    | 11 => simp +contextual (disch := omega) [State.showNet, if_neg]
    | 12 => simp
    | 13 | 14 => exact fun _ => rfl
    | 15 => simp +contextual [State.showPrt]
    | 16 => simp +contextual (disch := omega) [if_neg]
    | 17 => exact fun _ => rfl
    | 18 => simp +contextual (disch := omega) [if_neg]
    | 19 => simp +contextual
    | _ + 20 => exact fun _ => rfl

theorem hasOwnRead_clove {a : Nat} (h : 0x50030000 ≤ a ∧ a < 0x50040000) : hasOwnRead a = true := by
  have hb : (a - 0x50000000) / 0x10000 = 3 := by omega
  simp only [hasOwnRead, if_neg (show ¬a < 0x50000000 by omega), hb]

theorem hasOwnRead_dongo {a : Nat} (h : 0x500C0000 ≤ a ∧ a < 0x500D0000) : hasOwnRead a = true := by
  have hb : (a - 0x50000000) / 0x10000 = 12 := by omega
  simp only [hasOwnRead, if_neg (show ¬a < 0x50000000 by omega), hb]

theorem hasOwnRead_mailbox {a : Nat} (h : 0x50110000 ≤ a ∧ a < 0x50110200) : hasOwnRead a = true := by
  have hb : (a - 0x50000000) / 0x10000 = 17 := by omega
  simp only [hasOwnRead, if_neg (show ¬a < 0x50000000 by omega), hb, decide_eq_true_eq]
  omega

theorem hasOwnRead_streamCount {a : Nat} (h : 0x500B0020 ≤ a ∧ a < 0x500B003C) : hasOwnRead a = true := by
  have hb : (a - 0x50000000) / 0x10000 = 11 := by omega
  have ho : 0x20 ≤ a % 0x10000 ∧ a % 0x10000 < 0x3C := by omega
  simp [hasOwnRead, if_neg (show ¬a < 0x50000000 by omega), hb, ho]

theorem readReg_stored {r : Reg} (s : State) (q : Req) (hr : IsRegister r) (h : hasOwnRead r.addr = false) :
    s.readReg q r.addr = (s.rd r &&& ~~~r.wo, s.readClears r) := by
  have hc : ¬(0x50030000 ≤ r.addr ∧ r.addr < 0x50040000) := fun k => by simp [hasOwnRead_clove k] at h
  have hd : ¬(0x500C0000 ≤ r.addr ∧ r.addr < 0x500D0000) := fun k => by simp [hasOwnRead_dongo k] at h
  have hm : ¬(0x50110000 ≤ r.addr ∧ r.addr < 0x50110200 ∧ !(mbUser q ((r.addr - 0x50110000) / 0x100))) :=
    fun ⟨hlo, hhi, _⟩ => by simp [hasOwnRead_mailbox ⟨hlo, hhi⟩] at h
  simp only [State.readReg, hr.1, if_neg hc, if_neg hd, if_neg hm, showReg_stored s h]

theorem readClear_error {a : Nat} (s : State) (q : Req) (h : a % 4 ≠ 0 ∨ isRegAddr a = false) :
    s.readClear q a = s.respond 0 true := by
  rcases h with h | h <;> simp [State.readClear, h]

theorem readClear_stored {r : Reg} (s : State) (q : Req) (hr : IsRegister r) (h : hasOwnRead r.addr = false) :
    s.readClear q r.addr = (s.readClears r).respond (s.rd r &&& ~~~r.wo) false := by
  obtain ⟨-, hreg, hal, -⟩ := id hr
  simp [State.readClear, hreg, hal, readReg_stored s q hr h]

/-- The state once a read has cleared a register's RC fields, before an extremum is marked empty (R7, R403). -/
def rcCleared (s : State) (r : Reg) : State := if r.rc = 0 then s else s.upd r (fun w => w &&& ~~~r.rc)

theorem rd_rcCleared (s : State) (r : Reg) : (rcCleared s r).rd r = s.rd r &&& ~~~r.rc := by
  unfold rcCleared
  split
  · next h => rw [h, and_not_zero]
  · exact State.rd_upd_same s r _

theorem onlyRegs_rcCleared (s : State) (r : Reg) : OnlyRegs s (rcCleared s r) [r] := by
  unfold rcCleared
  split
  · exact (OnlyRegs.refl s).mono (by simp)
  · exact OnlyRegs.upd s r _

theorem readClears_frameDev {r : Reg} (s : State) (h : r.addr = SYS_FRM_DEV.addr) :
    s.readClears r = { rcCleared s r with frame := { (rcCleared s r).frame with devSeen := false } } := by
  simp only [State.readClears, h, if_true, rcCleared]

theorem readClears_tempPeak {r : Reg} (s : State) (h : r.addr = PWR_TPEAK.addr) :
    s.readClears r = { rcCleared s r with pwr := { (rcCleared s r).pwr with peakSeen := false } } := by
  have hne : PWR_TPEAK.addr ≠ SYS_FRM_DEV.addr := by decide
  simp only [State.readClears, h, if_neg hne, if_true, rcCleared]

theorem readClears_other {r : Reg} (s : State) (h : hasOwnRead r.addr = false) (hd : r.addr ≠ SYS_FRM_DEV.addr)
    (hp : r.addr ≠ PWR_TPEAK.addr) : s.readClears r = rcCleared s r := by
  have hc : ¬(0x500B0020 ≤ r.addr ∧ r.addr < 0x500B003C) := fun k => by simp [hasOwnRead_streamCount k] at h
  simp only [State.readClears, if_neg hd, if_neg hp, if_neg hc, rcCleared]

theorem regs_mem_readClears {r : Reg} (s : State) (h : hasOwnRead r.addr = false) :
    (s.readClears r).regs = (rcCleared s r).regs ∧ (s.readClears r).mem = (rcCleared s r).mem := by
  by_cases hd : r.addr = SYS_FRM_DEV.addr
  · rw [readClears_frameDev s hd]
    exact ⟨rfl, rfl⟩
  · by_cases hp : r.addr = PWR_TPEAK.addr
    · rw [readClears_tempPeak s hp]
      exact ⟨rfl, rfl⟩
    · rw [readClears_other s h hd hp]
      exact ⟨rfl, rfl⟩

/-! The clauses about writes and reads. -/

theorem write_error (s : State) (q : Req) (a d : Word) (be : BitVec 4)
    (h : be ≠ 0xF#4 ∨ a.toNat % 4 ≠ 0 ∨ isRegAddr a.toNat = false) :
    Gives (.registerWrite q a d be) s fun u => u.rsp = ⟨[0], true⟩ ∧ OnlyRegs s u [] := by
  refine Gives.registerWrite ?_
  rw [registerWrite_error s q d h]
  exact ⟨rfl, (OnlyRegs.respond s 0 true).trans (.settle _)⟩

theorem write_plain {s : State} {q : Req} {r : Reg} (d : Word) (hr : IsRegister r) (hown : hasOwnWrite r.addr = false)
    (h : Reaches s q r) : Gives (.registerWrite q (BitVec.ofNat 32 r.addr) d 0xF#4) s fun u =>
      u.rd r = ((s.rd r &&& ~~~r.rw) ||| (d &&& r.rw)) &&& ~~~(d &&& r.w1c) ∧
      u.rsp = ⟨[0], false⟩ ∧ OnlyRegs s u [r] := by
  refine Gives.registerWrite_reaches hr h ?_
  rw [writeReg_plain _ q d hr.1 hown]
  exact ⟨rd_plainWrite_same _ r d, rfl, ((OnlyRegs.respond s 0 false).trans (.plainWrite _ r d)).trans (.settle _)⟩

theorem write_inRange {s : State} {q : Req} {r : Reg} {d : Word} (hr : OwnRange r d true) (h : Reaches s q r) :
    Gives (.registerWrite q (BitVec.ofNat 32 r.addr) d 0xF#4) s fun u => u.rsp = ⟨[0], false⟩ ∧
      u.rd r = (s.rd r &&& ~~~r.rw) ||| (d &&& r.rw) ∧ OnlyRegs s u [r] := by
  refine Gives.registerWrite_reaches hr.isRegister h ?_
  rw [hr.writeReg, State.ranged, if_pos rfl]
  refine ⟨rfl, (rd_plainWrite_same _ r d).trans ?_,
    ((OnlyRegs.respond s 0 false).trans (.plainWrite _ r d)).trans (.settle _)⟩
  rw [hr.noW1c, show d &&& 0 = 0 from BitVec.and_zero, and_not_zero, State.rd_respond]

theorem write_outOfRange {s : State} {q : Req} {r : Reg} {d : Word} (hr : OwnRange r d false) (h : Reaches s q r) :
    Gives (.registerWrite q (BitVec.ofNat 32 r.addr) d 0xF#4) s fun u => u.rsp = ⟨[0], false⟩ ∧
      Rejected s u q (BitVec.ofNat 32 r.addr) d := by
  refine Gives.registerWrite_reaches hr.isRegister h ?_
  rw [hr.writeReg, State.ranged, if_neg Bool.false_ne_true]
  exact ⟨rsp_reject _ q _ d, (rejected_reject _ q _ d).frame (.respond s 0 false) (.settle _)⟩

theorem write_blocked {s : State} {q : Req} {r : Reg} (d : Word) (hr : IsRegister r)
    (h : writerOk q r = false ∨ s.held = true)
    (hani : q.master = 6 → mirrored r.addr = true → s.held = false → s.aniStandby = false ∧ s.aniActive = false) :
    Gives (.registerWrite q (BitVec.ofNat 32 r.addr) d 0xF#4) s fun u =>
      u.rsp = ⟨[0], false⟩ ∧ OnlyRegs s u [] := by
  refine Gives.registerWrite ?_
  rw [hr.toNat_addr, registerWrite_whole s q d hr, busWriteReg_blocked d hr h hani]
  exact ⟨rfl, (OnlyRegs.respond s 0 false).trans (.settle _)⟩

theorem read_error (s : State) (q : Req) (a : Word) (h : a.toNat % 4 ≠ 0 ∨ isRegAddr a.toNat = false) :
    Gives (.readClear q a) s fun u => u.rsp = ⟨[0], true⟩ ∧ OnlyRegs s u [] := by
  refine Gives.readClear ?_
  rw [readClear_error s q h]
  exact ⟨rfl, (OnlyRegs.respond s 0 true).trans (.settle _)⟩

theorem read_stored {r : Reg} (s : State) (q : Req) (hr : IsRegister r) (h : hasOwnRead r.addr = false) :
    Gives (.readClear q (BitVec.ofNat 32 r.addr)) s fun u =>
      u.rsp = ⟨[(s.rd r &&& ~~~r.wo).zeroExtend 256], false⟩ ∧ u.rd r = s.rd r &&& ~~~r.rc ∧
      (∀ x : Reg, x.addr ≠ r.addr → u.rd x = s.rd x) ∧ u.mem = s.mem ∧
      (r.addr ≠ SYS_FRM_DEV.addr → r.addr ≠ PWR_TPEAK.addr → OnlyRegs s u [r]) ∧
      (r.addr = SYS_FRM_DEV.addr → u.frame = { s.frame with devSeen := false }) ∧
      (r.addr = PWR_TPEAK.addr → u.pwr = { s.pwr with peakSeen := false }) := by
  refine Gives.readClear ?_
  rw [hr.toNat_addr, readClear_stored s q hr h]
  have hc := onlyRegs_rcCleared s r
  obtain ⟨hregs, hmem⟩ := regs_mem_readClears s h
  refine ⟨rfl, (State.rd_congr hregs r).trans (rd_rcCleared s r),
    fun x hx => (State.rd_congr hregs x).trans (hc.2 x (by simpa using hx)), hmem.trans hc.mem,
    fun hd hp => ?_, fun hd => ?_, fun hp => ?_⟩
  · rw [readClears_other s h hd hp]
    exact (hc.trans (.respond _ _ false)).trans (.settle _)
  · rw [readClears_frameDev s hd]
    exact congrArg (fun f : Frame => { f with devSeen := false }) hc.frame
  · rw [readClears_tempPeak s hp]
    exact congrArg (fun p : Pwr => { p with peakSeen := false }) hc.pwr

/-- Settles O24, clause by clause. -/
theorem registerAccesses : Obligations.RegisterAccesses := by
  unfold Obligations.RegisterAccesses
  refine ⟨write_error, fun s q d r hr hown h => write_plain d hr hown h, fun s q d x hx h => ?_,
    fun s q r d hr h hani => write_blocked d hr h hani, read_error, fun s q r hr hown => read_stored s q hr hown⟩
  have hx := ownRange_of_mem hx
  cases hok : x.2 with
  | false =>
    obtain ⟨t, ht, hrsp, hrej⟩ := write_outOfRange (hok ▸ hx) h
    exact ⟨t, ht, hrsp, fun _ => hrej, nofun⟩
  | true =>
    obtain ⟨t, ht, hrsp, hin⟩ := write_inRange (hok ▸ hx) h
    exact ⟨t, ht, hrsp, nofun, fun _ => hin⟩

/-! The state right after reset. -/

/-- Right after reset no interrupt vector's condition holds: every flag is at its reset value. -/
theorem vecCond_reset : ∀ v ∈ vectors, State.reset.vecCond v = false := by decide

theorem vectorsSettled_reset : VectorsSettled State.reset := by
  unfold VectorsSettled
  rw [List.filter_eq_nil_iff.2 fun v hv => by simp [vecCond_reset v hv]]
  rfl

/-- Settles O59: the reset state lists no register, byte or engine, and what is unlisted reads its reset value. -/
theorem resetState : Obligations.ResetState := by
  unfold Obligations.ResetState
  exact ⟨fun _ => rfl, rfl, rfl, rfl, rfl, rfl, by decide, rfl, vectorsSettled_reset⟩

end Sys2Proof

namespace Sys2Proof

open Sys2Proof.Machine

/-! What the commands of the frame complete in. -/

theorem gives_iff_of_done {c : Instr} {s t : State} {P : State → Prop} (h : exec c s = done t) :
    Gives c s P ↔ P t.settle := by
  unfold Gives
  simp [h, done_eq]

theorem gives_blockTick {s : State} {pest : BitVec 16} {P : State → Prop} :
    Gives (.blockTick pest) s P ↔ P (s.blockTick pest.toNat).settle := gives_iff_of_done rfl

/-- The effect of a write that reaches its register comes after its response. -/
theorem gated_reaches {s : State} {q : Req} {r : Reg} (h : Reaches s q r) (d : Word) (f : State → State) :
    s.gated q r d f = f (s.respond 0 false) := by
  obtain ⟨hw, hheld, hani⟩ := h
  by_cases hm : q.master = 6 ∧ mirrored r.addr = true
  · obtain ⟨hsb, hact⟩ := hani hm.1 hm.2
    simp [State.gated, hheld, hw, hsb, hact]
  · have hm' : (decide (q.master = 6) && mirrored r.addr) = false := by simpa using hm
    simp [State.gated, hheld, hw, hm']

section FrameWrites

variable {s : State} {q : Req} {P : State → Prop}

theorem gives_frameRun (rate blen : BitVec 2) (h : Reaches s q SYS_FRM_CTRL) : Gives (.frameRun q rate blen) s P ↔
    P ((s.respond 0 false).frmCtrlWrite q (frmWord rate blen true)).settle :=
  gives_iff_of_done (congrArg done (gated_reaches h _ _))

theorem gives_frameStop (rate blen : BitVec 2) (h : Reaches s q SYS_FRM_CTRL) : Gives (.frameStop q rate blen) s P ↔
    P ((s.respond 0 false).frmCtrlWrite q (frmWord rate blen false)).settle :=
  gives_iff_of_done (congrArg done (gated_reaches h _ _))

theorem gives_frameFormatChange (rate blen : BitVec 2) (run : Bool) (h : Reaches s q SYS_FRM_CTRL) :
    Gives (.frameFormatChange q rate blen run) s P ↔
      P ((s.respond 0 false).frmCtrlWrite q (frmWord rate blen run)).settle :=
  gives_iff_of_done (congrArg done (gated_reaches h _ _))

theorem gives_splitWrite (d : Word) (h : Reaches s q SYS_FRM_SPLIT) : Gives (.splitWrite q d) s P ↔
    P ((s.respond 0 false).splitWrite q d).settle := gives_iff_of_done (congrArg done (gated_reaches h _ _))

end FrameWrites

/-! A write of SYS_FRM_CTRL that leaves rate and block length as they are (R39 to R41, R278, R295, R402). -/

theorem bits_frmWord : ∀ (rate blen : BitVec 2) (run : Bool), bits (frmWord rate blen run) 1 0 = rate.toNat ∧
    bits (frmWord rate blen run) 5 4 = blen.toNat ∧ bit (frmWord rate blen run) 8 = run := by decide

/-- A host's write can only count as a wake event (R372). -/
theorem hostWake_pwr (s : State) (q : Req) : ∃ p, s.hostWake q = { s with pwr := p } := by
  unfold State.hostWake State.wakeEvent
  split
  · split
    · exact ⟨s.pwr, rfl⟩
    · dsimp only
      split
      · exact ⟨s.pwr, rfl⟩
      · split
        · exact ⟨_, rfl⟩
        · split <;> exact ⟨_, rfl⟩
  · exact ⟨s.pwr, rfl⟩

theorem frmCtrlWrite_sameFormat {s : State} (q : Req) {rate blen : BitVec 2} {run : Bool}
    (hrate : rate.toNat = s.rdF SYS_FRM_CTRL 1 0) (hblen : blen.toNat = s.rdF SYS_FRM_CTRL 5 4) (h3 : blen ≠ 3)
    (hgain : run = true → s.gainFenced = false) : ∃ p, s.frmCtrlWrite q (frmWord rate blen run) =
      let t := State.rateDrop { s with pwr := p }
      (if run then t.disarm else t).runWrite run t.stc := by
  obtain ⟨p, hp⟩ := hostWake_pwr s q
  obtain ⟨hr, hb, hrun⟩ := bits_frmWord rate blen run
  refine ⟨p, ?_⟩
  have hrate' : rate.toNat = ({ s with pwr := p } : State).rdF SYS_FRM_CTRL 1 0 := hrate
  have hblen' : blen.toNat = ({ s with pwr := p } : State).rdF SYS_FRM_CTRL 5 4 := hblen
  have hg : (run && ({ s with pwr := p } : State).gainFenced) = false := by
    cases run with
    | false => rfl
    | true => exact hgain rfl
  have hne : blen.toNat ≠ 3 := fun h => h3 (BitVec.eq_of_toNat_eq h)
  unfold State.frmCtrlWrite
  rw [hp, hr, hb, hrun]
  simp only [← hrate', ← hblen', hg, hne]
  cases run <;> simp [State.disarm]


theorem rdB_wrB_same (s : State) (r : Reg) {i : Nat} (hi : i < 32) (b : Bool) : (s.wrB r i b).rdB r i = b := by
  rw [State.rdB, State.rd_wrB_same, bit_setBit_same _ hi]

theorem rdB_wrB_bit (s : State) (r : Reg) {i j : Nat} (h : j ≠ i) (b : Bool) : (s.wrB r i b).rdB r j = s.rdB r j := by
  rw [State.rdB, State.rd_wrB_same, bit_setBit_other _ h]
  rfl

theorem rdB_wrB_other (s : State) {r q : Reg} (h : q.addr ≠ r.addr) (i : Nat) (b : Bool) (j : Nat) :
    (s.wrB r i b).rdB q j = s.rdB q j := congrArg (bit · j) (State.rd_wrB_other s i b h)

namespace OnlyRegs

theorem each {α : Type} {rs : List Reg} {f : State → α → State} {l : List α}
    (h : ∀ s, ∀ x ∈ l, OnlyRegs s (f s x) rs) (s : State) : OnlyRegs s (s.each l f) rs := by
  induction l generalizing s with
  | nil => exact (refl s).mono (by simp)
  | cons x l ih =>
    have htail := ih (fun s y hy => h s y (List.mem_cons_of_mem _ hy)) (f s x)
    exact ((h s x List.mem_cons_self).trans htail).mono (by simp)

theorem wrB (s : State) (r : Reg) (i : Nat) (b : Bool) : OnlyRegs s (s.wrB r i b) [r] := upd s r _

theorem stc {s u : State} {rs : List Reg} (h : OnlyRegs s u rs) : u.stc = s.stc := (congrArg State.stc h.1).trans rfl

theorem engs {s u : State} {rs : List Reg} (h : OnlyRegs s u rs) : u.engs = s.engs :=
  (congrArg State.engs h.1).trans rfl

end OnlyRegs

/-- What each step of a run over a list brings about for its element, and keeps for the others, holds of every element
at the end. -/
theorem each_forall {α : Type} {Q : α → State → Prop} {f : State → α → State} {l : List α}
    (hset : ∀ s, ∀ x ∈ l, Q x (f s x)) (hkeep : ∀ s, ∀ x ∈ l, ∀ y ∈ l, Q y s → Q y (f s x)) (s : State) :
    ∀ y ∈ l, Q y (s.each l f) := by
  suffices h : ∀ (m : List α), m ⊆ l → ∀ s, ∀ y ∈ l, (y ∈ m ∨ Q y s) → Q y (s.each m f) from
    fun y hy => h l (List.Subset.refl l) s y hy (.inl hy)
  intro m
  induction m with
  | nil => exact fun _ s y _ hq => hq.resolve_left List.not_mem_nil
  | cons x m ih =>
    intro hm s y hy hq
    have hx : x ∈ l := hm List.mem_cons_self
    refine ih (fun z hz => hm (List.mem_cons_of_mem _ hz)) (f s x) y hy ?_
    rcases hq with hq | hq
    · rcases List.mem_cons.1 hq with rfl | hq
      · exact .inr (hset s y hx)
      · exact .inl hq
    · exact .inr (hkeep s x hx y hy hq)

/-- The registers of the streams, which a rate other than 48 and 96 kHz ends (R278). -/
def streamRegs : List Reg := STRM_INT :: (upTo 128).flatMap (fun i => [STRM_RX_CTRL i, STRM_TX_CTRL i])

theorem streamRegs_addr : ∀ r ∈ streamRegs, 0x500B0000 ≤ r.addr := by
  intro r hr
  simp only [streamRegs, List.mem_cons, List.mem_flatMap, List.not_mem_nil, or_false] at hr
  rcases hr with rfl | ⟨i, -, rfl | rfl⟩
  · decide
  · simp only [STRM_RX_CTRL]; omega
  · simp only [STRM_TX_CTRL]; omega

/-- One stream pair's share of the end of the streams. -/
def dropStreams (s : State) (i : Nat) : State :=
  let s := if s.rdB (STRM_RX_CTRL i) 31 then s.wrB (STRM_RX_CTRL i) 31 false else s
  if s.rdB (STRM_TX_CTRL i) 31 then s.wrB (STRM_TX_CTRL i) 31 false else s

theorem rateDrop_of_rate {s : State} (h : s.strmRate = false) :
    s.rateDrop = (s.each (upTo 128) dropStreams).raise STRM_INT 4#32 := by
  unfold State.rateDrop
  rw [h]
  rfl

/-- A bit made 0 where it is 1: it is 0 then, and no other register changes. -/
theorem clearBit_spec (s : State) (r : Reg) {i : Nat} (hi : i < 32) :
    OnlyRegs s (if s.rdB r i then s.wrB r i false else s) [r] ∧
      (if s.rdB r i then s.wrB r i false else s).rdB r i = false := by
  split
  · exact ⟨.wrB s r i false, rdB_wrB_same s r hi false⟩
  · next h => exact ⟨(OnlyRegs.refl s).mono (by simp), by simpa using h⟩

theorem onlyRegs_dropStreams (s : State) (i : Nat) :
    OnlyRegs s (dropStreams s i) [STRM_RX_CTRL i, STRM_TX_CTRL i] :=
  (clearBit_spec s (STRM_RX_CTRL i) (by decide)).1.trans (clearBit_spec _ (STRM_TX_CTRL i) (by decide)).1

theorem OnlyRegs.rdB {s u : State} {rs : List Reg} (h : OnlyRegs s u rs) {r : Reg} (hr : r.addr ∉ rs.map Reg.addr)
    (i : Nat) : u.rdB r i = s.rdB r i := congrArg (bit · i) (h.2 r hr)

/-- Neither stream of a pair runs. -/
def StreamsOff (i : Nat) (s : State) : Prop := s.rdB (STRM_RX_CTRL i) 31 = false ∧ s.rdB (STRM_TX_CTRL i) 31 = false

theorem streamsOff_dropStreams (s : State) (i : Nat) : StreamsOff i (dropStreams s i) := by
  have hrx := (clearBit_spec s (STRM_RX_CTRL i) (i := 31) (by decide)).2
  obtain ⟨honly, htx⟩ := clearBit_spec (if s.rdB (STRM_RX_CTRL i) 31 then s.wrB (STRM_RX_CTRL i) 31 false else s)
    (STRM_TX_CTRL i) (i := 31) (by decide)
  refine ⟨(honly.rdB ?_ 31).trans hrx, htx⟩
  simp only [List.map_cons, List.map_nil, List.mem_singleton, STRM_RX_CTRL, STRM_TX_CTRL]
  omega

theorem streamsOff_dropStreams_other (s : State) {i j : Nat} (hi : i < 128) (hj : j < 128) (h : StreamsOff j s) :
    StreamsOff j (dropStreams s i) := by
  by_cases hij : j = i
  · exact hij ▸ streamsOff_dropStreams s j
  · have honly := onlyRegs_dropStreams s i
    refine ⟨(honly.rdB ?_ 31).trans h.1, (honly.rdB ?_ 31).trans h.2⟩
    all_goals
      simp only [List.map_cons, List.map_nil, List.mem_cons, List.not_mem_nil, or_false, STRM_RX_CTRL, STRM_TX_CTRL]
      omega

/-- A write that leaves 44.1 or 88.2 kHz in force ends the streams and says so; at 48 and 96 kHz it ends none (R278). -/
theorem rateDrop_spec (s : State) : OnlyRegs s s.rateDrop streamRegs ∧
    (s.fs = 48000 ∨ s.fs = 96000 → s.rateDrop = s) ∧
    (s.fs = 44100 ∨ s.fs = 88200 → s.rateDrop.rdB STRM_INT 2 = true ∧ ∀ i < 128, StreamsOff i s.rateDrop) := by
  cases h : s.strmRate with
  | true =>
    have hid : s.rateDrop = s := by rw [State.rateDrop, if_pos h]
    have hfs : s.fs % 48000 = 0 := by simpa [State.strmRate] using h
    refine ⟨?_, fun _ => hid, fun hr => by omega⟩
    rw [hid]
    exact (OnlyRegs.refl s).mono (by simp)
  | false =>
    have hfs : s.fs % 48000 ≠ 0 := by simpa [State.strmRate] using h
    have hpair : ∀ s : State, ∀ i ∈ upTo 128, OnlyRegs s (dropStreams s i) streamRegs := fun s i hi =>
      (onlyRegs_dropStreams s i).mono fun r hr => List.mem_cons_of_mem _ (List.mem_flatMap.2 ⟨i, hi, hr⟩)
    have hoff := each_forall (Q := StreamsOff) (l := upTo 128)
      (fun s i _ => streamsOff_dropStreams s i)
      (fun s i hi j hj => streamsOff_dropStreams_other s (List.mem_range.1 hi) (List.mem_range.1 hj)) s
    rw [rateDrop_of_rate h]
    refine ⟨((OnlyRegs.each hpair s).trans (.upd _ STRM_INT _)).mono (by simp [streamRegs]), fun hr => by omega,
      fun _ => ⟨?_, fun i hi => ?_⟩⟩
    · rw [State.rdB, State.rd_raise_same, bit_or]
      simp [bit]
    · have hint : OnlyRegs (s.each (upTo 128) dropStreams)
          ((s.each (upTo 128) dropStreams).raise STRM_INT 4#32) [STRM_INT] := .upd _ STRM_INT _
      obtain ⟨hrx, htx⟩ := hoff i (List.mem_range.2 hi)
      refine ⟨(hint.rdB ?_ 31).trans hrx, (hint.rdB ?_ 31).trans htx⟩
      all_goals
        simp only [List.map_cons, List.map_nil, List.mem_singleton, STRM_RX_CTRL, STRM_TX_CTRL, STRM_INT]
        omega

/-- The disarming of a timed start (R295) puts its two registers alone. -/
theorem onlyRegs_disarm (s : State) : OnlyRegs s s.disarm [STC_STAT, STC_START_CTRL] :=
  (OnlyRegs.wrB s STC_STAT 1 false).trans (.wrB _ STC_START_CTRL 0 false)

theorem disarm_disarmed (s : State) : s.disarm.rdB STC_STAT 1 = false :=
  (rdB_wrB_other _ (by decide) 0 false 1).trans (rdB_wrB_same s STC_STAT (by decide) false)

theorem testBit_bits (w : Word) (hi lo j : Nat) :
    (bits w hi lo).testBit j = (decide (j < hi + 1 - lo) && bit w (lo + j)) := by
  rw [bits, Nat.testBit_mod_two_pow, Nat.testBit_div_two_pow, Nat.add_comm j lo]
  rfl

/-- A field keeps its value when a bit outside it is put. -/
theorem bits_setBit_outside (w : Word) {i hi lo : Nat} (h : i < lo ∨ hi < i) (b : Bool) :
    bits (setBit w i b) hi lo = bits w hi lo := by
  apply Nat.eq_of_testBit_eq
  intro j
  rw [testBit_bits, testBit_bits]
  by_cases hj : j < hi + 1 - lo
  · rw [bit_setBit_other _ (by omega)]
  · simp [hj]

/-- The start of a frame (R40), placed by the rate in force. -/
theorem frameStart_spec (s : State) (t : Nat) :
    let u := s.frameStart t
    u.running = true ∧ u.frame.first = true ∧ u.frame.win = .none ∧ u.frame.ticking = false ∧ u.frame.final = false ∧
    u.frame.edge = ceilDiv (t * s.fs) stcSecond + 2 ∧ u.router.play = [] ∧ u.router.txOut = [] ∧
    ∀ r : Reg, r.addr ≠ SYS_FRM_STAT.addr → u.rd r = s.rd r := by
  have hfs : (s.wrB SYS_FRM_STAT 0 true).fs = s.fs :=
    congrArg (fun w => rateHz (bits w 1 0)) (State.rd_wrB_other s _ _ (by decide))
  refine ⟨rdB_wrB_same s SYS_FRM_STAT (by decide) true, rfl, rfl, rfl, rfl, ?_, rfl, rfl,
    fun r hr => State.rd_wrB_other s _ _ hr⟩
  rw [← hfs]
  rfl

/-- What run 0 does (R41): a running frame that is not in its final block is to stop. -/
theorem runWrite_stop (s : State) (t : Nat) :
    OnlyRegs s (s.runWrite false t) [SYS_FRM_CTRL, SYS_FRM_STAT] ∧ (s.runWrite false t).rdB SYS_FRM_CTRL 8 = false ∧
    (s.runWrite false t).running = s.running ∧
    (s.runWrite false t).rdB SYS_FRM_STAT 2 = (s.rdB SYS_FRM_STAT 2 || (s.running && !s.frame.final)) := by
  have hctrl : OnlyRegs s (s.wrB SYS_FRM_CTRL 8 false) [SYS_FRM_CTRL] := .wrB s _ _ _
  have hbit : (s.wrB SYS_FRM_CTRL 8 false).rdB SYS_FRM_CTRL 8 = false := rdB_wrB_same s _ (by decide) _
  have hrunning : (s.wrB SYS_FRM_CTRL 8 false).running = s.running := hctrl.rdB (by decide) 0
  have hstat : (s.wrB SYS_FRM_CTRL 8 false).rdB SYS_FRM_STAT 2 = s.rdB SYS_FRM_STAT 2 := hctrl.rdB (by decide) 2
  unfold State.runWrite
  dsimp only
  rw [if_neg Bool.false_ne_true, hrunning, State.wrB_frame]
  split
  · next h =>
    refine ⟨hctrl.trans (.wrB _ SYS_FRM_STAT 2 true), (rdB_wrB_other _ (by decide) _ _ _).trans hbit,
      (rdB_wrB_bit _ _ (by decide) _).trans hrunning, ?_⟩
    rw [rdB_wrB_same _ _ (by decide), h, Bool.or_true]
  · next h => exact ⟨hctrl.mono (by simp), hbit, hrunning, by rw [hstat, Bool.eq_false_iff.2 h, Bool.or_false]⟩

/-- What run 1 does (R40, R402): it takes back a stop that waits, has the frame start again after its final block, or
starts a frame that does not run. -/
theorem runWrite_start (s : State) (t : Nat) :
    let u := s.runWrite true t
    u.rdB SYS_FRM_CTRL 8 = true ∧ u.rdB STC_STAT 1 = s.rdB STC_STAT 1 ∧
    (s.rdB SYS_FRM_STAT 2 = true → u.rdB SYS_FRM_STAT 2 = false ∧ u.frame = s.frame) ∧
    (s.rdB SYS_FRM_STAT 2 = false → s.frame.final = true → u.frame = { s.frame with restart := true }) ∧
    (s.rdB SYS_FRM_STAT 2 = false → s.frame.final = false → s.running = true → u.frame = s.frame) ∧
    (s.rdB SYS_FRM_STAT 2 = false → s.frame.final = false → s.running = false →
      u.running = true ∧ u.frame.first = true ∧ u.frame.win = .none ∧
      u.frame.edge = ceilDiv (t * s.fs) stcSecond + 2) := by
  have hbit : (s.wrB SYS_FRM_CTRL 8 true).rdB SYS_FRM_CTRL 8 = true := rdB_wrB_same s _ (by decide) _
  have hstc : (s.wrB SYS_FRM_CTRL 8 true).rdB STC_STAT 1 = s.rdB STC_STAT 1 := rdB_wrB_other s (by decide) _ _ _
  have hstat : ∀ i, (s.wrB SYS_FRM_CTRL 8 true).rdB SYS_FRM_STAT i = s.rdB SYS_FRM_STAT i :=
    rdB_wrB_other s (by decide) _ _
  have hrunning : (s.wrB SYS_FRM_CTRL 8 true).running = s.running := hstat 0
  unfold State.runWrite
  dsimp only
  rw [if_pos rfl, hstat, hrunning, State.wrB_frame]
  cases hstop : s.rdB SYS_FRM_STAT 2 with
  | true =>
    rw [if_pos rfl]
    exact ⟨(rdB_wrB_other _ (by decide) _ _ _).trans hbit, (rdB_wrB_other _ (by decide) _ _ _).trans hstc,
      fun _ => ⟨rdB_wrB_same _ _ (by decide) _, rfl⟩, nofun, nofun, nofun⟩
  | false =>
    rw [if_neg Bool.false_ne_true]
    cases hfinal : s.frame.final with
    | true => exact ⟨hbit, hstc, nofun, fun _ _ => rfl, nofun, nofun⟩
    | false =>
      rw [if_neg Bool.false_ne_true]
      cases hrun : s.running with
      | true => exact ⟨hbit, hstc, nofun, nofun, fun _ _ _ => rfl, nofun⟩
      | false =>
        obtain ⟨hgo, hfirst, hwin, -, -, hedge, -, -, hrd⟩ := frameStart_spec (s.wrB SYS_FRM_CTRL 8 true) t
        have hfs : (s.wrB SYS_FRM_CTRL 8 true).fs = s.fs := by
          rw [State.fs, State.rdF, State.rd_wrB_same, bits_setBit_outside _ (by decide)]
          rfl
        exact ⟨(congrArg (bit · 8) (hrd _ (by decide))).trans hbit, (congrArg (bit · 1) (hrd _ (by decide))).trans hstc,
          nofun, nofun, nofun, fun _ _ _ => ⟨hgo, hfirst, hwin, hfs ▸ hedge⟩⟩

/-- The end of the streams leaves the frame's registers as they were. -/
theorem sys_notMem_streams {r : Reg} (h : r.addr < 0x50010000) : r.addr ∉ streamRegs.map Reg.addr := fun hm => by
  obtain ⟨x, hx, hxr⟩ := List.mem_map.1 hm
  have := streamRegs_addr x hx
  omega

/-- The end of the streams and the disarming of a timed start after it leave the frame's registers as they were. -/
theorem sys_notMem_dropped {r : Reg} (h : r.addr < 0x50010000) :
    r.addr ∉ (streamRegs ++ [STC_STAT, STC_START_CTRL]).map Reg.addr := by
  rw [List.map_append, List.mem_append, not_or]
  refine ⟨sys_notMem_streams h, ?_⟩
  simp only [List.map_cons, List.map_nil, List.mem_cons, List.not_mem_nil, or_false, STC_STAT, STC_START_CTRL]
  omega

section RunWrites

variable {s : State} {q : Req} {rate blen : BitVec 2}

theorem gives_run (hreach : Reaches s q SYS_FRM_CTRL) (hrate : rate.toNat = s.rdF SYS_FRM_CTRL 1 0)
    (hblen : blen.toNat = s.rdF SYS_FRM_CTRL 5 4) (h3 : blen ≠ 3) (hgain : s.gainFenced = false) :
    Gives (.frameRun q rate blen) s fun u =>
      u.rdB SYS_FRM_CTRL 8 = true ∧ u.rdB STC_STAT 1 = false ∧
      (s.rdB SYS_FRM_STAT 2 = true → u.rdB SYS_FRM_STAT 2 = false ∧ u.frame = s.frame) ∧
      (s.rdB SYS_FRM_STAT 2 = false → s.frame.final = true → u.frame = { s.frame with restart := true }) ∧
      (s.rdB SYS_FRM_STAT 2 = false → s.frame.final = false → s.running = true → u.frame = s.frame) ∧
      (s.rdB SYS_FRM_STAT 2 = false → s.frame.final = false → s.running = false →
        u.running = true ∧ u.frame.first = true ∧ u.frame.win = .none ∧
        u.frame.edge = ceilDiv (s.stc * s.fs) stcSecond + 2) := by
  rw [gives_frameRun rate blen hreach]
  obtain ⟨p, hp⟩ := frmCtrlWrite_sameFormat (s := s.respond 0 false) q hrate hblen h3 (run := true) fun _ => hgain
  let s₀ : State := { s.respond 0 false with pwr := p }
  have honly : OnlyRegs s₀ s₀.rateDrop.disarm (streamRegs ++ [STC_STAT, STC_START_CTRL]) :=
    (rateDrop_spec s₀).1.trans (onlyRegs_disarm _)
  have hframe : s₀.rateDrop.disarm.frame = s.frame := honly.frame
  have hstat : ∀ i, s₀.rateDrop.disarm.rdB SYS_FRM_STAT i = s.rdB SYS_FRM_STAT i :=
    honly.rdB (sys_notMem_dropped (by decide))
  have hrunning : s₀.rateDrop.disarm.running = s.running := hstat 0
  have hfs : s₀.rateDrop.disarm.fs = s.fs :=
    congrArg (fun w => rateHz (bits w 1 0)) (honly.2 SYS_FRM_CTRL (sys_notMem_dropped (by decide)))
  have hstc : s₀.rateDrop.stc = s.stc := (rateDrop_spec s₀).1.stc
  have hrun := runWrite_start s₀.rateDrop.disarm s₀.rateDrop.stc
  dsimp only at hrun
  rw [hframe, hstat, hrunning, hfs, disarm_disarmed, hstc] at hrun
  rw [show (s.respond 0 false).frmCtrlWrite q (frmWord rate blen true) = s₀.rateDrop.disarm.runWrite true s.stc from
    hstc ▸ hp]
  exact hrun

theorem gives_stop (hreach : Reaches s q SYS_FRM_CTRL) (hrate : rate.toNat = s.rdF SYS_FRM_CTRL 1 0)
    (hblen : blen.toNat = s.rdF SYS_FRM_CTRL 5 4) (h3 : blen ≠ 3) :
    Gives (.frameStop q rate blen) s fun u =>
      u.rdB SYS_FRM_CTRL 8 = false ∧ u.frame = s.frame ∧ u.running = s.running ∧
      u.rdB SYS_FRM_STAT 2 = (s.rdB SYS_FRM_STAT 2 || (s.running && !s.frame.final)) ∧
      (s.fs = 48000 ∨ s.fs = 96000 →
        ∀ r : Reg, r.addr ∉ [SYS_FRM_CTRL.addr, SYS_FRM_STAT.addr] → u.rd r = s.rd r) ∧
      (s.fs = 44100 ∨ s.fs = 88200 → u.rdB STRM_INT 2 = true ∧
        ∀ i < 128, u.rdB (STRM_RX_CTRL i) 31 = false ∧ u.rdB (STRM_TX_CTRL i) 31 = false) ∧
      u.mem = s.mem ∧ u.engs = s.engs := by
  rw [gives_frameStop rate blen hreach]
  obtain ⟨p, hp⟩ := frmCtrlWrite_sameFormat (s := s.respond 0 false) q hrate hblen h3 (run := false) nofun
  let s₀ : State := { s.respond 0 false with pwr := p }
  obtain ⟨honly, hkeep, hdrop⟩ := rateDrop_spec s₀
  obtain ⟨hstop, hbit, hrunning, hstat⟩ := runWrite_stop s₀.rateDrop s₀.rateDrop.stc
  have hframe : s₀.rateDrop.frame = s.frame := honly.frame
  have hsys : ∀ i, s₀.rateDrop.rdB SYS_FRM_STAT i = s.rdB SYS_FRM_STAT i := honly.rdB (sys_notMem_streams (by decide))
  rw [hframe, hsys] at hstat
  have hwas : s₀.rateDrop.running = s.running := hsys 0
  rw [hwas] at hstat hrunning
  have hstreams : ∀ (r : Reg) (i : Nat), 0x500B0000 ≤ r.addr →
      (s₀.rateDrop.runWrite false s₀.rateDrop.stc).rdB r i = s₀.rateDrop.rdB r i := fun r i hr => hstop.rdB (by
    simp only [List.map_cons, List.map_nil, List.mem_cons, List.not_mem_nil, or_false, SYS_FRM_CTRL, SYS_FRM_STAT]
    omega) i
  rw [show (s.respond 0 false).frmCtrlWrite q (frmWord rate blen false) =
    s₀.rateDrop.runWrite false s₀.rateDrop.stc from hp]
  refine ⟨hbit, hstop.frame.trans hframe, hrunning, hstat, fun hfs r hr => ?_, fun hfs => ?_,
    hstop.mem.trans honly.mem, hstop.engs.trans honly.engs⟩
  · exact (hstop.2 r hr).trans (by rw [hkeep hfs]; rfl)
  · obtain ⟨hint, hoff⟩ := hdrop hfs
    refine ⟨(hstreams _ _ (by decide)).trans hint, fun i hi => ?_⟩
    obtain ⟨hrx, htx⟩ := hoff i hi
    exact ⟨(hstreams _ _ (by simp only [STRM_RX_CTRL]; omega)).trans hrx,
      (hstreams _ _ (by simp only [STRM_TX_CTRL]; omega)).trans htx⟩

/-- An accepted split waits for a tick (R30, R42). -/
theorem gives_split_accepted {d : Word} (hreach : Reaches s q SYS_FRM_SPLIT) (ha : 1 ≤ bits d 7 0)
    (hb : 1 ≤ bits d 15 8) (hc : 1 ≤ bits d 23 16) (hsum : bits d 7 0 + bits d 15 8 + bits d 23 16 = 100)
    (hfits : 2048 * s.blk ≤ windowOf (pNomOf s.fs s.blk) (bits d 15 8)) :
    Gives (.splitWrite q d) s fun u => u.rd SYS_FRM_SPLIT = d &&& 0xFFFFFF#32 ∧ u.rdB SYS_FRM_STAT 1 = true ∧
      OnlyRegs s u [SYS_FRM_SPLIT, SYS_FRM_STAT] := by
  rw [gives_splitWrite d hreach]
  have hok : (s.respond 0 false).splitWrite q d =
      ((s.respond 0 false).wr SYS_FRM_SPLIT (d &&& 0xFFFFFF#32)).wrB SYS_FRM_STAT 1 true := by
    unfold State.splitWrite
    refine if_pos ?_
    rw [Bool.and_eq_true, decide_eq_true_eq]
    exact ⟨by omega, decide_eq_true hfits⟩
  rw [hok]
  refine ⟨(State.rd_wrB_other _ _ _ (by decide)).trans (State.rd_wr_same _ _ _), rdB_wrB_same _ _ (by decide) _, ?_⟩
  exact ((OnlyRegs.respond s 0 false).trans (.wr _ SYS_FRM_SPLIT _)).trans
    ((OnlyRegs.wrB _ SYS_FRM_STAT 1 true).trans (.settle _))

/-- A split whose shares do not make 100 percent is rejected (R30). -/
theorem gives_split_rejected {d : Word} (hreach : Reaches s q SYS_FRM_SPLIT)
    (hsum : bits d 7 0 + bits d 15 8 + bits d 23 16 ≠ 100) :
    Gives (.splitWrite q d) s fun u => Rejected s u q (BitVec.ofNat 32 SYS_FRM_SPLIT.addr) d := by
  rw [gives_splitWrite d hreach]
  have hrej : (s.respond 0 false).splitWrite q d =
      (s.respond 0 false).reject q (BitVec.ofNat 32 SYS_FRM_SPLIT.addr) d := by
    unfold State.splitWrite
    refine if_neg ?_
    rw [Bool.and_eq_true, decide_eq_true_eq]
    omega
  rw [hrej]
  exact (rejected_reject _ q _ d).frame (.respond s 0 false) (.settle _)

end RunWrites

/-- Settles O25: run 1, run 0 and the split, write by write. -/
theorem frameRunsAndStops : Obligations.FrameRunsAndStops := by
  unfold Obligations.FrameRunsAndStops
  exact ⟨fun s q rate blen hreach hrate hblen h3 hgain => gives_run hreach hrate hblen h3 hgain,
    fun s q rate blen hreach hrate hblen h3 => gives_stop hreach hrate hblen h3,
    fun s q d hreach ha hb hc hsum hfits => gives_split_accepted hreach ha hb hc hsum hfits,
    fun s q d hreach hsum => gives_split_rejected hreach hsum⟩


/-! The check of the slice tables at a change of block length (R109), and a live table that no commit makes: one that
names a slice beyond the 64 of an engine. -/

theorem each_cons {α : Type} (s : State) (x : α) (l : List α) (f : State → α → State) :
    s.each (x :: l) f = (f s x).each l f := rfl

/-- An engine with no live entry: the check changes its staged entries and ENG_SLT_STAT alone. -/
theorem onlyRegs_revalidate {s : State} {e : Nat} (h : (s.eng e).live = []) :
    OnlyRegs s (s.revalidate e) (ENG_SLT_STAT e :: (upTo 64).map (SLT_CTRL e)) := by
  unfold State.revalidate
  simp only [h, List.any_nil, Bool.false_eq_true, if_false, Bool.false_or]
  have hstaged : OnlyRegs s (s.each ((s.stagedTable e).filter (fun u => u.2.valid && u.2.small s.blk)) (fun s u =>
      s.wr (SLT_CTRL e u.1) (setBit u.2.ctrl 31 false))) ((upTo 64).map (SLT_CTRL e)) := by
    refine OnlyRegs.each (fun s u hu => (OnlyRegs.wr s _ _).mono ?_) s
    obtain ⟨i, hi, rfl⟩ := List.mem_map.1 (List.mem_filter.1 (List.mem_filter.1 hu).1).1
    simpa using ⟨i, hi, rfl⟩
  split
  · exact (hstaged.trans (.upd _ (ENG_SLT_STAT e) _)).mono (by simp)
  · exact hstaged.mono (by simp)

theorem rd_revalidate {s : State} {e : Nat} (he : e < 32) (h : (s.eng e).live = []) {r : Reg}
    (hr : 0x50000000 ≤ r.addr) : (s.revalidate e).rd r = s.rd r := by
  refine (onlyRegs_revalidate h).2 r fun hm => ?_
  simp only [List.map_cons, List.map_map, List.mem_cons, List.mem_map, upTo, List.mem_range, Function.comp_apply] at hm
  rcases hm with hm | ⟨i, hi, hm⟩
  · simp only [ENG_SLT_STAT] at hm; omega
  · simp only [SLT_CTRL] at hm; omega

theorem rd_each_revalidate {l : List Nat} (hl : ∀ e ∈ l, e < 32) {r : Reg} (hr : 0x50000000 ≤ r.addr) (s : State)
    (h : ∀ e ∈ l, (s.eng e).live = []) : (s.each l State.revalidate).rd r = s.rd r := by
  induction l generalizing s with
  | nil => rfl
  | cons e l ih =>
    have hengs : (s.revalidate e).engs = s.engs := (onlyRegs_revalidate (h e List.mem_cons_self)).engs
    refine (ih (fun f hf => hl f (List.mem_cons_of_mem _ hf)) (s.revalidate e) fun f hf => ?_).trans
      (rd_revalidate (hl e List.mem_cons_self) (h e List.mem_cons_self) hr)
    rw [State.eng, hengs]
    exact h f (List.mem_cons_of_mem _ hf)

/-- The state as a change of format finds it when the tables are checked (R28, R29, R224, R247). -/
def reformatted (s : State) (rate blen : Nat) : State :=
  let s := (s.sapRateDrop rate).aesRateDrop (rateHz rate)
  ((s.wrF SYS_FRM_CTRL 1 0 rate).wrF SYS_FRM_CTRL 5 4 blen).setWindows

theorem formatChange_newLength {s : State} {rate blen : Nat}
    (h : ((s.sapRateDrop rate).aesRateDrop (rateHz rate)).rdF SYS_FRM_CTRL 5 4 ≠ blen) :
    s.formatChange rate blen = ((reformatted s rate blen).revalidate 0).each (upTo 32).tail State.revalidate := by
  have hall : upTo 32 = 0 :: (upTo 32).tail := by decide
  calc s.formatChange rate blen = (reformatted s rate blen).each (upTo 32) State.revalidate := if_neg h
    _ = (reformatted s rate blen).each (0 :: (upTo 32).tail) State.revalidate := by rw [← hall]
    _ = _ := each_cons _ _ _ _

/-- A write of run 0 with a new format, while the frame is stopped and no split waits (R39). -/
theorem frmCtrlWrite_newFormat {s : State} {q : Req} {rate blen : BitVec 2} (hwake : s.hostWake q = s)
    (hrun : s.running = false) (hsplit : s.rdB SYS_FRM_STAT 1 = false) (h3 : blen.toNat ≠ 3)
    (hnew : blen.toNat ≠ s.rdF SYS_FRM_CTRL 5 4)
    (hfits : sumFits (rateHz rate.toNat) (blockLen blen.toNat) s.frame.split = true) :
    s.frmCtrlWrite q (frmWord rate blen false) =
      (s.formatChange rate.toNat blen.toNat).rateDrop.runWrite false
        (s.formatChange rate.toNat blen.toNat).rateDrop.stc := by
  obtain ⟨hr, hb, hf⟩ := bits_frmWord rate blen false
  unfold State.frmCtrlWrite
  rw [hwake, hr, hb, hf]
  simp [hrun, hsplit, h3, hnew, hfits]

/-- The index at which ENG_MRPH of engine 0 would lie at the address of SYS_FRM_PERIOD. -/
def periodSlice : Nat := (SYS_FRM_PERIOD.addr - (ENG_MRPH 0 0).addr) / 4

/-- The frame stopped; engine 0's live table lists a slice whose areas are too small for its taps, and `periodSlice`
twice, first invalid and then valid. -/
def strayTable : State :=
  { State.reset with engs := [(0, { live := [(0, { ctrl := 0x80000000, taps := 0x100 }), (periodSlice, {}),
    (periodSlice, { ctrl := 0x80000000 })] })] }

/-- In a change to 96 kHz and 8 samples the check takes `periodSlice` for newly valid and clears its cbank, which lies
in SYS_FRM_PERIOD. -/
theorem period_strayTable : ((strayTable.respond 0 false).formatChange 3 0).rd SYS_FRM_PERIOD ≠
    BitVec.ofNat 32 (pNomOf 96000 8) := by
  rw [formatChange_newLength (by decide +kernel),
    rd_each_revalidate (by decide) (by decide) _ (by decide +kernel)]
  decide +kernel

/-- Refutes O26: a write changes the format where a live table is ill formed, and SYS_FRM_PERIOD does not show P_nom. No
run reaches such a table; the statement asks nothing of the tables of the state. -/
theorem not_formatChanges : ¬ Obligations.FormatChanges := by
  unfold Obligations.FormatChanges
  rintro ⟨h, -⟩
  have hreach : Reaches strayTable ⟨6, false⟩ SYS_FRM_CTRL := by unfold Reaches; decide
  have hgives := h strayTable ⟨6, false⟩ 3 0 false hreach (by decide) (by decide) (by decide) nofun
    (.inr (by decide)) (by decide)
  rw [gives_frameFormatChange _ _ _ hreach, frmCtrlWrite_newFormat (if_neg (by decide)) (by decide) (by decide)
    (by decide) (by decide) (by decide)] at hgives
  obtain ⟨-, -, -, hperiod, -⟩ := hgives
  generalize hs : (strayTable.respond 0 false).formatChange (3#2).toNat (0#2).toNat = s at hperiod
  rw [State.rd_settle, (runWrite_stop s.rateDrop _).1.2 _ (by decide),
    (rateDrop_spec s).1.2 _ (sys_notMem_streams (by decide)), ← hs] at hperiod
  exact period_strayTable hperiod


/-! Writes that an active device held when its pairing ended (R330, R332): a tick still applies them, at step 3 of R37,
before it asks whether the frame stops. -/

/-- The epoch of block 0 with the held write of run 0 to SYS_FRM_CTRL, rate and block length as they stand at reset. -/
def stopEpoch : Epoch :=
  { k := 0, items := [.write false SYS_FRM_CTRL.addr 0xF#32 ((frmWord 3 1 false).zeroExtend 256)],
    seq := 0, wseq := 0, hash := 0 }

/-- A running frame in block 1 on a device that was the active of a pair: its pairing has ended and `stopEpoch` is still
to be applied; engine 0 has a commit pending. -/
def heldStop : State :=
  let s := ((State.reset.wr SYS_FRM_STAT 1).wr SYS_FRM_BLOCK 1).wr ANI_CTRL (setBits (State.reset.rd ANI_CTRL) 2 1 1)
  { s.wr (ENG_SLT_COMMIT 0) 1 with frame := { ticking := true, win := .tail }, ani := { wait := [stopEpoch] } }

/-- The held write asks the frame to stop, so the tick opens the final block, and no slice table is copied. -/
theorem blockTick_heldStop : (heldStop.blockTick (0#16).toNat).frame.win = .none ∧
    (heldStop.blockTick (0#16).toNat).rdB (ENG_SLT_COMMIT 0) 0 = true := by decide +kernel

theorem tickOpens_heldStop : TickOpens heldStop := by unfold TickOpens; decide

/-- Refutes O27: with ANI_CTRL.pair 0 and no stop pending, the tick opens the final block and not the Strip window where
it applies a write of run 0 that the device held when its pairing ended (R332). -/
theorem not_windowsFollow : ¬ Obligations.WindowsFollow := by
  unfold Obligations.WindowsFollow
  rintro ⟨h, -⟩
  obtain ⟨hopen, -⟩ := gives_blockTick.1 (h heldStop 0#16 (by decide) rfl (by decide))
  have hstrip := (hopen (by decide)).1
  rw [State.settle_frame, blockTick_heldStop.1] at hstrip
  exact absurd hstrip (by decide)

/-- Refutes O28: a tick for which `TickOpens` holds leaves the commit of a slice table pending where it applies a write
of run 0 that the device held when its pairing ended (R332). -/
theorem not_tickSteps : ¬ Obligations.TickSteps := by
  unfold Obligations.TickSteps
  rintro ⟨-, h, -⟩
  obtain ⟨hcopied, -⟩ := gives_blockTick.1 (h heldStop 0#16 0 tickOpens_heldStop (by decide))
  rw [State.rdB_settle] at hcopied
  exact absurd (blockTick_heldStop.2.symm.trans hcopied) (by decide)


/-! What Clove's reports leave as it was: all but Clove's own state and the registers. -/

/-- Only Clove's state and registers change. -/
def CloveAlone (s t : State) : Prop := t = { s with clove := t.clove, regs := t.regs }

namespace CloveAlone

theorem refl (s : State) : CloveAlone s s := rfl

theorem trans {s t u : State} (h : CloveAlone s t) (k : CloveAlone t u) : CloveAlone s u :=
  Eq.trans k (congrArg (fun x : State => { x with clove := u.clove, regs := u.regs }) h)

theorem consumed (s : State) (v : Ev) : CloveAlone s (s.consumed v) := by
  unfold State.consumed
  split <;> rfl

theorem dropStale (s : State) (v : Ev) : CloveAlone s (s.dropStale v) :=
  trans (t := ((s.unqueue v).count CLV_STALE_CNT).raise CLV_INT 2#32) rfl (consumed _ v)

theorem bgWaits (s : State) : CloveAlone s s.bgWaits := by
  unfold State.bgWaits
  split
  · split <;> rfl
  · rfl

theorem bgAdmitHost (n : Nat) (s : State) : CloveAlone s (State.bgAdmitHost n s) := by
  induction n generalizing s with
  | zero => rfl
  | succ n ih =>
    unfold State.bgAdmitHost
    split
    · next v _ =>
      split
      · exact trans (t := (s.charge v).admitted v) rfl (ih _)
      · rfl
    · rfl

theorem cloveHost (s : State) : CloveAlone s s.cloveHost := by
  have h := (bgAdmitHost s.clove.queue.length s).trans (bgWaits _)
  unfold State.cloveHost
  dsimp only
  generalize (State.bgAdmitHost s.clove.queue.length s).bgWaits = t at h ⊢
  split
  all_goals exact h.trans rfl

theorem acceptAs (s : State) (v : Ev) : CloveAlone s (s.acceptAs v) := by
  have hnext : CloveAlone s { s with clove := { s.clove with next := s.clove.next + 1 } } := rfl
  unfold State.acceptAs
  dsimp only
  split
  · exact hnext.trans (dropStale _ _)
  · split
    · exact hnext.trans (consumed _ _)
    · exact trans (t := { s with clove := _ }) rfl (cloveHost _)

theorem report (s : State) (e type cls : Nat) (w0 w1 : Word) : CloveAlone s (s.report e type cls w0 w1) := by
  unfold State.report
  dsimp only
  split
  · rfl
  · exact acceptAs _ _

end CloveAlone

/-! The tick after the final block (R41, R402). -/

/-- The frame schedule, the Patch Router, and the registers of the SYS block are as they were. -/
structure KeepsSchedule (s t : State) : Prop where
  frame : t.frame = s.frame
  router : t.router = s.router
  regs : ∀ r : Reg, r.addr < 0x50010000 → t.rd r = s.rd r

namespace KeepsSchedule

theorem refl (s : State) : KeepsSchedule s s := ⟨rfl, rfl, fun _ _ => rfl⟩

theorem trans {s t u : State} (h : KeepsSchedule s t) (k : KeepsSchedule t u) : KeepsSchedule s u :=
  ⟨k.frame.trans h.frame, k.router.trans h.router, fun r hr => (k.regs r hr).trans (h.regs r hr)⟩

theorem each {α : Type} {f : State → α → State} (h : ∀ s x, KeepsSchedule s (f s x)) (l : List α) (s : State) :
    KeepsSchedule s (s.each l f) := by
  induction l generalizing s with
  | nil => exact refl s
  | cons x l ih => exact (h s x).trans (ih (f s x))

theorem upd (s : State) {r : Reg} (f : Word → Word) (h : 0x50010000 ≤ r.addr) : KeepsSchedule s (s.upd r f) :=
  ⟨rfl, rfl, fun _ hq => State.rd_upd_other s f (by omega)⟩

theorem countF (s : State) {r : Reg} (hi lo n : Nat) (h : 0x50010000 ≤ r.addr) :
    KeepsSchedule s (s.countF r hi lo n) := upd s _ h

theorem report (s : State) (e type cls : Nat) (w0 w1 : Word) : KeepsSchedule s (s.report e type cls w0 w1) :=
  have h := CloveAlone.report s e type cls w0 w1
  ⟨(congrArg State.frame h).trans rfl, (congrArg State.router h).trans rfl,
    fun r hr => clv_report s e type cls w0 w1 r (.inl (by omega))⟩

theorem updSap (s : State) (n : Nat) (f : Sap → Sap) : KeepsSchedule s (s.updSap n f) := ⟨rfl, rfl, fun _ _ => rfl⟩

theorem sapMask (s : State) (n : Nat) : KeepsSchedule s (s.sapMask n) := by
  unfold State.sapMask
  split
  · exact updSap s n _
  · exact refl s

theorem setAesT (s : State) (n : Nat) (p : AesTx) : KeepsSchedule s (s.setAesT n p) := ⟨rfl, rfl, fun _ _ => rfl⟩

theorem aesStopped (s : State) : KeepsSchedule s s.aesStopped := by
  unfold State.aesStopped
  exact each (fun s n => setAesT s n _) _ s

theorem migEnd (s : State) (status cause : Nat) : KeepsSchedule s (s.migEnd status cause) := by
  have hclv : 0x50010000 ≤ CLV_MIG_STAT.addr := by decide
  unfold State.migEnd
  exact ((((((upd s _ hclv).trans (upd _ _ hclv)).trans (upd _ _ hclv)).trans (upd _ _ hclv)).trans
    (upd _ _ hclv))).trans (report _ _ _ _ _ _)

theorem migFrameStop (s : State) : KeepsSchedule s s.migFrameStop := by
  unfold State.migFrameStop State.migAbort
  split
  · exact (migEnd s 2 8).trans ⟨rfl, rfl, fun _ _ => rfl⟩
  · exact refl s

theorem lineRun (s : State) (n : Nat) : KeepsSchedule s (s.lineRun n) := by
  have hline : KeepsSchedule s (s.setLink n (s.linkNow n)) := ⟨rfl, rfl, fun _ _ => rfl⟩
  exact hline.trans (countF _ _ _ _ (by simp only [DNG_L_RETRY_CNT]; omega))

theorem setAligned (s : State) (n : Nat) (b : Bool) : KeepsSchedule s (s.setAligned n b) := by
  unfold State.setAligned
  split
  · exact refl s
  · have hregs := ((upd s (r := DNG_L_STAT n) (fun w => setBit w 4 b) (by simp only [DNG_L_STAT]; omega)).trans
      (upd _ (r := DNG_STAT) (fun w => setBit w (4 + n) b) (by decide))).trans
      (upd _ (r := DNG_L_INT n) (fun w => w ||| 2#32) (by simp only [DNG_L_INT]; omega))
    exact (hregs.trans (lineRun _ n)).trans ⟨rfl, rfl, fun _ _ => rfl⟩

theorem dngStop (s : State) : KeepsSchedule s s.dngStop :=
  each (fun s n => KeepsSchedule.trans (t := s.updLink n _) ⟨rfl, rfl, fun _ _ => rfl⟩ (setAligned _ n false)) _ s

end KeepsSchedule

/-- The units' share of a frame's stop: the transmit ports, the links and a migration. -/
def unitsStopped (s : State) : State :=
  let s := s.each (upTo 24) (fun s n => (s.sapMask n).updSap n (fun p =>
    { p with playMask := p.txMask, skew := 0, ring := [], fetched := .none, under := false }))
  s.aesStopped.migFrameStop.dngStop

theorem keepsSchedule_unitsStopped (s : State) : KeepsSchedule s (unitsStopped s) :=
  (((KeepsSchedule.each (fun s n => (KeepsSchedule.sapMask s n).trans (.updSap _ n _)) _ s).trans
    (.aesStopped _)).trans (.migFrameStop _)).trans (.dngStop _)

/-- The frame's own share of its stop. -/
def scheduleStopped (s : State) : State :=
  let s := (s.wrB SYS_FRM_STAT 0 false).raise SYS_FRM_INT 4#32
  { s with frame := { s.frame with win := .none, ticking := false, final := false, restart := false },
           router := { s.router with play := [], txOut := [] } }

theorem frameStopped_eq (s : State) : s.frameStopped =
    let t := unitsStopped (scheduleStopped s)
    if s.frame.restart then t.frameStart t.stc else t := rfl

theorem blockTick_final {s : State} (pest : Nat) (hrun : s.running = true) (hfinal : s.frame.final = true) :
    s.blockTick pest = (s.advanceTo s.tickCycle).frameStopped := by
  unfold State.blockTick
  simp [hrun, hfinal]

/-- Once the frame and its units have stopped: nothing runs or plays, and SYS_FRM_INT.stopped is set. -/
theorem unitsStopped_scheduleStopped (s : State) :
    let t := unitsStopped (scheduleStopped s)
    t.running = false ∧ t.rdB SYS_FRM_INT 2 = true ∧ t.router.play = [] ∧ t.router.txOut = [] ∧
    t.frame = { s.frame with win := .none, ticking := false, final := false, restart := false } := by
  obtain ⟨hframe, hrouter, hregs⟩ := keepsSchedule_unitsStopped (scheduleStopped s)
  have hstat : (scheduleStopped s).running = false :=
    (congrArg (bit · 0) (State.rd_raise_other _ _ (by decide))).trans (rdB_wrB_same s SYS_FRM_STAT (by decide) false)
  have hint : (scheduleStopped s).rdB SYS_FRM_INT 2 = true :=
    (congrArg (bit · 2) (State.rd_raise_same _ _ _)).trans (by rw [bit_or]; simp [bit])
  exact ⟨(congrArg (bit · 0) (hregs SYS_FRM_STAT (by decide))).trans hstat,
    (congrArg (bit · 2) (hregs SYS_FRM_INT (by decide))).trans hint,
    (congrArg Router.play hrouter).trans rfl, (congrArg Router.txOut hrouter).trans rfl, hframe⟩

/-- The stop of a frame (R41), and its start again where one waits (R402). -/
theorem frameStopped_spec (s : State) :
    let u := s.frameStopped
    u.running = s.frame.restart ∧ u.rdB SYS_FRM_INT 2 = true ∧ u.frame.win = .none ∧ u.frame.ticking = false ∧
    u.frame.final = false ∧ u.frame.first = (if s.frame.restart then true else s.frame.first) ∧
    u.router.play = [] ∧ u.router.txOut = [] := by
  obtain ⟨hstop, hint, hplay, htx, hframe⟩ := unitsStopped_scheduleStopped s
  rw [frameStopped_eq]
  generalize unitsStopped (scheduleStopped s) = t at hstop hint hplay htx hframe ⊢
  cases hagain : s.frame.restart with
  | false => exact ⟨hstop, hint, hframe ▸ rfl, hframe ▸ rfl, hframe ▸ rfl, hframe ▸ rfl, hplay, htx⟩
  | true =>
    obtain ⟨hgo, hfirst, hwin, htick, hend, -, hplay', htx', hrd⟩ := frameStart_spec t t.stc
    exact ⟨hgo, (congrArg (bit · 2) (hrd SYS_FRM_INT (by decide))).trans hint, hwin, htick, hend, hfirst, hplay', htx'⟩

/-- Settles O29: the frame and its units stop, and a restart that waits starts the frame after them. -/
theorem finalBlockEnds : Obligations.FinalBlockEnds := by
  unfold Obligations.FinalBlockEnds
  intro s pest hrun hfinal
  rw [gives_blockTick, blockTick_final _ hrun hfinal]
  exact frameStopped_spec (s.advanceTo s.tickCycle)

end Sys2Proof

namespace Sys2Proof

open Sys2Proof.Machine

/-! Commands that issue a bundle (R73). -/

/-- A command that issues a bundle does so on its engine. -/
theorem exec_bundle {c : Instr} {e : Fin 32} {b : Bundle} (h : c.bundle? = some (e, b)) (s : State) :
    exec c s = done (s.issue e (some b)) := by
  cases c <;> cases h
  case ldq sl _ _ _ _ | ldw sl _ _ _ _ | stq sl _ _ _ _ | stw sl _ _ _ _ | ldr sl _ _ _ _ | ldl sl _ _ _ _
      | str sl _ _ _ _ | stl sl _ _ _ _ => cases sl <;> rfl
  all_goals rfl

theorem gives_bundle {c : Instr} {e : Fin 32} {b : Bundle} (h : c.bundle? = some (e, b)) {s : State}
    {P : State → Prop} : Gives c s P ↔ P (s.issue e (some b)).settle :=
  gives_iff_of_done (exec_bundle h s)

/-! The step of the block (R45, R53). -/

theorem step_idle {s : State} (h : s.pending = []) : step s = .next s.cycle.settle := by
  unfold step
  rw [h]
  rfl

/-- With one engine listed, a cycle is that engine's share of it and the passage of time. -/
theorem cycle_one {s : State} {e : Nat} {g : Engine} (h : s.engs = [(e, g)]) :
    s.cycle = (s.fetchIssue e).advance 1 := by
  unfold State.cycle State.engList
  rw [h]
  rfl

theorem eng_one {s : State} {e : Nat} {g : Engine} (h : s.engs = [(e, g)]) : s.eng e = g := by
  unfold State.eng
  rw [h, sget_cons, if_pos rfl]

/-- An engine that runs and has issued no bundle in the cycle issues the one at its PC (R45, R53). -/
theorem fetchIssue_runnable {s : State} {e : Nat} (hcyc : (s.eng e).cyc ≤ s.now) (hrun : (s.eng e).runnable = true)
    (hissued : (s.eng e).issued = false) (hpold : (s.eng e).pold = []) :
    s.fetchIssue e = s.issue e (decodeBundle (s.bundleAt e (s.eng e).pc)) := by
  simp [State.fetchIssue, State.fetchWord, hcyc, hrun, hissued, hpold]

theorem fetchIssue_idle {s : State} {e : Nat} (h : (s.eng e).runnable = false ∨ (s.eng e).issued = true) :
    s.fetchIssue e = s := by
  unfold State.fetchIssue
  rcases h with h | h <;> simp [h]

/-- Settles O1: a step runs the front command; with none, the one engine listed issues the bundle at its PC. -/
theorem stepRunsFrontCommand : Obligations.StepRunsFrontCommand := by
  unfold Obligations.StepRunsFrontCommand
  refine ⟨fun _ _ _ => rfl, fun s hp he => ⟨_, step_idle hp, ?_⟩, fun s e g hp he hcyc => ⟨fun hrun hissued hpold => ?_, fun hstop => ?_⟩⟩
  · have hc : s.cycle = s.advance 1 := by
      unfold State.cycle State.engList
      rw [he]
      rfl
    rw [hc]
    exact ⟨rfl, rfl, rfl⟩
  · have hg := eng_one he
    have hf := fetchIssue_runnable (e := e) (hg ▸ hcyc.le) (hg ▸ hrun) (hg ▸ hissued) (hg ▸ hpold)
    rw [hg] at hf
    rw [step_idle hp, cycle_one he, hf]
    refine ⟨fun c b hc hb => ⟨_, exec_bundle hc s, ?_⟩, fun w hw hnone => ⟨_, rfl, ?_⟩⟩
    · exact congrArg (fun o => Host.Outcome.next ((s.issue e o).advance 1).settle) hb
    · rw [hw]
      rfl
  · rw [step_idle hp, cycle_one he, fetchIssue_idle (by rwa [eng_one he])]

end Sys2Proof

namespace Sys2Proof

open Sys2Proof.Machine

/-! The checks at issue (R69, R104, R105). -/

/-- A far window that a request names lies outside the exchange window (R92). -/
def farOutside (g : Engine) (c : CtlOp) : Bool :=
  match farArgs c with
  | some (_, _, i, _, n) => decide ((g.rs.pR i).toNat / 4 < 0x3C00) || decide (0x3FFF < (g.rs.pR i).toNat / 4 + n.val)
  | none => false

/-- The tag that a far request names is outstanding (R61). -/
def tagBusy (g : Engine) (c : CtlOp) : Bool :=
  match farArgs c with
  | some (_, t, _) => g.far.any (fun q => q.tag = t)
  | none => false

/-- A repeat count above ENG_RCAP (R100). -/
def overCap (g : Engine) (c : CtlOp) : Bool :=
  match rptCount c with
  | some n => decide (g.rcap < n)
  | none => false

/-- A handler has run for ENG_RCAP cycles (R67). -/
def evtLong (g : Engine) : Bool := g.inEvt && decide (g.evtFirst + g.rcap ≤ g.cyc)

/-- At a legal PC, the code of the first check that a bundle meets (R69). -/
theorem issueFault_legal {g : Engine} (hpc : g.pc ≤ 6143) (b : Bundle) :
    issueFault g (some b) = ([(1, illegal g b), (2, memStores b.x && memStores b.y), (3, destClash b),
      (4, overCap g b.c), (5, (g.delay.isSome && (rptCount b.c).isSome) || (g.rpt.isSome && b.c != .nop)),
      (6, g.delay.isSome && isFlow b.c), (8, (farArgs b.c).isSome && decide (16 ≤ g.far.length)), (9, tagBusy g b.c),
      (10, farOutside g b.c), (11, b.c == .rte && !g.inEvt), (12, evtLong g)].find?
        (fun c : Nat × Bool => c.2)).map Prod.fst := by
  have hpc' : ¬ 6143 < g.pc := by omega
  simp only [issueFault, hpc, hpc', decide_true, decide_false, Bool.true_and, List.cons_append, List.nil_append]
  simp only [List.find?_cons]
  rfl

/-- Past the last bundle of PMEM every bundle faults with code 7. -/
theorem issueFault_beyond {g : Engine} (hpc : 6143 < g.pc) (b : Bundle) : issueFault g (some b) = some 7 := by
  simp [issueFault, hpc, Nat.not_le.2 hpc]

/-- A control operation alone in its bundle: no other slot is illegal, stores or clashes with it. -/
theorem issueFault_control {g : Engine} (hpc : g.pc ≤ 6143) (c : CtlOp) :
    issueFault g (some { Bundle.nop with c := c }) = ([(1, rptCount c == some 0 || (c == .endSlice && g.inEvt)),
      (4, overCap g c), (5, (g.delay.isSome && (rptCount c).isSome) || (g.rpt.isSome && c != .nop)),
      (6, g.delay.isSome && isFlow c), (8, (farArgs c).isSome && decide (16 ≤ g.far.length)), (9, tagBusy g c),
      (10, farOutside g c), (11, c == .rte && !g.inEvt), (12, evtLong g)].find?
        (fun c : Nat × Bool => c.2)).map Prod.fst := by
  have hill : illegal g { Bundle.nop with c := c } = (rptCount c == some 0 || (c == .endSlice && g.inEvt)) := by
    simp [illegal, Bundle.nop]
  have hclash : destClash { Bundle.nop with c := c } = false := by
    cases hd : ctlWritesD c <;> simp [destClash, clash, Bundle.nop, memPtr, memLoads, arithDest, arithDest2, hd]
  rw [issueFault_legal hpc, hill, hclash]
  simp only [Bundle.nop, memStores, Bool.and_false, List.find?_cons]

/-- Settles O18, cause by cause: the checks before a cause's own are false, its own is true. -/
theorem issueFaultCodes : Obligations.IssueFaultCodes := by
  unfold Obligations.IssueFaultCodes
  intro g hpc
  have key := issueFault_legal hpc
  have keyC := issueFault_control hpc
  refine ⟨fun d m => ?_, ?_, fun hevt => ?_, ?_, fun x y hx hy => ?_, fun r i j k l => ?_, fun n h0 hcap => ?_,
    fun n h0 hcap hd => ?_, fun hr => ?_, fun rel hr hd => ?_, fun b pc hp => issueFault_beyond hp b,
    fun t i x c hr hfar => ?_, fun t i x c hr hfar htag => ?_, fun t i x c hr hfar hq => ?_, fun hr hd hevt => ?_,
    fun hevt hlong => ?_, fun hok => ?_⟩
  · simp [key, illegal]
  · simp [keyC, rptCount]
  · simp [keyC, hevt]
  · simp [issueFault, hpc]
  · simp [key, illegal, Bundle.nop, rptCount, hx, hy]
  · simp [key, illegal, Bundle.nop, rptCount, memStores, destClash, clash, memLoads]
  · have h0' : n.toNat ≠ 0 := fun h => h0 (BitVec.eq_of_toNat_eq h)
    simp [keyC, rptCount, overCap, h0', hcap]
  · have h0' : n.toNat ≠ 0 := fun h => h0 (BitVec.eq_of_toNat_eq h)
    simp [keyC, rptCount, overCap, h0', Nat.not_lt.2 hcap, hd]
  · simp [keyC, rptCount, overCap, hr]
  · simp [keyC, rptCount, overCap, hr, hd, isFlow]
  · simp [keyC, rptCount, overCap, hr, isFlow, farArgs, hfar]
  · have hbusy : tagBusy g (.pput t i x c) = true := by simpa [tagBusy, farArgs] using htag
    simp [keyC, rptCount, overCap, hr, isFlow, farArgs, Nat.not_le.2 hfar, hbusy]
  · have hout : farOutside g (.pget t i x c) = true := by simp [farOutside, farArgs, hq]
    simp [keyC, rptCount, overCap, hr, isFlow, farArgs, hfar, tagBusy, hout]
  · simp [keyC, rptCount, overCap, hr, hd, farArgs, tagBusy, farOutside, hevt]
  · have hevt' : evtLong g = true := by simp [evtLong, hevt, hlong]
    exact (keyC .nop).trans (by simp [rptCount, overCap, isFlow, farArgs, tagBusy, farOutside, hevt'])
  · have hevt' : evtLong g = false := by simpa [evtLong] using hok
    exact (keyC .nop).trans (by simp [rptCount, overCap, isFlow, farArgs, tagBusy, farOutside, hevt'])

end Sys2Proof

namespace Sys2Proof

open Sys2Proof.Machine

/-! What the slots of a bundle put in flight, in their order (R49, R55, R91). -/

theorem fly_flight (s : State) (e lat : Nat) (x : Landing) :
    ((s.fly e lat x).eng e).flight = (s.eng e).flight ++ [⟨(s.eng e).cyc + lat, (s.eng e).inEvt, x⟩] := by
  rw [State.fly, State.eng_updEng_same]

theorem each_fly_flight (e lat : Nat) (l : List Landing) (s : State) :
    ((s.each l (fun s x => s.fly e lat x)).eng e).flight =
      (s.eng e).flight ++ l.map (fun x => ⟨(s.eng e).cyc + lat, (s.eng e).inEvt, x⟩) := by
  induction l generalizing s with
  | nil => simp [State.each]
  | cons x l ih =>
    have hs := fly_step s e lat x
    rw [each_cons, ih, fly_flight, hs.cyc, hs.inEvt]
    simp

theorem storeWord_flight (s : State) (e w : Nat) (v : Word) : ((s.storeWord e w v).eng e).flight = (s.eng e).flight := by
  unfold State.storeWord
  show ((State.setEng s e _).eng e).flight = _
  rw [State.eng_setEng_same]
  split <;> rfl

theorem storeQuad_flight (s : State) (e q : Nat) (v : L4 Word) :
    ((s.storeQuad e q v).eng e).flight = (s.eng e).flight := by
  simp only [State.storeQuad, storeWord_flight]

/-- The bank view of an engine depends on its context, its live table and the registers (R146). -/
theorem viewWord_congr {s t : State} {e : Nat} (hctx : (t.eng e).ctx = (s.eng e).ctx)
    (hlive : (t.eng e).live = (s.eng e).live) (hregs : t.regs = s.regs) (w : Nat) : t.viewWord e w = s.viewWord e w := by
  unfold State.viewWord State.rdF Engine.entry
  simp only [hctx, hlive, State.rd_congr hregs]

/-- Where a word lies, and whether a load of it is defined, depends on the engine and the registers alone. -/
theorem loaded_congr {s t : State} {e : Fin 32} (heng : t.eng e = s.eng e) (hregs : t.regs = s.regs)
    (hmem : t.mem = s.mem) (w : Nat) (v : Word) : Loaded t e w v ↔ Loaded s e w v := by
  have hview := viewWord_congr (congrArg Engine.ctx heng) (congrArg Engine.live heng) hregs w
  unfold Loaded LoadDefined wordAt
  rw [hview, heng, hmem]

/-- A load answers what the memory holds, where that is defined (R63, R180). -/
theorem loaded_loadWord (s : State) (e : Fin 32) (w : Nat) : Loaded s e w (s.loadWord e w).1 := by
  rintro ⟨hfar, hold⟩
  rw [loadWord_plain s e w _ hold]
  · rfl
  · rw [List.any_eq_false]
    intro q hq
    cases hget : q.get
    · simp
    · simp [hfar q hq hget]

/-- A load changes no more than the count of free values. -/
theorem loaded_after_loadWord (s : State) (e : Fin 32) (w x : Nat) (v : Word) :
    Loaded (s.loadWord e w).2 e x v ↔ Loaded s e x v :=
  loaded_congr ((loadWord_keeps s e w).eng e) (loadWord_regs s e w) (loadWord_keeps s e w).2.1 x v

theorem loaded_loadQuad (s : State) (e : Fin 32) (q : Nat) (k : Fin 4) :
    Loaded s e (q * 4 + k.val) ((s.loadQuad e q).1.get k) := by
  have h1 := fun v x => loaded_after_loadWord s e (q * 4) x v
  have h2 := fun v x => (loaded_after_loadWord (s.loadWord e (q * 4)).2 e (q * 4 + 1) x v).trans (h1 v x)
  have h3 := fun v x =>
    (loaded_after_loadWord ((s.loadWord e (q * 4)).2.loadWord e (q * 4 + 1)).2 e (q * 4 + 2) x v).trans (h2 v x)
  match k with
  | 0 => exact loaded_loadWord s e (q * 4)
  | 1 => exact (h1 _ _).1 (loaded_loadWord _ e (q * 4 + 1))
  | 2 => exact (h2 _ _).1 (loaded_loadWord _ e (q * 4 + 2))
  | 3 => exact (h3 _ _).1 (loaded_loadWord _ e (q * 4 + 3))

/-- A memory slot puts what it loads and its pointer's write-back in flight (R88, R91). -/
theorem memSlot_flight (s : State) (e : Fin 32) (g : Engine) (hcyc : (s.eng e).cyc = g.cyc)
    (hevt : (s.eng e).inEvt = g.inEvt) (op : MemOp) :
    ∃ fl, MemPuts s e g op fl ∧ ((s.memSlot e g.rs op).eng e).flight = (s.eng e).flight ++ fl := by
  have hword := fun w => (loadWord_keeps s e w).eng e
  have hquad := fun q => (loadQuad_keeps s e q).eng e
  have hfly := fun (t : State) n x => (fly_step t e n x).cyc
  have hfly' := fun (t : State) n x => (fly_step t e n x).inEvt
  have hst := fun w v => storeWord_step s e w v
  have hstq := fun q v => storeQuad_step s e q v
  cases op with
  | nop => exact ⟨[], rfl, by simp [State.memSlot, State.memAccess, State.memModify]⟩
  | ldq r i j =>
    refine ⟨_, ⟨(s.loadQuad e ((g.rs.pR i).toNat / 4)).1, loaded_loadQuad s e _, rfl⟩, ?_⟩
    simp [State.memSlot, State.memAccess, State.memModify, fly_flight, hfly, hfly', hquad, hcyc, hevt, pointerBack]
  | ldw r i j =>
    refine ⟨_, ⟨(s.loadWord e (g.rs.pR i).toNat).1, loaded_loadWord s e _, rfl⟩, ?_⟩
    simp [State.memSlot, State.memAccess, State.memModify, fly_flight, hfly, hfly', hword, hcyc, hevt, pointerBack]
  | ldr r i j =>
    refine ⟨_, ⟨(s.loadWord e (g.rs.pR i).toNat).1, loaded_loadWord s e _, rfl⟩, ?_⟩
    simp [State.memSlot, State.memAccess, State.memModify, fly_flight, hfly, hfly', hword, hcyc, hevt, pointerBack]
  | ldl r i j =>
    refine ⟨_, ⟨(s.loadWord e (g.rs.pR i).toNat).1, loaded_loadWord s e _, rfl⟩, ?_⟩
    simp [State.memSlot, State.memAccess, State.memModify, fly_flight, hfly, hfly', hword, hcyc, hevt, pointerBack]
  | stq r i j =>
    refine ⟨_, rfl, ?_⟩
    simp [State.memSlot, State.memAccess, State.memModify, fly_flight, storeQuad_flight, (hstq _ _).cyc, (hstq _ _).inEvt,
      hcyc, hevt, pointerBack]
  | stw r i j | str r i j | stl r i j =>
    refine ⟨_, rfl, ?_⟩
    simp [State.memSlot, State.memAccess, State.memModify, fly_flight, storeWord_flight, (hst _ _).cyc, (hst _ _).inEvt,
      hcyc, hevt, pointerBack]

/-- The arithmetic slot puts its landings in flight, each for the latency of its class (R55, R86). -/
theorem arithSlot_flight_eq (s : State) (e : Nat) (op : ArithOp) (r : RegSet) :
    ((s.arithSlot e r op).eng e).flight = (s.eng e).flight ++
      (arithLandings op (arithOut op r (s.gOf e) (s.eng e).cyc)).map
        (fun x => ⟨(s.eng e).cyc + arithLatency op, (s.eng e).inEvt, x⟩) := by
  have hset : ∀ q, ((s.eng e).setRs q).flight = (s.eng e).flight ∧ ((s.eng e).setRs q).cyc = (s.eng e).cyc ∧
      ((s.eng e).setRs q).inEvt = (s.eng e).inEvt := by
    intro q
    unfold Engine.setRs
    split <;> exact ⟨rfl, rfl, rfl⟩
  unfold State.arithSlot
  dsimp only
  rw [each_fly_flight, State.eng_setEng_same, (hset _).1, (hset _).2.1, (hset _).2.2]

/-- The control slot puts its register writes in flight (R97, R99, R103). -/
theorem ctlSlot_flight (s : State) (e : Nat) (g : Engine) (hcyc : (s.eng e).cyc = g.cyc)
    (hevt : (s.eng e).inEvt = g.inEvt) (op : CtlOp) :
    ((s.ctlSlot e g.rs op).eng e).flight = (s.eng e).flight ++ ctlPuts g op := by
  cases op
  case gadv | gset | pwait =>
    unfold State.ctlSlot
    dsimp only
    split <;> simp [ctlPuts]
  all_goals simp [State.ctlSlot, ctlPuts, fly_flight, hcyc, hevt]

end Sys2Proof

namespace Sys2Proof

open Sys2Proof.Machine

/-! The slots of a bundle as a whole: what goes in flight, what they store, and their frame (R49, R56, R91). -/

/-- The state in which the arithmetic slot of an issuing bundle works: both memory slots have made their accesses. -/
def accessed (s : State) (e : Fin 32) (b : Bundle) : State :=
  ((slotState s e b .y).memSlot e (issueEng s e b).rs b.y).collide e (issueEng s e b).rs b

theorem slots_issueState (s : State) (e : Fin 32) (b : Bundle) : (issueState s e b).slots e b =
    ((accessed s e b).arithSlot e (issueEng s e b).rs b.a).ctlSlot e (issueEng s e b).rs b.c := by
  unfold State.slots
  rw [issueState_eng]
  rfl

theorem slotState_step (s : State) (e : Fin 32) (b : Bundle) (sl : Slot) :
    SlotStep (issueEng s e b) ((slotState s e b sl).eng e) := by
  cases sl with
  | x => rw [slotState, issueState_eng]; exact .refl _
  | y =>
    have h := memSlot_step (issueState s e b) e (issueEng s e b).rs b.x
    rwa [issueState_eng] at h

theorem slotState_regs (s : State) (e : Fin 32) (b : Bundle) (sl : Slot) : (slotState s e b sl).regs = s.regs := by
  cases sl with
  | x => rfl
  | y => exact memSlot_regs _ _ _ _

/-- The two memory slots of a bundle see the same words under the bank view. -/
theorem wordAt_slotState (s : State) (e : Fin 32) (b : Bundle) (sl : Slot) (w : Nat) :
    wordAt (slotState s e b sl) e w = wordAt (issueState s e b) e w := by
  have h := slotState_step s e b sl
  have hg := issueState_eng s e b
  unfold wordAt
  rw [viewWord_congr (s := issueState s e b) (hg ▸ h.ctx) (hg ▸ h.live) (slotState_regs s e b sl)]

theorem accessed_step (s : State) (e : Fin 32) (b : Bundle) : SlotStep (issueEng s e b) ((accessed s e b).eng e) := by
  unfold accessed
  rw [collide_eng]
  exact (slotState_step s e b .y).trans (memSlot_step _ e _ _)

/-- The glide factor stays as it was at issue (R56). -/
theorem accessed_gOf (s : State) (e : Fin 32) (b : Bundle) : (accessed s e b).gOf e = (issueState s e b).gOf e := by
  have hg := issueState_eng s e b
  have h := accessed_step s e b
  refine gOf_congr (hg ▸ h.inEvt) (hg ▸ h.cur) ?_ ?_
  · unfold accessed
    rw [collide_eng, memSlot_gidx, slotState, memSlot_gidx]
  · unfold accessed
    rw [collide_morph, memSlot_morph, slotState, memSlot_morph]

/-- After its slots exactly what the slots of a bundle put in flight is added to what was there (R55, R91). -/
theorem inFlight_slots (s : State) (e : Fin 32) (b : Bundle) :
    InFlight s ((issueState s e b).slots e b) e b (arithLatency b.a)
      (arithLandings b.a (arithOut b.a (issueEng s e b).rs ((issueState s e b).gOf e) (issueEng s e b).cyc)) := by
  have hx := slotState_step s e b .x
  have hy := slotState_step s e b .y
  have ha := accessed_step s e b
  have hc := ha.trans (arithSlot_step _ e _ b.a (by unfold accessed; rw [collide_eng, memSlot_rs, slotState, memSlot_rs, issueState_eng]))
  obtain ⟨fx, hfx, hxfl⟩ := memSlot_flight (slotState s e b .x) e (issueEng s e b) hx.cyc hx.inEvt b.x
  obtain ⟨fy, hfy, hyfl⟩ := memSlot_flight (slotState s e b .y) e (issueEng s e b) hy.cyc hy.inEvt b.y
  refine ⟨fx, fy, hfx, hfy, ?_⟩
  have hacc : ((accessed s e b).eng e).flight = (issueEng s e b).flight ++ fx ++ fy := by
    unfold accessed
    rw [collide_eng, hyfl, show slotState s e b .y = (slotState s e b .x).memSlot e (issueEng s e b).rs b.x from rfl, hxfl,
      slotState, issueState_eng]
  rw [slots_issueState, ctlSlot_flight _ e _ hc.cyc hc.inEvt, arithSlot_flight_eq, hacc, accessed_gOf, ha.cyc, ha.inEvt]

/-- The operation in a memory slot of a bundle. -/
def memOp (b : Bundle) : Slot → MemOp
  | .x => b.x
  | .y => b.y

theorem memOp_fit_put {w : Bundle} {sl : Slot} (hfits : sl.fits w.c = true) (op : MemOp) :
    memOp (w.put sl op).fit sl = op := by
  cases sl with
  | x =>
    unfold Bundle.fit
    split <;> rfl
  | y =>
    have hnarrow : wideCtl w.c = false := by simpa [Slot.fits] using hfits
    rw [Bundle.fit, if_neg (by simp [Bundle.put, hnarrow])]
    rfl

/-- What a memory slot of an issuing bundle puts in flight, and that it stays there where it lands after the next
cycle. -/
theorem memPuts_lands {s : State} {e : Fin 32} {b : Bundle} (hready : Ready s e b) (sl : Slot) :
    ∃ fl, MemPuts (slotState s e b sl) e (issueEng s e b) (memOp b sl) fl ∧
      ∀ x n, 2 ≤ n → ⟨(issueEng s e b).cyc + n, (issueEng s e b).inEvt, x⟩ ∈ fl →
        Lands (s.issue e (some b)).settle e (issueEng s e b) n x := by
  obtain ⟨fx, fy, hfx, hfy, hfl⟩ := inFlight_slots s e b
  have hstay : ∀ x n, 2 ≤ n → (⟨(issueEng s e b).cyc + n, (issueEng s e b).inEvt, x⟩ : Flight) ∈ fx ++ fy →
      Lands (s.issue e (some b)).settle e (issueEng s e b) n x := by
    intro x n hn hmem
    rw [ready_issue hready]
    refine issueEffects_flight (issueState s e b) e b ?_ (by rw [issueState_eng]; dsimp only; omega)
    rw [hfl]
    simp only [List.mem_append] at hmem ⊢
    tauto
  cases sl with
  | x => exact ⟨fx, hfx, fun x n hn h => hstay x n hn (List.mem_append_left _ h)⟩
  | y => exact ⟨fy, hfy, fun x n hn h => hstay x n hn (List.mem_append_right _ h)⟩

section

variable {s : State} {e : Fin 32} {sl : Slot} {w : Bundle} (hfits : sl.fits w.c = true)
include hfits

/-- A load of a half word reaches its register with the low 16 bits of the word (R91). -/
theorem loadsHalf_of_puts {c : Instr} {op : MemOp} {i : Fin 8} {j : Fin 4} {x : BitVec 16 → Landing}
    (hc : c.bundle? = some (e, (w.put sl op).fit))
    (hputs : ∀ t g fl, MemPuts t e g op fl ↔ ∃ v, Loaded t e (g.rs.pR i).toNat v ∧
      fl = [⟨g.cyc + 3, g.inEvt, x (v.extractLsb' 0 16)⟩, pointerBack g i j]) :
    LoadsHalf c s e (w.put sl op).fit sl i x := by
  intro hready
  obtain ⟨fl, hfl, hlands⟩ := memPuts_lands hready sl
  rw [memOp_fit_put hfits, hputs] at hfl
  obtain ⟨v, hv, rfl⟩ := hfl
  exact (gives_bundle hc).2 ⟨_, hlands _ 3 (by omega) (.head _), fun hdef => congrArg _ (hv hdef)⟩

theorem gives_ldq (r : Fin 16) (i : Fin 8) (j : Fin 4) :
    let b := (w.put sl (.ldq r i j)).fit
    Ready s e b → Gives (.ldq e sl r i j w) s fun u =>
      ∃ v : Fin 4 → Word, Lands u e (issueEng s e b) 3 (.d r (L4.of fun k => some (v k))) ∧
        ∀ k : Fin 4, Loaded (slotState s e b sl) e (((issueEng s e b).rs.pR i).toNat / 4 * 4 + k.val) (v k) := by
  intro b hready
  obtain ⟨fl, hfl, hlands⟩ := memPuts_lands hready sl
  rw [memOp_fit_put hfits] at hfl
  obtain ⟨v, hv, rfl⟩ := hfl
  exact (gives_bundle rfl).2 ⟨v.get, hlands _ 3 (by omega) (.head _), hv⟩

theorem gives_ldw (r : Fin 16) (i : Fin 8) (j : Fin 4) :
    let b := (w.put sl (.ldw r i j)).fit
    Ready s e b → Gives (.ldw e sl r i j w) s fun u =>
      ∃ v : Word, Lands u e (issueEng s e b) 3 (.d r (L4.all (some v))) ∧
        Loaded (slotState s e b sl) e ((issueEng s e b).rs.pR i).toNat v := by
  intro b hready
  obtain ⟨fl, hfl, hlands⟩ := memPuts_lands hready sl
  rw [memOp_fit_put hfits] at hfl
  obtain ⟨v, hv, rfl⟩ := hfl
  exact (gives_bundle rfl).2 ⟨v, hlands _ 3 (by omega) (.head _), hv⟩

end

/-- Settles O7: a load goes in flight for n+3 from the state in which its slot makes its access. -/
theorem loadResults : Obligations.LoadResults := by
  unfold Obligations.LoadResults
  intro s e sl i j w hfits
  exact ⟨fun r => gives_ldq hfits r i j, fun r => gives_ldw hfits r i j,
    fun r => loadsHalf_of_puts hfits rfl fun _ _ _ => Iff.rfl,
    fun r => loadsHalf_of_puts hfits rfl fun _ _ _ => Iff.rfl⟩

end Sys2Proof

namespace Sys2Proof

open Sys2Proof.Machine

/-! What a bundle stores (R49, R91). -/

/-- A word read after another word is written elsewhere. -/
theorem wordOf_putWord_other (m : List (Nat × Byte)) {a b : Nat} (v : Word) (h : a + 4 ≤ b ∨ b + 4 ≤ a) :
    wordOf (putWord m a v) b = wordOf m b := by
  unfold wordOf
  rw [putWord_other _ _ (by omega), putWord_other _ _ (by omega), putWord_other _ _ (by omega),
    putWord_other _ _ (by omega)]

theorem storeWord_mem_wordAt (s : State) (e : Fin 32) (w : Nat) (v : Word) :
    (s.storeWord e w v).mem = putWord s.mem (wordAt s e w) v := rfl

theorem wordAt_storeWord (s : State) (e : Fin 32) (w : Nat) (v : Word) (x : Nat) :
    wordAt (s.storeWord e w v) e x = wordAt s e x := congrArg (dmemAddr e) (storeWord_view s e w v x)

theorem storeQuad_mem (s : State) (e : Fin 32) (q : Nat) (v : L4 Word) : (s.storeQuad e q v).mem =
    putWord (putWord (putWord (putWord s.mem (wordAt s e (q * 4)) v.l0) (wordAt s e (q * 4 + 1)) v.l1)
      (wordAt s e (q * 4 + 2)) v.l2) (wordAt s e (q * 4 + 3)) v.l3 := by
  simp only [State.storeQuad, storeWord_mem_wordAt, wordAt_storeWord]

/-- Words of different lanes lie apart under the bank view (R146). -/
theorem wordAt_apart (s : State) (e : Fin 32) {v w : Nat} (h : v % 4 ≠ w % 4) :
    wordAt s e v + 4 ≤ wordAt s e w ∨ wordAt s e w + 4 ≤ wordAt s e v := by
  have hv : s.viewWord e v % 4 = v % 4 := bankView_mod _ _ _
  have hw : s.viewWord e w % 4 = w % 4 := bankView_mod _ _ _
  unfold wordAt dmemAddr
  omega

/-- A quad stored reads back lane by lane. -/
theorem wordOf_storeQuad (s : State) (e : Fin 32) (q : Nat) (v : L4 Word) (k : Fin 4) :
    wordOf (s.storeQuad e q v).mem (wordAt s e (q * 4 + k.val)) = v.get k := by
  have skip : ∀ m i j x, (q * 4 + i) % 4 ≠ (q * 4 + j) % 4 →
      wordOf (putWord m (wordAt s e (q * 4 + i)) x) (wordAt s e (q * 4 + j)) = wordOf m (wordAt s e (q * 4 + j)) :=
    fun m i j x h => wordOf_putWord_other m x (wordAt_apart s e h)
  rw [storeQuad_mem]
  match k with
  | 0 =>
    show wordOf _ (wordAt s e (q * 4 + 0)) = _
    rw [skip _ 3 0 _ (by omega), skip _ 2 0 _ (by omega), skip _ 1 0 _ (by omega)]
    exact putWord_same _ _ _
  | 1 =>
    show wordOf _ (wordAt s e (q * 4 + 1)) = _
    rw [skip _ 3 1 _ (by omega), skip _ 2 1 _ (by omega)]
    exact putWord_same _ _ _
  | 2 =>
    show wordOf _ (wordAt s e (q * 4 + 2)) = _
    rw [skip _ 3 2 _ (by omega)]
    exact putWord_same _ _ _
  | 3 => exact putWord_same _ _ _

theorem memSlot_dmem (s : State) (e : Nat) (r : RegSet) (op : MemOp) :
    (s.memSlot e r op).mem = (s.memAccess e r op).mem := by
  cases op <;> simp only [State.memSlot, State.memModify, fly_dmem]

/-- A memory slot leaves every byte outside the words it stores (R91). -/
theorem memSlot_byte {s : State} {e : Fin 32} {r : RegSet} {op : MemOp} {a : Nat}
    (h : ∀ w n, storeSpan r op = some (w, n) → ∀ i < n, ¬(wordAt s e (w + i) ≤ a ∧ a < wordAt s e (w + i) + 4)) :
    sget 0 (s.memSlot e r op).mem a = sget 0 s.mem a := by
  have hword : ∀ w v, storeSpan r op = some (w, 1) → sget 0 (s.storeWord e w v).mem a = sget 0 s.mem a := by
    intro w v hspan
    have hout := h w 1 hspan 0 (by omega)
    rw [Nat.add_zero] at hout
    rw [storeWord_mem_wordAt, putWord_other _ _ (by omega)]
  cases op with
  | nop => rfl
  | ldq | ldw | ldr | ldl => rw [memSlot_mem s e r _ rfl]
  | stq r' i j =>
    have h0 := h _ 4 rfl 0 (by omega)
    have h1 := h _ 4 rfl 1 (by omega)
    have h2 := h _ 4 rfl 2 (by omega)
    have h3 := h _ 4 rfl 3 (by omega)
    rw [memSlot_dmem, State.memAccess, storeQuad_mem, putWord_other _ _ (by omega), putWord_other _ _ (by omega),
      putWord_other _ _ (by omega), putWord_other _ _ (by rw [Nat.add_zero] at h0; omega)]
  | stw r' i j | str r' i j | stl r' i j =>
    rw [memSlot_dmem]
    exact hword _ _ rfl

/-! The frame of a bundle's slots (R56). -/

/-- Only engines, memory and the count of free values change. -/
def EnginesAlone (s t : State) : Prop := t = { s with engs := t.engs, mem := t.mem, free := t.free }

namespace EnginesAlone

theorem refl (s : State) : EnginesAlone s s := rfl

theorem trans {s t u : State} (h : EnginesAlone s t) (k : EnginesAlone t u) : EnginesAlone s u :=
  Eq.trans k (congrArg (fun x : State => { x with engs := u.engs, mem := u.mem, free := u.free }) h)

theorem setEng (s : State) (e : Nat) (g : Engine) : EnginesAlone s (s.setEng e g) := rfl

theorem fly (s : State) (e lat : Nat) (x : Landing) : EnginesAlone s (s.fly e lat x) := rfl

theorem each {α : Type} {f : State → α → State} (h : ∀ s x, EnginesAlone s (f s x)) (l : List α) (s : State) :
    EnginesAlone s (s.each l f) := by
  induction l generalizing s with
  | nil => exact refl s
  | cons x l ih => exact (h s x).trans (ih (f s x))

theorem storeWord (s : State) (e w : Nat) (v : Word) : EnginesAlone s (s.storeWord e w v) := rfl

theorem storeQuad (s : State) (e q : Nat) (v : L4 Word) : EnginesAlone s (s.storeQuad e q v) :=
  (((storeWord s e _ _).trans (storeWord _ e _ _)).trans (storeWord _ e _ _)).trans (storeWord _ e _ _)

theorem loadWord (s : State) (e w : Nat) : EnginesAlone s (s.loadWord e w).2 := by
  unfold State.loadWord
  dsimp only
  split <;> rfl

theorem loadQuad (s : State) (e q : Nat) : EnginesAlone s (s.loadQuad e q).2 :=
  (((loadWord s e _).trans (loadWord _ e _)).trans (loadWord _ e _)).trans (loadWord _ e _)

theorem memAccess (s : State) (e : Nat) (r : RegSet) (op : MemOp) : EnginesAlone s (s.memAccess e r op) := by
  cases op with
  | nop => exact refl s
  | ldq _ _ _ => exact (loadQuad s e _).trans (fly _ e _ _)
  | ldw _ _ _ | ldr _ _ _ | ldl _ _ _ => exact (loadWord s e _).trans (fly _ e _ _)
  | stq _ _ _ => exact storeQuad s e _ _
  | stw _ _ _ | str _ _ _ | stl _ _ _ => exact storeWord s e _ _

theorem memSlot (s : State) (e : Nat) (r : RegSet) (op : MemOp) : EnginesAlone s (s.memSlot e r op) := by
  refine (memAccess s e r op).trans ?_
  cases op with
  | nop => exact refl _
  | ldq | ldw | stq | stw | ldr | ldl | str | stl => exact fly _ e _ _

theorem arithSlot (s : State) (e : Nat) (r : RegSet) (op : ArithOp) : EnginesAlone s (s.arithSlot e r op) :=
  (setEng s e _).trans (each (fun s x => fly s e _ x) _ _)

theorem ctlSlot (s : State) (e : Nat) (r : RegSet) (op : CtlOp) : EnginesAlone s (s.ctlSlot e r op) := by
  cases op
  case gadv | gset | pwait =>
    unfold State.ctlSlot
    dsimp only
    split <;> rfl
  all_goals rfl

end EnginesAlone

section

variable {s : State} {e : Fin 32} {b : Bundle} (hext : (issueEng s e b).ext = [])
include hext

/-- With no byte written by the external port, nothing collides (R181). -/
theorem accessed_eq : accessed s e b = (slotState s e b .y).memSlot e (issueEng s e b).rs b.y :=
  collide_none _ _ _ _ (((slotState_step s e b .y).trans (memSlot_step _ e _ _)).ext.trans hext)

theorem slots_mem : ((issueState s e b).slots e b).mem =
    ((slotState s e b .y).memSlot e (issueEng s e b).rs b.y).mem := by
  rw [slots_issueState, ctlSlot_mem, arithSlot_mem, accessed_eq hext]

theorem slots_enginesAlone : EnginesAlone s ((issueState s e b).slots e b) := by
  rw [slots_issueState, accessed_eq hext]
  exact ((((EnginesAlone.setEng s e _).trans (.memSlot _ e _ b.x)).trans (.memSlot _ e _ _)).trans
    (.arithSlot _ e _ _)).trans (.ctlSlot _ e _ _)

/-- The slots of a bundle leave every byte that they do not store. -/
theorem slots_byte {a : Nat} (h : ¬ storedBytes s e b a) :
    sget 0 ((issueState s e b).slots e b).mem a = sget 0 s.mem a := by
  have hout : ∀ sl w n, storeSpan (issueEng s e b).rs (memOp b sl) = some (w, n) → ∀ i < n,
      ¬(wordAt (slotState s e b sl) e (w + i) ≤ a ∧ a < wordAt (slotState s e b sl) e (w + i) + 4) := by
    intro sl w n hspan i hi hin
    rw [wordAt_slotState] at hin
    exact h ⟨memOp b sl, by cases sl <;> simp [memOp], w, n, hspan, i, hi, hin⟩
  calc sget 0 ((issueState s e b).slots e b).mem a
      = sget 0 (slotState s e b .y).mem a := by rw [slots_mem hext]; exact memSlot_byte (hout .y)
    _ = sget 0 (issueState s e b).mem a := memSlot_byte (hout .x)
    _ = sget 0 s.mem a := rfl

end

/-! A straight bundle: its slots, then the flow of the program (R55). -/

theorem issueEng_straight {s : State} {e : Fin 32} {b : Bundle} (h : Straight (issueEng s e b) b) :
    Straight ((issueState s e b).eng e) b := by
  rwa [issueState_eng]

/-- The state that a straight bundle leaves. -/
def straightState (s : State) (e : Fin 32) (b : Bundle) : State :=
  ((issueState s e b).slots e b).updEng e (flowed (issueEng s e b).rs b)

theorem issue_straight {s : State} {e : Fin 32} {b : Bundle} (hready : Ready s e b)
    (h : Straight (issueEng s e b) b) : s.issue e (some b) = straightState s e b := by
  rw [ready_issue hready, issueEffects_straight _ _ _ (issueEng_straight h), issueState_eng]
  rfl

theorem gives_straight {c : Instr} {s : State} {e : Fin 32} {b : Bundle} {P : State → Prop}
    (hc : c.bundle? = some (e, b)) (hready : Ready s e b) (h : Straight (issueEng s e b) b) :
    Gives c s P ↔ P (straightState s e b).settle := by
  rw [gives_bundle hc, issue_straight hready h]

theorem slots_issueEng_step (s : State) (e : Fin 32) (b : Bundle) :
    SlotStep (issueEng s e b) (((issueState s e b).slots e b).eng e) := by
  have h := slots_step (issueState s e b) e b
  rwa [issueState_eng] at h

theorem straightState_eng (s : State) (e : Fin 32) (b : Bundle) :
    (straightState s e b).eng e = flowed (issueEng s e b).rs b (((issueState s e b).slots e b).eng e) :=
  State.eng_updEng_same _ _ _

/-- The flow of the program moves PC, repeat and delay alone. -/
theorem flowNext_frame (g : Engine) (r : RegSet) (op : CtlOp) : flowNext g r op =
    { g with pc := (flowNext g r op).pc, rpt := (flowNext g r op).rpt, delay := (flowNext g r op).delay } := by
  unfold flowNext
  dsimp only
  split
  · rfl
  · split
    · split <;> rfl
    · split <;> split <;> rfl

theorem Machine.SlotStep.sameRegs {g h : Engine} (x : SlotStep g h) : SameRegs g.main h.main ∧ SameRegs g.shadow h.shadow := by
  rw [x.1]
  exact ⟨⟨rfl, rfl, rfl, rfl, rfl, rfl, rfl⟩, ⟨rfl, rfl, rfl, rfl, rfl, rfl, rfl⟩⟩

/-- What is in flight is all that an issued bundle is asked of. -/
theorem InFlight.of_flight {s u v : State} {e : Fin 32} {b : Bundle} {n : Nat} {xs : List Landing}
    (h : InFlight s u e b n xs) (hfl : (v.eng e).flight = (u.eng e).flight) : InFlight s v e b n xs := by
  obtain ⟨fx, fy, hfx, hfy, hu⟩ := h
  exact ⟨fx, fy, hfx, hfy, hfl.trans hu⟩

/-- Settles O15: a straight bundle is its slots and the flow of its program, and each slot has its frame. -/
theorem bundleFrame : Obligations.BundleFrame := by
  unfold Obligations.BundleFrame
  intro c e b s u hc hready hstraight hext hu
  obtain rfl : (straightState s e b).settle = u := by
    rw [exec_bundle hc, issue_straight hready hstraight, done_eq] at hu
    exact Host.Outcome.next.inj hu
  have hstep := slots_issueEng_step s e b
  obtain ⟨hmain, hshadow⟩ := hstep.sameRegs
  have hflow := flowNext_frame (((issueState s e b).slots e b).eng e) (issueEng s e b).rs b.c
  refine ⟨fun f hf => ?_, ?_, ?_, fun a ha => slots_byte hext ha,
    ⟨_, (inFlight_slots s e b).of_flight ?_, fun hnop => ?_⟩, ?_⟩
  · exact (State.eng_setEng_other _ _ hf).trans ((slots_other _ _ _ hf).trans (State.eng_setEng_other _ _ hf))
  · rw [State.eng_settle, straightState_eng]
    exact (congrArg Engine.main hflow).trans rfl ▸ hmain
  · rw [State.eng_settle, straightState_eng]
    exact (congrArg Engine.shadow hflow).trans rfl ▸ hshadow
  · rw [State.eng_settle, straightState_eng]
    exact flowNext_flight _ _ _
  · rw [hnop]
    rfl
  · have halone : EnginesAlone s (straightState s e b) := (slots_enginesAlone hext).trans (.setEng _ e _)
    exact congrArg (fun x : State => { x with hif := (straightState s e b).settle.hif }) halone

end Sys2Proof

namespace Sys2Proof

open Sys2Proof.Machine

/-! What a bundle that issues has passed (R69), and what its store leaves in memory (R91). -/

/-- A bundle that breaks no rule stands at a legal PC, at most one of its memory slots stores, none but NOP is repeated,
no branch stands in a delay slot, END stands outside a handler and RTE in one. -/
theorem issueFault_none {g : Engine} {b : Bundle} (h : issueFault g (some b) = none) :
    illegal g b = false ∧ (memStores b.x && memStores b.y) = false ∧ (g.rpt.isSome = true → b.c = .nop) ∧
      (g.delay.isSome = true → isFlow b.c = false) ∧ (b.c = .rte → g.inEvt = true) := by
  have hpc : g.pc ≤ 6143 := by
    by_contra hpc
    rw [issueFault_beyond (by omega)] at h
    cases h
  rw [issueFault_legal hpc, Option.map_eq_none_iff, List.find?_eq_none] at h
  simp only [List.mem_cons, List.not_mem_nil, or_false, forall_eq_or_imp, forall_eq, Bool.not_eq_true] at h
  obtain ⟨hill, hstores, -, -, hrpt, hflow, -, -, -, hrte, -⟩ := h
  refine ⟨hill, hstores, fun hr => ?_, fun hd => ?_, fun hc => ?_⟩
  · simpa [hr] using (Bool.or_eq_false_iff.1 hrpt).2
  · simpa [hd] using hflow
  · simpa [hc] using hrte

/-- The other slot of a bundle that stores does not store (R50), and the word stored stays until the bundle ends. -/
theorem slots_mem_store {s : State} {e : Fin 32} {b : Bundle} (hready : Ready s e b) (hext : (issueEng s e b).ext = [])
    (sl : Slot) (hst : memStores (memOp b sl) = true) : ((issueState s e b).slots e b).mem =
      ((slotState s e b sl).memAccess e (issueEng s e b).rs (memOp b sl)).mem := by
  obtain ⟨-, hstores, -⟩ := issueFault_none hready.2
  rw [slots_mem hext]
  cases sl with
  | x =>
    have hy : memStores b.y = false := by simpa [show memStores b.x = true from hst] using hstores
    rw [memSlot_mem _ _ _ _ hy]
    exact memSlot_dmem _ _ _ _
  | y => exact memSlot_dmem _ _ _ _

section

variable {s : State} {e : Fin 32} {sl : Slot} {w : Bundle} (hfits : sl.fits w.c = true)
include hfits

/-- A word that a straight bundle stores reads back as what its slot's access stored (R91). -/
theorem gives_store {c : Instr} {op : MemOp} {a : Nat} {v : Word} (hc : c.bundle? = some (e, (w.put sl op).fit))
    (hst : memStores op = true) (hready : Ready s e (w.put sl op).fit)
    (hstraight : Straight (issueEng s e (w.put sl op).fit) (w.put sl op).fit)
    (hext : (issueEng s e (w.put sl op).fit).ext = [])
    (hword : wordOf ((slotState s e (w.put sl op).fit sl).memAccess e (issueEng s e (w.put sl op).fit).rs op).mem
      (wordAt (slotState s e (w.put sl op).fit sl) e a) = v) :
    Gives c s fun u => wordOf u.mem (wordAt (issueState s e (w.put sl op).fit) e a) = v := by
  have hop := memOp_fit_put hfits op
  have hmem := slots_mem_store hready hext sl (by rw [hop]; exact hst)
  rw [hop] at hmem
  rw [gives_straight hc hready hstraight, ← wordAt_slotState s e _ sl, ← hword, ← hmem]
  rfl

end

theorem Gives.forall {ι : Type} {c : Instr} {s : State} {P : ι → State → Prop} [Nonempty ι]
    (h : ∀ i, Gives c s (P i)) : Gives c s fun u => ∀ i, P i u := by
  obtain ⟨t, ht, -⟩ := h (Classical.arbitrary ι)
  refine ⟨t, ht, fun i => ?_⟩
  obtain ⟨u, hu, hi⟩ := h i
  rw [ht] at hu
  exact Host.Outcome.next.inj hu ▸ hi

theorem Gives.imp {c : Instr} {s : State} {P Q : State → Prop} (h : Gives c s P) (hpq : ∀ u, P u → Q u) :
    Gives c s Q := by
  obtain ⟨t, ht, hp⟩ := h
  exact ⟨t, ht, hpq t hp⟩

/-- Settles O8: the slot's store stands where its word lies under the bank view. -/
theorem storeResults : Obligations.StoreResults := by
  unfold Obligations.StoreResults
  intro s e sl i j w hfits
  refine ⟨?_, ?_, ?_, ?_⟩
  all_goals intro r b hready hstr hext
  · exact Gives.forall fun k => gives_store hfits rfl rfl hready hstr hext (wordOf_storeQuad _ e _ _ k)
  · exact gives_store hfits rfl rfl hready hstr hext (putWord_same _ _ _)
  · refine (gives_store hfits rfl rfl hready hstr hext (putWord_same _ _ _)).imp fun u hu => ?_
    refine ⟨fun h => hu.trans ?_, fun h => hu.trans ?_⟩
    · rw [xrWord, dif_pos h]
    · rw [xrWord, dif_neg (by omega)]
  · exact gives_store hfits rfl rfl hready hstr hext (putWord_same _ _ _)

/-! The flow of the program (R55, R100). -/

section

variable (g : Engine) (r : RegSet) {op : CtlOp}

theorem flowNext_repeats {n : Nat} (h : rptCount op = some n) :
    flowNext g r op = { g with pc := (g.pc + 1) % 8192, rpt := some n } := by
  simp [flowNext, h]

theorem branchTo_sequential (h : isFlow op = false) : branchTo g r op = none := by
  cases op
  case endSlice | rte | bra | bc | djn | jmp => cases h
  all_goals rfl

end

section

variable {g : Engine} (r : RegSet) {op : CtlOp} (hcount : rptCount op = none)
include hcount

theorem flowNext_repeated {k : Nat} (h : g.rpt = some k) : flowNext g r op =
    if k ≤ 1 then { g with rpt := none, pc := (g.pc + 1) % 8192 } else { g with rpt := some (k - 1) } := by
  simp [flowNext, hcount, h]

theorem flowNext_delay {d : Delay} (hrpt : g.rpt = none) (h : g.delay = some d) : flowNext g r op =
    if d.left ≤ 1 then { g with delay := none, pc := d.pc }
    else { g with delay := some { d with left := d.left - 1 }, pc := (g.pc + 1) % 8192 } := by
  simp [flowNext, hcount, hrpt, h]

theorem flowNext_next (hflow : branchTo g r op = none) (hrpt : g.rpt = none) (h : g.delay = none) :
    flowNext g r op = { g with pc := (g.pc + 1) % 8192 } := by
  simp [flowNext, hcount, hrpt, h, hflow]

end

/-- A straight bundle leaves PC, repeat and delay as its flow does, from where its slots left them: as they were. -/
theorem gives_flow {c : Instr} {s : State} {e : Fin 32} {b : Bundle} {P : State → Prop}
    (hc : c.bundle? = some (e, b)) (hready : Ready s e b) (hstr : Straight (issueEng s e b) b)
    (h : ∀ (k : Engine) (u : State), k.pc = (issueEng s e b).pc → k.rpt = (issueEng s e b).rpt →
      k.delay = (issueEng s e b).delay → (u.eng e).pc = (flowNext k (issueEng s e b).rs b.c).pc →
      (u.eng e).rpt = (flowNext k (issueEng s e b).rs b.c).rpt →
      (u.eng e).delay = (flowNext k (issueEng s e b).rs b.c).delay → P u) : Gives c s P := by
  have hstep := slots_issueEng_step s e b
  have heng : (straightState s e b).settle.eng e = _ := straightState_eng s e b
  exact (gives_straight hc hready hstr).2 (h _ _ hstep.pc hstep.rpt hstep.delay
    ((congrArg Engine.pc heng).trans rfl) ((congrArg Engine.rpt heng).trans rfl) ((congrArg Engine.delay heng).trans rfl))

/-- Settles O14: after its slots, which touch neither PC, repeat nor delay, a straight bundle leads where its flow does. -/
theorem sequentialFlow : Obligations.SequentialFlow := by
  unfold Obligations.SequentialFlow
  intro s e w
  refine ⟨?_, ?_, fun c b hc hflow hcount hready hstr => gives_flow hc hready hstr
    fun k u hpc hrpt hdelay upc urpt udelay => ?_⟩
  · intro n b hready hstr
    refine gives_flow rfl hready hstr fun k u hpc _ _ upc urpt _ => ?_
    rw [upc, urpt, flowNext_repeats k _ (op := b.c) (n := n.toNat) rfl, ← hpc]
    exact ⟨rfl, rfl⟩
  · intro n b hready hstr
    refine gives_flow rfl hready hstr fun k u hpc _ _ upc urpt _ => ?_
    rw [upc, urpt, flowNext_repeats k _ (op := b.c) (n := n.toNat) rfl, ← hpc]
    exact ⟨rfl, rfl⟩
  · dsimp only
    rw [upc, urpt, udelay, ← hpc, ← hrpt, ← hdelay]
    refine ⟨fun i hk => ?_, fun hk => ?_, fun a hr hd => ?_, fun a hr hd => ?_, fun hr hd => ?_⟩
    · rw [flowNext_repeated _ hcount hk, if_neg (by omega)]
      exact ⟨rfl, rfl⟩
    · rw [flowNext_repeated _ hcount hk, if_pos (by omega)]
      exact ⟨rfl, rfl⟩
    · rw [flowNext_delay _ hcount hr hd, if_neg (by simp)]
      exact ⟨rfl, rfl⟩
    · rw [flowNext_delay _ hcount hr hd, if_pos (by simp)]
      exact ⟨rfl, rfl⟩
    · rw [flowNext_next _ hcount (branchTo_sequential k _ hflow) hr hd]
      exact ⟨hd, rfl⟩

end Sys2Proof

namespace Sys2Proof

open Sys2Proof.Machine

/-! The passage of an engine's cycles (R55): results land, and what is in flight or due to the external port goes on. -/

/-- Of an engine only the register sets and what is in flight differ. -/
def LandOnly (g h : Engine) : Prop := h = { g with main := h.main, shadow := h.shadow, flight := h.flight }

namespace LandOnly

theorem refl (g : Engine) : LandOnly g g := rfl

theorem trans {g h k : Engine} (x : LandOnly g h) (y : LandOnly h k) : LandOnly g k :=
  Eq.trans y (congrArg (fun x : Engine => { x with main := k.main, shadow := k.shadow, flight := k.flight }) x)

theorem foldl {α : Type} {f : Engine → α → Engine} (hf : ∀ g x, LandOnly g (f g x)) (l : List α) (g : Engine) :
    LandOnly g (l.foldl f g) := by
  induction l generalizing g with
  | nil => exact refl g
  | cons x l ih => exact (hf g x).trans (ih (f g x))

theorem landOne (g : Engine) (f : Flight) : LandOnly g (landOne g f) := by
  unfold Machine.landOne
  split <;> rfl

theorem landAt (g : Engine) (c : Nat) : LandOnly g (landAt g c) :=
  trans (h := { g with flight := g.flight.filter (fun f => decide (c < f.due)) }) rfl (foldl landOne _ _)

end LandOnly

/-- Of an engine only what the passage of time moves differs. -/
def TimeOnly (g h : Engine) : Prop :=
  h = { g with main := h.main, shadow := h.shadow, flight := h.flight, cyc := h.cyc, issued := h.issued, ext := h.ext,
               xold := h.xold, pold := h.pold, spare := h.spare }

namespace TimeOnly

section

variable {g h : Engine} (x : TimeOnly g h)
include x

theorem trans {k : Engine} (y : TimeOnly h k) : TimeOnly g k :=
  Eq.trans y (congrArg (fun x : Engine => { x with
    main := k.main, shadow := k.shadow, flight := k.flight, cyc := k.cyc, issued := k.issued, ext := k.ext,
    xold := k.xold, pold := k.pold, spare := k.spare }) x)

theorem inEvt : h.inEvt = g.inEvt := (congrArg Engine.inEvt x).trans rfl
theorem cur : h.cur = g.cur := (congrArg Engine.cur x).trans rfl
theorem wait : h.wait = g.wait := (congrArg Engine.wait x).trans rfl
theorem far : h.far = g.far := (congrArg Engine.far x).trans rfl
theorem live : h.live = g.live := (congrArg Engine.live x).trans rfl
theorem halting : h.halting = g.halting := (congrArg Engine.halting x).trans rfl
theorem draining : h.draining = g.draining := (congrArg Engine.draining x).trans rfl
theorem drainTags : h.drainTags = g.drainTags := (congrArg Engine.drainTags x).trans rfl
theorem xq : h.xq = g.xq := (congrArg Engine.xq x).trans rfl
theorem blk : h.blk = g.blk := (congrArg Engine.blk x).trans rfl

theorem entry (sl : Nat) : h.entry sl = g.entry sl := congrArg (fun l => sget ({} : Entry) l sl) x.live

theorem runnable : h.runnable = g.runnable := by
  unfold Engine.runnable
  rw [x.inEvt, x.cur, x.wait]

end

theorem refl (g : Engine) : TimeOnly g g := rfl

theorem engRun (g : Engine) (n : Nat) : TimeOnly g (engRun g n) := by
  unfold Machine.engRun
  split
  · exact refl g
  · have hland := LandOnly.foldl (fun g i => LandOnly.landAt g (g.cyc + i + 1)) (upTo (min n maxLatency)) g
    dsimp only
    rw [hland]
    rfl

theorem engTo (g : Engine) (c : Nat) : TimeOnly g (engTo g c) := engRun g _

theorem toIssue (g : Engine) : TimeOnly g g.toIssue := by
  unfold Engine.toIssue
  split
  · exact engRun g 1
  · exact refl g

theorem boundary (g : Engine) : TimeOnly g g.boundary := toIssue g

end TimeOnly

/-! What the end of a slice and the return of a handler leave of an engine (R63, R66, R102). -/

/-- The PWAITs of a drain take cycles and leave the drain as it was but for their tags. -/
theorem drainRun_frame (l : List (Fin 16 × Bool)) (g : Engine) : g.drainRun l =
    { g with meas := (g.drainRun l).meas, busy := (g.drainRun l).busy, waitAt := (g.drainRun l).waitAt,
             drainTags := (g.drainRun l).drainTags } := by
  induction l generalizing g with
  | nil => rfl
  | cons t l ih =>
    unfold Engine.drainRun
    dsimp only
    split
    · exact (ih _).trans rfl
    · rfl

theorem updRun_frame (g : Engine) (sl : Nat) (f : SliceBlk → SliceBlk) :
    g.updRun sl f = { g with carry := (g.updRun sl f).carry, blk := (g.updRun sl f).blk } := by
  unfold Engine.updRun Engine.updSb
  split
  · rfl
  · dsimp only
    split <;> rfl

theorem payHold_frame (g : Engine) : g.payHold =
    { g with meas := g.payHold.meas, busy := g.payHold.busy, waitAt := g.payHold.waitAt } := by
  unfold Engine.payHold Engine.payTo
  split <;> rfl

theorem migSnapshot_engs (s : State) (id : Nat) (c : Bool) : (s.migSnapshot id c).engs = s.engs := by
  unfold State.migSnapshot
  dsimp only
  split
  · exact fenceRange_engs _ _ _ _ _
  · rfl

/-- Once its far queue is drained a slice's drain and hold are over; its outputs may be queued for collection. -/
theorem finalSlice_frame (s : State) (e sl : Nat) : ∃ xq, (s.finalSlice e sl).eng e =
    { s.eng e with draining := none, drainTags := [], wait := .none, carry := none, xq := xq } := by
  have hcount : ∀ (s : State) (c : Bool),
      (if c then s.countF (ENG_SLT_MEAS e (sl % 64)) 31 24 1 else s).eng e = s.eng e := by
    intro s c
    cases c <;> rfl
  have hsnap : ∀ (s : State) (c d : Bool) (id : Nat), (if c then s.migSnapshot id d else s).eng e = s.eng e := by
    intro s c d id
    cases c
    · rfl
    · exact congrArg (fun m => sget ({} : Engine) m e) (migSnapshot_engs s id d)
  unfold State.finalSlice
  dsimp only
  rw [hsnap, (keeps_sliceReports _ _ _ _ _ _ _ _).eng, hcount]
  exact ⟨_, State.eng_setEng_same _ _ _⟩

/-- A slice has stopped: nothing of its flow is left, and its drain is over or holds the engine (R63). -/
structure Stopped (g h : Engine) : Prop where
  cur : h.cur = none
  delay : h.delay = none
  rpt : h.rpt = none
  halting : h.halting = false
  inEvt : h.inEvt = g.inEvt
  drained : g.far = [] → h.draining = none ∧ h.wait = .none
  drains : g.far ≠ [] → h.draining = g.cur ∧ h.wait = .drain

theorem stopSlice_idle {s : State} {e : Nat} (f : SliceBlk → SliceBlk) (h : (s.eng e).cur = none) :
    s.stopSlice e f = s := by
  have hcur : (s.eng e).payHold.cur = none := by rw [payHold_frame]; exact h
  unfold State.stopSlice
  dsimp only
  rw [hcur]

/-- An engine whose slice stops, as its drain begins (R63): the record of the slice, its flow, and the PWAITs of the
drain. -/
def stopping (g : Engine) (sl : Nat) (f : SliceBlk → SliceBlk) : Engine :=
  let g := g.payHold
  let g := { g.updRun sl f with cur := .none, delay := .none, rpt := .none, halting := false,
                                draining := some sl, wait := .drain, waitAt := g.cyc + b2n g.issued }
  g.drainRun g.farTags

theorem stopping_stops (g : Engine) (sl : Nat) (f : SliceBlk → SliceBlk) :
    (stopping g sl f).cur = none ∧ (stopping g sl f).delay = none ∧ (stopping g sl f).rpt = none ∧
    (stopping g sl f).halting = false ∧ (stopping g sl f).inEvt = g.inEvt ∧ (stopping g sl f).far = g.far ∧
    (stopping g sl f).draining = some sl ∧ (stopping g sl f).wait = .drain := by
  unfold stopping
  dsimp only
  rw [drainRun_frame, updRun_frame, payHold_frame]
  exact ⟨rfl, rfl, rfl, rfl, rfl, rfl, rfl, rfl⟩

theorem stopSlice_eq {s : State} {e sl : Nat} (f : SliceBlk → SliceBlk) (h : (s.eng e).cur = some sl) :
    s.stopSlice e f = (if (s.eng e).far.isEmpty then (s.setEng e (stopping (s.eng e) sl f)).finalSlice e sl
      else s.setEng e (stopping (s.eng e) sl f)).cloveHost := by
  have hcur : (s.eng e).payHold.cur = some sl := by rw [payHold_frame]; exact h
  have hfar : ((s.eng e).payHold.updRun sl f).far = (s.eng e).far := by rw [updRun_frame, payHold_frame]
  rw [← hfar]
  unfold State.stopSlice
  dsimp only
  rw [hcur]
  rfl

theorem stopSlice_stopped {s : State} {e sl : Nat} (f : SliceBlk → SliceBlk) (h : (s.eng e).cur = some sl) :
    Stopped (s.eng e) ((s.stopSlice e f).eng e) := by
  obtain ⟨hcur, hdelay, hrpt, hhalt, hevt, -, hdrain, hwait⟩ := stopping_stops (s.eng e) sl f
  rw [stopSlice_eq f h, (keeps_cloveHost _).eng]
  cases hfar : (s.eng e).far with
  | nil =>
    obtain ⟨xq, hfin⟩ := finalSlice_frame (s.setEng e (stopping (s.eng e) sl f)) e sl
    rw [List.isEmpty_nil, if_pos rfl, hfin, State.eng_setEng_same]
    exact ⟨hcur, hdelay, hrpt, hhalt, hevt, fun _ => ⟨rfl, rfl⟩, fun hne => absurd hfar hne⟩
  | cons q rest =>
    rw [List.isEmpty_cons, if_neg (by simp), State.eng_setEng_same]
    exact ⟨hcur, hdelay, hrpt, hhalt, hevt, fun hnil => absurd (hfar.symm.trans hnil) (by simp),
      fun _ => ⟨hdrain.trans h.symm, hwait⟩⟩

/-! END ends the running slice (R102). -/

theorem storeWord_far_length (s : State) (e w : Nat) (v : Word) :
    ((s.storeWord e w v).eng e).far.length = (s.eng e).far.length := by
  unfold State.storeWord
  show ((State.setEng s e _).eng e).far.length = _
  rw [State.eng_setEng_same]
  split <;> exact List.length_map _

theorem fly_far (s : State) (e lat : Nat) (x : Landing) : ((s.fly e lat x).eng e).far = (s.eng e).far := by
  rw [State.fly, State.eng_updEng_same]

/-- A memory slot notes words of far requests and queues none (R94). -/
theorem memSlot_far_length (s : State) (e : Nat) (r : RegSet) (op : MemOp) :
    ((s.memSlot e r op).eng e).far.length = (s.eng e).far.length := by
  cases op <;> simp only [State.memSlot, State.memAccess, State.memModify, State.storeQuad, fly_far, storeWord_far_length,
    (loadWord_keeps _ _ _).eng, (loadQuad_keeps _ _ _).eng]

theorem each_fly_far (e lat : Nat) (l : List Landing) (s : State) :
    ((s.each l (fun s x => s.fly e lat x)).eng e).far = (s.eng e).far := by
  induction l generalizing s with
  | nil => rfl
  | cons x l ih => rw [each_cons, ih, fly_far]

theorem arithSlot_far (s : State) (e : Nat) (r : RegSet) (op : ArithOp) :
    ((s.arithSlot e r op).eng e).far = (s.eng e).far := by
  unfold State.arithSlot
  dsimp only
  rw [each_fly_far, State.eng_setEng_same]
  unfold Engine.setRs
  split <;> rfl

/-- A bundle with END queues no far request. -/
theorem slots_end_far_length (s : State) (e : Fin 32) {b : Bundle} (hc : b.c = .endSlice) :
    (((issueState s e b).slots e b).eng e).far.length = (issueEng s e b).far.length := by
  rw [slots_issueState, hc]
  unfold State.ctlSlot accessed
  dsimp only
  rw [arithSlot_far, collide_eng, memSlot_far_length, slotState, memSlot_far_length, issueState_eng]

/-- A bundle with END is ready on an engine that runs a slice, outside delay slots and repeats (R69, R102). -/
theorem Ready.end {s : State} {e : Fin 32} {b : Bundle} (h : Ready s e b) (hc : b.c = .endSlice) :
    (∃ sl, (issueEng s e b).cur = some sl) ∧ (issueEng s e b).returns = false := by
  obtain ⟨hrun, hfault⟩ := h
  obtain ⟨hill, -, -, hdelay, -⟩ := issueFault_none hfault
  have htime : TimeOnly (s.engAt e) (issueEng s e b) := .toIssue _
  have hevt : (issueEng s e b).inEvt = false := by
    have := (Bool.or_eq_false_iff.1 hill).2
    simpa [hc] using this
  have hcur : (issueEng s e b).cur.isSome = true := by
    rw [htime.inEvt] at hevt
    rw [htime.cur]
    have := (Bool.and_eq_true_iff.1 hrun).1
    simpa [hevt] using this
  have hnone : (issueEng s e b).delay = none := by
    by_contra hd
    have := hdelay (Option.isSome_iff_ne_none.2 hd)
    rw [hc] at this
    cases this
  exact ⟨Option.isSome_iff_exists.1 hcur, by unfold Engine.returns; rw [hnone]⟩

/-- Settles O16: after its bundle the slice stops, and only an empty far queue ends the drain at once. -/
theorem endStopsSlice : Obligations.EndStopsSlice := by
  unfold Obligations.EndStopsSlice
  intro s e w b hready
  have hc : b.c = .endSlice := rfl
  obtain ⟨⟨sl, hcur⟩, hret⟩ := hready.end hc
  rw [gives_bundle (b := b) rfl, ready_issue hready, issueEffects_eq, issueState_eng, hret, hc]
  have hstep := slots_issueEng_step s e b
  have hlen := slots_end_far_length s e hc
  generalize ht : ((issueState s e b).slots e b).updEng e (flowed (issueEng s e b).rs b) = t
  have heng : t.eng e = flowed (issueEng s e b).rs b (((issueState s e b).slots e b).eng e) := by
    rw [← ht]
    exact State.eng_updEng_same _ _ _
  have hflow := flowNext_frame (((issueState s e b).slots e b).eng e) (issueEng s e b).rs b.c
  have htcur : (t.eng e).cur = some sl := by
    rw [heng]
    exact (congrArg Engine.cur hflow).trans (hstep.cur.trans hcur)
  have htlen : (t.eng e).far.length = (issueEng s e b).far.length := by
    rw [heng, ← hlen]
    exact (congrArg (fun h : Engine => h.far.length) hflow).trans rfl
  have htfar : (t.eng e).far = [] ↔ (issueEng s e b).far = [] := by
    rw [← List.length_eq_zero_iff, htlen, List.length_eq_zero_iff]
  have hstop := stopSlice_stopped (fun x => { x with ended := true }) htcur
  have htail : t.tail e false (CtlOp.endSlice == CtlOp.endSlice) = t.stopSlice e (fun x => { x with ended := true }) := by
    simp [State.tail, hstop.halting]
  rw [htail]
  exact ⟨hstop.cur, hstop.delay, hstop.rpt, fun hfar => hstop.drained (htfar.2 hfar),
    fun hfar => hcur ▸ htcur ▸ hstop.drains (mt htfar.1 hfar)⟩

end Sys2Proof

namespace Sys2Proof

open Sys2Proof.Machine

/-! The return of a handler while a slice's drain waits for it (R63, R66). -/

/-- A handler at its second delay slot. It has interrupted the drain of slice 0, whose one request has completed
meanwhile. -/
def drainedHandler : State :=
  { State.reset with engs := [(0, { inEvt := true, delay := some ⟨1, 0, true⟩, mainWait := .drain, draining := some 0,
                                    drainTags := [(0, true)] })] }

/-- The drain ends with the return, and with it the hold of the interrupted context. -/
theorem wait_drainedHandler : ((drainedHandler.issue 0 (some .nop)).eng 0).wait = .none := by decide +kernel

/-- Refutes O17: the engine does not stand held as it was where the drain that the handler interrupted can end (R63). -/
theorem not_handlerReturns : ¬ Obligations.HandlerReturns := by
  unfold Obligations.HandlerReturns
  rintro ⟨-, h⟩
  have hready : Ready drainedHandler 0 .nop := by unfold Ready; decide
  have hgives := h (.nop 0) drainedHandler 0 .nop rfl hready (by decide) (by decide) (by decide)
  rw [gives_bundle (b := .nop) rfl] at hgives
  obtain ⟨-, -, -, hwait, -⟩ := hgives
  exact absurd (wait_drainedHandler.symm.trans hwait) (by decide)

end Sys2Proof

namespace Sys2Proof

open Sys2Proof.Machine

/-! The registers of an engine below its slices' measurements (R72), which the end of a slice and the return of a handler
leave as they are. -/

/-- The registers of an engine below ENG_SLT_MEAS are as they were. -/
def KeepsEngRegs (e : Fin 32) (s t : State) : Prop :=
  ∀ r : Reg, 0x20070000 + 0x80000 * e.val ≤ r.addr → r.addr < 0x20070800 + 0x80000 * e.val → t.rd r = s.rd r

namespace KeepsEngRegs

variable {e : Fin 32}

theorem refl (s : State) : KeepsEngRegs e s s := fun _ _ _ => rfl

theorem trans {s t u : State} (h : KeepsEngRegs e s t) (k : KeepsEngRegs e t u) : KeepsEngRegs e s u :=
  fun r hlo hhi => (k r hlo hhi).trans (h r hlo hhi)

theorem of_regs {s t : State} (h : t.regs = s.regs) : KeepsEngRegs e s t := fun r _ _ => State.rd_congr h r

theorem of_clove {s t : State} (h : ClvOnly s t) : KeepsEngRegs e s t :=
  fun r _ hhi => h r (.inl (by have := e.isLt; omega))

theorem upd (s : State) {q : Reg} (f : Word → Word)
    (h : q.addr < 0x20070000 + 0x80000 * e.val ∨ 0x20070800 + 0x80000 * e.val ≤ q.addr) : KeepsEngRegs e s (s.upd q f) :=
  fun _ _ _ => State.rd_upd_other s f (by omega)

theorem setEng (s : State) (f : Nat) (g : Engine) : KeepsEngRegs e s (s.setEng f g) := fun _ _ _ => rfl

theorem ite {s t : State} (c : Bool) (h : KeepsEngRegs e s t) : KeepsEngRegs e s (if c then t else s) := by
  cases c
  · exact refl s
  · exact h

theorem fenceLog (s : State) (unit master : Nat) (w : Bool) : KeepsEngRegs e s (s.fenceLog unit master w) := by
  have he := e.isLt
  have hcount : KeepsEngRegs e s (s.count TST_MEM_FENCE_CNT) := upd s _ (by simp only [TST_MEM_FENCE_CNT]; omega)
  unfold State.fenceLog
  dsimp only
  split
  · exact hcount
  · exact hcount.trans (upd _ (fun _ => _) (by simp only [TST_MEM_FENCE_LOG]; omega))

theorem fenceRange (s : State) (a n m : Nat) (w : Bool) : KeepsEngRegs e s (s.fenceRange a n m w) := by
  unfold State.fenceRange
  split
  · exact fenceLog _ _ _ _
  · exact refl s

theorem migSnapshot (s : State) (id : Nat) (c : Bool) : KeepsEngRegs e s (s.migSnapshot id c) := by
  unfold State.migSnapshot
  dsimp only
  split
  · exact trans (of_regs rfl) (fenceRange _ _ _ _ _)
  · exact refl s

theorem finalSlice (s : State) (sl : Nat) : KeepsEngRegs e s (s.finalSlice e sl) := by
  have hmeas : ∀ (s : State) f, KeepsEngRegs e s (s.upd (ENG_SLT_MEAS e (sl % 64)) f) := fun s f =>
    upd s f (by simp only [ENG_SLT_MEAS]; omega)
  unfold State.finalSlice
  dsimp only
  refine trans ?_ (ite _ (migSnapshot _ _ _))
  refine trans ?_ (of_clove (clv_sliceReports _ _ _ _ _ _ _ _))
  refine trans ?_ (ite _ (hmeas _ _))
  exact (setEng _ _ _).trans (hmeas _ _)

theorem cloveHost (s : State) : KeepsEngRegs e s s.cloveHost := of_clove (clv_cloveHost s)

theorem stopSlice (s : State) (f : SliceBlk → SliceBlk) : KeepsEngRegs e s (s.stopSlice e f) := by
  cases hcur : (s.eng e).cur with
  | none =>
    rw [stopSlice_idle f hcur]
    exact refl s
  | some sl =>
    rw [stopSlice_eq f hcur]
    refine trans ?_ (cloveHost _)
    split
    · exact (setEng _ _ _).trans (finalSlice _ sl)
    · exact setEng _ _ _

theorem drainOn (s : State) : KeepsEngRegs e s (s.drainOn e) := by
  unfold State.drainOn
  dsimp only
  split
  · split
    · exact refl s
    · split
      · exact ((setEng _ _ _).trans (finalSlice _ _)).trans (cloveHost _)
      · exact setEng _ _ _
  · exact refl s

theorem handlerReturn (s : State) : KeepsEngRegs e s (s.handlerReturn e) := by
  unfold State.handlerReturn
  dsimp only
  refine trans ?_ (of_clove (clv_consumeOut _ _))
  refine trans ?_ (drainOn _)
  refine trans (setEng _ _ _ : KeepsEngRegs e s (s.updEng e (fun g => g.boundary.backToMain))) ?_
  split
  · exact stopSlice _ _
  · exact refl _

end KeepsEngRegs

/-! What a fault leaves of an engine (R70). -/

theorem drainOn_inEvt (s : State) (e : Nat) : ((s.drainOn e).eng e).inEvt = (s.eng e).inEvt := by
  unfold State.drainOn
  dsimp only
  split
  · split
    · rfl
    · split
      · obtain ⟨xq, hfin⟩ := finalSlice_frame (s.setEng e ((s.eng e).drainRun _)) e _
        rw [(keeps_cloveHost _).eng, hfin, State.eng_setEng_same, drainRun_frame]
      · rw [State.eng_setEng_same, drainRun_frame]
  · rfl

theorem stopSlice_inEvt (s : State) (e : Nat) (f : SliceBlk → SliceBlk) :
    ((s.stopSlice e f).eng e).inEvt = (s.eng e).inEvt := by
  cases hcur : (s.eng e).cur with
  | none => rw [stopSlice_idle f hcur]
  | some sl => exact (stopSlice_stopped f hcur).inEvt

/-- After a handler has returned or is abandoned the engine runs none (R66, R70). -/
theorem handlerReturn_inEvt (s : State) (e : Nat) : ((s.handlerReturn e).eng e).inEvt = false := by
  have hback : ((s.updEng e (fun g => g.boundary.backToMain)).eng e).inEvt = false := by
    rw [State.eng_updEng_same]
    rfl
  unfold State.handlerReturn
  dsimp only
  rw [(keeps_consumeOut _ _).eng, drainOn_inEvt]
  split
  · rw [stopSlice_inEvt, hback]
  · exact hback

/-- The record of a fault (R71): its code, the context, the slice and the PC. -/
def faultWord (g : Engine) (code : Nat) : Word :=
  BitVec.ofNat 32 (code * 2 ^ 27 + b2n g.inEvt * 2 ^ 26 + g.ctx * 2 ^ 20 + g.pc % 8192)

theorem faultWord_eq (g : Engine) (code : Nat) : faultWord g code =
    BitVec.ofNat 32 (code * 2 ^ 27 + (if g.inEvt then 2 ^ 26 else 0) + g.ctx * 2 ^ 20 + g.pc % 8192) := by
  unfold faultWord
  cases g.inEvt <;> simp [b2n]

/-- The registers of an issue fault (R71): logged unless a fault is flagged, counted, and flagged. -/
def faultLogged (s : State) (e code : Nat) : State :=
  ((if s.rdB (ENG_INT e) 0 then s else s.wr (ENG_FAULT e) (faultWord (s.eng e) code)).countF (ENG_FAULT_CNT e) 15 0 1).raise
    (ENG_INT e) 1#32

/-- The slice's bit in ENG_FSLICE set (R70). -/
def barSlice (s : State) (e sl : Nat) : State :=
  if sl < 32 then s.wrB (ENG_FSLICE_LO e) sl true else s.wrB (ENG_FSLICE_HI e) (sl - 32) true

/-- The state in which a fault is recorded and what it interrupts still stands. -/
def faultState (s : State) (e code : Nat) : State :=
  (faultLogged s e code).setEng e { s.eng e with issued := true, spare := 2 }

theorem faultState_eng (s : State) (e code : Nat) :
    ((faultState s e code).eng e).inEvt = (s.eng e).inEvt ∧ ((faultState s e code).eng e).cur = (s.eng e).cur := by
  unfold faultState
  rw [State.eng_setEng_same]
  exact ⟨rfl, rfl⟩

section

variable {s : State} {e : Nat} (code : Nat)

/-- A fault in a handler abandons it (R70). -/
theorem engFault_handler (hevt : (s.eng e).inEvt = true) : s.engFault e code = (faultState s e code).handlerReturn e := by
  unfold State.engFault
  dsimp only
  rw [if_pos hevt]
  rfl

/-- A fault in a slice bars and stops it (R70). -/
theorem engFault_slice (hevt : (s.eng e).inEvt = false) {sl : Nat} (hcur : (s.eng e).cur = some sl) :
    s.engFault e code = (barSlice (faultState s e code) e sl).stopSlice e (fun b => { b with faulted := true }) := by
  unfold State.engFault
  dsimp only
  rw [if_neg (by simp [hevt])]
  split
  · next hnone => exact absurd (hcur.symm.trans hnone) (by simp)
  · next sl' hsome =>
    obtain rfl : sl = sl' := Option.some.inj (hcur.symm.trans hsome)
    rfl

theorem engFault_idle (hevt : (s.eng e).inEvt = false) (hcur : (s.eng e).cur = none) :
    s.engFault e code = faultState s e code := by
  unfold State.engFault
  dsimp only
  rw [if_neg (by simp [hevt])]
  split
  · rfl
  · next hsome => exact absurd (hcur.symm.trans hsome) (by simp)

end

theorem barSlice_eng (s : State) (e sl : Nat) : (barSlice s e sl).eng e = s.eng e := by
  unfold barSlice
  split <;> rfl

theorem rd_barSlice_other (s : State) {e : Nat} (sl : Nat) {r : Reg}
    (h : r.addr ≠ (ENG_FSLICE_LO e).addr ∧ r.addr ≠ (ENG_FSLICE_HI e).addr) : (barSlice s e sl).rd r = s.rd r := by
  unfold barSlice
  split
  · exact State.rd_wrB_other _ _ _ h.1
  · exact State.rd_wrB_other _ _ _ h.2

/-- A fault in a handler, in a slice, or with neither. -/
theorem fault_cases (g : Engine) : g.inEvt = true ∨ (∃ sl, g.inEvt = false ∧ g.cur = some sl) ∨
    (g.inEvt = false ∧ g.cur = none) := by
  cases hevt : g.inEvt <;> cases hcur : g.cur <;> simp

/-- The fault's registers stay as they were logged; the running slice's bit is set besides. -/
theorem engFault_regs (s : State) (e : Fin 32) (code : Nat) {r : Reg}
    (hlo : 0x20070000 + 0x80000 * e.val ≤ r.addr) (hhi : r.addr < 0x20070800 + 0x80000 * e.val)
    (hfs : r.addr ≠ (ENG_FSLICE_LO e).addr ∧ r.addr ≠ (ENG_FSLICE_HI e).addr) :
    (s.engFault e code).rd r = (faultLogged s e code).rd r := by
  rcases fault_cases (s.eng e) with hevt | ⟨sl, hevt, hcur⟩ | ⟨hevt, hcur⟩
  · rw [engFault_handler code hevt]
    exact KeepsEngRegs.handlerReturn _ r hlo hhi
  · rw [engFault_slice code hevt hcur]
    exact (KeepsEngRegs.stopSlice _ _ r hlo hhi).trans (rd_barSlice_other _ _ hfs)
  · rw [engFault_idle code hevt hcur]
    rfl

theorem engFault_inEvt (s : State) (e code : Nat) : ((s.engFault e code).eng e).inEvt = false := by
  rcases fault_cases (s.eng e) with hevt | ⟨sl, hevt, hcur⟩ | ⟨hevt, hcur⟩
  · rw [engFault_handler code hevt]
    exact handlerReturn_inEvt _ _
  · rw [engFault_slice code hevt hcur, stopSlice_inEvt, barSlice_eng, (faultState_eng s e code).1, hevt]
  · rw [engFault_idle code hevt hcur, (faultState_eng s e code).1, hevt]

/-- A slice that faults stops, with its bit in ENG_FSLICE set (R70). -/
theorem engFault_barred {s : State} {e : Fin 32} (code : Nat) {sl : Nat} (hevt : (s.eng e).inEvt = false)
    (hcur : (s.eng e).cur = some sl) : ((s.engFault e code).eng e).cur = none ∧
      (sl < 32 → (s.engFault e code).rdB (ENG_FSLICE_LO e) sl = true) ∧
      (32 ≤ sl → sl < 64 → (s.engFault e code).rdB (ENG_FSLICE_HI e) (sl - 32) = true) := by
  have hkeeps := KeepsEngRegs.stopSlice (e := e) (barSlice (faultState s e code) e sl) (fun b => { b with faulted := true })
  have hbcur : ((barSlice (faultState s e code) e sl).eng e).cur = some sl := by
    rw [barSlice_eng, (faultState_eng s e code).2, hcur]
  rw [engFault_slice code hevt hcur]
  refine ⟨(stopSlice_stopped _ hbcur).cur, fun hlt => ?_, fun hge hlt => ?_⟩
  · have hkept := hkeeps (ENG_FSLICE_LO e) (by simp only [ENG_FSLICE_LO]; omega) (by simp only [ENG_FSLICE_LO]; omega)
    refine (congrArg (bit · sl) hkept).trans ?_
    rw [barSlice, if_pos hlt]
    exact rdB_wrB_same _ _ hlt _
  · have hkept := hkeeps (ENG_FSLICE_HI e) (by simp only [ENG_FSLICE_HI]; omega) (by simp only [ENG_FSLICE_HI]; omega)
    refine (congrArg (bit · (sl - 32)) hkept).trans ?_
    rw [barSlice, if_neg (by omega)]
    exact rdB_wrB_same _ _ (by omega) _

/-- A field reads what was put in it. -/
theorem bits_setBits_same (w : Word) {hi lo : Nat} (hle : lo ≤ hi) (hhi : hi < 32) (v : Nat) :
    bits (setBits w hi lo v) hi lo = v % 2 ^ (hi + 1 - lo) := by
  apply Nat.eq_of_testBit_eq
  intro j
  rw [testBit_bits, Nat.testBit_mod_two_pow]
  by_cases hj : j < hi + 1 - lo
  · have hlo : lo + j < 32 := by omega
    have hmask : (2 ^ (hi + 1 - lo) - 1).testBit j = true := by rw [Nat.testBit_two_pow_sub_one]; simpa using hj
    simp only [bit, setBits, BitVec.getLsbD_or, BitVec.getLsbD_and, BitVec.getLsbD_not, BitVec.getLsbD_ofNat, hlo,
      Nat.testBit_mul_two_pow, Nat.le_add_right, Nat.add_sub_cancel_left, Nat.testBit_mod_two_pow, hmask, hj]
    simp
  · simp [hj]
/-- The registers of a fault: the count, the flag, and the log that the first unflagged one writes (R71). -/
theorem faultLogged_regs (s : State) (e : Fin 32) (code : Nat) :
    (faultLogged s e code).rdF (ENG_FAULT_CNT e) 15 0 = min (s.rdF (ENG_FAULT_CNT e) 15 0 + 1) 65535 ∧
    (faultLogged s e code).rdB (ENG_INT e) 0 = true ∧
    (faultLogged s e code).rd (ENG_FAULT e) =
      if s.rdB (ENG_INT e) 0 then s.rd (ENG_FAULT e) else faultWord (s.eng e) code := by
  unfold faultLogged
  refine ⟨?_, ?_, ?_⟩
  · unfold State.rdF
    rw [State.rd_raise_other _ _ (by simp [ENG_FAULT_CNT, ENG_INT]), State.rd_countF_same, bits_setBits_same _ (by omega) (by omega)]
    have hrd : (if s.rdB (ENG_INT e) 0 then s else s.wr (ENG_FAULT e) (faultWord (s.eng e) code)).rd (ENG_FAULT_CNT e) =
        s.rd (ENG_FAULT_CNT e) := by
      split
      · rfl
      · exact State.rd_wr_other _ _ (by simp [ENG_FAULT_CNT, ENG_FAULT])
    rw [hrd]
    exact Nat.mod_eq_of_lt (by omega)
  · unfold State.rdB
    rw [State.rd_raise_same, bit_or]
    simp [bit]
  · rw [State.rd_raise_other _ _ (by simp [ENG_FAULT, ENG_INT]), State.rd_countF_other _ _ _ _ (by simp [ENG_FAULT, ENG_FAULT_CNT])]
    split
    · rfl
    · exact State.rd_wr_same _ _ _

/-- What an issue fault leaves of an engine and its registers (R69, R70, R71). -/
theorem faultLeft_engFault (s : State) (e : Fin 32) (g : Engine) (code : Nat) :
    FaultLeft s ((s.setEng e g).engFault e code).settle e g code := by
  obtain ⟨hcnt, hint, hlog⟩ := faultLogged_regs (s.setEng e g) e code
  rw [State.eng_setEng_same] at hlog
  have hkeep := fun r => engFault_regs (s.setEng e g) e code (r := r)
  have hlogged := (hkeep (ENG_FAULT e) (by simp only [ENG_FAULT]; omega) (by simp only [ENG_FAULT]; omega)
    (by simp [ENG_FAULT, ENG_FSLICE_LO, ENG_FSLICE_HI])).trans hlog
  refine ⟨?_, ?_, fun hclear => ?_,
    fun hset => hlogged.trans (if_pos hset), engFault_inEvt _ e code, fun sl hevt hcur => ?_⟩
  · exact (congrArg (bits · 15 0) (hkeep (ENG_FAULT_CNT e) (by simp only [ENG_FAULT_CNT]; omega)
      (by simp only [ENG_FAULT_CNT]; omega) (by simp [ENG_FAULT_CNT, ENG_FSLICE_LO, ENG_FSLICE_HI]))).trans hcnt
  · exact (congrArg (bit · 0) (hkeep (ENG_INT e) (by simp only [ENG_INT]; omega)
      (by simp only [ENG_INT]; omega) (by simp [ENG_INT, ENG_FSLICE_LO, ENG_FSLICE_HI]))).trans hint
  · have hclear' : ¬ (s.setEng e g).rdB (ENG_INT e) 0 = true := fun hset => absurd (hclear.symm.trans hset) (by simp)
    rw [← faultWord_eq]
    exact hlogged.trans (if_neg hclear')
  · exact engFault_barred code ((congrArg Engine.inEvt (State.eng_setEng_same s e g)).trans hevt)
      ((congrArg Engine.cur (State.eng_setEng_same s e g)).trans hcur)

/-- What breaks a rule at issue faults there (R69). -/
theorem issue_faults {s : State} {e : Nat} {o : Option Bundle} {code : Nat} (hrun : (s.engAt e).runnable = true)
    (hfault : issueFault (s.engAt e).toIssue o = some code) :
    s.issue e o = (s.setEng e (s.engAt e).toIssue).engFault e code := by
  unfold State.issue
  simp only [hrun, if_true]
  rw [hfault]

/-- Settles O19: at issue, at a word with no meaning, and at RCAP the engine faults where it stands. -/
theorem faultsAreRecorded : Obligations.FaultsAreRecorded := by
  unfold Obligations.FaultsAreRecorded
  refine ⟨fun c s e b code hc hrun hfault => ?_, fun s e word hword hrun hpc => (gives_iff_of_done rfl).2 ?_,
    fun s e hevt => (gives_iff_of_done rfl).2 ?_⟩
  · rw [gives_bundle hc, issue_faults hrun hfault]
    exact faultLeft_engFault s e _ code
  · have hfault : issueFault (s.engAt e).toIssue none = some 1 := by simp [issueFault, hpc]
    rw [hword, issue_faults hrun hfault]
    exact faultLeft_engFault s e _ 1
  · rw [State.handlerTimeout, if_pos hevt]
    exact faultLeft_engFault s e _ 12

end Sys2Proof

namespace Sys2Proof

open Sys2Proof.Machine

/-! Results land when they are due (R55). -/

/-- Nothing lands in a cycle before the first result is due. -/
theorem landAt_early {g : Engine} {c : Nat} (h : ∀ f ∈ g.flight, c < f.due) : landAt g c = g := by
  have hdue : g.flight.filter (fun f => decide (f.due ≤ c)) = [] :=
    List.filter_eq_nil_iff.2 fun f hf => by simpa using h f hf
  have hlater : g.flight.filter (fun f => decide (c < f.due)) = g.flight :=
    List.filter_eq_self.2 fun f hf => by simpa using h f hf
  unfold landAt
  dsimp only
  rw [hdue, hlater]
  rfl

/-- Up to the first result's cycle nothing lands but in that cycle. -/
theorem landRun_first {g : Engine} {m : Nat} (h : ∀ f ∈ g.flight, g.cyc + m + 1 ≤ f.due) :
    (upTo (m + 1)).foldl (fun g i => landAt g (g.cyc + i + 1)) g = landAt g (g.cyc + m + 1) := by
  have hearly : ∀ l : List Nat, (∀ i ∈ l, i < m) → l.foldl (fun g i => landAt g (g.cyc + i + 1)) g = g := by
    intro l hl
    induction l with
    | nil => rfl
    | cons i l ih =>
      have hi := hl i (.head _)
      rw [List.foldl_cons, landAt_early fun f hf => by have := h f hf; omega]
      exact ih fun j hj => hl j (.tail _ hj)
  rw [upTo, List.range_succ, List.foldl_append, hearly _ fun i hi => List.mem_range.1 hi]
  rfl

/-- An engine brought to the cycle of its next result, no more than the longest latency away. -/
theorem engTo_first {g : Engine} {c : Nat} (hlt : g.cyc < c) (hle : c ≤ g.cyc + 4) (h : ∀ f ∈ g.flight, c ≤ f.due) :
    (engTo g c).cyc = c ∧ (engTo g c).flight = (landAt g c).flight ∧ (engTo g c).main = (landAt g c).main ∧
      (engTo g c).shadow = (landAt g c).shadow := by
  obtain ⟨m, rfl⟩ : ∃ m, c = g.cyc + m + 1 := ⟨c - g.cyc - 1, by omega⟩
  have hm : min (m + 1) maxLatency = m + 1 := min_eq_left (by unfold maxLatency; omega)
  unfold engTo engRun
  rw [show g.cyc + m + 1 - g.cyc = m + 1 by omega, if_neg (by omega)]
  dsimp only
  rw [hm, landRun_first h]
  exact ⟨rfl, rfl, rfl, rfl⟩

/-! Which results reach a register set, and in which order (R58, R65, R87). -/

/-- The main or the shadow set of an engine. -/
def setOf (g : Engine) (sh : Bool) : RegSet := if sh then g.shadow else g.main

theorem setOf_landOne (g : Engine) (f : Flight) (sh : Bool) :
    setOf (landOne g f) sh = if f.shadow == sh then landSet (setOf g sh) f.res else setOf g sh := by
  unfold landOne
  cases hf : f.shadow <;> cases sh <;> simp [setOf]

/-- Each set takes the results that it issued, in their order. -/
theorem setOf_landFold (l : List Flight) (g : Engine) (sh : Bool) : setOf (l.foldl landOne g) sh =
    ((l.filter (fun f => f.shadow == sh)).map Flight.res).foldl landSet (setOf g sh) := by
  induction l generalizing g with
  | nil => rfl
  | cons f l ih =>
    rw [List.foldl_cons, ih, setOf_landOne, List.filter_cons]
    split <;> rfl

/-- What is due first lands in the set that issued it: CLRF first, the others in issue order. -/
theorem setOf_landAt {g : Engine} {c : Nat} (h : ∀ f ∈ g.flight, c ≤ f.due) (sh : Bool) :
    let l := (g.flight.filter (fun f => decide (f.due = c) && f.shadow == sh)).map Flight.res
    setOf (landAt g c) sh = (l.filter (fun x => !isClrf x)).foldl landSet ((l.filter isClrf).foldl landSet (setOf g sh)) := by
  intro l
  have hpart : ∀ p : Landing → Bool,
      (((g.flight.filter (fun f => decide (f.due ≤ c))).filter (fun f => p f.res)).filter
        (fun f => f.shadow == sh)).map Flight.res = l.filter p := by
    intro p
    simp only [l, List.filter_map, List.filter_filter]
    refine congrArg (List.map Flight.res) (List.filter_congr fun f hf => ?_)
    have hdue := h f hf
    have : decide (f.due ≤ c) = decide (f.due = c) := decide_eq_decide.2 ⟨fun _ => by omega, fun _ => by omega⟩
    rw [this, Function.comp]
    cases p f.res <;> cases f.shadow == sh <;> cases decide (f.due = c) <;> rfl
  unfold landAt
  dsimp only
  rw [setOf_landFold, List.filter_append, List.map_append, List.foldl_append, hpart isClrf, hpart fun x => !isClrf x]
  rfl

/-! What a register holds after results have landed: the last of those that reach it (R58). -/

theorem landed_eq {α : Type} (f : Landing → Option α) (l : List Landing) (old : α) :
    landed f l old = (l.filterMap f).getLast?.getD old := by
  rw [landed, ← List.head?_filterMap, List.filterMap_reverse, List.head?_reverse]

theorem landed_cons {α : Type} (f : Landing → Option α) (x : Landing) (l : List Landing) (old : α) :
    landed f (x :: l) old = landed f l ((f x).getD old) := by
  rw [landed, landed, List.reverse_cons, List.findSome?_append]
  cases hl : l.reverse.findSome? f <;> simp

/-- A part of a register set that each result replaces or leaves holds the last that replaced it. -/
theorem landSet_foldl {α : Type} {f : Landing → Option α} {part : RegSet → α}
    (hpart : ∀ r x, part (landSet r x) = (f x).getD (part r)) (l : List Landing) (r : RegSet) :
    part (l.foldl landSet r) = landed f l (part r) := by
  induction l generalizing r with
  | nil => rfl
  | cons x l ih => rw [List.foldl_cons, ih, hpart, landed_cons]

/-- A part that no CLRF touches: its order among the other results is that of issue (R87). -/
theorem landSet_clrfFirst {α : Type} {f : Landing → Option α} {part : RegSet → α}
    (hpart : ∀ r x, part (landSet r x) = (f x).getD (part r)) (hclrf : ∀ m, f (.clrf m) = none) (l : List Landing)
    (r : RegSet) : part ((l.filter (fun x => !isClrf x)).foldl landSet ((l.filter isClrf).foldl landSet r)) =
      landed f l (part r) := by
  have hnone : (l.filter isClrf).filterMap f = [] := by
    rw [List.filterMap_eq_nil_iff]
    intro x hx
    cases x
    case clrf m => exact hclrf m
    all_goals exact nomatch (List.mem_filter.1 hx).2
  have hall : (l.filter (fun x => !isClrf x)).filterMap f = l.filterMap f := by
    rw [List.filterMap_filter]
    refine List.filterMap_congr fun x _ => ?_
    cases x
    case clrf m _ => exact (hclrf m).symm
    all_goals rfl
  rw [landSet_foldl hpart, landSet_foldl hpart, landed_eq, landed_eq, landed_eq, hnone, hall]
  rfl

/-! The bits of SR (R75, R87). -/

theorem bit_setBits (w : Word) {hi lo : Nat} (hle : lo ≤ hi) (hhi : hi < 32) (v i : Nat) :
    bit (setBits w hi lo v) i = if lo ≤ i ∧ i ≤ hi then v.testBit (i - lo) else bit w i := by
  by_cases hi32 : i < 32
  · simp only [bit, setBits, BitVec.getLsbD_or, BitVec.getLsbD_and, BitVec.getLsbD_not, BitVec.getLsbD_ofNat, hi32,
      Nat.testBit_mul_two_pow, Nat.testBit_mod_two_pow, Nat.testBit_two_pow_sub_one]
    by_cases hlo : lo ≤ i
    · by_cases hhi' : i ≤ hi
      · have hw : i - lo < hi + 1 - lo := by omega
        simp [hlo, hhi', hw]
      · have hw : ¬ i - lo < hi + 1 - lo := by omega
        simp [hhi', hw]
    · simp [hlo]
  · rw [if_neg (by omega)]
    simp only [bit]
    rw [BitVec.getLsbD_of_ge _ i (by omega), BitVec.getLsbD_of_ge _ i (by omega)]

theorem testBit_laneBits (b : L4 Bool) (k : Fin 4) : (laneBits b).testBit k = b.get k := by
  obtain ⟨b0, b1, b2, b3⟩ := b
  revert b0 b1 b2 b3 k
  decide

theorem laneBits_lt (b : L4 Bool) : laneBits b < 16 := by
  obtain ⟨b0, b1, b2, b3⟩ := b
  revert b0 b1 b2 b3
  decide

theorem L4.get_of {α : Type} (f : Fin 4 → α) (k : Fin 4) : (L4.of f).get k = f k := by
  fin_cases k <;> rfl

theorem bit_srSetZn_z (sr : Word) (z n : L4 Bool) (k : Fin 4) : bit (srSetZn sr z n) (8 + k) = z.get k := by
  unfold srSetZn
  rw [bit_setBits _ (by omega) (by omega), if_neg (by omega), bit_setBits _ (by omega) (by omega), if_pos (by omega),
    Nat.add_sub_cancel_left, testBit_laneBits]

theorem bit_srSetZn_n (sr : Word) (z n : L4 Bool) (k : Fin 4) : bit (srSetZn sr z n) (12 + k) = n.get k := by
  unfold srSetZn
  rw [bit_setBits _ (by omega) (by omega), if_pos (by omega), Nat.add_sub_cancel_left, testBit_laneBits]

theorem bit_srSetZn_other (sr : Word) (z n : L4 Bool) {i : Nat} (h : i < 8 ∨ 15 < i) :
    bit (srSetZn sr z n) i = bit sr i := by
  unfold srSetZn
  rw [bit_setBits _ (by omega) (by omega), if_neg (by omega), bit_setBits _ (by omega) (by omega), if_neg (by omega)]

theorem bit_srSticky_gov (sr : Word) (g t : L4 Bool) (k : Fin 4) :
    bit (srSticky sr g t) k = (bit sr k || g.get k) := by
  have hsum : (laneBits g + 16 * laneBits t).testBit k = g.get k := by
    rw [show 16 = 2 ^ 4 from rfl, Nat.add_comm, Nat.testBit_two_pow_mul_add _ (laneBits_lt g), if_pos k.isLt, testBit_laneBits]
  unfold srSticky
  rw [bit_or, bit, bit, BitVec.getLsbD_ofNat, hsum]
  simp [show k.val < 32 by omega]

theorem bit_srSticky_sat (sr : Word) (g t : L4 Bool) (k : Fin 4) :
    bit (srSticky sr g t) (4 + k) = (bit sr (4 + k) || t.get k) := by
  have hsum : (laneBits g + 16 * laneBits t).testBit (4 + k) = t.get k := by
    rw [show 16 = 2 ^ 4 from rfl, Nat.add_comm (laneBits g), Nat.testBit_two_pow_mul_add _ (laneBits_lt g), if_neg (by omega),
      Nat.add_sub_cancel_left, testBit_laneBits]
  unfold srSticky
  rw [bit_or, bit, bit, BitVec.getLsbD_ofNat, hsum]
  simp [show 4 + k.val < 32 by omega]

theorem bit_srSticky_other (sr : Word) (g t : L4 Bool) {i : Nat} (h : 8 ≤ i) : bit (srSticky sr g t) i = bit sr i := by
  have hsum : (laneBits g + 16 * laneBits t).testBit i = false := by
    refine Nat.testBit_lt_two_pow (lt_of_lt_of_le ?_ (Nat.pow_le_pow_right (by omega) h))
    have := laneBits_lt g
    have := laneBits_lt t
    omega
  unfold srSticky
  rw [bit_or, bit, bit, BitVec.getLsbD_ofNat, hsum]
  simp

theorem bit_srClrf (sr : Word) (m : BitVec 8) (i : Nat) : bit (srClrf sr m) i = (bit sr i && !m.getLsbD i) := by
  unfold srClrf bit
  by_cases hi : i < 32
  · simp [hi]
  · simp [BitVec.getLsbD_of_ge sr i (by omega)]

/-! What each result does to each part of a register set: a law per part. -/

/-- The word that a result puts in a lane of a D register. -/
def toD (d : Fin 16) (k : Fin 4) (x : Landing) : Option Word :=
  match x with | .d i v => if i = d then v.get k else none | _ => none

/-- The value that a result puts in a lane of an accumulator. -/
def toA (m k : Fin 4) (x : Landing) : Option AccV :=
  match x with | .a i v => if i = m then v.get k else none | _ => none

def toP (i : Fin 8) (x : Landing) : Option (BitVec 16) :=
  match x with | .p j v => if j = i then some v else none | _ => none

def toN (i : Fin 8) (x : Landing) : Option (BitVec 16) :=
  match x with | .n j v => if j = i then some v else none | _ => none

def toL (i : Fin 8) (x : Landing) : Option (BitVec 16) :=
  match x with | .l j v => if j = i then some v else none | _ => none

/-- The flag SR.z that a result sets for a lane. -/
def toZ (k : Fin 4) (x : Landing) : Option Bool :=
  match x with | .zn z _ => some (z.get k) | _ => none

/-- The flag SR.n that a result sets for a lane. -/
def toSign (k : Fin 4) (x : Landing) : Option Bool :=
  match x with | .zn _ n => some (n.get k) | _ => none

/-- The value that a result gives SR.epm. -/
def toEpm (x : Landing) : Option Bool :=
  match x with | .epm v => some v | _ => none

theorem dL_landSet (d : Fin 16) (k : Fin 4) (r : RegSet) (x : Landing) : (landSet r x).dL d k = (toD d k x).getD (r.dL d k) := by
  cases x
  case d i v =>
    by_cases h : i = d
    · subst h
      simp [landSet, RegSet.setD, RegSet.dL, RegSet.dAll, toD, L4.get_of]
    · have hv : d.val ≠ i.val := fun hd => h (Fin.ext hd.symm)
      simp [landSet, RegSet.setD, RegSet.dL, RegSet.dAll, toD, h, sget_sset_other _ _ _ _ hv]
  all_goals rfl

theorem aL_landSet (m k : Fin 4) (r : RegSet) (x : Landing) : (landSet r x).aL m k = (toA m k x).getD (r.aL m k) := by
  cases x
  case a i v =>
    by_cases h : i = m
    · subst h
      simp [landSet, RegSet.setA, RegSet.aL, RegSet.aAll, toA, L4.get_of]
    · have hv : m.val ≠ i.val := fun hd => h (Fin.ext hd.symm)
      simp [landSet, RegSet.setA, RegSet.aL, RegSet.aAll, toA, h, sget_sset_other _ _ _ _ hv]
  all_goals rfl

/-- A list of small registers after one of them was written. -/
theorem sget_sset_fin (m : List (Nat × BitVec 16)) (i j : Fin 8) (v : BitVec 16) :
    sget 0 (sset 0 m j v) i = (if j = i then some v else none).getD (sget 0 m i) := by
  by_cases h : j = i
  · subst h
    simp
  · have hv : i.val ≠ j.val := fun hd => h (Fin.ext hd.symm)
    rw [if_neg h, sget_sset_other _ _ _ _ hv]
    rfl

theorem pR_landSet (i : Fin 8) (r : RegSet) (x : Landing) : (landSet r x).pR i = (toP i x).getD (r.pR i) := by
  cases x
  case p j v => exact sget_sset_fin r.p i j v
  all_goals rfl

theorem nR_landSet (i : Fin 8) (r : RegSet) (x : Landing) : (landSet r x).nR i = (toN i x).getD (r.nR i) := by
  cases x
  case n j v => exact sget_sset_fin r.n i j v
  all_goals rfl

theorem lR_landSet (i : Fin 8) (r : RegSet) (x : Landing) : (landSet r x).lR i = (toL i x).getD (r.lR i) := by
  cases x
  case l j v => exact sget_sset_fin r.l i j v
  all_goals rfl

/-- Above the sticky flags a result changes SR only where it sets SR.z and SR.n, or SR.epm. -/
theorem sr_landSet_high {i : Nat} (hi : 8 ≤ i) (r : RegSet) (x : Landing) (hz : (∀ z n, x ≠ .zn z n) ∨ 15 < i)
    (he : (∀ b, x ≠ .epm b) ∨ i ≠ 16) : bit (landSet r x).sr i = bit r.sr i := by
  cases x
  case zn z n => exact bit_srSetZn_other r.sr z n (.inr (hz.resolve_left fun h => h z n rfl))
  case sticky g t => exact bit_srSticky_other r.sr g t hi
  case clrf m =>
    refine (bit_srClrf r.sr m i).trans ?_
    rw [BitVec.getLsbD_of_ge m i hi, Bool.not_false, Bool.and_true]
  case epm b => exact bit_setBit_other r.sr (he.resolve_left fun h => h b rfl) b
  all_goals rfl

theorem z_landSet (k : Fin 4) (r : RegSet) (x : Landing) : bit (landSet r x).sr (8 + k) = (toZ k x).getD (bit r.sr (8 + k)) := by
  cases x
  case zn z n => exact bit_srSetZn_z r.sr z n k
  all_goals exact sr_landSet_high (by omega) r _ (.inl fun _ _ => nofun) (.inr (by omega))

theorem sign_landSet (k : Fin 4) (r : RegSet) (x : Landing) :
    bit (landSet r x).sr (12 + k) = (toSign k x).getD (bit r.sr (12 + k)) := by
  cases x
  case zn z n => exact bit_srSetZn_n r.sr z n k
  all_goals exact sr_landSet_high (by omega) r _ (.inl fun _ _ => nofun) (.inr (by omega))

theorem epm_landSet (r : RegSet) (x : Landing) : bit (landSet r x).sr 16 = (toEpm x).getD (bit r.sr 16) := by
  cases x
  case epm b => exact bit_setBit_same r.sr (by omega) b
  all_goals exact sr_landSet_high (by omega) r _ (.inr (by omega)) (.inl fun _ => nofun)

/-- A part that no result reaches keeps its value. -/
theorem landSet_fixed {α : Type} {part : RegSet → α} (h : ∀ r x, part (landSet r x) = part r) (l : List Landing)
    (r : RegSet) : part (l.foldl landSet r) = part r := by
  induction l generalizing r with
  | nil => rfl
  | cons x l ih => rw [List.foldl_cons, ih, h]

theorem sb_landSet (r : RegSet) (x : Landing) : (landSet r x).sb = r.sb := by
  cases x <;> rfl

/-! The sticky flags (R87): cleared by CLRF first, then set. -/

/-- The bits that CLRF clears. -/
def clears (i : Nat) (x : Landing) : Bool :=
  match x with | .clrf m => m.getLsbD i | _ => false

/-- SR.gov of a lane is set. -/
def setsGov (k : Fin 4) (x : Landing) : Bool :=
  match x with | .sticky v _ => v.get k | _ => false

/-- SR.sat of a lane is set. -/
def setsSat (k : Fin 4) (x : Landing) : Bool :=
  match x with | .sticky _ v => v.get k | _ => false

/-- The sticky bits are below SR.z, SR.n and SR.epm: only CLRF and a setting change them. -/
theorem gov_landSet (k : Fin 4) (r : RegSet) (x : Landing) :
    bit (landSet r x).sr k = (setsGov k x || (bit r.sr k && !clears k x)) := by
  cases x
  case zn z n => simpa [landSet, setsGov, clears] using bit_srSetZn_other r.sr z n (.inl (by omega))
  case sticky g t => simpa [landSet, setsGov, clears, Bool.or_comm] using bit_srSticky_gov r.sr g t k
  case clrf m => exact bit_srClrf r.sr m k
  case epm b => simpa [landSet, setsGov, clears] using bit_setBit_other r.sr (by omega) b
  all_goals simp [setsGov, clears, landSet, RegSet.setD, RegSet.setA, RegSet.setP, RegSet.setN, RegSet.setL]

theorem sat_landSet (k : Fin 4) (r : RegSet) (x : Landing) :
    bit (landSet r x).sr (4 + k) = (setsSat k x || (bit r.sr (4 + k) && !clears (4 + k) x)) := by
  cases x
  case zn z n => simpa [landSet, setsSat, clears] using bit_srSetZn_other r.sr z n (.inl (by omega))
  case sticky g t => simpa [landSet, setsSat, clears, Bool.or_comm] using bit_srSticky_sat r.sr g t k
  case clrf m => exact bit_srClrf r.sr m (4 + k)
  case epm b => simpa [landSet, setsSat, clears] using bit_setBit_other r.sr (by omega) b
  all_goals simp [setsSat, clears, landSet, RegSet.setD, RegSet.setA, RegSet.setP, RegSet.setN, RegSet.setL]

/-- Results that clear no flag leave it set where one of them sets it. -/
theorem flag_set {flag : RegSet → Bool} {sets clr : Landing → Bool}
    (h : ∀ r x, flag (landSet r x) = (sets x || (flag r && !clr x))) (l : List Landing) (hl : ∀ x ∈ l, clr x = false)
    (r : RegSet) : flag (l.foldl landSet r) = (l.any sets || flag r) := by
  induction l generalizing r with
  | nil => rfl
  | cons x l ih =>
    rw [List.foldl_cons, ih fun y hy => hl y (.tail _ hy), h, hl x (.head _), List.any_cons]
    cases sets x <;> simp

/-- Results that set no flag leave it set where none of them clears it. -/
theorem flag_clear {flag : RegSet → Bool} {sets clr : Landing → Bool}
    (h : ∀ r x, flag (landSet r x) = (sets x || (flag r && !clr x))) (l : List Landing) (hl : ∀ x ∈ l, sets x = false)
    (r : RegSet) : flag (l.foldl landSet r) = (flag r && !l.any clr) := by
  induction l generalizing r with
  | nil => simp
  | cons x l ih =>
    rw [List.foldl_cons, ih fun y hy => hl y (.tail _ hy), h, hl x (.head _), List.any_cons]
    cases clr x <;> simp

/-- A flag set in the cycle in which CLRF clears it ends set. -/
theorem flag_landed {flag : RegSet → Bool} {sets clr : Landing → Bool}
    (h : ∀ r x, flag (landSet r x) = (sets x || (flag r && !clr x))) (hset : ∀ m, sets (.clrf m) = false)
    (hclr : ∀ x, isClrf x = false → clr x = false) (l : List Landing) (r : RegSet) :
    flag ((l.filter (fun x => !isClrf x)).foldl landSet ((l.filter isClrf).foldl landSet r)) =
      (l.any sets || (flag r && !l.any clr)) := by
  have hset' : ∀ x, isClrf x = true → sets x = false := by
    intro x hx
    cases x
    case clrf m => exact hset m
    all_goals exact nomatch hx
  have hsets : (l.filter (fun x => !isClrf x)).any sets = l.any sets := by
    rw [List.any_filter]
    refine congrArg (List.any l) (funext fun x => ?_)
    cases hx : isClrf x
    · rfl
    · exact (hset' x hx).symm
  have hclrs : (l.filter isClrf).any clr = l.any clr := by
    rw [List.any_filter]
    refine congrArg (List.any l) (funext fun x => ?_)
    cases hx : isClrf x
    · exact (hclr x hx).symm
    · rfl
  rw [flag_set h _ fun x hx => hclr x (by simpa using (List.mem_filter.1 hx).2),
    flag_clear h _ fun x hx => hset' x (List.mem_filter.1 hx).2, hsets, hclrs]

theorem clears_of_not_clrf (i : Nat) (x : Landing) (h : isClrf x = false) : clears i x = false := by
  cases x
  case clrf m => exact nomatch h
  all_goals rfl

/-- The next result is due no later than any other. -/
theorem nextLand_le {g : Engine} {c : Nat} (h : g.nextLand = some c) : ∀ f ∈ g.flight, c ≤ f.due := by
  intro f hf
  exact (List.min?_eq_some_iff.1 h).2 _ (List.mem_map_of_mem hf)

/-- Settles O20: up to the next result's cycle nothing else lands (`engTo_first`), what is due lands set by set
(`setOf_landAt`), and each part of a set has its law, folded over the results of the cycle. -/
theorem resultsLand : Obligations.ResultsLand := by
  intro s e c hnext hlt hle
  refine (gives_iff_of_done rfl).2 ?_
  intro g
  have hfirst := nextLand_le hnext
  have heng : (s.resultLand e).settle.eng e = engTo g c := by
    rw [State.eng_settle]
    unfold State.resultLand
    simp [hnext, g]
  obtain ⟨hcyc, hflight, hmain, hshadow⟩ := engTo_first hlt hle hfirst
  rw [heng]
  refine ⟨hcyc, hflight.trans (landAt_flight g c), fun sh => ?_⟩
  intro q r l
  have hr : r = (l.filter (fun x => !isClrf x)).foldl landSet ((l.filter isClrf).foldl landSet q) := by
    rw [show r = setOf (landAt g c) sh by cases sh <;> [exact hmain; exact hshadow]]
    exact setOf_landAt hfirst sh
  rw [hr]
  refine ⟨fun d k => ?_, fun m k => ?_, fun i => ?_, fun i => ?_, fun i => ?_, fun k => ⟨?_, ?_, ?_, ?_⟩, ?_, fun i hi => ?_, ?_⟩
  · exact landSet_clrfFirst (part := fun r => r.dL d k) (dL_landSet d k) (fun _ => rfl) l q
  · exact landSet_clrfFirst (part := fun r => r.aL m k) (aL_landSet m k) (fun _ => rfl) l q
  · exact landSet_clrfFirst (part := fun r => r.pR i) (pR_landSet i) (fun _ => rfl) l q
  · exact landSet_clrfFirst (part := fun r => r.nR i) (nR_landSet i) (fun _ => rfl) l q
  · exact landSet_clrfFirst (part := fun r => r.lR i) (lR_landSet i) (fun _ => rfl) l q
  · exact landSet_clrfFirst (part := fun r => bit r.sr (8 + k)) (z_landSet k) (fun _ => rfl) l q
  · exact landSet_clrfFirst (part := fun r => bit r.sr (12 + k)) (sign_landSet k) (fun _ => rfl) l q
  · exact flag_landed (flag := fun r => bit r.sr k) (gov_landSet k) (fun _ => rfl) (clears_of_not_clrf k) l q
  · exact flag_landed (flag := fun r => bit r.sr (4 + k)) (sat_landSet k) (fun _ => rfl) (clears_of_not_clrf (4 + k)) l q
  · exact landSet_clrfFirst (part := fun r => bit r.sr 16) epm_landSet (fun _ => rfl) l q
  · have hkeep : ∀ r x, bit (landSet r x).sr i = bit r.sr i := fun r x =>
      sr_landSet_high (by omega) r x (.inr (by omega)) (.inr (by omega))
    exact (landSet_fixed (part := fun r => bit r.sr i) hkeep _ _).trans (landSet_fixed (part := fun r => bit r.sr i) hkeep _ _)
  · exact (landSet_fixed (part := RegSet.sb) sb_landSet _ _).trans (landSet_fixed (part := RegSet.sb) sb_landSet _ _)

end Sys2Proof

namespace Sys2Proof

open Sys2Proof.Machine

/-! Accesses to DMEM from outside the program (R51, R52, R180): the wait for the engine, and the bytes written. -/

theorem maxWait_succ : ∃ n, maxWait = n + 1 := ⟨2 ^ 20 - 1, by unfold maxWait; omega⟩

/-- An engine that is ready at once is not waited for. -/
theorem waitExt_ready {s : State} {e : Nat} {ready : Engine → Bool} (h : ready (s.engAt e) = true) :
    s.waitExt e ready maxWait = s := by
  obtain ⟨n, hn⟩ := maxWait_succ
  rw [hn, State.waitExt, if_pos h]

/-- Only time has passed, and only on engines: on this one none but what time moves differs. -/
def TimePassed (e : Nat) (s t : State) : Prop := t = { s with engs := t.engs } ∧ TimeOnly (s.eng e) (t.eng e)

theorem TimePassed.refl (e : Nat) (s : State) : TimePassed e s s := ⟨rfl, .refl _⟩

theorem TimePassed.trans {e : Nat} {s t u : State} (h : TimePassed e s t) (k : TimePassed e t u) : TimePassed e s u :=
  ⟨k.1.trans (congrArg (fun x : State => { x with engs := u.engs }) h.1), h.2.trans k.2⟩

/-- A cycle in which no bundle can issue is only time on the engine, and the next one can issue none either. -/
theorem passCycle_idle {s : State} {e : Nat} (h : (s.engAt e).runnable = false) :
    TimePassed e s (s.passCycle e) ∧ ((s.passCycle e).engAt e).runnable = false := by
  have hpass : s.passCycle e = s.setEng e (engRun (s.engAt e) 1) := by simp [State.passCycle, h]
  have hrun := TimeOnly.engRun (s.engAt e) 1
  have htime : TimeOnly (s.eng e) (engRun (s.engAt e) 1) := (TimeOnly.engTo _ s.now).trans hrun
  rw [hpass]
  refine ⟨⟨rfl, ?_⟩, ?_⟩
  · rw [State.eng_setEng_same]
    exact htime
  · unfold State.engAt at h ⊢
    rw [State.eng_setEng_same]
    exact (hrun.trans (.engTo _ _)).runnable.trans h

/-- While an engine runs no bundle, a wait for it is only time on it. -/
theorem waitExt_idle {s : State} {e : Nat} (ready : Engine → Bool) (h : (s.engAt e).runnable = false) (n : Nat) :
    TimePassed e s (s.waitExt e ready n) := by
  induction n generalizing s with
  | zero => exact .refl e s
  | succ n ih =>
    obtain ⟨hpass, hrun⟩ := passCycle_idle h
    rw [State.waitExt]
    split
    · exact .refl e s
    · exact hpass.trans (ih hrun)

/-- An external write: its bytes, on the state in which the engine can take it. -/
theorem extWrite_eq (s : State) (e : Fin 32) (q : Nat) (strb : BitVec 16) (data : BitVec 128) :
    ∃ g, s.extWrite (e / 8) e q strb data = { (extState s e q true).setEng e g with
      mem := (strobed (quadAddr e q) strb data).foldl (fun m x => putByte m x.1 x.2) (extState s e q true).mem } := by
  unfold State.extWrite extState
  cases hx : inXwin q
  · have hready : extReady e q true = fun g => decide (0 < g.spare) := funext fun g => by simp [extReady, hx]
    rw [hready]
    exact ⟨_, rfl⟩
  · have hready : extReady e q true = fun g => decide (g.portAt (portClass (e / 8)) ≤ g.writeSlot) :=
      funext fun g => by simp [extReady, hx]
    rw [hready]
    exact ⟨_, rfl⟩

/-- An external read: the quad, on the state in which the engine can take it. -/
theorem extRead_eq (s : State) (e : Fin 32) (q : Nat) :
    ∃ g, let t := extState s e q false
      let a := quadAddr e q
      s.extRead (e / 8) e q =
        (wordOf t.mem (a + 12) ++ wordOf t.mem (a + 8) ++ wordOf t.mem (a + 4) ++ wordOf t.mem a, t.setEng e g) := by
  unfold State.extRead extState
  cases hx : inXwin q
  · have hready : extReady e q false = fun g => decide (0 < g.spare) := funext fun g => by simp [extReady, hx]
    rw [hready]
    exact ⟨_, rfl⟩
  · have hready : extReady e q false = fun g => decide (g.portAt (portClass (e / 8)) < g.readEnd) :=
      funext fun g => by simp [extReady, hx]
    rw [hready]
    exact ⟨_, rfl⟩

/-! Bytes written one after another. -/

/-- A byte at none of the addresses stays. -/
theorem putAll_other {l : List (Nat × Byte)} {x : Nat} (h : ∀ p ∈ l, x ≠ p.1) (m : List (Nat × Byte)) :
    sget 0 (l.foldl (fun m p => putByte m p.1 p.2) m) x = sget 0 m x := by
  induction l generalizing m with
  | nil => rfl
  | cons p l ih =>
    rw [List.foldl_cons, ih fun q hq => h q (.tail _ hq), putByte_other _ _ (h p (.head _))]

/-- At an address given once stands its byte. -/
theorem putAll_mem {l : List (Nat × Byte)} (hl : l.Pairwise fun p q => p.1 ≠ q.1) {x : Nat} {b : Byte} (h : (x, b) ∈ l)
    (m : List (Nat × Byte)) : sget 0 (l.foldl (fun m p => putByte m p.1 p.2) m) x = b := by
  induction l generalizing m with
  | nil => cases h
  | cons p l ih =>
    obtain ⟨hp, hl⟩ := List.pairwise_cons.1 hl
    rw [List.foldl_cons]
    rcases List.mem_cons.1 h with rfl | h
    · rw [putAll_other hp, putByte_same]
    · exact ih hl h _

theorem mem_strobed {a : Nat} {strb : BitVec 16} {data : BitVec 128} {p : Nat × Byte} :
    p ∈ strobed a strb data ↔ ∃ i < 16, strb.getLsbD i = true ∧ p = (a + i, data.extractLsb' (8 * i) 8) := by
  unfold strobed
  rw [upTo, List.mem_map]
  constructor
  · rintro ⟨i, hi, rfl⟩
    obtain ⟨hlt, hs⟩ := List.mem_filter.1 hi
    exact ⟨i, List.mem_range.1 hlt, hs, rfl⟩
  · rintro ⟨i, hlt, hs, rfl⟩
    exact ⟨i, List.mem_filter.2 ⟨List.mem_range.2 hlt, hs⟩, rfl⟩

theorem strobed_distinct (a : Nat) (strb : BitVec 16) (data : BitVec 128) :
    (strobed a strb data).Pairwise fun p q => p.1 ≠ q.1 := by
  refine List.Pairwise.map _ ?_ (List.Pairwise.filter _ List.nodup_range)
  intro i j hij
  dsimp only
  omega

/-! A fenced bank (R186). -/

theorem fenceLog_onlyRegs (s : State) (unit master : Nat) (w : Bool) :
    OnlyRegs s (s.fenceLog unit master w) [TST_MEM_FENCE_CNT, TST_MEM_FENCE_LOG] := by
  unfold State.fenceLog
  dsimp only
  split
  · exact (OnlyRegs.count s _).mono (by simp)
  · exact (OnlyRegs.count s _).trans (.wr _ _ _)

theorem respondBeats_onlyRegs (s : State) (data : List (BitVec 256)) (err : Bool) :
    OnlyRegs s (s.respondBeats data err) [] := ⟨rfl, fun _ _ => rfl⟩

theorem fenceLog_count (s : State) (unit master : Nat) (w : Bool) :
    (s.fenceLog unit master w).rdF TST_MEM_FENCE_CNT 31 0 = min (s.rdF TST_MEM_FENCE_CNT 31 0 + 1) (2 ^ 32 - 1) := by
  rw [← rdF_count_same]
  unfold State.fenceLog
  dsimp only
  split
  · rfl
  · unfold State.rdF
    rw [State.rd_wr_other _ _ (by decide)]

/-- Settles O21: an access is made on `extState` (`extWrite_eq`, `extRead_eq`), whose wait leaves memory and registers of an
engine that runs no bundle (`waitExt_idle`). -/
theorem externalAccess : Obligations.ExternalAccess := by
  intro s e quad strb data
  have hwr : ∀ {P : State → Prop} {write : Bool}, P (s.externalAccess e quad.toNat write strb data).settle →
      Gives (.externalDmemAccess e quad write strb data) s P := fun h => (gives_iff_of_done rfl).2 h
  refine ⟨fun hf => hwr ?_, fun hf => hwr ?_, fun wr => ⟨fun h => waitExt_ready h, fun h => ?_⟩,
    fun wr hf => hwr ?_⟩
  · obtain ⟨g, hg⟩ := extWrite_eq s e quad.toNat strb data
    have heq : s.externalAccess e quad.toNat true strb data = (s.extWrite (e / 8) e quad.toNat strb data).respondBeats [] false := by
      simp [State.externalAccess, hf]
    rw [heq, hg]
    refine ⟨fun i hi hs => putAll_mem (strobed_distinct _ _ _) (mem_strobed.2 ⟨i, hi, hs, rfl⟩) _, fun x hx => ?_, rfl, rfl⟩
    refine putAll_other (fun p hp => ?_) _
    obtain ⟨i, hi, hs, rfl⟩ := mem_strobed.1 hp
    exact hx i hi hs
  · obtain ⟨g, hg⟩ := extRead_eq s e quad.toNat
    have heq : s.externalAccess e quad.toNat false strb data = (s.extRead (e / 8) e quad.toNat).2.respondBeats
        [(s.extRead (e / 8) e quad.toNat).1.zeroExtend 256] false := by
      simp [State.externalAccess, hf]
    rw [heq, hg]
    exact ⟨rfl, rfl, rfl⟩
  · obtain ⟨hpassed, -⟩ := waitExt_idle (extReady e quad.toNat wr) h maxWait
    exact ⟨(congrArg State.mem hpassed).trans rfl, (congrArg State.regs hpassed).trans rfl⟩
  · have heq : s.externalAccess e quad.toNat wr strb data =
        (s.fenceLog (e * 16 + quad.toNat / 1024) (e / 8) wr).respondBeats [0] true := by
      simp [State.externalAccess, hf]
    rw [heq]
    exact ⟨rfl, (fenceLog_onlyRegs s _ _ wr).trans ((respondBeats_onlyRegs _ [0] true).trans (.settle _)),
      fenceLog_count s _ _ wr⟩

end Sys2Proof

namespace Sys2Proof

open Sys2Proof.Machine

/-! The start of a slice (R46, R60). -/

/-- An engine at the entry PC of a slice whose switch has taken its four cycles. -/
def switchedIn (g : Engine) (sl block : Nat) : Engine :=
  let g := { g with spare := 8 }
  { g.updSb sl (fun b => { b with started := true }) with
    main := startSet (g.entry sl) block, cur := some sl, pc := (g.entry sl).pc, meas := 4, busy := g.busy + 4, gidx := 0,
    delay := .none, rpt := .none, wait := .none, halting := false }

/-- Without a migration the switch to a slice touches none. -/
theorem migSwitchIn_idle {s : State} (h : s.rdB CLV_MIG_STAT 0 = false) (id : Nat) : s.migSwitchIn id = s := by
  simp [State.migSwitchIn, State.inMig, h]

/-- The slice that the sequencer picks is switched in. -/
theorem sliceStart_eng {s : State} {e sl : Nat} (hevt : (s.engAt e).atTurn.inEvt = false)
    (htake : (s.engAt e).atTurn.takeable = false) (hpick : s.seqPick e (s.engAt e).atTurn = ([], some sl))
    (hmig : s.rdB CLV_MIG_STAT 0 = false) :
    (s.sliceStart e).eng e = switchedIn (engRun (s.engAt e).atTurn 4) sl s.blockNo := by
  unfold State.sliceStart
  generalize (s.engAt e).atTurn = g at *
  have hidle : (s.setEng e g).migSwitchIn (e * 64 + sl) = s.setEng e g :=
    migSwitchIn_idle (s := s.setEng e g) hmig _
  simp only [hevt, htake, hpick, Bool.or_false, Bool.false_eq_true, if_false, List.foldl_nil]
  rw [(keeps_cloveHost _).eng, State.eng_setEng_same, hidle, State.eng_setEng_same]
  generalize engRun g 4 = h
  rfl

theorem engRun_cyc (g : Engine) (n : Nat) : (engRun g n).cyc = g.cyc + n := by
  unfold engRun
  split
  · omega
  · rfl

/-- The pointers of a slice's set all start at its SB. -/
theorem startSet_pR (t : Entry) (block : Nat) (i : Fin 8) : (startSet t block).pR i = BitVec.ofNat 16 (t.sb * 4) := by
  have hfold : ∀ (l : List Nat) (m : List (Nat × BitVec 16)) (p : BitVec 16),
      i.val ∈ l ∨ sget 0 m i = p → sget 0 (l.foldl (fun m i => sset 0 m i p) m) i = p := by
    intro l
    induction l with
    | nil => exact fun m p h => h.resolve_left nofun
    | cons j l ih =>
      intro m p h
      refine ih _ p ?_
      by_cases hj : i.val = j
      · subst hj
        exact .inr (sget_sset_same 0 m i p)
      · refine h.imp (fun h => (List.mem_cons.1 h).resolve_left hj) fun h => ?_
        rw [sget_sset_other 0 0 m p hj, h]
  exact hfold _ _ _ (.inl (List.mem_range.2 i.isLt))

/-- Settles O22: the sequencer's pick is switched in (`sliceStart_eng`), with the slice's table entry as it stood. -/
theorem sliceStarts : Obligations.SliceStarts := by
  intro s e sl g hevt htake hpick hmig
  refine (gives_iff_of_done rfl).2 ?_
  rw [State.eng_settle, sliceStart_eng hevt htake hpick hmig]
  have hentry : (engRun g 4).entry sl = g.entry sl := (TimeOnly.engRun g 4).entry sl
  have hcyc := engRun_cyc g 4
  rw [← hentry, ← hcyc]
  generalize engRun g 4 = h
  exact ⟨rfl, rfl, rfl, rfl, rfl, rfl, rfl, fun _ => rfl, fun _ => rfl, startSet_pR _ _, fun _ => rfl, fun _ => rfl⟩

end Sys2Proof

namespace Sys2Proof

open Sys2Proof.Machine

/-! The entry of an event handler (R64, R65). -/

/-- An engine that has left its program for the handler of a delivery, before the cycles of the switch. -/
def inHandler (g : Engine) (d : Delivery) (ds : List Delivery) (vec block : Nat) : Engine :=
  { g.payHold with
    deliv := ds, epc := g.pc, inEvt := true, evtSlice := d.slice, evtSlot := d.slot, evtFlow := d.flow,
    shadow := evtSet g.shadow (g.entry d.slice).sb d.slot block, mainWait := g.wait, wait := .none, pc := vec }

/-- With nothing in flight the cycles that pass land nothing. -/
theorem engRun_quiet {g : Engine} (h : g.flight = []) (n : Nat) :
    (engRun g n).main = g.main ∧ (engRun g n).shadow = g.shadow := by
  have hland : ∀ l : List Nat, l.foldl (fun g i => landAt g (g.cyc + i + 1)) g = g := by
    intro l
    induction l with
    | nil => rfl
    | cons i l ih => rw [List.foldl_cons, landAt_early (by simp [h]), ih]
  unfold engRun
  split
  · exact ⟨rfl, rfl⟩
  · dsimp only
    rw [hland]
    exact ⟨rfl, rfl⟩

/-- The oldest delivered event is taken where its engine is open to it. -/
theorem eventTake_eq {s : State} {e : Nat} {d : Delivery} {ds : List Delivery}
    (hd : (s.engAt e).boundary.deliv = d :: ds) (hopen : (s.engAt e).boundary.evtOpen = true)
    (hat : d.at_ ≤ (s.engAt e).boundary.cyc) (hfence : s.engFenced e = false) :
    ∃ n sp first age, s.eventTake e = ((s.setEng e
      { engRun (inHandler (s.engAt e).boundary d ds (s.rdF (ENG_EVT_VEC e) 12 0) s.blockNo) n with
        spare := sp, evtFirst := first }).count (ENG_EVT_CNT e)).maxF (ENG_EVT_LATMAX e) 16 0 age := by
  unfold State.eventTake
  generalize (s.engAt e).boundary = g at *
  simp only [hd, hopen, hat, hfence, decide_true, Bool.not_false, Bool.and_true, if_true]
  exact ⟨_, _, _, _, rfl⟩

theorem eng_maxF (s : State) (r : Reg) (hi lo v e : Nat) : (s.maxF r hi lo v).eng e = s.eng e := by
  unfold State.maxF
  dsimp only
  split <;> split <;> rfl

/-- A count of a whole register goes up by one until it is full (R9). -/
theorem rd_count_same (s : State) (r : Reg) :
    (s.count r).rd r = s.rd r + (if s.rd r = 0xFFFFFFFF#32 then 0 else 1) := by
  unfold State.count
  rw [State.rd_countF_same, setBits_whole, bits_whole]
  split
  · next h => rw [h]; rfl
  · next h =>
    have hne : (s.rd r).toNat ≠ 0xFFFFFFFF := fun hn => h (BitVec.eq_of_toNat_eq hn)
    apply BitVec.eq_of_toNat_eq
    simp
    omega

/-- A pointer of the shadow set as a handler finds it: P7 names the delivery's slot in the exchange window. -/
theorem evtSet_pR (r : RegSet) (sb slot block : Nat) : (evtSet r sb slot block).pR 7 = BitVec.ofNat 16 (0xFFC0 + 8 * slot) ∧
    ∀ i, i ≠ 7 → (evtSet r sb slot block).pR i = r.pR i := by
  refine ⟨sget_sset_same 0 r.p 7 _, fun i hi => sget_sset_other 0 0 r.p _ fun hv => hi (Fin.ext hv)⟩

/-- Settles O23: the engine enters the handler (`inHandler`), and the cycles of the switch, with nothing in flight, change no
register of it (`engRun_quiet`). -/
theorem eventsAreTaken : Obligations.EventsAreTaken := by
  intro s e d ds g hd hopen hat hfence hflight
  refine (gives_iff_of_done rfl).2 ?_
  intro h
  obtain ⟨n, sp, first, age, heq⟩ := eventTake_eq hd hopen hat hfence
  have hpay := payHold_frame g
  have hin : (inHandler g d ds (s.rdF (ENG_EVT_VEC e) 12 0) s.blockNo).flight = [] := by
    unfold inHandler
    rw [hpay]
    exact hflight
  have htime := TimeOnly.engRun (inHandler g d ds (s.rdF (ENG_EVT_VEC e) 12 0) s.blockNo) n
  obtain ⟨hmain, hshadow⟩ := engRun_quiet hin n
  have hh : h = { engRun (inHandler g d ds (s.rdF (ENG_EVT_VEC e) 12 0) s.blockNo) n with spare := sp, evtFirst := first } := by
    simp only [h]
    rw [State.eng_settle, heq, eng_maxF]
    exact State.eng_setEng_same _ _ _
  obtain ⟨hp7, hp⟩ := evtSet_pR g.shadow (g.entry d.slice).sb d.slot s.blockNo
  rw [hh]
  generalize engRun _ n = k at *
  dsimp only
  rw [hmain, hshadow, show (inHandler g d ds (s.rdF (ENG_EVT_VEC e) 12 0) s.blockNo).main = g.main by unfold inHandler; rw [hpay]]
  refine ⟨(congrArg Engine.inEvt htime).trans rfl, (congrArg Engine.epc htime).trans rfl, (congrArg Engine.pc htime).trans rfl,
    (congrArg Engine.deliv htime).trans rfl, (congrArg Engine.evtSlice htime).trans rfl,
    (congrArg Engine.wait htime).trans rfl, (congrArg Engine.mainWait htime).trans rfl, rfl, rfl, rfl, hp7, hp, rfl, rfl, rfl, rfl, ?_⟩
  rw [State.rd_settle, heq, State.rd_maxF_other _ _ _ _ (by simp [ENG_EVT_CNT, ENG_EVT_LATMAX]), rd_count_same]
  rfl

end Sys2Proof

namespace Sys2Proof

open Sys2Proof.Machine

/-! Words written one after another. -/

/-- A memory with the words of a list written. -/
def putAll (l : List (Nat × Word)) (m : List (Nat × Byte)) : List (Nat × Byte) :=
  l.foldl (fun m x => putWord m x.1 x.2) m

/-- A byte in none of the words stays. -/
theorem putAll_byte {l : List (Nat × Word)} {a : Nat} (h : ∀ x ∈ l, a < x.1 ∨ x.1 + 4 ≤ a) (m : List (Nat × Byte)) :
    sget 0 (putAll l m) a = sget 0 m a := by
  induction l generalizing m with
  | nil => rfl
  | cons x l ih => exact (ih (fun y hy => h y (.tail _ hy)) _).trans (putWord_other m x.2 (h x (.head _)))

/-- A word apart from all of them stays. -/
theorem putAll_word {l : List (Nat × Word)} {a : Nat} (h : ∀ x ∈ l, x.1 + 4 ≤ a ∨ a + 4 ≤ x.1) (m : List (Nat × Byte)) :
    wordOf (putAll l m) a = wordOf m a := by
  induction l generalizing m with
  | nil => rfl
  | cons x l ih => exact (ih (fun y hy => h y (.tail _ hy)) _).trans (wordOf_putWord_other m x.2 (h x (.head _)))

/-- Of words that lie apart each is found as it was written. -/
theorem putAll_same {l : List (Nat × Word)} (hl : l.Pairwise fun x y => x.1 + 4 ≤ y.1 ∨ y.1 + 4 ≤ x.1) {a : Nat} {w : Word}
    (h : (a, w) ∈ l) (m : List (Nat × Byte)) : wordOf (putAll l m) a = w := by
  induction l generalizing m with
  | nil => cases h
  | cons x l ih =>
    obtain ⟨hx, hl⟩ := List.pairwise_cons.1 hl
    rcases List.mem_cons.1 h with rfl | h
    · exact (putAll_word (fun y hy => (hx y hy).symm) _).trans (putWord_same m a w)
    · exact ih hl h _

/-! A half-cycle of DMEM for the Router's port (R52). -/

/-- Where a half-cycle is free, or no bundle runs, taking one is only time on the engine. -/
theorem takeHalf_time {s : State} {e : Nat} (h : 0 < (s.engAt e).spare ∨ (s.engAt e).runnable = false) :
    TimePassed e s (s.takeHalf e) := by
  have hwait : TimePassed e s (s.waitExt e (fun g => decide (0 < g.spare)) maxWait) := by
    rcases h with h | h
    · rw [waitExt_ready (decide_eq_true h)]
      exact .refl e s
    · exact waitExt_idle _ h _
  unfold State.takeHalf
  generalize s.waitExt e (fun g => decide (0 < g.spare)) maxWait = t at hwait ⊢
  refine hwait.trans ⟨rfl, ?_⟩
  rw [State.eng_setEng_same]
  exact (TimeOnly.engTo _ _).trans rfl

/-- What the port works on does not change with time. -/
theorem TimeOnly.nextXfer {g h : Engine} (x : TimeOnly g h) : h.nextXfer = g.nextXfer := by
  unfold Engine.nextXfer
  rw [x.xq]

/-- While a window is open the port moves one quad, once it has its half-cycle. -/
theorem tapTransfer_eq {s : State} {e : Nat} {x : Xfer} (hx : (s.eng e).nextXfer = some x) (hwin : s.frame.win ≠ .none)
    (htime : TimePassed e s (s.takeHalf e)) : s.tapTransfer e =
      if x.collect then (s.takeHalf e).collectQuad e x else (s.takeHalf e).fillQuad e x := by
  obtain ⟨-, heng⟩ := htime
  have hx' : ((s.takeHalf e).eng e).nextXfer = some x := heng.nextXfer.trans hx
  unfold State.tapTransfer
  simp [hx, hx', hwin]

/-! The quads of a fill and of a collection (R111). -/

theorem mem_fillWords {s : State} {e : Nat} {t : Entry} {pos : Nat} {p : Nat × Word} : p ∈ s.fillWords e t pos ↔
    ∃ i < 4, 4 * (pos / s.blk) + i < t.inCnt ∧
      p = (i, sampleAt (sget [] s.router.tapIn (tapSink e (t.inBase + 4 * (pos / s.blk) + i))) (pos % s.blk)) := by
  unfold State.fillWords
  dsimp only
  rw [upTo, List.mem_map]
  constructor
  · rintro ⟨i, hi, rfl⟩
    obtain ⟨hlt, hcnt⟩ := List.mem_filter.1 hi
    exact ⟨i, List.mem_range.1 hlt, of_decide_eq_true hcnt, rfl⟩
  · rintro ⟨i, hlt, hcnt, rfl⟩
    exact ⟨i, List.mem_filter.2 ⟨List.mem_range.2 hlt, decide_eq_true hcnt⟩, rfl⟩

theorem fillWords_distinct (s : State) (e : Nat) (t : Entry) (pos : Nat) :
    (s.fillWords e t pos).Pairwise fun x y => x.1 ≠ y.1 := by
  refine List.Pairwise.map _ ?_ (List.Pairwise.filter _ List.nodup_range)
  exact fun i j hij => hij

/-- The words of a fill's quad, at their addresses in DMEM. -/
def fillPuts (s : State) (e : Nat) (x : Xfer) : List (Nat × Word) :=
  (s.fillWords e ((s.eng e).entry x.slice) x.pos).map fun w =>
    (quadAddr e (((s.eng e).entry x.slice).sb + x.pos) + 4 * w.1, w.2)

theorem histWords_idle {s : State} (h : s.rdB CLV_MIG_STAT 0 = false) (e sl pos : Nat) (ws : List (Nat × Word)) :
    s.histWords e sl pos ws = s := by
  simp [State.histWords, h]

/-- Without a migration a fill's quad goes to DMEM alone. -/
theorem fillQuad_eq {s : State} (e : Nat) (x : Xfer) (hmig : s.rdB CLV_MIG_STAT 0 = false) :
    ∃ g, s.fillQuad e x = { s.setEng e g with mem := putAll (fillPuts s e x) s.mem } := by
  have hfed : s.migFed (e * 64 + x.slice) = false := by simp [State.migFed, hmig]
  have hhist : ∀ m sl pos ws, State.histWords { s with mem := m } e sl pos ws = { s with mem := m } :=
    fun m => histWords_idle (s := { s with mem := m }) hmig e
  unfold State.fillQuad putAll fillPuts
  simp only [hfed, Bool.false_eq_true, if_false, hhist, List.foldl_map]
  exact ⟨_, rfl⟩

/-- A collection's quad goes to the tap's samples: of the state only the engine differs, and its count of quads is one
higher. -/
theorem collectQuad_eq (s : State) (e : Nat) (x : Xfer) :
    ∃ g, s.collectQuad e x = s.setEng e g ∧ (g.sb x.slice).coll = x.pos + 1 := by
  refine ⟨_, rfl, ?_⟩
  unfold Engine.updSb Engine.sb
  dsimp only
  rw [sget_sset_same]

/-- One quad of a fill reaches DMEM. -/
theorem tapTransfer_fill {s : State} {e : Fin 32} {x : Xfer} (hx : (s.eng e).nextXfer = some x) (hcoll : x.collect = false)
    (hwin : s.frame.win ≠ .none) (hmig : s.rdB CLV_MIG_STAT 0 = false)
    (hfree : 0 < (s.engAt e).spare ∨ (s.engAt e).runnable = false) :
    (s.tapTransfer e).mem = putAll (fillPuts s e x) s.mem ∧ (s.tapTransfer e).regs = s.regs ∧
      (s.tapTransfer e).router = s.router := by
  have htime := takeHalf_time hfree
  rw [tapTransfer_eq hx hwin htime, hcoll, if_neg Bool.false_ne_true]
  obtain ⟨hst, heng⟩ := htime
  generalize s.takeHalf e = k at hst heng
  have hmig' : k.rdB CLV_MIG_STAT 0 = false := by rw [hst]; exact hmig
  have hputs : fillPuts k e x = fillPuts s e x := by
    unfold fillPuts
    rw [heng.entry, hst]
    rfl
  obtain ⟨g, hg⟩ := fillQuad_eq e x hmig'
  rw [hg, hputs, hst]
  exact ⟨rfl, rfl, rfl⟩

/-- One quad of a collection leaves memory and registers, and is counted. -/
theorem tapTransfer_collect {s : State} {e : Fin 32} {x : Xfer} (hx : (s.eng e).nextXfer = some x) (hcoll : x.collect = true)
    (hwin : s.frame.win ≠ .none) (hfree : 0 < (s.engAt e).spare ∨ (s.engAt e).runnable = false) :
    (((s.tapTransfer e).eng e).sb x.slice).coll = x.pos + 1 ∧ (s.tapTransfer e).mem = s.mem ∧
      (s.tapTransfer e).regs = s.regs ∧ (s.tapTransfer e).router = s.router := by
  have htime := takeHalf_time hfree
  rw [tapTransfer_eq hx hwin htime, hcoll, if_pos rfl]
  obtain ⟨hst, heng⟩ := htime
  generalize s.takeHalf e = k at hst heng
  obtain ⟨g, hg, hpos⟩ := collectQuad_eq k e x
  rw [hg, State.eng_setEng_same, hst]
  exact ⟨hpos, rfl, rfl, rfl⟩

/-- The words of a fill's quad lie apart, in the quad. -/
theorem fillPuts_apart (s : State) (e : Nat) (x : Xfer) :
    (fillPuts s e x).Pairwise fun x y => x.1 + 4 ≤ y.1 ∨ y.1 + 4 ≤ x.1 := by
  refine List.Pairwise.map _ ?_ (fillWords_distinct s e _ _)
  intro v w hvw
  dsimp only
  omega

theorem fillPuts_within {s : State} {e : Nat} {x : Xfer} {p : Nat × Word} (h : p ∈ fillPuts s e x) :
    ∃ i < 4, p.1 = quadAddr e (((s.eng e).entry x.slice).sb + x.pos) + 4 * i := by
  obtain ⟨w, hw, rfl⟩ := List.mem_map.1 h
  obtain ⟨i, hi, -, rfl⟩ := mem_fillWords.1 hw
  exact ⟨i, hi, rfl⟩

end Sys2Proof

namespace Sys2Proof

open Sys2Proof.Machine

/-! Words copied one after another, as a beat of a far request moves them (R62, R92). -/

/-- A memory with words copied: destination and source. -/
def copyWords (l : List (Nat × Nat)) (m : List (Nat × Byte)) : List (Nat × Byte) :=
  l.foldl (fun m x => putWord m x.1 (wordOf m x.2)) m

/-- Where no source meets a destination, each destination takes its source's word as it was. -/
theorem copyWords_eq {l : List (Nat × Nat)} (h : ∀ x ∈ l, ∀ y ∈ l, x.1 + 4 ≤ y.2 ∨ y.2 + 4 ≤ x.1) (m : List (Nat × Byte)) :
    copyWords l m = putAll (l.map fun x => (x.1, wordOf m x.2)) m := by
  induction l generalizing m with
  | nil => rfl
  | cons x l ih =>
    have hkeep : ∀ y ∈ l, wordOf (putWord m x.1 (wordOf m x.2)) y.2 = wordOf m y.2 := fun y hy =>
      wordOf_putWord_other m _ (h x (.head _) y (.tail _ hy))
    have htail := ih (fun y hy z hz => h y (.tail _ hy) z (.tail _ hz)) (putWord m x.1 (wordOf m x.2))
    rw [List.map_congr_left fun y hy => congrArg (Prod.mk y.1) (hkeep y hy)] at htail
    exact htail

theorem copyWords_word {l : List (Nat × Nat)} (h : ∀ x ∈ l, ∀ y ∈ l, x.1 + 4 ≤ y.2 ∨ y.2 + 4 ≤ x.1)
    (hl : l.Pairwise fun x y => x.1 + 4 ≤ y.1 ∨ y.1 + 4 ≤ x.1) {a b : Nat} (hab : (a, b) ∈ l) (m : List (Nat × Byte)) :
    wordOf (copyWords l m) a = wordOf m b := by
  rw [copyWords_eq h]
  exact putAll_same (List.pairwise_map.2 hl) (List.mem_map.2 ⟨(a, b), hab, rfl⟩) m

/-- Steps that each change only memory change only memory. -/
theorem each_mem {α : Type} {f : State → α → State} {φ : α → List (Nat × Byte) → List (Nat × Byte)} {s : State} {l : List α}
    (h : ∀ m, ∀ x ∈ l, f { s with mem := m } x = { s with mem := φ x m }) (m : List (Nat × Byte)) :
    State.each { s with mem := m } l f = { s with mem := l.foldl (fun m x => φ x m) m } := by
  induction l generalizing m with
  | nil => rfl
  | cons x l ih =>
    exact (congrArg (fun t : State => t.each l f) (h m x (.head _))).trans (ih (fun m y hy => h m y (.tail _ hy)) _)

/-- Word `i` of quad `k` of a far request: where it goes and where it comes from. -/
def pairOf (e : Nat) (q : FarReq) (k i : Nat) : Nat × Nat :=
  if q.get then (dmemAddr e ((q.q0 + k) * 4 + i), q.pool k + 4 * i) else (q.pool k + 4 * i, dmemAddr e ((q.q0 + k) * 4 + i))

/-- The words of quad `k`. -/
def quadPairs (e : Nat) (q : FarReq) (k : Nat) : List (Nat × Nat) := (upTo 4).map (pairOf e q k)

/-- A quad of a beat, where its Pool bank is not fenced and the program has written none of its words. -/
theorem farQuad_eq {s : State} {e : Nat} {q : FarReq} {k : Nat} (halt : q.alt = [])
    (hf : s.fenced (poolUnit (q.pool k - 0x10000000)) = false) :
    s.farQuad e q k = { s with mem := copyWords (quadPairs e q k) s.mem } := by
  unfold State.farQuad copyWords quadPairs pairOf
  rw [List.foldl_map]
  cases hg : q.get
  · simp only [hf, Bool.false_eq_true, if_false]
    refine each_mem (s := s) (fun m i _ => ?_) s.mem
    simp only [State.putPool, halt, List.reverse_nil, List.find?_nil]
  · simp only [hf, Bool.false_eq_true, if_false, if_true]
    refine each_mem (s := s) (fun m i _ => ?_) s.mem
    simp only [State.getWord, halt, List.any_nil, Bool.false_eq_true, if_false]

/-- The words of a request's next beat. -/
def beatPairs (e : Nat) (q : FarReq) : List (Nat × Nat) := q.next.flatMap (quadPairs e q)

theorem farMove_beat {s : State} {e : Nat} {q : FarReq} {rest : List FarReq} (hfar : (s.eng e).far = q :: rest)
    (halt : q.alt = []) (hf : ∀ k, s.fenced (poolUnit (q.pool k - 0x10000000)) = false) :
    (s.farMove e).regs = s.regs ∧ (s.farMove e).mem = copyWords (beatPairs e q) s.mem ∧
      ((s.farMove e).eng e).far = { q with beats := q.beats + 1 } :: rest := by
  have hbad : (q.next.map (fun k => poolUnit (q.pool k - 0x10000000))).find? s.fenced = none := by
    rw [List.find?_eq_none]
    intro u hu
    obtain ⟨k, -, rfl⟩ := List.mem_map.1 hu
    simp [hf k]
  have hmem : s.each q.next (fun s k => s.farQuad e q k) = { s with mem := copyWords (beatPairs e q) s.mem } := by
    unfold copyWords beatPairs
    rw [List.foldl_flatMap]
    exact each_mem (s := s) (fun m k _ => farQuad_eq (s := { s with mem := m }) halt (hf k)) s.mem
  unfold State.farMove
  simp only [hfar, hbad, hmem]
  refine ⟨rfl, rfl, ?_⟩
  unfold State.updEng
  rw [State.eng_setEng_same]
  simp only [show ({ s with mem := copyWords (beatPairs e q) s.mem } : State).eng e = s.eng e from rfl, hfar]
  simp [halt]

/-- A beat served: its words are moved, and the request has one beat more behind it. -/
theorem farServe_beat {s : State} {e : Nat} {q : FarReq} {rest : List FarReq} (hfar : (s.eng e).far = q :: rest)
    (halt : q.alt = []) (hf : ∀ k, s.fenced (poolUnit (q.pool k - 0x10000000)) = false) (lim : Nat) :
    (s.farServe e lim).regs = s.regs ∧ (s.farServe e lim).mem = copyWords (beatPairs e q) s.mem ∧
      ((s.farServe e lim).eng e).far = { q with beats := q.beats + 1 } :: rest := by
  have hfar' : (s.engAt e).far = q :: rest := (TimeOnly.engTo _ _).far.trans hfar
  unfold State.farServe
  simp only [hfar']
  generalize max ((s.engAt e).portAt 0) (min (s.engAt e).writeSlot lim) = w
  have hport : ((s.setEng e ((s.engAt e).takePort 0 w q.next.length)).eng e).far = q :: rest := by
    rw [State.eng_setEng_same]
    exact hfar'
  obtain ⟨hregs, hmem, hfin⟩ := farMove_beat (s := s.setEng e ((s.engAt e).takePort 0 w q.next.length)) hport halt hf
  generalize State.farMove _ e = t at hregs hmem hfin ⊢
  split
  · refine ⟨hregs, hmem, ?_⟩
    unfold State.updEng
    rw [State.eng_setEng_same]
    exact hfin
  · exact ⟨hregs, hmem, hfin⟩

/-! The turn at a POOL target, and beats that compete there (R62, R197). -/

theorem cyclicFirst_mem {n start : Nat} {xs : List Nat} {x : Nat} (h : cyclicFirst n start xs = some x) : x ∈ xs := by
  unfold cyclicFirst at h
  simpa using List.find?_some h

/-- The engine whose turn it is has a beat waiting. -/
theorem farTurn_mem {s : State} {t w : Nat} (h : s.farTurn t = some w) : w ∈ s.beatsAt t := by
  unfold State.farTurn at h
  dsimp only at h
  split at h
  · cases h
  · next c hc =>
    obtain ⟨i, hi, rfl⟩ := Option.map_eq_some_iff.1 h
    obtain ⟨f, hf, rfl⟩ := List.mem_map.1 (cyclicFirst_mem hi)
    obtain ⟨hmem, hcl⟩ := List.mem_filter.1 hf
    have hfc : f / 8 = c := by simpa using hcl
    rwa [show c * 8 + f % 8 = f by omega]

/-- The queue of an engine whose head request has met another beat. -/
def contended (l : List FarReq) : List FarReq :=
  match l with
  | [] => []
  | p :: ps => { p with cont := true } :: ps

theorem contended_contended (l : List FarReq) : contended (contended l) = contended l := by
  cases l <;> rfl

theorem contend_eq (es : List Nat) (s : State) : s.contend es = { s with engs := (s.contend es).engs } ∧
    ∀ f, ((s.contend es).eng f).far = if f ∈ es then contended (s.eng f).far else (s.eng f).far := by
  induction es generalizing s with
  | nil => exact ⟨rfl, fun _ => rfl⟩
  | cons e es ih =>
    obtain ⟨hst, hfar⟩ := ih (s.updEng e fun g => { g with far := contended g.far })
    refine ⟨hst, fun f => (hfar f).trans ?_⟩
    have hone : ((s.updEng e fun g => { g with far := contended g.far }).eng f).far =
        if f = e then contended (s.eng f).far else (s.eng f).far := by
      unfold State.updEng
      split
      · next h => rw [h, State.eng_setEng_same]
      · next h => rw [State.eng_setEng_other _ _ h]
    rw [hone]
    by_cases hfe : f = e <;> by_cases hfs : f ∈ es <;> simp [hfe, hfs, contended_contended]

theorem beatAt_congr {g h : Engine} (hfar : h.far = contended g.far) : h.beatAt = g.beatAt := by
  unfold Engine.beatAt
  rw [hfar]
  cases g.far <;> rfl

theorem mem_beatsAt {s : State} {t f : Nat} : f ∈ s.beatsAt t ↔ (s.eng f).beatAt = some t := by
  unfold State.beatsAt
  rw [List.mem_filter, beq_iff_eq]
  refine ⟨And.right, fun h => ⟨?_, h⟩⟩
  by_contra hf
  rw [show s.eng f = {} from sget_unlisted _ hf] at h
  cases h

/-- Competition does not change where a beat waits. -/
theorem contend_beatsAt (es : List Nat) (s : State) (t f : Nat) : f ∈ (s.contend es).beatsAt t ↔ f ∈ s.beatsAt t := by
  obtain ⟨-, hfar⟩ := contend_eq es s
  have hf := hfar f
  rw [mem_beatsAt, mem_beatsAt]
  split at hf
  · rw [beatAt_congr hf]
  · unfold Engine.beatAt
    rw [hf]

theorem cyclicFirst_congr {n start : Nat} {xs ys : List Nat} (h : ∀ x, x ∈ xs ↔ x ∈ ys) :
    cyclicFirst n start xs = cyclicFirst n start ys := by
  unfold cyclicFirst
  refine congrArg (fun p => List.find? p _) (funext fun x => ?_)
  rw [Bool.eq_iff_iff, List.contains_iff_mem, List.contains_iff_mem, h]

/-- Competition does not change whose turn it is. -/
theorem contend_farTurn (es : List Nat) (s : State) (t : Nat) : (s.contend es).farTurn t = s.farTurn t := by
  have hmem := contend_beatsAt es s t
  have hbmx : (s.contend es).bmx = s.bmx := (congrArg State.bmx (contend_eq es s).1).trans rfl
  unfold State.farTurn
  dsimp only
  rw [hbmx, cyclicFirst_congr (ys := (s.beatsAt t).map (· / 8)) fun x => by simp only [List.mem_map, hmem]]
  split
  · rfl
  · next c _ =>
    rw [cyclicFirst_congr (ys := ((s.beatsAt t).filter (fun e => e / 8 == c)).map (· % 8)) fun x => by
      simp only [List.mem_map, List.mem_filter, hmem]]

/-! One beat of a far request (R62). -/

/-- The request that an engine's turn serves, as competition has left it. -/
def served (s : State) (t : Nat) (q : FarReq) : FarReq :=
  { q with cont := q.cont || decide (1 < (s.beatsAt t).length) || s.busAt t }

/-- The state in which a beat's turn is served: the requests that compete at its target are marked. -/
def marked (s : State) (t : Nat) : State :=
  if decide (1 < (s.beatsAt t).length) || s.busAt t then s.contend (s.beatsAt t) else s

theorem marked_eq (s : State) (t : Nat) : marked s t = { s with engs := (marked s t).engs } := by
  unfold marked
  split
  · exact (contend_eq _ s).1
  · rfl

theorem marked_farTurn (s : State) (t : Nat) : (marked s t).farTurn t = s.farTurn t := by
  unfold marked
  split
  · exact contend_farTurn _ s t
  · rfl

theorem marked_far {s : State} {t w : Nat} {q : FarReq} {rest : List FarReq} (hturn : s.farTurn t = some w)
    (hfar : (s.eng w).far = q :: rest) : ((marked s t).eng w).far = served s t q :: rest := by
  unfold marked served
  cases hc : decide (1 < (s.beatsAt t).length) || s.busAt t
  · rw [Bool.or_assoc, hc, if_neg Bool.false_ne_true, hfar, Bool.or_false]
  · rw [Bool.or_assoc, hc, if_pos rfl, (contend_eq _ s).2, if_pos (farTurn_mem hturn), hfar, Bool.or_true]
    rfl

theorem farBeat_eq {s : State} {e t w : Nat} (hat : (s.eng e).beatAt = some t) (hturn : s.farTurn t = some w) :
    ∃ x lim, s.farBeat e = State.farServe { marked s t with bmx := x } w lim := by
  have hturn' := (marked_farTurn s t).trans hturn
  unfold State.farBeat
  simp only [hat]
  unfold marked at *
  simp only [hturn']
  exact ⟨_, _, rfl⟩

theorem mem_quadPairs {w k : Nat} {q : FarReq} {x : Nat × Nat} : x ∈ quadPairs w q k ↔ ∃ i < 4, x = pairOf w q k i := by
  unfold quadPairs
  rw [upTo, List.mem_map]
  simp only [List.mem_range, eq_comm]

theorem mem_next {q : FarReq} {k : Nat} : k ∈ q.next ↔ k < q.quads ∧ k / 2 = q.beats := by
  unfold FarReq.next
  rw [upTo, List.mem_filter, List.mem_range, decide_eq_true_eq]

theorem mem_beatPairs {w : Nat} {q : FarReq} {x : Nat × Nat} :
    x ∈ beatPairs w q ↔ ∃ k, (k < q.quads ∧ k / 2 = q.beats) ∧ ∃ i < 4, x = pairOf w q k i := by
  unfold beatPairs
  rw [List.mem_flatMap]
  simp only [mem_next, mem_quadPairs]

/-- The words of a beat come from elsewhere than they go to: the Pool lies below DMEM. -/
theorem beatPairs_apart (w : Nat) (q : FarReq) : ∀ x ∈ beatPairs w q, ∀ y ∈ beatPairs w q, x.1 + 4 ≤ y.2 ∨ y.2 + 4 ≤ x.1 := by
  intro x hx y hy
  obtain ⟨k, -, i, hi, rfl⟩ := mem_beatPairs.1 hx
  obtain ⟨l, -, j, hj, rfl⟩ := mem_beatPairs.1 hy
  unfold pairOf FarReq.pool dmemAddr
  split
  · right
    dsimp only
    omega
  · left
    dsimp only
    omega

/-- Different words of a beat, whose quads are at most two and neighbours, go to different addresses. -/
theorem pairOf_distinct (w : Nat) (q : FarReq) {k l i j : Nat} (hi : i < 4) (hj : j < 4) (hkl : k / 2 = l / 2)
    (h : k ≠ l ∨ i ≠ j) :
    (pairOf w q k i).1 + 4 ≤ (pairOf w q l j).1 ∨ (pairOf w q l j).1 + 4 ≤ (pairOf w q k i).1 := by
  unfold pairOf FarReq.pool dmemAddr
  split <;> dsimp only <;> omega

theorem beatPairs_distinct (w : Nat) (q : FarReq) :
    (beatPairs w q).Pairwise fun x y => x.1 + 4 ≤ y.1 ∨ y.1 + 4 ≤ x.1 := by
  unfold beatPairs
  rw [List.pairwise_flatMap]
  constructor
  · intro k _
    refine List.pairwise_map.2 (List.Pairwise.imp_of_mem ?_ List.nodup_range)
    intro i j hi hj hij
    exact pairOf_distinct w q (List.mem_range.1 hi) (List.mem_range.1 hj) rfl (.inr hij)
  · refine List.Pairwise.imp_of_mem ?_ (List.Pairwise.filter _ List.nodup_range)
    intro k l hk hl hkl x hx y hy
    obtain ⟨-, hkb⟩ := mem_next.1 hk
    obtain ⟨-, hlb⟩ := mem_next.1 hl
    obtain ⟨i, hi, rfl⟩ := mem_quadPairs.1 hx
    obtain ⟨j, hj, rfl⟩ := mem_quadPairs.1 hy
    exact pairOf_distinct w q hi hj (hkb.trans hlb.symm) (.inl hkl)

/-- One beat moves the words of its quads and is counted; no register changes. -/
theorem farBeat_moves {s : State} {e t w : Nat} {q : FarReq} {rest : List FarReq} (hat : (s.eng e).beatAt = some t)
    (hturn : s.farTurn t = some w) (hfar : (s.eng w).far = q :: rest) (halt : q.alt = [])
    (hf : ∀ k, s.fenced (poolUnit (q.pool k - 0x10000000)) = false) :
    ((s.farBeat e).eng w).far = { served s t q with beats := q.beats + 1 } :: rest ∧ (s.farBeat e).regs = s.regs ∧
      ∀ k < q.quads, k / 2 = q.beats → ∀ i < 4,
        wordOf (s.farBeat e).mem (pairOf w q k i).1 = wordOf s.mem (pairOf w q k i).2 := by
  obtain ⟨x, lim, heq⟩ := farBeat_eq hat hturn
  have hmark := marked_eq s t
  have hrep : (marked s t).rep = s.rep := (congrArg State.rep hmark).trans rfl
  have hfm : ∀ k, State.fenced { marked s t with bmx := x } (poolUnit ((served s t q).pool k - 0x10000000)) = false := by
    intro k
    unfold State.fenced State.unit
    dsimp only
    rw [hrep]
    exact hf k
  obtain ⟨hregs, hmem, hserved⟩ := farServe_beat (s := { marked s t with bmx := x }) (marked_far hturn hfar) halt hfm lim
  rw [heq]
  refine ⟨hserved, hregs.trans ((congrArg State.regs hmark).trans rfl), fun k hk hb i hi => ?_⟩
  have hpair : pairOf w q k i ∈ beatPairs w (served s t q) := mem_beatPairs.2 ⟨k, ⟨hk, hb⟩, i, hi, rfl⟩
  rw [hmem]
  exact (copyWords_word (beatPairs_apart w _) (beatPairs_distinct w _) hpair _).trans
    (congrArg (fun m => wordOf m (pairOf w q k i).2) ((congrArg State.mem hmark).trans rfl))

end Sys2Proof

namespace Sys2Proof

open Sys2Proof.Machine

/-! What the beats of a far request leave of an engine (R62). -/

/-- Only memory and the count of free values differ. -/
def MemFree (s t : State) : Prop := t = { s with mem := t.mem, free := t.free }

namespace MemFree

theorem refl (s : State) : MemFree s s := rfl

theorem trans {s t u : State} (h : MemFree s t) (k : MemFree t u) : MemFree s u :=
  Eq.trans k (congrArg (fun x : State => { x with mem := u.mem, free := u.free }) h)

theorem each {α : Type} {f : State → α → State} (h : ∀ s x, MemFree s (f s x)) (l : List α) (s : State) :
    MemFree s (s.each l f) := by
  induction l generalizing s with
  | nil => exact refl s
  | cons x l ih => exact (h s x).trans (ih (f s x))

theorem engs {s t : State} (h : MemFree s t) : t.engs = s.engs := (congrArg State.engs h).trans rfl

theorem regs {s t : State} (h : MemFree s t) : t.regs = s.regs := (congrArg State.regs h).trans rfl

theorem getWord (s : State) (e : Nat) (q : FarReq) (w : Nat) (pool : Word) : MemFree s (s.getWord e q w pool) := by
  unfold State.getWord
  dsimp only
  split <;> rfl

theorem putPool (s : State) (e : Nat) (q : FarReq) (w pa : Nat) : MemFree s (s.putPool e q w pa) := by
  unfold State.putPool
  dsimp only
  split <;> rfl

theorem farQuad (s : State) (e : Nat) (q : FarReq) (k : Nat) : MemFree s (s.farQuad e q k) := by
  unfold State.farQuad
  dsimp only
  split
  · exact each (fun s i => getWord s e q _ _) _ s
  · split
    · exact refl s
    · exact each (fun s i => putPool s e q _ _) _ s

theorem settleAlt (s : State) (e : Nat) (q : FarReq) : MemFree s (s.settleAlt e q) := by
  unfold State.settleAlt
  split
  · refine each (fun t x => ?_) _ s
    rfl
  · exact refl s

end MemFree

/-- A fenced bank is recorded in registers outside the engine's (R197). -/
theorem farErr_keeps (s : State) (e : Fin 32) (f : Nat) (q : FarReq) (unit : Nat) :
    KeepsEngRegs e s (s.farErr f q unit) ∧ (s.farErr f q unit).engs = s.engs := by
  have he := e.isLt
  unfold State.farErr
  dsimp only
  have hfence : KeepsEngRegs e s (s.fenceLog unit (12 + f / 8) (!q.get)) := .fenceLog _ _ _ _
  have hengs : (s.fenceLog unit (12 + f / 8) (!q.get)).engs = s.engs := by
    unfold State.fenceLog
    dsimp only
    split <;> rfl
  generalize s.fenceLog unit (12 + f / 8) (!q.get) = t at *
  have hcount : KeepsEngRegs e t (t.count BMX_FARERR_CNT) := .upd t _ (by simp only [BMX_FARERR_CNT]; omega)
  have hraise : KeepsEngRegs e (t.count BMX_FARERR_CNT) ((t.count BMX_FARERR_CNT).raise BMX_INT 2#32) :=
    .upd _ _ (by simp only [BMX_INT]; omega)
  split
  · exact ⟨(hfence.trans hcount).trans hraise, hengs⟩
  · exact ⟨((hfence.trans hcount).trans hraise).trans (.upd _ (fun _ => _) (by simp only [BMX_FARERR]; omega)), hengs⟩

/-- The head of a far queue, but for what its beats move on. -/
def HeadKept (l l' : List FarReq) : Prop :=
  ∀ q rest, l = q :: rest → ∃ p, l' = p :: rest ∧ p = { q with beats := p.beats, alt := p.alt, erred := p.erred }

theorem HeadKept.refl (l : List FarReq) : HeadKept l l := fun q _ h => ⟨q, h, rfl⟩

theorem HeadKept.trans {l m n : List FarReq} (h : HeadKept l m) (k : HeadKept m n) : HeadKept l n := by
  intro q rest hl
  obtain ⟨p, hp, hpq⟩ := h q rest hl
  obtain ⟨r, hr, hrp⟩ := k p rest hp
  exact ⟨r, hr, hrp.trans (congrArg (fun x : FarReq => { x with beats := r.beats, alt := r.alt, erred := r.erred }) hpq)⟩

/-- What the service of beats leaves: the registers of the engine, its hold and drain, and the requests in its queue. -/
structure Serving (e : Fin 32) (s t : State) : Prop where
  regs : KeepsEngRegs e s t
  far : HeadKept (s.eng e).far (t.eng e).far
  inEvt : (t.eng e).inEvt = (s.eng e).inEvt
  draining : (t.eng e).draining = (s.eng e).draining
  wait : (t.eng e).wait = (s.eng e).wait

namespace Serving

variable {e : Fin 32}

theorem refl (s : State) : Serving e s s := ⟨.refl s, .refl _, rfl, rfl, rfl⟩

theorem trans {s t u : State} (h : Serving e s t) (k : Serving e t u) : Serving e s u :=
  ⟨h.regs.trans k.regs, h.far.trans k.far, k.inEvt.trans h.inEvt, k.draining.trans h.draining, k.wait.trans h.wait⟩

theorem each {α : Type} {f : State → α → State} (h : ∀ s x, Serving e s (f s x)) (l : List α) (s : State) :
    Serving e s (s.each l f) := by
  induction l generalizing s with
  | nil => exact refl s
  | cons x l ih => exact (h s x).trans (ih (f s x))

/-- Where no engine changes, the registers decide. -/
theorem of_engs {s t : State} (hengs : t.engs = s.engs) (hregs : KeepsEngRegs e s t) : Serving e s t := by
  have heng : t.eng e = s.eng e := congrArg (fun l => sget ({} : Engine) l e) hengs
  exact ⟨hregs, by rw [heng]; exact .refl _, by rw [heng], by rw [heng], by rw [heng]⟩

theorem of_memFree {s t : State} (h : MemFree s t) : Serving e s t := of_engs h.engs (.of_regs h.regs)

/-- An engine put back. -/
theorem setEng {s : State} {g : Engine} (hfar : HeadKept (s.eng e).far g.far) (hevt : g.inEvt = (s.eng e).inEvt)
    (hdr : g.draining = (s.eng e).draining) (hwait : g.wait = (s.eng e).wait) : Serving e s (s.setEng e g) := by
  have heng := State.eng_setEng_same s e g
  exact ⟨.setEng s e g, by rw [heng]; exact hfar, by rw [heng, hevt], by rw [heng, hdr], by rw [heng, hwait]⟩

theorem upd (s : State) {f : Engine → Engine} (h : ∀ g, HeadKept g.far (f g).far ∧ (f g).inEvt = g.inEvt ∧
    (f g).draining = g.draining ∧ (f g).wait = g.wait) : Serving e s (s.updEng e f) := by
  obtain ⟨hfar, hevt, hdr, hwait⟩ := h (s.eng e)
  exact setEng hfar hevt hdr hwait

/-- An engine on which time has passed. -/
theorem time {s : State} {g : Engine} (h : TimeOnly (s.eng e) g) : Serving e s (s.setEng e g) :=
  setEng (by rw [h.far]; exact .refl _) h.inEvt h.draining h.wait

/-- Quads moved, and then the engine. -/
theorem quads {s t : State} (h : Serving e s t) (q : FarReq) (ks : List Nat) {f : Engine → Engine}
    (hf : ∀ g, HeadKept g.far (f g).far ∧ (f g).inEvt = g.inEvt ∧ (f g).draining = g.draining ∧ (f g).wait = g.wait) :
    Serving e s ((t.each ks fun s k => s.farQuad e q k).updEng e f) :=
  (h.trans (of_memFree (.each (fun s k => .farQuad s e q k) ks t))).trans (upd _ hf)

theorem farMove (s : State) : Serving e s (s.farMove e) := by
  unfold State.farMove
  split
  · exact refl s
  · next q rest hfar =>
    dsimp only
    generalize (q.next.map (fun k => poolUnit (q.pool k - 0x10000000))).find? s.fenced = bad
    refine quads ?_ q q.next fun g => ⟨fun p ps hp => ?_, rfl, rfl, rfl⟩
    · split
      · obtain ⟨hregs, hengs⟩ := farErr_keeps s e e q _
        exact of_engs hengs hregs
      · exact refl s
    · dsimp only
      rw [hp]
      exact ⟨_, rfl, rfl⟩

theorem farServe (s : State) (lim : Nat) : Serving e s (s.farServe e lim) := by
  have htime : TimeOnly (s.eng e) (s.engAt e) := .engTo _ _
  unfold State.farServe
  dsimp only
  split
  · exact refl s
  · next q rest hfar =>
    have hport : ∀ w n, Serving e s (s.setEng e ((s.engAt e).takePort 0 w n)) := fun w n =>
      setEng (by rw [show ((s.engAt e).takePort 0 w n).far = (s.eng e).far from htime.far]; exact .refl _) htime.inEvt
        htime.draining htime.wait
    have hmove := (hport (max ((s.engAt e).portAt 0) (min (s.engAt e).writeSlot lim)) q.next.length).trans (farMove _)
    generalize State.farMove _ e = t at hmove ⊢
    split
    · exact hmove.trans (upd _ fun g => ⟨.refl _, rfl, rfl, rfl⟩)
    · exact hmove

end Serving

/-! The completion of a far request (R62, R63). -/

theorem payTo_frame (g : Engine) (c : Nat) : g.payTo c =
    { g with meas := (g.payTo c).meas, busy := (g.payTo c).busy, waitAt := (g.payTo c).waitAt } := by
  unfold Engine.payTo
  split <;> rfl

theorem drainOn_idle {s : State} {e : Nat} (h : (s.eng e).draining = none) : s.drainOn e = s := by
  simp [State.drainOn, h]

/-- The largest value seen so far, as far as its field counts (R9). -/
theorem rdF_maxF_same (s : State) (r : Reg) {hi lo : Nat} (hle : lo ≤ hi) (hhi : hi < 32) (v : Nat) :
    (s.maxF r hi lo v).rdF r hi lo = max (s.rdF r hi lo) (min v (2 ^ (hi + 1 - lo) - 1)) := by
  have hpow : 0 < 2 ^ (hi + 1 - lo) := Nat.two_pow_pos _
  have hclamp : (if v < 2 ^ (hi + 1 - lo) then v else 2 ^ (hi + 1 - lo) - 1) = min v (2 ^ (hi + 1 - lo) - 1) := by
    split <;> omega
  unfold State.maxF
  dsimp only
  rw [hclamp]
  split
  · next h =>
    rw [State.rdF, State.rd_wrF_same, bits_setBits_same _ hle hhi, Nat.mod_eq_of_lt (by omega)]
    omega
  · omega

/-- An engine whose holds on a tag have ended at cycle `c`. -/
def unheld (g : Engine) (t : Fin 16) (c : Nat) : Engine :=
  let g := if g.wait == .tag t then { g.payTo c with wait := .none } else g
  if g.mainWait == .tag t then { g with mainWait := .none } else g

theorem unheld_frame (g : Engine) (t : Fin 16) (c : Nat) : (unheld g t c).far = g.far ∧ (unheld g t c).inEvt = g.inEvt ∧
    (unheld g t c).draining = g.draining ∧ (unheld g t c).wait = if g.wait = .tag t then .none else g.wait := by
  have hmain : ∀ h : Engine, (if h.mainWait == .tag t then { h with mainWait := .none } else h) =
      { h with mainWait := if h.mainWait == .tag t then .none else h.mainWait } := by
    intro h
    split <;> rfl
  unfold unheld
  dsimp only
  rw [hmain]
  by_cases hw : g.wait = .tag t
  · rw [if_pos (beq_iff_eq.2 hw), if_pos hw, payTo_frame]
    exact ⟨rfl, rfl, rfl, rfl⟩
  · rw [if_neg fun h => hw (beq_iff_eq.1 h), if_neg hw]
    exact ⟨rfl, rfl, rfl, rfl⟩

/-- Outside a handler and a drain the end of a request resumes what its tag held, and nothing else. -/
theorem farResume_tag {s : State} {e : Nat} (hevt : (s.eng e).inEvt = false) (hdr : (s.eng e).draining = none) (t : Fin 16)
    (c : Nat) : (s.farResume e t c).regs = s.regs ∧ ((s.farResume e t c).eng e).far = (s.eng e).far ∧
      ((s.farResume e t c).eng e).wait = if (s.eng e).wait = .tag t then .none else (s.eng e).wait := by
  obtain ⟨hfar, hevt', hdr', hwait⟩ := unheld_frame (s.eng e) t c
  rw [← hfar, ← hwait]
  have heq : ∃ g, s.farResume e t c = State.drainOn (State.setEng (s.setEng e (unheld (s.eng e) t c)) e g) e ∧
      g.far = (unheld (s.eng e) t c).far ∧ g.wait = (unheld (s.eng e) t c).wait ∧
      g.draining = (unheld (s.eng e) t c).draining := by
    generalize hu : s.farResume e t c = u
    unfold State.farResume at hu
    extract_lets g0 paid g1 g2 back s1 s2 g3 hit tags g4 at hu
    have hg2 : g2 = unheld (s.eng e) t c := rfl
    clear_value g2
    have hback : back = false := by simp only [back, hg2, hevt', hevt, Bool.false_and]
    have hs2 : s2 = s.setEng e (unheld (s.eng e) t c) := by simp only [s2, s1, hback, hg2, Bool.false_eq_true, if_false]
    have hg3 : g3 = unheld (s.eng e) t c := by simp only [g3, hs2, State.eng_setEng_same]
    have hg4 : g4.far = g3.far ∧ g4.wait = g3.wait ∧ g4.draining = g3.draining := by
      unfold g4
      split
      · rw [payTo_frame]
        exact ⟨rfl, rfl, rfl⟩
      · exact ⟨rfl, rfl, rfl⟩
    rw [hs2] at hu
    rw [hg3] at hg4
    exact ⟨_, hu.symm, hg4⟩
  obtain ⟨g, heq, hgfar, hgwait, hgdr⟩ := heq
  rw [heq, drainOn_idle (by rw [State.eng_setEng_same, hgdr, hdr', hdr]), State.eng_setEng_same]
  exact ⟨rfl, hgfar, hgwait⟩

/-- The state of a request's completion, once its beats have been served. -/
def beatsDone (s : State) (e : Nat) (q : FarReq) : State :=
  let first := q.headAt + q.quads + 24
  let t := s.each (upTo (q.total - q.beats)) (fun s k => s.farServe e (first + 2 * q.beats + 2 * k - q.quads))
  t.setEng e (engTo (t.engAt e) first)

theorem beatsDone_serving (s : State) (e : Fin 32) (q : FarReq) : Serving e s (beatsDone s e q) :=
  (Serving.each (fun s _ => .farServe s _) _ s).trans (.time ((TimeOnly.engTo _ _).trans (.engTo _ _)))

/-- A completed request leaves the queue: the next one reaches the head. -/
def dequeued (rest : List FarReq) (c : Nat) : List FarReq :=
  match rest with
  | [] => []
  | p :: ps => { p with headAt := max p.issued c } :: ps

theorem dequeued_tag (rest : List FarReq) (c : Nat) : (dequeued rest c).map FarReq.tag = rest.map FarReq.tag := by
  cases rest <;> rfl

/-- The cycle in which a request completes (R62). -/
def completion (g : Engine) (q p : FarReq) : Nat :=
  if p.cont then min g.cyc (p.headAt + farBound p.quads) else q.headAt + q.quads + 24

/-- The state in which a request has left the queue at cycle `c`, and its latency counts. -/
def completed (s : State) (e : Nat) (p : FarReq) (rest : List FarReq) (c : Nat) : State :=
  ((s.setEng e { s.eng e with far := dequeued rest c }).settleAlt e p).maxF (ENG_FARQ_LATMAX e) 12 0 (c - p.issued)

theorem completed_eng (s : State) (e : Nat) (p : FarReq) (rest : List FarReq) (c : Nat) :
    (completed s e p rest c).eng e = { s.eng e with far := dequeued rest c } := by
  unfold completed
  rw [eng_maxF]
  exact (congrArg (fun l => sget ({} : Engine) l e) (MemFree.settleAlt _ e p).engs).trans (State.eng_setEng_same _ _ _)

theorem completed_latency (s : State) (e : Nat) (p : FarReq) (rest : List FarReq) (c : Nat) :
    (completed s e p rest c).rdF (ENG_FARQ_LATMAX e) 12 0 =
      max (s.rdF (ENG_FARQ_LATMAX e) 12 0) (min (c - p.issued) 8191) := by
  unfold completed
  rw [rdF_maxF_same _ _ (by omega) (by omega), State.rdF, State.rd_congr (MemFree.settleAlt _ e p).regs]
  rfl

theorem farComplete_eq {s : State} {e : Nat} {q p : FarReq} {rest : List FarReq} (hq : (s.engAt e).far = q :: rest)
    (hp : ((beatsDone s e q).eng e).far = p :: rest) : s.farComplete e =
      (completed (beatsDone s e q) e p rest (completion ((beatsDone s e q).eng e) q p)).farResume e p.tag
        (completion ((beatsDone s e q).eng e) q p) := by
  unfold beatsDone at hp
  unfold State.farComplete
  simp only [hq, hp]
  cases rest <;> rfl

end Sys2Proof

namespace Sys2Proof

open Sys2Proof.Machine

/-- A far request that completes leaves the queue, its latency counts, and what its tag held goes on (R62, R63). -/
theorem farComplete_done {s : State} {e : Fin 32} {q : FarReq} {rest : List FarReq} (hfar : (s.eng e).far = q :: rest)
    (hevt : (s.eng e).inEvt = false) (hdr : (s.eng e).draining = none) :
    ((s.farComplete e).eng e).far.map FarReq.tag = rest.map FarReq.tag ∧
      (q.cont = false → (s.farComplete e).rdF (ENG_FARQ_LATMAX e) 12 0 = max (s.rdF (ENG_FARQ_LATMAX e) 12 0)
        (min (q.headAt + q.quads + 24 - q.issued) 8191)) ∧
      ((s.farComplete e).eng e).wait = (if (s.eng e).wait = .tag q.tag then .none else (s.eng e).wait) := by
  obtain ⟨hregs, hhead, hevt', hdr', hwait'⟩ := beatsDone_serving s e q
  obtain ⟨p, hp, hpq⟩ := hhead q rest hfar
  rw [farComplete_eq ((TimeOnly.engTo _ _).far.trans hfar) hp]
  have hcont : q.cont = false → completion ((beatsDone s e q).eng e) q p = q.headAt + q.quads + 24 := by
    intro h
    unfold completion
    rw [hpq]
    simp [h]
  generalize completion ((beatsDone s e q).eng e) q p = c at hcont ⊢
  generalize beatsDone s e q = t at *
  have heng := completed_eng t e p rest c
  have htag : p.tag = q.tag := by rw [hpq]
  have hissued : p.issued = q.issued := by rw [hpq]
  obtain ⟨hrregs, hrfar, hrwait⟩ := farResume_tag (s := completed t e p rest c) (e := e) (by rw [heng]; exact hevt'.trans hevt)
    (by rw [heng]; exact hdr'.trans hdr) p.tag c
  refine ⟨?_, fun h => ?_, ?_⟩
  · rw [hrfar, heng]
    exact dequeued_tag rest c
  · have he := e.isLt
    rw [State.rdF, State.rd_congr hrregs]
    refine (completed_latency t e p rest c).trans ?_
    rw [hcont h, hissued, State.rdF, State.rdF,
      hregs (ENG_FARQ_LATMAX e) (by simp only [ENG_FARQ_LATMAX]; omega) (by simp only [ENG_FARQ_LATMAX]; omega)]
  · rw [hrwait, heng, htag]
    dsimp only
    rw [hwait']

/-- Settles O30: a fill's words (`tapTransfer_fill`), a collection (`tapTransfer_collect`), a beat (`farBeat_moves`) and a
completion (`farComplete_done`). -/
theorem transfersMoveData : Obligations.TransfersMoveData := by
  refine ⟨fun s e x hx hcoll hwin hmig hfree => (gives_iff_of_done rfl).2 ?_,
    fun s e x hx hcoll hwin hfree => (gives_iff_of_done rfl).2 (tapTransfer_collect hx hcoll hwin hfree),
    fun s e t w q rest hat hturn hfar halt hf => (gives_iff_of_done rfl).2 ?_,
    fun s e q rest hfar hevt hdr => (gives_iff_of_done rfl).2 (farComplete_done hfar hevt hdr)⟩
  · obtain ⟨hmem, hregs, hrouter⟩ := tapTransfer_fill hx hcoll hwin hmig hfree
    intro t tap
    rw [State.settle_mem, hmem]
    refine ⟨fun i hi hcnt => ?_, fun a ha => ?_, hregs, hrouter⟩
    · refine putAll_same (fillPuts_apart s e x) ?_ _
      exact List.mem_map.2 ⟨_, mem_fillWords.2 ⟨i, hi, hcnt, rfl⟩, rfl⟩
    · refine putAll_byte (fun p hp => ?_) _
      obtain ⟨i, hi, hpi⟩ := fillPuts_within hp
      replace hpi : p.1 = quadAddr e (t.sb + x.pos) + 4 * i := hpi
      by_contra hin
      exact ha (a - quadAddr e (t.sb + x.pos)) (by omega) (by omega)
  · obtain ⟨hserved, hregs, hmoved⟩ := farBeat_moves hat hturn hfar halt hf
    refine ⟨hserved, hregs, fun k hk hb i hi => ⟨fun hg => ?_, fun hg => ?_⟩⟩
    · have h := hmoved k hk hb i hi
      rwa [pairOf, if_pos hg] at h
    · have h := hmoved k hk hb i hi
      rwa [pairOf, hg, if_neg Bool.false_ne_true] at h

end Sys2Proof

namespace Sys2Proof

/-! The fields of a word: what a field reads of a sum of shifted fields (R73 to R76, R90, R95, R96). -/

@[simp] theorem r16_val (i : Fin 16) : r16 i.val = i := by simp [r16]

@[simp] theorem r8_val (i : Fin 8) : r8 i.val = i := by simp [r8]

@[simp] theorem r4_val (i : Fin 4) : r4 i.val = i := by simp [r4]

@[simp] theorem guarded_true {α : Type} (x : α) : guarded true x = some x := rfl

@[simp] theorem guarded_eq_some {α : Type} {c : Bool} {x y : α} : guarded c x = some y ↔ c = true ∧ x = y := by
  cases c <;> simp [guarded]

/-- A field of a number written out. -/
@[simp] theorem fld_ofNat (n hi lo : Nat) [n.AtLeastTwo] :
    fld ofNat(n) hi lo = OfNat.ofNat n / 2 ^ lo % 2 ^ (hi + 1 - lo) := rfl

/-- A field reads what was put in it. -/
@[simp] theorem fld_put {x p hi lo : Nat} (hp : p = 2 ^ lo) (hx : x < 2 ^ (hi + 1 - lo)) : fld (x * p) hi lo = x := by
  rw [fld, hp, Nat.mul_div_cancel _ (Nat.two_pow_pos lo), Nat.mod_eq_of_lt hx]

@[simp] theorem fld_put_lowest {x hi : Nat} (hx : x < 2 ^ (hi + 1)) : fld x hi 0 = x := by
  simpa using fld_put (lo := 0) rfl hx

/-- What stands above a field does not reach it. -/
@[simp] theorem fld_add_above {a hi : Nat} (h : a % 2 ^ (hi + 1) = 0) (x lo : Nat) :
    fld (a + x) hi lo = fld x hi lo := by
  obtain ⟨c, rfl⟩ := Nat.dvd_of_mod_eq_zero h
  rcases Nat.lt_or_ge hi lo with hlo | hlo
  · simp only [fld, Nat.sub_eq_zero_of_le (Nat.succ_le_of_lt hlo), Nat.pow_zero, Nat.mod_one]
  · rw [fld, fld, ← Nat.mod_mul_right_div_self, ← Nat.mod_mul_right_div_self, ← Nat.pow_add,
      Nat.add_sub_cancel' (Nat.le_succ_of_le hlo), Nat.mul_add_mod]

/-- A field below all that was put in the word reads 0. -/
@[simp] theorem fld_empty {a hi : Nat} (h : a % 2 ^ (hi + 1) = 0) (lo : Nat) : fld a hi lo = 0 := by
  simpa [fld] using fld_add_above h 0 lo

/-- A field above all that was put in the word reads 0. -/
@[simp] theorem fld_above {x lo : Nat} (h : x < 2 ^ lo) (hi : Nat) : fld x hi lo = 0 := by
  rw [fld, Nat.div_eq_of_lt h, Nat.zero_mod]

/-- What stands below a field does not reach it. -/
@[simp] theorem fld_add_below {a x lo : Nat} (h : a % 2 ^ lo + x < 2 ^ lo) (hi : Nat) :
    fld (a + x) hi lo = fld a hi lo := by
  have hdiv : (a + x) / 2 ^ lo = a / 2 ^ lo := by
    conv_lhs => rw [← Nat.div_add_mod a (2 ^ lo), Nat.add_assoc, Nat.mul_add_div (Nat.two_pow_pos lo),
      Nat.div_eq_of_lt h, Nat.add_zero]
  rw [fld, fld, hdiv]

theorem toNat_bne_zero {n : Nat} (v : BitVec n) : (v.toNat != 0) = (v != 0) := by
  rw [Bool.eq_iff_iff, bne_iff_ne, bne_iff_ne, Ne, Ne, ← BitVec.toNat_inj]
  simp

end Sys2Proof

namespace Sys2Proof

open Sys2Proof.Machine

/-! Each slot's encoding decodes to its operation. -/

theorem decodeMem_encodeMem (op : MemOp) : decodeMem (encodeMem op) = some op := by
  cases op with
  | nop => rfl
  | stl r i j =>
    have hne : ((r.val + 8) * 32 + i.val * 4 + j.val) % 4096 ≠ 0 := by omega
    simp (disch := omega) [decodeMem, encodeMem, hne]
  | ldq r i j | ldw r i j | stq r i j | stw r i j | ldr r i j | ldl r i j | str r i j =>
    simp (disch := omega) [decodeMem, encodeMem]

theorem decodeCtl_encodeCtl {op : CtlOp} (h : op.wf = true) (hn : wideCtl op = false) :
    decodeCtl (encodeCtl op) = some op := by
  cases op with
  | nop | endSlice | rte | ei | di | gadv => rfl
  | rptw | jmp | setp | setnw | setlw | pget | pput => cases hn
  | rpt n =>
    have hne : (n.toNat != 0) = true := (toNat_bne_zero n).trans h
    simp (disch := omega) [decodeCtl, encodeCtl, hne]
  | gset j | clrf m | pwait t | addp i j | mtp i d | mtn i d | mtl i d | ldpq i q | setn i v | setl i v | bra rel
  | bc c rel | djn d rel =>
    simp (disch := omega) [decodeCtl, encodeCtl]

theorem decodeWide_encodeWide {op : CtlOp} (h : op.wf = true) (hw : wideCtl op = true) :
    decodeWide (encodeWide op) = some op := by
  cases op with
  | rptw n =>
    have hne : (n.toNat != 0) = true := (toNat_bne_zero n).trans h
    simp (disch := omega) [decodeWide, encodeWide, hne]
  | jmp pc | setp i a | setnw i v | setlw i v | pget t i s c | pput t i s c =>
    simp (disch := omega) [decodeWide, encodeWide]
  | _ => cases hw

theorem encodeMulT_lt (t : MulT) : encodeMulT t < 2 ^ 11 := by
  cases t <;> simp only [encodeMulT] <;> omega

theorem encodeMulT_mod (t : MulT) : encodeMulT t % 2 ^ 6 = 0 := by
  cases t <;> simp only [encodeMulT] <;> omega

theorem encodeRm_lt (rm : Rm) : encodeRm rm < 4 := by cases rm <;> decide

theorem encodeCond_lt (c : Cond) : encodeCond c < 8 := by cases c <;> decide

@[simp] theorem decodeRm_encodeRm (rm : Rm) : decodeRm (encodeRm rm) = some rm := by cases rm <;> rfl

@[simp] theorem decodeCond_encodeCond (c : Cond) : decodeCond (encodeCond c) = some c := by cases c <;> rfl

section

/-! The fields of formats R and I, and of M and A (R75). -/

variable {op low hi : Nat} (d s : Fin 16) (m : Fin 4)

@[simp] theorem fld_fmtR_op (hlow : low < 2 ^ 9) (hop : op < 2 ^ 6) : fld (fmtR op d s low) 22 17 = op := by
  simp (disch := omega) [fmtR]

@[simp] theorem fld_fmtR_d (hlow : low < 2 ^ 9) : fld (fmtR op d s low) 16 13 = d.val := by
  simp (disch := omega) [fmtR]

@[simp] theorem fld_fmtR_s (hlow : low < 2 ^ 9) : fld (fmtR op d s low) 12 9 = s.val := by
  simp (disch := omega) [fmtR]

@[simp] theorem fld_fmtR_low (hhi : hi ≤ 8) (lo : Nat) : fld (fmtR op d s low) hi lo = fld low hi lo := by
  have hdvd : 2 ^ (hi + 1) ∣ 2 ^ 9 := Nat.pow_dvd_pow 2 (by omega)
  exact fld_add_above (Nat.mod_eq_zero_of_dvd (hdvd.trans (by omega))) low lo

@[simp] theorem fld_fmtM_op (hlow : low < 2 ^ 11) (hop : op < 2 ^ 6) : fld (fmtM op m s.val + low) 22 17 = op := by
  simp (disch := omega) [fmtM]

@[simp] theorem fld_fmtM_m (hlow : low < 2 ^ 11) : fld (fmtM op m s.val + low) 16 15 = m.val := by
  simp (disch := omega) [fmtM]

@[simp] theorem fld_fmtM_s (hlow : low < 2 ^ 11) : fld (fmtM op m s.val + low) 14 11 = s.val := by
  simp (disch := omega) [fmtM]

@[simp] theorem fld_fmtM_low (hhi : hi ≤ 10) (lo : Nat) : fld (fmtM op m s.val + low) hi lo = fld low hi lo := by
  have hdvd : 2 ^ (hi + 1) ∣ 2 ^ 11 := Nat.pow_dvd_pow 2 (by omega)
  exact fld_add_above (Nat.mod_eq_zero_of_dvd (hdvd.trans (by simp only [fmtM]; omega))) low lo

end

@[simp] theorem decodeMulT_fmtM (op : Nat) (m : Fin 4) (s : Fin 16) (t : MulT) :
    decodeMulT (fmtM op m s.val + encodeMulT t) = some t := by
  cases t with
  | reg t => simp (disch := omega) [decodeMulT, encodeMulT]
  | g => simp (disch := omega) [decodeMulT, encodeMulT]

/-- Format K: an opcode of 0x30 and above is MOVI, whose low four bits hold part of the operands. -/
theorem decodeArith_formatK {a : Nat} (h : 0x30 ≤ fld a 22 17) : decodeArith a =
    some (.movi (r16 (fld a 19 16)) (BitVec.ofNat 16 (fld a 15 0)) (fld a 20 20 == 1)) := by
  unfold decodeArith
  dsimp only
  split
  case h_34 => rw [decide_eq_true h, guarded_true]
  all_goals omega

/-- The instructions that write an accumulator, in formats M and A. -/
theorem decodeArith_encodeArith_acc {op : ArithOp} (h : (arithAcc op).isSome = true) :
    decodeArith (encodeArith op) = some op := by
  cases op with
  | mac m s t | msb m s t | mpy m s t | mpyn m s t =>
    have hlt := encodeMulT_lt t
    have hmod := encodeMulT_mod t
    simp (disch := omega) [decodeArith, encodeArith]
  | macl m s t | msbl m s t => simp (disch := omega) [decodeArith, encodeArith]
  | clr m => simp (disch := omega) [decodeArith, encodeArith, fmtM]
  | lda m s => simp (disch := omega) [decodeArith, encodeArith, fmtM]
  | _ => cases h

theorem decodeArith_encodeArith {op : ArithOp} (h : op.wf = true) : decodeArith (encodeArith op) = some op := by
  cases op with
  | nop => rfl
  | mac | msb | mpy | mpyn | macl | msbl | clr | lda => exact decodeArith_encodeArith_acc rfl
  | ext d m sh rm =>
    have hlt := encodeRm_lt rm
    simp (disch := omega) [decodeArith, encodeArith, Nat.add_assoc (fmtM _ _ _)]
  | norm d c m =>
    have hne : d.val ≠ c.val := fun e => by simp [ArithOp.wf, Fin.ext e] at h
    simp (disch := omega) [decodeArith, encodeArith, hne]
  | sel d s t c =>
    have hlt := encodeCond_lt c
    simp (disch := omega) [decodeArith, encodeArith]
  | movi d imm high =>
    have hop : 0x30 ≤ fld (encodeArith (.movi d imm high)) 22 17 := by
      simp only [fld, encodeArith]
      split <;> omega
    rw [decodeArith_formatK hop]
    cases high <;> simp (disch := omega) [encodeArith]
  | add d s t | sub d s t | min d s t | max d s t | cmp s t | and d s t | or d s t | xor d s t | shl d s t | asr d s t
  | scale d s t | expt d s | abs d s | neg d s | mov d s | addi d s imm | cmpi s imm | shli d s imm | asri d s imm
  | lsri d s imm | bcst d s k =>
    simp (disch := omega) [decodeArith, encodeArith]

/-! The width of each slot's encoding (R73). -/

theorem encodeArith_lt (op : ArithOp) : encodeArith op < 2 ^ 23 := by
  cases op with
  | mac m s t | msb m s t | mpy m s t | mpyn m s t =>
    have hlt := encodeMulT_lt t
    simp only [encodeArith, fmtM]
    omega
  | ext d m sh rm =>
    have hlt := encodeRm_lt rm
    simp only [encodeArith, fmtM]
    omega
  | sel d s t c =>
    have hlt := encodeCond_lt c
    simp only [encodeArith, fmtR]
    omega
  | movi d imm high =>
    simp only [encodeArith]
    split <;> omega
  | _ =>
    simp only [encodeArith, fmtM, fmtR]
    omega

theorem encodeMem_lt (op : MemOp) : encodeMem op < 2 ^ 12 := by
  cases op <;> simp only [encodeMem] <;> omega

theorem encodeCtl_lt (op : CtlOp) : encodeCtl op < 2 ^ 16 := by
  cases op <;> simp only [encodeCtl] <;> omega

theorem encodeWide_lt (op : CtlOp) : encodeWide op < 2 ^ 28 := by
  cases op <;> simp only [encodeWide] <;> omega

/-- The slots stand side by side in a bundle's word. -/
theorem toNat_encodeBundle (b : Bundle) : (encodeBundle b).toNat =
    if wideCtl b.c then 2 ^ 63 + (encodeArith b.a * 2 ^ 40 + encodeMem b.x * 2 ^ 28) + encodeWide b.c
    else encodeArith b.a * 2 ^ 40 + encodeMem b.x * 2 ^ 28 + encodeMem b.y * 2 ^ 16 + encodeCtl b.c := by
  have ha := encodeArith_lt b.a
  have hx := encodeMem_lt b.x
  have hy := encodeMem_lt b.y
  have hc := encodeCtl_lt b.c
  have hw := encodeWide_lt b.c
  rw [encodeBundle, BitVec.toNat_ofNat]
  exact Nat.mod_eq_of_lt (by split <;> omega)

theorem decodeBundle_encodeBundle {b : Bundle} (h : b.wf = true) : decodeBundle (encodeBundle b) = some b := by
  obtain ⟨a, x, y, c⟩ := b
  simp only [Bundle.wf, Bool.and_eq_true, Bool.or_eq_true, Bool.not_eq_true', beq_iff_eq] at h
  obtain ⟨⟨ha, hc⟩, hy⟩ := h
  have hla := encodeArith_lt a
  have hlx := encodeMem_lt x
  have hly := encodeMem_lt y
  have hlc := encodeCtl_lt c
  have hlw := encodeWide_lt c
  unfold decodeBundle
  rw [toNat_encodeBundle]
  cases hw : wideCtl c with
  | false =>
    simp (disch := omega) [decodeArith_encodeArith ha, decodeMem_encodeMem, decodeCtl_encodeCtl hc hw]
  | true =>
    obtain rfl : y = .nop := hy.resolve_left (by simp [hw])
    simp (disch := omega) [decodeArith_encodeArith ha, decodeMem_encodeMem, decodeWide_encodeWide hc hw]

end Sys2Proof

namespace Sys2Proof

open Sys2Proof.Machine

/-! What decodes is well formed (R77, R95, R96, R100, R104). -/

theorem r16_ne {i j : Nat} (hi : i < 16) (hj : j < 16) (h : i ≠ j) : r16 i ≠ r16 j := by
  refine fun e => h ?_
  simpa [r16, Nat.mod_eq_of_lt hi, Nat.mod_eq_of_lt hj] using congrArg Fin.val e

theorem fld_lt (w hi lo : Nat) : fld w hi lo < 2 ^ (hi + 1 - lo) := Nat.mod_lt _ (Nat.two_pow_pos _)

/-- NORM alone has a forbidden form, which its decoding rules out. -/
theorem decodeArith_wf {a : Nat} {op : ArithOp} (h : decodeArith a = some op) : op.wf = true := by
  cases op with
  | norm d c m =>
    unfold decodeArith at h
    dsimp only at h
    split at h
    case h_11 =>
      rw [guarded_eq_some, Bool.and_eq_true, bne_iff_ne] at h
      obtain ⟨⟨-, hne⟩, heq⟩ := h
      cases heq
      exact bne_iff_ne.2 (r16_ne (fld_lt a 14 11) (fld_lt a 10 7) hne)
    all_goals simp at h
  | _ => rfl

theorem ofNat_bne_zero {n v : Nat} (hlt : v < 2 ^ n) (h : (v != 0) = true) : (BitVec.ofNat n v != 0) = true := by
  rw [← toNat_bne_zero, BitVec.toNat_ofNat, Nat.mod_eq_of_lt hlt]
  exact h

theorem decodeCtl_wf {c : Nat} {op : CtlOp} (h : decodeCtl c = some op) : op.wf = true ∧ wideCtl op = false := by
  unfold decodeCtl at h
  dsimp only at h
  split at h
  · split at h
    case h_8 =>
      cases h
      exact ⟨rfl, rfl⟩
    case h_14 => cases h
    all_goals
      rw [guarded_eq_some] at h
      obtain ⟨-, rfl⟩ := h
      exact ⟨rfl, rfl⟩
  · cases h
    exact ⟨rfl, rfl⟩
  · split at h <;> cases h <;> exact ⟨rfl, rfl⟩
  · split at h
    case h_4 =>
      rw [guarded_eq_some] at h
      obtain ⟨hne, rfl⟩ := h
      exact ⟨ofNat_bne_zero (fld_lt c 11 0) hne, rfl⟩
    all_goals
      cases h
      exact ⟨rfl, rfl⟩

theorem decodeWide_wf {w : Nat} {op : CtlOp} (h : decodeWide w = some op) : op.wf = true := by
  unfold decodeWide at h
  dsimp only at h
  split at h
  case h_2 =>
    rw [guarded_eq_some, Bool.and_eq_true] at h
    obtain ⟨⟨-, hne⟩, rfl⟩ := h
    exact ofNat_bne_zero (fld_lt w 15 0) hne
  case h_9 => cases h
  all_goals
    rw [guarded_eq_some] at h
    obtain ⟨-, rfl⟩ := h
    rfl

theorem decodeBundle_wf {w : DWord} {b : Bundle} (h : decodeBundle w = some b) : b.wf = true := by
  unfold decodeBundle at h
  dsimp only at h
  split at h
  case h_2 => cases h
  case h_1 a x ha hx =>
    split at h
    · split at h
      case h_2 => cases h
      case h_1 y c hy hc =>
        cases h
        obtain ⟨hwf, hn⟩ := decodeCtl_wf hc
        simp [Bundle.wf, decodeArith_wf ha, hwf, hn]
    · obtain ⟨c, hc, rfl⟩ := Option.map_eq_some_iff.1 h
      simp [Bundle.wf, decodeArith_wf ha, decodeWide_wf hc]

/-- Settles O58: `decodeBundle_encodeBundle` and `decodeBundle_wf`. -/
theorem bundleCodesRoundTrip : Obligations.BundleCodesRoundTrip :=
  ⟨fun _ h => decodeBundle_encodeBundle h, fun _ _ h => decodeBundle_wf h⟩

/-- Settles O60: the decoder evaluated on each word. -/
theorem bundleWordsDecode : Obligations.BundleWordsDecode := by
  unfold Obligations.BundleWordsDecode
  decide

end Sys2Proof

namespace Sys2Proof

open Sys2Proof.Machine

/-! What the arithmetic slot of an issuing bundle puts in flight is all that goes in flight for it (R55, R86). -/

/-- What follows a bundle with which no handler returns leaves the results in flight as they are. -/
theorem tail_flight_stays (s : State) (e : Nat) (fin : Bool) :
    ((s.tail e false fin).eng e).flight = (s.eng e).flight := by
  have hstop : ∀ (t : State) (c : Bool) (f : SliceBlk → SliceBlk),
      ((if c then t.stopSlice e f else t).eng e).flight = (t.eng e).flight := by
    intro t c f
    split
    · exact stopSlice_flight t e f
    · rfl
  exact (hstop _ _ _).trans (hstop _ _ _)

/-- A bundle with which no handler returns leaves in flight what its slots put there. -/
theorem issue_inFlight {s : State} {e : Fin 32} {b : Bundle} (hready : Ready s e b)
    (hret : (issueEng s e b).returns = false) :
    InFlight s (s.issue e (some b)).settle e b (arithLatency b.a)
      (arithLandings b.a (arithOut b.a (issueEng s e b).rs ((issueState s e b).gOf e) (issueEng s e b).cyc)) := by
  refine (inFlight_slots s e b).of_flight ?_
  rw [State.eng_settle, ready_issue hready, issueEffects_eq, issueState_eng, hret, tail_flight_stays,
    State.eng_updEng_same]
  exact flowNext_flight _ _ _

@[simp] theorem arith_fit (b : Bundle) : b.fit.a = b.a := by
  unfold Bundle.fit
  split <;> rfl

/-- The results of a bundle's arithmetic slot land after its latency, and nothing else of the slot is in flight. -/
theorem gives_arith {c : Instr} {s : State} {e : Fin 32} {w : Bundle} {op : ArithOp} {n : Nat} {o : L4 LaneOut}
    {xs : List Landing} (hc : c.bundle? = some (e, Bundle.fit { w with a := op }))
    (hready : Ready s e (Bundle.fit { w with a := op })) (hlat : arithLatency op = n) :
    let b := Bundle.fit { w with a := op }
    let g := issueEng s e b
    arithOut op g.rs ((issueState s e b).gOf e) g.cyc = o → arithLandings op o = xs →
    Gives c s fun u => (∀ x ∈ xs, Lands u e g n x) ∧ (g.returns = false → InFlight s u e b n xs) := by
  intro b g hout hxs
  have ha : b.a = op := arith_fit _
  subst hlat hout hxs
  refine (gives_bundle hc).2 ⟨fun x hx => ?_, fun hret => ?_⟩
  · have h := issue_lands hready (x := x) (ha.symm ▸ hx)
    rwa [ha] at h
  · have h := issue_inFlight hready hret
    rwa [ha] at h

/-! The landings of the arithmetic slot from its results in each lane (R78, R86, R87). -/

@[simp] theorem L4.map_of {α β : Type} (f : α → β) (v : Fin 4 → α) : (L4.of v).map f = L4.of fun k => f (v k) := rfl

theorem laneBits_of_eq_zero (f : Fin 4 → Bool) : laneBits (L4.of f) = 0 ↔ ¬∃ k, f k = true := by
  constructor
  · rintro h ⟨k, hk⟩
    have hbit := testBit_laneBits (L4.of f) k
    rw [h, Nat.zero_testBit, L4.get_of, hk] at hbit
    cases hbit
  · intro h
    have hf : f = fun _ => false := funext fun k => by simpa using not_exists.1 h k
    rw [hf]
    rfl

/-- An instruction that writes no register but `d`, seen two bundles later. -/
structure WritesWord (op : ArithOp) (d : Fin 16) : Prop where
  dest : arithDest op = some d
  dest2 : arithDest2 op = none
  acc : arithAcc op = none
  latency : arithLatency op = 2

/-- An instruction that writes no register but the accumulator `m`, seen `n` bundles later. -/
structure WritesAcc (op : ArithOp) (m : Fin 4) (n : Nat) : Prop where
  dest : arithDest op = none
  dest2 : arithDest2 op = none
  acc : arithAcc op = some m
  latency : arithLatency op = n

theorem arithLandings_word {op : ArithOp} {d : Fin 16} (hop : WritesWord op d) (f : Fin 4 → Word)
    (sat : Fin 4 → Bool) :
    arithLandings op (L4.of fun k => .res (f k) (sat k)) =
      [.d d (L4.of fun k => some (f k)), .zn (L4.of fun k => f k == 0) (L4.of fun k => (f k).msb)] ++
        if (∃ k, sat k = true) then [.sticky (L4.all false) (L4.of sat)] else [] := by
  have hgov : laneBits (L4.of fun _ => false) = 0 := rfl
  unfold arithLandings
  rw [hop.dest, hop.dest2, hop.acc]
  simp only [L4.map_of, LaneOut.res, hgov, Nat.zero_add, laneBits_of_eq_zero, ite_not]
  rfl

theorem arithLandings_acc {op : ArithOp} {m : Fin 4} {n : Nat} (hop : WritesAcc op m n) (r : Fin 4 → Option AccV × Bool) :
    arithLandings op (L4.of fun k => .acc (r k)) =
      [.a m (L4.of fun k => (r k).1)] ++
        if (∃ k, (r k).2 = true) then [.sticky (L4.of fun k => (r k).2) (L4.all false)] else [] := by
  have hsat : laneBits (L4.of fun _ => false) = 0 := rfl
  unfold arithLandings
  rw [hop.dest, hop.dest2, hop.acc]
  simp only [L4.map_of, LaneOut.acc, hsat, Nat.add_zero, laneBits_of_eq_zero, ite_not]
  rfl

theorem arithLandings_load {op : ArithOp} {m : Fin 4} {n : Nat} (hop : WritesAcc op m n) (v : Fin 4 → AccV) :
    arithLandings op (L4.of fun k => { a := some (v k) }) = [.a m (L4.of fun k => some (v k))] := by
  unfold arithLandings
  rw [hop.dest, hop.dest2, hop.acc]
  rfl

/-! The arithmetic of one lane: saturation and accumulation (R79, R86). -/

theorem clampBits_eq (n : Nat) (v : Int) : clampBits n v = max (-(2 ^ (n - 1))) (min (2 ^ (n - 1) - 1) v) := by
  have hpos : (0 : Int) < 2 ^ (n - 1) := by positivity
  unfold clampBits
  omega

theorem outOfBits_eq (n : Nat) (v : Int) :
    outOfBits n v = (decide (v < -(2 ^ (n - 1))) || decide (2 ^ (n - 1) - 1 < v)) := Bool.or_comm _ _

theorem sat32_eq (v : Int) : sat32 v = (clamp32 v, over32 v) := by
  unfold sat32
  rw [clampBits_eq, outOfBits_eq]
  rfl

theorem accAdd_eq (a : AccV) (q : Int) : accAdd a q = (accSum a q, accOver a q) := by
  unfold accAdd accSum accOver
  simp only [clampBits_eq, outOfBits_eq]
  cases a.lock <;> rfl

/-- SCALE shifts by an exponent clamped to its range (R85). -/
theorem scaleWord_eq (x t : Word) : scaleWord x t =
    (if 0 ≤ scaleBy t then clamp32 (x.toInt * 2 ^ (scaleBy t).toNat)
      else BitVec.ofInt 32 (x.toInt / 2 ^ (-(scaleBy t)).toNat),
     decide (0 ≤ scaleBy t) && over32 (x.toInt * 2 ^ (scaleBy t).toNat)) := by
  have hk : (if t.toInt < -32 then -32 else if t.toInt > 31 then 31 else t.toInt) = scaleBy t := by
    unfold scaleBy
    omega
  unfold scaleWord
  rw [hk]
  dsimp only
  split
  · next h => rw [sat32_eq, decide_eq_true h, Bool.true_and]
  · next h => rw [decide_eq_false h, Bool.false_and, floorDiv, Nat.cast_pow, Nat.cast_ofNat]

/-- EXT is exact before its final rounding (R81). -/
theorem extWord_eq (r : RegSet) (m k : Fin 4) (sh : BitVec 5) (rm : Rm) :
    extWord (r.aL m k).v sh rm (dithOf (lfsrStep (r.dith.get k))) =
      (clamp32 (extRounded r m k sh rm), over32 (extRounded r m k sh rm)) := by
  rw [← sat32_eq]
  cases rm with
  | rne | tpdf => rfl
  | trunc => simp only [extWord, extRounded, extValue, floorDiv, Nat.cast_pow, Nat.cast_ofNat]

@[simp] theorem L4.get_map {α β : Type} (f : α → β) (v : L4 α) (k : Fin 4) : (v.map f).get k = f (v.get k) := by
  match k with
  | 0 | 1 | 2 | 3 => rfl

/-! From what one lane computes to what a bundle's statement says of it. -/

theorem arithOut_of_lane {op : ArithOp} {r : RegSet} {g : L4 Word} {c : Nat} {f : Fin 4 → LaneOut}
    (h : ∀ start k, arithLane op r g start (r.dith.map lfsrStep) k = f k) : arithOut op r g c = L4.of f :=
  congrArg L4.of (funext (h _))

/-- An accumulation starts from the accumulate path (R57). -/
theorem arithOut_acc {op : ArithOp} {m : Fin 4} (hacc : arithAcc op = some m) {r : RegSet} {g : L4 Word} {c : Nat}
    {f : Fin 4 → LaneOut} (h : ∀ k, arithLane op r g (pathStart r m c) (r.dith.map lfsrStep) k = f k) :
    arithOut op r g c = L4.of f := by
  unfold arithOut
  rw [hacc]
  exact congrArg L4.of (funext h)

section

variable {c : Instr} {s : State} {e : Fin 32} {w : Bundle} {op : ArithOp}
  (hc : c.bundle? = some (e, Bundle.fit { w with a := op }))
include hc

theorem wordResult_of_lane {d : Fin 16} {f : RegSet → Fin 4 → Word} {sat : RegSet → Fin 4 → Bool}
    (hop : WritesWord op d)
    (hlane : ∀ r g start k, arithLane op r g start (r.dith.map lfsrStep) k = .res (f r k) (sat r k)) :
    WordResult c s e (Bundle.fit { w with a := op }) d f sat := by
  intro hready
  have h := gives_arith hc hready hop.latency (arithOut_of_lane fun st k => hlane _ _ st k) (arithLandings_word hop _ _)
  exact h.imp fun u ⟨hland, hfl⟩ => ⟨hland _ (by simp), hland _ (by simp), fun hsat => hland _ (by simp [hsat]), hfl⟩

theorem accResult_of_lane {m : Fin 4} {q : RegSet → L4 Word → Fin 4 → Int} (hop : WritesAcc op m 4)
    (hlane : ∀ r g start dith k, arithLane op r g start dith k = .acc (accAdd (start.get k) (q r g k))) :
    AccResult c s e (Bundle.fit { w with a := op }) m q := by
  intro hready
  have h := gives_arith hc hready hop.latency
    (arithOut_acc hop.acc fun k => (hlane _ _ _ _ k).trans (congrArg LaneOut.acc (accAdd_eq _ _)))
    (arithLandings_acc hop _)
  exact h.imp fun u ⟨hland, hfl⟩ => ⟨hland _ (by simp), fun hgov => hland _ (by simp [hgov]), hfl⟩

theorem accLoad_of_lane {n : Nat} {m : Fin 4} {q : RegSet → L4 Word → Fin 4 → Int} (hop : WritesAcc op m n)
    (hlane : ∀ r g start dith k, arithLane op r g start dith k = { a := some ⟨BitVec.ofInt 80 (q r g k), false⟩ }) :
    AccLoad c s e (Bundle.fit { w with a := op }) n m q := by
  intro hready
  have h := gives_arith hc hready hop.latency (arithOut_of_lane fun st k => hlane _ _ st _ k) (arithLandings_load hop _)
  exact h.imp fun u ⟨hland, hfl⟩ => ⟨hland _ (List.mem_singleton_self _), hfl⟩

end

/-- Settles O2: each instruction saturates its exact result once. -/
theorem saturatingArithmeticResults : Obligations.SaturatingArithmeticResults := by
  unfold Obligations.SaturatingArithmeticResults
  intro s e w
  refine ⟨fun d x t => wordResult_of_lane rfl ⟨rfl, rfl, rfl, rfl⟩ fun r g st k => ?_,
    fun d x t => wordResult_of_lane rfl ⟨rfl, rfl, rfl, rfl⟩ fun r g st k => ?_,
    fun d x => wordResult_of_lane rfl ⟨rfl, rfl, rfl, rfl⟩ fun r g st k => ?_,
    fun d x => wordResult_of_lane rfl ⟨rfl, rfl, rfl, rfl⟩ fun r g st k => ?_,
    fun d x t => wordResult_of_lane rfl ⟨rfl, rfl, rfl, rfl⟩ fun r g st k => ?_⟩
  · simp only [arithLane, sat32_eq]
  · simp only [arithLane, sat32_eq]
  · simp only [arithLane, sat32_eq, Int.natCast_natAbs]
  · simp only [arithLane, sat32_eq]
  · simp only [arithLane, scaleWord_eq]

/-- Settles O5: `extWord_eq` in every lane. -/
theorem extractResult : Obligations.ExtractResult := by
  unfold Obligations.ExtractResult
  intro s e d m sh rm w
  refine wordResult_of_lane rfl ⟨rfl, rfl, rfl, rfl⟩ fun r g st k => ?_
  simp only [arithLane, L4.get_map, extWord_eq]

/-- Settles O6: an accumulation is `accAdd_eq` in every lane, a load is its value. -/
theorem accumulatorResults : Obligations.AccumulatorResults := by
  unfold Obligations.AccumulatorResults
  intro s e w
  exact ⟨fun m x t => accResult_of_lane rfl ⟨rfl, rfl, rfl, rfl⟩ fun _ _ _ _ _ => rfl,
    fun m x t => accResult_of_lane rfl ⟨rfl, rfl, rfl, rfl⟩ fun _ _ _ _ _ => rfl,
    fun m x t => accResult_of_lane rfl ⟨rfl, rfl, rfl, rfl⟩ fun _ _ _ _ _ => rfl,
    fun m x t => accResult_of_lane rfl ⟨rfl, rfl, rfl, rfl⟩ fun _ _ _ _ _ => rfl,
    fun m x t => accLoad_of_lane rfl ⟨rfl, rfl, rfl, rfl⟩ fun _ _ _ _ _ => rfl,
    fun m x t => accLoad_of_lane rfl ⟨rfl, rfl, rfl, rfl⟩ fun _ _ _ _ _ => rfl,
    fun m => accLoad_of_lane rfl ⟨rfl, rfl, rfl, rfl⟩ fun _ _ _ _ _ => rfl,
    fun m x => accLoad_of_lane rfl ⟨rfl, rfl, rfl, rfl⟩ fun _ _ _ _ _ => rfl⟩

end Sys2Proof

namespace Sys2Proof

open Sys2Proof.Machine

/-! The plain words of one lane (R76, R78, R86). -/

theorem minWord_eq (x t : Word) : (if x.toInt ≤ t.toInt then x else t) = BitVec.ofInt 32 (min x.toInt t.toInt) := by
  split
  · next h => rw [min_eq_left h, BitVec.ofInt_toInt]
  · next h => rw [min_eq_right (by omega), BitVec.ofInt_toInt]

theorem maxWord_eq (x t : Word) : (if t.toInt ≤ x.toInt then x else t) = BitVec.ofInt 32 (max x.toInt t.toInt) := by
  split
  · next h => rw [max_eq_left h, BitVec.ofInt_toInt]
  · next h => rw [max_eq_right (by omega), BitVec.ofInt_toInt]

theorem shiftLeft_eq_ofNat (x : Word) (n : Nat) : x <<< n = BitVec.ofNat 32 (x.toNat * 2 ^ n) := by
  apply BitVec.eq_of_toNat_eq
  rw [BitVec.toNat_shiftLeft, Nat.shiftLeft_eq, BitVec.toNat_ofNat]

theorem sshiftRight_eq_ofInt (x : Word) (n : Nat) : x.sshiftRight n = BitVec.ofInt 32 (x.toInt / 2 ^ n) := by
  rw [BitVec.sshiftRight, Int.shiftRight_eq_div_pow, Nat.cast_pow, Nat.cast_ofNat]

theorem ushiftRight_eq_ofNat (x : Word) (n : Nat) : x >>> n = BitVec.ofNat 32 (x.toNat / 2 ^ n) := by
  apply BitVec.eq_of_toNat_eq
  rw [BitVec.toNat_ushiftRight, Nat.shiftRight_eq_div_pow, BitVec.toNat_ofNat,
    Nat.mod_eq_of_lt (lt_of_le_of_lt (Nat.div_le_self _ _) x.isLt)]

/-- The amount of a register shift: the low five bits (R86). -/
theorem bits_shift (t : Word) : bits t 4 0 = t.toNat % 32 := by
  simp [bits]

theorem add_signExtend_eq_ofInt (x : Word) (imm : BitVec 9) :
    x + imm.signExtend 32 = BitVec.ofInt 32 (x.toInt + imm.toInt) := by
  rw [BitVec.ofInt_add, BitVec.ofInt_toInt, BitVec.signExtend]

/-- The high form of MOVI keeps the low half of the register (R86). -/
theorem append_low_eq_ofNat (imm : BitVec 16) (x : Word) :
    imm ++ x.extractLsb' 0 16 = BitVec.ofNat 32 (imm.toNat * 2 ^ 16 + x.toNat % 2 ^ 16) := by
  apply BitVec.eq_of_toNat_eq
  have hlow : x.toNat % 2 ^ 16 < 2 ^ 16 := Nat.mod_lt _ (by decide)
  have hsum : imm.toNat * 2 ^ 16 + x.toNat % 2 ^ 16 < 2 ^ 32 := by omega
  rw [BitVec.toNat_append, BitVec.extractLsb'_toNat, Nat.shiftRight_zero, ← Nat.shiftLeft_add_eq_or_of_lt hlow,
    Nat.shiftLeft_eq, BitVec.toNat_ofNat, Nat.mod_eq_of_lt hsum]

/-- The signed comparison of two words (R86). -/
theorem znCmp_eq (x t : Word) : znCmp x.toInt t.toInt = (x == t, decide (x.toInt < t.toInt)) := by
  unfold znCmp
  simp only [BitVec.toInt_inj, beq_eq_decide]

/-! Normalisation (R84, R85). -/

theorem isSignCount_redundantSigns {n : Nat} (hn : 0 < n) (w : BitVec n) : IsSignCount w (redundantSigns w) := by
  unfold redundantSigns upTo
  cases hfind : (List.range n).find? (fun i => w.getLsbD (n - 1 - i) != w.msb) with
  | none =>
    have hall := List.find?_range_eq_none.1 hfind
    simp only [Option.getD_none]
    refine ⟨by omega, fun i hi => ?_, fun h => absurd h (by omega)⟩
    simpa using hall i (by omega)
  | some i =>
    obtain ⟨hdiff, hmem, hbefore⟩ := List.find?_range_eq_some.1 hfind
    have hlt : i < n := List.mem_range.1 hmem
    have hpos : 0 < i := by
      refine Nat.pos_of_ne_zero fun h => ?_
      subst h
      simp [BitVec.msb_eq_getLsbD_last] at hdiff
    simp only [Option.getD_some]
    refine ⟨by omega, fun j hj => ?_, fun _ => ?_⟩
    · simpa using hbefore j (by omega)
    · rw [Nat.sub_add_cancel hpos]
      simpa using hdiff

/-- A count of redundant sign bits is never negative as a word. -/
theorem arithLandings_expt (d x : Fin 16) {r : Fin 4 → Nat} (hr : ∀ k, r k < 32) :
    arithLandings (.expt d x) (L4.of fun k => .res (BitVec.ofNat 32 (r k))) =
      [.d d (L4.of fun k => some (BitVec.ofNat 32 (r k))), .zn (L4.of fun k => r k == 0) (L4.all false)] := by
  have hz : ∀ k, (BitVec.ofNat 32 (r k) == 0) = (r k == 0) := by
    intro k
    rw [Bool.eq_iff_iff, beq_iff_eq, beq_iff_eq, ← BitVec.toNat_inj, BitVec.toNat_ofNat,
      Nat.mod_eq_of_lt ((hr k).trans (by decide))]
    rfl
  have hn : ∀ k, (BitVec.ofNat 32 (r k)).msb = false := by
    intro k
    have hk := hr k
    rw [BitVec.msb_eq_false_iff_two_mul_lt, BitVec.toNat_ofNat]
    omega
  simp only [← hz]
  rw [show (L4.all false : L4 Bool) = L4.of fun k => (BitVec.ofNat 32 (r k)).msb by simp only [hn]; rfl]
  rfl

theorem arithLandings_norm (d c : Fin 16) (m : Fin 4) (f g : Fin 4 → Word) :
    arithLandings (.norm d c m) (L4.of fun k => { d := some (f k), c := some (g k), zn := some (znOf (f k)) }) =
      [.d d (L4.of fun k => some (f k)), .d c (L4.of fun k => some (g k)),
        .zn (L4.of fun k => f k == 0) (L4.of fun k => (f k).msb)] := rfl

/-- Settles O4: the number that both count is `redundantSigns`. -/
theorem normaliseResults : Obligations.NormaliseResults := by
  unfold Obligations.NormaliseResults
  intro s e w
  refine ⟨fun d x => ?_, fun d c m => ?_⟩
  · intro b hready
    have hcount := fun k => isSignCount_redundantSigns (by decide) ((issueEng s e b).rs.dL x k)
    have h := gives_arith (c := .expt e d x w) rfl hready rfl (arithOut_of_lane fun _ _ => rfl)
      (arithLandings_expt d x fun k => (hcount k).1)
    exact h.imp fun u ⟨hland, hfl⟩ => ⟨_, hcount, hland _ (.head _), hland _ (.tail _ (.head _)), hfl⟩
  · intro b hready
    have hcount := fun k => isSignCount_redundantSigns (by decide) ((issueEng s e b).rs.aL m k).v
    have h := gives_arith (c := .norm e d c m w) rfl hready rfl (arithOut_of_lane fun _ _ => rfl)
      (arithLandings_norm d c m _ _)
    exact h.imp fun u ⟨hland, hfl⟩ =>
      ⟨_, hcount, hland _ (.head _), hland _ (.tail _ (.head _)), hland _ (.tail _ (.tail _ (.head _))), hfl⟩

/-! The instructions with one result: a word without flags, or flags without a word (R76, R86). -/

/-- An instruction with one result, seen two bundles later. -/
theorem gives_single {c : Instr} {s : State} {e : Fin 32} {w : Bundle} {op : ArithOp} {y : Landing}
    (hc : c.bundle? = some (e, Bundle.fit { w with a := op })) (hready : Ready s e (Bundle.fit { w with a := op }))
    (hlat : arithLatency op = 2) :
    let b := Bundle.fit { w with a := op }
    let g := issueEng s e b
    arithLandings op (arithOut op g.rs ((issueState s e b).gOf e) g.cyc) = [y] →
    Gives c s fun u => Lands u e g 2 y ∧ (g.returns = false → InFlight s u e b 2 [y]) := by
  intro b g hy
  exact (gives_arith hc hready hlat rfl hy).imp fun u ⟨hland, hfl⟩ => ⟨hland _ (List.mem_singleton_self _), hfl⟩

/-- SEL writes one of two registers and no flag. -/
theorem landings_sel (d x t : Fin 16) (cond : Cond) (r : RegSet) (g : L4 Word) (c : Nat) :
    arithLandings (.sel d x t cond) (arithOut (.sel d x t cond) r g c) =
      [.d d (L4.of fun k => some (if condHolds cond (srZ r.sr k) (srN r.sr k) then r.dL x k else r.dL t k))] := rfl

/-- CMP writes no register. -/
theorem landings_cmp (x t : Fin 16) (r : RegSet) (g : L4 Word) (c : Nat) :
    arithLandings (.cmp x t) (arithOut (.cmp x t) r g c) = [.zn (L4.of fun k => r.dL x k == r.dL t k)
      (L4.of fun k => decide ((r.dL x k).toInt < (r.dL t k).toInt))] := by
  have h : arithLandings (.cmp x t) (arithOut (.cmp x t) r g c) =
      [.zn (L4.of fun k => (znCmp (r.dL x k).toInt (r.dL t k).toInt).1)
        (L4.of fun k => (znCmp (r.dL x k).toInt (r.dL t k).toInt).2)] := rfl
  simpa only [znCmp_eq] using h

theorem landings_cmpi (x : Fin 16) (imm : BitVec 9) (r : RegSet) (g : L4 Word) (c : Nat) :
    arithLandings (.cmpi x imm) (arithOut (.cmpi x imm) r g c) = [.zn (L4.of fun k => r.dL x k == imm.signExtend 32)
      (L4.of fun k => decide ((r.dL x k).toInt < imm.toInt))] := by
  have hval : (imm.signExtend 32).toInt = imm.toInt := BitVec.toInt_signExtend_of_le (by decide)
  have h : arithLandings (.cmpi x imm) (arithOut (.cmpi x imm) r g c) =
      [.zn (L4.of fun k => (znCmp (r.dL x k).toInt imm.toInt).1)
        (L4.of fun k => (znCmp (r.dL x k).toInt imm.toInt).2)] := rfl
  simpa only [← hval, znCmp_eq] using h

/-- Settles O3: the word of each instruction in one lane, and the single results of SEL, CMP and CMPI. -/
theorem plainWordResults : Obligations.PlainWordResults := by
  unfold Obligations.PlainWordResults
  intro s e w
  refine ⟨fun d x t => wordResult_of_lane rfl ⟨rfl, rfl, rfl, rfl⟩ fun r g st k => ?_,
    fun d x t => wordResult_of_lane rfl ⟨rfl, rfl, rfl, rfl⟩ fun r g st k => ?_,
    fun d x t => wordResult_of_lane rfl ⟨rfl, rfl, rfl, rfl⟩ fun r g st k => rfl,
    fun d x t => wordResult_of_lane rfl ⟨rfl, rfl, rfl, rfl⟩ fun r g st k => rfl,
    fun d x t => wordResult_of_lane rfl ⟨rfl, rfl, rfl, rfl⟩ fun r g st k => rfl,
    fun d x t => wordResult_of_lane rfl ⟨rfl, rfl, rfl, rfl⟩ fun r g st k => ?_,
    fun d x t => wordResult_of_lane rfl ⟨rfl, rfl, rfl, rfl⟩ fun r g st k => ?_,
    fun d x imm => wordResult_of_lane rfl ⟨rfl, rfl, rfl, rfl⟩ fun r g st k => ?_,
    fun d x imm => wordResult_of_lane rfl ⟨rfl, rfl, rfl, rfl⟩ fun r g st k => ?_,
    fun d x imm => wordResult_of_lane rfl ⟨rfl, rfl, rfl, rfl⟩ fun r g st k => ?_,
    fun d x imm => wordResult_of_lane rfl ⟨rfl, rfl, rfl, rfl⟩ fun r g st k => ?_,
    fun d x => wordResult_of_lane rfl ⟨rfl, rfl, rfl, rfl⟩ fun r g st k => rfl,
    fun d x j => wordResult_of_lane rfl ⟨rfl, rfl, rfl, rfl⟩ fun r g st k => rfl,
    fun d imm => wordResult_of_lane rfl ⟨rfl, rfl, rfl, rfl⟩ fun r g st k => rfl,
    fun d imm => wordResult_of_lane rfl ⟨rfl, rfl, rfl, rfl⟩ fun r g st k => ?_,
    fun d x t cond => ?_, fun x t hready => gives_single rfl hready rfl (landings_cmp x t _ _ _),
    fun x imm hready => gives_single rfl hready rfl (landings_cmpi x imm _ _ _)⟩
  · simp only [arithLane, minWord_eq]
  · simp only [arithLane, maxWord_eq]
  · simp only [arithLane, bits_shift, shiftLeft_eq_ofNat]
  · simp only [arithLane, bits_shift, sshiftRight_eq_ofInt]
  · simp only [arithLane, add_signExtend_eq_ofInt]
  · simp only [arithLane, shiftLeft_eq_ofNat]
  · simp only [arithLane, sshiftRight_eq_ofInt]
  · simp only [arithLane, ushiftRight_eq_ofNat]
  · simp only [arithLane, append_low_eq_ofNat, if_true]
  · intro b hready
    have h := gives_single (c := .sel e d x t cond w) rfl hready rfl (landings_sel d x t cond _ _ _)
    cases cond <;> exact h

end Sys2Proof

namespace Sys2Proof

open Sys2Proof.Machine

/-! The write-back of a pointer by a memory slot (R88). -/

/-- The pointer that a memory operation names, and the modifier within that pointer's half (R90). -/
def pointerUse : MemOp → Option (Fin 8 × Fin 4)
  | .nop => none
  | .ldq _ i j | .ldw _ i j | .stq _ i j | .stw _ i j | .ldr _ i j | .ldl _ i j | .str _ i j | .stl _ i j => some (i, j)

/-- Among what a memory operation puts in flight is its pointer's write-back. -/
theorem pointerBack_mem_of_memPuts {t : State} {e : Fin 32} {g : Engine} {op : MemOp} {fl : List Flight} {i : Fin 8}
    {j : Fin 4} (huse : pointerUse op = some (i, j)) (hputs : MemPuts t e g op fl) : pointerBack g i j ∈ fl := by
  cases op with
  | nop => cases huse
  | ldq | ldw | ldr | ldl =>
    cases huse
    obtain ⟨_, _, rfl⟩ := hputs
    exact .tail _ (.head _)
  | stq | stw | str | stl =>
    cases huse
    obtain rfl := hputs
    exact .head _

/-- What a memory slot puts in flight stays there, where no handler returns with the bundle. -/
theorem memPuts_lands_next {s : State} {e : Fin 32} {b : Bundle} (hready : Ready s e b)
    (hret : (issueEng s e b).returns = false) (sl : Slot) :
    ∃ fl, MemPuts (slotState s e b sl) e (issueEng s e b) (memOp b sl) fl ∧
      ∀ f ∈ fl, f ∈ ((s.issue e (some b)).settle.eng e).flight := by
  obtain ⟨fx, fy, hfx, hfy, hfl⟩ := issue_inFlight hready hret
  cases sl with
  | x => exact ⟨fx, hfx, fun f hf => by rw [hfl]; simp [hf]⟩
  | y => exact ⟨fy, hfy, fun f hf => by rw [hfl]; simp [hf]⟩

theorem gives_pointerBack {c : Instr} {s : State} {e : Fin 32} {sl : Slot} {w : Bundle} {op : MemOp} {i : Fin 8}
    {j : Fin 4} (hfits : sl.fits w.c = true) (hc : c.bundle? = some (e, (w.put sl op).fit))
    (huse : pointerUse op = some (i, j)) (hready : Ready s e (w.put sl op).fit)
    (hret : (issueEng s e (w.put sl op).fit).returns = false) :
    Gives c s fun u => pointerBack (issueEng s e (w.put sl op).fit) i j ∈ (u.eng e).flight := by
  obtain ⟨fl, hputs, hstay⟩ := memPuts_lands_next hready hret sl
  rw [memOp_fit_put hfits] at hputs
  exact (gives_bundle hc).2 (hstay _ (pointerBack_mem_of_memPuts huse hputs))

/-- Settles O9: each operation's write-back is among what its slot puts in flight. -/
theorem pointerWriteBack : Obligations.PointerWriteBack := by
  unfold Obligations.PointerWriteBack
  intro s e sl op i j w c hop hfits b hready hret
  have hback : Gives c s fun u => pointerBack (issueEng s e b) i j ∈ (u.eng e).flight := by
    obtain ⟨r, h | h | h | h | h | h⟩ | ⟨r, h | h⟩ := hop
    all_goals
      obtain ⟨rfl, rfl⟩ := h
      exact gives_pointerBack hfits rfl rfl hready hret
  refine hback.imp fun u hu => ?_
  have hmod : (issueEng s e b).rs.nR (slotMod i j) = if i.val < 4 then (issueEng s e b).rs.nR ⟨j.val, by omega⟩
      else (issueEng s e b).rs.nR ⟨4 + j.val, by omega⟩ := apply_ite _ _ _ _
  rw [pointerBack, hmod] at hu
  exact hu

end Sys2Proof

namespace Sys2Proof

open Sys2Proof.Machine

/-! The modification of a pointer (R89). -/

/-- The exponent of the smallest power of two not below a buffer's length. -/
theorem log2Ceil_spec {l : Nat} (h : l ≤ 2 ^ 16) : l ≤ 2 ^ log2Ceil l ∧ ∀ j < log2Ceil l, 2 ^ j < l := by
  have hfound : ((List.range 17).find? fun k => decide (l ≤ 2 ^ k)).isSome = true :=
    List.find?_isSome.2 ⟨16, by decide, by simpa using h⟩
  obtain ⟨k, hk⟩ := Option.isSome_iff_exists.1 hfound
  have hlog : log2Ceil l = k := by rw [log2Ceil, upTo, hk]; rfl
  obtain ⟨hle, -, hleast⟩ := List.find?_range_eq_some.1 hk
  rw [hlog]
  exact ⟨by simpa using hle, fun j hj => by simpa using hleast j hj⟩

theorem modify_linear (p n : BitVec 16) : modify p n 0 = BitVec.ofInt 16 ((p.toNat : Int) + n.toInt) := by
  rw [Machine.modify, if_pos rfl, BitVec.ofInt_add, BitVec.ofInt_toInt, BitVec.ofInt_natCast, BitVec.ofNat_toNat,
    BitVec.setWidth_eq]

/-- In a circular buffer the distance from the base, a multiple of 2 ^ k, moves by `n` modulo the length. -/
theorem modify_circular (p n : BitVec 16) {l : BitVec 16} (hl : l ≠ 0) :
    modify p n l = BitVec.ofInt 16 (((p.toNat / 2 ^ log2Ceil l.toNat * 2 ^ log2Ceil l.toNat : Nat) : Int) +
      (((p.toNat % 2 ^ log2Ceil l.toNat : Nat) : Int) + n.toInt) % (l.toNat : Int)) := by
  have hpos : (l.toNat : Int) ≠ 0 := by
    have : l.toNat ≠ 0 := fun h => hl (BitVec.eq_of_toNat_eq h)
    omega
  rw [Machine.modify, if_neg hl]
  dsimp only
  generalize 2 ^ log2Ceil l.toNat = m
  have hbase : p.toNat - p.toNat % m = p.toNat / m * m := by
    have := Nat.div_add_mod' p.toNat m
    omega
  have hoff : (p.toNat : Int) - (p.toNat / m * m : Nat) = (p.toNat % m : Nat) := by
    have := Nat.div_add_mod' p.toNat m
    omega
  have hmod := Int.emod_nonneg (((p.toNat % m : Nat) : Int) + n.toInt) hpos
  rw [hbase, hoff, ← BitVec.ofInt_natCast, Nat.cast_add, Int.toNat_of_nonneg hmod]

/-- Settles O10: linear for length 0, else circular with the exponent that `log2Ceil` finds. -/
theorem pointerModification : Obligations.PointerModification := by
  unfold Obligations.PointerModification
  intro p n l
  obtain ⟨hle, hleast⟩ := log2Ceil_spec (l := l.toNat) l.isLt.le
  exact ⟨fun hl => hl ▸ modify_linear p n, fun hl => ⟨_, hle, hleast, modify_circular p n hl⟩⟩

end Sys2Proof

namespace Sys2Proof

open Sys2Proof.Machine

/-! What the control slot puts in flight (R97, R99, R103). -/

@[simp] theorem ctl_fit (b : Bundle) : b.fit.c = b.c := by
  unfold Bundle.fit
  split <;> rfl

/-- A control operation that puts one register write in flight for the next bundle. -/
theorem writesNext_of_puts {c : Instr} {s : State} {e : Fin 32} {b : Bundle} {op : CtlOp} {x : RegSet → Landing}
    (hc : c.bundle? = some (e, b)) (hop : b.c = op)
    (hputs : ∀ g : Engine, ctlPuts g op = [⟨g.cyc + 1, g.inEvt, x g.rs⟩]) : WritesNext c s e b x := by
  intro hready hret
  obtain ⟨_, _, -, -, hfl⟩ := issue_inFlight hready hret
  refine (gives_bundle hc).2 ?_
  rw [Lands, hfl, hop, hputs]
  exact List.mem_append_right _ (.head _)

/-- Settles O11: each operation is one register write of the control slot. -/
theorem controlRegisterWrites : Obligations.ControlRegisterWrites := by
  unfold Obligations.ControlRegisterWrites
  intro s e w
  refine ⟨fun i q => ?_, fun i a => ?_, fun i v => ?_, fun i v => ?_,
    fun i v => writesNext_of_puts rfl (ctl_fit _) fun g => by rw [BitVec.ofNat_toNat]; rfl, fun i v => ?_, fun i j => ?_,
    fun i d => ?_, fun i d => ?_, fun i d => ?_, ?_, ?_, fun m => ?_⟩
  all_goals exact writesNext_of_puts rfl (ctl_fit _) fun g => rfl

end Sys2Proof

namespace Sys2Proof

open Sys2Proof.Machine

/-! Branches (R55, R98, R99). -/

/-- A branch that is ready stands neither in a delay slot nor in a repeat (R69). -/
theorem Ready.outside_delay_and_repeat {s : State} {e : Fin 32} {b : Bundle} (h : Ready s e b)
    (hflow : isFlow b.c = true) : (issueEng s e b).rpt = none ∧ (issueEng s e b).delay = none := by
  obtain ⟨-, -, hrpt, hdelay, -⟩ := issueFault_none h.2
  constructor
  · by_contra hr
    rw [hrpt (Option.isSome_iff_ne_none.2 hr)] at hflow
    cases hflow
  · by_contra hd
    rw [hdelay (Option.isSome_iff_ne_none.2 hd)] at hflow
    cases hflow

/-- Outside delay slots and repeats PC moves to the next bundle, and the target of a branch that is taken waits for its
two delay slots. -/
theorem flowNext_branch {g : Engine} (r : RegSet) {op : CtlOp} (hcount : rptCount op = none) (hrte : (op == .rte) = false)
    (hrpt : g.rpt = none) (hdelay : g.delay = none) : flowNext g r op =
    { g with pc := (g.pc + 1) % 8192, delay := (branchTo g r op).map fun a => ⟨2, a, false⟩ } := by
  cases ht : branchTo g r op with
  | none => rw [flowNext_next r hcount ht hrpt hdelay, Option.map_none, ← hdelay]
  | some a => simp [flowNext, hcount, hrpt, hdelay, ht, hrte]

/-- A control operation that branches to a target fixed by PC and the registers at issue. -/
theorem branchTo_of_target {c : Instr} {s : State} {e : Fin 32} {b : Bundle} {op : CtlOp} {t : Engine → Option Nat}
    (hc : c.bundle? = some (e, b)) (hop : b.c = op) (hflow : isFlow op = true) (hcount : rptCount op = none)
    (hrte : (op == .rte) = false) (ht : ∀ g k : Engine, k.pc = g.pc → branchTo k g.rs op = t g) :
    BranchTo c s e b t := by
  subst hop
  intro hready hstr
  obtain ⟨hgrpt, hgdelay⟩ := hready.outside_delay_and_repeat hflow
  refine gives_flow hc hready hstr fun k u hpc hrpt hdelay upc urpt udelay => ?_
  rw [flowNext_branch _ hcount hrte (hrpt.trans hgrpt) (hdelay.trans hgdelay)] at upc urpt udelay
  refine ⟨upc.trans (by rw [hpc]), urpt.trans (hrpt.trans hgrpt), udelay.trans ?_⟩
  rw [ht _ k hpc]

/-- A field is 0 where each of its bits is. -/
theorem bits_eq_zero_iff (w : Word) (hi lo : Nat) :
    bits w hi lo = 0 ↔ ∀ j < hi + 1 - lo, w.getLsbD (lo + j) = false := by
  have htest : ∀ j, (bits w hi lo).testBit j = (decide (j < hi + 1 - lo) && w.getLsbD (lo + j)) := testBit_bits w hi lo
  constructor
  · intro h j hj
    have hbit := htest j
    rw [h, Nat.zero_testBit, decide_eq_true hj, Bool.true_and] at hbit
    exact hbit.symm
  · intro h
    refine Nat.zero_of_testBit_eq_false fun j => ?_
    by_cases hj : j < hi + 1 - lo
    · rw [htest, h j hj, Bool.and_false]
    · rw [htest, decide_eq_false hj, Bool.false_and]

/-- The sticky flags of four lanes are not all 0 (R98). -/
theorem bits_four_ne_zero (w : Word) (lo : Nat) : (bits w (lo + 3) lo != 0) =
    (w.getLsbD lo || w.getLsbD (lo + 1) || w.getLsbD (lo + 2) || w.getLsbD (lo + 3)) := by
  have hfour : lo + 3 + 1 - lo = 4 := by omega
  have hzero := bits_eq_zero_iff w (lo + 3) lo
  rw [hfour] at hzero
  simp only [Nat.forall_lt_succ_right, Nat.not_lt_zero, false_imp_iff, forall_const, true_and, add_zero] at hzero
  rw [Bool.eq_iff_iff, bne_iff_ne, Ne, hzero, ← Bool.not_eq_false]
  simp [and_assoc]

/-- BC branches on its condition of SR at issue (R98). -/
theorem branchTo_bc (g : Engine) {r : RegSet} {c : Fin 8} (rel : BitVec 9) {x : Bool} (h : bcHolds c r.sr = x) :
    branchTo g r (.bc c rel) = if x then some (relPc g.pc rel) else none := by
  rw [branchTo, h]

/-- A result of the control slot that lands after the next cycle is on its way whatever follows the bundle. -/
theorem ctlPuts_lands {s : State} {e : Fin 32} {b : Bundle} (hready : Ready s e b) {n : Nat} {x : Landing} (hn : 2 ≤ n)
    (hx : ⟨(issueEng s e b).cyc + n, (issueEng s e b).inEvt, x⟩ ∈ ctlPuts (issueEng s e b) b.c) :
    Lands (s.issue e (some b)).settle e (issueEng s e b) n x := by
  obtain ⟨_, _, -, -, hfl⟩ := inFlight_slots s e b
  rw [ready_issue hready]
  refine issueEffects_flight (issueState s e b) e b ?_ (by rw [issueState_eng]; dsimp only; omega)
  rw [hfl]
  exact List.mem_append_right _ hx

/-- Settles O13: each target from PC and the registers at issue, and DJN's register as the control slot's result. -/
theorem branchFlow : Obligations.BranchFlow := by
  unfold Obligations.BranchFlow
  intro s e w
  refine ⟨fun rel => branchTo_of_target rfl (ctl_fit _) rfl rfl rfl fun g k hpc => ?_,
    fun a => branchTo_of_target rfl (ctl_fit _) rfl rfl rfl fun g k hpc => rfl,
    fun c rel => branchTo_of_target rfl (ctl_fit _) rfl rfl rfl fun g k hpc => ?_,
    fun d rel => branchTo_of_target rfl (ctl_fit _) rfl rfl rfl fun g k hpc => ?_, fun d rel => ?_⟩
  · rw [← hpc]
    rfl
  · rw [← hpc]
    match c with
    | 0 | 1 | 2 | 3 | 4 | 5 => rfl
    | 6 => exact branchTo_bc k rel (bits_four_ne_zero g.rs.sr 0)
    | 7 => exact branchTo_bc k rel (bits_four_ne_zero g.rs.sr 4)
  · rw [← hpc, branchTo]
    by_cases hd : g.rs.dL d 0 = 1
    · rw [if_pos hd, hd]
      rfl
    · have hne : (g.rs.dL d 0 - 1 != 0) = true := bne_iff_ne.2 (sub_ne_zero.2 hd)
      rw [if_neg hd, if_pos hne]
      rfl
  · intro b hready
    refine (gives_bundle rfl).2 (ctlPuts_lands hready (by omega) ?_)
    rw [ctl_fit]
    exact .head _

end Sys2Proof

namespace Sys2Proof

open Sys2Proof.Machine

/-! What the control slot finds: the memory and arithmetic slots before it move neither the glide index nor a hold, and
queue no far request (R63, R92, R101). -/

/-- Of an engine the glide index, the hold and the tags outstanding are as they were; in the requests themselves words
may be noted (R94). -/
structure ControlKept (g h : Engine) : Prop where
  gidx : h.gidx = g.gidx
  wait : h.wait = g.wait
  tags : h.far.map FarReq.tag = g.far.map FarReq.tag

namespace ControlKept

theorem refl (g : Engine) : ControlKept g g := ⟨rfl, rfl, rfl⟩

theorem trans {g h k : Engine} (x : ControlKept g h) (y : ControlKept h k) : ControlKept g k :=
  ⟨y.gidx.trans x.gidx, y.wait.trans x.wait, y.tags.trans x.tags⟩

theorem far_length {g h : Engine} (x : ControlKept g h) : h.far.length = g.far.length := by
  simpa using congrArg List.length x.tags

/-- A tag is outstanding where it was. -/
theorem any_tag {g h : Engine} (x : ControlKept g h) (t : Fin 16) :
    h.far.any (fun q => q.tag = t) = g.far.any (fun q => q.tag = t) := by
  have hany : ∀ l : List FarReq, l.any (fun q => q.tag = t) = (l.map FarReq.tag).any (fun v => v = t) :=
    fun l => by rw [List.any_map]; rfl
  rw [hany, hany, x.tags]

theorem fly (s : State) (e lat : Nat) (x : Landing) : ControlKept (s.eng e) ((s.fly e lat x).eng e) := by
  rw [State.fly, State.eng_updEng_same]
  exact ⟨rfl, rfl, rfl⟩

theorem each_fly (e lat : Nat) (l : List Landing) (s : State) :
    ControlKept (s.eng e) ((s.each l (fun s x => s.fly e lat x)).eng e) := by
  induction l generalizing s with
  | nil => exact refl _
  | cons x l ih => exact (fly s e lat x).trans (ih (s.fly e lat x))

theorem storeWord (s : State) (e w : Nat) (v : Word) : ControlKept (s.eng e) ((s.storeWord e w v).eng e) := by
  have htags : ∀ (l : List FarReq) (y : Nat × Word),
      (l.map fun q => if q.covers (s.viewWord e w) then { q with alt := y :: q.alt } else q).map FarReq.tag =
        l.map FarReq.tag := by
    intro l y
    rw [List.map_map]
    exact List.map_congr_left fun q _ => by dsimp only [Function.comp]; split <;> rfl
  unfold State.storeWord
  show ControlKept _ ((State.setEng s e _).eng e)
  rw [State.eng_setEng_same]
  split <;> exact ⟨rfl, rfl, htags _ _⟩

theorem storeQuad (s : State) (e q : Nat) (v : L4 Word) : ControlKept (s.eng e) ((s.storeQuad e q v).eng e) :=
  (((storeWord s e _ _).trans (storeWord _ e _ _)).trans (storeWord _ e _ _)).trans (storeWord _ e _ _)

theorem memAccess (s : State) (e : Nat) (r : RegSet) (op : MemOp) :
    ControlKept (s.eng e) ((s.memAccess e r op).eng e) := by
  have hload : ∀ {t : State} (n : Nat) (x : Landing), t.eng e = s.eng e →
      ControlKept (s.eng e) ((t.fly e n x).eng e) := fun n x h => h ▸ fly _ e n x
  cases op with
  | nop => exact refl _
  | ldq => exact hload _ _ ((loadQuad_keeps _ _ _).eng e)
  | ldw | ldr | ldl => exact hload _ _ ((loadWord_keeps _ _ _).eng e)
  | stq => exact storeQuad s e _ _
  | stw | str | stl => exact storeWord s e _ _

theorem memSlot (s : State) (e : Nat) (r : RegSet) (op : MemOp) : ControlKept (s.eng e) ((s.memSlot e r op).eng e) := by
  refine (memAccess s e r op).trans ?_
  cases op with
  | nop => exact refl _
  | ldq | ldw | stq | stw | ldr | ldl | str | stl => exact fly _ e _ _

theorem setRs (g : Engine) (r : RegSet) : ControlKept g (g.setRs r) := by
  unfold Engine.setRs
  split <;> exact ⟨rfl, rfl, rfl⟩

theorem arithSlot (s : State) (e : Nat) (r : RegSet) (op : ArithOp) :
    ControlKept (s.eng e) ((s.arithSlot e r op).eng e) := by
  refine trans ?_ (each_fly e _ _ _)
  rw [State.eng_setEng_same]
  exact setRs _ _

end ControlKept

/-- The state in which the control slot of an issuing bundle works: the other slots have worked (R49). -/
def computed (s : State) (e : Fin 32) (b : Bundle) : State := (accessed s e b).arithSlot e (issueEng s e b).rs b.a

theorem computed_step (s : State) (e : Fin 32) (b : Bundle) : SlotStep (issueEng s e b) ((computed s e b).eng e) := by
  refine (accessed_step s e b).trans (arithSlot_step _ e _ b.a ?_)
  unfold accessed
  rw [collide_eng, memSlot_rs, slotState, memSlot_rs, issueState_eng]

theorem computed_controlKept (s : State) (e : Fin 32) (b : Bundle) :
    ControlKept (issueEng s e b) ((computed s e b).eng e) := by
  have hx := ControlKept.memSlot (issueState s e b) e (issueEng s e b).rs b.x
  have hy := ControlKept.memSlot (slotState s e b .y) e (issueEng s e b).rs b.y
  rw [issueState_eng] at hx
  refine (hx.trans hy).trans ?_
  have ha := ControlKept.arithSlot (accessed s e b) e (issueEng s e b).rs b.a
  unfold accessed at ha
  rwa [collide_eng] at ha

/-- A collision is counted in ENG_XW_CNT alone (R181). -/
theorem rd_collide (s : State) (e : Nat) (r : RegSet) (b : Bundle) {q : Reg} (h : q.addr ≠ (ENG_XW_CNT e).addr) :
    (s.collide e r b).rd q = s.rd q := by
  unfold State.collide
  dsimp only
  split
  · exact State.rd_countF_other s _ _ _ h
  · rfl

/-- The slots of a bundle leave the block length as it is. -/
theorem computed_blk (s : State) (e : Fin 32) (b : Bundle) : (computed s e b).blk = s.blk := by
  have hctrl : (computed s e b).rd SYS_FRM_CTRL = s.rd SYS_FRM_CTRL := by
    rw [computed, State.rd_congr (arithSlot_regs _ _ _ _), accessed,
      rd_collide _ _ _ _ (by simp only [SYS_FRM_CTRL, ENG_XW_CNT]; omega), State.rd_congr (memSlot_regs _ _ _ _),
      State.rd_congr (slotState_regs s e b .y)]
  unfold State.blk State.rdF
  rw [hctrl]

/-- A straight bundle leaves the glide index, the hold and the far queue as its control slot does. -/
theorem gives_ctlSlot {c : Instr} {s : State} {e : Fin 32} {b : Bundle} {op : CtlOp} {P : State → Prop}
    (hc : c.bundle? = some (e, b)) (hop : b.c = op) (hready : Ready s e b) (hstr : Straight (issueEng s e b) b)
    (h : ∀ t u : State, t.blk = s.blk → SlotStep (issueEng s e b) (t.eng e) →
      ControlKept (issueEng s e b) (t.eng e) →
      (u.eng e).gidx = ((t.ctlSlot e (issueEng s e b).rs op).eng e).gidx →
      (u.eng e).wait = ((t.ctlSlot e (issueEng s e b).rs op).eng e).wait →
      (u.eng e).far = ((t.ctlSlot e (issueEng s e b).rs op).eng e).far → P u) : Gives c s P := by
  have heng : (straightState s e b).settle.eng e = _ := straightState_eng s e b
  have hflow := flowNext_frame (((issueState s e b).slots e b).eng e) (issueEng s e b).rs b.c
  have hslots : (issueState s e b).slots e b = (computed s e b).ctlSlot e (issueEng s e b).rs op :=
    hop ▸ slots_issueState s e b
  refine (gives_straight hc hready hstr).2 (h (computed s e b) _ (computed_blk s e b) (computed_step s e b)
    (computed_controlKept s e b) ?_ ?_ ?_)
  all_goals rw [← hslots, heng]
  · exact (congrArg Engine.gidx hflow).trans rfl
  · exact (congrArg Engine.wait hflow).trans rfl
  · exact (congrArg Engine.far hflow).trans rfl

/-- An engine that issues a bundle is held by nothing (R45). -/
theorem Ready.wait {s : State} {e : Fin 32} {b : Bundle} (h : Ready s e b) : (issueEng s e b).wait = .none := by
  have hrun := (Bool.and_eq_true_iff.1 h.1).2
  exact (TimeOnly.toIssue (s.engAt e)).wait.trans (by simpa using hrun)

/-- The Pool offset that a far request takes of a register, by its bits 24 to 4 (R92). -/
theorem farOffset_eq (v : Word) : v.toNat % 2 ^ 25 / 16 * 16 = (v &&& 0x01FFFFF0#32).toNat := by
  have hmask : (0x01FFFFF0#32).toNat = (2 ^ 21 - 1) * 2 ^ 4 := rfl
  rw [BitVec.toNat_and, hmask, show (16 : Nat) = 2 ^ 4 from rfl]
  refine Nat.eq_of_testBit_eq fun i => ?_
  rw [Nat.testBit_mul_two_pow, Nat.testBit_div_two_pow, Nat.testBit_mod_two_pow, Nat.testBit_and,
    Nat.testBit_mul_two_pow, Nat.testBit_two_pow_sub_one]
  by_cases hi : 4 ≤ i
  · have hlt : i - 4 < 21 ↔ i < 25 := by omega
    simp [hi, hlt, Nat.sub_add_cancel hi, Bool.and_comm]
  · simp [hi]

/-- GADV moves the glide index on, in a slice and up to its last value (R101). -/
theorem gidx_gadv (s : State) (e : Nat) (r : RegSet) : ((s.ctlSlot e r .gadv).eng e).gidx =
    if (s.eng e).inEvt then (s.eng e).gidx else min ((s.eng e).gidx + 1) (s.blk - 1) := by
  cases h : (s.eng e).inEvt <;> simp [State.ctlSlot, h]

/-- GSET puts the glide index of a slice, up to its last value (R101). -/
theorem gidx_gset (s : State) (e : Nat) (r : RegSet) (j : BitVec 5) : ((s.ctlSlot e r (.gset j)).eng e).gidx =
    if (s.eng e).inEvt then (s.eng e).gidx else min j.toNat (s.blk - 1) := by
  cases h : (s.eng e).inEvt <;> simp [State.ctlSlot, h]

/-- PWAIT holds the engine for a tag that is outstanding (R63). -/
theorem wait_pwait (s : State) (e : Nat) (r : RegSet) (t : Fin 16) : ((s.ctlSlot e r (.pwait t)).eng e).wait =
    if (s.eng e).far.any (fun q => q.tag = t) then .tag t else (s.eng e).wait := by
  cases h : (s.eng e).far.any (fun q => q.tag = t) <;> simp [State.ctlSlot, h]

/-- The request that a PGET or PPUT queues (R92). -/
def farRequest (g : Engine) (get : Bool) (t : Fin 16) (i : Fin 8) (d cnt : Fin 16) : FarReq :=
  { tag := t, get := get, q0 := (g.rs.pR i).toNat / 4, quads := cnt.val + 1,
    off := (g.rs.dL d 0 &&& 0x01FFFFF0#32).toNat, issued := g.cyc, headAt := g.cyc }

/-- A far request comes last in the queue (R61, R92). -/
theorem gives_farRequest {c : Instr} {s : State} {e : Fin 32} {b : Bundle} {op : CtlOp} (q : Engine → FarReq)
    (hc : c.bundle? = some (e, b)) (hop : b.c = op) (hready : Ready s e b) (hstr : Straight (issueEng s e b) b)
    (hfar : ∀ (t : State) (g : Engine), (t.eng e).cyc = g.cyc →
      ((t.ctlSlot e g.rs op).eng e).far = (t.eng e).far ++ [q g]) :
    Gives c s fun u => (u.eng e).far.length = (issueEng s e b).far.length + 1 ∧
      (u.eng e).far.getLast? = some (q (issueEng s e b)) := by
  refine gives_ctlSlot hc hop hready hstr fun t u _ hstep hkept _ _ ufar => ?_
  rw [ufar, hfar t _ hstep.cyc, List.length_append, hkept.far_length]
  exact ⟨rfl, List.getLast?_concat⟩

/-- Settles O12: after slots that move neither glide index, hold nor tags, the control slot's own effect. -/
theorem glideWaitAndFarRequests : Obligations.GlideWaitAndFarRequests := by
  unfold Obligations.GlideWaitAndFarRequests
  intro s e w
  refine ⟨?_, fun j => ?_, fun t => ?_, fun t i x cnt => ?_, fun t i x cnt => ?_⟩
  all_goals intro b hready hstr
  · refine gives_ctlSlot rfl (ctl_fit _) hready hstr fun v u hblk hstep hkept ugidx _ _ => ?_
    rw [ugidx, gidx_gadv, hstep.inEvt, hkept.gidx, hblk]
  · refine gives_ctlSlot rfl (ctl_fit _) hready hstr fun v u hblk hstep hkept ugidx _ _ => ?_
    rw [ugidx, gidx_gset, hstep.inEvt, hkept.gidx, hblk]
  · refine gives_ctlSlot rfl (ctl_fit _) hready hstr fun v u _ _ hkept _ uwait _ => ?_
    rw [wait_pwait, hkept.any_tag, hkept.wait, hready.wait] at uwait
    refine ⟨fun hout => ?_, fun hfree => ?_⟩
    · rw [uwait, if_pos (by simpa using hout)]
    · rw [uwait, if_neg (by simpa using hfree)]
  · refine gives_farRequest (farRequest · true t i x cnt) rfl (ctl_fit _) hready hstr fun v g hcyc => ?_
    rw [State.ctlSlot, State.eng_setEng_same, farOffset_eq, hcyc]
    rfl
  · refine gives_farRequest (farRequest · false t i x cnt) rfl (ctl_fit _) hready hstr fun v g hcyc => ?_
    rw [State.ctlSlot, State.eng_setEng_same, farOffset_eq, hcyc]
    rfl

end Sys2Proof

namespace Sys2Proof

open Sys2Proof.Machine

/-! Requests that wait for the next boundary (R106, R137, R149, R156). -/

/-- A command whose write reaches its register has the write's effect, after the response. -/
theorem gives_gated {c : Instr} {s : State} {q : Req} {r : Reg} {d : Word} {f : State → State} {P : State → Prop}
    (hc : exec c s = done (s.gated q r d f)) (h : Reaches s q r) (hP : P (f (s.respond 0 false)).settle) :
    Gives c s P :=
  (gives_iff_of_done (hc.trans (congrArg done (gated_reaches h d f)))).2 hP

/-- What changes only listed registers after the response does so in the whole command. -/
theorem OnlyRegs.after_respond {s u : State} {v : Word} {e : Bool} {rs : List Reg} (h : OnlyRegs (s.respond v e) u rs) :
    OnlyRegs s u.settle rs := by
  simpa using ((OnlyRegs.respond s v e).trans h).trans (.settle u)

/-- Words that agree in the bits of a field agree in the field. -/
theorem bits_congr {v w : Word} {hi lo : Nat} (h : ∀ i, lo ≤ i → i ≤ hi → bit v i = bit w i) : bits v hi lo = bits w hi lo := by
  apply Nat.eq_of_testBit_eq
  intro j
  rw [testBit_bits, testBit_bits]
  by_cases hj : j < hi + 1 - lo
  · rw [h (lo + j) (by omega) (by omega)]
  · simp [hj]

/-- A field keeps its value when a field apart from it is put. -/
theorem bits_setBits_apart (w : Word) {hi lo h l : Nat} (hle : lo ≤ hi) (hhi : hi < 32) (hap : h < lo ∨ hi < l) (v : Nat) :
    bits (setBits w hi lo v) h l = bits w h l :=
  bits_congr fun i hl hh => by rw [bit_setBits w hle hhi, if_neg (by omega)]

/-- The status word of a slot that is armed (R149). -/
def armedWord (w : Word) : Word :=
  setBits (setBits (setBits (setBit (setBits w 29 28 0) 31 false) 12 8 0) 5 4 0) 1 0 1

theorem armedWord_fields (w : Word) :
    bits (armedWord w) 1 0 = 1 ∧ bit (armedWord w) 31 = false ∧ bits (armedWord w) 5 4 = 0 := by
  unfold armedWord
  refine ⟨bits_setBits_same _ (by omega) (by omega) _, ?_, ?_⟩
  · rw [bit_setBits _ (by omega) (by omega), if_neg (by omega), bit_setBits _ (by omega) (by omega), if_neg (by omega),
      bit_setBits _ (by omega) (by omega), if_neg (by omega), bit_setBit_same _ (by omega)]
  · rw [bits_setBits_apart _ (by omega) (by omega) (by omega), bits_setBits_same _ (by omega) (by omega), Nat.zero_mod]

/-- The arm's share of a write of MXM_MRm_CTRL (R149): an idle slot is armed, any other shows the refusal. -/
def armSlot (s : State) (m : Fin 4) : State :=
  if s.slotState m = 0 then s.upd (MXM_MR_STAT m) armedWord else s.wrB (MXM_MR_STAT m) 30 true

theorem onlyRegs_armSlot (s : State) (m : Fin 4) : OnlyRegs s (armSlot s m) [MXM_MR_STAT m] := by
  unfold armSlot
  split
  · exact .upd s _ _
  · exact .wrB s _ _ _

theorem armSlot_idle {s : State} {m : Fin 4} (h : s.slotState m = 0) : (armSlot s m).slotState m = 1 ∧
    (armSlot s m).rdB (MXM_MR_STAT m) 31 = false ∧ (armSlot s m).rdF (MXM_MR_STAT m) 5 4 = 0 := by
  rw [armSlot, if_pos h]
  unfold State.slotState State.rdF State.rdB
  rw [State.rd_upd_same]
  exact armedWord_fields _

theorem armSlot_busy {s : State} {m : Fin 4} (h : s.slotState m ≠ 0) :
    (armSlot s m).slotState m = s.slotState m ∧ (armSlot s m).rdB (MXM_MR_STAT m) 30 = true := by
  rw [armSlot, if_neg h]
  refine ⟨?_, rdB_wrB_same s _ (by omega) true⟩
  rw [State.slotState, State.rdF, State.rd_wrB_same, bits_setBit_outside _ (by omega)]
  rfl

/-- The abort's share of a write of MXM_MRm_CTRL (R156). -/
def abortSlot (s : State) (m : Fin 4) (abort : Bool) : State := if abort then s.wrB (MXM_MR_CTRL m) 1 true else s

theorem onlyRegs_abortSlot (s : State) (m : Fin 4) (abort : Bool) :
    OnlyRegs s (abortSlot s m abort) [MXM_MR_CTRL m] := by
  unfold abortSlot
  split
  · exact .wrB s _ _ _
  · exact (OnlyRegs.refl s).mono (by simp)

theorem abortSlot_bit (s : State) (m : Fin 4) (abort : Bool) :
    (abortSlot s m abort).rdB (MXM_MR_CTRL m) 1 = (abort || s.rdB (MXM_MR_CTRL m) 1) := by
  cases abort with
  | false => rfl
  | true => exact rdB_wrB_same s _ (by omega) true

theorem stat_notMem_ctrl (m : Fin 4) : (MXM_MR_STAT m).addr ∉ [MXM_MR_CTRL m].map Reg.addr := by
  simp [MXM_MR_STAT, MXM_MR_CTRL]

theorem ctrl_notMem_stat (m : Fin 4) : (MXM_MR_CTRL m).addr ∉ [MXM_MR_STAT m].map Reg.addr := by
  simp [MXM_MR_STAT, MXM_MR_CTRL]

theorem morphCtrl_arm (s : State) (m : Fin 4) (abort : Bool) :
    s.morphCtrl m true abort = abortSlot (armSlot s m) m abort := rfl

theorem morphCtrl_abort (s : State) (m : Fin 4) : s.morphCtrl m false true = abortSlot s m true := rfl

/-- An arm (R149): the abort's write leaves the status as the arm has put it. -/
theorem morphArm_spec (s : State) (m : Fin 4) (abort : Bool) :
    let u := s.morphCtrl m true abort
    (s.slotState m = 0 → u.slotState m = 1 ∧ u.rdB (MXM_MR_STAT m) 31 = false ∧ u.rdF (MXM_MR_STAT m) 5 4 = 0) ∧
    (s.slotState m ≠ 0 → u.slotState m = s.slotState m ∧ u.rdB (MXM_MR_STAT m) 30 = true) ∧
    u.rdB (MXM_MR_CTRL m) 1 = (abort || s.rdB (MXM_MR_CTRL m) 1) ∧ OnlyRegs s u [MXM_MR_STAT m, MXM_MR_CTRL m] := by
  have hctrl := onlyRegs_abortSlot (armSlot s m) m abort
  have hstat : (abortSlot (armSlot s m) m abort).rd (MXM_MR_STAT m) = (armSlot s m).rd (MXM_MR_STAT m) :=
    hctrl.2 _ (stat_notMem_ctrl m)
  have hkept : (armSlot s m).rdB (MXM_MR_CTRL m) 1 = s.rdB (MXM_MR_CTRL m) 1 :=
    (onlyRegs_armSlot s m).rdB (ctrl_notMem_stat m) 1
  rw [morphCtrl_arm]
  refine ⟨fun h => ?_, fun h => ?_, (abortSlot_bit _ m abort).trans (by rw [hkept]), (onlyRegs_armSlot s m).trans hctrl⟩
  · simpa only [State.slotState, State.rdF, State.rdB, hstat] using armSlot_idle h
  · simpa only [State.slotState, State.rdF, State.rdB, hstat] using armSlot_busy h

/-- A commit written (R106). -/
theorem sltCommit_spec (s : State) (e : Nat) :
    let u := s.sltCommit e 1#32
    u.rd (ENG_SLT_COMMIT e) = 1 ∧ u.rdB (ENG_SLT_STAT e) 0 = true ∧ OnlyRegs s u [ENG_SLT_COMMIT e, ENG_SLT_STAT e] := by
  have heq : s.sltCommit e 1#32 = (s.wr (ENG_SLT_COMMIT e) 1#32).wrB (ENG_SLT_STAT e) 0 true := rfl
  rw [heq]
  refine ⟨?_, rdB_wrB_same _ _ (by omega) true, (OnlyRegs.wr s _ _).trans (.wrB _ _ _ _)⟩
  rw [State.rd_wrB_other _ _ _ (by simp [ENG_SLT_COMMIT, ENG_SLT_STAT]), State.rd_wr_same]
  rfl

/-- Flips written (R137). -/
theorem flipWrite_spec (s : State) (n : Nat) {w : Word} (h : w ≠ 0) :
    let u := s.flipWrite n w
    u.rd (MXM_FLIP n) = s.rd (MXM_FLIP n) ||| w ∧ u.rdB MXM_STAT 1 = true ∧ OnlyRegs s u [MXM_FLIP n, MXM_STAT] := by
  have hap : (MXM_FLIP n).addr ≠ MXM_STAT.addr := by simp only [MXM_FLIP, MXM_STAT]; omega
  have heq : s.flipWrite n w = (s.upd (MXM_FLIP n) (· ||| w)).raise MXM_STAT 2#32 := if_neg h
  rw [heq]
  refine ⟨?_, ?_, (OnlyRegs.upd s _ _).trans (.upd _ _ _)⟩
  · rw [State.rd_raise_other _ _ hap, State.rd_upd_same]
  · rw [State.rdB, State.rd_raise_same, bit_or]
    simp [bit]

/-- Settles O31: each request is a write of its block that stages it in registers alone. -/
theorem boundaryRequestsWait : Obligations.BoundaryRequestsWait := by
  unfold Obligations.BoundaryRequestsWait
  refine ⟨fun s q e h => gives_gated rfl h ?_, fun s q n w h hw => gives_gated rfl h ?_,
    fun s q m abort h => gives_gated rfl h ?_, fun s q m h => gives_gated rfl h ?_⟩
  · obtain ⟨hcommit, hstat, honly⟩ := sltCommit_spec (s.respond 0 false) e
    exact ⟨hcommit, hstat, honly.after_respond⟩
  · obtain ⟨hflip, hstat, honly⟩ := flipWrite_spec (s.respond 0 false) n hw
    exact ⟨hflip, hstat, honly.after_respond⟩
  · obtain ⟨hidle, hbusy, hctrl, honly⟩ := morphArm_spec (s.respond 0 false) m abort
    exact ⟨hidle, hbusy, hctrl, honly.after_respond⟩
  · exact ⟨abortSlot_bit (s.respond 0 false) m true, (onlyRegs_abortSlot (s.respond 0 false) m true).after_respond⟩

end Sys2Proof

namespace Sys2Proof

open Sys2Proof.Machine

/-! The refuse codes of a migration's start (R108, R122). -/

/-- A key that a map lists is listed with what the map reads at it. -/
theorem mem_sget_of_listed {α : Type} (d : α) {m : List (Nat × α)} {k : Nat} (h : k ∈ m.map Prod.fst) :
    (k, sget d m k) ∈ m := by
  induction m with
  | nil => cases h
  | cons a m ih =>
    obtain ⟨j, v⟩ := a
    rw [sget_cons]
    split
    · next hjk => exact hjk ▸ List.mem_cons_self
    · next hjk => exact List.mem_cons_of_mem _ (ih ((List.mem_cons.1 h).resolve_left (Ne.symm hjk)))

/-- A key that does not read as the default is listed. -/
theorem listed_of_sget_ne {α : Type} {d : α} {m : List (Nat × α)} {k : Nat} (h : sget d m k ≠ d) : k ∈ m.map Prod.fst :=
  not_imp_comm.1 (sget_unlisted d) h

/-- Two ranges of taps overlap where a tap of the first lies in the second. -/
theorem overlap_eq (b c b' c' : Nat) :
    overlap b c b' c' = (upTo c).any fun k => decide (b' ≤ b + k ∧ b + k < b' + c') := by
  rw [Bool.eq_iff_iff, overlap, decide_eq_true_iff, upTo, List.any_eq_true]
  constructor
  · intro h
    refine ⟨max b b' - b, List.mem_range.2 (by omega), decide_eq_true (by omega)⟩
  · rintro ⟨k, hk, hin⟩
    have hlt := List.mem_range.1 hk
    have hin := of_decide_eq_true hin
    omega

/-- A table with the keys of the slots, each listed once, is the function from slots to entries that it stores. -/
def TableOk (tbl : List (Nat × Entry)) : Prop := ∀ x ∈ tbl, x.1 < 64 ∧ sget ({} : Entry) tbl x.1 = x.2

/-- The taps of the other valid entries, by the list of a table and by its slots. -/
theorem others_any_overlap {tbl : List (Nat × Entry)} (h : TableOk tbl) (f : Entry → Nat × Nat) (i b n : Nat) :
    ((tbl.filter (fun u => u.1 != i && u.2.valid)).any fun u => overlap b n (f u.2).1 (f u.2).2) =
      tapsShared (sget ({} : Entry) tbl) f i b n := by
  unfold tapsShared
  simp only [← overlap_eq]
  rw [Bool.eq_iff_iff, List.any_eq_true, List.any_eq_true]
  constructor
  · rintro ⟨u, hu, hlap⟩
    obtain ⟨hmem, hval⟩ := List.mem_filter.1 hu
    obtain ⟨hlt, hget⟩ := h u hmem
    exact ⟨u.1, List.mem_range.2 hlt, by rw [hget, Bool.and_eq_true]; exact ⟨hval, hlap⟩⟩
  · rintro ⟨j, -, hj⟩
    obtain ⟨hother, hlap⟩ := (Bool.and_eq_true _ _).mp hj
    obtain ⟨-, hval⟩ := (Bool.and_eq_true _ _).mp hother
    have hne : sget ({} : Entry) tbl j ≠ {} := fun he => absurd (he ▸ hval) (by decide)
    exact ⟨(j, sget {} tbl j), List.mem_filter.2 ⟨mem_sget_of_listed _ (listed_of_sget_ne hne), hother⟩, hlap⟩

section

variable (t : Entry) {sb inBase outBase : Nat}

theorem migEntry_sb (hsb : sb < 2 ^ 14) : (migEntry t sb inBase outBase).sb = sb :=
  (bits_setBits_same _ (by omega) (by omega) _).trans (Nat.mod_eq_of_lt hsb)

theorem migEntry_inBase (hin : inBase < 2 ^ 7) : (migEntry t sb inBase outBase).inBase = inBase :=
  (bits_setBits_same _ (by omega) (by omega) _).trans (Nat.mod_eq_of_lt hin)

theorem migEntry_outBase (hout : outBase < 2 ^ 7) : (migEntry t sb inBase outBase).outBase = outBase :=
  (bits_setBits_apart _ (by omega) (by omega) (by omega) _).trans
    ((bits_setBits_same _ (by omega) (by omega) _).trans (Nat.mod_eq_of_lt hout))

theorem migEntry_inCnt : (migEntry t sb inBase outBase).inCnt = t.inCnt :=
  (bits_setBits_apart _ (by omega) (by omega) (by omega) _).trans (bits_setBits_apart _ (by omega) (by omega) (by omega) _)

theorem migEntry_outCnt : (migEntry t sb inBase outBase).outCnt = t.outCnt :=
  (bits_setBits_apart _ (by omega) (by omega) (by omega) _).trans (bits_setBits_apart _ (by omega) (by omega) (by omega) _)

/-- The checks of a commit, of the entry that a migration would create. -/
theorem commitCode_migEntry {tbl : List (Nat × Entry)} (h : TableOk tbl) (i B : Nat) (hsb : sb < 2 ^ 14)
    (hin : inBase < 2 ^ 7) (hout : outBase < 2 ^ 7) : commitCode tbl i (migEntry t sb inBase outBase) B false =
      entryFault (sget ({} : Entry) tbl) t i sb inBase outBase B := by
  have hinLap := others_any_overlap h (fun x => (x.inBase, x.inCnt)) i inBase t.inCnt
  have houtLap := others_any_overlap h (fun x => (x.outBase, x.outCnt)) i outBase t.outCnt
  dsimp only at hinLap houtLap
  unfold commitCode entryFault
  simp only [migEntry_sb t hsb, migEntry_inBase t hin, migEntry_outBase t hout, migEntry_inCnt, migEntry_outCnt,
    hinLap, houtLap, Entry.small]
  simp only [Bool.or_eq_true, decide_eq_true_eq, Bool.false_eq_true, if_false]
  rfl

end

theorem rdF_lt (s : State) (r : Reg) (hi lo : Nat) : s.rdF r hi lo < 2 ^ (hi + 1 - lo) :=
  Nat.mod_lt _ (Nat.two_pow_pos _)

/-- A morph is armed or active on a slice (R122), bit by bit. -/
theorem morphOn_iff (s : State) (id : Nat) : s.morphOn id = true ↔ s.rdF (ENG_MRPH (id / 64) (id % 64)) 23 20 ≠ 0 ∨
    ∃ m : Fin 4, s.slotState m = 1 ∧ ∃ k : Fin 4, s.rdB (ENG_MRPH (id / 64) (id % 64)) (4 * m.val + k.val) = true := by
  have hlanes : ∀ w lo, (bits w (lo + 3) lo != 0) = true ↔ ∃ k : Fin 4, bit w (lo + k.val) = true := fun w lo => by
    rw [bits_four_ne_zero]
    simp [Fin.exists_fin_succ, bit, or_assoc]
  have hall : ∀ m : Fin 4, m ∈ ([0, 1, 2, 3] : List (Fin 4)) := by decide
  unfold State.morphOn State.inMorph
  rw [Bool.or_eq_true, bne_iff_ne, List.any_eq_true]
  simp only [Bool.and_eq_true, beq_iff_eq, hlanes, hall, true_and]
  rfl

/-- The lowest refuse code, as R122 states it and as the migration unit finds it. -/
theorem migRefuse_eq {s : State} (h : TableOk (s.eng (s.rdF CLV_MIG_DST 10 0 / 64)).live) :
    s.migRefuse = startRefused s := by
  have hcode := commitCode_migEntry (s.liveOf (s.rdF CLV_MIG_SRC 10 0)) h (s.rdF CLV_MIG_DST 10 0 % 64) s.blk
    (rdF_lt s CLV_MIG_DST 29 16) (rdF_lt s CLV_MIG_TAPS 6 0) (rdF_lt s CLV_MIG_TAPS 22 16)
  unfold State.migRefuse startRefused
  dsimp only
  rw [hcode, migEntry_inBase _ (rdF_lt s CLV_MIG_TAPS 6 0), migEntry_outBase _ (rdF_lt s CLV_MIG_TAPS 22 16),
    migEntry_inCnt, migEntry_outCnt]
  refine if_congr Iff.rfl rfl (if_congr ?_ rfl (if_congr ?_ rfl (if_congr ?_ rfl (if_congr (morphOn_iff s _) rfl
    (if_congr Iff.rfl rfl (if_congr ?_ rfl rfl))))))
  · simp only [State.liveOf, Bool.or_eq_true, Bool.not_eq_true', or_assoc]
    exact or_congr Iff.rfl (or_congr decide_eq_true_iff Iff.rfl)
  · simp only [Bool.or_eq_true, Bool.not_eq_true', or_assoc]
  · simp only [Bool.or_eq_true, bne_iff_ne, decide_eq_true_eq, or_assoc]
    rfl
  · simp only [Bool.or_eq_true, Bool.not_eq_true', decide_eq_false_iff_not, not_lt]

end Sys2Proof

namespace Sys2Proof

open Sys2Proof.Machine

/-! A migration's start (R122). -/

/-- CLV_MIG_STAT of an accepted start: in progress, waiting for its block, under the source's epoch (R122). -/
def startedWord (w : Word) (epoch : Nat) : Word :=
  setBits (setBits (setBits 0 0 0 1) 3 1 1 ||| (w &&& 0x30000#32)) 31 24 epoch

theorem bit_startedWord_low (w : Word) (epoch : Nat) {i : Nat} (hi : i < 4) : bit (startedWord w epoch) i = bit 3#32 i := by
  have hmask : bit (w &&& 0x30000#32) i = false := by
    have h0 : (0x30000#32).getLsbD i = false := by revert i; decide
    exact (BitVec.getLsbD_and ..).trans (by rw [h0, Bool.and_false])
  rw [startedWord, bit_setBits _ (by omega) (by omega), if_neg (by omega), bit_or, hmask, Bool.or_false,
    show setBits (setBits 0 0 0 1) 3 1 1 = 3#32 from by decide]

theorem startedWord_fields (w : Word) (epoch : Nat) :
    bit (startedWord w epoch) 0 = true ∧ bits (startedWord w epoch) 3 1 = 1 :=
  ⟨bit_startedWord_low w epoch (by omega),
    (bits_congr fun i _ hi => bit_startedWord_low w epoch (by omega)).trans (by decide)⟩

/-- The registers of an accepted start (R122). -/
def startedRegs (s : State) : State :=
  ((s.wr CLV_MIG_STAT (setBits (setBits 0 0 0 1) 3 1 1 ||| (s.rd CLV_MIG_STAT &&& 0x30000#32))).wrF CLV_MIG_STAT 31 24
    (s.epochOf (s.rdF CLV_MIG_SRC 10 0))).wr CLV_MIG_DIFF 0

theorem startedRegs_stat (s : State) : (startedRegs s).rd CLV_MIG_STAT =
    startedWord (s.rd CLV_MIG_STAT) (s.epochOf (s.rdF CLV_MIG_SRC 10 0)) := by
  unfold startedRegs
  rw [State.rd_wr_other _ _ (by decide), State.rd_wrF_same, State.rd_wr_same]
  rfl

theorem startedRegs_diff (s : State) : (startedRegs s).rd CLV_MIG_DIFF = 0 := State.rd_wr_same _ _ _

/-- An accepted start: its registers, and what it notes of the migration (R122). -/
theorem migStart_accepted {s : State} (h : s.migRefuse = 0) : s.migStart.regs = (startedRegs s).regs ∧
    s.migStart.mig.src = s.rdF CLV_MIG_SRC 10 0 ∧ s.migStart.mig.dst = s.rdF CLV_MIG_DST 10 0 ∧
    s.migStart.mig.k = (s.rd CLV_MIG_BLOCK).toNat := by
  have hkept : ∀ r : Reg, r.addr ≠ CLV_MIG_STAT.addr → ∀ v hi lo x,
      ((s.wr CLV_MIG_STAT v).wrF CLV_MIG_STAT hi lo x).rd r = s.rd r := fun r hr v hi lo x =>
    (State.rd_wrF_other _ _ _ _ hr).trans (State.rd_wr_other _ _ hr)
  unfold State.migStart
  rw [h]
  exact ⟨rfl, rfl, congrArg (bits · 10 0) (hkept _ (by decide) _ _ _ _),
    congrArg BitVec.toNat (hkept _ (by decide) _ _ _ _)⟩

/-- What an accepted start shows of itself (R122). -/
theorem migStart_accepted_shows {s : State} (h : s.migRefuse = 0) :
    s.migStart.rdB CLV_MIG_STAT 0 = true ∧ s.migStart.rdF CLV_MIG_STAT 3 1 = 1 ∧ s.migStart.rd CLV_MIG_DIFF = 0 := by
  have hrd := State.rd_congr (migStart_accepted h).1
  obtain ⟨hbusy, hphase⟩ := startedWord_fields (s.rd CLV_MIG_STAT) (s.epochOf (s.rdF CLV_MIG_SRC 10 0))
  have hstat := (hrd CLV_MIG_STAT).trans (startedRegs_stat s)
  exact ⟨(congrArg (bit · 0) hstat).trans hbusy, (congrArg (bits · 3 1) hstat).trans hphase,
    (hrd CLV_MIG_DIFF).trans (startedRegs_diff s)⟩

theorem migStart_refused {s : State} (h : s.migRefuse ≠ 0) :
    s.migStart = (s.wrF CLV_MIG_STAT 15 12 s.migRefuse).raise CLV_MIG_STAT 0x10000#32 := by
  unfold State.migStart
  split
  · next h0 => exact absurd h0 h
  · rfl

/-- The refuse codes are those of R122. -/
theorem startRefused_lt (s : State) : startRefused s < 16 := by
  unfold startRefused
  dsimp only
  split_ifs <;> omega

/-- A refusal shows its code, and nothing else changes (R122). -/
theorem migStart_refused_spec {s : State} (h : s.migRefuse ≠ 0) (hlt : s.migRefuse < 16) :
    s.migStart.rdF CLV_MIG_STAT 15 12 = s.migRefuse ∧ s.migStart.rdB CLV_MIG_STAT 16 = true ∧ s.migStart.mig = s.mig ∧
      OnlyRegs s s.migStart [CLV_MIG_STAT] := by
  have hword : s.migStart.rd CLV_MIG_STAT = setBit (setBits (s.rd CLV_MIG_STAT) 15 12 s.migRefuse) 16 true := by
    rw [migStart_refused h, State.rd_raise_same, State.rd_wrF_same]
    rfl
  refine ⟨?_, ?_, ?_, ?_⟩
  · rw [State.rdF, hword, bits_setBit_outside _ (by omega), bits_setBits_same _ (by omega) (by omega)]
    exact Nat.mod_eq_of_lt hlt
  · rw [State.rdB, hword, bit_setBit_same _ (by omega)]
  · rw [migStart_refused h]
    rfl
  · rw [migStart_refused h]
    exact ((OnlyRegs.upd s _ _).trans (.upd _ _ _)).mono (by simp)

/-! What Clove's reports leave of the migration unit's registers. -/

/-- The registers of Clove's block from the migration unit's on, and those behind it, are as they were. -/
def KeepsMigRegs (s t : State) : Prop := ∀ r : Reg, 0x50032000 ≤ r.addr → t.rd r = s.rd r

namespace KeepsMigRegs

theorem refl (s : State) : KeepsMigRegs s s := fun _ _ => rfl

theorem trans {s t u : State} (h : KeepsMigRegs s t) (k : KeepsMigRegs t u) : KeepsMigRegs s u :=
  fun r hr => (k r hr).trans (h r hr)

theorem of_regs {s t : State} (h : t.regs = s.regs) : KeepsMigRegs s t := fun r _ => State.rd_congr h r

theorem upd (s : State) {q : Reg} (f : Word → Word) (h : q.addr < 0x50032000) : KeepsMigRegs s (s.upd q f) :=
  fun _ _ => State.rd_upd_other s f (by omega)

theorem consumed (s : State) (v : Ev) : KeepsMigRegs s (s.consumed v) := by
  unfold State.consumed
  split
  · exact refl s
  · exact trans (upd s (q := CLV_SEQ_APPLIED) (fun _ => _) (by decide)) (of_regs rfl)

theorem dropStale (s : State) (v : Ev) : KeepsMigRegs s (s.dropStale v) := by
  have hcount : KeepsMigRegs s ((s.unqueue v).count CLV_STALE_CNT) :=
    trans (t := s.unqueue v) (of_regs rfl) (upd _ (fun _ => _) (by decide))
  exact (hcount.trans (upd _ (fun _ => _) (by decide))).trans (consumed _ v)

theorem bgWaits (s : State) : KeepsMigRegs s s.bgWaits := by
  unfold State.bgWaits
  split
  · split
    · exact trans (t := s.count CLV_BGWAIT_CNT) (upd s (fun _ => _) (by decide)) (of_regs rfl)
    · exact refl s
  · exact refl s

theorem bgAdmitHost (n : Nat) (s : State) : KeepsMigRegs s (State.bgAdmitHost n s) := by
  induction n generalizing s with
  | zero => exact refl s
  | succ n ih =>
    unfold State.bgAdmitHost
    split
    · next v _ =>
      split
      · have hcharge : KeepsMigRegs s (s.charge v) := upd s (fun _ => _) (by decide)
        exact (hcharge.trans (of_regs rfl)).trans (ih _)
      · exact refl s
    · exact refl s

theorem cloveHost (s : State) : KeepsMigRegs s s.cloveHost := by
  have h := (bgAdmitHost s.clove.queue.length s).trans (bgWaits _)
  unfold State.cloveHost
  dsimp only
  generalize (State.bgAdmitHost s.clove.queue.length s).bgWaits = t at h ⊢
  have hflows : KeepsMigRegs s ((t.wr (CLV_HNE 0) (t.hneBits 0)).wr (CLV_HNE 1) (t.hneBits 1)) :=
    (h.trans (upd _ (fun _ => _) (by decide))).trans (upd _ (fun _ => _) (by decide))
  split
  · exact hflows.trans (upd _ (fun _ => _) (by decide))
  · exact hflows

theorem acceptAs (s : State) (v : Ev) : KeepsMigRegs s (s.acceptAs v) := by
  have hnext : KeepsMigRegs s { s with clove := { s.clove with next := s.clove.next + 1 } } := of_regs rfl
  unfold State.acceptAs
  dsimp only
  split
  · exact hnext.trans (dropStale _ _)
  · split
    · exact hnext.trans (consumed _ _)
    · exact trans (t := { s with clove := _ }) (of_regs rfl) (cloveHost _)

theorem report (s : State) (e type cls : Nat) (w0 w1 : Word) : KeepsMigRegs s (s.report e type cls w0 w1) := by
  unfold State.report
  dsimp only
  split
  · exact (upd s (q := CLV_DROP_CNT) (fun _ => _) (by decide)).trans (upd _ (fun _ => _) (by decide))
  · exact acceptAs _ _

end KeepsMigRegs

/-! The end of a migration (R124, R127). -/

/-- CLV_MIG_STAT of a migration that has ended: its status and cause, no longer in progress, and done (R122, R127). -/
def endedWord (w : Word) (status cause epoch : Nat) : Word :=
  setBits (setBit (setBits (setBits (setBits w 5 4 status) 11 8 cause) 3 0 0) 17 true) 31 24 epoch

theorem endedWord_fields (w : Word) {status cause : Nat} (epoch : Nat) (hstatus : status < 4) (hcause : cause < 16) :
    bit (endedWord w status cause epoch) 0 = false ∧ bits (endedWord w status cause epoch) 5 4 = status ∧
      bits (endedWord w status cause epoch) 11 8 = cause := by
  unfold endedWord
  refine ⟨?_, ?_, ?_⟩
  · rw [bit_setBits _ (by omega) (by omega), if_neg (by omega), bit_setBit_other _ (by omega),
      bit_setBits _ (by omega) (by omega), if_pos (by omega), Nat.zero_testBit]
  · rw [bits_setBits_apart _ (by omega) (by omega) (by omega), bits_setBit_outside _ (by omega),
      bits_setBits_apart _ (by omega) (by omega) (by omega), bits_setBits_apart _ (by omega) (by omega) (by omega),
      bits_setBits_same _ (by omega) (by omega)]
    exact Nat.mod_eq_of_lt hstatus
  · rw [bits_setBits_apart _ (by omega) (by omega) (by omega), bits_setBit_outside _ (by omega),
      bits_setBits_apart _ (by omega) (by omega) (by omega), bits_setBits_same _ (by omega) (by omega)]
    exact Nat.mod_eq_of_lt hcause

/-- CLV_MIG_STAT put to a final status (R122, R127). -/
def endedRegs (s : State) (status cause epoch : Nat) : State :=
  ((((s.wrF CLV_MIG_STAT 5 4 status).wrF CLV_MIG_STAT 11 8 cause).wrF CLV_MIG_STAT 3 0 0).raise
    CLV_MIG_STAT 0x20000#32).wrF CLV_MIG_STAT 31 24 epoch

theorem endedRegs_stat (s : State) (status cause epoch : Nat) : (endedRegs s status cause epoch).rd CLV_MIG_STAT =
    endedWord (s.rd CLV_MIG_STAT) status cause epoch := by
  unfold endedRegs
  simp only [State.rd_wrF_same, State.rd_raise_same]
  rfl

theorem endedRegs_diff (s : State) (status cause epoch : Nat) :
    (endedRegs s status cause epoch).rd CLV_MIG_DIFF = s.rd CLV_MIG_DIFF := by
  have hap : CLV_MIG_DIFF.addr ≠ CLV_MIG_STAT.addr := by decide
  unfold endedRegs
  rw [State.rd_wrF_other _ _ _ _ hap, State.rd_raise_other _ _ hap, State.rd_wrF_other _ _ _ _ hap,
    State.rd_wrF_other _ _ _ _ hap, State.rd_wrF_other _ _ _ _ hap]

/-- A final status is recorded and reported (R118, R127). -/
theorem migEnd_eq (s : State) (status cause : Nat) : ∃ epoch w0 w1,
    s.migEnd status cause = (endedRegs s status cause epoch).report (s.mig.src / 64) 0x48 2 w0 w1 := ⟨_, _, _, rfl⟩

/-- Of the migration unit's registers a final status changes CLV_MIG_STAT alone, and it changes no memory. -/
theorem migEnd_spec (s : State) (status cause : Nat) :
    (∃ epoch, (s.migEnd status cause).rd CLV_MIG_STAT = endedWord (s.rd CLV_MIG_STAT) status cause epoch) ∧
      (s.migEnd status cause).rd CLV_MIG_DIFF = s.rd CLV_MIG_DIFF ∧ (s.migEnd status cause).mem = s.mem := by
  obtain ⟨epoch, w0, w1, heq⟩ := migEnd_eq s status cause
  have hkept := KeepsMigRegs.report (endedRegs s status cause epoch) (s.mig.src / 64) 0x48 2 w0 w1
  rw [heq]
  exact ⟨⟨epoch, (hkept CLV_MIG_STAT (by decide)).trans (endedRegs_stat s status cause epoch)⟩,
    (hkept CLV_MIG_DIFF (by decide)).trans (endedRegs_diff s status cause epoch),
    (congrArg State.mem (CloveAlone.report _ _ _ _ _ _)).trans rfl⟩

/-- A migration in progress that is aborted ends ABORTED with the cause (R124, R127). -/
theorem migAbort_spec {s : State} {cause : Nat} (hrun : s.rdB CLV_MIG_STAT 0 = true) (hcause : cause < 16) :
    let u := s.migAbort cause
    u.rdB CLV_MIG_STAT 0 = false ∧ u.rdF CLV_MIG_STAT 5 4 = 2 ∧ u.rdF CLV_MIG_STAT 11 8 = cause ∧
      u.rd CLV_MIG_DIFF = s.rd CLV_MIG_DIFF ∧ u.mem = s.mem := by
  obtain ⟨⟨epoch, hstat⟩, hdiff, hmem⟩ := migEnd_spec s 2 cause
  obtain ⟨hoff, hstatus, hcode⟩ := endedWord_fields (s.rd CLV_MIG_STAT) epoch (by omega : 2 < 4) hcause
  unfold State.migAbort
  rw [if_pos hrun]
  exact ⟨(congrArg (bit · 0) hstat).trans hoff, (congrArg (bits · 5 4) hstat).trans hstatus,
    (congrArg (bits · 11 8) hstat).trans hcode, hdiff, hmem⟩

/-! An abort (R127, R128). -/

/-- The cycle of tick k+3 is come, and the STC runs (R127). -/
theorem migTickDue_iff {s : State} (hrate : 0 < s.stcRate) : s.migTickDue = true ↔
    s.blockNo = (s.mig.k + 2) % 2 ^ 32 ∧ s.running = true ∧ s.frame.final = false ∧
      ceilDiv (s.frame.edge * stcSecond) s.fs ≤ s.stc := by
  have hcycles : ∀ t, s.cyclesTo t = 0 ↔ t ≤ s.stc := fun t => by
    unfold State.cyclesTo
    split
    · next h => simp [h]
    · next h =>
      refine iff_of_false (fun h0 => ?_) h
      rw [ceilDiv, Nat.div_eq_zero_iff] at h0
      omega
  unfold State.migTickDue
  simp only [Bool.and_eq_true, decide_eq_true_eq, Bool.not_eq_true', beq_iff_eq, hcycles, and_assoc]

/-- An abort written while a migration is in progress. -/
theorem migCtrl_abort {s : State} (hrun : s.rdB CLV_MIG_STAT 0 = true) : s.migCtrl 2#32 =
    if s.migTickDue then { s with mig := { s.mig with late := true } } else s.migAbort 1 := by
  have hstart : bit 2#32 0 = false := by decide
  have habort : bit 2#32 1 = true := by decide
  simp [State.migCtrl, State.migAbortReq, hstart, habort, hrun]

end Sys2Proof

namespace Sys2Proof

open Sys2Proof.Machine

/-! Copies between the Sample Pool and a window, where no bank is fenced (R124, R186). -/

section

variable {s : State} (hwhole : ∀ u, s.fenced u = false)

include hwhole

theorem whole_of_unfenced (a : Nat) : s.whole a = true := by
  unfold State.whole
  split
  · rw [hwhole]
    rfl
  · rfl

theorem fenceRange_unfenced (a n master : Nat) (w : Bool) : s.fenceRange a n master w = s := by
  have hnone : s.fencedIn a n = none := by
    unfold State.fencedIn
    dsimp only
    split
    · rfl
    · rw [List.findSome?_eq_none_iff]
      intro x _
      simp [hwhole]
  unfold State.fenceRange
  rw [hnone]

end

/-- A part of a sparse map chosen by keys reads as the map at the keys chosen, and as nothing elsewhere. -/
theorem sget_filter_key {α : Type} (d : α) (m : List (Nat × α)) (p : Nat → Bool) (k : Nat) :
    sget d (m.filter (fun kv => p kv.1)) k = if p k then sget d m k else d := by
  induction m with
  | nil => simp
  | cons a m ih =>
    obtain ⟨j, v⟩ := a
    rw [List.filter_cons]
    by_cases hjk : j = k
    · subst hjk
      cases hj : p j <;> simp [hj, ih, sget_cons]
    · cases hj : p j <;> simp [ih, sget_cons, hjk]

/-- The bytes of a range that a copy moves, at the addresses it moves them to. -/
def copyPuts (m : List (Nat × Byte)) (src dst n : Nat) : List (Nat × Byte) :=
  (m.filter (fun kv => src ≤ kv.1 && kv.1 < src + n)).map (fun kv => (kv.1 - src + dst, kv.2))

theorem mem_copyPuts {m : List (Nat × Byte)} {src dst n : Nat} {p : Nat × Byte} : p ∈ copyPuts m src dst n ↔
    ∃ i < n, (src + i, p.2) ∈ m ∧ p.1 = dst + i := by
  unfold copyPuts
  rw [List.mem_map]
  constructor
  · rintro ⟨kv, hkv, rfl⟩
    obtain ⟨hmem, hin⟩ := List.mem_filter.1 hkv
    simp only [Bool.and_eq_true, decide_eq_true_eq] at hin
    refine ⟨kv.1 - src, by omega, ?_, by dsimp only; omega⟩
    rwa [Nat.add_sub_cancel' hin.1]
  · rintro ⟨i, hi, hmem, hp⟩
    refine ⟨(src + i, p.2), List.mem_filter.2 ⟨hmem, by simp [hi]⟩, Prod.ext ?_ rfl⟩
    dsimp only
    omega

/-- A canonical memory lists no address twice, so a copy writes none twice. -/
theorem copyPuts_distinct {m : List (Nat × Byte)} (hm : Memory.wf m = true) (src dst n : Nat) :
    (copyPuts m src dst n).Pairwise fun p q => p.1 ≠ q.1 := by
  have hrise : m.Pairwise fun p q => p.1 < q.1 := List.pairwise_map.1 (Memory.wf_rising hm)
  refine List.pairwise_map.2 ((List.Pairwise.filter _ hrise).imp_of_mem fun {p q} hp hq hlt => ?_)
  have hpin := (List.mem_filter.1 hp).2
  have hqin := (List.mem_filter.1 hq).2
  simp only [Bool.and_eq_true, decide_eq_true_eq] at hpin hqin
  dsimp only
  omega

section

variable {s : State} (hwhole : ∀ u, s.fenced u = false) (src dst n : Nat)

include hwhole

theorem copied_eq : s.copied src dst n =
    (copyPuts s.mem src dst n).foldl (fun m p => putByte m p.1 p.2) (clearRange s.mem dst n) := by
  unfold State.copied copyPuts clearRange
  simp [whole_of_unfenced hwhole, List.foldl_map]

/-- A copy leaves what lies outside its destination. -/
theorem copied_outside {x : Nat} (h : x < dst ∨ dst + n ≤ x) : sget 0 (s.copied src dst n) x = sget 0 s.mem x := by
  rw [copied_eq hwhole, putAll_other fun p hp => ?_, clearRange, sget_filter_key 0 s.mem (fun k => k < dst || dst + n ≤ k),
    if_pos (by simpa using h)]
  obtain ⟨i, hi, -, hat⟩ := mem_copyPuts.1 hp
  omega

/-- A copy's destination holds what its source held. -/
theorem copied_inside (hm : Memory.wf s.mem = true) {i : Nat} (h : i < n) :
    sget 0 (s.copied src dst n) (dst + i) = sget 0 s.mem (src + i) := by
  rw [copied_eq hwhole]
  by_cases hlisted : src + i ∈ s.mem.map Prod.fst
  · exact putAll_mem (copyPuts_distinct hm src dst n) (mem_copyPuts.2 ⟨i, h, mem_sget_of_listed 0 hlisted, rfl⟩) _
  · have hout : ∀ p ∈ copyPuts s.mem src dst n, dst + i ≠ p.1 := fun p hp hat => by
      obtain ⟨j, -, hmem, hj⟩ := mem_copyPuts.1 hp
      have hij : j = i := by omega
      exact hlisted (List.mem_map.2 ⟨_, hij ▸ hmem, rfl⟩)
    rw [putAll_other hout, clearRange, sget_filter_key 0 s.mem (fun k => k < dst || dst + n ≤ k), if_neg (by simp; omega),
      sget_unlisted 0 hlisted]

end

/-! The words of the input history (R124 step 4). -/

/-- The words of the input history at `h`, at their addresses in the window at `a`. -/
def inputPairs (a h cnt blk n : Nat) : List (Nat × Nat) :=
  (upTo n).flatMap fun q => ((upTo 4).filter (fun i => q / blk * 4 + i < cnt)).map fun i =>
    (a + q * 16 + 4 * i, h + q * 16 + 4 * i)

theorem mem_inputPairs {a h cnt blk n : Nat} {p : Nat × Nat} : p ∈ inputPairs a h cnt blk n ↔
    ∃ q < n, ∃ i < 4, q / blk * 4 + i < cnt ∧ p = (a + q * 16 + 4 * i, h + q * 16 + 4 * i) := by
  unfold inputPairs upTo
  simp only [List.mem_flatMap, List.mem_map, List.mem_filter, List.mem_range, decide_eq_true_eq]
  constructor
  · rintro ⟨q, hq, i, ⟨hi, hcnt⟩, rfl⟩
    exact ⟨q, hq, i, hi, hcnt, rfl⟩
  · rintro ⟨q, hq, i, hi, hcnt, rfl⟩
    exact ⟨q, hq, i, ⟨hi, hcnt⟩, rfl⟩

/-- The words go to addresses in rising order, so they lie apart. -/
theorem inputPairs_apart (a h cnt blk n : Nat) :
    (inputPairs a h cnt blk n).Pairwise fun x y => x.1 + 4 ≤ y.1 ∨ y.1 + 4 ≤ x.1 := by
  unfold inputPairs upTo
  rw [List.pairwise_flatMap]
  refine ⟨fun q _ => ?_, List.pairwise_lt_range.imp fun hlt x hx y hy => ?_⟩
  · refine List.pairwise_map.2 ((List.Pairwise.filter _ List.pairwise_lt_range).imp fun hlt => ?_)
    dsimp only
    omega
  · simp only [List.mem_map, List.mem_filter, List.mem_range] at hx hy
    obtain ⟨i, ⟨hi, -⟩, rfl⟩ := hx
    obtain ⟨j, ⟨hj, -⟩, rfl⟩ := hy
    dsimp only
    omega


/-! The load (R124 step 4). -/

/-- The memory that the load of a migration leaves, where no bank is fenced: the snapshot, and over its input area the input
history. -/
def loadedMem (s : State) : List (Nat × Byte) :=
  let t := s.liveOf s.mig.dst
  let a := dmemAddr (s.mig.dst / 64) (t.sb * 4)
  putAll ((inputPairs a (s.migPool + t.winSize * 16) t.inCnt s.blk (t.inQuads s.blk)).map fun p => (p.1, wordOf s.mem p.2))
    (s.copied s.migPool a (t.winSize * 16))

theorem migLoad_eq {s : State} (hwhole : ∀ u, s.fenced u = false) (hrun : s.rdB CLV_MIG_STAT 0 = true)
    (hblk : s.blockNo = (s.mig.k + 1) % 2 ^ 32) (hcreated : s.mig.created = true) (hsnap : s.mig.snap = true)
    (hload : s.mig.loaded = false) (hhist : (s.liveOf s.mig.dst).inQuads s.blk ≤ s.mig.hist) :
    s.migLoad = { s with mem := loadedMem s, mig := { s.mig with loaded := true } } := by
  have hcond : (s.rdB CLV_MIG_STAT 0 && decide (s.blockNo = (s.mig.k + 1) % 2 ^ 32) && s.mig.created && s.mig.snap &&
      !s.mig.loaded) = true := by simp [hrun, hblk, hcreated, hsnap, hload]
  unfold State.migLoad
  dsimp only
  rw [if_pos hcond, if_pos hhist]
  refine (fenceRange_unfenced ?_ _ _ _ _).trans ?_
  · exact hwhole
  unfold loadedMem putAll inputPairs
  simp only [whole_of_unfenced hwhole, if_true, List.foldl_map, List.foldl_flatMap]

section

variable (s : State)

/-- The input history stands in the window word by word. -/
theorem loadedMem_input {q i : Nat} (hq : q < (s.liveOf s.mig.dst).inQuads s.blk) (hi : i < 4)
    (hcnt : q / s.blk * 4 + i < (s.liveOf s.mig.dst).inCnt) :
    wordOf (loadedMem s) (dmemAddr (s.mig.dst / 64) ((s.liveOf s.mig.dst).sb * 4) + q * 16 + 4 * i) =
      wordOf s.mem (s.migPool + (s.liveOf s.mig.dst).winSize * 16 + q * 16 + 4 * i) :=
  putAll_same (List.pairwise_map.2 (inputPairs_apart _ _ _ _ _))
    (List.mem_map.2 ⟨_, mem_inputPairs.2 ⟨q, hq, i, hi, hcnt, rfl⟩, rfl⟩) _

/-- Outside the window's input area the load is the snapshot's copy. -/
theorem loadedMem_outside {x : Nat} (h : x < dmemAddr (s.mig.dst / 64) ((s.liveOf s.mig.dst).sb * 4) ∨
      dmemAddr (s.mig.dst / 64) ((s.liveOf s.mig.dst).sb * 4) + (s.liveOf s.mig.dst).inQuads s.blk * 16 ≤ x) :
    sget 0 (loadedMem s) x = sget 0 (s.copied s.migPool (dmemAddr (s.mig.dst / 64) ((s.liveOf s.mig.dst).sb * 4))
      ((s.liveOf s.mig.dst).winSize * 16)) x := by
  refine putAll_byte (fun p hp => ?_) _
  obtain ⟨_, hpair, rfl⟩ := List.mem_map.1 hp
  obtain ⟨q, hq, i, hi, -, rfl⟩ := mem_inputPairs.1 hpair
  dsimp only
  omega

end

/-! The comparison (R124 step 7). -/

theorem mem_listedWords {m : List (Nat × Byte)} {a n k : Nat} : k ∈ (listedWords m a n).map Prod.fst ↔
    ∃ x ∈ m.map Prod.fst, a ≤ x ∧ x < a + 4 * n ∧ (x - a) / 4 = k := by
  unfold listedWords
  simp only [List.map_map, List.mem_map, List.mem_dedup, List.mem_filter, Bool.and_eq_true, decide_eq_true_eq,
    Function.comp_apply, exists_eq_right]
  constructor
  · rintro ⟨kv, ⟨hmem, hlo, hhi⟩, rfl⟩
    exact ⟨kv.1, ⟨kv, hmem, rfl⟩, hlo, hhi, rfl⟩
  · rintro ⟨_, ⟨kv, hmem, rfl⟩, hlo, hhi, rfl⟩
    exact ⟨kv, ⟨hmem, hlo, hhi⟩, rfl⟩

/-- A word of a range that is not 0 is listed. -/
theorem listed_of_wordOf_ne {m : List (Nat × Byte)} {a n k : Nat} (hk : k < n) (h : wordOf m (a + 4 * k) ≠ 0) :
    k ∈ (listedWords m a n).map Prod.fst := by
  by_contra hout
  have hzero : ∀ j < 4, sget 0 m (a + 4 * k + j) = 0 := fun j hj =>
    sget_unlisted 0 fun hin => hout (mem_listedWords.2 ⟨_, hin, by omega, by omega, by omega⟩)
  refine h ?_
  have h0 : sget 0 m (a + 4 * k) = 0 := hzero 0 (by omega)
  unfold wordOf
  rw [hzero 3 (by omega), hzero 2 (by omega), hzero 1 (by omega), h0]
  rfl

/-- The address of the window of a migration's source (R110). -/
def srcWindow (s : State) : Nat := dmemAddr (s.mig.src / 64) ((s.liveOf s.mig.src).sb * 4)

/-- The address of the window of a migration's destination (R110). -/
def dstWindow (s : State) : Nat := dmemAddr (s.mig.dst / 64) ((s.liveOf s.mig.dst).sb * 4)

/-- The words that the comparison reads of each window (R124 step 7). -/
def windowWords (s : State) : Nat := (s.liveOf s.mig.src).winSize * 4

theorem migDiff_eq (s : State) : s.migDiff =
    ((((listedWords s.mem (srcWindow s) (windowWords s)).map Prod.fst ++
      (listedWords s.mem (dstWindow s) (windowWords s)).map Prod.fst).dedup).filter (fun k =>
        wordOf s.mem (srcWindow s + 4 * k) != wordOf s.mem (dstWindow s + 4 * k))).min? := rfl

theorem migDiff_none {s : State} (h : ∀ k < windowWords s,
    wordOf s.mem (srcWindow s + 4 * k) = wordOf s.mem (dstWindow s + 4 * k)) : s.migDiff = none := by
  have hlt : ∀ a, ∀ k ∈ (listedWords s.mem a (windowWords s)).map Prod.fst, k < windowWords s := fun a k hk => by
    obtain ⟨x, -, hlo, hhi, rfl⟩ := mem_listedWords.1 hk
    omega
  rw [migDiff_eq, List.min?_eq_none_iff, List.filter_eq_nil_iff]
  intro k hk
  have hk' : k < windowWords s := (List.mem_append.1 (List.mem_dedup.1 hk)).elim (hlt _ k) (hlt _ k)
  simp [h k hk']

theorem migDiff_some {s : State} {k : Nat} (hk : k < windowWords s)
    (h : wordOf s.mem (srcWindow s + 4 * k) ≠ wordOf s.mem (dstWindow s + 4 * k)) : ∃ w, s.migDiff = some w := by
  rw [← Option.ne_none_iff_exists', migDiff_eq, Ne, List.min?_eq_none_iff]
  refine List.ne_nil_of_mem (a := k) (List.mem_filter.2 ⟨List.mem_dedup.2 (List.mem_append.2 ?_), by simpa using h⟩)
  by_cases hsrc : wordOf s.mem (srcWindow s + 4 * k) = 0
  · exact .inr (listed_of_wordOf_ne hk (hsrc ▸ h.symm))
  · exact .inl (listed_of_wordOf_ne hk hsrc)

section

variable {s : State} (hrun : s.rdB CLV_MIG_STAT 0 = true) (hblk : s.blockNo = (s.mig.k + 2) % 2 ^ 32)
  (hcmp : s.mig.cmp = false) (hsrc : s.migUnrun s.mig.src = false) (hdst : s.migUnrun s.mig.dst = false)

include hrun hblk hcmp hsrc hdst

theorem migCompare_equal (h : s.migDiff = none) : s.migCompare = { s with mig := { s.mig with cmp := true } } := by
  simp [State.migCompare, hrun, hblk, hcmp, hsrc, hdst, h]

theorem migCompare_differs {w : Nat} (h : s.migDiff = some w) :
    s.migCompare = (s.wr CLV_MIG_DIFF (setBits (setBit 0 31 true) 15 0 w)).migAbort 4 := by
  simp [State.migCompare, hrun, hblk, hcmp, hsrc, hdst, h]

/-- Windows that differ end the migration with cause 4, and CLV_MIG_DIFF is valid (R124). -/
theorem migCompare_differs_spec {w : Nat} (h : s.migDiff = some w) :
    s.migCompare.rdB CLV_MIG_STAT 0 = false ∧ s.migCompare.rdF CLV_MIG_STAT 5 4 = 2 ∧
      s.migCompare.rdF CLV_MIG_STAT 11 8 = 4 ∧ s.migCompare.rdB CLV_MIG_DIFF 31 = true := by
  have hstill : (s.wr CLV_MIG_DIFF (setBits (setBit 0 31 true) 15 0 w)).rdB CLV_MIG_STAT 0 = true :=
    (congrArg (bit · 0) (State.rd_wr_other _ _ (by decide))).trans hrun
  obtain ⟨hoff, hstatus, hcause, hdiff, -⟩ := migAbort_spec hstill (by omega : 4 < 16)
  rw [migCompare_differs hrun hblk hcmp hsrc hdst h]
  refine ⟨hoff, hstatus, hcause, ?_⟩
  rw [State.rdB, hdiff, State.rd_wr_same, bit_setBits _ (by omega) (by omega), if_neg (by omega),
    bit_setBit_same _ (by omega)]

end

/-- Settles O32: a start by its refuse code (`migRefuse_eq`), an abort by the cycle it comes in, the load as the memory it
leaves (`loadedMem`), and the comparison by the first word that differs. -/
theorem migrationSteps : Obligations.MigrationSteps := by
  unfold Obligations.MigrationSteps
  refine ⟨fun s q hreach htbl => gives_gated rfl hreach ?_, fun s q hreach hrun hrate => gives_gated rfl hreach ?_,
    fun s hrun hblk hcreated hsnap hload hwf hhist _ hwhole => (gives_iff_of_done rfl).2 ?_,
    fun s hrun hblk hcmp hsrc hdst => (gives_iff_of_done rfl).2 ?_⟩
  · have hcode : (s.respond 0 false).migRefuse = startRefused s := migRefuse_eq (s := s.respond 0 false) htbl
    have hctrl : (s.respond 0 false).migCtrl 1#32 = (s.respond 0 false).migStart := rfl
    rw [hctrl]
    refine ⟨fun hok => ?_, fun hno => ?_⟩
    · obtain ⟨hbusy, hphase, hdiff⟩ := migStart_accepted_shows (hcode.trans hok)
      obtain ⟨-, hsrc, hdst, hk⟩ := migStart_accepted (hcode.trans hok)
      exact ⟨hbusy, hphase, hdiff, hsrc, hdst, hk⟩
    · obtain ⟨hfield, hflag, hmig, honly⟩ := migStart_refused_spec (s := s.respond 0 false) (hcode ▸ hno)
        (hcode ▸ startRefused_lt s)
      exact ⟨hfield.trans hcode, hflag, hmig, honly.after_respond⟩
  · rw [migCtrl_abort (s := s.respond 0 false) hrun]
    have hdue := migTickDue_iff (s := s.respond 0 false) hrate
    refine ⟨fun hno => ?_, fun hyes => ?_⟩
    · rw [if_neg fun h => hno (hdue.1 h)]
      obtain ⟨hoff, hstatus, hcause, -, hmem⟩ := migAbort_spec (s := s.respond 0 false) hrun (by omega : 1 < 16)
      exact ⟨hoff, hstatus, hcause, hmem⟩
    · rw [if_pos (hdue.2 hyes)]
      exact ⟨rfl, rfl, fun _ _ => rfl⟩
  · rw [migLoad_eq hwhole hrun hblk hcreated hsnap hload hhist]
    refine ⟨rfl, rfl, fun i hlo hhi => ?_, fun q hq i hi hcnt => loadedMem_input s hq hi hcnt, fun x hx => ?_⟩
    · exact (loadedMem_outside s (.inr (by omega))).trans (copied_inside hwhole _ _ _ hwf hhi)
    · exact (loadedMem_outside s (by omega)).trans (copied_outside hwhole _ _ _ (by omega))
  · refine ⟨fun h => ?_, fun k hk h => ?_⟩
    · rw [migCompare_equal hrun hblk hcmp hsrc hdst (migDiff_none h)]
      exact ⟨rfl, hrun, rfl⟩
    · obtain ⟨w, hw⟩ := migDiff_some hk h
      exact migCompare_differs_spec hrun hblk hcmp hsrc hdst hw

end Sys2Proof

namespace Sys2Proof

open Sys2Proof.Machine

/-! A Timed head under a steer with no bound (R213, R293). -/

/-- A Timed event of flow 0, a nanosecond ahead of the STC at 0. -/
def nearStamp : Ev := ⟨0, 0, 1, 0, 0, 0, 1, [0, 0, 0, 0, 0], none, 0, none, false⟩

/-- One engine cycle of this STC takes 2³¹ + 1 seconds: the steer is no value that R293 allows. -/
def leapingStc : State :=
  { State.reset with steer := 2147483649 * 1000000000000000000000 - 1000000000000, clove := { queue := [nearStamp], next := 1 } }

theorem leapingStc_met : leapingStc.head? (0#12).toNat = some nearStamp ∧ nearStamp.cls = 1 ∧
    leapingStc.rdB ANI_CTRL 0 = false ∧ 0 < leapingStc.stcRate ∧
    leapingStc.stc + (leapingStc.stampDist nearStamp).toNat * 1000000000000 + leapingStc.stcRate < 2 ^ 48 * stcSecond := by
  decide

/-- The cycle that passes the stamp carries the STC more than 2³¹ seconds past it, where the 32-bit seconds of the
stamp read as ahead of the STC again. -/
theorem not_due_leapingStc : (leapingStc.timedDue (0#12).toNat).due nearStamp = false := by decide

/-- Refutes O35: a Timed head is not due after TIMED_EVENT_DUE where one cycle carries the STC more than 2³¹ seconds past
its stamp; the statement bounds the STC's rate by its range alone, not by R293. -/
theorem not_eventDeliveries : ¬ Obligations.EventDeliveries := by
  unfold Obligations.EventDeliveries
  rintro ⟨-, -, htimed, -, -⟩
  obtain ⟨hhead, hcls, hani, hrate, hbound⟩ := leapingStc_met
  obtain ⟨-, -, hdue⟩ := (gives_iff_of_done rfl).1 (htimed leapingStc 0#12 nearStamp hhead hcls hani hrate hbound)
  exact absurd (not_due_leapingStc.symm.trans hdue) (by decide)

end Sys2Proof

namespace Sys2Proof

open Sys2Proof.Machine

/-! Outstanding transactions that only the count of held ones marks (R135). -/

/-- A transaction of which only whether it has been counted as held may be new. -/
def Machine.BusTxn.marked (f : BusTxn → Bool) (x : BusTxn) : BusTxn := { x with counted := f x }

/-- Holding at the MXM counts in a register and marks the counted transactions; nothing else changes. -/
theorem mxmHold_eq (s : State) : ∃ regs f, s.mxmHold =
    { s with regs := regs, bmx := { s.bmx with txns := s.bmx.txns.map (BusTxn.marked f) } } := by
  unfold State.mxmHold State.each
  dsimp only
  generalize s.bmx.txns.filter (fun x => s.mxmHeld x && !x.counted && s.leadOn x) = xs
  induction xs generalizing s with
  | nil => exact ⟨s.regs, BusTxn.counted, by rw [show BusTxn.marked BusTxn.counted = id from rfl, List.map_id]; rfl⟩
  | cons x xs ih =>
    obtain ⟨regs, f, h⟩ := ih { s.count MXM_HOLD_CNT with
      bmx := { s.bmx with txns := s.bmx.txns.map (fun y => if y.id = x.id then { y with counted := true } else y) } }
    refine ⟨regs, fun y => f (if y.id = x.id then { y with counted := true } else y), h.trans ?_⟩
    have hmark : BusTxn.marked f ∘ (fun y => if y.id = x.id then { y with counted := true } else y) =
        BusTxn.marked fun y => f (if y.id = x.id then { y with counted := true } else y) := by
      funext y
      simp only [BusTxn.marked, Function.comp_apply]
      split <;> rfl
    rw [← hmark, ← List.map_map]
    rfl

@[simp] theorem mxmHold_mem (s : State) : s.mxmHold.mem = s.mem := by
  obtain ⟨regs, f, h⟩ := mxmHold_eq s
  rw [h]

@[simp] theorem mxmHold_rsp (s : State) : s.mxmHold.rsp = s.rsp := by
  obtain ⟨regs, f, h⟩ := mxmHold_eq s
  rw [h]

@[simp] theorem mxmHold_portWait (s : State) : s.mxmHold.portWait = s.portWait := by
  obtain ⟨regs, f, h⟩ := mxmHold_eq s
  rw [h]

@[simp] theorem mxmHold_nextId (s : State) : s.mxmHold.bmx.nextId = s.bmx.nextId := by
  obtain ⟨regs, f, h⟩ := mxmHold_eq s
  rw [h]

@[simp] theorem mxmHold_ptr (s : State) : s.mxmHold.bmx.ptr = s.bmx.ptr := by
  obtain ⟨regs, f, h⟩ := mxmHold_eq s
  rw [h]

theorem of_mem_mxmHold {s : State} {y : BusTxn} (h : y ∈ s.mxmHold.bmx.txns) :
    ∃ x ∈ s.bmx.txns, ∃ c, y = { x with counted := c } := by
  obtain ⟨regs, f, hold⟩ := mxmHold_eq s
  rw [hold] at h
  obtain ⟨x, hx, rfl⟩ := List.mem_map.1 h
  exact ⟨x, hx, f x, rfl⟩

/-- Every outstanding transaction is still there, but for the mark of being counted. -/
def KeepsTxns (s t : State) : Prop := ∀ x ∈ s.bmx.txns, ∃ c, { x with counted := c } ∈ t.bmx.txns

namespace KeepsTxns

theorem refl (s : State) : KeepsTxns s s := fun x hx => ⟨x.counted, hx⟩

theorem trans {s t u : State} (h : KeepsTxns s t) (k : KeepsTxns t u) : KeepsTxns s u := fun x hx => by
  obtain ⟨c, hc⟩ := h x hx
  obtain ⟨d, hd⟩ := k _ hc
  exact ⟨d, hd⟩

theorem mxmHold (s : State) : KeepsTxns s s.mxmHold := fun x hx => by
  obtain ⟨regs, f, h⟩ := mxmHold_eq s
  rw [h]
  exact ⟨f x, List.mem_map_of_mem hx⟩

end KeepsTxns

theorem exists_mem_mxmHold {s : State} {x : BusTxn} {p : BusTxn → Prop} (hx : x ∈ s.bmx.txns)
    (hp : ∀ c, p { x with counted := c }) : ∃ y ∈ s.mxmHold.bmx.txns, p y := by
  obtain ⟨c, hc⟩ := KeepsTxns.mxmHold s x hx
  exact ⟨_, hc, hp c⟩

/-! What the capture of a mirrored write leaves as it was: the queues of the Bus Matrix and of its ports (R330). -/

/-- The outstanding transactions, their numbering, and the transactions that wait for a place at their master's port
are as they were. -/
structure KeepsQueues (s t : State) : Prop where
  txns : t.bmx.txns = s.bmx.txns
  nextId : t.bmx.nextId = s.bmx.nextId
  portWait : t.portWait = s.portWait

namespace KeepsQueues

theorem refl (s : State) : KeepsQueues s s := ⟨rfl, rfl, rfl⟩

theorem trans {s t u : State} (h : KeepsQueues s t) (k : KeepsQueues t u) : KeepsQueues s u :=
  ⟨k.txns.trans h.txns, k.nextId.trans h.nextId, k.portWait.trans h.portWait⟩

theorem after {s t u : State} (k : KeepsQueues t u) (h : KeepsQueues s t) : KeepsQueues s u := h.trans k

theorem each {α : Type} {f : State → α → State} (h : ∀ s x, KeepsQueues s (f s x)) (l : List α) (s : State) :
    KeepsQueues s (s.each l f) := by
  induction l generalizing s with
  | nil => exact refl s
  | cons x l ih => exact (h s x).trans (ih (f s x))

theorem dngMirror (s : State) (n : Nat) (bs : List Byte) : KeepsQueues s (s.dngMirror n bs) := by
  unfold State.dngMirror
  split
  · refine each (fun s p => ?_) _ s
    unfold State.dngSend
    split <;> exact ⟨rfl, rfl, rfl⟩
  · exact refl s

theorem macMirror (s : State) (n : Nat) (bs : List Byte) : KeepsQueues s (s.macMirror n bs) := by
  unfold State.macMirror
  refine each (fun s p => ?_) _ s
  dsimp only
  split <;> exact ⟨rfl, rfl, rfl⟩

theorem aniCapture (s : State) (x : AniItem) : KeepsQueues s (s.aniCapture x) := by
  refine trans (t := s.aniSend x) ?_ ⟨rfl, rfl, rfl⟩
  unfold State.aniSend State.aniOut
  split
  · exact ⟨rfl, rfl, rfl⟩
  · dsimp only
    split
    · exact (macMirror _ _ _).after ⟨rfl, rfl, rfl⟩
    · exact (dngMirror _ _ _).after ⟨rfl, rfl, rfl⟩

theorem mirrorWrite (s : State) (t : Txn) : KeepsQueues s (s.mirrorWrite t) := by
  unfold State.mirrorWrite
  split
  · exact ⟨rfl, rfl, rfl⟩
  · refine each (fun s b => ?_) _ s
    split
    · exact refl s
    · exact aniCapture _ _

end KeepsQueues

/-! The acceptance of transactions (R191, R192, R196, R200). -/

/-- The entry with which a transaction joins the queue of its master (R191, R200). -/
structure Arrives (s : State) (t : Txn) (x : BusTxn) : Prop where
  id : x.id = s.bmx.nextId
  txn : x.txn = t
  cause : x.cause = s.acceptCause t
  waits : s.acceptCause t ≠ 0 ∨ s.mirrors t = false →
    x.granted = false ∧ x.beat = 0 ∧ (x.cause = 0 → x.target = targetOf t.lo)

/-- A port with a place takes a transaction: it joins the outstanding ones, and nothing that waits does. -/
theorem acceptTxn_spec {s : State} {t : Txn} (o : Origin) (hfree : s.portFree t.master.val = true) :
    (s.acceptTxn t o).portWait = s.portWait ∧ (s.acceptTxn t o).bmx.nextId = s.bmx.nextId + 1 ∧
    KeepsTxns s (s.acceptTxn t o) ∧ ∃ x ∈ (s.acceptTxn t o).bmx.txns, Arrives s t x := by
  unfold State.acceptTxn
  extract_lets m c seq s₁ broke bmx₁ s₂ mir s₃ tgt x bmx₃
  rw [if_pos hfree]
  have hq₁ : KeepsQueues s s₁ := by
    dsimp only [s₁]
    split <;> exact ⟨rfl, rfl, rfl⟩
  have hq₂ : KeepsQueues s₁ s₂ := by
    dsimp only [s₂]
    split <;> exact ⟨rfl, rfl, rfl⟩
  have hq₃ : KeepsQueues s₂ s₃ := by
    dsimp only [s₃]
    split
    · exact (KeepsQueues.mirrorWrite s₂ t).trans ⟨rfl, rfl, rfl⟩
    · exact .refl s₂
  obtain ⟨htxns, hnext, hwait⟩ := (hq₁.trans hq₂).trans hq₃
  have hmir : s.acceptCause t ≠ 0 ∨ s.mirrors t = false → mir = false := by
    have hsame : s₂.mirrors t = s.mirrors t := by
      dsimp only [s₂, s₁]
      split <;> split <;> rfl
    rintro (h | h)
    · simp [mir, c, h]
    · simp [mir, hsame, h]
  have harr : Arrives s t x := ⟨hnext, rfl, rfl, fun h => by simp +contextual [x, tgt, c, hmir h]⟩
  have hkept := KeepsTxns.mxmHold
    { s₃ with bmx := { s₃.bmx with txns := s₃.bmx.txns ++ [x], nextId := s₃.bmx.nextId + 1 } }
  obtain ⟨d, hd⟩ := hkept x (List.mem_append_right _ List.mem_cons_self)
  exact ⟨(mxmHold_portWait _).trans hwait, (mxmHold_nextId _).trans (congrArg (· + 1) hnext),
    fun y hy => hkept y (List.mem_append_left _ (htxns ▸ hy)), _, hd, harr.id, harr.txn, harr.cause, harr.waits⟩

theorem portPump_step {s : State} {w : Origin × Txn} {ws : List (Origin × Txn)} (hw : s.portWait = w :: ws)
    (hfree : s.portFree w.2.master.val = true) (n : Nat) :
    State.portPump (n + 1) s = State.portPump n (({ s with portWait := ws } : State).acceptTxn w.2 w.1) := by
  simp [State.portPump, hw, hfree]

/-- What waits for one port goes to it in order until its places are taken (R191, R192). -/
theorem portPump_spec (m : Fin 12) (n : Nat) {s : State} (hm : ∀ w ∈ s.portWait, w.2.master = m) :
    ∃ k ≤ s.portWait.length, (State.portPump n s).portWait = s.portWait.drop k ∧
      (State.portPump n s).bmx.nextId = s.bmx.nextId + k ∧ KeepsTxns s (State.portPump n s) := by
  induction n generalizing s with
  | zero => exact ⟨0, Nat.zero_le _, rfl, rfl, .refl s⟩
  | succ n ih =>
    cases hw : s.portWait with
    | nil => exact ⟨0, Nat.zero_le _, by simp [State.portPump, hw], by simp [State.portPump, hw],
        by simpa [State.portPump, hw] using KeepsTxns.refl s⟩
    | cons w ws =>
      rw [hw] at hm
      cases hfree : s.portFree w.2.master.val with
      | false =>
        have hnone : State.portPump (n + 1) s = s := by
          have hall : s.portWait.find? (fun w => s.portFree w.2.master) = none := by
            rw [hw]
            refine List.find?_eq_none.2 fun v hv => ?_
            rw [hm v hv, ← hm w List.mem_cons_self, hfree]
            decide
          simp [State.portPump, hall]
        rw [hnone]
        exact ⟨0, Nat.zero_le _, hw, rfl, .refl s⟩
      | true =>
        obtain ⟨hwait, hnext, hkept, -⟩ := acceptTxn_spec (s := { s with portWait := ws }) w.1 hfree
        obtain ⟨k, hk, hwait', hnext', hkept'⟩ := ih (s := ({ s with portWait := ws } : State).acceptTxn w.2 w.1)
          (by rw [hwait]; exact fun v hv => hm v (.tail _ hv))
        rw [portPump_step hw hfree]
        refine ⟨k + 1, ?_, ?_, ?_, ?_⟩
        · rw [hwait] at hk
          simpa using hk
        · rw [hwait', hwait]
          rfl
        · rw [hnext', hnext]
          show s.bmx.nextId + 1 + k = _
          omega
        · exact KeepsTxns.trans (s := s) hkept hkept'

theorem master_of_mem_portTxns {t p : Txn} (h : p ∈ portTxns t) : p.master = t.master := by
  unfold portTxns at h
  split at h
  · rw [List.mem_singleton.1 h]
  · obtain ⟨q, -, rfl⟩ := List.mem_map.1 h
    rfl

theorem portTxns_wide {t p : Txn} {ps : List Txn} (hw : portWidth t.master = 32) (h : portTxns t = p :: ps) :
    p = t ∧ ps = [] := by
  rw [portTxns, if_pos hw] at h
  obtain ⟨rfl, rfl⟩ := List.cons.inj h
  exact ⟨rfl, rfl⟩

/-- A page crossing keeps a transaction from its target, but for the causes of a lock (R200). -/
theorem acceptCause_crossing {s : State} {t : Txn} (hseq : s.lockSeq t.master.val = none) (hlapsed : s.bmx.lapsed = [])
    (hcross : t.lo / 4096 ≠ t.hi / 4096) : s.acceptCause t = 3 := by
  simp [State.acceptCause, hseq, hlapsed, hcross]

/-- The parts of a burst as they wait for its master's port. -/
def atPort (ps : List Txn) : List (Origin × Txn) := ps.map fun p => (Origin.plain, p)

/-- The first part of a burst joins the outstanding transactions, and of the others as many as places are free. -/
theorem acceptBurst_spec {s : State} {t p : Txn} {ps : List Txn} (hfree : s.portFree t.master.val = true)
    (hwait : s.portWait = []) (hparts : portTxns t = p :: ps) :
    (∃ n ≤ ps.length, (s.acceptBurst t).portWait.map Prod.snd = ps.drop n ∧
      (s.acceptBurst t).bmx.nextId = s.bmx.nextId + 1 + n) ∧
    ∃ x ∈ (s.acceptBurst t).bmx.txns, Arrives s p x := by
  have hmaster : ∀ q ∈ p :: ps, q.master = t.master := fun q hq => master_of_mem_portTxns (hparts ▸ hq)
  have hp : s.portFree p.master.val = true := by rw [hmaster p List.mem_cons_self, hfree]
  have hburst : s.acceptBurst t =
      State.portPump ps.length (({ s with portWait := atPort ps } : State).acceptTxn p .plain) := by
    refine Eq.trans ?_ (portPump_step (s := { s with portWait := atPort (p :: ps) }) (ws := atPort ps) rfl hp ps.length)
    simp [State.acceptBurst, State.portGo, hfree, hwait, hparts, atPort]
  obtain ⟨hwait₁, hnext₁, -, x, hx, harr⟩ := acceptTxn_spec (s := { s with portWait := atPort ps }) .plain hp
  rw [hburst]
  generalize ({ s with portWait := atPort ps } : State).acceptTxn p .plain = u at *
  obtain ⟨n, hn, hwait₂, hnext₂, hkept⟩ := portPump_spec t.master ps.length (s := u) (by
    rw [hwait₁]
    intro w hw
    obtain ⟨q, hq, rfl⟩ := List.mem_map.1 hw
    exact hmaster q (.tail _ hq))
  obtain ⟨c, hc⟩ := hkept x hx
  refine ⟨⟨n, by simpa [hwait₁, atPort] using hn, ?_, hnext₂.trans (congrArg (· + n) hnext₁)⟩,
    _, hc, harr.id, harr.txn, harr.cause, harr.waits⟩
  rw [hwait₂, hwait₁, List.map_drop]
  simp [atPort]

/-! Arbitration (R194). -/

theorem winner_eq_none {s : State} {t : Nat} {l : List BusTxn} (h : s.winner t l = none) : l = [] := by
  cases l with
  | nil => rfl
  | cons x l =>
    unfold State.winner at h
    split at h
    · cases h
    · dsimp only at h
      split_ifs at h

/-- The winner is one of those that compete, and none of them has a higher priority. -/
theorem winner_spec {s : State} {t : Nat} {l : List BusTxn} {x : BusTxn} (h : s.winner t l = some x) :
    x ∈ l ∧ ∀ y ∈ l, s.priority y.txn.master.val t ≤ s.priority x.txn.master.val t := by
  induction l generalizing x with
  | nil => cases h
  | cons y l ih =>
    unfold State.winner at h
    cases hl : s.winner t l with
    | none =>
      rw [hl] at h
      obtain rfl := Option.some.inj h
      simp [winner_eq_none hl]
    | some z =>
      obtain ⟨hz, hmax⟩ := ih hl
      have hof : x = y ∧ s.priority z.txn.master.val t ≤ s.priority y.txn.master.val t ∨
          x = z ∧ s.priority y.txn.master.val t ≤ s.priority z.txn.master.val t := by
        rw [hl] at h
        dsimp only at h
        split_ifs at h <;> obtain rfl := Option.some.inj h <;> [left; right; left; right] <;>
          exact ⟨rfl, by omega⟩
      rcases hof with ⟨rfl, hle⟩ | ⟨rfl, hle⟩
      · exact ⟨.head _, List.forall_mem_cons.2 ⟨le_rfl, fun v hv => (hmax v hv).trans hle⟩⟩
      · exact ⟨.tail _ hz, List.forall_mem_cons.2 ⟨hle, hmax⟩⟩

theorem maxF_regs (s : State) (r : Reg) (hi lo v : Nat) :
    ∃ regs, s.maxF r hi lo v = { s with regs := regs } := by
  unfold State.maxF
  dsimp only
  split_ifs
  all_goals exact ⟨_, rfl⟩

/-- A grant to the winner of an arbitration. -/
theorem grant_spec {s : State} {t : Nat} {x : BusTxn} (hfree : s.holder t = none)
    (hwin : s.winner t (s.bmx.txns.filter (s.grantable t)) = some x) :
    (∃ y ∈ (s.grant t).bmx.txns, y.id = x.id ∧ y.granted = true ∧ y.txn = x.txn) ∧
    sget 0 (s.grant t).bmx.ptr t = (x.txn.master.val + 1) % 12 ∧ (s.grant t).mem = s.mem := by
  have hx : x ∈ s.bmx.txns := (List.mem_filter.1 (winner_spec hwin).1).1
  obtain ⟨regs, hmax⟩ := maxF_regs (s.updTxn x.id fun y => { y with granted := true })
    (BMX_WAITMAX x.txn.master.val) 15 0 (s.now - x.since)
  have hgrant : s.grant t = State.mxmHold { s with
      regs := regs, bmx := { s.bmx with
        txns := s.bmx.txns.map (fun y => if y.id = x.id then { y with granted := true } else y),
        ptr := sset 0 s.bmx.ptr t ((x.txn.master.val + 1) % 12) } } := by
    unfold State.grant
    rw [hfree, hwin]
    dsimp only
    rw [hmax]
    rfl
  rw [hgrant, mxmHold_ptr]
  refine ⟨?_, sget_sset_same _ _ _ _, mxmHold_mem _⟩
  exact exists_mem_mxmHold (x := { x with granted := true }) (List.mem_map.2 ⟨x, hx, if_pos rfl⟩) fun _ => ⟨rfl, rfl, rfl⟩

/-! Beats at the Sample Pool (R189, R195). -/

theorem holder_spec {s : State} {t : Nat} {x : BusTxn} (h : s.holder t = some x) :
    x ∈ s.bmx.txns ∧ x.granted = true ∧ x.cause = 0 ∧ x.target = t ∧ x.beat < x.txn.beats.length := by
  have hp := List.find?_some h
  simp only [Bool.and_eq_true, decide_eq_true_eq, and_assoc] at hp
  exact ⟨List.mem_of_find?_eq_some h, hp⟩

theorem targetOf_pool {a : Nat} (hlo : 0x10000000 ≤ a) (hhi : a < 0x12000000) :
    targetOf a = (a - 0x10000000) / 0x800000 := by
  unfold targetOf
  rw [if_neg (by omega), if_neg (by omega), if_pos ⟨hlo, hhi⟩]

theorem isRegAddr_pool {a : Nat} (hlo : 0x10000000 ≤ a) (hhi : a < 0x12000000) : isRegAddr a = false := by
  rw [isRegAddr, decide_eq_false (by omega), decide_eq_false (by omega)]
  rfl

theorem partialWrite_pool {t : Txn} (hlo : 0x10000000 ≤ t.lo) (hhi : t.lo < 0x12000000) : partialWrite t = false := by
  have h9 : targetOf t.lo ≠ 9 := by rw [targetOf_pool hlo hhi]; omega
  have hpmem : ¬ 0x20000000 ≤ t.lo := by omega
  simp [partialWrite, h9, hpmem]

theorem lockEnd_eq (s : State) (x : BusTxn) : ∃ b, s.lockEnd x = { s with bmx := b } ∧ b.txns = s.bmx.txns := by
  unfold State.lockEnd
  dsimp only
  split_ifs
  · exact ⟨_, rfl, rfl⟩
  · exact ⟨_, rfl, rfl⟩
  · split <;> exact ⟨_, rfl, rfl⟩
  · exact ⟨_, rfl, rfl⟩

/-- A beat that a target has served changes the Bus Matrix alone, and of its transactions the one served. -/
theorem beatDone_eq (s : State) (x : BusTxn) (d : BitVec 256) : ∃ b, s.beatDone x d = { s with bmx := b } ∧
    b.txns = s.bmx.txns.map (fun y => if y.id = x.id then x.served d else y) := by
  unfold State.beatDone
  dsimp only
  split
  · exact lockEnd_eq (s.updTxn x.id fun _ => x.served d) x
  · exact ⟨_, rfl, rfl⟩

theorem mem_beatBytes {a : Nat} {strb : BitVec 32} {data : BitVec 256} {p : Nat × Byte} :
    p ∈ beatBytes a strb data ↔ ∃ i < 32, strb.getLsbD i = true ∧ p = (a + i, data.extractLsb' (8 * i) 8) := by
  unfold beatBytes
  simp only [upTo, List.mem_map, List.mem_filter, List.mem_range, and_assoc, eq_comm]

theorem beatBytes_distinct (a : Nat) (strb : BitVec 32) (data : BitVec 256) :
    (beatBytes a strb data).Pairwise fun p q => p.1 ≠ q.1 := by
  refine List.Pairwise.map _ ?_ (List.Pairwise.filter _ List.nodup_range)
  intro i j hij
  dsimp only
  omega

/-- A memory with the strobed bytes of a beat at an address. -/
def beatPut (m : List (Nat × Byte)) (a : Nat) (b : Beat) : List (Nat × Byte) :=
  (beatBytes a b.strb b.data).foldl (fun m p => putByte m p.1 p.2) m

theorem beatPut_strobed (m : List (Nat × Byte)) (a : Nat) {b : Beat} {i : Nat} (hi : i < 32)
    (hs : b.strb.getLsbD i = true) : sget 0 (beatPut m a b) (a + i) = b.data.extractLsb' (8 * i) 8 :=
  putAll_mem (beatBytes_distinct _ _ _) (mem_beatBytes.2 ⟨i, hi, hs, rfl⟩) m

theorem beatPut_other (m : List (Nat × Byte)) {a j : Nat} {b : Beat}
    (h : ∀ i < 32, b.strb.getLsbD i = true → j ≠ a + i) : sget 0 (beatPut m a b) j = sget 0 m j := by
  refine putAll_other (fun p hp => ?_) m
  obtain ⟨i, hi, hs, rfl⟩ := mem_beatBytes.1 hp
  exact h i hi hs

theorem memBeatWrite_pool {s : State} {a : Nat} {t : Fin 4} {b : Beat} (htarget : targetOf a = t)
    (hfence : s.fencedHit a b.strb = none) (m : Nat) :
    s.memBeatWrite m a b.strb b.data = ({ s with mem := beatPut s.mem a b }, false) := by
  rw [State.memBeatWrite, hfence, htarget]
  fin_cases t <;> rfl

theorem memBeatRead_pool {s : State} {a : Nat} {t : Fin 4} {strb : BitVec 32} (htarget : targetOf a = t)
    (hfence : s.fencedHit a strb = none) (m : Nat) : s.memBeatRead m a strb = (s.beatAt a, s, false) := by
  rw [State.memBeatRead, hfence, htarget]
  fin_cases t <;> rfl

section PoolBeat

variable {s : State} {t : Fin 4} {x : BusTxn} {b : Beat}
  (hholder : s.holder t = some x) (hbeat : x.txn.beats[x.beat]? = some b) (hlo : 0x10000000 ≤ x.txn.lo)
  (hhi : x.txn.lo + 32 * x.beat + 32 ≤ 0x12000000) (htarget : targetOf (x.txn.lo + 32 * x.beat) = t)
  (hfence : s.fencedHit (x.txn.lo + 32 * x.beat) b.strb = none) (hlive : (x.killed && x.txn.write) = false)

include hholder hbeat hlo hhi htarget hfence hlive

/-- A beat at the Sample Pool meets no register, no hold at the MXM, no partial bundle and no fence: a write puts its
strobed bytes, a read returns the bytes there, and the far beats that wait at the target have met it (R62, R195). -/
theorem serve_pool : ∃ engs, (s.beatsAt t = [] → engs = s.engs) ∧
    s.serve t = if x.txn.write
      then State.beatDone { s with engs := engs, mem := beatPut s.mem (x.txn.lo + 32 * x.beat) b } x 0
      else State.beatDone { s with engs := engs } x (s.beatAt (x.txn.lo + 32 * x.beat)) := by
  obtain ⟨-, -, -, htgt, -⟩ := holder_spec hholder
  have hnext : x.next? = some (x.txn.lo + 32 * x.beat, b) := by simp [BusTxn.next?, hbeat, hlive]
  have hheld : s.mxmHeld x = false := by
    have h8 : x.target ≠ 8 := by omega
    simp [State.mxmHeld, h8]
  have hserve : s.serve t = s.memBeat x := by
    unfold State.serve State.beatServe
    rw [if_neg (by omega), hholder]
    simp [hnext, hheld, isRegAddr_pool (a := x.txn.lo + 32 * x.beat) (by omega) (by omega)]
  obtain ⟨hcontend, -⟩ := contend_eq (s.beatsAt t) s
  refine ⟨(s.contend (s.beatsAt t)).engs, fun h => by rw [h]; rfl, ?_⟩
  generalize (s.contend (s.beatsAt t)).engs = engs at hcontend
  have hfence' : State.fencedHit { s with engs := engs } (x.txn.lo + 32 * x.beat) b.strb = none := hfence
  rw [hserve, State.memBeat, htgt, if_pos t.isLt, hcontend]
  dsimp only
  rw [hnext]
  dsimp only
  rw [partialWrite_pool hlo (by omega), memBeatWrite_pool htarget hfence', memBeatRead_pool htarget hfence']
  simp [State.beatAt, State.byte]

end PoolBeat

end Sys2Proof

namespace Sys2Proof

open Sys2Proof.Machine

/-! A served beat, and its target after it (R195). -/

theorem gives_beatServe {s u : State} {t : Fin 16} {P : State → Prop} (h : s.serve t = u) (hP : P u.settle) :
    Gives (.bmxBeatServe t) s P :=
  (gives_iff_of_done (c := .bmxBeatServe t) (congrArg done h)).2 hP

/-- After its last beat a transaction holds its target no more. -/
theorem holder_after_last {s u : State} {t : Nat} {x : BusTxn} {d : BitVec 256}
    (htxns : u.bmx.txns = s.bmx.txns.map fun y => if y.id = x.id then x.served d else y)
    (hlast : x.beat + 1 = x.txn.beats.length) (honly : ∀ y ∈ s.bmx.txns, y.granted = true → y.id = x.id) :
    u.holder t = none := by
  refine List.find?_eq_none.2 fun v hv => ?_
  rw [htxns] at hv
  obtain ⟨y, hy, rfl⟩ := List.mem_map.1 hv
  by_cases hid : y.id = x.id
  · simp [hid, BusTxn.served, hlast]
  · have hg : y.granted = false := by
      by_contra h
      exact hid (honly y hy (by simpa using h))
    simp [hid, hg]

/-! Error responses (R200). -/

theorem errWord_fields (m mm : Nat) (guest write : Bool) (cause target : Nat) :
    bit (errWord m mm guest write cause target) 31 = true ∧
    bits (errWord m mm guest write cause target) 11 8 = mm % 16 := by
  unfold errWord
  refine ⟨?_, bits_setBits_same _ (by omega) (by omega) _⟩
  rw [bit_setBits _ (by omega) (by omega), if_neg (by omega), bit_setBits _ (by omega) (by omega), if_neg (by omega),
    bit_setBits _ (by omega) (by omega), if_neg (by omega), bit_setBit_other _ (by omega),
    bit_setBit_other _ (by omega), bit_setBit_same _ (by omega)]

/-- An error response or a master reset is counted, flagged, and logged if nothing was. -/
theorem busLog_spec (s : State) {m : Nat} (hm : m < 12) (guest write : Bool) (cause target addr : Nat) :
    OnlyRegs s (s.busLog m guest write cause target addr) [BMX_ERR_CNT, BMX_INT, BMX_ERRLOG, BMX_ERRADDR] ∧
    (s.busLog m guest write cause target addr).rdF BMX_ERR_CNT 31 0 =
      min (s.rdF BMX_ERR_CNT 31 0 + 1) (2 ^ 32 - 1) ∧
    (s.busLog m guest write cause target addr).rdB BMX_INT 0 = true ∧
    (s.rdB BMX_ERRLOG 31 = false → (s.busLog m guest write cause target addr).rdB BMX_ERRLOG 31 = true ∧
      (s.busLog m guest write cause target addr).rdF BMX_ERRLOG 11 8 = m ∧
      (s.busLog m guest write cause target addr).rd BMX_ERRADDR = BitVec.ofNat 32 addr) := by
  let s₁ := (s.count BMX_ERR_CNT).raise BMX_INT 1#32
  have honly : OnlyRegs s s₁ [BMX_ERR_CNT, BMX_INT] := (OnlyRegs.count s _).trans (.upd _ _ _)
  have hcnt : s₁.rdF BMX_ERR_CNT 31 0 = min (s.rdF BMX_ERR_CNT 31 0 + 1) (2 ^ 32 - 1) := by
    rw [← rdF_count_same]
    unfold State.rdF
    rw [State.rd_raise_other _ _ (by decide)]
  have hint : s₁.rdB BMX_INT 0 = true := by
    simp [s₁, State.rdB, bit]
  have hlog : s₁.rdB BMX_ERRLOG 31 = s.rdB BMX_ERRLOG 31 := congrArg (bit · 31) (honly.2 _ (by decide))
  unfold State.busLog
  dsimp only
  rw [show ((s.count BMX_ERR_CNT).raise BMX_INT 1#32).rdB BMX_ERRLOG 31 = _ from hlog]
  split
  · next hfull => exact ⟨honly.mono (by simp), hcnt, hint, fun h => absurd (hfull.symm.trans h) (by decide)⟩
  · obtain ⟨hvalid, hmaster⟩ := errWord_fields m m guest write cause target
    unfold State.rdF State.rdB at *
    refine ⟨(honly.trans (.wr _ _ _)).trans (.wr _ _ _), ?_, ?_, fun _ => ⟨?_, ?_, State.rd_wr_same _ _ _⟩⟩
    · rw [State.rd_wr_other _ _ (by decide), State.rd_wr_other _ _ (by decide)]
      exact hcnt
    · rw [State.rd_wr_other _ _ (by decide), State.rd_wr_other _ _ (by decide)]
      exact hint
    · rw [State.rd_wr_other _ _ (by decide), State.rd_wr_same]
      exact hvalid
    · rw [State.rd_wr_other _ _ (by decide), State.rd_wr_same, hmaster]
      omega

/-- The first beat that DEFAULT serves of a transaction of a master other than the host logs its error. -/
theorem defaultBeat_first {s : State} {x : BusTxn} (h : s.defaultNext = some x) (herr : x.err = 0)
    (hm : x.txn.master.val ≠ 6) : s.defaultBeat =
      (s.busLog x.txn.master x.txn.guest x.txn.write x.cause x.target x.txn.first).updTxn x.id
        fun _ => BusTxn.served { x with err := x.cause } 0 := by
  simp [State.defaultBeat, h, State.txnErr, herr, State.busErr, hm]

/-! Completion (R191). -/

/-- A transaction that its master's port asked for leaves, with its response. -/
theorem completeAt_plain {s : State} {t : Nat} {x : BusTxn} (h : s.doneAt t = some x) (hlive : x.killed = false)
    (horigin : x.origin = .plain) (hwait : s.portWait = []) :
    (s.completeAt t).rsp = ⟨if x.txn.write then [] else x.data, x.err != 0⟩ ∧
    (∀ y ∈ (s.completeAt t).bmx.txns, y.id ≠ x.id) ∧ (s.completeAt t).mem = s.mem := by
  have hend : s.completeAt t = State.mxmHold { s with
      rsp := ⟨if x.txn.write then [] else x.data, x.err != 0⟩,
      bmx := { s.bmx with txns := s.bmx.txns.filter (fun y => y.id != x.id) } } := by
    simp [State.completeAt, h, State.endTxn, hlive, horigin, State.txnOutcome, State.respondBeats, State.portGo, hwait,
      State.portPump]
  rw [hend]
  refine ⟨mxmHold_rsp _, fun y hy => ?_, mxmHold_mem _⟩
  obtain ⟨z, hz, c, rfl⟩ := of_mem_mxmHold hy
  have hne : z.id ≠ x.id := by simpa using (List.mem_filter.1 hz).2
  exact hne

/-! The timeout of a lock (R196). -/

theorem lockTimeout_eq {s : State} {t : Nat} {l : Lock} (h : s.bmx.locks.find? (fun k => k.1 = t) = some (t, l))
    (hw : s.lockWrite l.master = false) : s.lockTimeout t =
      let u := s.advanceTo (l.from_ + s.rdF BMX_LOCK_TO 9 0)
      { u with bmx := { s.bmx with locks := s.bmx.locks.filter (fun k => k.1 != t),
                                   lapsed := s.bmx.lapsed ++ [l.master] } } := by
  rw [State.lockTimeout, h]
  dsimp only
  rw [hw]
  rfl

theorem lockTimeout_spec {s : State} {t : Nat} {l : Lock} (h : s.bmx.locks.find? (fun k => k.1 = t) = some (t, l))
    (hw : s.lockWrite l.master = false) :
    (∀ k ∈ (s.lockTimeout t).bmx.locks, k.1 ≠ t) ∧ l.master ∈ (s.lockTimeout t).bmx.lapsed ∧
    l.from_ + s.rdF BMX_LOCK_TO 9 0 ≤ (s.lockTimeout t).now ∧
    (s.lockTimeout t).mem = s.mem ∧ (s.lockTimeout t).regs = s.regs := by
  rw [lockTimeout_eq h hw]
  refine ⟨fun k hk => by simpa using (List.mem_filter.1 hk).2, by simp, ?_, rfl, rfl⟩
  show _ ≤ s.now + (l.from_ + s.rdF BMX_LOCK_TO 9 0 - s.now)
  omega

/-! The reset of a master (R201). -/

/-- The Bus Matrix, the memory and the registers below the host interface's are as they were. -/
structure KeepsBus (s t : State) : Prop where
  bmx : t.bmx = s.bmx
  mem : t.mem = s.mem
  regs : ∀ r : Reg, r.addr < 0x50100000 → t.rd r = s.rd r

namespace KeepsBus

theorem refl (s : State) : KeepsBus s s := ⟨rfl, rfl, fun _ _ => rfl⟩

theorem trans {s t u : State} (h : KeepsBus s t) (k : KeepsBus t u) : KeepsBus s u :=
  ⟨k.bmx.trans h.bmx, k.mem.trans h.mem, fun r hr => (k.regs r hr).trans (h.regs r hr)⟩

theorem each {α : Type} {f : State → α → State} (h : ∀ s x, KeepsBus s (f s x)) (l : List α) (s : State) :
    KeepsBus s (s.each l f) := by
  induction l generalizing s with
  | nil => exact refl s
  | cons x l ih => exact (h s x).trans (ih (f s x))

theorem upd (s : State) {q : Reg} (f : Word → Word) (h : 0x50100000 ≤ q.addr) : KeepsBus s (s.upd q f) :=
  ⟨rfl, rfl, fun _ hr => State.rd_upd_other s f (by omega)⟩

theorem dmaFinal (s : State) (u c status cause : Nat) : KeepsBus s (s.dmaFinal u c status cause) := by
  have hstat : 0x50100000 ≤ (dmaReg u c 3).addr := by
    unfold dmaReg
    split_ifs <;> simp only [CDMA_CH_STAT, HIF_CH_STAT] <;> omega
  have hint : 0x50100000 ≤ (dmaInt u).addr := by
    unfold dmaInt
    split_ifs <;> simp only [CDMA_INT, HIF_DINT] <;> omega
  unfold State.dmaFinal
  have hch : ∀ v : State, KeepsBus v (v.setDmaCh u c {}) := fun _ => ⟨rfl, rfl, fun _ _ => rfl⟩
  exact ((upd s _ hstat).trans (hch _)).trans (upd _ _ hint)

end KeepsBus

/-- The transactions that a reset of a master leaves: its own run out if they were granted. -/
def resetTxns (s : State) (m : Nat) : List BusTxn :=
  (s.bmx.txns.filter fun x => x.txn.master.val != m || (x.granted && x.cause = 0)).map fun x =>
    if x.txn.master.val = m then { x with killed := true } else x

theorem reset_live (s : State) (m : Fin 12) :
    (!((s.bmx.of m.val).filter (fun x => x.granted && decide (x.cause = 0))).isEmpty) =
      s.bmx.txns.any (fun x => x.txn.master == m && x.granted && decide (x.cause = 0)) := by
  rw [BusMatrix.of, List.filter_filter, Bool.eq_iff_iff]
  simp [List.filter_eq_nil_iff, Fin.ext_iff, and_assoc, and_left_comm, and_comm]

/-- A reset of a master is logged, keeps of its transactions those that were granted, and shows whether there are any;
the end of its DMA channels reaches neither the Bus Matrix nor memory. -/
theorem masterReset_spec (s : State) (m : Fin 12) :
    (s.masterReset m).bmx.txns = resetTxns s m ∧
    (s.masterReset m).rdB BMX_STAT m = s.bmx.txns.any (fun x => x.txn.master == m && x.granted && decide (x.cause = 0)) ∧
    (s.masterReset m).rdF BMX_ERR_CNT 31 0 = min (s.rdF BMX_ERR_CNT 31 0 + 1) (2 ^ 32 - 1) ∧
    (s.masterReset m).mem = s.mem := by
  unfold State.masterReset
  extract_lets mine live s₁ keep bmx₁ s₂ s₃ s₄ u
  obtain ⟨g, w, tgt, a, hs₁⟩ : ∃ g w tgt a, s₁ = s.busLog m g w 5 tgt a := by
    dsimp only [s₁]
    split <;> exact ⟨_, _, _, _, rfl⟩
  obtain ⟨honly, hcnt, -, -⟩ := busLog_spec s m.isLt g w 5 tgt a
  rw [← hs₁] at honly hcnt
  have hkept : KeepsBus s₄ (if (decide (m.val < 4) || decide (m.val = 6)) = true
      then s₄.each ((upTo (dmaChans u)).filter (fun c => s₄.dmaRunning u c)) (fun s c => s.dmaFinal u c 2 4) else s₄) := by
    split
    · exact .each (fun s c => .dmaFinal s u c 2 4) _ s₄
    · exact .refl s₄
  obtain ⟨hbmx, hmem, hregs⟩ := hkept
  refine ⟨?_, ?_, ?_, hmem.trans honly.mem⟩
  · have htxns : s₁.bmx.txns = s.bmx.txns := (congrArg (fun v : State => v.bmx.txns) honly.1).trans rfl
    rw [hbmx, resetTxns, ← htxns]
    rfl
  · refine (congrArg (bit · m.val) (hregs BMX_STAT (by decide))).trans ((rdB_wrB_same s₃ _ (by omega) _).trans ?_)
    exact reset_live s m
  · refine (congrArg (bits · 31 0) ((hregs BMX_ERR_CNT (by decide)).trans ?_)).trans hcnt
    exact State.rd_wrB_other s₃ _ _ (by decide)

theorem mem_resetTxns {s : State} {m : Fin 12} {x : BusTxn} (hx : x ∈ resetTxns s m) (hm : x.txn.master = m) :
    x.granted = true ∧ x.cause = 0 ∧ x.killed = true := by
  obtain ⟨y, hy, rfl⟩ := List.mem_map.1 hx
  obtain ⟨-, hkeep⟩ := List.mem_filter.1 hy
  by_cases hym : y.txn.master.val = m.val
  · simpa [hym] using hkeep
  · rw [if_neg hym] at hm
    exact absurd (congrArg Fin.val hm) hym

theorem resetTxns_other {s : State} {m : Fin 12} {x : BusTxn} (hx : x ∈ s.bmx.txns) (hm : x.txn.master ≠ m) :
    x ∈ resetTxns s m := by
  have hne : x.txn.master.val ≠ m.val := fun h => hm (Fin.ext h)
  exact List.mem_map.2 ⟨x, List.mem_filter.2 ⟨hx, by simp [hne]⟩, if_neg hne⟩

/-! Register slices (R199). -/

theorem sliceApply_spec {s : State} {i : Nat} (hi : i < 32) (hpend : s.rdB BMX_SLICE_STAT i = true)
    (hidle : s.portIdle i = true) :
    (s.sliceApply i).rdB BMX_SLICE_STAT i = false ∧ bit (s.sliceApply i).bmx.slice i = s.rdB BMX_SLICE i ∧
    OnlyRegs { s with bmx := (s.sliceApply i).bmx } (s.sliceApply i) [BMX_SLICE_STAT] := by
  rw [State.sliceApply, if_pos (by simp [hpend, hidle])]
  exact ⟨rdB_wrB_same s _ hi false, bit_setBit_same _ hi _,
    OnlyRegs.wrB { s with bmx := { s.bmx with slice := setBit s.bmx.slice i (s.rdB BMX_SLICE i) } } _ _ _⟩

/-! Protection windows (R203). -/

theorem windowWrite_win (s : State) (m w : Nat) (d : Word) : (s.windowWrite m w d).win m w =
    ⟨s.rd (BMX_WIN_BASE m w), s.rd (BMX_WIN_LIMIT m w), d &&& 0x8000000F#32⟩ := by
  unfold State.win State.windowWrite
  dsimp only
  split
  · next h => rw [sget_sdel_same, h]
  · exact sget_sins_same _ _ _ _

theorem windowWrite_win_other (s : State) {m w m' w' : Nat} (d : Word) (h : m' * 16 + w' ≠ m * 16 + w) :
    (s.windowWrite m w d).win m' w' = s.win m' w' := by
  unfold State.win State.windowWrite
  dsimp only
  split
  · exact sget_sdel_other _ _ h
  · exact sget_sins_other _ _ _ h

end Sys2Proof

namespace Sys2Proof

open Sys2Proof.Machine

/-- Settles O33: acceptance by `acceptBurst_spec`, arbitration by `winner_spec` and `grant_spec`, the beats of the Sample Pool
by `serve_pool` and `beatDone_eq`, DEFAULT and the reset of a master by `busLog_spec`; each other clause is its operation's
own lemma. -/
theorem busMatrixTransactions : Obligations.BusMatrixTransactions := by
  unfold Obligations.BusMatrixTransactions
  refine ⟨?_, ?_, ?_, ?_, ?_, ?_, ?_, ?_, ?_, ?_⟩
  · intro s t p ps hfree hwait hparts hdirect
    obtain ⟨hqueue, x, hx, harr⟩ := acceptBurst_spec hfree hwait hparts
    obtain ⟨hgranted, hbeat, htarget⟩ := harr.waits hdirect
    exact (gives_iff_of_done rfl).2 ⟨fun hw => portTxns_wide hw hparts, hqueue,
      ⟨x, hx, harr.id, harr.txn, harr.cause, hgranted, hbeat, htarget⟩, acceptCause_crossing⟩
  · intro s t x hfree hwin
    obtain ⟨hgranted, hptr, hmem⟩ := grant_spec hfree hwin
    exact (gives_iff_of_done rfl).2 ⟨hgranted, hptr,
      fun y hy hg => (winner_spec hwin).2 y (List.mem_filter.2 ⟨hy, hg⟩), hmem⟩
  · intro s t x b hholder hwrite hlive hbeat hlo hhi htarget hfence
    obtain ⟨engs, hengs, hserve⟩ := serve_pool hholder hbeat hlo hhi htarget hfence (by simp [hlive])
    rw [if_pos hwrite] at hserve
    obtain ⟨bmx, hdone, htxns⟩ := beatDone_eq { s with engs := engs, mem := beatPut s.mem (x.txn.lo + 32 * x.beat) b } x 0
    refine gives_beatServe (hserve.trans hdone) ⟨fun i hi hs => beatPut_strobed _ _ hi hs,
      fun j hj => beatPut_other _ hj, rfl, hengs, holder_after_last htxns⟩
  · intro s t x b hholder hread hbeat hlo hhi htarget hfence
    obtain ⟨engs, -, hserve⟩ := serve_pool hholder hbeat hlo hhi htarget hfence (by simp [hread])
    rw [if_neg (by simp [hread])] at hserve
    obtain ⟨bmx, hdone, htxns⟩ := beatDone_eq { s with engs := engs } x (s.beatAt (x.txn.lo + 32 * x.beat))
    have hserved : x.served (s.beatAt (x.txn.lo + 32 * x.beat)) ∈ bmx.txns :=
      htxns ▸ List.mem_map.2 ⟨x, (holder_spec hholder).1, if_pos rfl⟩
    exact gives_beatServe (hserve.trans hdone) ⟨rfl, rfl, _, hserved, rfl, rfl, rfl, rfl⟩
  · intro s x hnext herr hm
    obtain ⟨honly, hcnt, hint, hlog⟩ := busLog_spec s x.txn.master.isLt x.txn.guest x.txn.write x.cause x.target x.txn.first
    exact gives_beatServe (defaultBeat_first hnext herr hm) ⟨hcnt, hint, hlog, honly.mem⟩
  · intro s t x hdone hlive horigin hwait
    exact (gives_iff_of_done rfl).2 (completeAt_plain hdone hlive horigin hwait)
  · intro s t l hlock hwrite
    exact (gives_iff_of_done rfl).2 (lockTimeout_spec hlock hwrite)
  · intro s m
    obtain ⟨htxns, hstat, hcnt, hmem⟩ := masterReset_spec s m
    refine (gives_iff_of_done rfl).2 ⟨fun x hx => mem_resetTxns (htxns ▸ hx), fun x hx hm => ?_, hstat, hcnt, hmem⟩
    exact htxns.symm ▸ resetTxns_other hx hm
  · intro s i hpend hidle
    obtain ⟨hstat, hslice, hsame, hregs⟩ := sliceApply_spec i.isLt hpend hidle
    exact (gives_iff_of_done rfl).2 ⟨hstat, hslice, fun r hr => hregs r (by simpa using hr),
      (congrArg State.mem hsame).trans rfl⟩
  · intro s q m w d hreach
    exact gives_gated rfl hreach ⟨windowWrite_win _ m w d, fun m' w' h => windowWrite_win_other _ d h,
      State.rd_wr_same _ _ _, fun r hr => State.rd_wr_other (s.respond 0 false) _ hr, rfl⟩

end Sys2Proof

/-! The canonical form of the memory (R183) is kept by every operation of the model: one rule per operation, in the
order of the model's files. An operation that does not write memory hands the memory on as it was; one that does writes
bytes through `putByte`, copies, or drops bytes. -/

namespace Sys2Proof.Machine

/-- The memory of a state is in its canonical form. -/
def Canonical (s : State) : Prop := Memory.wf s.mem = true

/-- A command that ends in a next state leaves its memory in the canonical form. -/
def CanonicalOut (o : Out) : Prop := ∀ t, o = .next t → Canonical t

theorem Memory.wf_foldl {α : Type} {l : List α} {f : List (Nat × Byte) → α → List (Nat × Byte)}
    {m : List (Nat × Byte)} (h : Memory.wf m = true) (hf : ∀ m x, Memory.wf m = true → Memory.wf (f m x) = true) :
    Memory.wf (l.foldl f m) = true := by
  induction l generalizing m with
  | nil => exact h
  | cons x l ih => exact ih (hf m x h)

namespace Canonical

variable {s : State}

/-! How states are put together: a new value in any field but the memory, a new memory, choices and repetitions. -/

/-- A state with the memory of a canonical one. -/
theorem keep {t : State} (h : Canonical s) (e : t.mem = s.mem) : Canonical t := by
  unfold Canonical
  rwa [e]

/-- A state whose memory is canonical. -/
theorem ofMem {m : List (Nat × Byte)} (e : s.mem = m) (h : Memory.wf m = true) : Canonical s := by
  unfold Canonical
  rwa [e]

theorem withRegs {x : List (Nat × Word)} (h : Canonical s) : Canonical { s with regs := x } := h

theorem withFrame {x : Frame} (h : Canonical s) : Canonical { s with frame := x } := h

theorem withEngs {x : List (Nat × Engine)} (h : Canonical s) : Canonical { s with engs := x } := h

theorem withMtx {x : Matrix} (h : Canonical s) : Canonical { s with mtx := x } := h

theorem withMorph {x : Morph} (h : Canonical s) : Canonical { s with morph := x } := h

theorem withRouter {x : Router} (h : Canonical s) : Canonical { s with router := x } := h

theorem withHif {x : Hif} (h : Canonical s) : Canonical { s with hif := x } := h

theorem withClove {x : Clove} (h : Canonical s) : Canonical { s with clove := x } := h

theorem withMig {x : Mig} (h : Canonical s) : Canonical { s with mig := x } := h

theorem withBmx {x : BusMatrix} (h : Canonical s) : Canonical { s with bmx := x } := h

theorem withReqs {x : List HostReq} (h : Canonical s) : Canonical { s with reqs := x } := h

theorem withPortWait {x : List (Origin × Txn)} (h : Canonical s) : Canonical { s with portWait := x } := h

theorem withDma {x : List (Nat × DmaUnit)} (h : Canonical s) : Canonical { s with dma := x } := h

theorem withAni {x : Anise} (h : Canonical s) : Canonical { s with ani := x } := h

theorem withSaps {x : List (Nat × Sap)} (h : Canonical s) : Canonical { s with saps := x } := h

theorem withAesRx {x : List (Nat × AesRx)} (h : Canonical s) : Canonical { s with aesRx := x } := h

theorem withAesTx {x : List (Nat × AesTx)} (h : Canonical s) : Canonical { s with aesTx := x } := h

theorem withSrc {x : List (Nat × SrcCh)} (h : Canonical s) : Canonical { s with src := x } := h

theorem withDng {x : List (Nat × Dng)} (h : Canonical s) : Canonical { s with dng := x } := h

theorem withMacs {x : List (Nat × Mac)} (h : Canonical s) : Canonical { s with macs := x } := h

theorem withStrmRx {x : List (Nat × StrmRx)} (h : Canonical s) : Canonical { s with strmRx := x } := h

theorem withStrmTx {x : List (Nat × StrmTx)} (h : Canonical s) : Canonical { s with strmTx := x } := h

theorem withSaf {x : Saf} (h : Canonical s) : Canonical { s with saf := x } := h

theorem withHouse {x : House} (h : Canonical s) : Canonical { s with house := x } := h

theorem withPwr {x : Pwr} (h : Canonical s) : Canonical { s with pwr := x } := h

theorem withBoot {x : Boot} (h : Canonical s) : Canonical { s with boot := x } := h

theorem withRep {x : List (Nat × RepUnit)} (h : Canonical s) : Canonical { s with rep := x } := h

theorem withSteer {x : Int} (h : Canonical s) : Canonical { s with steer := x } := h

theorem withSlew {x : Int} (h : Canonical s) : Canonical { s with slew := x } := h

theorem withPending {x : List Instr} (h : Canonical s) : Canonical { s with pending := x } := h

theorem withFree {x : Nat} (h : Canonical s) : Canonical { s with free := x } := h

theorem withRsp {x : Rsp} (h : Canonical s) : Canonical { s with rsp := x } := h

theorem ite {a b : State} {c : Prop} [Decidable c] (ha : Canonical a) (hb : Canonical b) :
    Canonical (if c then a else b) := by
  split <;> assumption

theorem ite_fst {α : Type} {a b : State × α} {c : Prop} [Decidable c] (ha : Canonical a.1) (hb : Canonical b.1) :
    Canonical (if c then a else b).1 := by
  split <;> assumption

theorem ite_snd {α : Type} {a b : α × State} {c : Prop} [Decidable c] (ha : Canonical a.2) (hb : Canonical b.2) :
    Canonical (if c then a else b).2 := by
  split <;> assumption

theorem ite_snd_fst {α β : Type} {a b : α × State × β} {c : Prop} [Decidable c] (ha : Canonical a.2.1)
    (hb : Canonical b.2.1) : Canonical (if c then a else b).2.1 := by
  split <;> assumption

/-- A repetition that carries the state as the part `p` of what it computes. -/
theorem foldPart {α β : Type} (p : β → State) {l : List α} {f : β → α → β} {r : β} (h : Canonical (p r))
    (hf : ∀ r x, Canonical (p r) → Canonical (p (f r x))) : Canonical (p (l.foldl f r)) := by
  induction l generalizing r with
  | nil => exact h
  | cons x l ih => exact ih (hf r x h)

theorem foldl {α : Type} {l : List α} {f : State → α → State} (h : Canonical s)
    (hf : ∀ s x, Canonical s → Canonical (f s x)) : Canonical (l.foldl f s) := foldPart id h hf

theorem each {α : Type} {l : List α} {f : State → α → State} (h : Canonical s)
    (hf : ∀ s x, Canonical s → Canonical (f s x)) : Canonical (s.each l f) := foldl h hf

theorem foldl_fst {α β : Type} {l : List α} {f : State × β → α → State × β} {r : State × β} (h : Canonical r.1)
    (hf : ∀ r x, Canonical r.1 → Canonical (f r x).1) : Canonical (l.foldl f r).1 := foldPart Prod.fst h hf

theorem foldl_snd {α β : Type} {l : List α} {f : β × State → α → β × State} {r : β × State} (h : Canonical r.2)
    (hf : ∀ r x, Canonical r.2 → Canonical (f r x).2) : Canonical (l.foldl f r).2 := foldPart Prod.snd h hf

theorem foldl_snd_fst {α β γ : Type} {l : List α} {f : β × State × γ → α → β × State × γ} {r : β × State × γ}
    (h : Canonical r.2.1) (hf : ∀ r x, Canonical r.2.1 → Canonical (f r x).2.1) : Canonical (l.foldl f r).2.1 :=
  foldPart (fun r : β × State × γ => r.2.1) h hf

/-- A range copied over another, but for what either has in a fenced unit (R186). -/
theorem copied {src dst n : Nat} (h : Canonical s) : Memory.wf (s.copied src dst n) = true := by
  refine Memory.wf_foldl (swf_filter _ _ h) fun m x hm => ?_
  split
  · exact Memory.wf_putByte _ _ hm
  · exact hm

end Canonical

namespace CanonicalOut

theorem ite {a b : Out} {c : Prop} [Decidable c] (ha : CanonicalOut a) (hb : CanonicalOut b) :
    CanonicalOut (if c then a else b) := by
  split <;> assumption

theorem next {s : State} (h : Canonical s) : CanonicalOut (.next s) := by
  rintro t ⟨⟩
  exact h

/-- The settling of the interrupt vectors leaves the memory as it is. -/
theorem done {s : State} (h : Canonical s) : CanonicalOut (Machine.done s) := next (h.keep (by rfl))

end CanonicalOut

namespace Canonical

variable {s : State}

/-! Registers, memory, engines and free values (R5 to R11). -/

theorem wr {r : Reg} {v : Word} (h : Canonical s) : Canonical (s.wr r v) := h.withRegs

theorem upd {r : Reg} {f : Word → Word} (h : Canonical s) : Canonical (s.upd r f) := h.wr

theorem wrF {r : Reg} {hi lo v : Nat} (h : Canonical s) : Canonical (s.wrF r hi lo v) := h.upd

theorem wrB {r : Reg} {i : Nat} {b : Bool} (h : Canonical s) : Canonical (s.wrB r i b) := h.upd

theorem raise {r : Reg} {mask : Word} (h : Canonical s) : Canonical (s.raise r mask) := h.upd

theorem countF {r : Reg} {hi lo n : Nat} (h : Canonical s) : Canonical (s.countF r hi lo n) := h.upd

theorem count {r : Reg} (h : Canonical s) : Canonical (s.count r) := h.countF

theorem maxF {r : Reg} {hi lo v : Nat} (h : Canonical s) : Canonical (s.maxF r hi lo v) := .ite h.wrF h

theorem reject {q : Req} {addr data : Word} (h : Canonical s) : Canonical (s.reject q addr data) :=
  .ite h.count h.count.wr.wr.wr

theorem respond {data : Word} {err : Bool} (h : Canonical s) : Canonical (s.respond data err) := h.withRsp

theorem respondBeats {data : List (BitVec 256)} {err : Bool} (h : Canonical s) :
    Canonical (s.respondBeats data err) := h.withRsp

theorem setEng {e : Nat} {g : Engine} (h : Canonical s) : Canonical (s.setEng e g) := h.withEngs

theorem updEng {e : Nat} {f : Engine → Engine} (h : Canonical s) : Canonical (s.updEng e f) := h.setEng

theorem freeWord (h : Canonical s) : Canonical (s.freeWord).2 := h.withFree

theorem freeWords {n : Nat} {s : State} (h : Canonical s) : Canonical (State.freeWords n s).2 := by
  induction n generalizing s with
  | zero => exact h
  | succ n ih => exact ih h.freeWord

theorem settle (h : Canonical s) : Canonical s.settle := h.withHif

/-! Engine time: results in flight land (R55 to R58). -/

theorem advance {n : Nat} (h : Canonical s) : Canonical (s.advance n) := h.keep (by rfl)

theorem advanceTo {c : Nat} (h : Canonical s) : Canonical (s.advanceTo c) := h.advance

/-! Clove's operations (R206 to R220). -/

theorem freeing {f : State → State} (h : Canonical s) (hf : ∀ s, Canonical s → Canonical (f s)) :
    Canonical (s.freeing f) := .ite (hf _ h) (hf _ h.withClove)

theorem fenceLog {unit master : Nat} {write : Bool} (h : Canonical s) : Canonical (s.fenceLog unit master write) :=
  .ite h.count h.count.wr

theorem fenceRange {a n master : Nat} {write : Bool} (h : Canonical s) :
    Canonical (s.fenceRange a n master write) := by
  unfold State.fenceRange
  split
  · exact h.fenceLog
  · exact h

theorem charge {v : Ev} (h : Canonical s) : Canonical (s.charge v) := h.wrF

theorem admitted {v : Ev} (h : Canonical s) : Canonical (s.admitted v) := h.withClove

theorem bgWaits (h : Canonical s) : Canonical s.bgWaits := by
  unfold State.bgWaits
  extract_lets s1 _
  have h1 : Canonical s1 := h.count
  split
  · exact .ite h1.withClove h
  · exact h

theorem bgAdmitHost {n : Nat} {s : State} (h : Canonical s) : Canonical (State.bgAdmitHost n s) := by
  induction n generalizing s with
  | zero => exact h
  | succ n ih =>
    unfold State.bgAdmitHost
    split
    · exact .ite (ih h.charge.admitted) h
    · exact h

theorem cloveHost (h : Canonical s) : Canonical s.cloveHost :=
  .ite h.bgAdmitHost.bgWaits.wr.wr.raise h.bgAdmitHost.bgWaits.wr.wr

theorem consumed {v : Ev} (h : Canonical s) : Canonical (s.consumed v) := by
  unfold State.consumed
  extract_lets
  split
  · exact h
  · exact h.wr.withClove

theorem unqueue {v : Ev} (h : Canonical s) : Canonical (s.unqueue v) := h.withClove

theorem dropStale {v : Ev} (h : Canonical s) : Canonical (s.dropStale v) := h.unqueue.count.raise.consumed

theorem acceptAs {v : Ev} (h : Canonical s) : Canonical (s.acceptAs v) :=
  .ite h.withClove.dropStale (.ite h.withClove.consumed h.withClove.withClove.cloveHost)

theorem accept {v : Ev} (h : Canonical s) : Canonical (s.accept v) := h.acceptAs

theorem report {e type cls : Nat} {w0 w1 : Word} (h : Canonical s) : Canonical (s.report e type cls w0 w1) :=
  .ite h.count.raise h.accept

theorem consumeOut {e : Nat} (h : Canonical s) : Canonical (s.consumeOut e) := by
  unfold State.consumeOut
  extract_lets s1
  have h1 : Canonical s1 := h.freeing fun _ h => h.withClove
  split
  · exact h
  · exact h1.consumed.cloveHost

/-! The sending side of a Dongo link. -/

theorem setLink {n : Nat} {l : Dng} (h : Canonical s) : Canonical (s.setLink n l) := h.withDng

theorem lineRun {n : Nat} (h : Canonical s) : Canonical (s.lineRun n) := h.setLink.countF

theorem dngSend {n : Nat} {f : DngOut} (h : Canonical s) : Canonical (s.dngSend n f) := .ite h h.lineRun.setLink

theorem dngMirror {n : Nat} {bs : List Byte} (h : Canonical s) : Canonical (s.dngMirror n bs) :=
  .ite (.each h fun _ _ h => h.dngSend) h

/-! How a register write reaches its register (R11, R351). -/

theorem macMirror {n : Nat} {bs : List Byte} (h : Canonical s) : Canonical (s.macMirror n bs) :=
  .each h fun _ _ h => .ite h.freeWords.withMacs h.count

theorem aniOut {r : AniRecord} (h : Canonical s) : Canonical (s.aniOut r) :=
  .ite h (.ite h.withAni.macMirror h.withAni.dngMirror)

theorem aniSend {x : AniItem} (h : Canonical s) : Canonical (s.aniSend x) := h.withAni.aniOut

theorem aniCapture {x : AniItem} (h : Canonical s) : Canonical (s.aniCapture x) := h.aniSend.upd.withAni

theorem aniDiscard (h : Canonical s) : Canonical s.aniDiscard := h.count.raise

theorem gated {q : Req} {r : Reg} {data : Word} {f : State → State} (h : Canonical s)
    (hf : ∀ s, Canonical s → Canonical (f s)) : Canonical (s.gated q r data f) := by
  unfold State.gated
  extract_lets s1 _
  have h1 : Canonical s1 := h.respond
  exact .ite h1 (.ite (.ite h1.aniDiscard h1.aniCapture) (.ite (hf _ h1) h1))

theorem plainWrite {r : Reg} {data : Word} (h : Canonical s) : Canonical (s.plainWrite r data) := h.upd

/-! Slices: tables, starts and ends (R106 to R120). -/

theorem setStaged {e sl : Nat} {t : Entry} (h : Canonical s) : Canonical (s.setStaged e sl t) :=
  h.wr.wr.wr.wr.wr.wr.wr.wr

theorem setLive {e : Nat} {tbl : List (Nat × Entry)} (h : Canonical s) : Canonical (s.setLive e tbl) :=
  (Canonical.each (.each h.setEng fun _ _ h => h.wrF) fun _ _ h => h.wrF).withMorph

theorem dropAlias {e : Nat} {fresh : List Nat} (h : Canonical s) : Canonical (s.dropAlias e fresh) := h.withClove

theorem dropLive {id : Nat} (h : Canonical s) : Canonical (s.dropLive id) := h.setLive

theorem commitEngine {e : Nat} (h : Canonical s) : Canonical (s.commitEngine e) := by
  unfold State.commitEngine
  extract_lets s1
  have h1 : Canonical s1 := h.wrB.wrB
  refine .ite ?_ h
  split
  · exact h1.wrF.wrF.raise
  · exact h1.setLive.dropAlias

theorem revalidate {e : Nat} (h : Canonical s) : Canonical (s.revalidate e) := by
  unfold State.revalidate
  extract_lets _ _ _ _ s1 _ _ s2
  have h1 : Canonical s1 := .each h fun _ _ h => h.wr
  have h2 : Canonical s2 := .ite h1.setLive h1
  exact .ite h2.raise h2

theorem migEnd {status cause : Nat} (h : Canonical s) : Canonical (s.migEnd status cause) :=
  h.wrF.wrF.wrF.raise.wrF.report

theorem migAbort {cause : Nat} (h : Canonical s) : Canonical (s.migAbort cause) := .ite h.migEnd.withMig h

theorem migSnapshot {id : Nat} {carried : Bool} (h : Canonical s) : Canonical (s.migSnapshot id carried) :=
  .ite ((Canonical.ofMem (by rfl) h.copied).fenceRange) h

theorem sliceReports {e sl cycles : Nat} {blk sr : Word} {ovr ended : Bool} (h : Canonical s) :
    Canonical (s.sliceReports e sl blk ovr ended sr cycles) := by
  unfold State.sliceReports
  extract_lets _ s1 s2
  have h1 : Canonical s1 := .ite h.report h
  have h2 : Canonical s2 := .ite h1.report h1
  exact .ite h2.report h2

theorem finalSlice {e sl : Nat} (h : Canonical s) : Canonical (s.finalSlice e sl) := by
  unfold State.finalSlice
  extract_lets _ _ _ _ _ _ _ s1 s2 s3 _ s4
  have h1 : Canonical s1 := h.setEng
  have h2 : Canonical s2 := h1.upd
  have h3 : Canonical s3 := .ite h2.countF h2
  have h4 : Canonical s4 := h3.sliceReports
  exact .ite h4.migSnapshot h4

theorem drainOn {e : Nat} (h : Canonical s) : Canonical (s.drainOn e) := by
  unfold State.drainOn
  extract_lets
  split
  · exact .ite h (.ite h.setEng.finalSlice.cloveHost h.setEng)
  · exact h

theorem stopSlice {e : Nat} {f : SliceBlk → SliceBlk} (h : Canonical s) : Canonical (s.stopSlice e f) := by
  unfold State.stopSlice
  extract_lets
  split
  · exact h
  · exact (Canonical.ite h.setEng.finalSlice h.setEng).cloveHost

theorem haltSlice {e : Nat} (h : Canonical s) : Canonical (s.haltSlice e) := by
  unfold State.haltSlice
  extract_lets
  split
  · exact h
  · exact .ite h.setEng h.stopSlice

theorem handlerReturn {e : Nat} (h : Canonical s) : Canonical (s.handlerReturn e) :=
  (Canonical.ite h.updEng.stopSlice h.updEng).drainOn.consumeOut

theorem unrunPhase {phase e : Nat} (h : Canonical s) :
    Canonical (s.unrunPhase phase e) := .each h fun _ _ h => h.upd

theorem clearMeas {e : Nat} (h : Canonical s) : Canonical (s.clearMeas e) := .each h fun _ _ h => h.upd

theorem closePhase {phase e : Nat} (h : Canonical s) : Canonical (s.closePhase phase e) := by
  unfold State.closePhase
  extract_lets _ _ _ all s1
  have h1 : Canonical s1 := h.haltSlice.unrunPhase
  clear_value all
  split
  · exact h1
  · exact h1.updEng

/-! The issue of a bundle (R45 to R58, R88 to R105). -/

theorem engFault {e code : Nat} (h : Canonical s) : Canonical (s.engFault e code) := by
  unfold State.engFault
  extract_lets _ _ s1 s2 s3
  have h1 : Canonical s1 := .ite h h.wr
  have h2 : Canonical s2 := h1.countF.raise
  have h3 : Canonical s3 := h2.setEng
  refine .ite h3.handlerReturn ?_
  split
  · exact h3
  · exact (Canonical.ite h3.wrB h3.wrB).stopSlice

theorem loadWord {e w : Nat} (h : Canonical s) : Canonical (s.loadWord e w).2 := .ite_snd h.freeWord h

theorem storeWord {e w : Nat} {v : Word} (h : Canonical s) : Canonical (s.storeWord e w v) :=
  .ofMem (by rfl) (Memory.wf_putWord _ _ h)

theorem storeQuad {e q : Nat} {v : L4 Word} (h : Canonical s) : Canonical (s.storeQuad e q v) :=
  h.storeWord.storeWord.storeWord.storeWord

theorem loadQuad {e q : Nat} (h : Canonical s) :
    Canonical (s.loadQuad e q).2 := h.loadWord.loadWord.loadWord.loadWord

theorem fly {e lat : Nat} {x : Landing} (h : Canonical s) : Canonical (s.fly e lat x) := h.updEng

theorem memAccess {e : Nat} {r : RegSet} {op : MemOp} (h : Canonical s) : Canonical (s.memAccess e r op) := by
  unfold State.memAccess
  cases op with
  | nop => exact h
  | ldq => exact h.loadQuad.fly
  | ldw | ldr | ldl => exact h.loadWord.fly
  | stq => exact h.storeQuad
  | stw | str | stl => exact h.storeWord

theorem memModify {e : Nat} {r : RegSet} {op : MemOp} (h : Canonical s) : Canonical (s.memModify e r op) := by
  unfold State.memModify
  cases op with
  | nop => exact h
  | ldq | ldw | stq | stw | ldr | ldl | str | stl => exact h.fly

theorem memSlot {e : Nat} {r : RegSet} {op : MemOp} (h : Canonical s) : Canonical (s.memSlot e r op) :=
  h.memAccess.memModify

theorem collide {e : Nat} {r : RegSet} {b : Bundle} (h : Canonical s) : Canonical (s.collide e r b) :=
  .ofMem (by rfl) (Memory.wf_foldPut _ _ _ (Canonical.ite h.countF h))

theorem arithSlot {e : Nat} {r : RegSet} {op : ArithOp} (h : Canonical s) : Canonical (s.arithSlot e r op) :=
  .each h.setEng fun _ _ h => h.fly

theorem ctlSlot {e : Nat} {r : RegSet} {op : CtlOp} (h : Canonical s) : Canonical (s.ctlSlot e r op) := by
  unfold State.ctlSlot
  cases op with
  | nop | bra | bc | jmp | rpt | rptw | rte | endSlice => exact h
  | ei | di | clrf | addp | mtp | mtn | mtl | ldpq | setp | setn | setnw | setl | setlw | djn => exact h.fly
  | gadv | gset => exact .ite h h.setEng
  | pwait => exact .ite h.setEng h
  | pget | pput => exact h.setEng

theorem issueEffects {e : Nat} {b : Bundle} (h : Canonical s) : Canonical (s.issueEffects e b) := by
  unfold State.issueEffects
  extract_lets _ _ _ s1 s2 s3 s4 s5 s6 _
  have h1 : Canonical s1 := h.memSlot.memSlot.collide
  have h2 : Canonical s2 := h1.arithSlot
  have h3 : Canonical s3 := h2.ctlSlot
  have h4 : Canonical s4 := h3.updEng
  have h5 : Canonical s5 := .ite (.ite h4.handlerReturn h4.updEng) h4
  have h6 : Canonical s6 := .ite h5.stopSlice h5
  exact .ite h6.stopSlice h6

theorem issue {e : Nat} {b : Option Bundle} (h : Canonical s) : Canonical (s.issue e b) := by
  unfold State.issue
  extract_lets _ _ s1
  have h1 : Canonical s1 := h.setEng
  refine .ite ?_ h
  split
  · exact h1.engFault
  · split
    · exact h1.issueEffects
    · exact h1

theorem passCycle {e : Nat} (h : Canonical s) : Canonical (s.passCycle e) := .ite h.issue h.setEng

theorem waitExt {e n : Nat} {f : Engine → Bool} {s : State} (h : Canonical s) :
    Canonical (s.waitExt e f n) := by
  induction n generalizing s with
  | zero => exact h
  | succ n ih => exact .ite h (ih h.passCycle)

theorem takeHalf {e : Nat} (h : Canonical s) : Canonical (s.takeHalf e) := h.waitExt.setEng

/-! Accesses to DMEM from outside the program, and far requests (R51, R52, R62, R92). -/

theorem portWrite {e : Nat} {bs : List (Nat × Nat × Byte)} (h : Canonical s) : Canonical (s.portWrite e bs) :=
  .ofMem (by rfl) (Memory.wf_foldPut _ _ _ h)

theorem extWrite {m e q : Nat} {strb : BitVec 16} {data : BitVec 128} (h : Canonical s) :
    Canonical (s.extWrite m e q strb data) :=
  .ofMem (by rfl) (Memory.wf_foldPut _ _ _ (Canonical.ite h.waitExt.setEng h.takeHalf))

theorem extRead {m e q : Nat} (h : Canonical s) : Canonical (s.extRead m e q).2 := .ite h.waitExt.setEng h.takeHalf

theorem farErr {e unit : Nat} {q : FarReq} (h : Canonical s) : Canonical (s.farErr e q unit) :=
  .ite h.fenceLog.count.raise h.fenceLog.count.raise.wr

theorem either {x y : Word} (h : Canonical s) : Canonical (s.either x y).2 := h.freeWord

theorem getWord {e w : Nat} {q : FarReq} {pool : Word} (h : Canonical s) : Canonical (s.getWord e q w pool) :=
  .ofMem (by rfl) (Memory.wf_putWord _ _ (Canonical.ite_snd h.either h))

theorem putPool {e w pa : Nat} {q : FarReq} (h : Canonical s) : Canonical (s.putPool e q w pa) := by
  unfold State.putPool
  dsimp only
  split
  · exact Memory.wf_putWord _ _ h.either
  · exact Memory.wf_putWord _ _ h

theorem farQuad {e k : Nat} {q : FarReq} (h : Canonical s) : Canonical (s.farQuad e q k) :=
  .ite (.each h fun _ _ h => h.getWord) (.ite h (.each h fun _ _ h => h.putPool))

theorem farMove {e : Nat} (h : Canonical s) : Canonical (s.farMove e) := by
  unfold State.farMove
  split
  · exact h
  · dsimp only
    refine (Canonical.each ?_ fun _ _ h => h.farQuad).updEng
    split
    · exact h.farErr
    · exact h

theorem contend {es : List Nat} (h : Canonical s) : Canonical (s.contend es) := .each h fun _ _ h => h.updEng

theorem farServe {e by_ : Nat} (h : Canonical s) : Canonical (s.farServe e by_) := by
  unfold State.farServe
  extract_lets
  split
  · exact h
  · exact .ite h.setEng.farMove.updEng h.setEng.farMove

theorem farBeat {e : Nat} (h : Canonical s) : Canonical (s.farBeat e) := by
  unfold State.farBeat
  split
  · exact h
  · extract_lets _ s1 _
    have h1 : Canonical s1 := .ite h.contend h
    split
    · exact h1
    · exact h1.withBmx.farServe

theorem settleAlt {e : Nat} {q : FarReq} (h : Canonical s) : Canonical (s.settleAlt e q) :=
  .ite (.each h fun _ _ h => .ofMem (by rfl) (Memory.wf_putWord _ _ h.either)) h

theorem farResume {e c : Nat} {t : Fin 16} (h : Canonical s) : Canonical (s.farResume e t c) :=
  (Canonical.ite (.ite h.setEng.engFault h.setEng.handlerReturn) h.setEng).setEng.drainOn

theorem farComplete {e : Nat} (h : Canonical s) : Canonical (s.farComplete e) := by
  unfold State.farComplete
  split
  · exact h
  · extract_lets _ s1 s2 _
    have h1 : Canonical s1 := .each h fun _ _ h => h.farServe
    have h2 : Canonical s2 := h1.setEng
    split
    · exact h2
    · exact h2.setEng.settleAlt.maxF.farResume

/-! Memory behind the Bus Matrix (R180, R186). -/

theorem busLog {m cause target addr : Nat} {guest write : Bool} (h : Canonical s) :
    Canonical (s.busLog m guest write cause target addr) := .ite h.count.raise h.count.raise.wr.wr

theorem busErr {m cause target addr : Nat} {guest write : Bool} (h : Canonical s) :
    Canonical (s.busErr m guest write cause target addr) :=
  .ite (.ite h.busLog.count.raise h.busLog.count.raise.wr.wr) h.busLog

theorem writeSink {i : Nat} {w : Word} (h : Canonical s) : Canonical (s.writeSink i w) := .ite h.withRouter h

theorem sinkBeat {a : Nat} {strb : BitVec 32} {data : BitVec 256} (h : Canonical s) :
    Canonical (s.sinkBeat a strb data).1 := .ite_fst (.each h fun _ _ h => h.writeSink) h

theorem dmemBeat {m a : Nat} {strb : BitVec 32} {data : BitVec 256} (h : Canonical s) :
    Canonical (s.dmemBeat m a strb data) := .each h fun _ _ h => .ite h h.extWrite

theorem noteOld {a : Nat} {strb : BitVec 32} (h : Canonical s) : Canonical (s.noteOld a strb) := .ite h.setEng h

theorem memBeatWrite {m a : Nat} {strb : BitVec 32} {data : BitVec 256} (h : Canonical s) :
    Canonical (s.memBeatWrite m a strb data).1 := by
  unfold State.memBeatWrite
  split
  · exact h.fenceLog
  · extract_lets put
    have hput : Canonical put := .ofMem (by rfl) (Memory.wf_foldPut _ _ _ h)
    split
    iterate 3 exact h
    · exact .ite_fst h hput
    · exact h.sinkBeat
    iterate 4 exact .ite_fst h.dmemBeat (.ite_fst (.ite_fst hput h) h)
    · exact hput

theorem memBeatRead {m a : Nat} {strb : BitVec 32} (h : Canonical s) : Canonical (s.memBeatRead m a strb).2.1 := by
  unfold State.memBeatRead
  split
  · exact h.fenceLog
  · extract_lets _ _ _ x y
    have hx : Canonical x.2 := .ite_snd h h.extRead
    have hy : Canonical y.2 := .ite_snd hx hx.extRead
    split
    iterate 3 exact h
    iterate 4 exact .ite_snd_fst hy (.ite_snd_fst h h)
    · exact h

/-! What the audio ports share. -/

theorem produce {src : Nat} {ws : List Word} (h : Canonical s) : Canonical (s.produce src ws) := h.withRouter

theorem hush {lo n : Nat} (h : Canonical s) : Canonical (s.hush lo n) := h.withRouter

theorem setSrcCh {c : Nat} {x : SrcCh} (h : Canonical s) : Canonical (s.setSrcCh c x) := h.withSrc

theorem srcUnlock {c : Nat} (h : Canonical s) : Canonical (s.srcUnlock c) :=
  .ite h.setSrcCh.count.raise.wrB h.setSrcCh

theorem srcInput {c cyc : Nat} {y : Option Word} (h : Canonical s) : Canonical (s.srcInput c cyc y) := by
  unfold State.srcInput
  extract_lets _ _ _ _ _ _ _ _ s1
  have h1 : Canonical s1 := h.setSrcCh
  split
  · exact h.setSrcCh
  · exact h.setSrcCh
  · exact .ite h1 h1.srcUnlock

theorem srcFeed {kind ix cyc : Nat} {y : Option Word} (h : Canonical s) : Canonical (s.srcFeed kind ix cyc y) := by
  unfold State.srcFeed
  split
  · exact h.srcInput
  · exact h

theorem srcLoss {kind ix : Nat} (h : Canonical s) : Canonical (s.srcLoss kind ix) := by
  unfold State.srcLoss
  split
  · exact h.srcUnlock
  · exact h

theorem srcLockNow {c : Nat} (h : Canonical s) : Canonical (s.srcLockNow c) := .ite h.setSrcCh.raise.wrB h

theorem srcOutput {c n : Nat} {at_ : Nat → Int × Nat} (h : Canonical s) : Canonical (s.srcOutput c n at_).1 :=
  h.setSrcCh

theorem srcBlocks {edge : Nat} (h : Canonical s) : Canonical (s.srcBlocks edge) :=
  .each h fun _ _ h => .ite h (.ite h.srcOutput h.srcOutput.produce)

theorem srcUnfed (h : Canonical s) : Canonical s.srcUnfed := .each h fun _ _ h => .ite h.srcUnlock h

theorem srcApply (h : Canonical s) : Canonical s.srcApply := by
  unfold State.srcApply
  extract_lets s1 s2 _ _ s3
  have h1 : Canonical s1 := h.wr
  have h2 : Canonical s2 := .each h1 fun _ _ h => .ite h h.wrB.setSrcCh
  have h3 : Canonical s3 := .each h2 fun _ _ h => (Canonical.ite h.wrB h).setSrcCh
  exact .ite (.ite h3 h3.raise) h

theorem srcBegin (h : Canonical s) : Canonical s.srcBegin := .each h fun _ _ h => .ite h.setSrcCh h

theorem srcOutFrames {edge : Nat} {rate : Nat → Nat} (h : Canonical s) : Canonical (s.srcOutFrames edge rate) :=
  .each h fun _ _ h => .ite (.ite h.setSrcCh.srcUnlock h.setSrcCh) h

/-! Saffron and the System Time Counter (R292 to R312). -/

theorem setRefState {i v : Nat} (h : Canonical s) : Canonical (s.setRefState i v) := h.wrF

theorem setSafRef {i : Nat} {x : SafRef} (h : Canonical s) : Canonical (s.setSafRef i x) := h.withSaf

theorem setPtpRep {p : Nat} {x : PtpRep} (h : Canonical s) : Canonical (s.setPtpRep p x) := h.withSaf

theorem setSafState {v : Nat} (h : Canonical s) : Canonical (s.setSafState v) := h.wrF

theorem aim {v : Int} (h : Canonical s) : Canonical (s.aim v) := h.withSaf

theorem setRem {ps : Int} (h : Canonical s) : Canonical (s.setRem ps) := h.withSaf.wr

theorem setSlew {p : Int} (h : Canonical s) : Canonical (s.setSlew p) := h.withSlew.wrB

theorem setSteer {v : Int} (h : Canonical s) : Canonical (s.setSteer v) := h.withSteer.wr

theorem steerUpdate (h : Canonical s) : Canonical s.steerUpdate :=
  (Canonical.ite h.advanceTo.setRem.raise h.advanceTo.setRem).setSteer.setSlew.withSaf

theorem refQual {i : Nat} (h : Canonical s) : Canonical (s.refQual i) := h.setRefState.raise

theorem refSoft {i : Nat} (h : Canonical s) : Canonical (s.refSoft i) := h.setRefState.count.raise.setSafRef

theorem refDisq {i : Nat} (h : Canonical s) : Canonical (s.refDisq i) := h.setRefState.count.raise

theorem refWait {i : Nat} (h : Canonical s) : Canonical (s.refWait i) := h.setRefState.wrF

theorem refStep {s0 : State} {y : Nat → Int} {i : Nat} (h : Canonical s) : Canonical (s.refStep s0 y i) := by
  unfold State.refStep
  extract_lets _ _ _ _ _ _ s1 _ _ s2 s3 _ _ s4
  have h1 : Canonical s1 := h.wrF
  have h2 : Canonical s2 := h1.wrF
  have h3 : Canonical s3 := .ite h1.refSoft h1
  have h4 : Canonical s4 := h1.setSafRef
  refine .ite h.setRefState (.ite (.ite h h.refQual) ?_)
  split
  · exact h1.refWait
  · exact .ite (.ite h2.refQual h2) h1.refWait
  · exact .ite h3.refDisq h3
  · exact .ite h1.refDisq (.ite h1.setSafRef (.ite h4.setRefState h4))
  · exact .ite h1.refWait h1

theorem refMeasure {s0 : State} {y ph : Nat → Int} {i : Nat} (h : Canonical s) :
    Canonical (s.refMeasure s0 y ph i) :=
  .ite h.wrF.setSafRef.wr.wr.wr.wr h.wrF

theorem histPut {new : List Int} {age : Nat} (h : Canonical s) : Canonical (s.histPut new age) :=
  .ite h (.ite h.withSaf.wr.wrB h.withSaf.wr)

theorem histStep {x : Int} (h : Canonical s) : Canonical (s.histStep x) := .ite h.withSaf h.histPut

theorem toHoldover (h : Canonical s) : Canonical s.toHoldover :=
  .ite h.withSaf.setSafState.aim.count.raise.wr h.withSaf.setSafState.aim

theorem startSwitch (h : Canonical s) : Canonical s.startSwitch :=
  (Canonical.ite h.count h).setSafState.setRem.setSlew.aim.withSaf

theorem selQual (h : Canonical s) : Canonical s.selQual := h.wrF

theorem refSelect (h : Canonical s) : Canonical s.refSelect := by
  unfold State.refSelect
  extract_lets _ _ _ s1 s2
  have h1 : Canonical s1 := h.wrB.wrF.selQual
  have h2 : Canonical s2 := .ite h1.raise h1
  exact .ite h (.ite h2 (.ite (.ite h2.startSwitch h2) (.ite h2.toHoldover h2)))

theorem safForce (h : Canonical s) : Canonical s.safForce :=
  .ite h.withSaf.setSafState.aim (.ite (.ite h h.toHoldover) h)

theorem histThaw (h : Canonical s) : Canonical s.histThaw := h.withSaf.wrB

theorem histRelease (h : Canonical s) : Canonical s.histRelease := .ite h.histThaw h

theorem safStep {y ph : Nat → Int} {was : Nat} (h : Canonical s) : Canonical (s.safStep y ph was) := by
  unfold State.safStep
  extract_lets _ _ s1 s2 _ s3 _ _ s4 s5 s6
  have h1 : Canonical s1 := h.wr
  have h2 : Canonical s2 := h1.setSafState.aim.setRem
  have h3 : Canonical s3 := h1.aim.setRem
  have h4 : Canonical s4 := h3.withSaf
  have h5 : Canonical s5 := h3.setSafState.raise
  have h6 : Canonical s6 := h1.aim
  split
  · exact .ite h2.withSaf h1
  · exact .ite (.ite h4.setSafState.raise.histRelease h4) (.ite h5.withSaf h3)
  · exact .ite (.ite h4.setSafState.raise.histRelease h4) (.ite h5.withSaf h3)
  · exact .ite h6.count h6
  · exact h1.aim

theorem safTempStep (h : Canonical s) : Canonical s.safTempStep := (Canonical.ite h h.wr).withSaf

theorem safHist {s0 : State} {y : Nat → Int} (h : Canonical s) : Canonical (s.safHist s0 y) := by
  unfold State.safHist
  extract_lets s1 s2
  have h1 : Canonical s1 := by
    unfold s1
    split
    · exact .ite h.histPut.histThaw h
    · exact h
  split
  · exact h1
  · refine Canonical.ite (Canonical.histStep ?_) ?_
    all_goals exact .ite h1.withSaf.wrB h1

theorem losMark {i : Nat} (h : Canonical s) : Canonical (s.losMark i) := by
  unfold State.losMark
  extract_lets s1 s2
  have h1 : Canonical s1 := h.wrB.raise.count
  have h2 : Canonical s2 := .ite h1 h1.refDisq
  exact .ite (.ite h2.toHoldover h2) h

theorem losAll {is : List Nat} (h : Canonical s) : Canonical (s.losAll is) :=
  .ite ((Canonical.each h fun _ _ h => h.losMark).refSelect) (.each h fun _ _ h => h.losMark)

theorem losOf {i : Nat} (h : Canonical s) : Canonical (s.losOf i) := h.losAll

theorem losSource {src ix : Nat} (h : Canonical s) : Canonical (s.losSource src ix) := h.losAll

theorem losScan {i : Nat} (h : Canonical s) : Canonical (s.losScan i) := .ite h.losMark h.wrB

theorem newWindow (h : Canonical s) : Canonical s.newWindow := .each h.withSaf fun _ _ h => h.setLink

theorem windowStep {meas : List Int} (h : Canonical s) : Canonical (s.windowStep meas) := by
  unfold State.windowStep
  extract_lets s1 _ s2 _ s3 _ _ _ s5 s6 s7
  have h1 : Canonical s1 := h.advanceTo.safTempStep
  have h2 : Canonical s2 := h1.withSaf
  have h3 : Canonical s3 := .each h2 fun _ _ h => h.losScan
  have h5 : Canonical s5 := .each h3 fun _ _ h => h.refStep.refMeasure
  have h6 : Canonical s6 := h5.safHist.refSelect
  have h7 : Canonical s7 := .ite h6.safForce h6
  exact h7.safStep.selQual.newWindow

theorem windowEnd {meas : List Int} (h : Canonical s) : Canonical (s.windowEnd meas) := .ite h h.windowStep

theorem refCompare {i : Nat} {t : Int} (h : Canonical s) : Canonical (s.refCompare i t) :=
  .ite h.setSafRef h.setSafRef

theorem refEdge {video : Bool} {width ago : Nat} {err : Int} (h : Canonical s) :
    Canonical (s.refEdge video width err ago) :=
  .ite h.count (.each h fun _ _ h => .ite h.wrB.setSafRef h.wrB.refCompare)

theorem refAes {n : Nat} {off : Int} (h : Canonical s) : Canonical (s.refAes n off) :=
  .each h fun _ _ h => h.refCompare

theorem clkStep {was : Nat} (h : Canonical s) : Canonical (s.clkStep was) := h.withSaf

theorem setStc {t : Nat} (h : Canonical s) : Canonical (s.setStc t) := (h.keep (by rfl)).clkStep.raise

theorem ptpReport {p cls acc : Nat} {offset : Int} (h : Canonical s) :
    Canonical (s.ptpReport p offset cls acc) := by
  unfold State.ptpReport
  extract_lets _ _ s1
  have h1 : Canonical s1 := h.setPtpRep
  split
  · exact .ite h1.setStc h1
  · exact h1

theorem ptpLost {p : Nat} (h : Canonical s) : Canonical (s.ptpLost p) := h.setPtpRep.losSource

theorem stcApply {r : Req} (h : Canonical s) : Canonical (s.stcApply r) := .ite h.reject h.setStc

theorem stcSnapNow (h : Canonical s) : Canonical s.stcSnapNow := h.wr.wr.wr.wr

theorem clkWrite {k : Nat} {w : Word} (h : Canonical s) : Canonical (s.clkWrite k w) := h.withSaf

/-! Serial audio ports (R222 to R239). -/

theorem setSap {n : Nat} {p : Sap} (h : Canonical s) : Canonical (s.setSap n p) := h.withSaps

theorem updSap {n : Nat} {f : Sap → Sap} (h : Canonical s) : Canonical (s.updSap n f) := h.setSap

theorem sapTurn {n : Nat} {master : Bool} (h : Canonical s) : Canonical (s.sapTurn n master) := h.upd.updSap

theorem sapCtrlWrite {q : Req} {n : Nat} {data : Word} (h : Canonical s) : Canonical (s.sapCtrlWrite q n data) :=
  .ite h.reject ((Canonical.ite ((Canonical.ite h.sapTurn h).updSap) (.ite h.sapTurn h)).wr)

theorem sapFmtWrite {q : Req} {n : Nat} {data : Word} (h : Canonical s) : Canonical (s.sapFmtWrite q n data) :=
  .ite h.reject h.wr

theorem sapRingReg {q : Req} {n : Nat} {rx : Bool} {data : Word} (h : Canonical s) :
    Canonical (s.sapRingReg q n rx data) := .ite h.reject h.wr

theorem sapRingCfg {q : Req} {n : Nat} {data : Word} (h : Canonical s) : Canonical (s.sapRingCfg q n data) :=
  .ite h.wr h.reject

theorem sapCommit {n : Nat} {data : Word} (h : Canonical s) : Canonical (s.sapCommit n data) := .ite h.wr.wrB h

theorem sapGrpWrite {q : Req} {data : Word} (h : Canonical s) : Canonical (s.sapGrpWrite q data) :=
  .ite h.reject h.upd

theorem sapTxTurn {n : Nat} {offset : Int} (h : Canonical s) : Canonical (s.sapTxTurn n offset) :=
  .ite h h.setSap.wr.wr

theorem sapStop {n : Nat} (h : Canonical s) : Canonical (s.sapStop n) :=
  (Canonical.ite h.sapTxTurn.wrB.wrB h.sapTxTurn.wrB).updSap

theorem sapRateDrop {rate : Nat} (h : Canonical s) : Canonical (s.sapRateDrop rate) :=
  .each h fun _ _ h => .ite ((Canonical.ite h.upd.raise.sapStop h.upd.raise).updSap) h

theorem sapLoss {n : Nat} (h : Canonical s) : Canonical (s.sapLoss n) := by
  unfold State.sapLoss
  extract_lets s1 s2 s3
  have h1 : Canonical s1 := h.count.raise.upd
  have h2 : Canonical s2 := h1.wr
  have h3 : Canonical s3 := h2.updSap
  exact .ite h (.ite (.each h3 fun _ _ h => h.srcLoss) h3)

theorem sapRate {n elapsed : Nat} (h : Canonical s) : Canonical (s.sapRate n elapsed) := .ite h.setSap h.setSap.wrF

theorem sapGood {n : Nat} (h : Canonical s) : Canonical (s.sapGood n) :=
  .ite (.ite h.setSap.wrB.wrB.raise.updSap h.setSap.wrB) h.setSap

theorem sapCheck {n : Nat} {f : SapFrame} (h : Canonical s) : Canonical (s.sapCheck n f) := by
  unfold State.sapCheck
  extract_lets _ _ _ s1 s2 s3
  have h1 : Canonical s1 := .ite h.count.raise h
  have h2 : Canonical s2 := .ite h1.count.raise h1
  have h3 : Canonical s3 := h2.updSap
  exact .ite h2.sapGood (.ite h3.sapLoss h3)

theorem sapCheckMaster {n : Nat} {f : SapFrame} (h : Canonical s) : Canonical (s.sapCheckMaster n f) :=
  .ite h h.count.raise

theorem sapFeed {n elapsed : Nat} {words : List Word} (h : Canonical s) : Canonical (s.sapFeed n elapsed words) :=
  .each h fun _ _ h => .ite h.updSap.srcFeed h.srcFeed

theorem sapTxFrame {n adv : Nat} {offset : Int} {slip ferr : Bool} (h : Canonical s) :
    Canonical (s.sapTxFrame n offset slip ferr adv) := (Canonical.ite h.sapTxTurn h).updSap

theorem sapFrame {n : Nat} {f : SapFrame} (h : Canonical s) : Canonical (s.sapFrame n f) := by
  unfold State.sapFrame
  extract_lets _ _ _ s1 _ _ s2 s3 _ _ _ _ _ _ s4
  have h1 : Canonical s1 := .ite h.sapCheckMaster h.sapCheck
  have h2 : Canonical s2 := h1.setSap.sapRate
  have h3 : Canonical s3 := .ite h1 h1.wrF
  have h4 : Canonical s4 := h3.setSap
  exact .ite h (.ite (.ite h2.sapFeed h2.wr) (.ite h4.sapTxFrame h4))

theorem sapReceive {n edge : Nat} (h : Canonical s) : Canonical (s.sapReceive n edge) :=
  (Canonical.each h.hush fun _ _ h => h.produce).wr.wr.setSap

theorem sapRingAbandon {n : Nat} (h : Canonical s) : Canonical (s.sapRingAbandon n) :=
  .each h fun _ _ h => h.count.raise.updSap

theorem sapTransmit {n : Nat} (h : Canonical s) : Canonical (s.sapTransmit n) :=
  .ite (.each h.updSap fun _ _ h => h.updSap.withRouter) h.updSap

theorem joinGroup {g : Nat} {on : Bool} (h : Canonical s) : Canonical (s.joinGroup g on) :=
  (Canonical.each h fun _ _ h => h.updSap).wrB

theorem sapGroups (h : Canonical s) : Canonical s.sapGroups :=
  .ite h ((Canonical.each h fun _ _ h => .ite h.joinGroup (.ite h.joinGroup h)).wr)

theorem sapApply {n : Nat} (h : Canonical s) : Canonical (s.sapApply n) := by
  unfold State.sapApply
  extract_lets s1 s2 s3 _ s4 s5 _
  have h1 : Canonical s1 := h.updSap
  have h2 : Canonical s2 := .ite h1.wr.wr.wr.wrB h1
  have h3 : Canonical s3 := h2.updSap
  have h4 : Canonical s4 := h3.upd
  have h5 : Canonical s5 := h4.updSap
  exact .ite (.ite h3 h3.sapStop) (.ite h5.withRouter h3)

theorem sapsReceive {edge : Nat} (h : Canonical s) : Canonical (s.sapsReceive edge) :=
  .each h fun _ _ h => .ite h.sapRingAbandon.sapReceive h.sapRingAbandon.hush

theorem sapPlay {n edge : Nat} (h : Canonical s) : Canonical (s.sapPlay n edge) := by
  unfold State.sapPlay
  extract_lets s1 _ _ _ s2 s3 s4
  have h1 : Canonical s1 := h.sapTxTurn
  have h2 : Canonical s2 := h1.setSap
  have h3 : Canonical s3 := .ite h2.sapTxTurn h2
  have h4 : Canonical s4 := h3.wrB
  exact .ite h4.count.raise h4

theorem sapsPlay {edge : Nat} (h : Canonical s) : Canonical (s.sapsPlay edge) := .each h fun _ _ h => h.sapPlay

theorem sapsApply (h : Canonical s) : Canonical s.sapsApply :=
  (Canonical.each h.sapGroups fun _ _ h => h.sapApply).srcUnfed

/-! AES3 ports and the rate converters (R240 to R253). -/

theorem setAesR {n : Nat} {p : AesRx} (h : Canonical s) : Canonical (s.setAesR n p) := h.withAesRx

theorem setAesT {n : Nat} {p : AesTx} (h : Canonical s) : Canonical (s.setAesT n p) := h.withAesTx

theorem aesLoss {n : Nat} (h : Canonical s) : Canonical (s.aesLoss n) :=
  .ite h.setAesR.count.raise.upd.wr.setAesR.srcLoss.srcLoss.losSource h.setAesR.setAesR

theorem subErr {n : Nat} {x : Subframe} (h : Canonical s) : Canonical (s.subErr n x) :=
  .ite ((Canonical.ite h.count h).count) (.ite h.count h)

theorem csLatch {n : Nat} (h : Canonical s) : Canonical (s.csLatch n) := by
  unfold State.csLatch
  extract_lets _ _ one s1
  have hone : ∀ s cs isA, Canonical s → Canonical (one s cs isA) := by
    intro s cs isA h
    refine .ite h.count.raise ?_
    extract_lets _ _ s1 s2
    have h1 : Canonical s1 := .each h fun _ _ h => h.wr
    have h2 : Canonical s2 := .ite h1.raise h1
    exact .ite h2.upd h2
  exact .each (hone _ _ _ (hone _ _ _ h)) fun _ _ h => h.wr.wr

theorem aesBlock {n : Nat} {f : AesFrame} {z : Bool} (h : Canonical s) : Canonical (s.aesBlock n f z) := by
  unfold State.aesBlock
  dsimp only
  have hlatch : Canonical (if z = true then
      match (s.aesR n).idx with
      | some 192 => if (s.aesR n).spoilt then s else s.csLatch n
      | some _ => (s.count (AES_RX_CRC_CNT n)).raise (AES_RX_INT n) 0x10#32
      | none => s
    else s) := by
    refine .ite ?_ h
    split
    · exact .ite h h.csLatch
    · exact h.count.raise
    · exact h
  split
  · exact hlatch.setAesR
  · exact hlatch.setAesR

theorem aesUnused {n : Nat} {f : AesFrame} {z : Bool} (h : Canonical s) : Canonical (s.aesUnused n f z) :=
  .ite h.setAesR h.aesBlock

theorem aesRateMeas {n elapsed : Nat} (h : Canonical s) : Canonical (s.aesRateMeas n elapsed) :=
  .ite h.setAesR h.setAesR.wrF

theorem aesGood {n : Nat} (h : Canonical s) : Canonical (s.aesGood n) :=
  .ite ((Canonical.ite h.wrB.raise h.wrB).setAesR) h.setAesR

theorem aesKeep {n elapsed : Nat} {drop twice : Bool} {x : Option Word × Option Word} (h : Canonical s) :
    Canonical (s.aesKeep n elapsed drop twice x) :=
  .ite h.setAesR (.ite (((Canonical.ite h.setAesR h).srcFeed).srcFeed) (.ite h.setAesR h))

theorem aesMissing {n : Nat} {f : AesFrame} (h : Canonical s) : Canonical (s.aesMissing n f) :=
  .ite h.setAesR.aesKeep.aesBlock.aesLoss h.setAesR.aesKeep.aesBlock

theorem aesFrame {n : Nat} {f : AesFrame} (h : Canonical s) : Canonical (s.aesFrame n f) := by
  unfold State.aesFrame
  extract_lets _ _ _ s1 s2 s3 _ _ _ _ _ s4 _ _ _ _ _ _ s5 s6 _ s7 _ s8
  have h1 : Canonical s1 := .ite h.count.raise h
  have h2 : Canonical s2 := h1.refAes
  have h3 : Canonical s3 := h2.subErr.subErr
  have h4 : Canonical s4 := .ite h3.count h3
  have h5 : Canonical s5 := h4.setAesR
  have h6 : Canonical s6 := h5.aesKeep
  have h7 : Canonical s7 := h6.aesBlock.aesRateMeas
  have h8 : Canonical s8 := .ite h7.aesGood h7.setAesR
  exact .ite h (.ite h.aesMissing (.ite h6.aesUnused.aesLoss (.ite h8 h8.wr)))

theorem aesReceive {n : Nat} (h : Canonical s) :
    Canonical (s.aesReceive n) := .ite h.setAesR.produce.produce h.hush

theorem aesApplyRx {n : Nat} (h : Canonical s) : Canonical (s.aesApplyRx n) := by
  unfold State.aesApplyRx
  extract_lets _ _ _ s1 _
  have h1 : Canonical s1 := .ite h.aesLoss h
  exact .ite h1.setAesR (.ite h1.setAesR h1.setAesR)

theorem aesTxStop {n : Nat} (h : Canonical s) : Canonical (s.aesTxStop n) := h.wrB.setAesT

theorem aesApplyTx {n : Nat} (h : Canonical s) : Canonical (s.aesApplyTx n) := .ite h.wrB.setAesT
    (.ite h.aesTxStop h)

theorem aesRateDrop {fs : Nat} (h : Canonical s) : Canonical (s.aesRateDrop fs) :=
  .each h fun _ _ h => .ite h.wrB.aesTxStop.raise h

theorem aesTxCtrl {q : Req} {n : Nat} {data : Word} (h : Canonical s) : Canonical (s.aesTxCtrl q n data) :=
  .ite h.reject h.wr

theorem aesTxCommitW {n : Nat} {data : Word} (h : Canonical s) : Canonical (s.aesTxCommitW n data) := .ite h.wr h

theorem aesTxTake {n : Nat} (h : Canonical s) : Canonical (s.aesTxTake n) := .ite h.wr.setAesT h

theorem aesTxZ {n : Nat} (h : Canonical s) : Canonical (s.aesTxZ n) := .ite h.aesTxTake.setAesT h

theorem aesTxRun {n : Nat} (h : Canonical s) : Canonical (s.aesTxRun n) := (Canonical.ite h.aesTxTake h).setAesT

theorem srcChWrite {q : Req} {c : Nat} {data : Word} (h : Canonical s) : Canonical (s.srcChWrite q c data) :=
  .ite h.wr h.reject

theorem srcCommitW {data : Word} (h : Canonical s) : Canonical (s.srcCommitW data) := .ite h.wr h

theorem aesTxBlock {n sub edge count : Nat} (h : Canonical s) : Canonical (s.aesTxBlock n sub edge count).1 := by
  unfold State.aesTxBlock
  extract_lets
  refine .ite_fst h ?_
  split
  · exact h.srcOutput
  · exact h

theorem aesPlay {edge : Nat} (h : Canonical s) : Canonical (s.aesPlay edge) :=
  .each h.srcOutFrames fun _ _ h => h.aesTxRun.aesTxBlock.aesTxBlock.setAesT

theorem aesStopped (h : Canonical s) : Canonical s.aesStopped := .each h fun _ _ h => h.setAesT

theorem aesApply (h : Canonical s) : Canonical s.aesApply :=
  (Canonical.each h fun _ _ h => h.aesApplyRx.aesApplyTx).srcApply.srcBegin

theorem aesReceiveAll {edge : Nat} (h : Canonical s) : Canonical (s.aesReceiveAll edge) :=
  (Canonical.each h fun _ _ h => h.aesReceive).srcBlocks

/-! The Patch Router (R160 to R175). -/

theorem setSink {i : Nat} {k : Sink} (h : Canonical s) : Canonical (s.setSink i k) := h.withRouter

theorem deferEntry {i : Nat} (h : Canonical s) : Canonical (s.deferEntry i) := .ite h.setSink h.setSink.count.raise

theorem applyEntry {i : Nat} {w : Word} (h : Canonical s) : Canonical (s.applyEntry i w) :=
  .ite h.deferEntry h.setSink.raise.withRouter

theorem applyRewrite {i : Nat} {w : Word} (h : Canonical s) : Canonical (s.applyRewrite i w) := by
  unfold State.applyRewrite
  extract_lets _ _ s1
  have h1 : Canonical s1 := .ite h h.withRouter
  exact .ite h1 (.ite (.ite h1.deferEntry h1) h1.applyEntry)

theorem sinkStep (h : Canonical s) : Canonical s.sinkStep := by
  unfold State.sinkStep
  extract_lets _ _ s1 s2 s3 _ s4
  have h1 : Canonical s1 := h.withRouter
  have h2 : Canonical s2 := .each h1 fun _ _ h => h.applyRewrite
  have h3 : Canonical s3 := .each h2 fun _ _ h => h.applyEntry
  have h4 : Canonical s4 := .ite h2 h3.withRouter
  exact .each h4 fun _ _ h => h.setSink

theorem rollSinks (h : Canonical s) : Canonical s.rollSinks := .each h fun _ _ h => h.setSink

theorem flagReserved (h : Canonical s) : Canonical s.flagReserved := .each h fun _ _ h => h.wrB.raise.count

theorem takeTaps {phase : Nat} (h : Canonical s) : Canonical (s.takeTaps phase) := h.withRouter

theorem queueFills {e phase : Nat} (h : Canonical s) : Canonical (s.queueFills e phase) := h.setEng

theorem histWords {e sl pos : Nat} {ws : List (Nat × Word)} (h : Canonical s) :
    Canonical (s.histWords e sl pos ws) :=
  .ite ((Canonical.ofMem (by rfl) (Memory.wf_foldPutWord _ _ _ h)).fenceRange) h

theorem fillQuad {e : Nat} {x : Xfer} (h : Canonical s) : Canonical (s.fillQuad e x) :=
  (Canonical.ofMem (by rfl) (Memory.wf_foldPutWord _ _ _ h)).histWords.setEng

theorem collectQuad {e : Nat} {x : Xfer} (h : Canonical s) : Canonical (s.collectQuad e x) := h.setEng

theorem tapTransfer {e : Nat} (h : Canonical s) : Canonical (s.tapTransfer e) := by
  unfold State.tapTransfer
  extract_lets s1
  have h1 : Canonical s1 := h.takeHalf
  refine .ite h ?_
  split
  · exact h1
  · exact .ite h1.collectQuad h1.fillQuad

theorem lateCollect {e : Nat} (h : Canonical s) : Canonical (s.lateCollect e) := h.count.wrB.raise

theorem produceSlice {e sl : Nat} {t : Entry} (h : Canonical s) : Canonical (s.produceSlice e sl t) := by
  unfold State.produceSlice
  extract_lets _ _ _ _ _ s1
  have h1 : Canonical s1 := .ite h.lateCollect h
  exact .ite (.each h fun _ _ h => h.produce) (.each h1 fun _ _ h => h.setEng.produce)

theorem producePhase {phase e : Nat} (h : Canonical s) : Canonical (s.producePhase phase e) :=
  (Canonical.each (.each h fun _ _ h => h.produceSlice) fun _ _ h => h.produce).updEng

theorem genApply {i : Nat} (h : Canonical s) : Canonical (s.genApply i) := h.withRouter

theorem genBlock {i : Nat} (h : Canonical s) : Canonical (s.genBlock i) := .ite h.withRouter.produce h.produce

theorem routerStep (h : Canonical s) : Canonical s.routerStep :=
  .each (.each h.sinkStep.flagReserved fun _ _ h => h.genApply) fun _ _ h => h.genBlock

/-! The Mix Matrix (R132 to R145). -/

theorem setBus {b : Nat} {x : Bus} (h : Canonical s) : Canonical (s.setBus b x) := h.withMtx

theorem cascForward {b : Nat} {p : List Int} (h : Canonical s) : Canonical (s.cascForward b p) :=
  .each h fun _ _ h => .ite h.dngSend h

theorem cascLate {b : Nat} (h : Canonical s) : Canonical (s.cascLate b) :=
  .ite (.each h fun _ _ h => .ite h.count.raise h) h

theorem busFinish {b : Nat} (h : Canonical s) : Canonical (s.busFinish b) := by
  unfold State.busFinish
  extract_lets _ _ _ s1 _ _ s2 _ s3 s4 _ s5
  have h1 : Canonical s1 := h.cascLate
  have h2 : Canonical s2 := h1.setBus
  have h3 : Canonical s3 := h2.withMtx
  have h4 : Canonical s4 := .ite h3.wrB.raise.count h3
  have h5 : Canonical s5 := .ite h4 h4.wrB.raise.countF
  exact .ite h h5.cascForward

theorem busSum {b : Nat} (h : Canonical s) : Canonical (s.busSum b) := .ite h.withMtx h.withMtx.busFinish

theorem busComplete {b : Nat} (h : Canonical s) : Canonical (s.busComplete b) :=
  .ite (.each h fun _ _ h => h.advanceTo.busSum) h

theorem cascDeadline (h : Canonical s) : Canonical s.cascDeadline :=
  .ite (.each h.busComplete.advanceTo.withMtx fun _ _ h => h.busFinish) h

theorem showBus {b : Nat} {gliding sel : Bool} (h : Canonical s) : Canonical (s.showBus b gliding sel) :=
  .ite h.upd.wrB.wrF (.ite h.upd.wrB.wrF h.upd.wrB)

theorem rollBus {b : Nat} (h : Canonical s) : Canonical (s.rollBus b) := by
  unfold State.rollBus
  extract_lets _ _ _ _ s1
  have h1 : Canonical s1 := .ofMem (by rfl) (Memory.wf_foldPutWord _ _ _ h)
  split
  · exact .ofMem (by rfl) (Memory.wf_foldPutWord _ _ _ h)
  · exact .ite (((Canonical.ofMem (by rfl) (Memory.wf_foldPutWord _ _ _ h)).setBus).showBus) h1.setBus

theorem produceBuses (h : Canonical s) : Canonical s.produceBuses := .each h fun _ _ h => h.produce

theorem busStart {b len j0 : Nat} {bank : Bool} {owner : Option (Fin 4)} (h : Canonical s) :
    Canonical (s.busStart b bank len j0 owner) := h.setBus.showBus

theorem busInForce (h : Canonical s) : Canonical s.busInForce := .each h fun _ _ h => h.setBus

theorem flipWrite {n : Nat} {data : Word} (h : Canonical s) : Canonical (s.flipWrite n data) := .ite h h.upd.raise

/-! Morph slots and lane glides (R146 to R159). -/

theorem setSlotM {m : Fin 4} {x : MorphSlot} (h : Canonical s) : Canonical (s.setSlotM m x) := h.withMorph

theorem morphCtrl {m : Fin 4} {arm abort : Bool} (h : Canonical s) : Canonical (s.morphCtrl m arm abort) :=
  .ite ((Canonical.ite (.ite h.upd h.wrB) h).wrB) (.ite (.ite h.upd h.wrB) h)

theorem setLane {k : Nat} {l : Lane} (h : Canonical s) : Canonical (s.setLane k l) := h.withMorph

theorem slotLoses {m : Fin 4} {f : MorphSlot → MorphSlot} (h : Canonical s) : Canonical (s.slotLoses m f) :=
  h.setSlotM

theorem loseBus {b : Nat} (h : Canonical s) : Canonical (s.loseBus b) := by
  unfold State.loseBus
  split
  · exact h.slotLoses
  · exact h

theorem loseLane {k : Nat} (h : Canonical s) : Canonical (s.loseLane k) := by
  unfold State.loseLane
  split
  · exact h.slotLoses
  · exact h

theorem laneStart {k len j0 : Nat} {up : Bool} {m : Fin 4} (h : Canonical s) :
    Canonical (s.laneStart k up len j0 m) := h.loseLane.setLane.wrB.setSlotM

theorem busMorph {b len j0 : Nat} {bank : Bool} {m : Fin 4} (h : Canonical s) :
    Canonical (s.busMorph b bank len j0 m) := h.loseBus.busStart.setSlotM

theorem slotEnd {m : Fin 4} {status : Nat} (h : Canonical s) : Canonical (s.slotEnd m status) := by
  unfold State.slotEnd
  extract_lets s1 s2 s3
  have h1 : Canonical s1 := h.upd
  have h2 : Canonical s2 := .each h1 fun _ _ h => .ite h.setBus h
  have h3 : Canonical s3 := .each h2 fun _ _ h => .ite h.setLane h
  exact h3.setSlotM.wrB

theorem morphAbortApply {m : Fin 4} (h : Canonical s) : Canonical (s.morphAbortApply m) := by
  unfold State.morphAbortApply
  extract_lets s1 _ _ s2 s3
  have h1 : Canonical s1 := h.wrB
  have h2 : Canonical s2 := h1.slotEnd
  have h3 : Canonical s3 := .each h2 fun _ _ h => h.busStart
  refine .ite ?_ h
  split
  · exact h1.slotEnd
  · refine .ite (.each h3 fun s x h => ?_) h1.slotEnd
    split
    · exact h.setLane
    · exact h
  · exact h1

theorem laneEnd {k : Nat} (h : Canonical s) : Canonical (s.laneEnd k) := by
  unfold State.laneEnd
  refine .ite ?_ h
  dsimp only
  split
  · exact h.upd.setSlotM.setLane
  · exact h.upd.setLane

theorem morphComplete {m : Fin 4} (h : Canonical s) : Canonical (s.morphComplete m) := by
  unfold State.morphComplete
  extract_lets _ _ s1 _ s2
  have h1 : Canonical s1 := .each h fun _ _ h => h.setBus
  have h2 : Canonical s2 := h1.setSlotM
  exact .ite (.ite h2.slotEnd h2) h

theorem slotBegin {tick j : Nat} {m : Fin 4} (h : Canonical s) : Canonical (s.slotBegin tick j m) :=
  .ite h.upd.wr.setSlotM.wrB h.upd.wr.setSlotM

theorem flipsApply {starts : List (Nat × Fin 4)} (h : Canonical s) : Canonical (s.flipsApply starts) :=
  .ite (((Canonical.each h fun _ _ h => (Canonical.each h fun _ _ h => h.loseBus.busStart).wr).wrB).raise) h

theorem morphStart {s0 : State} {starts : List (Nat × Fin 4)} {s : State} {x : Nat × Fin 4} (h : Canonical s) :
    Canonical (State.morphStart s0 starts s x) := .each (.each h fun _ _ h => h.busMorph) fun _ _ h => h.laneStart

theorem rollLanes (h : Canonical s) : Canonical s.rollLanes := .each h fun _ _ h => h.setLane

theorem matrixStep {tick : Nat} (h : Canonical s) : Canonical (s.matrixStep tick) := by
  unfold State.matrixStep
  extract_lets s1 _ s2 s3 s4 s5 _ s6
  have h1 : Canonical s1 := h.busInForce
  have h2 : Canonical s2 := .each h1 fun _ _ h => h.morphAbortApply
  have h3 : Canonical s3 := .each h2 fun _ _ h => h.laneEnd
  have h4 : Canonical s4 := .each h3 fun _ _ h => h.morphComplete
  have h5 : Canonical s5 := .each h4 fun _ _ h => h.setBus
  have h6 : Canonical s6 := .each h5 fun _ _ h => h.slotBegin
  exact .each h6.flipsApply fun _ _ h => .each h fun _ _ h => h.morphStart

/-! Slice migration (R121 to R129). -/

theorem migStart (h : Canonical s) : Canonical s.migStart := by
  unfold State.migStart
  extract_lets _ s1 s2 s3
  have h1 : Canonical s1 := h.wr
  have h2 : Canonical s2 := h1.wrF
  have h3 : Canonical s3 := h2.wr
  split
  · exact h3.withMig
  · exact h.wrF.raise

theorem migAbortReq (h : Canonical s) : Canonical s.migAbortReq := .ite (.ite h.withMig h.migAbort) h

theorem migLate (h : Canonical s) : Canonical s.migLate := .ite h h.wrF.withClove

theorem migCtrl {data : Word} (h : Canonical s) : Canonical (s.migCtrl data) := by
  unfold State.migCtrl
  extract_lets s1
  have h1 : Canonical s1 := .ite h.migStart h
  exact .ite (.ite h1.migLate h1.migAbortReq) h1

theorem rewriteSrc {pick : Nat → Bool} {to_ : Nat → Nat} (h : Canonical s) : Canonical (s.rewriteSrc pick to_) :=
  h.withRouter

theorem migActivate (h : Canonical s) : Canonical s.migActivate := h.setStaged.setLive.wrF

theorem migInputs (h : Canonical s) : Canonical s.migInputs := h.withRouter

theorem migDrop {id : Nat} (h : Canonical s) : Canonical (s.migDrop id) := h.dropLive.wrB

theorem migFinish (h : Canonical s) : Canonical s.migFinish := h.migDrop.keep (by rfl)

theorem migCleanup {g : MigClean} (h : Canonical s) : Canonical (s.migCleanup g) :=
    (Canonical.ite h.migDrop h).keep (by rfl)

theorem migCheck {blk : Nat} (h : Canonical s) : Canonical (s.migCheck blk) :=
  .ite (.ite h.migAbort (.ite h.migAbort (.ite h.migAbort h))) h

theorem migStep6 (h : Canonical s) : Canonical s.migStep6 := by
  unfold State.migStep6
  extract_lets s1 _ s2 _ _ s3 _ s4 _
  have h1 : Canonical s1 := .each h fun _ _ h => h.migCleanup
  have h2 : Canonical s2 := h1.withMig
  have h3 : Canonical s3 := h2.wrF.migActivate
  have h4 : Canonical s4 := h2.migFinish
  exact .ite (.ite h2.wrF (.ite h3.withMig (.ite h2.wrF.migInputs (.ite h4.withMig h2)))) h2

theorem migStep7 (h : Canonical s) : Canonical s.migStep7 := .ite h.migEnd.withMig h

theorem migLoad (h : Canonical s) : Canonical s.migLoad := by
  unfold State.migLoad
  refine .ite (.ite (Canonical.fenceRange ?_) h) h
  refine ofMem (by rfl) (Memory.wf_foldl h.copied fun m q hm => ?_)
  exact Memory.wf_foldPutWord _ _ _ hm

theorem migCompare (h : Canonical s) : Canonical s.migCompare := by
  unfold State.migCompare
  extract_lets
  refine .ite ?_ h
  split
  · exact h.withMig
  · exact h.wr.migAbort

theorem migSwitchIn {id : Nat} (h : Canonical s) : Canonical (s.migSwitchIn id) := by
  unfold State.migSwitchIn
  extract_lets _ s1 _
  have h1 : Canonical s1 := .ite h.migAbort (.ite h.migAbort h)
  exact .ite (.ite h1.withMig h1) h

theorem migNewBlock (h : Canonical s) : Canonical s.migNewBlock := .ite (h.keep (by rfl)) h

theorem migFrameStop (h : Canonical s) : Canonical s.migFrameStop := h.migAbort

/-! The slice sequencer and the event interface of an engine (R60 to R68, R112). -/

theorem sliceStart {e : Nat} (h : Canonical s) : Canonical (s.sliceStart e) := by
  unfold State.sliceStart
  extract_lets
  refine .ite h ?_
  split
  · extract_lets _ s1
    have h1 : Canonical s1 := h.setEng
    split
    · exact .ite h h.setEng
    · exact h1.migSwitchIn.setEng.cloveHost

theorem eventTake {e : Nat} (h : Canonical s) : Canonical (s.eventTake e) := by
  unfold State.eventTake
  extract_lets
  split
  · exact h
  · exact .ite h.setEng.count.maxF h

theorem handlerTimeout {e : Nat} (h : Canonical s) : Canonical (s.handlerTimeout e) := .ite h.setEng.engFault h

theorem resultLand {e : Nat} (h : Canonical s) : Canonical (s.resultLand e) := by
  unfold State.resultLand
  extract_lets
  split
  · exact h.setEng
  · exact h

theorem externalAccess {e q : Nat} {write : Bool} {strb : BitVec 16} {data : BitVec 128} (h : Canonical s) :
    Canonical (s.externalAccess e q write strb data) :=
  .ite h.fenceLog.respondBeats (.ite h.extWrite.respondBeats h.extRead.respondBeats)

theorem sltCommit {e : Nat} {data : Word} (h : Canonical s) : Canonical (s.sltCommit e data) := .ite h.wr.wrB h

/-! Clove's commands (R206 to R221). -/

theorem eventPost {q : Req} {p : Nat} {hdr : Word} (h : Canonical s) : Canonical (s.eventPost q p hdr) := by
  unfold State.eventPost
  extract_lets _ s1 _ s2 _ s3 _
  have h1 : Canonical s1 := h.wr
  have h2 : Canonical s2 := h1.wr.wr
  have h3 : Canonical s3 := h2.aniSend
  exact .ite h (.ite h.aniDiscard (.ite h.reject (.ite h.wr.aniDiscard (.ite h.wr (.ite h.wr.count (.ite
    (.ite h3.withAni h2.acceptAs) h1.accept))))))

theorem outboxPost {e o : Nat} (h : Canonical s) : Canonical (s.outboxPost e o) := by
  unfold State.outboxPost
  extract_lets _ _ _ _ _ s1 _ _ _ _
  have h1 : Canonical s1 := h.setEng
  split
  · exact h
  · exact .ite (.ite h1.count.count.raise.portWrite (.ite h1.count.raise.portWrite h1.portWrite.accept)) h

theorem putRecord {e sl : Nat} {c : Cand} (h : Canonical s) : Canonical (s.putRecord e c sl) :=
  h.setEng.portWrite.withClove

theorem deliverTo {e : Nat} (h : Canonical s) : Canonical (s.deliverTo e) := by
  unfold State.deliverTo
  split
  · exact h
  · extract_lets _ _ mark s1
    have hmark : ∀ s, Canonical s → Canonical (mark s) := by
      intro s h
      dsimp only [mark]
      split
      · exact h.unqueue
      · exact h.admitted.withMig
      · exact h.admitted.withMig
    have h1 : Canonical s1 := .ite h.charge h
    exact .ite h.dropStale.cloveHost (.ite (Canonical.cloveHost (.ite (hmark _ h) (hmark _ h.count).consumed))
      (hmark _ h1.putRecord).cloveHost)

theorem deliverEng {e : Nat} (h : Canonical s) : Canonical (s.deliverEng e) := h.freeing fun _ h => h.deliverTo

theorem deliverCore {c : Nat} (h : Canonical s) : Canonical (s.deliverCore c) := by
  unfold State.deliverCore
  refine h.freeing fun s h => ?_
  extract_lets
  split
  · exact h
  · exact .ite h.dropStale.cloveHost (((Canonical.ite h.charge h).unqueue.consumed.withClove).cloveHost)

theorem timedDue {f : Nat} (h : Canonical s) : Canonical (s.timedDue f) := by
  unfold State.timedDue
  split
  · exact .ite h.advance.cloveHost h.cloveHost
  · exact h

theorem popStale {n f : Nat} {s : State} (h : Canonical s) : Canonical (State.popStale n s f) := by
  induction n generalizing s with
  | zero => exact h
  | succ n ih =>
    unfold State.popStale
    split
    · exact .ite (ih h.dropStale.cloveHost) h
    · exact h

theorem hostPop {q : Nat} (h : Canonical s) : Canonical (s.hostPop q) := by
  refine h.freeing fun s h => ?_
  extract_lets f s1 s2 take ws s3 s4
  have h1 : Canonical s1 := h.cloveHost
  have h2 : Canonical s2 := .ite h1 h1.popStale
  have h3 : Canonical s3 := by
    unfold s3
    clear_value take
    split
    · exact h2.unqueue.consumed.cloveHost
    · exact h2
  have h4 : Canonical s4 := .each h3 fun _ _ h => h.wr
  exact h4.wr

theorem execEventDeliver {d : Dest} (h : Canonical s) : CanonicalOut (Machine.execEventDeliver d s) := by
  unfold Machine.execEventDeliver
  split
  · exact .done h.deliverEng
  · exact .done h.deliverCore

/-! The state of DMA channels (R362 to R364). -/

theorem setDmaCh {u c : Nat} {x : DmaCh} (h : Canonical s) : Canonical (s.setDmaCh u c x) := h.withDma

theorem dmaFinal {u c status cause : Nat} (h : Canonical s) : Canonical (s.dmaFinal u c status cause) :=
  h.upd.setDmaCh.raise

theorem dmaNextDesc {u c : Nat} {d : Desc} (h : Canonical s) : Canonical (s.dmaNextDesc u c d) := by
  unfold State.dmaNextDesc
  extract_lets s1 _ s2
  have h1 : Canonical s1 := .ite h.raise h
  have h2 : Canonical s2 := h1.wr.wr.setDmaCh
  exact .ite h1.setDmaCh (.ite h1.dmaFinal (.ite h2 h2.dmaFinal))

theorem dmaEnd {u c : Nat} {k : DmaStep} {bytes : List Byte} {err : Bool} (h : Canonical s) :
    Canonical (s.dmaEnd u c k bytes err) := by
  unfold State.dmaEnd
  extract_lets _ _ _ _ _ s1 _
  have h1 : Canonical s1 := h.setDmaCh.wrF
  split
  · exact .ite h.dmaFinal h.setDmaCh
  · exact .ite h.setDmaCh (.ite h1.withHif h.setDmaCh)
  · exact .ite h.setDmaCh h.setDmaCh.wrF
  · exact .ite (.ite h.dmaFinal h.setDmaCh.dmaNextDesc) h.dmaFinal

theorem dmaOutcome {u c token : Nat} {k : DmaStep} {bytes : List Byte} {err : Bool} (h : Canonical s) :
    Canonical (s.dmaOutcome u c token k bytes err) := .ite h.dmaEnd h

/-! The Bus Matrix (R191 to R204). -/

theorem unlock {m : Nat} (h : Canonical s) : Canonical (s.unlock m) := h.withBmx

theorem reqFlush (h : Canonical s) : Canonical s.reqFlush := h.keep (by rfl)

theorem reqPart {id : Nat} {data : List (Nat × Byte)} {err : Bool} (h : Canonical s) :
    Canonical (s.reqPart id data err) := h.withReqs.reqFlush

theorem txnOutcome {o : Origin} {t : Txn} {data : List (BitVec 256)} {err : Bool} (h : Canonical s) :
    Canonical (s.txnOutcome o t data err) := by
  unfold State.txnOutcome
  extract_lets
  split
  · exact h.respondBeats
  · exact h.reqPart
  · exact .ite h h.withBmx
  · exact h.dmaOutcome

theorem mirrorWrite {t : Txn} (h : Canonical s) : Canonical (s.mirrorWrite t) :=
  .ite h.aniDiscard (.each h fun _ _ h => .ite h h.aniCapture)

theorem mxmHold (h : Canonical s) : Canonical s.mxmHold := .each h fun _ _ h => h.count.withBmx

theorem acceptTxn {t : Txn} {o : Origin} (h : Canonical s) : Canonical (s.acceptTxn t o) := by
  unfold State.acceptTxn
  extract_lets _ _ _ s1 _ _ s2 _ s3 _ _ _
  have h1 : Canonical s1 := .ite h.unlock h
  have h2 : Canonical s2 := .ite h1.withBmx h1
  have h3 : Canonical s3 := .ite h2.mirrorWrite.unlock h2
  exact .ite h3.withBmx.mxmHold h

theorem portPump {n : Nat} {s : State} (h : Canonical s) : Canonical (State.portPump n s) := by
  induction n generalizing s with
  | zero => exact h
  | succ n ih =>
    unfold State.portPump
    split
    · exact h
    · exact ih (h.keep (by rfl)).acceptTxn

theorem portGo (h : Canonical s) : Canonical s.portGo := h.portPump

theorem acceptBurst {t : Txn} (h : Canonical s) : Canonical (s.acceptBurst t) := .ite h.withPortWait.portGo h

theorem updTxn {id : Nat} {f : BusTxn → BusTxn} (h : Canonical s) : Canonical (s.updTxn id f) := h.withBmx

theorem grant {t : Nat} (h : Canonical s) : Canonical (s.grant t) := by
  unfold State.grant
  refine .ite h ?_
  split
  · exact h
  · exact h.updTxn.maxF.withBmx.mxmHold

theorem txnErr {x : BusTxn} {cause : Nat} (h : Canonical s) : Canonical (s.txnErr x cause).1 := .ite_fst h.busErr h

theorem lockEnd {x : BusTxn} (h : Canonical s) : Canonical (s.lockEnd x) := by
  unfold State.lockEnd
  extract_lets
  refine .ite (.ite h (.ite h.withBmx ?_)) h.withBmx
  split
  · exact h.withBmx
  · exact h

theorem beatDone {x : BusTxn} {d : BitVec 256} (h : Canonical s) : Canonical (s.beatDone x d) :=
  .ite h.updTxn.lockEnd h.updTxn

theorem errBeat {x : BusTxn} (h : Canonical s) : Canonical (s.errBeat x) := h.txnErr.beatDone

theorem memBeat {x : BusTxn} (h : Canonical s) : Canonical (s.memBeat x) := by
  unfold State.memBeat
  extract_lets s1 _
  have h1 : Canonical s1 := .ite h.contend h
  split
  · exact h1
  · extract_lets
    exact .ite h1.errBeat (.ite (.ite h1.memBeatWrite.errBeat h1.memBeatWrite.beatDone)
      ((Canonical.ite_fst h1.memBeatRead.txnErr h1.memBeatRead).beatDone))

theorem defaultBeat (h : Canonical s) : Canonical s.defaultBeat := by
  unfold State.defaultBeat
  split
  · exact h
  · exact h.txnErr.updTxn

theorem endTxn {x : BusTxn} (h : Canonical s) : Canonical (s.endTxn x) :=
  (Canonical.ite (.ite h.withBmx h.withBmx.wrB) h.withBmx.txnOutcome).portGo.mxmHold

theorem completeAt {t : Nat} (h : Canonical s) : Canonical (s.completeAt t) := by
  unfold State.completeAt
  split
  · exact h.endTxn
  · exact h

theorem lockTimeout {t : Nat} (h : Canonical s) : Canonical (s.lockTimeout t) := by
  unfold State.lockTimeout
  split
  · exact h
  · exact .ite h h.advanceTo.withBmx

theorem masterReset {m : Nat} (h : Canonical s) : Canonical (s.masterReset m) := by
  unfold State.masterReset
  extract_lets _ _ s1 _ _ s2 s3 s4 _
  have h1 : Canonical s1 := by
    unfold s1
    split
    · exact h.busLog
    · exact h.busLog
  have h2 : Canonical s2 := h1.withBmx
  have h3 : Canonical s3 := h2.keep (by rfl)
  have h4 : Canonical s4 := h3.wrB
  exact .ite (.each h4 fun _ _ h => h.dmaFinal) h4

theorem sliceApply {i : Nat} (h : Canonical s) : Canonical (s.sliceApply i) := .ite h.wrB.withBmx h

theorem sliceWrite {data : Word} (h : Canonical s) : Canonical (s.sliceWrite data) :=
  .each h.wr.wr fun _ _ h => h.sliceApply

theorem windowWrite {m w : Nat} {data : Word} (h : Canonical s) :
    Canonical (s.windowWrite m w data) := h.wr.withBmx

theorem allBeats {n id : Nat} {s : State} (h : Canonical s) : Canonical (State.allBeats n s id) := by
  induction n generalizing s with
  | zero => exact h
  | succ n ih =>
    unfold State.allBeats
    split
    · exact ih h.memBeat
    · exact h

theorem mxmRelease {n : Nat} {s : State} (h : Canonical s) : Canonical (State.mxmRelease n s) := by
  induction n generalizing s with
  | zero => exact h
  | succ n ih =>
    unfold State.mxmRelease
    dsimp only
    split
    · exact h.grant
    · exact ih h.grant.allBeats.completeAt

/-! The transactions of the device's own units (R17, R191 to R201). -/

theorem directWrite {m a : Nat} {bytes : List Byte} (h : Canonical s) : Canonical (s.directWrite m a bytes) := by
  unfold State.directWrite
  refine .each h fun s x h => ?_
  extract_lets _ r
  have hr : Canonical r.1 := .foldl_fst h fun _ _ h => h.memBeatWrite
  split
  · exact h.busErr
  · exact .ite hr.busErr hr

theorem directRead {m a n : Nat} (h : Canonical s) : Canonical (s.directRead m a n).2 := by
  unfold State.directRead
  refine .foldl_snd h fun r x h => ?_
  extract_lets s bs y
  have hy : Canonical y.2.1 := .foldl_snd_fst h fun _ _ h => h.memBeatRead
  split
  · exact h.busErr
  · exact .ite hy.busErr hy

theorem turnPast {m : Nat} {ts : List Nat} (h : Canonical s) : Canonical (s.turnPast m ts) := h.withBmx

theorem busPush {t : Nat} (h : Canonical s) : Canonical (s.busPush t) := by
  unfold State.busPush
  extract_lets s1
  have h1 : Canonical s1 := h.grant
  split
  · exact h1.allBeats.completeAt
  · exact h1.completeAt

theorem defaultAll {x : BusTxn} (h : Canonical s) : Canonical (s.defaultAll x) := h.txnErr.updTxn.endTxn

theorem unitDrive {n m : Nat} {s : State} (h : Canonical s) : Canonical (State.unitDrive n s m) := by
  induction n generalizing s with
  | zero => exact h
  | succ n ih =>
    unfold State.unitDrive
    split
    · exact h
    · exact .ite (ih h.defaultAll) (.ite (ih h.busPush) h)

theorem unitSend {m a : Nat} {write : Bool} {bytes : List Byte} (h : Canonical s) :
    Canonical (s.unitSend m write a bytes) := h.withPortWait.portGo.unitDrive

theorem masterWrite {m a : Nat} {bytes : List Byte} (h : Canonical s) : Canonical (s.masterWrite m a bytes) :=
  .ite h (.ite h.directWrite.turnPast h.unitSend)

theorem masterRead {m a n : Nat} (h : Canonical s) : Canonical (s.masterRead m a n).2 :=
  .ite_snd h (.ite_snd h.directRead.turnPast (.ite_snd h.unitDrive.withBmx.unitSend.withBmx h.unitDrive))

theorem sapRingWrite {n : Nat} (h : Canonical s) : Canonical (s.sapRingWrite n) := by
  unfold State.sapRingWrite
  extract_lets _ s1
  have h1 : Canonical s1 := h.unitDrive
  split
  · exact h
  · exact h
  · exact .ite h1.masterWrite.masterWrite.updSap h1

theorem sapRingFetch {n : Nat} (h : Canonical s) : Canonical (s.sapRingFetch n) := by
  unfold State.sapRingFetch
  refine .ite ?_ h
  extract_lets _ nblk a
  have hread : Canonical (s.masterRead 8 a s.ringStride).2 := h.masterRead
  split
  · next hr => rw [hr] at hread; exact hread.updSap
  · next hr => rw [hr] at hread; exact hread

/-! What the network units share. -/

theorem netPut {a : Nat} {bs : List Byte} (h : Canonical s) : Canonical (s.netPut a bs) :=
  .ofMem (by rfl) (Memory.wf_putBytes _ _ h)

theorem netWord {a : Nat} {w : Word} (h : Canonical s) : Canonical (s.netWord a w) := .ofMem (by rfl)
    (Memory.wf_putWord _ _ h)

/-! The network ports (R256 to R274). -/

theorem setMac {n : Nat} {m : Mac} (h : Canonical s) : Canonical (s.setMac n m) := h.withMacs

theorem txBack {n t status err segs : Nat} (h : Canonical s) : Canonical (s.txBack n t status err segs) :=
  (Canonical.ite ((Canonical.ite h.netWord h.netWord.raise).count) (.ite h.netWord h.netWord.raise)).upd

theorem segEnd {n t status : Nat} (h : Canonical s) : Canonical (s.segEnd n t status) := h.setMac.txBack.wrB.raise

theorem txLinkDown {n t : Nat} {ring : Bool} (h : Canonical s) : Canonical (s.txLinkDown n t ring) :=
  .ite h.count.setMac.wrB.txBack h.count

theorem setMacLink {n l : Nat} (h : Canonical s) : Canonical (s.setMacLink n l) := .ite h h.wrF.wrB.raise

theorem verifyIn {n : Nat} (h : Canonical s) : Canonical (s.verifyIn n) := .ite h.wrB h

theorem leaveUp {n : Nat} (h : Canonical s) : Canonical (s.leaveUp n) := by
  unfold State.leaveUp
  dsimp only
  split <;> split
  · exact h.setMac.countF.txLinkDown.txLinkDown
  · exact h.setMac.countF.txLinkDown
  · exact h.setMac.countF.txLinkDown
  · exact h.setMac.countF

theorem macEnable {n : Nat} {on : Bool} (h : Canonical s) : Canonical (s.macEnable n on) :=
  .ite (.ite h.setMacLink h) ((Canonical.ite h.leaveUp h).setMacLink)

theorem linkLock {n : Nat} (h : Canonical s) : Canonical (s.linkLock n) := .ite h.setMacLink h

theorem linkLoss {n : Nat} (h : Canonical s) : Canonical (s.linkLoss n) :=
  .ite h.leaveUp.setMacLink.count (.ite h.setMacLink.count h)

theorem remoteFault {n : Nat} (h : Canonical s) : Canonical (s.remoteFault n) := .ite h.leaveUp.setMacLink h

theorem remoteClear {n : Nat} (h : Canonical s) : Canonical (s.remoteClear n) := .ite h.setMacLink h

theorem pauseEnd {n : Nat} (h : Canonical s) : Canonical (s.pauseEnd n) := h.setMac.wrF

theorem credits {n at_ : Nat} (h : Canonical s) : Canonical (s.credits n at_) := h.setMac

theorem macNow {n : Nat} (h : Canonical s) : Canonical (s.macNow n) := by
  have hp : Canonical (match (s.mac n).pause with
      | some (f, u) =>
        if u ≤ s.lineNow then s.pauseEnd n else if f ≤ s.lineNow then s.wrB (MAC_STAT n) 3 true else s
      | none => s) := by
    split
    · exact .ite h.pauseEnd (.ite h.wrB h)
    · exact h
  unfold State.macNow
  dsimp only
  split
  · exact hp.credits.credits
  · exact hp.credits

theorem startWire {n : Nat} {w : Wire} (h : Canonical s) : Canonical (s.startWire n w) := h.setMac

theorem macScan {k n t at_ : Nat} {s : State} (h : Canonical s) : Canonical (State.macScan k s n t at_) := by
  induction k generalizing s t with
  | zero => unfold State.macScan; exact h
  | succ k ih =>
    cases t with
    | zero => unfold State.macScan; exact h
    | succ t =>
      unfold State.macScan
      dsimp only
      refine .ite (ih h) ?_
      split
      · refine .ite (ih h.setMac) ?_
        split
        · exact h.setMac.startWire
        · exact ih h
      · refine .ite (.ite (ih h.txBack) (.ite (ih h.segEnd) (.ite ?_ (ih h)))) (ih h)
        split
        · exact h.setMac.startWire
        · exact ih h

theorem resume {n at_ : Nat} (h : Canonical s) : Canonical (s.resume n at_) := by
  unfold State.resume
  extract_lets
  split
  · refine .ite ?_ h
    split
    · exact h.setMac.startWire
    · exact h
  · exact h

theorem cutWire {n : Nat} {w : Wire} (h : Canonical s) : Canonical (s.cutWire n w) := .ite (.ite h.setMac h) h

theorem macSelect {n : Nat} (h : Canonical s) : Canonical (s.macSelect n) := by
  unfold State.macSelect
  extract_lets s1 _ _ _
  have h1 : Canonical s1 := h.macNow
  refine .ite ?_ ?_
  · split
    · exact h1.cutWire
    · exact h1.credits.macScan.resume
  · refine .ite h1 ?_
    split
    · exact h1
    · exact .ite h1.setMac.txLinkDown h1.txLinkDown

theorem stampIn {n id : Nat} {ns : Int} (h : Canonical s) : Canonical (s.stampIn n id ns) :=
  .ite (.ite h.setMac.wrF.raise h.setMac.wrF) h.setMac.count

theorem ringSent {n t : Nat} (h : Canonical s) : Canonical (s.ringSent n t) :=
  .ite h.txBack (.ite h.setMac.segEnd (.ite h.setMac.segEnd h.setMac))

theorem fwSent {n : Nat} {f : FwFrame} {ns : Option Int} (h : Canonical s) : Canonical (s.fwSent n f ns) := by
  unfold State.fwSent
  extract_lets
  split
  · exact h.setMac
  · exact h
  · exact .ite h.setMac h

theorem stampOut {n : Nat} {w : Wire} (h : Canonical s) : Canonical (s.stampOut n w) := by
  unfold State.stampOut
  extract_lets
  split
  · exact h
  · extract_lets s1
    have h1 : Canonical s1 := h.stampIn
    split
    · exact h1.fwSent
    · exact h1

theorem macComplete {n : Nat} (h : Canonical s) : Canonical (s.macComplete n) := by
  unfold State.macComplete
  split
  · exact h
  · extract_lets _ s1 _ s2 _ s3 _ s4 s5 s6
    have h1 : Canonical s1 := h.advanceTo.macNow
    have h2 : Canonical s2 := h1.setMac
    have h3 : Canonical s3 := .ite h2 h2.count
    have h4 : Canonical s4 := h3.setMac
    have h5 : Canonical s5 := h4.count.upd
    have h6 : Canonical s6 := h5.stampOut
    exact .ite h2.setMac.count (.ite h6.ringSent h6)

theorem segAbort {n mask : Nat} (h : Canonical s) : Canonical (s.segAbort n mask) :=
  .each h fun _ _ h => .ite (.ite h.wrB h.segEnd) h

theorem stampPop {n : Nat} (h : Canonical s) : Canonical (s.stampPop n) := by
  unfold State.stampPop
  extract_lets
  split
  · exact h.wrB
  · exact h.setMac.wr.wr.wr.wr

theorem gclCommit {n : Nat} (h : Canonical s) : Canonical (s.gclCommit n) := h.setMac.wr

theorem gclActivate {n : Nat} (h : Canonical s) : Canonical (s.gclActivate n) := by
  unfold State.gclActivate
  split
  · exact h
  · exact h.macNow.advance.macNow.setMac.wr.wrF.raise

theorem gateIvlEnd {n : Nat} (h : Canonical s) : Canonical (s.gateIvlEnd n) := by
  unfold State.gateIvlEnd
  extract_lets s1
  have h1 : Canonical s1 := h.macNow
  split
  · exact h1
  · exact h1.advance.macNow

theorem pauseExpire {n : Nat} (h : Canonical s) : Canonical (s.pauseExpire n) := by
  unfold State.pauseExpire
  split
  · exact h
  · exact h.advanceTo.macNow

theorem pauseDog {n : Nat} (h : Canonical s) : Canonical (s.pauseDog n) := by
  unfold State.pauseDog
  extract_lets _ s1
  have h1 : Canonical s1 := h.advanceTo.macNow
  split
  · exact h
  · exact .ite h h1.wrB.raise.count

theorem pauseIn {n quanta : Nat} (h : Canonical s) : Canonical (s.pauseIn n quanta) :=
  .ite h.macNow.count.pauseEnd h.macNow.count.setMac.macNow

/-! PTP messages that come in (R289, R290). -/

theorem setPtpInst {p : Nat} {x : Option PtpInst} (h : Canonical s) : Canonical (s.setPtpInst p x) := h.withHouse

theorem ptpHear {p : Nat} {frame : List Byte} {ns : Int} (h : Canonical s) : Canonical (s.ptpHear p frame ns) := by
  unfold State.ptpHear
  extract_lets
  split
  · exact .ite h (.ite h.setMac h.setPtpInst)
  · exact h

/-! Media streams, and received frames (R259 to R265, R278 to R288). -/

theorem setSrx {i : Nat} {x : StrmRx} (h : Canonical s) : Canonical (s.setSrx i x) := h.withStrmRx

theorem setStx {i : Nat} {x : StrmTx} (h : Canonical s) : Canonical (s.setStx i x) := h.withStrmTx

theorem srxCount {i k : Nat} (h : Canonical s) : Canonical (s.srxCount i k) := h.setSrx

theorem srxWrite {i np : Nat} {at_ : Int} {data : List Byte} (h : Canonical s) :
    Canonical (s.srxWrite i np at_ data) := (Canonical.each h fun _ _ h => h.masterWrite).setSrx

theorem srxPacket {i : Nat} {pathB : Bool} {p : Packet} (h : Canonical s) : Canonical (s.srxPacket i pathB p) := by
  unfold State.srxPacket
  extract_lets _ _ _ prev s1 s2 s3 _ _
  have h1 : Canonical s1 := h.setSrx
  have h2 : Canonical s2 := h1.wrB
  have h3 : Canonical s3 := by
    unfold s3
    clear_value prev
    split
    · exact .ite h2 h2.srxCount
    · exact h2
  exact .ite h3.srxCount (.ite h3 (.ite h3.srxCount (.ite h3.srxCount (.ite h3.srxCount h3.srxWrite.srxCount))))

theorem strmReceive {n : Nat} {bs : List Byte} (h : Canonical s) : Canonical (s.strmReceive n bs) := by
  unfold State.strmReceive
  split
  · exact h.count
  · exact h.srxPacket

theorem srxBlock {i : Nat} (h : Canonical s) : Canonical (s.srxBlock i).2 :=
  .foldl_snd h fun _ _ h => .ite_snd h.masterRead h

theorem srxLost {i np : Nat} {bs : List (Option (List Word))} (h : Canonical s) : Canonical (s.srxLost i np bs) :=
  .each h fun _ _ h => .ite h.setSrx ((Canonical.ite h.srxCount.raise h).setSrx)

theorem srxTake {taken : List Nat} {i : Nat} (h : Canonical s) : Canonical (s.srxTake taken i) :=
  (Canonical.each h.srxBlock.srxLost fun _ _ h => .ite h.setSrx h.setSrx.produce).wrB.setSrx

theorem strmTake (h : Canonical s) : Canonical s.strmTake := .foldl_fst h.hush fun _ _ h => .ite_fst h.srxTake h

theorem pathDown {i : Nat} {pathB : Bool} (h : Canonical s) : Canonical (s.pathDown i pathB) :=
  .ite h.advanceTo.wrB.raise h

theorem offerFrame {n cls : Nat} {bs : List Byte} (h : Canonical s) : Canonical (s.offerFrame n cls bs) :=
  .ite h.count h.macNow.setMac

theorem offer {n cls : Nat} {bs : List Byte} (h : Canonical s) :
    Canonical (s.offer n cls bs) := .ite h h.offerFrame

theorem fwOffer {n : Nat} {f : FwFrame} (h : Canonical s) :
    Canonical (s.fwOffer n f) := .ite h.count h.macNow.setMac

theorem stxSend {t : Nat} (h : Canonical s) : Canonical (s.stxSend t) := by
  unfold State.stxSend
  extract_lets _ _ _ _ _ _ _ s1 hs _ s2 _ _ _ s3
  have h1 : Canonical s1 := h.wrB
  have hhs : Canonical hs.2 := .foldl_snd h1 fun _ _ h => h.masterRead
  have h2 : Canonical s2 := hhs.wrB
  have h3 : Canonical s3 := .each h2 fun _ _ h => h.offer
  exact .ite h2.setStx h3.wrF.setStx

theorem stxSample {t np count : Nat} {smp : List Word} (h : Canonical s) :
    Canonical (s.stxSample t np count smp) :=
  .ite h.setStx (.ite h.setStx.stxSend h.setStx)

theorem strmSend (h : Canonical s) : Canonical s.strmSend := .each h fun _ _ h => .each h fun _ _ h => h.stxSample

theorem rateDrop (h : Canonical s) : Canonical s.rateDrop :=
  .ite h ((Canonical.each h fun _ _ h => .ite ((Canonical.ite h.wrB h).wrB) (.ite h.wrB h)).raise)

theorem setRx {n : Nat} {f : RxFrame} {x : Option (Nat × Int)} (h : Canonical s) : Canonical (s.setRx n f x) :=
  h.setMac

theorem rxCounted {n : Nat} {f : RxFrame} (h : Canonical s) : Canonical (s.rxCounted n f) := h.count.upd

theorem rxStore {n q : Nat} {hit : Option Nat} {f : RxFrame} {ns : Int} (h : Canonical s) :
    Canonical (s.rxStore n q hit f ns) := by
  unfold State.rxStore
  extract_lets _ _ _ _ _ _ s1 s2 s3
  have h1 : Canonical s1 := h.netPut
  have h2 : Canonical s2 := .ofMem (by rfl) (Memory.wf_putWords _ _ h1)
  have h3 : Canonical s3 := h2.wr
  exact .ite h.rxCounted (.ite h.ptpHear.rxCounted (.ite h.count.raise h3.rxCounted))

theorem rxSteer {n : Nat} {f : RxFrame} {ns : Int} (h : Canonical s) : Canonical (s.rxSteer n f ns) := by
  unfold State.rxSteer
  split
  · exact .ite h.strmReceive h.rxStore
  · exact .ite h.count h.rxStore

theorem macReceive {n : Nat} {f : RxFrame} (h : Canonical s) : Canonical (s.macReceive n f) := by
  unfold State.macReceive
  extract_lets _ s1 _
  have h1 : Canonical s1 := h.setRx.countF
  exact .ite h (.ite h.verifyIn (.ite h.setRx (.ite h1.count (.ite h1.count (.ite h1.count (.ite h1.count
    (.ite h1.count (.ite (.ite h1.pauseIn h1.count) h1.rxSteer))))))))

/-! Dongo links (R313 to R325). -/

theorem setDngState {n v : Nat} (h : Canonical s) : Canonical (s.setDngState n v) := .ite h h.wrF.wrB.raise

theorem updLink {n : Nat} {f : Dng → Dng} (h : Canonical s) : Canonical (s.updLink n f) := h.setLink

theorem setAligned {n : Nat} {b : Bool} (h : Canonical s) : Canonical (s.setAligned n b) :=
  .ite h h.wrB.wrB.raise.lineRun.updLink

theorem dngHello {n : Nat} {echo : Bool} (h : Canonical s) : Canonical (s.dngHello n echo) :=
  (Canonical.ite h h.updLink).dngSend

theorem cascDrop {n : Nat} (h : Canonical s) : Canonical (s.cascDrop n) := h.withMtx

theorem dngDown {n to_ : Nat} (h : Canonical s) : Canonical (s.dngDown n to_) := by
  unfold State.dngDown
  extract_lets s1 _ _ s2 s3 s4 s5
  have h1 : Canonical s1 := h.lineRun
  have h2 : Canonical s2 := h1.cascDrop
  have h3 : Canonical s3 := h2.setAligned.setDngState
  have h4 : Canonical s4 := .ite h3 h3.countF.raise
  have h5 : Canonical s5 := h4.updLink
  exact h5.losSource

theorem dngRetrain {n : Nat} (h : Canonical s) : Canonical (s.dngRetrain n) := .ite h.dngDown.count.dngHello h

theorem dngEnable {n : Nat} {on : Bool} (h : Canonical s) : Canonical (s.dngEnable n on) :=
  .ite (.ite h.setDngState.dngHello h) (.ite h.dngDown h.setDngState)

theorem dngAcked {n q : Nat} (h : Canonical s) : Canonical (s.dngAcked n q) := h.lineRun.updLink

theorem dngNaked {n q : Nat} (h : Canonical s) : Canonical (s.dngNaked n q) :=
  .ite h.dngAcked.dngRetrain h.dngAcked.setLink

theorem dngNak {n : Nat} (h : Canonical s) : Canonical (s.dngNak n) := h.dngSend

theorem dngAudio {n : Nat} {f : DngFrame} (h : Canonical s) : Canonical (s.dngAudio n f) :=
  .ite h (.each h fun _ _ h => .ite h h.updLink)

theorem dngCasc {n : Nat} {f : DngFrame} (h : Canonical s) : Canonical (s.dngCasc n f) :=
  .ite h (.ite h (.each h.withMtx fun _ _ h => .ite h h.busFinish))

theorem dngTime {n : Nat} {f : DngFrame} (h : Canonical s) : Canonical (s.dngTime n f) := by
  unfold State.dngTime
  extract_lets _ _ _ _ _ _ _ s1 s2 s3 s4
  have h1 : Canonical s1 := h.wrF
  have h2 : Canonical s2 := h1.wrF.wrB
  have h3 : Canonical s3 := h2.updLink
  have h4 : Canonical s4 := h3.updLink
  refine .ite ?_ (.ite h3.setAligned h3)
  split
  · exact h4.setAligned
  · exact h4.wrB.wrB.setAligned

theorem dngEvent {n : Nat} {ws : List Word} (h : Canonical s) :
    Canonical (s.dngEvent n ws) := .ite h.count h.acceptAs

theorem dngAct {n : Nat} {f : DngFrame} (h : Canonical s) : Canonical (s.dngAct n f) := by
  unfold State.dngAct
  split
  · exact h.dngAudio
  · exact h.dngCasc
  · exact h.dngTime
  · exact .each h fun _ _ h => h.dngEvent
  · exact h

theorem setDelay {n roundTrip : Nat} (h : Canonical s) : Canonical (s.setDelay n roundTrip) := h.wr

theorem dngHelloIn {n : Nat} {f : DngFrame} (h : Canonical s) : Canonical (s.dngHelloIn n f) :=
  .ite h.dngHello (.ite h.setDngState.setDelay.updLink h.setDelay)

theorem dngReceive {n : Nat} {bs : List Byte} (h : Canonical s) : Canonical (s.dngReceive n bs) := by
  unfold State.dngReceive
  extract_lets s1 _
  have h1 : Canonical s1 := h.count
  refine .ite h ?_
  split
  · exact .ite h1.dngNak h1
  · extract_lets
    refine .ite h.dngHelloIn (.ite h ?_)
    split
    · exact h.dngAcked
    · exact h.dngNaked
    · exact .ite h.setLink.dngAct h.dngNak

theorem dngTrain {n : Nat} (h : Canonical s) : Canonical (s.dngTrain n) := .ite h.dngHello h

theorem dngAck {n : Nat} (h : Canonical s) : Canonical (s.dngAck n) := .ite h.updLink.dngSend h

theorem dngTimeSend {n : Nat} (h : Canonical s) : Canonical (s.dngTimeSend n) := .ite h.dngSend h

theorem dngDelay {n roundTrip : Nat} (h : Canonical s) : Canonical (s.dngDelay n roundTrip) := by
  unfold State.dngDelay
  split
  · exact h
  · exact h.setDelay
  · exact h.setDelay.dngHello

theorem dngForward {n : Nat} (h : Canonical s) : Canonical (s.dngForward n) := by
  unfold State.dngForward
  extract_lets _ s1 s2
  have h1 : Canonical s1 := h.cloveHost
  have h2 : Canonical s2 := h1.popStale
  refine .ite ?_ h
  split
  · exact h2.unqueue.consumed.cloveHost.dngSend
  · exact h2

theorem dngTick (h : Canonical s) : Canonical s.dngTick := .each h fun _ _ h => h.lineRun.updLink

theorem dngBitmaps (h : Canonical s) : Canonical s.dngBitmaps := .each h fun _ _ h => h.updLink

theorem dngStop (h : Canonical s) : Canonical s.dngStop := .each h fun _ _ h => h.updLink.setAligned

theorem dngChannel {b n c : Nat} (h : Canonical s) : Canonical (s.dngChannel b n c) :=
  .ite h (.ite h (.ite h.setLink.produce.count.raise h.setLink.produce))

theorem dngDeliver {b : Nat} (h : Canonical s) : Canonical (s.dngDeliver b) := by
  unfold State.dngDeliver
  extract_lets s1
  have h1 : Canonical s1 := h.hush
  exact .each h1 fun _ _ h => .ite ((Canonical.each h.updLink fun _ _ h => h.dngChannel).updLink) h.updLink

theorem dngAudioOut (h : Canonical s) : Canonical s.dngAudioOut := .each h fun _ _ h => .each h fun _ _ h => h.dngSend

theorem dngCascOut (h : Canonical s) : Canonical s.dngCascOut := .each h fun _ _ h => .ite h.dngSend h

/-! Power states, wake events and temperature (R369 to R377). -/

theorem wakeEvent {src : Nat} (h : Canonical s) : Canonical (s.wakeEvent src) := by
  unfold State.wakeEvent
  extract_lets
  split
  · exact h
  · extract_lets
    refine .ite h ?_
    split
    · exact h.withPwr
    · exact .ite h.withPwr h

theorem hostWake {q : Req} (h : Canonical s) : Canonical (s.hostWake q) := .ite h.wakeEvent h

theorem pwrReq {q : Req} {data : Word} (h : Canonical s) : Canonical (s.pwrReq q data) := by
  unfold State.pwrReq
  extract_lets s1 s2 _
  have h1 : Canonical s1 := .ite h.hostWake h
  have h2 : Canonical s2 := h1.wrF
  refine .ite ?_ h1
  split
  · exact h2.withPwr
  · exact h1.wrF.raise

theorem pwrEnter (h : Canonical s) : Canonical s.pwrEnter := by
  unfold State.pwrEnter
  extract_lets
  split
  · exact h
  · extract_lets _ s1 s2 s3 s4 s5 _ s6
    have h1 : Canonical s1 := h.wrF
    have h2 : Canonical s2 := h1.withPwr
    have h3 : Canonical s3 := .each h2 fun _ _ h => h.macEnable
    have h4 : Canonical s4 := .each h3 fun _ _ h => h.dngEnable
    have h5 : Canonical s5 := .ite (.each h4 fun _ _ h => .ite h.wrF h) h4
    have h6 : Canonical s6 := .ite h5.withAni h5
    exact (Canonical.ite h6.wr h6).cloveHost

theorem pwrResume {t w : Nat} (h : Canonical s) : Canonical (s.pwrResume t w) := by
  unfold State.pwrResume
  extract_lets s1 _ _ _ s2 s3 s4 s5 _ _ _ _ _
  have h1 : Canonical s1 := h.wrF.wrF.raise
  have h2 : Canonical s2 := h1.withPwr
  have h3 : Canonical s3 := .each h2 fun _ _ h => .ite h.macEnable h
  have h4 : Canonical s4 := .each h3 fun _ _ h => .ite h.dngEnable h
  have h5 : Canonical s5 := .each h4 fun _ _ h => .ite h.wrF h
  exact .ite (h5.keep (by rfl)).cloveHost.portGo h4

theorem hotBlock (h : Canonical s) : Canonical s.hotBlock := .ite h.raise.count h

theorem hotPeriod (h : Canonical s) : Canonical s.hotPeriod := .ite h.hotBlock h

theorem tempRegs {ts : List Int} (h : Canonical s) : Canonical (s.tempRegs ts) := by
  unfold State.tempRegs
  extract_lets _ s1 s2 s3 _ _ s4
  have h1 : Canonical s1 := .each h fun _ _ h => h.wr
  have h2 : Canonical s2 := h1.wr
  have h3 : Canonical s3 := .ite h2.wr h2
  have h4 : Canonical s4 := h3.keep (by rfl)
  exact .ite h4.raise h4

theorem budgetStep {pest : Nat} (h : Canonical s) : Canonical (s.budgetStep pest) :=
  h.wr.wr.hotBlock.withClove.wrF.cloveHost

theorem setWindows (h : Canonical s) : Canonical s.setWindows := h.wr.wr.wr.wr.wr

theorem splitWrite {q : Req} {data : Word} (h : Canonical s) : Canonical (s.splitWrite q data) :=
  .ite h.wr.wrB h.reject

theorem frameStart {t : Nat} (h : Canonical s) : Canonical (s.frameStart t) := h.keep (by rfl)

theorem disarm (h : Canonical s) : Canonical s.disarm := h.wrB.wrB

theorem runWrite {run : Bool} {t : Nat} (h : Canonical s) : Canonical (s.runWrite run t) := by
  unfold State.runWrite
  extract_lets s1 _
  have h1 : Canonical s1 := h.wrB
  exact .ite (.ite h1.wrB (.ite h1.withFrame (.ite h1 h1.frameStart))) (.ite h1.wrB h1)

theorem formatChange {rate blen : Nat} (h : Canonical s) : Canonical (s.formatChange rate blen) := by
  unfold State.formatChange
  extract_lets s1 _ s2
  have h1 : Canonical s1 := h.sapRateDrop.aesRateDrop
  have h2 : Canonical s2 := h1.wrF.wrF.setWindows
  exact .ite h2 (.each h2 fun _ _ h => h.revalidate)

theorem frmCtrlWrite {q : Req} {data : Word} (h : Canonical s) : Canonical (s.frmCtrlWrite q data) := by
  unfold State.frmCtrlWrite
  extract_lets s1 _ _ _ _ _ s2 s3
  have h1 : Canonical s1 := h.hostWake
  have h2 : Canonical s2 := (Canonical.ite h1.formatChange h1).rateDrop
  have h3 : Canonical s3 := .ite h2.disarm h2
  exact .ite h1.reject h3.runWrite

theorem timedStart {late : Bool} (h : Canonical s) : Canonical (s.timedStart late) :=
  .ite (.ite h.advance.disarm.wrB.raise h.advance.disarm.wrB.raise.runWrite) h

theorem startCtrl {q : Req} {data : Word} (h : Canonical s) : Canonical (s.startCtrl q data) :=
  .ite h.reject (.ite h.disarm (.ite (.ite h.wrB.wrB.timedStart h.wrB.wrB) h))

/-! Mailboxes and house firmware (R354 to R361). -/

theorem setCore {c v : Nat} (h : Canonical s) : Canonical (s.setCore c v) := h.wrF

theorem mbDone {m status : Nat} {rsp : List Word} (h : Canonical s) : Canonical (s.mbDone m status rsp) :=
  (Canonical.each h fun _ _ h => h.wr).upd.withHouse

theorem mbGo {q : Req} {m : Nat} (h : Canonical s) : Canonical (s.mbGo q m) :=
  .ite h (.ite h.raise (.ite h.wrB.withHouse h.wrB.mbDone))

theorem mbExpire {m : Nat} (h : Canonical s) : Canonical (s.mbExpire m) := .ite h.mbDone h.mbDone.withHouse

theorem mbTimeout {m : Nat} (h : Canonical s) : Canonical (s.mbTimeout m) := .ite h.advanceTo.mbExpire h

theorem mbOver {m : Nat} (h : Canonical s) : Canonical (s.mbOver m) := .ite h.mbExpire h

theorem lateTake {m : Nat} (h : Canonical s) : Canonical (s.lateTake m) := h.count.withHouse

theorem fwCmd {m op : Nat} {owner : Bool} {f : State → State} (h : Canonical s) (hf : ∀ s, Canonical s →
      Canonical (f s)) :
    Canonical (s.fwCmd m op owner f) := by
  unfold State.fwCmd
  extract_lets s1
  have h1 : Canonical s1 := h.mbOver
  exact .ite h1.lateTake (.ite (.ite h1.mbDone (.ite h1.mbDone (hf _ h1))) h1)

theorem getVersion {m : Nat} (h : Canonical s) : Canonical (s.getVersion m) := h.fwCmd fun _ h => h.mbDone

theorem getStats {m : Nat} (h : Canonical s) : Canonical (s.getStats m) :=
  h.fwCmd (fun _ h => .ite h.mbDone ((Canonical.ite_snd h.freeWords h).mbDone))

theorem ptpFilters {p profile : Nat} (h : Canonical s) : Canonical (s.ptpFilters p profile) :=
  .ite h.wr.wr.wr h.wr.wr.wr.wr

theorem ptpSet {m : Nat} (h : Canonical s) : Canonical (s.ptpSet m) :=
  h.fwCmd (fun _ h => .ite h.mbDone (.ite h.mbDone h.setPtpInst.ptpFilters.mbDone))

theorem ptpRelease {p : Nat} (h : Canonical s) : Canonical (s.ptpRelease p) := h.wr.wr.setMac

theorem ptpStop {m : Nat} (h : Canonical s) : Canonical (s.ptpStop m) :=
  h.fwCmd (fun _ h => .ite h.mbDone h.setPtpInst.ptpRelease.mbDone)

theorem ptpStatus {m : Nat} (h : Canonical s) : Canonical (s.ptpStatus m) := h.fwCmd fun _ h => h.freeWords.mbDone

theorem discSet {m : Nat} (h : Canonical s) : Canonical (s.discSet m) :=
  h.fwCmd (fun _ h => .ite h.mbDone h.withHouse.mbDone)

theorem fwFrame {p cls : Nat} {args : List Word} (h : Canonical s) : Canonical (s.fwFrame p cls args) :=
  h.withFree.offerFrame

theorem discAnnounce {p : Nat} (h : Canonical s) : Canonical (s.discAnnounce p) := .ite h.fwFrame h

theorem aniStats {m : Nat} (h : Canonical s) : Canonical (s.aniStats m) := h.fwCmd fun _ h => h.mbDone

theorem takeImage {a : Nat} (h : Canonical s) : Canonical (s.takeImage a) := h.wrB.wr.withBoot

theorem coreReset {c : Nat} (h : Canonical s) : Canonical (s.coreReset c) := h.withHouse.setCore.cloveHost

theorem fwUpdate {m : Nat} (h : Canonical s) : Canonical (s.fwUpdate m) := by
  unfold State.fwUpdate
  refine h.fwCmd fun s h => ?_
  extract_lets _ _ _ _ _ _ s1 s2 s3 _ s4
  have h1 : Canonical s1 := .ite h.fenceRange.busErr h
  have h2 : Canonical s2 := .ofMem (by rfl) (Memory.wf_putBytes _ _ h1)
  have h3 : Canonical s3 := h2.mbDone.takeImage
  have h4 : Canonical s4 := h3.withHouse
  refine .ite h.mbDone (.ite h.mbDone ?_)
  split
  · exact h4.coreReset.coreReset
  · exact h2.wr.raise.mbDone

theorem coreRestart {m : Nat} (h : Canonical s) : Canonical (s.coreRestart m) :=
  h.fwCmd (fun _ h => .ite h.mbDone (.each h.mbDone fun _ _ h => h.coreReset))

theorem fwRun {m : Nat} (h : Canonical s) : Canonical (s.fwRun m) := by
  unfold State.fwRun
  split
  · exact h.getVersion
  · exact h.getStats
  · exact h.ptpSet
  · exact h.ptpStop
  · exact h.ptpStatus
  · exact h.discSet
  · exact h.aniStats
  · exact h.fwUpdate
  · exact h.coreRestart
  · exact h.fwCmd fun _ h => h.mbDone

theorem mbAnswer {m status : Nat} (h : Canonical s) : Canonical (s.mbAnswer m status) :=
  .ite h.mbOver (.ite h.mbOver.lateTake (.ite h.mbOver.fwRun h.mbOver))

theorem coreUp {c : Nat} (h : Canonical s) : Canonical (s.coreUp c) := by
  unfold State.coreUp
  extract_lets s1 _
  have h1 : Canonical s1 := h.setCore.cloveHost
  refine .ite ?_ h
  split
  · exact .ite h1.withHouse h1
  · exact h.wr.setCore.cloveHost

theorem coreDog {c : Nat} (h : Canonical s) : Canonical (s.coreDog c) := .ite h.coreReset.raise.count h

theorem setLoads {l0 l1 : Nat} (h : Canonical s) : Canonical (s.setLoads l0 l1) := h.wrF.wrF

theorem keepPages (h : Canonical s) : Canonical s.keepPages := .each h fun _ _ h => h.freeWords.withHouse

theorem shedRise {l0 l1 : Nat} (h : Canonical s) : Canonical (s.shedRise l0 l1) := by
  unfold State.shedRise
  extract_lets s1 s2 s3
  have h1 : Canonical s1 := h.setLoads
  have h2 : Canonical s2 := .ite h1.keepPages h1
  have h3 : Canonical s3 := h2.wrF.raise.count
  exact .ite (.ite (.each h3 fun _ _ h => h.mbDone) h3) h1

theorem shedFall {l0 l1 : Nat} (h : Canonical s) : Canonical (s.shedFall l0 l1) := .ite h.setLoads.wrF h.setLoads

theorem ptpSend {p : Nat} {k : PtpMsg} (h : Canonical s) : Canonical (s.ptpSend p k) := by
  unfold State.ptpSend
  extract_lets _ _ _ s1
  have h1 : Canonical s1 := .ite h.setMac h
  split
  · exact .ite h1.withFree.setPtpInst.fwOffer h
  · exact h

theorem ptpReportIn {p cls acc : Nat} {offset : Int} (h : Canonical s) :
    Canonical (s.ptpReportIn p offset cls acc) := by
  unfold State.ptpReportIn
  split
  · exact .ite h.ptpReport.setPtpInst h
  · exact h

theorem ptpAnnounceLost {p : Nat} (h : Canonical s) : Canonical (s.ptpAnnounceLost p) := by
  unfold State.ptpAnnounceLost
  split
  · exact .ite h.ptpLost.setPtpInst h
  · exact h

theorem flr {fn : Nat} (h : Canonical s) : Canonical (s.flr fn) :=
  .each ((Canonical.each h fun _ _ h => h.wr).keep (by rfl)) fun _ _ h =>
    (Canonical.each h fun _ _ h => h.wr).setDmaCh

theorem rearm {q : Req} {vec : Nat} (h : Canonical s) : Canonical (s.rearm q vec) :=
  .ite (.each h fun _ _ h => .ite h.withHif h) h

theorem pcieLink {up : Bool} {width speed : Nat} (h : Canonical s) : Canonical (s.pcieLink up width speed) :=
  h.wr.raise

/-! Resets, fuse load, self-test and boot (R182 to R185, R380 to R392). -/

theorem blocksReset {hif : Bool} {pins : Nat} (h : Canonical s) : Canonical (s.blocksReset hif pins) := h

theorem loadRamp (h : Canonical s) : Canonical s.loadRamp := .ite h (.ofMem (by rfl) (Memory.wf_copyRange _ _ _ h))

theorem resetCause {b : Nat} (h : Canonical s) : Canonical (s.resetCause b) := h.wrB

theorem porReset {p : PorPins} (h : Canonical s) : Canonical (s.porReset p) := .ite h h

theorem sysReset {pins why : Nat} (h : Canonical s) : Canonical (s.sysReset pins why) :=
  h.blocksReset.loadRamp.resetCause.withBoot

theorem perstReset {pins : Nat} (h : Canonical s) : Canonical (s.perstReset pins) :=
  .ite h (.ite h.resetCause h.blocksReset.loadRamp.resetCause)

theorem deepRestart {cause : Nat} (h : Canonical s) : Canonical (s.deepRestart cause) :=
  swf_filter _ _ h.blocksReset.resetCause

theorem rstCtrl {q : Req} {data : Word} {pins : Nat} (h : Canonical s) : Canonical (s.rstCtrl q data pins) :=
  .ite (.ite h.sysReset h.reject) h

theorem bootStop {err : Nat} (h : Canonical s) : Canonical (s.bootStop err) := h.wrF.wrB.setCore.setCore.withBoot

theorem bootSource (h : Canonical s) : Canonical s.bootSource :=
  .ite h.bootStop (.ite h.bootStop (.ite h.wrF.bootStop h.wrF.wrB.setCore.withBoot))

theorem fuseDone {f : Fuses} (h : Canonical s) : Canonical (s.fuseDone f) := by
  unfold State.fuseDone
  extract_lets _ s1 s2 _ s3 s4 _
  have h1 : Canonical s1 := h.wr.wr
  have h2 : Canonical s2 := .each h1 fun _ _ h => h.withRep
  have h3 : Canonical s3 := h2.withBoot
  have h4 : Canonical s4 := .ite h3.wrF h3
  exact .ite h.sysReset (.ite (.ite h4.withBoot h4.loadRamp.bootSource) h)

theorem unitTested {t : UnitTest} (h : Canonical s) : Canonical (s.unitTested t) := h.withRep

theorem selfTested {res : List UnitTest} (h : Canonical s) : Canonical (s.selfTested res) :=
  .ite (Canonical.each (Canonical.ofMem (m := []) (by rfl) rfl).wr.wr fun _ _ h => h.wrB).withBoot.bootSource h

theorem hostGo (h : Canonical s) : Canonical s.hostGo := .ite h.wrB.wrB.withBoot h

theorem flashFail {err : Nat} (h : Canonical s) : Canonical (s.flashFail err) := .ite h.wrB.wrB h.bootStop

theorem flashTimeout (h : Canonical s) : Canonical s.flashTimeout := .ite h.flashFail h

theorem checkImage {fail : State → State} (h : Canonical s) (hf : ∀ s, Canonical s → Canonical (fail s)) :
    Canonical (s.checkImage fail) := by
  unfold State.checkImage
  extract_lets s1 _
  have h1 : Canonical s1 := h.takeImage.setCore.setCore
  split
  · exact h1.withBoot
  · exact hf _ h.wr

theorem bootImage {flash : List Byte} (h : Canonical s) : Canonical (s.bootImage flash) := by
  unfold State.bootImage
  extract_lets _ _ s1 _ s2
  have h1 : Canonical s1 := h.wrB
  have h2 : Canonical s2 := h1.withBoot
  exact .ite (.ite (.ite h.flashFail ((Canonical.ofMem (by rfl)
    (Memory.wf_putBytes _ _ h)).checkImage fun _ h => h.flashFail)) (.ite
      (h2.checkImage fun _ h => h.bootStop) h)) h

theorem bootReadyNow (h : Canonical s) : Canonical s.bootReadyNow := .ite h.setCore.setCore.wrB.withBoot.cloveHost h

theorem jtagLoad {i : JtagInstr} (h : Canonical s) : Canonical (s.jtagLoad i) := by
  unfold State.jtagLoad
  extract_lets
  split
  · exact .ite h.withBoot h.withBoot.acceptBurst
  · exact h.withBoot.respond
  · exact h.withBoot
  · exact h.withBoot

theorem pwrExit (h : Canonical s) : Canonical s.pwrExit := by
  unfold State.pwrExit
  extract_lets _ s1
  have h1 : Canonical s1 := h.deepRestart
  split
  · exact .ite h.pwrResume (.ite h1.wrF.raise.wrB h)
  · exact h

theorem trip (h : Canonical s) : Canonical s.trip := h.keep (by rfl)

theorem tempSample {ts : List Int} (h : Canonical s) : Canonical (s.tempSample ts) :=
  .ite h (.ite (.ite h.deepRestart.raise.tempRegs h) (.ite h.tempRegs.trip h.tempRegs))

/-! Anise's control. -/

theorem setAniState {v : Nat} (h : Canonical s) : Canonical (s.setAniState v) := .ite h.wrF.withHouse h.wrF

theorem updAni {f : Anise → Anise} (h : Canonical s) : Canonical (s.updAni f) := h.withAni

theorem showPaths (h : Canonical s) : Canonical s.showPaths := h.wrB.wrB

theorem roleClear (h : Canonical s) : Canonical s.roleClear := h.updAni

theorem copyEnd {status : Nat} (h : Canonical s) : Canonical (s.copyEnd status) :=
  .ite (((Canonical.ite h.aniSend h).upd.wrB.wr.raise).updAni) h

theorem aniFilter {n : Nat} {on : Bool} (h : Canonical s) :
    Canonical (s.aniFilter n on) := .ite h.wr.wr h.wr.setMac

theorem aniCtrl {q : Req} {data : Word} (h : Canonical s) : Canonical (s.aniCtrl q data) := by
  unfold State.aniCtrl
  extract_lets _ _ _ s1 s2 s3
  have h1 : Canonical s1 := h.wr
  have h2 : Canonical s2 := .ite h1.aniFilter h1
  have h3 : Canonical s3 := .ite h2.updAni h2
  exact .ite h.reject ((Canonical.ite (.ite h3.roleClear h3) h3.copyEnd.updAni).showPaths)

theorem copyStart (h : Canonical s) : Canonical s.copyStart := .ite h.wrB.wrF.wrF.wr.updAni h

theorem aniCmd {data : Word} (h : Canonical s) : Canonical (s.aniCmd data) := by
  unfold State.aniCmd
  extract_lets s1 s2 s3
  have h1 : Canonical s1 := .ite h.updAni h
  have h2 : Canonical s2 := .ite h1.updAni h1
  have h3 : Canonical s3 := .ite h2.copyStart h2
  exact .ite h3 (.ite h3.updAni (.ite h3.wrF h3))

theorem peerWatch {was : Bool} (h : Canonical s) : Canonical (s.peerWatch was) := .ite h.raise h

theorem pathLoss {p : AniPath} (h : Canonical s) : Canonical (s.pathLoss p) :=
  .ite h.updAni.raise.count.showPaths.peerWatch.copyEnd h

theorem heartbeat {width : Nat} (h : Canonical s) : Canonical (s.heartbeat width) := .ite h h.updAni.showPaths

/-! Register writes. -/

theorem ranged {q : Req} {r : Reg} {d : Word} {ok : Bool} (h : Canonical s) : Canonical (s.ranged q r d ok) :=
  .ite h.plainWrite h.reject

theorem dmaCtrl {q : Req} {u c : Nat} {d : Word} (h : Canonical s) : Canonical (s.dmaCtrl q u c d) := by
  unfold State.dmaCtrl
  extract_lets _ s1 _ s2 s3
  have h1 : Canonical s1 := .ite h.wrB h
  have h2 : Canonical s2 := h1.wr.wr
  have h3 : Canonical s3 := h2.upd
  exact .ite (.ite h1.setDmaCh h1) (.ite h3.setDmaCh h1)

theorem writeSys {q : Req} {r : Reg} {o : Nat} {d : Word} (h : Canonical s) : Canonical (s.writeSys q r o d) :=
  .ite h.rstCtrl (.ite (.ite h.hostGo h) (.ite h.frmCtrlWrite (.ite h.splitWrite h.plainWrite)))

theorem writePwr {q : Req} {r : Reg} {o : Nat} {d : Word} (h : Canonical s) : Canonical (s.writePwr q r o d) :=
  .ite h.ranged (.ite h.pwrReq (.ite h.ranged (.ite h.ranged (.ite h.ranged h.plainWrite))))

theorem writeBmx {q : Req} {r : Reg} {o : Nat} {d : Word} (h : Canonical s) : Canonical (s.writeBmx q r o d) :=
  .ite h.sliceWrite (.ite h.ranged (.ite h.windowWrite h.plainWrite))

theorem writeClv {q : Req} {r : Reg} {o : Nat} {d : Word} (h : Canonical s) : Canonical (s.writeClv q r o d) := by
  unfold State.writeClv
  extract_lets
  exact .ite (.ite h.migCtrl (.ite h.ranged h.plainWrite)) (.ite h.ranged (.ite h.ranged (.ite (.ite
    (.ite h.eventPost (.ite h.ranged h.plainWrite)) h) (.ite h.hostPop
      (.ite h.plainWrite.cloveHost h.plainWrite)))))

theorem writeSaf {q : Req} {r : Reg} {o : Nat} {d : Word} (h : Canonical s) : Canonical (s.writeSaf q r o d) := by
  unfold State.writeSaf
  extract_lets _ _ _ s1
  have h1 : Canonical s1 := h.ranged
  exact .ite (.ite h.reject h.plainWrite.clkWrite.safForce) (.ite h.ranged (.ite h.ranged (.ite h.ranged
    (.ite h.ranged (.ite h.ranged (.ite h.ranged (.ite (.ite h.reject h.plainWrite.clkWrite) (.ite (.ite
      (.ite h1.setSafRef.wrB h1) (.ite h.ranged (.ite h.ranged h.plainWrite))) h.plainWrite))))))))

theorem writeStc {q : Req} {r : Reg} {o : Nat} {d : Word} (h : Canonical s) : Canonical (s.writeStc q r o d) :=
  .ite (.ite h.stcSnapNow h) (.ite h.ranged (.ite (.ite h.stcApply h) (.ite h.startCtrl h.plainWrite)))

theorem writeSap {q : Req} {r : Reg} {o : Nat} {d : Word} (h : Canonical s) : Canonical (s.writeSap q r o d) := by
  unfold State.writeSap
  extract_lets
  exact .ite h.sapGrpWrite (.ite h.plainWrite (.ite h.sapCtrlWrite (.ite h.sapFmtWrite (.ite h.sapCommit
    (.ite h.sapRingReg (.ite h.sapRingCfg h.plainWrite))))))

theorem writeAes {q : Req} {r : Reg} {o : Nat} {d : Word} (h : Canonical s) : Canonical (s.writeAes q r o d) :=
  .ite h.aesTxCtrl (.ite h.aesTxCommitW h.plainWrite)

theorem writeSrc {q : Req} {r : Reg} {o : Nat} {d : Word} (h : Canonical s) : Canonical (s.writeSrc q r o d) :=
  .ite h.srcChWrite (.ite h.srcCommitW h.plainWrite)

theorem macCtrl {q : Req} {n : Nat} {data : Word} (h : Canonical s) : Canonical (s.macCtrl q n data) := by
  unfold State.macCtrl
  extract_lets _ _ _ _ s1 s2
  have h1 : Canonical s1 := h.plainWrite
  have h2 : Canonical s2 := .ite h1 h1.wrB
  exact .ite h.reject (.ite h2 h2.macEnable)

theorem macRing {q : Req} {n o : Nat} {r : Reg} {d : Word} (h : Canonical s) : Canonical (s.macRing q n r o d) :=
  .ite h.ranged (.ite h.ranged (.ite h.ranged h.plainWrite))

theorem writeMac {q : Req} {r : Reg} {n o : Nat} {d : Word} (h : Canonical s) :
    Canonical (s.writeMac q r n o d) := by
  unfold State.writeMac
  extract_lets
  exact .ite h.macCtrl (.ite h.ranged (.ite h.ranged (.ite h.segAbort (.ite (.ite h.stampPop h) (.ite h.ranged
    (.ite h.ranged (.ite h.ranged (.ite (.ite h.gclCommit h) (.ite h.ranged (.ite h.macRing
      (.ite h.ranged h.plainWrite)))))))))))

theorem rxCtrl {q : Req} {i : Nat} {data : Word} (h : Canonical s) : Canonical (s.rxCtrl q i data) :=
  .ite h.reject (.ite h.plainWrite (.ite h.plainWrite.setSrx h.plainWrite.wrF))

theorem txCtrl {q : Req} {t : Nat} {data : Word} (h : Canonical s) : Canonical (s.txCtrl q t data) :=
  .ite h.reject (.ite h.plainWrite.setStx.wrF h.plainWrite)

theorem writeStrm {q : Req} {r : Reg} {o : Nat} {d : Word} (h : Canonical s) :
    Canonical (s.writeStrm q r o d) := by
  unfold State.writeStrm
  extract_lets _ _ _ _ s1 s2 _ _
  have h1 : Canonical s1 := h.plainWrite
  have h2 : Canonical s2 := .each h1 fun _ _ h => h.setSrx
  exact .ite (.ite h.reject (.ite (.each h2 fun _ _ h => h.setStx) h1)) (.ite (.ite h.rxCtrl (.ite h h.ranged))
    (.ite (.ite h.txCtrl (.ite h h.ranged)) h.plainWrite))

theorem writeDng {q : Req} {r : Reg} {o : Nat} {d : Word} (h : Canonical s) : Canonical (s.writeDng q r o d) :=
  .ite (.ite h.reject (.ite h.plainWrite h.plainWrite.dngEnable)) h.plainWrite

theorem writeAni {q : Req} {r : Reg} {o : Nat} {d : Word} (h : Canonical s) : Canonical (s.writeAni q r o d) :=
  .ite h.aniCtrl (.ite h.aniCmd h.plainWrite)

theorem writeMxm {q : Req} {r : Reg} {o : Nat} {d : Word} (h : Canonical s) : Canonical (s.writeMxm q r o d) := by
  unfold State.writeMxm
  extract_lets
  exact .ite h.flipWrite (.ite h.ranged (.ite (.ite h.morphCtrl (.ite h.plainWrite h.ranged)) h.plainWrite))

theorem writePrt {q : Req} {r : Reg} {o : Nat} {d : Word} (h : Canonical s) : Canonical (s.writePrt q r o d) :=
  .ite h.ranged h.plainWrite

theorem writeHif {q : Req} {r : Reg} {o : Nat} {d : Word} (h : Canonical s) : Canonical (s.writeHif q r o d) :=
  .ite h.rearm (.ite h.dmaCtrl h.plainWrite)

theorem writeHse {q : Req} {r : Reg} {o : Nat} {d : Word} (h : Canonical s) : Canonical (s.writeHse q r o d) := by
  unfold State.writeHse
  extract_lets
  exact .ite h.plainWrite (.ite h (.ite h.ranged (.ite (.ite h.mbGo h) (.ite h.ranged
    (.ite h.ranged h.plainWrite)))))

theorem writeCdma {q : Req} {r : Reg} {o : Nat} {d : Word} (h : Canonical s) : Canonical (s.writeCdma q r o d) :=
  .ite h.dmaCtrl h.plainWrite

theorem writeTst {q : Req} {r : Reg} {o : Nat} {d : Word} (h : Canonical s) : Canonical (s.writeTst q r o d) :=
  .ite h.ranged h.plainWrite

theorem writeSlt {q : Req} {r : Reg} {e sl k : Nat} {d : Word} (h : Canonical s) :
    Canonical (s.writeSlt q r e sl k d) := h.ranged

theorem writeEng {q : Req} {r : Reg} {e o : Nat} {d : Word} (h : Canonical s) : Canonical (s.writeEng q r e o d) :=
  .ite h.ranged (.ite h.ranged (.ite h.ranged (.ite h.sltCommit (.ite h.writeSlt h.plainWrite))))

theorem writeReg {q : Req} {a : Nat} {d : Word} (h : Canonical s) : Canonical (s.writeReg q a d) := by
  unfold State.writeReg
  extract_lets
  split
  · exact h
  · refine .ite h.writeEng ?_
    split
    · exact h.writeSys
    · exact h.writePwr
    · exact h.writeBmx
    · exact h.writeClv
    · exact h.writeSaf
    · exact h.writeStc
    · exact h.writeSap
    · exact h.writeAes
    · exact h.writeSrc
    · exact h.writeMac
    · exact h.writeMac
    · exact h.writeStrm
    · exact h.writeDng
    · exact h.writeAni
    · exact h.writeMxm
    · exact h.writePrt
    · exact h.writeHif
    · exact h.writeHse
    · exact h.writeCdma
    · exact h.writeTst
    · exact h.plainWrite

theorem busWriteReg {q : Req} {a : Nat} {d : Word} (h : Canonical s) : Canonical (s.busWriteReg q a d) :=
  .ite (.ite h.respond h.respond.writeReg) (h.gated fun _ h => h.writeReg)

theorem registerWrite {q : Req} {a : Nat} {d : Word} {be : BitVec 4} (h : Canonical s) :
    Canonical (s.registerWrite q a d be) := .ite h.respond h.busWriteReg

/-! Register reads (R7, R8, R403). -/

theorem readClears {r : Reg} (h : Canonical s) : Canonical (s.readClears r) := by
  unfold State.readClears
  extract_lets _ s1 _ _ _ _
  have h1 : Canonical s1 := .ite h h.upd
  exact .ite h1.withFrame (.ite h1.withPwr (.ite h1.setSrx h1))

theorem readReg {q : Req} {a : Nat} (h : Canonical s) : Canonical (s.readReg q a).2 := by
  unfold State.readReg
  extract_lets s1
  have h1 : Canonical s1 := .ite h.cloveHost (.ite (.each h fun _ _ h => h.lineRun) h)
  split
  · exact h
  · exact .ite_snd h1.freeWord h1.readClears

theorem readClear {q : Req} {a : Nat} (h : Canonical s) : Canonical (s.readClear q a) :=
  .ite h.respond h.readReg.respond

/-! Beats of register space, and the host's requests (R193, R195, R348). -/

theorem regsBeat {x : BusTxn} {a : Nat} {b : Beat} (h : Canonical s) : Canonical (s.regsBeat x a b) := by
  unfold State.regsBeat
  split
  · exact h.errBeat
  · exact .ite h.errBeat (.ite h.busWriteReg.beatDone h.readReg.beatDone)

theorem engRegsBeat {x : BusTxn} {a : Nat} {b : Beat} (h : Canonical s) : Canonical (s.engRegsBeat x a b) := by
  unfold State.engRegsBeat
  extract_lets ks r
  have hr : Canonical r.2 := .foldl_snd h fun _ _ h => h.readReg
  refine .ite h.errBeat (.ite (Canonical.beatDone (.each h fun _ _ h => h.busWriteReg)) hr.beatDone)

theorem beatServe {x : BusTxn} (h : Canonical s) : Canonical (s.beatServe x) := by
  unfold State.beatServe
  split
  · exact h
  · exact .ite h (.ite (.ite h.beatDone (.ite h.regsBeat h.engRegsBeat)) h.memBeat)

theorem serve {t : Nat} (h : Canonical s) : Canonical (s.serve t) := by
  unfold State.serve
  refine .ite h.defaultBeat ?_
  split
  · exact h.beatServe
  · exact h

theorem hostReq {fn a : Nat} {write : Bool} {d : List (Byte × Bool)} (h : Canonical s) :
    Canonical (s.hostReq fn write a d) := .ite h (h.keep (by rfl)).portGo

theorem msixPut {fn : Nat} {m : Msix} (h : Canonical s) : Canonical (s.msixPut fn m) := h.withHif

theorem msixWrite {fn off : Nat} {d : Word} (h : Canonical s) : Canonical (s.msixWrite fn off d) :=
  .ite (.ite (.ite h.withHif h.msixPut) h.withHif) h

theorem cfgWrite {fn : Nat} {i : CfgItem} {d : Word} (h : Canonical s) : Canonical (s.cfgWrite fn i d) := by
  unfold State.cfgWrite
  extract_lets
  split
  · exact h
  · exact h
  · exact h
  · exact h.msixPut
  · exact .ite h.withHif h
  · exact .ite h.withHif h

theorem hostWord {fn : Nat} {w : Word} (h : Canonical s) : Canonical (s.hostWord fn w) := (h.keep (by rfl)).reqFlush

theorem tlpNow {t : Tlp} (h : Canonical s) : Canonical (s.tlpNow t) := by
  unfold State.tlpNow
  split
  · exact h.hostReq
  · exact h.hostReq
  · exact h.msixWrite
  · exact h.hostWord
  · exact h.hostWord
  · exact h.cfgWrite

theorem tlp {t : Tlp} (h : Canonical s) : Canonical (s.tlp t) :=
  .ite ((Canonical.ite h.wakeEvent h).withHif) ((Canonical.ite h.wakeEvent h).tlpNow)

theorem tlpLate (h : Canonical s) : Canonical s.tlpLate := .each h.withHif fun _ _ h => h.tlpNow

theorem wakeUp (h : Canonical s) : Canonical s.wakeUp := .ite h.pwrExit h.pwrExit.tlpLate

/-! DMA transactions (R362 to R364). -/

theorem dmaSend {u c a : Nat} {write : Bool} {bytes : List Byte} {k : DmaStep} (h : Canonical s) :
    Canonical (s.dmaSend u c write a bytes k) := h.setDmaCh.acceptTxn

theorem dmaBack {u c status err : Nat} (h : Canonical s) : Canonical (s.dmaBack u c status err) := h.dmaSend

theorem dmaMove {u c : Nat} {d : Desc} {host : List Byte} (h : Canonical s) : Canonical (s.dmaMove u c d host) :=
  .ite h.dmaSend (.ite h.dmaSend (.ite h.withHif.dmaBack h.withHif.setDmaCh.dmaSend))

theorem dmaTxn {u c : Nat} {host : List Byte} (h : Canonical s) : Canonical (s.dmaTxn u c host) := by
  unfold State.dmaTxn
  extract_lets
  split
  · exact h.dmaBack
  · exact .ite (.ite h.dmaBack h.dmaBack) (.ite h.dmaSend (.ite h.dmaBack h.dmaMove))

theorem dmaIssue {u : Nat} {host : List Byte} (h : Canonical s) : Canonical (s.dmaIssue u host) := by
  unfold State.dmaIssue
  split
  · exact h
  · exact .ite h.dmaTxn.withDma h

/-! Anise's work at a tick (R332 to R345). -/

theorem epochClose {k : Nat} (h : Canonical s) : Canonical (s.epochClose k) := h.withAni.aniOut

theorem applyBeat {guest : Bool} {a : Nat} {strb : BitVec 32} {data : BitVec 256} (h : Canonical s) :
    Canonical (s.applyBeat guest a strb data) := .ite (.ite h
      (.each h fun _ _ h => .ite h.writeReg h)) h.memBeatWrite

theorem applyChunk {a : Nat} {d : List Byte} (h : Canonical s) : Canonical (s.applyChunk a d) := by
  unfold State.applyChunk
  extract_lets hit m
  have hm : Memory.wf m = true := Memory.wf_foldPut _ _ _ h
  refine .ite (.each h fun s x h => ?_) (.ite (.each h fun _ _ h => h.writeSink) ?_)
  · split
    · exact h.upd
    · exact h
  · clear_value hit
    split
    · exact (Canonical.ofMem (by rfl) hm).fenceLog.busErr
    · exact .ofMem (by rfl) hm

theorem seqCopied (h : Canonical s) : Canonical s.seqCopied := h.wr.withClove

theorem applyUnit {d : List Byte} (h : Canonical s) : Canonical (s.applyUnit d) := by
  unfold State.applyUnit
  extract_lets _ s1 s2 s3 s4 s5 s6 s7
  have h1 : Canonical s1 := .each h fun _ _ h => .ite h h.withRouter
  have h2 : Canonical s2 := .each h1 fun _ _ h => .ite h h.withClove
  have h3 : Canonical s3 := h2.wr.seqCopied
  have h4 : Canonical s4 := .each h3 fun _ _ h => .ite h h.setBus.showBus
  have h5 : Canonical s5 := .each h4 fun _ _ h => h.sltCommit
  have h6 : Canonical s6 := .each h5 fun _ _ h => h.sapCommit
  have h7 : Canonical s7 := (Canonical.each h6 fun _ _ h => h.aesTxCommitW).srcCommitW
  exact h7.updAni

theorem applyItem {x : AniItem} (h : Canonical s) : Canonical (s.applyItem x) := by
  unfold State.applyItem
  split
  · exact h.applyBeat
  · exact (Canonical.ite h.wr h).acceptAs
  · exact h.applyChunk
  · exact h.updAni
  · exact h.applyUnit
  · exact h
  · exact h

theorem epochApply {e : Epoch} (h : Canonical s) : Canonical (s.epochApply e) :=
  (Canonical.each h fun _ _ h => h.applyItem).withRsp.wr.wr

theorem hashCompare {k : Nat} {peer : Word} (h : Canonical s) : Canonical (s.hashCompare k peer) := by
  unfold State.hashCompare
  split
  · exact h
  · exact .ite h.wr.wr.updAni h.wr.wr.count.updAni

theorem standbyStep {k : Nat} (h : Canonical s) : Canonical (s.standbyStep k) := by
  unfold State.standbyStep
  extract_lets _ _ _ _ s1 s2 _
  have h1 : Canonical s1 := h.aniOut
  have h2 : Canonical s2 := h1.count.updAni
  refine .ite h1 ?_
  split
  · exact h1.epochApply.wr.hashCompare.updAni
  · exact .ite (.ite h2.withHouse h2) h1

theorem epochsDue {k : Nat} (h : Canonical s) : Canonical (s.epochsDue k) :=
  (Canonical.each h fun _ _ h => h.epochApply).updAni

theorem heldStep {k : Nat} (h : Canonical s) : Canonical (s.heldStep k) := (Canonical.ite h h.updAni).epochsDue

theorem activeStep {k : Nat} (h : Canonical s) : Canonical (s.activeStep k) := h.epochClose.epochsDue

theorem setRole {r : Nat} (h : Canonical s) : Canonical (s.setRole r) := h.wrF

theorem roleStep {k : Nat} (h : Canonical s) : Canonical (s.roleStep k) := by
  unfold State.roleStep
  extract_lets _ s1
  have h1 : Canonical s1 := .ite h.roleClear.setRole.setAniState.raise (.ite h.roleClear.setRole.setAniState.wrF
    (.ite (.ite h.roleClear.setRole.setAniState.raise h.updAni) h))
  exact h1.updAni

theorem takeOver (h : Canonical s) : Canonical s.takeOver :=
  .ite h.wrF.wr.wr.wr.count.updAni.withHouse h.wrF.wr.wr.wr.count.updAni

theorem standbyTable (h : Canonical s) : Canonical s.standbyTable := by
  unfold State.standbyTable
  extract_lets _ _ _ _ s1 _ s2 _
  have h1 : Canonical s1 := .ite h.setAniState (.ite h.setAniState (.ite h.setAniState.raise
    (.ite h.setAniState.raise (.ite h.setAniState (.ite h.setAniState.raise (.ite h.setAniState.raise
      (.ite h.setAniState h)))))))
  have h2 : Canonical s2 := h1.updAni
  exact .ite h2.takeOver h2

theorem stateTable (h : Canonical s) : Canonical s.stateTable :=
  .ite (.ite h h.setAniState) (.ite (.ite h.setAniState (.ite h.setAniState.raise.copyEnd h))
    (.ite h.standbyTable h))

theorem mirrorSource {id : Nat} (h : Canonical s) : Canonical (s.mirrorSource id) :=
  .ite h.aniSend.produce (((Canonical.ite h.count h).updAni).produce)

theorem mirrorInputs (h : Canonical s) : Canonical s.mirrorInputs :=
  (Canonical.ite ((Canonical.each h fun _ _ h => h.mirrorSource).updAni) h).updAni

theorem aniFence {write : Bool} {a n : Nat} (h : Canonical s) : Canonical (s.aniFence write a n) := by
  unfold State.aniFence
  split
  · exact h.fenceLog.busErr
  · exact h

theorem copySlices {k : Nat} (h : Canonical s) : Canonical (s.copySlices k) := by
  unfold State.copySlices
  extract_lets _ s1 _
  have h1 : Canonical s1 := .ite h.updAni h
  refine .ite h1 ?_
  split
  · exact h1.aniFence.aniSend.updAni
  · exact h1

theorem copyUnit {k : Nat} (h : Canonical s) : Canonical (s.copyUnit k) :=
  .ite (.ite h.aniSend.wrF.wr.updAni.copyEnd h.aniSend.wrF.wr.updAni) h

theorem copyStep {k : Nat} (h : Canonical s) : Canonical (s.copyStep k) := by
  unfold State.copyStep
  refine .ite h (.ite h.copyEnd ?_)
  split
  · split
    · exact (Canonical.ite h h.aniFence).aniSend.updAni
    · exact h.wrF
  · exact h
  · exact .ite h h.copySlices

theorem aniTick {ended : Option Nat} (h : Canonical s) : Canonical (s.aniTick ended) := by
  unfold State.aniTick
  extract_lets s1 s2 s3 s4 s5
  have h1 : Canonical s1 := by
    unfold s1
    split
    · exact .ite h.copyUnit.activeStep.roleStep (.ite h.standbyStep.roleStep (.ite h.heldStep h))
    · exact h
  have h2 : Canonical s2 := h1.updAni
  have h3 : Canonical s3 := .ite h2.updAni h2
  have h4 : Canonical s4 := .ite h3.updAni.pathLoss.pathLoss h3
  have h5 : Canonical s5 := h4.stateTable
  split
  · exact .ite h5.copyStep h5
  · exact h5

theorem deltaIn {kind : BitVec 4} {body : List Byte} (h : Canonical s) : Canonical (s.deltaIn kind body) := by
  unfold State.deltaIn
  extract_lets _ s1
  have h1 : Canonical s1 := h.updAni
  split
  · exact h1.updAni
  · exact h1.updAni
  · exact h1.updAni
  · exact h1

theorem commitIn {k bytes : Nat} {ws : List Word} {items : List AniItem} (h : Canonical s) :
    Canonical (s.commitIn k ws items bytes) := .ite (.ite h.updAni.aniOut.updAni h.updAni) h.updAni

theorem statusIn {kind k was : Nat} {ws : List Word} (h : Canonical s) : Canonical (s.statusIn kind k was ws) :=
  .ite ((Canonical.ite h.updAni h.hashCompare).copyEnd) (.ite h.updAni h.hashCompare)

theorem fixedIn {ws : List Word} (h : Canonical s) : Canonical (s.fixedIn ws) := by
  unfold State.fixedIn
  extract_lets _ _ s1 _ _ s2 s3 _
  have h1 : Canonical s1 := h.updAni
  have h2 : Canonical s2 := h1.updAni.showPaths
  have h3 : Canonical s3 := h2.wrF.peerWatch
  exact .ite (.ite h3.commitIn (.ite h3.statusIn h3)) (.ite h1.updAni h1)

theorem recordIn {r : AniRecord} (h : Canonical s) : Canonical (s.recordIn r) := by
  unfold State.recordIn
  refine .ite h ?_
  split
  · exact h.fixedIn
  · exact .ite h.deltaIn h

theorem sliceLoad (h : Canonical s) : Canonical s.sliceLoad := by
  unfold State.sliceLoad
  refine .ite ?_ ?_
  · split
    · exact h
    · exact .ite h.updAni ((Canonical.ofMem (by rfl) (Memory.wf_foldPut _ _ _ h.updAni)).updAni)
  · split
    · exact .ite (.ite h.updAni.wr.copyEnd h.updAni.wr) h
    · exact h

/-! The block tick and the window closes (R26 to R43). -/

theorem setWin {w : Window} (h : Canonical s) : Canonical (s.setWin w) := h.wrB.withFrame

theorem haltAll (h : Canonical s) : Canonical s.haltAll := .each h fun _ _ h => h.haltSlice

theorem stripClose (h : Canonical s) : Canonical s.stripClose := by
  unfold State.stripClose
  extract_lets s1 s2 _ s3
  have h1 : Canonical s1 := h.advanceTo
  have h2 : Canonical s2 := .each h1 fun _ _ h => h.closePhase.producePhase
  have h3 : Canonical s3 := h2.withMtx
  exact .ite h3.setWin.mxmHold h

theorem fillsOf {phase : Nat} (h : Canonical s) : Canonical (s.fillsOf phase) :=
  .each h fun _ _ h => .ite h.queueFills h

theorem sumClose (h : Canonical s) : Canonical s.sumClose := by
  unfold State.sumClose
  extract_lets s1 s2 s3 s4 s5 s6
  have h1 : Canonical s1 := h.stripClose
  have h2 : Canonical s2 := h1.cascDeadline
  have h3 : Canonical s3 := h2.advanceTo.haltAll
  have h4 : Canonical s4 := h3.produceBuses
  have h5 : Canonical s5 := .each h4 fun _ _ h => h.rollBus
  have h6 : Canonical s6 := h5.takeTaps.fillsOf.setWin
  exact .ite h6.mxmRelease h1

theorem keepHash (h : Canonical s) : Canonical s.keepHash := .ite h.updAni h.updAni.wr

theorem sapMask {n : Nat} (h : Canonical s) : Canonical (s.sapMask n) := .ite h.updSap h

theorem busEnd (h : Canonical s) : Canonical s.busEnd := by
  unfold State.busEnd
  extract_lets s1 _ s2 s3
  have h1 : Canonical s1 := .each h fun _ _ h => h.closePhase.producePhase
  have h2 : Canonical s2 := h1.withRouter.keepHash
  have h3 : Canonical s3 := .each h2 fun _ _ h => h.sapTransmit.sapMask
  exact h3.strmSend.dngAudioOut.setWin

theorem busClose (h : Canonical s) : Canonical s.busClose := .ite h.sumClose.advanceTo.busEnd h.sumClose

theorem tickClose (h : Canonical s) : Canonical s.tickClose := by
  unfold State.tickClose
  extract_lets _ s1 s2 s3
  have h1 : Canonical s1 := .ite h.sumClose h
  have h2 : Canonical s2 := .ite h1.busClose h1
  have h3 : Canonical s3 := h2.advanceTo
  exact .ite h3.busEnd.raise.countF h3

theorem devStep (h : Canonical s) : Canonical s.devStep := .ite h.wrF.wrF.withFrame h.wrF

theorem overrun {e phase : Nat} {x : Option (Nat × Nat)} (h : Canonical s) : Canonical (s.overrun e phase x) := by
  unfold State.overrun
  split
  · exact h
  · exact h.countF.report

theorem finaliseEngine {e : Nat} (h : Canonical s) : Canonical (s.finaliseEngine e) :=
  h.producePhase.unrunPhase.clearMeas.overrun.overrun.setEng.wr

theorem finalise {k : Nat} (h : Canonical s) : Canonical (s.finalise k) :=
  (Canonical.each h.haltAll.devStep fun _ _ h => h.finaliseEngine).rollSinks.rollLanes.migCheck

theorem clearBlk (h : Canonical s) : Canonical s.clearBlk := .each h fun _ _ h => h.updEng

theorem blockCount {edge : Nat} (h : Canonical s) : Canonical (s.blockCount edge) := by
  unfold State.blockCount
  extract_lets n t s1
  have h1 : Canonical s1 := h.wr.wr.wr
  exact h1.keep (by rfl)

theorem trimCaptures (h : Canonical s) : Canonical s.trimCaptures :=
  (Canonical.each (.each h fun _ _ h => h.updSap) fun _ _ h => h.setAesR).updAni

theorem takeSources {edge : Nat} (h : Canonical s) : Canonical (s.takeSources edge) :=
  h.sapsReceive.aesReceiveAll.strmTake.dngDeliver

theorem hushCaptures (h : Canonical s) : Canonical s.hushCaptures := h.hush.hush

theorem moveEdge (h : Canonical s) : Canonical s.moveEdge := h.withFrame

theorem tickSources {edge age : Nat} (h : Canonical s) : Canonical (s.tickSources edge age) := by
  unfold State.tickSources
  split
  · exact h.trimCaptures.hushCaptures.moveEdge
  · exact h.takeSources.hushCaptures.mirrorInputs.hushCaptures.moveEdge
  · exact h.takeSources.mirrorInputs.moveEdge

theorem keepFades {old : State} (h : Canonical s) : Canonical (s.keepFades old) := by
  unfold State.keepFades
  extract_lets s1 s2 s3 s4
  have h1 : Canonical s1 := .each h fun _ _ h => h.updSap
  have h2 : Canonical s2 := .each h1 fun _ _ h => h.setAesR
  have h3 : Canonical s3 := .each h2 fun _ _ h => h.setSrcCh
  have h4 : Canonical s4 := .each h3 fun _ _ h => h.setSrx
  exact .each h4 fun _ _ h => h.setLink

theorem playStep (h : Canonical s) : Canonical s.playStep := h.withRouter

theorem splitApply (h : Canonical s) : Canonical s.splitApply := .ite h.wrB.withFrame.setWindows.raise h

theorem stopApply (h : Canonical s) : Canonical s.stopApply := (h.keep (by rfl)).bgWaits

theorem engineStep {e : Nat} (h : Canonical s) : Canonical (s.engineStep e) := h.updEng

theorem openEngine {e : Nat} (h : Canonical s) : Canonical (s.openEngine e) := h.updEng

theorem tableStep (h : Canonical s) : Canonical s.tableStep := by
  unfold State.tableStep
  extract_lets s1 s2
  have h1 : Canonical s1 := h.migNewBlock.migStep6
  have h2 : Canonical s2 := .each h1 fun _ _ h => h.engineStep.commitEngine
  exact .each h2 fun _ _ h => h.openEngine

theorem stripOpen (h : Canonical s) : Canonical s.stripOpen := h.takeTaps.takeTaps.fillsOf.fillsOf.setWin

theorem openBlock {tick edge pest : Nat} (h : Canonical s) : Canonical (s.openBlock tick edge pest) := by
  unfold State.openBlock
  extract_lets s1 s2 s3 s4
  have h1 : Canonical s1 := h.tableStep
  have h2 : Canonical s2 := h1.routerStep.migStep7
  have h3 : Canonical s3 := h2.sapsApply.aesApply.sapsPlay.aesPlay
  have h4 : Canonical s4 := h3.matrixStep.dngTick.dngBitmaps.dngCascOut
  exact h4.budgetStep.stripOpen

theorem frameStopped (h : Canonical s) : Canonical s.frameStopped := by
  unfold State.frameStopped
  extract_lets _ s1 _ _ s2 s3 s4
  have h1 : Canonical s1 := h.wrB.raise
  have h2 : Canonical s2 := h1.keep (by rfl)
  have h3 : Canonical s3 := .each h2 fun _ _ h => h.sapMask.updSap
  have h4 : Canonical s4 := h3.aesStopped.migFrameStop.dngStop
  exact .ite h4.frameStart h4

theorem blockTick {pest : Nat} (h : Canonical s) : Canonical (s.blockTick pest) := by
  unfold State.blockTick
  extract_lets _ _ s1 _ s2 s3 s4 s5
  have h1 : Canonical s1 := h.tickClose
  have h2 : Canonical s2 := .ite h1.finalise.aniTick.clearBlk h1.aniTick
  have h3 : Canonical s3 := h2.blockCount
  have h4 : Canonical s4 := h3.tickSources.keepFades.playStep
  have h5 : Canonical s5 := h3.tickSources.playStep.splitApply
  exact .ite h (.ite h.advanceTo.frameStopped (.ite h4.sapsPlay.aesPlay.dngTick.splitApply.stopApply h5.openBlock))

/-! One engine cycle with no command (R45, R53). -/

theorem fetchIssue {e : Nat} (h : Canonical s) : Canonical (s.fetchIssue e) := .ite h.issue h

theorem cycle (h : Canonical s) : Canonical s.cycle := (Canonical.each h fun _ _ h => h.fetchIssue).advance

/-! The Prehotrix instructions. -/

theorem run {e : Fin 32} {b : Bundle} (h : Canonical s) : CanonicalOut (s.run e b) := .done h.issue

/-! The commands, and the step. -/

/-- Every command keeps the canonical form: each is a choice among the operations above. -/
theorem exec (c : Instr) (h : Canonical s) : CanonicalOut (Machine.exec c s) := by
  cases c with
  | registerWrite => exact .done h.registerWrite
  | readClear => exact .done h.readClear
  | frameRun | frameStop | frameFormatChange => exact .done (h.gated fun _ h => h.frmCtrlWrite)
  | splitWrite => exact .done (h.gated fun _ h => h.splitWrite)
  | blockTick => exact .done h.blockTick
  | stripWindowClose => exact .done h.stripClose
  | matrixBusComplete => exact .done h.busComplete
  | cascadeDeadline => exact .done h.cascDeadline
  | sumWindowClose => exact .done h.sumClose
  | busWindowClose => exact .done h.busClose
  | sliceStart => exact .done h.sliceStart
  | routerTapTransfer => exact .done h.tapTransfer
  | externalDmemAccess => exact .done h.externalAccess
  | eventTake => exact .done h.eventTake
  | handlerTimeout => exact .done h.handlerTimeout
  | pipelineResultLand => exact .done h.resultLand
  | nop | mac | msb | mpy | mpyn | macl | msbl | clr | lda | ext | norm | add | sub | min | max | sel | cmp
  | and | or | xor | shl | asr | scale | expt | abs | neg | mov | addi | cmpi | shli | asri | lsri | bcst
  | movi | ldpq | setn | setl | addp | mtp | mtn | mtl | ei | di | gadv | gset | clrf | pwait | bra | bc | djn
  | rpt | rptw | jmp | setp | setnw | setlw | endSlice | rte | pget | pput => exact h.run
  | ldq _ sl | ldw _ sl | stq _ sl | stw _ sl | ldr _ sl | ldl _ sl | str _ sl | stl _ sl => cases sl <;> exact h.run
  | farBeatServe => exact .done h.farBeat
  | farRequestComplete => exact .done h.farComplete
  | sliceTableCommit => exact .done (h.gated fun _ h => h.sltCommit)
  | migrationStart | migrationAbort => exact .done (h.gated fun _ h => h.migCtrl)
  | migrationLoad => exact .done h.migLoad
  | migrationCompare => exact .done h.migCompare
  | busFlip => exact .done (h.gated fun _ h => h.flipWrite)
  | morphArm | morphAbort => exact .done (h.gated fun _ h => h.morphCtrl)
  | bmxTransactionAccept => exact .done h.acceptBurst
  | bmxArbitrationGrant => exact .done h.grant
  | bmxBeatServe => exact .done h.serve
  | bmxTransactionComplete => exact .done h.completeAt
  | lockTimeout => exact .done h.lockTimeout
  | masterReset => exact .done h.masterReset
  | bmxSliceApply => exact .done h.sliceApply
  | bmxWindowAttrWrite => exact .done (h.gated fun _ h => h.windowWrite)
  | eventPost => exact .ite (.done (.ite h.respond h.respond.eventPost)) (.done (h.gated fun _ h => h))
  | outboxPost => exact .done h.outboxPost
  | eventDeliver => exact h.execEventDeliver
  | timedEventDue => exact .done h.timedDue
  | hostPop => exact .done (h.gated fun _ h => h.hostPop)
  | slotMaskCommit => exact .done (h.gated fun _ h => h.sapCommit)
  | groupStart | groupStop => exact .done (h.gated fun _ h => h.sapGrpWrite)
  | sapFrame => exact .done h.sapFrame
  | sapClockLoss => exact .done h.sapLoss
  | sapRingWrite => exact .done h.sapRingWrite
  | sapRingFetch => exact .done h.sapRingFetch
  | aes3Frame => exact .done h.aesFrame
  | aes3LockLoss => exact .done h.aesLoss
  | aesTxCommit => exact .done (h.gated fun _ h => h.aesTxCommitW)
  | aesTxBlockStart => exact .done h.aesTxZ
  | srcCommit => exact .done (h.gated fun _ h => h.srcCommitW)
  | srcLock => exact .done h.srcLockNow
  | macFrameReceive => exact .done h.macReceive
  | macTxSelect => exact .done h.macSelect
  | macTxComplete => exact .done h.macComplete
  | segAbort => exact .done (h.gated fun _ h => h.segAbort)
  | timestampPop => exact .done (h.gated fun _ h => h.stampPop)
  | gateListCommit => exact .done (h.gated fun _ h => h.gclCommit)
  | gateListActivate => exact .done h.gclActivate
  | gateIntervalEnd => exact .done h.gateIvlEnd
  | pauseExpire => exact .done h.pauseExpire
  | pauseWatchdog => exact .done h.pauseDog
  | linkBlockLockTimer => exact .done h.linkLock
  | linkLoss => exact .done h.linkLoss
  | remoteFaultReceive => exact .done h.remoteFault
  | remoteFaultClear => exact .done h.remoteClear
  | streamPathDown => exact .done h.pathDown
  | ptpOffsetReport => exact .done h.ptpReportIn
  | ptpAnnounceTimeout => exact .done h.ptpAnnounceLost
  | stcSteerUpdate => exact .done h.steerUpdate
  | saffronWindowEnd => exact .done h.windowEnd
  | referenceLos => exact .done h.losOf
  | stcSet => exact .done (h.gated fun _ h => h.stcApply)
  | stcSnap => exact .done (h.gated fun _ h => h.stcSnapNow)
  | timedStartArm | timedStartCancel => exact .done (h.gated fun _ h => h.startCtrl)
  | timedStart => exact .done h.timedStart
  | dongoFrameReceive => exact .done h.dngReceive
  | dongoRxTimeout | dongoLaneLockLoss => exact .done h.dngRetrain
  | dongoTrainTimeout => exact .done h.dngTrain
  | dongoAckTimer => exact .done h.dngAck
  | dongoTimeSend => exact .done h.dngTimeSend
  | dongoDelayMeasure => exact .done h.dngDelay
  | dongoEventForward => exact .done h.dngForward
  | heartbeatReceive => exact .done h.heartbeat
  | aniseRecordReceive => exact .done h.recordIn
  | anisePathLoss => exact .done h.pathLoss
  | aniseTake | aniseRelease | mirrorCopy | mirrorCopyAbort => exact .done (h.gated fun _ h => h.aniCmd)
  | mirrorSliceLoad => exact .done h.sliceLoad
  | pcieTlpReceive => exact .done h.tlp
  | functionLevelReset => exact .done h.flr
  | interruptRearm => exact .done (h.gated fun _ h => h.rearm)
  | mailboxGo => exact .done (h.gated fun _ h => h.mbGo)
  | mailboxAnswer => exact .done h.mbAnswer
  | mailboxTimeout => exact .done h.mbTimeout
  | getVersion => exact .done h.getVersion
  | getStats => exact .done h.getStats
  | ptpSet => exact .done h.ptpSet
  | ptpStop => exact .done h.ptpStop
  | ptpStatus => exact .done h.ptpStatus
  | discSet => exact .done h.discSet
  | discoveryAnnounce => exact .done h.discAnnounce
  | aniStats => exact .done h.aniStats
  | fwUpdate => exact .done h.fwUpdate
  | coreRestart => exact .done h.coreRestart
  | shedLevelRise => exact .done h.shedRise
  | shedLevelFall => exact .done h.shedFall
  | houseWatchdogReset => exact .done h.coreDog
  | dmaGo | dmaAbort => exact .done (.ite (h.gated fun _ h => h.dmaCtrl) h)
  | dmaTransactionIssue => exact .done h.dmaIssue
  | powerStateRequest | hostWake => exact .done (h.gated fun _ h => h.pwrReq)
  | powerStateEnter => exact .done h.pwrEnter
  | gpioWake => exact .done (.ite h.wakeEvent h)
  | aonTimerExpiry => exact .done (.ite h h.wakeEvent)
  | powerStateExit => exact .done h.wakeUp
  | temperatureSample => exact .done h.tempSample
  | hotCountPeriod => exact .done h.hotPeriod
  | powerOnReset => exact .done h.porReset
  | systemReset => exact .done (h.gated fun _ h => h.rstCtrl)
  | pcieFundamentalReset => exact .done h.perstReset
  | fuseLoadDone => exact .done h.fuseDone
  | selfTestDone => exact .done h.selfTested
  | bootHostGo => exact .done (h.gated fun _ h => h.hostGo)
  | bootFlashTimeout => exact .done h.flashTimeout
  | bootImageCheck => exact .done h.bootImage
  | bootReady => exact .done h.bootReadyNow
  | jtagInstruction => exact .done h.jtagLoad
  | illegalOp => exact .done h.issue
  | referenceInputEdge => exact .done h.refEdge
  | pcieLinkChange => exact .done h.pcieLink
  | houseCoreRunning => exact .done h.coreUp
  | ptpMessageSend => exact .done h.ptpSend

theorem step (h : Canonical s) : CanonicalOut (Machine.step s) := by
  unfold Machine.step
  split
  · exact exec _ h.withPending
  · exact .done h.cycle

end Canonical

end Sys2Proof.Machine

namespace Sys2Proof

open Machine

/-- Settles O57: each command keeps the canonical form of the memory, and a step is a command on the queue's rest or an
engine cycle. -/
theorem memoryStaysCanonical : Obligations.MemoryStaysCanonical := by
  refine ⟨fun s t c hs ht => ?_, fun s t hs ht => ?_⟩
  · exact Canonical.exec c (s := s) hs t ht
  · exact Canonical.step (s := s) hs t ht

end Sys2Proof

namespace Sys2Proof

open Sys2Proof.Machine

/-! Fields and bits of registers after writes. -/

theorem rdF_wrF_same (s : State) (r : Reg) {hi lo : Nat} (hle : lo ≤ hi) (hhi : hi < 32) (v : Nat) :
    (s.wrF r hi lo v).rdF r hi lo = v % 2 ^ (hi + 1 - lo) := by
  rw [State.rdF, State.rd_wrF_same, bits_setBits_same _ hle hhi]

theorem rdF_wrF_apart (s : State) (r : Reg) {hi lo h l : Nat} (hle : lo ≤ hi) (hhi : hi < 32) (hap : h < lo ∨ hi < l)
    (v : Nat) : (s.wrF r hi lo v).rdF r h l = s.rdF r h l := by
  rw [State.rdF, State.rd_wrF_same, bits_setBits_apart _ hle hhi hap]
  rfl

theorem rdF_wrB_other (s : State) {r q : Reg} (h : q.addr ≠ r.addr) (i : Nat) (b : Bool) (hi lo : Nat) :
    (s.wrB r i b).rdF q hi lo = s.rdF q hi lo := congrArg (bits · hi lo) (State.rd_wrB_other s i b h)

theorem rdB_wrF_apart (s : State) (r : Reg) {hi lo i : Nat} (hle : lo ≤ hi) (hhi : hi < 32) (h : i < lo ∨ hi < i) (v : Nat) :
    (s.wrF r hi lo v).rdB r i = s.rdB r i := by
  rw [State.rdB, State.rd_wrF_same, bit_setBits _ hle hhi, if_neg (by omega)]
  rfl

theorem rdB_wr_other (s : State) {r q : Reg} (h : q.addr ≠ r.addr) (v : Word) (i : Nat) :
    (s.wr r v).rdB q i = s.rdB q i := congrArg (bit · i) (State.rd_wr_other s v h)

/-! The states of the house cores and the half in force (R361, R382). -/

theorem coreState_setCore_same (s : State) {c : Nat} (hc : c < 7) {v : Nat} (hv : v < 4) :
    (s.setCore c v).coreState c = v := by
  rw [State.coreState, State.setCore, rdF_wrF_same _ _ (by omega) (by omega), show 4 * c + 1 + 1 - 4 * c = 2 by omega]
  exact Nat.mod_eq_of_lt hv

theorem coreState_setCore_other (s : State) {c d : Nat} (hc : c < 7) (h : d ≠ c) (v : Nat) :
    (s.setCore c v).coreState d = s.coreState d := rdF_wrF_apart s _ (by omega) (by omega) (by omega) v

theorem half_setCore (s : State) {c : Nat} (hc : c < 2) (v : Nat) : (s.setCore c v).half = s.half :=
  congrArg b2n (rdB_wrF_apart s _ (by omega) (by omega) (by omega) v)

theorem rd_withBoot (s : State) (b : Boot) (r : Reg) : ({ s with boot := b } : State).rd r = s.rd r := rfl

theorem coreState_settle (s : State) (c : Nat) : s.settle.coreState c = s.coreState c := rfl

theorem fenced_settle (s : State) (x : Nat) : s.settle.fenced x = s.fenced x := rfl

theorem half_settle (s : State) : s.settle.half = s.half := rfl

theorem rd_setCore_other (s : State) (c v : Nat) {r : Reg} (h : r.addr ≠ HSE_CORE_STAT.addr) :
    (s.setCore c v).rd r = s.rd r := State.rd_wrF_other s _ _ _ h

/-! The copy of bank A into the ramp state (R134). -/

/-- The copy of a range is the copy where no unit is fenced. -/
theorem copyRange_eq (m : List (Nat × Byte)) (src dst n : Nat) :
    copyRange m src dst n = ({ mem := m } : State).copied src dst n := by
  rw [copied_eq (s := { mem := m }) fun _ => rfl, copyRange, copyPuts, List.foldl_map]

theorem copyRange_outside (m : List (Nat × Byte)) (src : Nat) {dst n x : Nat} (h : x < dst ∨ dst + n ≤ x) :
    sget 0 (copyRange m src dst n) x = sget 0 m x := by
  rw [copyRange_eq]
  exact copied_outside (s := { mem := m }) (fun _ => rfl) src dst n h

theorem copyRange_inside {m : List (Nat × Byte)} (hm : Memory.wf m = true) (src dst : Nat) {n i : Nat} (h : i < n) :
    sget 0 (copyRange m src dst n) (dst + i) = sget 0 m (src + i) := by
  rw [copyRange_eq]
  exact copied_inside (s := { mem := m }) (fun _ => rfl) src dst n hm h

/-! What a reset of the blocks leaves (R184, R380, R386). -/

theorem rd_blocksReset (s : State) (hif : Bool) (pins : Nat) (r : Reg) :
    (s.blocksReset hif pins).rd r = if aonReg r.addr || (hif && hifReg r.addr) then s.rd r else r.reset :=
  sget_filter_key r.reset s.regs (fun a => aonReg a || (hif && hifReg a)) r.addr

theorem running_blocksReset (s : State) (hif : Bool) (pins : Nat) : (s.blocksReset hif pins).running = false := by
  have hno : (aonReg SYS_FRM_STAT.addr || (hif && hifReg SYS_FRM_STAT.addr)) = false := by cases hif <;> decide
  rw [State.running, State.rdB, rd_blocksReset, hno, if_neg Bool.false_ne_true]
  decide

/-- The frame is stopped after a reset, so the ramp state is loaded. -/
theorem loadRamp_blocksReset (s : State) (hif : Bool) (pins : Nat) : (s.blocksReset hif pins).loadRamp =
    { s.blocksReset hif pins with mem := copyRange s.mem 0x30000000 0x30200000 0x100000 } := by
  rw [State.loadRamp, running_blocksReset]
  rfl

/-- The registers after a reset with its cause (R386). -/
theorem rd_resetBlocks (s : State) (hif : Bool) (pins b : Nat) {r : Reg} (h : r.addr ≠ SYS_RST_CAUSE.addr) :
    ((s.blocksReset hif pins).loadRamp.resetCause b).rd r =
      if aonReg r.addr || (hif && hifReg r.addr) then s.rd r else r.reset := by
  rw [loadRamp_blocksReset, State.resetCause, State.rd_wrB_other _ _ _ h]
  exact rd_blocksReset s hif pins r

theorem rdB_resetCause (s : State) {b : Nat} (h : b < 32) : (s.resetCause b).rdB SYS_RST_CAUSE b = true :=
  rdB_wrB_same s _ h _

theorem onlyRegs_resetCause (s : State) (b : Nat) : OnlyRegs s (s.resetCause b) [SYS_RST_CAUSE] := OnlyRegs.wrB s _ b true

theorem sysReset_mem (s : State) (pins why : Nat) :
    (s.sysReset pins why).mem = copyRange s.mem 0x30000000 0x30200000 0x100000 := by
  rw [State.sysReset, loadRamp_blocksReset]
  rfl

theorem sysReset_boot (s : State) (pins why : Nat) :
    (s.sysReset pins why).boot = { (s.blocksReset true pins).boot with sys := why } := by
  rw [State.sysReset, loadRamp_blocksReset]
  rfl

/-- The counter, the repair units and the sensed supplies stay at a system reset (R184, R380, R390). -/
theorem sysReset_kept (s : State) (pins why : Nat) : (s.sysReset pins why).stc = s.stc ∧
    (s.sysReset pins why).rep = s.rep ∧ (s.sysReset pins why).io33 = s.io33 := by
  rw [State.sysReset, loadRamp_blocksReset]
  exact ⟨rfl, rfl, rfl⟩

theorem rd_sysReset (s : State) (pins why : Nat) {r : Reg} (h : r.addr ≠ SYS_RST_CAUSE.addr) :
    (s.sysReset pins why).rd r = if aonReg r.addr ∨ hifReg r.addr then s.rd r else r.reset := by
  refine (rd_resetBlocks s true pins 1 h).trans ?_
  simp only [Bool.true_and, Bool.or_eq_true]

theorem perstReset_eq {s : State} (h : s.held = false) (pins : Nat) :
    s.perstReset pins = (s.blocksReset false pins).loadRamp.resetCause 2 := by
  obtain ⟨htrip, hpor⟩ := Bool.or_eq_false_iff.1 h
  simp [State.perstReset, hpor, htrip]

theorem perstReset_mem {s : State} (h : s.held = false) (pins : Nat) :
    (s.perstReset pins).mem = copyRange s.mem 0x30000000 0x30200000 0x100000 := by
  rw [perstReset_eq h, loadRamp_blocksReset]
  rfl

/-- The counter and the sensed supplies stay at a fundamental reset, and the boot starts at the fuse load (R381). -/
theorem perstReset_kept {s : State} (h : s.held = false) (pins : Nat) : (s.perstReset pins).stc = s.stc ∧
    (s.perstReset pins).io33 = s.io33 ∧ (s.perstReset pins).boot.step = .fuses := by
  rw [perstReset_eq h, loadRamp_blocksReset]
  exact ⟨rfl, rfl, rfl⟩

/-! The power-on reset and the pins under it (R380, R389, R390, R392). -/

/-- What a power-on reset leaves, with the reset in force or over. -/
def afterPor (s : State) (p : PorPins) : State :=
  { pending := s.pending, now := s.now, free := s.free, rsp := s.rsp, nextReq := s.nextReq, mem := s.mem,
    saf := { winAt := s.now, usAt := s.now }, pwr := { por := !(p.porn && decide (740 < p.aon)) },
    boot := { pins := p.boot.toNat, step := if p.porn && decide (740 < p.aon) then .fuses else .stopped,
              locked := s.boot.locked },
    io33 := if p.porn then s.io33 else p.io33 }

theorem porReset_starts {s : State} {p : PorPins} (h : s.pwr.por = true ∨ p.porn = false ∨ p.aon < 700) :
    s.porReset p = afterPor s p := by
  have hc : (s.pwr.por || !p.porn || decide (p.aon < 700)) = true := by
    simpa [or_assoc] using h
  simp only [State.porReset, hc, if_true]
  rfl

theorem porReset_idle {s : State} {p : PorPins} (hpor : s.pwr.por = false) (hporn : p.porn = true) (haon : 700 ≤ p.aon) :
    s.porReset p = s := by
  simp [State.porReset, hpor, hporn, haon]

theorem rd_afterPor (s : State) (p : PorPins) (r : Reg) : (afterPor s p).rd r = r.reset := rfl

theorem running_afterPor (s : State) (p : PorPins) : (afterPor s p).running = false := by
  rw [State.running, State.rdB, rd_afterPor]
  decide

theorem deep_afterPor (s : State) (p : PorPins) : (afterPor s p).deep = false := by
  rw [State.deep, State.rdF, rd_afterPor]
  decide

/-- A pin at which no boundary cell drives does what the device does. -/
theorem pin_of_not_scanning {s : State} (h : s.scanning = false) (p : Pin) : s.pin p = s.devicePin p := by
  simp [State.pin, h]

/-- The pins while a power-on reset holds the device (R392). -/
theorem pins_held {t : State} (hscan : t.scanning = false) (hheld : t.held = true) (hdeep : t.deep = false)
    (htrip : t.pwr.trip = false) :
    (∀ n, t.pin (.aesTx n) = .low ∧ ∀ m, t.pin (.mclk m) = .low) ∧ t.pin .wclkOut = .low ∧ t.pin .hbTx = .low ∧
      t.pin .faultN = .hiz ∧ ∀ n, t.pin (.sapSdo n) = .hiz ∧ t.pin (.sapBclk n) = .input ∧ t.pin (.sapWs n) = .input := by
  simp [pin_of_not_scanning hscan, State.devicePin, State.aesPin, State.clkPin, State.clockPin, State.faultLow, pinLevel,
    hheld, hdeep, htrip]

theorem gives_powerOnReset (s : State) (pins : PorPins) : Gives (.powerOnReset pins) s fun u =>
    (s.pwr.por = false → pins.porn = true → 700 ≤ pins.aon → OnlyRegs s u []) ∧
    (s.pwr.por = true ∨ pins.porn = false ∨ pins.aon < 700 →
      (∀ r : Reg, u.rd r = r.reset) ∧ u.stc = 0 ∧ u.rep = [] ∧ u.boot.test = true ∧ u.boot.pins = pins.boot.toNat ∧
      u.running = false ∧ u.mem = s.mem ∧ (u.pwr.por = false ↔ pins.porn = true ∧ 740 < pins.aon) ∧
      u.boot.step = (if pins.porn = true ∧ 740 < pins.aon then .fuses else .stopped) ∧
      u.io33 = (if pins.porn then s.io33 else pins.io33) ∧
      (u.pwr.por = true → (∀ n, u.pin (.aesTx n) = .low ∧ ∀ m, u.pin (.mclk m) = .low) ∧ u.pin .wclkOut = .low ∧
        u.pin .hbTx = .low ∧ u.pin .faultN = .hiz ∧ ∀ n, u.pin (.sapSdo n) = .hiz ∧ u.pin (.sapBclk n) = .input ∧
          u.pin (.sapWs n) = .input)) := by
  refine (gives_iff_of_done (t := s.porReset pins) rfl).2 ⟨fun hpor hporn haon => ?_, fun hstart => ?_⟩
  · rw [porReset_idle hpor hporn haon]
    exact .settle s
  · rw [porReset_starts hstart]
    refine ⟨rd_afterPor s pins, rfl, rfl, rfl, rfl, running_afterPor s pins, rfl, ?_, ?_, rfl, fun hpor => ?_⟩
    · simp [afterPor]
    · simp [afterPor]
    · exact pins_held rfl hpor (deep_afterPor s pins) rfl

/-! A system reset and a fundamental reset (R380, R385). -/

theorem gives_systemReset (s : State) (q : Req) (key : BitVec 16) (pins : BitVec 2) (h : Reaches s q SYS_RST_CTRL) :
    Gives (.systemReset q key pins) s fun u =>
      (key.toNat ≠ 0xA5C3 → Rejected s u q (BitVec.ofNat 32 SYS_RST_CTRL.addr)
        (BitVec.ofNat 32 (key.toNat * 2 ^ 16 + 1))) ∧
      (key.toNat = 0xA5C3 → (∀ r : Reg, r.addr ≠ SYS_RST_CAUSE.addr →
          u.rd r = (if aonReg r.addr ∨ hifReg r.addr then s.rd r else r.reset)) ∧
        u.rdB SYS_RST_CAUSE 1 = true ∧ u.stc = s.stc ∧ u.rep = s.rep ∧ u.io33 = s.io33 ∧ u.boot.step = .fuses ∧
        u.boot.pins = pins.toNat ∧
        (∀ a, a < 0x30200000 ∨ 0x30300000 ≤ a → sget 0 u.mem a = sget 0 s.mem a) ∧
        (Memory.wf s.mem = true → ∀ i < 0x100000, sget 0 u.mem (0x30200000 + i) = sget 0 s.mem (0x30000000 + i))) := by
  have hbit : bit (BitVec.ofNat 32 (key.toNat * 2 ^ 16 + 1)) 0 = true := by
    rw [bit, BitVec.getLsbD_ofNat, Nat.testBit_zero]
    simp
    omega
  have hkey : bits (BitVec.ofNat 32 (key.toNat * 2 ^ 16 + 1)) 31 16 = key.toNat := by
    have hlt := key.isLt
    rw [bits, BitVec.toNat_ofNat]
    omega
  refine gives_gated rfl h ?_
  simp only [State.rstCtrl, hbit, hkey, if_true]
  refine ⟨fun hne => ?_, fun heq => ?_⟩
  · rw [if_neg hne]
    exact (rejected_reject _ q _ _).frame (.respond s 0 false) (.settle _)
  · rw [if_pos heq]
    obtain ⟨hstc, hrep, hio⟩ := sysReset_kept (s.respond 0 false) pins.toNat 1
    have hboot := sysReset_boot (s.respond 0 false) pins.toNat 1
    have hmem : (s.respond 0 false |>.sysReset pins.toNat 1).mem = copyRange s.mem 0x30000000 0x30200000 0x100000 :=
      sysReset_mem _ _ _
    refine ⟨fun r hr => rd_sysReset (s.respond 0 false) pins.toNat 1 hr, rdB_resetCause _ (by decide), hstc, hrep, hio,
      congrArg Boot.step hboot, congrArg Boot.pins hboot, fun a ha => ?_, fun hwf i hi => ?_⟩
    · rw [State.settle_mem, hmem, copyRange_outside s.mem _ ha]
    · rw [State.settle_mem, hmem, copyRange_inside hwf _ _ hi]

theorem gives_pcieFundamentalReset_por {s : State} (pins : BitVec 2) (h : s.pwr.por = true) :
    Gives (.pcieFundamentalReset pins) s fun u => OnlyRegs s u [] := by
  refine (gives_iff_of_done (t := s.perstReset pins.toNat) rfl).2 ?_
  rw [State.perstReset, if_pos h]
  exact .settle s

theorem gives_pcieFundamentalReset_trip {s : State} (pins : BitVec 2) (hpor : s.pwr.por = false)
    (htrip : s.pwr.trip = true) : Gives (.pcieFundamentalReset pins) s fun u =>
      u.rdB SYS_RST_CAUSE 2 = true ∧ OnlyRegs s u [SYS_RST_CAUSE] := by
  refine (gives_iff_of_done (t := s.perstReset pins.toNat) rfl).2 ?_
  rw [State.perstReset, if_neg (by simp [hpor]), if_pos htrip]
  exact ⟨rdB_resetCause s (by decide), by simpa using (onlyRegs_resetCause s 2).trans (.settle _)⟩

theorem gives_pcieFundamentalReset {s : State} (pins : BitVec 2) (h : s.held = false) :
    Gives (.pcieFundamentalReset pins) s fun u =>
      (∀ r : Reg, r.addr ≠ SYS_RST_CAUSE.addr → u.rd r = (if aonReg r.addr then s.rd r else r.reset)) ∧
      u.rdB SYS_RST_CAUSE 2 = true ∧ u.stc = s.stc ∧ u.io33 = s.io33 ∧ u.boot.step = .fuses ∧
      (∀ a, a < 0x30200000 ∨ 0x30300000 ≤ a → sget 0 u.mem a = sget 0 s.mem a) := by
  obtain ⟨hstc, hio, hstep⟩ := perstReset_kept h pins.toNat
  refine (gives_iff_of_done (t := s.perstReset pins.toNat) rfl).2 ⟨fun r hr => ?_, ?_, hstc, hio, hstep, fun a ha => ?_⟩
  · rw [State.rd_settle, perstReset_eq h, rd_resetBlocks _ _ _ _ hr]
    simp
  · rw [State.rdB_settle, perstReset_eq h, rdB_resetCause _ (by decide)]
  · rw [State.settle_mem, perstReset_mem h, copyRange_outside s.mem _ ha]

/-! How the boot goes on, waits or stops (R381, R382). -/

/-- What the choice of the boot source changes: the boot step, SYS_BOOT_STAT and the states of the cores. -/
def BootOnly (s t : State) : Prop :=
  t = { s with regs := t.regs, boot := { s.boot with step := t.boot.step } } ∧
    ∀ r : Reg, r.addr ≠ SYS_BOOT_STAT.addr → r.addr ≠ HSE_CORE_STAT.addr → t.rd r = s.rd r

namespace BootOnly

variable {s t : State}

theorem mem (h : BootOnly s t) : t.mem = s.mem := (congrArg State.mem h.1).trans rfl

theorem fenced (h : BootOnly s t) (x : Nat) : t.fenced x = s.fenced x := by
  have hrep : t.rep = s.rep := (congrArg State.rep h.1).trans rfl
  rw [State.fenced, State.unit, hrep]
  rfl

theorem boot (h : BootOnly s t) : t.boot = { s.boot with step := t.boot.step } := (congrArg State.boot h.1).trans rfl

theorem trans {u : State} (h : BootOnly s t) (k : BootOnly t u) : BootOnly s u :=
  ⟨k.1.trans (congrArg (fun x : State => { x with regs := u.regs, boot := { x.boot with step := u.boot.step } }) h.1),
    fun r hb hc => (k.2 r hb hc).trans (h.2 r hb hc)⟩

theorem wrF_stat (s : State) (hi lo v : Nat) : BootOnly s (s.wrF SYS_BOOT_STAT hi lo v) :=
  ⟨rfl, fun _ hb _ => State.rd_wrF_other s hi lo v hb⟩

theorem wrB_stat (s : State) (i : Nat) (b : Bool) : BootOnly s (s.wrB SYS_BOOT_STAT i b) :=
  ⟨rfl, fun _ hb _ => State.rd_wrB_other s i b hb⟩

theorem setCore (s : State) (c v : Nat) : BootOnly s (s.setCore c v) := ⟨rfl, fun _ _ hc => rd_setCore_other s c v hc⟩

theorem step (h : BootOnly s t) (x : BootStep) : BootOnly s { t with boot := { t.boot with step := x } } :=
  ⟨(congrArg (fun y : State => { y with boot := { y.boot with step := x } }) h.1).trans rfl, h.2⟩

end BootOnly


/-- What shows that the boot has stopped with an error. -/
def stopShown (s : State) (err : Nat) : State :=
  (((s.wrF SYS_BOOT_STAT 3 0 err).wrB SYS_BOOT_STAT 29 false).setCore 0 0).setCore 1 0

theorem stopShown_only (s : State) (err : Nat) : BootOnly s (stopShown s err) :=
  (((BootOnly.wrF_stat s 3 0 err).trans (.wrB_stat _ 29 false)).trans (.setCore _ 0 0)).trans (.setCore _ 1 0)

theorem bootStop_only (s : State) (err : Nat) : BootOnly s (s.bootStop err) := (stopShown_only s err).step .stopped

theorem bootStop_stat (s : State) (err : Nat) :
    (s.bootStop err).rd SYS_BOOT_STAT = setBit (setBits (s.rd SYS_BOOT_STAT) 3 0 err) 29 false := by
  change (stopShown s err).rd SYS_BOOT_STAT = _
  rw [stopShown, rd_setCore_other _ 1 0 (by decide), rd_setCore_other _ 0 0 (by decide), State.rd_wrB_same,
    State.rd_wrF_same]

theorem bootStop_error (s : State) {err : Nat} (h : err < 16) : (s.bootStop err).rdF SYS_BOOT_STAT 3 0 = err := by
  rw [State.rdF, bootStop_stat, bits_setBit_outside _ (by decide), bits_setBits_same _ (by decide) (by decide)]
  omega

theorem bootStop_cores (s : State) (err : Nat) : (s.bootStop err).coreState 0 = 0 ∧ (s.bootStop err).coreState 1 = 0 := by
  change (stopShown s err).coreState 0 = 0 ∧ (stopShown s err).coreState 1 = 0
  unfold stopShown
  rw [coreState_setCore_other _ (by decide) (by decide), coreState_setCore_same _ (by decide) (by decide)]
  exact ⟨rfl, coreState_setCore_same _ (by decide) (by decide)⟩

/-- A failure of the flash image where the boot falls back to the host (R382). -/
theorem flashFail_fallback {s : State} (h : s.boot.pins = 2) (err : Nat) :
    s.flashFail err = (s.wrB SYS_BOOT_STAT 30 true).wrB SYS_BOOT_STAT 29 true := if_pos h

theorem flashFail_stops {s : State} (h : s.boot.pins ≠ 2) (err : Nat) : s.flashFail err = s.bootStop err := if_neg h

theorem flashFail_mem (s : State) (err : Nat) : (s.flashFail err).mem = s.mem := by
  unfold State.flashFail
  split <;> rfl

theorem flashFail_waits {s : State} (h : s.boot.pins = 2) (err : Nat) : (s.flashFail err).rdB SYS_BOOT_STAT 30 = true ∧
    (s.flashFail err).rdB SYS_BOOT_STAT 29 = true ∧ (s.flashFail err).boot = s.boot := by
  rw [flashFail_fallback h]
  refine ⟨?_, rdB_wrB_same _ _ (by decide) _, rfl⟩
  rw [rdB_wrB_bit _ _ (by decide), rdB_wrB_same _ _ (by decide)]

theorem flashFail_rd_other (s : State) (err : Nat) {r : Reg} (hb : r.addr ≠ SYS_BOOT_STAT.addr)
    (hc : r.addr ≠ HSE_CORE_STAT.addr) : (s.flashFail err).rd r = s.rd r := by
  unfold State.flashFail
  split
  · rw [State.rd_wrB_other _ _ _ hb, State.rd_wrB_other _ _ _ hb]
  · exact (bootStop_only s err).2 _ hb hc

/-- What shows that the boot goes on to the image: a host download waits, core 0 is in reset no more (R381 steps 3 and 4). -/
def imageShown (s : State) : State :=
  ((s.wrF SYS_BOOT_STAT 9 8 s.boot.pins).wrB SYS_BOOT_STAT 29 (s.boot.pins == 1)).setCore 0 1

/-- The boot goes on to the image. -/
def imageStep (s : State) : State := { imageShown s with boot := { s.boot with step := .image } }

theorem imageShown_stat (s : State) : (imageShown s).rd SYS_BOOT_STAT =
    setBit (setBits (s.rd SYS_BOOT_STAT) 9 8 s.boot.pins) 29 (s.boot.pins == 1) := by
  rw [imageShown, rd_setCore_other _ 0 1 (by decide), State.rd_wrB_same, State.rd_wrF_same]

theorem imageShown_core (s : State) : (imageShown s).coreState 0 = 1 :=
  coreState_setCore_same _ (by decide) (by decide)

theorem imageStep_only (s : State) : BootOnly s (imageStep s) :=
  (((BootOnly.wrF_stat s 9 8 s.boot.pins).trans (.wrB_stat _ 29 (s.boot.pins == 1))).trans (.setCore _ 0 1)).step .image

theorem imageStep_spec {s : State} (h : s.boot.pins < 4) : (imageStep s).boot.step = .image ∧
    (imageStep s).coreState 0 = 1 ∧ (imageStep s).rdF SYS_BOOT_STAT 9 8 = s.boot.pins ∧
    (imageStep s).rdB SYS_BOOT_STAT 29 = (s.boot.pins == 1) := by
  refine ⟨rfl, imageShown_core s, ?_, ?_⟩
  · change bits ((imageShown s).rd SYS_BOOT_STAT) 9 8 = s.boot.pins
    rw [imageShown_stat, bits_setBit_outside _ (by decide), bits_setBits_same _ (by decide) (by decide)]
    omega
  · change bit ((imageShown s).rd SYS_BOOT_STAT) 29 = (s.boot.pins == 1)
    rw [imageShown_stat, bit_setBit_same _ (by decide)]

theorem bootSource_error {s : State} (h : s.rdF SYS_BOOT_STAT 3 0 ≠ 0) :
    s.bootSource = s.bootStop (s.rdF SYS_BOOT_STAT 3 0) := if_pos h

/-- A fenced unit of house SRAM. -/
theorem anyHouseFenced_iff (s : State) :
    (upTo 4).any (fun i => s.fenced (724 + i)) = true ↔ ∃ i < 4, s.fenced (724 + i) = true := by
  simp [upTo]

theorem bootSource_fenced {s : State} (h : s.rdF SYS_BOOT_STAT 3 0 = 0) (hf : ∃ i < 4, s.fenced (724 + i) = true) :
    s.bootSource = s.bootStop 2 := by
  rw [State.bootSource, if_neg (not_not.2 h), if_pos ((anyHouseFenced_iff s).2 hf)]

theorem not_anyHouseFenced {s : State} (hf : ∀ i < 4, s.fenced (724 + i) = false) :
    ¬ (upTo 4).any (fun i => s.fenced (724 + i)) = true := fun hany => by
  obtain ⟨i, hi, hi'⟩ := (anyHouseFenced_iff s).1 hany
  exact absurd (hf i hi) (by simp [hi'])

theorem bootSource_reserved {s : State} (h : s.rdF SYS_BOOT_STAT 3 0 = 0) (hf : ∀ i < 4, s.fenced (724 + i) = false)
    (hp : s.boot.pins = 3) : s.bootSource = (s.wrF SYS_BOOT_STAT 9 8 3).bootStop 1 := by
  rw [State.bootSource, if_neg (not_not.2 h), if_neg (not_anyHouseFenced hf), hp]
  exact if_pos hp

theorem bootSource_image {s : State} (h : s.rdF SYS_BOOT_STAT 3 0 = 0) (hf : ∀ i < 4, s.fenced (724 + i) = false)
    (hp : s.boot.pins ≠ 3) : s.bootSource = imageStep s := by
  rw [State.bootSource, if_neg (not_not.2 h), if_neg (not_anyHouseFenced hf)]
  exact if_neg hp

theorem bootSource_only (s : State) : BootOnly s s.bootSource := by
  by_cases h : s.rdF SYS_BOOT_STAT 3 0 = 0
  · by_cases hf : ∃ i < 4, s.fenced (724 + i) = true
    · rw [bootSource_fenced h hf]
      exact bootStop_only s 2
    · have hf' : ∀ i < 4, s.fenced (724 + i) = false := by simpa using hf
      by_cases hp : s.boot.pins = 3
      · rw [bootSource_reserved h hf' hp]
        exact (BootOnly.wrF_stat s 9 8 3).trans (bootStop_only _ 1)
      · rw [bootSource_image h hf' hp]
        exact imageStep_only s
  · rw [bootSource_error h]
    exact bootStop_only s _

/-! The fuse load (R182, R381 step 1). -/

/-- Only the repair units change. -/
def RepOnly (s t : State) : Prop := t = { s with rep := t.rep }

namespace RepOnly

theorem refl (s : State) : RepOnly s s := rfl

theorem trans {s t u : State} (h : RepOnly s t) (k : RepOnly t u) : RepOnly s u :=
  Eq.trans k (congrArg (fun x : State => { x with rep := u.rep }) h)

theorem each {α : Type} {f : State → α → State} (h : ∀ s x, RepOnly s (f s x)) (l : List α) (s : State) :
    RepOnly s (s.each l f) := by
  induction l generalizing s with
  | nil => exact refl s
  | cons x l ih => exact (h s x).trans (ih _)

end RepOnly

theorem unit_setRep (s : State) (u x : Nat) (r : RepUnit) :
    ({ s with rep := sset {} s.rep u r } : State).unit x = if x = u then r else s.unit x := by
  unfold State.unit
  split
  · next h => rw [h, sget_sset_same]
  · next h => rw [sget_sset_other _ _ _ _ h]

/-- A repair unit's hard repairs, as the fuses hold them. -/
def hardRepair (s : State) (h : Nat × Nat) : State :=
  { s with rep := sset {} s.rep h.1 { s.unit h.1 with hard := min h.2 4 } }

theorem fenced_hardRepair (s : State) (h : Nat × Nat) (x : Nat) : (hardRepair s h).fenced x = s.fenced x := by
  rw [State.fenced, hardRepair, unit_setRep]
  split
  · next e => rw [e]; rfl
  · rfl

theorem fenced_hardRepairs (l : List (Nat × Nat)) (s : State) (x : Nat) :
    (s.each l hardRepair).fenced x = s.fenced x := by
  induction l generalizing s with
  | nil => rfl
  | cons h l ih => exact (ih _).trans (fenced_hardRepair s h x)

/-- The status word of the fuse load. -/
def fuseWord (f : Fuses) : Word := setBit (setBit (setBit 0 0 true) 1 f.eccErr) 2 f.dbgLock

theorem fuseWord_eq (f : Fuses) : fuseWord f = BitVec.ofNat 32 (1 + 2 * b2n f.eccErr + 4 * b2n f.dbgLock) := by
  unfold fuseWord
  cases f.eccErr <;> cases f.dbgLock <;> decide

/-- What the fuses give the boot. -/
def fusedBoot (b : Boot) (f : Fuses) : Boot :=
  { b with vendor := f.vendor.toNat, subsys := f.subsys, key := f.keyHash, mfr := f.mfrCode.toNat,
           locked := b.locked || f.dbgLock }

/-- The fuses' status and minimum version in their registers, and their repairs. -/
def fuseRepaired (s : State) (f : Fuses) : State :=
  ((s.wr TST_FUSE_STAT (fuseWord f)).wr TST_FUSE_MINVER f.minVer).each f.hard hardRepair

/-- With them the fuses' identities, key and lock. -/
def fuseTaken (s : State) (f : Fuses) : State :=
  { fuseRepaired s f with boot := fusedBoot (fuseRepaired s f).boot f }

/-- The fuses are loaded, an uncorrectable error is shown. -/
def fuseLoaded (s : State) (f : Fuses) : State :=
  if f.eccErr then (fuseTaken s f).wrF SYS_BOOT_STAT 3 0 5 else fuseTaken s f

theorem fuseRepaired_eq (s : State) (f : Fuses) : fuseRepaired s f =
    { (s.wr TST_FUSE_STAT (fuseWord f)).wr TST_FUSE_MINVER f.minVer with rep := (fuseRepaired s f).rep } :=
  RepOnly.each (f := hardRepair) (fun _ _ => rfl) f.hard _

theorem fuseTaken_mem (s : State) (f : Fuses) : (fuseTaken s f).mem = s.mem :=
  (congrArg State.mem (fuseRepaired_eq s f)).trans rfl

theorem fuseTaken_boot (s : State) (f : Fuses) : (fuseTaken s f).boot = fusedBoot s.boot f :=
  (congrArg (fun x : State => fusedBoot x.boot f) (fuseRepaired_eq s f)).trans rfl

theorem fuseTaken_rd (s : State) (f : Fuses) (r : Reg) :
    (fuseTaken s f).rd r = ((s.wr TST_FUSE_STAT (fuseWord f)).wr TST_FUSE_MINVER f.minVer).rd r :=
  State.rd_congr ((congrArg State.regs (fuseRepaired_eq s f)).trans rfl) r

theorem fuseLoaded_mem (s : State) (f : Fuses) : (fuseLoaded s f).mem = s.mem := by
  unfold fuseLoaded
  split
  all_goals exact fuseTaken_mem s f

theorem fuseLoaded_boot (s : State) (f : Fuses) : (fuseLoaded s f).boot = fusedBoot s.boot f := by
  unfold fuseLoaded
  split
  all_goals exact fuseTaken_boot s f

theorem fuseLoaded_fenced (s : State) (f : Fuses) (x : Nat) : (fuseLoaded s f).fenced x = s.fenced x := by
  have h : (fuseTaken s f).fenced x = s.fenced x := fenced_hardRepairs f.hard _ x
  unfold fuseLoaded
  split
  all_goals exact h

theorem fuseLoaded_rd (s : State) (f : Fuses) {r : Reg} (h : r.addr ≠ SYS_BOOT_STAT.addr) :
    (fuseLoaded s f).rd r = ((s.wr TST_FUSE_STAT (fuseWord f)).wr TST_FUSE_MINVER f.minVer).rd r := by
  unfold fuseLoaded
  split
  · rw [State.rd_wrF_other _ _ _ _ h, fuseTaken_rd]
  · rw [fuseTaken_rd]

theorem fuseLoaded_error (s : State) (f : Fuses) : (fuseLoaded s f).rdF SYS_BOOT_STAT 3 0 =
    if f.eccErr then 5 else s.rdF SYS_BOOT_STAT 3 0 := by
  unfold fuseLoaded
  split
  · exact rdF_wrF_same _ _ (by decide) (by decide) 5
  · rw [State.rdF, fuseTaken_rd, State.rd_wr_other _ _ (by decide), State.rd_wr_other _ _ (by decide)]
    rfl

/-- The ramp state changes memory alone. -/
theorem loadRamp_eq (s : State) : ∃ m, s.loadRamp = { s with mem := m } := by
  unfold State.loadRamp
  split
  · exact ⟨s.mem, rfl⟩
  · exact ⟨_, rfl⟩

theorem fuseDone_reset {s : State} {f : Fuses} (hstep : s.boot.step = .fuses) (hecc : f.eccErr = true)
    (hsys : s.boot.sys = 1) : s.fuseDone f = s.sysReset s.boot.pins 2 := by
  simp [State.fuseDone, hstep, hecc, hsys]

/-- The fuse load without a reset: the self-test follows where one is due, else the choice of the boot source. -/
theorem fuseDone_eq {s : State} {f : Fuses} (hstep : s.boot.step = .fuses) (h : f.eccErr = false ∨ s.boot.sys ≠ 1) :
    s.fuseDone f = if (fuseLoaded s f).boot.test then
      { fuseLoaded s f with boot := { (fuseLoaded s f).boot with step := .test } }
    else (fuseLoaded s f).loadRamp.bootSource := by
  have hno : ¬ (s.boot.step = .fuses && f.eccErr && s.boot.sys = 1) = true := by
    rcases h with h | h <;> simp [h]
  rw [State.fuseDone, if_neg hno, if_pos hstep]
  rfl

theorem fuseDone_test {s : State} {f : Fuses} (hstep : s.boot.step = .fuses) (h : f.eccErr = false ∨ s.boot.sys ≠ 1)
    (htest : s.boot.test = true) : s.fuseDone f =
      { fuseLoaded s f with boot := { fusedBoot s.boot f with step := .test } } := by
  rw [fuseDone_eq hstep h, fuseLoaded_boot]
  exact if_pos htest

theorem fuseDone_source {s : State} {f : Fuses} (hstep : s.boot.step = .fuses) (h : f.eccErr = false ∨ s.boot.sys ≠ 1)
    (htest : s.boot.test = false) : s.fuseDone f = (fuseLoaded s f).loadRamp.bootSource := by
  rw [fuseDone_eq hstep h, fuseLoaded_boot, if_neg (by simp [fusedBoot, htest])]

/-- What every fuse load without a reset leaves: what the fuses gave the boot, the registers but for the boot's own, and the
fenced units. -/
theorem fuseDone_loaded {s : State} {f : Fuses} (hstep : s.boot.step = .fuses) (h : f.eccErr = false ∨ s.boot.sys ≠ 1) :
    (s.fuseDone f).boot = { fusedBoot s.boot f with step := (s.fuseDone f).boot.step } ∧
      ∀ r : Reg, r.addr ≠ SYS_BOOT_STAT.addr → r.addr ≠ HSE_CORE_STAT.addr →
        (s.fuseDone f).rd r = ((s.wr TST_FUSE_STAT (fuseWord f)).wr TST_FUSE_MINVER f.minVer).rd r := by
  cases htest : s.boot.test with
  | true =>
    rw [fuseDone_test hstep h htest]
    exact ⟨rfl, fun r hb _ => fuseLoaded_rd s f hb⟩
  | false =>
    rw [fuseDone_source hstep h htest]
    obtain ⟨m, hm⟩ := loadRamp_eq (fuseLoaded s f)
    have honly := bootSource_only (fuseLoaded s f).loadRamp
    rw [hm] at honly ⊢
    refine ⟨?_, fun r hb hc => (honly.2 r hb hc).trans (fuseLoaded_rd s f hb)⟩
    rw [← fuseLoaded_boot]
    exact honly.boot

/-- The state in which the boot source is chosen after the fuse load has the error of the load, and the fenced units and
the BOOT pins that were. -/
theorem ramped_spec (s : State) (f : Fuses) :
    (fuseLoaded s f).loadRamp.rdF SYS_BOOT_STAT 3 0 = (if f.eccErr then 5 else s.rdF SYS_BOOT_STAT 3 0) ∧
    (∀ x, (fuseLoaded s f).loadRamp.fenced x = s.fenced x) ∧ (fuseLoaded s f).loadRamp.boot.pins = s.boot.pins := by
  obtain ⟨m, hm⟩ := loadRamp_eq (fuseLoaded s f)
  rw [hm]
  exact ⟨fuseLoaded_error s f, fuseLoaded_fenced s f, (congrArg Boot.pins (fuseLoaded_boot s f)).trans rfl⟩

theorem gives_fuseLoadDone_reset {s : State} {f : Fuses} (hstep : s.boot.step = .fuses) (hecc : f.eccErr = true)
    (hsys : s.boot.sys = 1) : Gives (.fuseLoadDone f) s fun u =>
      u.boot.step = .fuses ∧ u.boot.sys = 2 ∧ u.boot.pins = s.boot.pins ∧ u.rdB SYS_RST_CAUSE 1 = true ∧
      ∀ r : Reg, r.addr ≠ SYS_RST_CAUSE.addr → u.rd r = (if aonReg r.addr ∨ hifReg r.addr then s.rd r else r.reset) := by
  have hboot := sysReset_boot s s.boot.pins 2
  refine (gives_iff_of_done (t := s.fuseDone f) rfl).2 ?_
  rw [fuseDone_reset hstep hecc hsys]
  exact ⟨congrArg Boot.step hboot, congrArg Boot.sys hboot, (congrArg Boot.pins hboot).trans rfl, rdB_resetCause _ (by decide),
    fun r hr => rd_sysReset s s.boot.pins 2 hr⟩

theorem gives_fuseLoadDone {s : State} {f : Fuses} (hstep : s.boot.step = .fuses)
    (h : f.eccErr = false ∨ s.boot.sys ≠ 1) : Gives (.fuseLoadDone f) s fun u =>
    u.boot.locked = (s.boot.locked || f.dbgLock) ∧
    u.rd TST_FUSE_STAT = BitVec.ofNat 32 (1 + 2 * b2n f.eccErr + 4 * b2n f.dbgLock) ∧ u.rd TST_FUSE_MINVER = f.minVer ∧
    u.boot.vendor = f.vendor.toNat ∧ u.boot.subsys = f.subsys ∧ u.boot.key = f.keyHash ∧
    (s.boot.test = true → u.boot.step = .test ∧ u.mem = s.mem) ∧
    (s.boot.test = false → f.eccErr = true → u.boot.step = .stopped ∧ u.rdF SYS_BOOT_STAT 3 0 = 5) ∧
    (s.boot.test = false → f.eccErr = false → s.rdF SYS_BOOT_STAT 3 0 = 0 → (∀ i < 4, s.fenced (724 + i) = false) →
      (s.boot.pins = 3 → u.boot.step = .stopped ∧ u.rdF SYS_BOOT_STAT 3 0 = 1 ∧ u.coreState 0 = 0) ∧
      (s.boot.pins < 3 → u.boot.step = .image ∧ u.coreState 0 = 1 ∧ u.rdF SYS_BOOT_STAT 9 8 = s.boot.pins ∧
        u.rdB SYS_BOOT_STAT 29 = (s.boot.pins == 1))) ∧
    (s.boot.test = false → f.eccErr = false → s.rdF SYS_BOOT_STAT 3 0 = 0 → (∃ i < 4, s.fenced (724 + i) = true) →
      u.boot.step = .stopped ∧ u.rdF SYS_BOOT_STAT 3 0 = 2) := by
  obtain ⟨hboot, hrd⟩ := fuseDone_loaded hstep h
  obtain ⟨herr, hfenced, hpins⟩ := ramped_spec s f
  refine (gives_iff_of_done (t := s.fuseDone f) rfl).2 ?_
  simp only [State.rd_settle, State.rdF_settle, State.rdB_settle, State.settle_mem, State.settle_boot, coreState_settle]
  refine ⟨congrArg Boot.locked hboot, ?_, ?_, congrArg Boot.vendor hboot,
    congrArg Boot.subsys hboot, congrArg Boot.key hboot, fun ht => ?_, fun ht he => ?_, fun ht he h0 hf => ⟨fun hp => ?_,
    fun hp => ?_⟩, fun ht he h0 hf => ?_⟩
  · rw [hrd _ (by decide) (by decide), State.rd_wr_other _ _ (by decide), State.rd_wr_same, fuseWord_eq]
  · rw [hrd _ (by decide) (by decide), State.rd_wr_same]
  · rw [fuseDone_test hstep h ht]
    exact ⟨rfl, fuseLoaded_mem s f⟩
  · rw [if_pos he] at herr
    rw [fuseDone_source hstep h ht, bootSource_error (by rw [herr]; decide), herr]
    exact ⟨rfl, bootStop_error _ (by decide)⟩
  · rw [he, if_neg Bool.false_ne_true, h0] at herr
    rw [fuseDone_source hstep h ht, bootSource_reserved herr (fun i hi => (hfenced _).trans (hf i hi)) (hpins.trans hp)]
    exact ⟨rfl, bootStop_error _ (by decide), (bootStop_cores _ 1).1⟩
  · rw [he, if_neg Bool.false_ne_true, h0] at herr
    rw [fuseDone_source hstep h ht, bootSource_image herr (fun i hi => (hfenced _).trans (hf i hi)) (by omega), ← hpins]
    exact imageStep_spec (by omega)
  · rw [he, if_neg Bool.false_ne_true, h0] at herr
    obtain ⟨i, hi, hfi⟩ := hf
    rw [fuseDone_source hstep h ht, bootSource_fenced herr ⟨i, hi, (hfenced _).trans hfi⟩]
    exact ⟨rfl, bootStop_error _ (by decide)⟩

/-! The self-test (R183, R185, R187). -/

/-- What the self-test makes of a repair unit. -/
def testedUnit (r : RepUnit) (t : UnitTest) : RepUnit :=
  { r with failCols := min t.failCols 15, soft := min t.failCols (4 - r.hard),
           fenced := t.stillBad || decide (4 - r.hard < t.failCols) }

theorem unit_unitTested (s : State) (t : UnitTest) (x : Nat) :
    (s.unitTested t).unit x = if x = t.unit then testedUnit (s.unit t.unit) t else s.unit x :=
  unit_setRep s t.unit x (testedUnit (s.unit t.unit) t)

/-- A unit that no result names is as it was. -/
theorem unit_tested_other {res : List UnitTest} {x : Nat} (h : ∀ t ∈ res, t.unit.val ≠ x) (s : State) :
    (s.each res State.unitTested).unit x = s.unit x := by
  induction res generalizing s with
  | nil => rfl
  | cons t res ih =>
    refine (ih (fun t' ht' => h t' (.tail _ ht')) _).trans ?_
    rw [unit_unitTested, if_neg (h t (.head _)).symm]

/-- A unit that one result names is as that result makes it. -/
theorem unit_tested_same {res : List UnitTest} (hres : (res.map UnitTest.unit).Nodup) {t : UnitTest} (ht : t ∈ res)
    (s : State) : (s.each res State.unitTested).unit t.unit = testedUnit (s.unit t.unit) t := by
  induction res generalizing s with
  | nil => cases ht
  | cons a res ih =>
    obtain ⟨ha, hres⟩ := List.nodup_cons.1 hres
    have hne : ∀ t' ∈ res, t'.unit.val ≠ a.unit.val := fun t' ht' e =>
      ha (List.mem_map.2 ⟨t', ht', Fin.ext e⟩)
    rcases List.mem_cons.1 ht with rfl | ht
    · refine (unit_tested_other hne _).trans ?_
      rw [unit_unitTested, if_pos rfl]
    · refine (ih hres ht _).trans ?_
      rw [unit_unitTested, if_neg (hne t ht)]

/-- The units tested and the memory cleared. -/
def unitsTested (s : State) (res : List UnitTest) : State := { s.each res State.unitTested with mem := [] }

/-- The fenced units. -/
def badUnits (s : State) : List Nat := (upTo 728).filter s.fenced

theorem mem_badUnits {s : State} {x : Nat} : x ∈ badUnits s ↔ x < 728 ∧ s.fenced x = true := by
  simp [badUnits, upTo]

/-- The status word of the self-test (R187). -/
def testWord (s : State) : Word :=
  setBits (setBit (setBit 0 31 true) 30 (!(badUnits s).isEmpty)) 25 16 (badUnits s).length

theorem testWord_done (s : State) : bit (testWord s) 31 = true := by
  rw [testWord, bit_setBits _ (by decide) (by decide), if_neg (by decide), bit_setBit_other _ (by decide),
    bit_setBit_same _ (by decide)]

theorem testWord_bad (s : State) : bit (testWord s) 30 = true ↔ ∃ x < 728, s.fenced x = true := by
  rw [testWord, bit_setBits _ (by decide) (by decide), if_neg (by decide), bit_setBit_same _ (by decide), Bool.not_eq_true',
    List.isEmpty_eq_false_iff_exists_mem]
  exact ⟨fun ⟨x, hx⟩ => ⟨x, mem_badUnits.1 hx⟩, fun ⟨x, hx⟩ => ⟨x, mem_badUnits.2 hx⟩⟩

/-- The word of the repairs in use (R187). -/
def repairWord (s : State) : Word :=
  let sum := fun (f : RepUnit → Nat) => (s.rep.map (fun x => f x.2)).foldl (· + ·) 0
  setBits (setBits 0 31 16 (sum RepUnit.soft)) 15 0 (sum RepUnit.hard)

/-- The self-test's results in its registers (R187). -/
def testShown (s : State) : State :=
  ((s.wr TST_MEM_STAT (testWord s)).wr TST_MEM_REP (repairWord s)).each (badUnits s)
    (fun s u => s.wrB (TST_MEM_BAD (u / 32)) (u % 32) true)

/-- The registers of the self-test but for its status. -/
def badRegs : List Reg := (upTo 23).map TST_MEM_BAD

theorem testShown_only (s : State) :
    OnlyRegs ((s.wr TST_MEM_STAT (testWord s)).wr TST_MEM_REP (repairWord s)) (testShown s) badRegs :=
  OnlyRegs.each (fun t u hu => (OnlyRegs.wrB t _ _ _).mono (by
    obtain ⟨hlt, -⟩ := mem_badUnits.1 hu
    have hmem : TST_MEM_BAD (u / 32) ∈ badRegs := List.mem_map_of_mem (List.mem_range.2 (by omega))
    simpa using hmem)) _

theorem testShown_stat (s : State) : (testShown s).rd TST_MEM_STAT = testWord s := by
  rw [(testShown_only s).2 TST_MEM_STAT (by decide), State.rd_wr_other _ _ (by decide), State.rd_wr_same]

/-- The self-test ends: its results shown, it is due no more. -/
def testEnded (s : State) (res : List UnitTest) : State :=
  { testShown (unitsTested s res) with boot := { (testShown (unitsTested s res)).boot with test := false } }

theorem selfTested_eq {s : State} (h : s.boot.step = .test) (res : List UnitTest) :
    s.selfTested res = (testEnded s res).bootSource := by
  simp only [State.selfTested, h, if_true, testEnded, testShown, testWord, repairWord, badUnits, unitsTested]

theorem testEnded_mem (s : State) (res : List UnitTest) : (testEnded s res).mem = [] := by
  rw [testEnded, (testShown_only (unitsTested s res)).mem]
  rfl

theorem testEnded_stat (s : State) (res : List UnitTest) :
    (testEnded s res).rd TST_MEM_STAT = testWord (unitsTested s res) := by
  rw [testEnded, rd_withBoot, testShown_stat]

theorem testEnded_fenced (s : State) (res : List UnitTest) (x : Nat) :
    (testEnded s res).fenced x = (s.each res State.unitTested).fenced x := by
  have hrep : (testEnded s res).rep = (s.each res State.unitTested).rep := by
    rw [testEnded, (testShown_only (unitsTested s res)).1]
    rfl
  rw [State.fenced, State.fenced, State.unit, State.unit, hrep]

theorem gives_selfTestDone {s : State} {res : List UnitTest} (hstep : s.boot.step = .test)
    (hres : (res.map UnitTest.unit).Nodup) : Gives (.selfTestDone res) s fun u =>
      u.mem = [] ∧ u.rdB TST_MEM_STAT 31 = true ∧ u.boot.test = false ∧
      (∀ t ∈ res, u.fenced t.unit = (t.stillBad || decide (4 - (s.unit t.unit).hard < t.failCols))) ∧
      (∀ x < 728, (∀ t ∈ res, t.unit.val ≠ x) → u.fenced x = s.fenced x) ∧
      (u.rdB TST_MEM_STAT 30 = true ↔ ∃ x < 728, u.fenced x = true) := by
  have honly := bootSource_only (testEnded s res)
  rw [← selfTested_eq hstep] at honly
  have hfenced : ∀ x, (s.selfTested res).fenced x = (s.each res State.unitTested).fenced x := fun x =>
    (honly.fenced x).trans (testEnded_fenced s res x)
  have hstat : (s.selfTested res).rd TST_MEM_STAT = testWord (unitsTested s res) :=
    (honly.2 _ (by decide) (by decide)).trans (testEnded_stat s res)
  refine (gives_iff_of_done (t := s.selfTested res) rfl).2 ?_
  simp only [State.rdB_settle, State.settle_mem, State.settle_boot, fenced_settle, hfenced]
  refine ⟨honly.mem.trans (testEnded_mem s res), ?_, congrArg Boot.test honly.boot, fun t ht => ?_, fun x _ hx => ?_, ?_⟩
  · rw [State.rdB, hstat, testWord_done]
  · rw [State.fenced, unit_tested_same hres ht]
    rfl
  · rw [State.fenced, unit_tested_other hx]
    rfl
  · rw [State.rdB, hstat]
    exact testWord_bad _

/-! Bytes of an image in memory (R360, R381). -/

/-- A byte below the bytes written stays. -/
theorem putBytes_below {a x : Nat} (h : x < a) (bs : List Byte) (m : List (Nat × Byte)) :
    sget 0 (putBytes m a bs) x = sget 0 m x := by
  induction bs generalizing a m with
  | nil => rfl
  | cons b bs ih => exact (ih (Nat.lt_succ_of_lt h) _).trans (putByte_other m b (Nat.ne_of_lt h))

theorem putBytes_at {bs : List Byte} {i : Nat} (h : i < bs.length) (m : List (Nat × Byte)) (a : Nat) :
    sget 0 (putBytes m a bs) (a + i) = bs[i] := by
  induction bs generalizing a m i with
  | nil => cases h
  | cons b bs ih =>
    cases i with
    | zero => exact (putBytes_below (Nat.lt_succ_self a) bs _).trans (putByte_same m a b)
    | succ i =>
      rw [show a + (i + 1) = a + 1 + i by omega]
      exact ih (Nat.lt_of_succ_lt_succ h) _ _

/-- A range within the bytes written holds them. -/
theorem bytesAt_putBytes {bs : List Byte} {k n : Nat} (h : k + n ≤ bs.length) (m : List (Nat × Byte)) (a : Nat) :
    bytesAt (putBytes m a bs) (a + k) n = (bs.drop k).take n := by
  unfold bytesAt upTo
  refine List.ext_getElem (by simp; omega) fun i hi _ => ?_
  have hlt : k + i < bs.length := by simp at hi; omega
  rw [List.getElem_map, List.getElem_range, Nat.add_assoc, putBytes_at hlt, List.getElem_take, List.getElem_drop]

theorem toNat_append_byte {n : Nat} (w : BitVec n) (b : Byte) : (w ++ b).toNat = b.toNat + 256 * w.toNat := by
  rw [BitVec.toNat_append, ← Nat.shiftLeft_add_eq_or_of_lt b.isLt, Nat.shiftLeft_eq]
  omega

theorem toNat_wordOf (m : List (Nat × Byte)) (a : Nat) : (wordOf m a).toNat = ofLeBytes (bytesAt m a 4) := by
  rw [wordOf, toNat_append_byte, toNat_append_byte, toNat_append_byte]
  rfl

/-- An image written to half 0 is the image that stands there, where it is as long as its header says. -/
theorem imageAt_written (s : State) {img : List Byte} (h : img.length = 256 + min (ofLeBytes ((img.drop 8).take 4)) 458752) :
    ({ s with mem := putBytes s.mem 0x100000 img } : State).imageAt 0x100000 = img := by
  have hlen : (wordOf (putBytes s.mem 0x100000 img) (0x100000 + 8)).toNat = ofLeBytes ((img.drop 8).take 4) := by
    rw [toNat_wordOf, bytesAt_putBytes (by omega)]
  rw [State.imageAt, hlen, ← h]
  exact (bytesAt_putBytes (k := 0) (by omega) s.mem 0x100000).trans (by simp)

/-- The length in the header of an image is the one at the head of the flash. -/
theorem imageLen_take (flash : List Byte) (n : Nat) : ((flash.take (256 + n)).drop 8).take 4 = (flash.drop 8).take 4 := by
  rw [List.drop_take, List.take_take, Nat.min_eq_left (by omega)]

/-! The check of the image (R360, R381, R382). -/

/-- The image in half 0 is in force, and both cores boot. -/
def imageTaken (s : State) : State := ((s.takeImage 0).setCore 0 1).setCore 1 1

theorem checkImage_accepted {s : State} {fail : State → State} (h : s.imageCode (s.imageAt 0x100000) = 0) :
    s.checkImage fail = { imageTaken s with boot := { (imageTaken s).boot with step := .start } } := by
  rw [State.checkImage, h]
  rfl

theorem checkImage_rejected {s : State} {fail : State → State} (h : s.imageCode (s.imageAt 0x100000) ≠ 0) :
    s.checkImage fail = fail (s.wr HSE_FW_ERR (BitVec.ofNat 32 (s.imageCode (s.imageAt 0x100000)))) := by
  unfold State.checkImage
  split
  · next h0 => exact absurd h0 h
  · rfl

theorem half_takeImage (s : State) : (s.takeImage 0).half = 0 := by
  change b2n (((s.wrB HSE_CORE_STAT 8 false).wr HSE_FW_VER (wordOf s.mem (halfBase 0 + 4))).rdB HSE_CORE_STAT 8) = 0
  rw [rdB_wr_other _ (by decide), rdB_wrB_same _ _ (by decide)]
  rfl

theorem imageTaken_spec (s : State) : (imageTaken s).half = 0 ∧ (imageTaken s).coreState 0 = 1 ∧
    (imageTaken s).coreState 1 = 1 ∧ (imageTaken s).rd HSE_FW_VER = wordOf s.mem 0x100004 ∧ (imageTaken s).mem = s.mem := by
  unfold imageTaken
  refine ⟨?_, ?_, ?_, ?_, rfl⟩
  · rw [half_setCore _ (by decide), half_setCore _ (by decide), half_takeImage]
  · rw [coreState_setCore_other _ (by decide) (by decide), coreState_setCore_same _ (by decide) (by decide)]
  · rw [coreState_setCore_same _ (by decide) (by decide)]
  · rw [rd_setCore_other _ _ _ (by decide), rd_setCore_other _ _ _ (by decide), State.takeImage, rd_withBoot,
      State.rd_wr_same]
    rfl

/-! The commands of the boot after the fuse load and the self-test (R381, R382, R385). -/

theorem gives_bootHostGo {s : State} {q : Req} (h : Reaches s q SYS_BOOT_CTRL) : Gives (.bootHostGo q) s fun u =>
    (s.rdB SYS_BOOT_STAT 29 = true → u.rdB SYS_BOOT_STAT 29 = false ∧ u.boot.go = true ∧ u.mem = s.mem) ∧
    (s.rdB SYS_BOOT_STAT 29 = false → OnlyRegs s u []) := by
  refine gives_gated rfl h ⟨fun hwait => ?_, fun hidle => ?_⟩
  · rw [State.hostGo, if_pos (show (s.respond 0 false).rdB SYS_BOOT_STAT 29 = true from hwait)]
    refine ⟨?_, rfl, rfl⟩
    rw [State.rdB_settle, State.rdB, rd_withBoot]
    change ((((s.respond 0 false).wrB SYS_BOOT_STAT 29 false).wrB SYS_BOOT_CTRL 0 true).rdB SYS_BOOT_STAT 29) = false
    rw [rdB_wrB_other _ (by decide), rdB_wrB_same _ _ (by decide)]
  · rw [State.hostGo, if_neg (by rw [State.rdB, State.rd_respond, ← State.rdB, hidle]; decide)]
    exact OnlyRegs.after_respond (.refl _)

theorem flashTimeout_eq {s : State} (hstep : s.boot.step = .image) (hflash : s.fromFlash = true) (hawake : s.asleep = false) :
    s.flashTimeout = s.flashFail 3 := by
  simp [State.flashTimeout, hstep, hflash, hawake]

theorem gives_bootFlashTimeout {s : State} (hstep : s.boot.step = .image) (hflash : s.fromFlash = true)
    (hawake : s.asleep = false) : Gives .bootFlashTimeout s fun u => u.mem = s.mem ∧
    (s.boot.pins = 2 → u.rdB SYS_BOOT_STAT 30 = true ∧ u.rdB SYS_BOOT_STAT 29 = true ∧ u.boot = s.boot) ∧
    (s.boot.pins ≠ 2 → u.boot.step = .stopped ∧ u.rdF SYS_BOOT_STAT 3 0 = 3 ∧ u.coreState 0 = 0 ∧ u.coreState 1 = 0) := by
  refine (gives_iff_of_done (t := s.flashTimeout) rfl).2 ?_
  simp only [State.rdF_settle, State.rdB_settle, State.settle_mem, State.settle_boot, coreState_settle,
    flashTimeout_eq hstep hflash hawake]
  refine ⟨flashFail_mem s 3, fun hp => flashFail_waits hp 3, fun hp => ?_⟩
  rw [flashFail_stops hp]
  exact ⟨rfl, bootStop_error s (by decide), bootStop_cores s 3⟩

/-- The head of the flash is all zeros or all ones. -/
def flashBlank (flash : List Byte) : Bool := (flash.take 4).all (· == 0) || (flash.take 4).all (· == 0xFF#8)

/-- The image at the head of the flash, as long as its header says, at most. -/
def flashImage (flash : List Byte) : List Byte := flash.take (256 + min (ofLeBytes ((flash.drop 8).take 4)) 458752)

/-- The image of the flash in house SRAM. -/
def flashRead (s : State) (flash : List Byte) : State := { s with mem := putBytes s.mem 0x100000 (flashImage flash) }

section

variable {s : State} {flash : List Byte} (hstep : s.boot.step = .image) (hflash : s.fromFlash = true)
  (hawake : s.asleep = false)

include hstep hflash hawake

theorem bootImage_blank (h : flashBlank flash = true) : s.bootImage flash = s.flashFail 3 := by
  rw [State.bootImage, if_pos (by simp [hstep, hawake]), if_pos hflash]
  exact if_pos h

theorem bootImage_flash (h : flashBlank flash = false) :
    s.bootImage flash = (flashRead s flash).checkImage (fun t => t.flashFail 4) := by
  rw [State.bootImage, if_pos (by simp [hstep, hawake]), if_pos hflash]
  exact if_neg (by rw [← Bool.not_eq_true] at h; exact h)

end

theorem checkImage_mem {s : State} {fail : State → State} (hfail : ∀ t, (fail t).mem = t.mem) :
    (s.checkImage fail).mem = s.mem := by
  by_cases h : s.imageCode (s.imageAt 0x100000) = 0
  · rw [checkImage_accepted h]
    exact (imageTaken_spec s).2.2.2.2
  · rw [checkImage_rejected h, hfail]
    rfl

/-- What is checked of a flash image as long as its header says. -/
theorem imageCode_flashRead (s : State) {flash : List Byte}
    (h : (flashImage flash).length = 256 + min (ofLeBytes ((flash.drop 8).take 4)) 458752) :
    (flashRead s flash).imageCode ((flashRead s flash).imageAt 0x100000) = s.imageCode (flashImage flash) := by
  have himg : (flashRead s flash).imageAt 0x100000 = flashImage flash := by
    refine imageAt_written s (h.trans ?_)
    rw [flashImage, imageLen_take]
  rw [himg]
  rfl

theorem gives_bootImageCheck_flash {s : State} (flash : List Byte) (hstep : s.boot.step = .image)
    (hflash : s.fromFlash = true) (hawake : s.asleep = false) : Gives (.bootImageCheck flash) s fun u =>
      (flashBlank flash = true → u.mem = s.mem) ∧
      (flashBlank flash = false → u.mem = putBytes s.mem 0x100000 (flashImage flash)) ∧
      (flashBlank flash = false → (flashImage flash).length = 256 + min (ofLeBytes ((flash.drop 8).take 4)) 458752 →
        s.imageCode (flashImage flash) = 0 →
        u.boot.step = .start ∧ u.half = 0 ∧ u.coreState 0 = 1 ∧ u.coreState 1 = 1) ∧
      (flashBlank flash = false → (flashImage flash).length = 256 + min (ofLeBytes ((flash.drop 8).take 4)) 458752 →
        s.imageCode (flashImage flash) ≠ 0 →
        u.rd HSE_FW_ERR = BitVec.ofNat 32 (s.imageCode (flashImage flash)) ∧
        (s.boot.pins = 2 → u.rdB SYS_BOOT_STAT 30 = true ∧ u.rdB SYS_BOOT_STAT 29 = true ∧ u.boot = s.boot) ∧
        (s.boot.pins ≠ 2 → u.boot.step = .stopped ∧ u.rdF SYS_BOOT_STAT 3 0 = 4)) := by
  refine (gives_iff_of_done (t := s.bootImage flash) rfl).2 ?_
  simp only [State.rd_settle, State.rdF_settle, State.rdB_settle, State.settle_mem, State.settle_boot, coreState_settle,
    half_settle]
  refine ⟨fun hb => ?_, fun hb => ?_, fun hb hlen hcode => ?_, fun hb hlen hcode => ?_⟩
  · rw [bootImage_blank hstep hflash hawake hb, flashFail_mem]
  · rw [bootImage_flash hstep hflash hawake hb, checkImage_mem fun t => flashFail_mem t 4]
    rfl
  · rw [← imageCode_flashRead s hlen] at hcode
    rw [bootImage_flash hstep hflash hawake hb, checkImage_accepted hcode]
    obtain ⟨hhalf, hcore0, hcore1, -⟩ := imageTaken_spec (flashRead s flash)
    exact ⟨rfl, hhalf, hcore0, hcore1⟩
  · rw [← imageCode_flashRead s hlen] at hcode ⊢
    rw [bootImage_flash hstep hflash hawake hb, checkImage_rejected hcode]
    generalize (flashRead s flash).imageCode ((flashRead s flash).imageAt 0x100000) = code
    have herr : ((flashRead s flash).wr HSE_FW_ERR (BitVec.ofNat 32 code)).rd HSE_FW_ERR = BitVec.ofNat 32 code :=
      State.rd_wr_same _ _ _
    have hboot : ((flashRead s flash).wr HSE_FW_ERR (BitVec.ofNat 32 code)).boot = s.boot := rfl
    generalize (flashRead s flash).wr HSE_FW_ERR (BitVec.ofNat 32 code) = t at herr hboot ⊢
    rw [← hboot]
    refine ⟨(flashFail_rd_other _ _ (by decide) (by decide)).trans herr, fun hp => flashFail_waits hp 4, fun hp => ?_⟩
    rw [flashFail_stops hp]
    exact ⟨rfl, bootStop_error _ (by decide)⟩

/-- The host's go is taken. -/
def goTaken (s : State) : State :=
  { s.wrB SYS_BOOT_CTRL 0 false with boot := { s.boot with go := false } }

theorem bootImage_host {s : State} (flash : List Byte) (hstep : s.boot.step = .image) (hflash : s.fromFlash = false)
    (hgo : s.boot.go = true) (hawake : s.asleep = false) :
    s.bootImage flash = (goTaken s).checkImage (fun t => t.bootStop 4) := by
  rw [State.bootImage, if_pos (by simp [hstep, hawake]), if_neg (by simp [hflash]), if_pos hgo]
  rfl

/-- What is checked of the image that the host has written. -/
theorem imageCode_goTaken (s : State) :
    (goTaken s).imageCode ((goTaken s).imageAt 0x100000) = s.imageCode (s.imageAt 0x100000) := by
  have hver : (goTaken s).rd TST_FUSE_MINVER = s.rd TST_FUSE_MINVER := by
    rw [goTaken, rd_withBoot, State.rd_wrB_other _ _ _ (by decide)]
  change (goTaken s).imageCode (s.imageAt 0x100000) = _
  unfold State.imageCode
  rw [hver]
  rfl

theorem gives_bootImageCheck_host {s : State} (flash : List Byte) (hstep : s.boot.step = .image)
    (hflash : s.fromFlash = false) (hgo : s.boot.go = true) (hawake : s.asleep = false) :
    Gives (.bootImageCheck flash) s fun u => u.mem = s.mem ∧
      (s.imageCode (s.imageAt 0x100000) = 0 → u.boot.step = .start ∧ u.half = 0 ∧
        u.rd HSE_FW_VER = wordOf s.mem 0x100004 ∧ u.coreState 0 = 1 ∧ u.coreState 1 = 1) ∧
      (s.imageCode (s.imageAt 0x100000) ≠ 0 → u.boot.step = .stopped ∧ u.rdF SYS_BOOT_STAT 3 0 = 4 ∧
        u.rd HSE_FW_ERR = BitVec.ofNat 32 (s.imageCode (s.imageAt 0x100000))) := by
  refine (gives_iff_of_done (t := s.bootImage flash) rfl).2 ?_
  simp only [State.rd_settle, State.rdF_settle, State.settle_mem, State.settle_boot, coreState_settle, half_settle,
    bootImage_host flash hstep hflash hgo hawake]
  rw [← imageCode_goTaken]
  refine ⟨(checkImage_mem fun t => (bootStop_only t 4).mem).trans rfl, fun hcode => ?_, fun hcode => ?_⟩
  · rw [checkImage_accepted hcode]
    obtain ⟨hhalf, hcore0, hcore1, hver, -⟩ := imageTaken_spec (goTaken s)
    exact ⟨rfl, hhalf, hver, hcore0, hcore1⟩
  · rw [checkImage_rejected hcode]
    generalize (goTaken s).imageCode ((goTaken s).imageAt 0x100000) = code
    refine ⟨rfl, bootStop_error _ (by decide), ?_⟩
    rw [(bootStop_only _ 4).2 _ (by decide) (by decide), State.rd_wr_same]

/-- The cores run and the boot is ready (R381 step 5). -/
def readyShown (s : State) : State := ((s.setCore 0 2).setCore 1 2).wrB SYS_BOOT_STAT 31 true

theorem gives_bootReady {s : State} (hstep : s.boot.step = .start) (hawake : s.asleep = false) :
    Gives .bootReady s fun u =>
      u.coreState 0 = 2 ∧ u.coreState 1 = 2 ∧ u.rdB SYS_BOOT_STAT 31 = true ∧ u.boot.step = .ready ∧ u.mem = s.mem := by
  have hready : s.bootReadyNow =
      { readyShown s with boot := { (readyShown s).boot with step := .ready, ready := true } }.cloveHost := by
    rw [State.bootReadyNow, if_pos (by simp [hstep, hawake])]
    rfl
  have hrd : ∀ r : Reg, r.addr < 0x50030000 ∨ 0x50040000 ≤ r.addr → s.bootReadyNow.rd r = (readyShown s).rd r := by
    rw [hready]
    exact clv_cloveHost _
  have hcores : (readyShown s).coreState 0 = 2 ∧ (readyShown s).coreState 1 = 2 := by
    unfold readyShown
    rw [State.coreState, State.coreState, rdF_wrB_other _ (by decide), rdF_wrB_other _ (by decide)]
    exact ⟨(coreState_setCore_other _ (by decide) (by decide) 2).trans (coreState_setCore_same _ (by decide) (by decide)),
      coreState_setCore_same _ (by decide) (by decide)⟩
  refine (gives_iff_of_done (t := s.bootReadyNow) rfl).2 ?_
  simp only [State.rdB_settle, State.settle_mem, State.settle_boot, coreState_settle]
  refine ⟨?_, ?_, ?_, ?_, ?_⟩
  · rw [State.coreState, State.rdF, hrd _ (by decide)]
    exact hcores.1
  · rw [State.coreState, State.rdF, hrd _ (by decide)]
    exact hcores.2
  · rw [State.rdB, hrd _ (by decide), readyShown, State.rd_wrB_same, bit_setBit_same _ (by decide)]
  · rw [hready, CloveAlone.cloveHost]
  · rw [hready, (keeps_cloveHost _).2.1]
    rfl

/-! The TAP (R384). -/

/-- The revision, the device code, the manufacturer and the 1 of what IDCODE reads. -/
theorem idcode_eq (s : State) :
    ∃ rev, s.idcode = BitVec.ofNat 32 (rev * 2 ^ 28 + 0x5124 * 2 ^ 12 + s.boot.mfr * 2 + 1) := ⟨_, rfl⟩

theorem idcode_device (rev : Nat) {mfr : Nat} (h : mfr < 2 ^ 11) :
    bits (BitVec.ofNat 32 (rev * 2 ^ 28 + 0x5124 * 2 ^ 12 + mfr * 2 + 1)) 27 12 = 0x5124 := by
  rw [bits, BitVec.toNat_ofNat]
  omega

theorem idcode_odd (rev mfr : Nat) : bit (BitVec.ofNat 32 (rev * 2 ^ 28 + 0x5124 * 2 ^ 12 + mfr * 2 + 1)) 0 = true := by
  rw [bit, BitVec.getLsbD_ofNat, Nat.testBit_zero]
  simp
  omega

theorem gives_idcode (s : State) : Gives (.jtagInstruction .idcode) s fun u =>
    u.rsp = ⟨[s.idcode.zeroExtend 256], false⟩ ∧ (s.boot.mfr < 2 ^ 11 → bits s.idcode 27 12 = 0x5124) ∧
      bit s.idcode 0 = true ∧ OnlyRegs { s with boot := u.boot } u [] := by
  obtain ⟨rev, hcode⟩ := idcode_eq s
  refine (gives_iff_of_done (t := s.jtagLoad .idcode) rfl).2 ⟨rfl, fun hm => ?_, ?_, ⟨rfl, fun _ _ => rfl⟩⟩
  · rw [hcode, idcode_device rev hm]
  · rw [hcode, idcode_odd]

theorem gives_debug_locked {s : State} (t : Txn) (h : s.boot.locked = true) : Gives (.jtagInstruction (.debug t)) s fun u =>
    u.boot.jtag = .bypass ∧ u.bmx = s.bmx ∧ OnlyRegs { s with boot := u.boot } u [] := by
  have hload : s.jtagLoad (.debug t) = { s with boot := { s.boot with jtag := .bypass } } := if_pos h
  refine (gives_iff_of_done (t := s.jtagLoad (.debug t)) rfl).2 ?_
  rw [hload]
  exact ⟨rfl, rfl, ⟨rfl, fun _ _ => rfl⟩⟩

theorem gives_samplePreload (s : State) (cells : List (Pin × Bool)) :
    Gives (.jtagInstruction (.samplePreload cells)) s fun u =>
      u.boot.cells = cells ∧ (∀ p, u.pin p = u.devicePin p) ∧ OnlyRegs { s with boot := u.boot } u [] := by
  refine (gives_iff_of_done (t := s.jtagLoad (.samplePreload cells)) rfl).2
    ⟨rfl, pin_of_not_scanning ?_, ⟨rfl, fun _ _ => rfl⟩⟩
  rfl

/-- A pin other than TDO under an EXTEST-class instruction. -/
theorem pin_of_scanning {s : State} (h : s.scanning = true) {p : Pin} (hp : p ≠ .tdo) :
    s.pin p = if (s.boot.cells.lookup p).getD false then .high else .low := by
  simp [State.pin, h, hp, pinLevel]

theorem gives_extest (s : State) {i : JtagInstr} (hi : i ∈ [JtagInstr.extest, .extestPulse, .extestTrain]) :
    Gives (.jtagInstruction i) s fun u =>
      (∀ p, p ≠ .tdo → u.pin p = if (s.boot.cells.lookup p).getD false then .high else .low) ∧
      OnlyRegs { s with boot := u.boot } u [] := by
  have hload : s.jtagLoad i = { s with boot := { s.boot with jtag := i } } := by
    simp only [List.mem_cons, List.not_mem_nil, or_false] at hi
    rcases hi with rfl | rfl | rfl <;> rfl
  have hscan : ({ s with boot := { s.boot with jtag := i } } : State).settle.scanning = true := by
    simp only [List.mem_cons, List.not_mem_nil, or_false] at hi
    rcases hi with rfl | rfl | rfl <;> rfl
  refine (gives_iff_of_done (t := s.jtagLoad i) rfl).2 ?_
  rw [hload]
  exact ⟨fun p hp => pin_of_scanning hscan hp, ⟨rfl, fun _ _ => rfl⟩⟩

/-- Settles O55: a rule per command, with the repair units, the registers and the memory that each step of the boot
leaves. -/
theorem resetsAndBoot : Obligations.ResetsAndBoot := by
  unfold Obligations.ResetsAndBoot
  exact ⟨gives_powerOnReset, gives_systemReset, fun _ pins => gives_pcieFundamentalReset_por pins,
    fun _ pins => gives_pcieFundamentalReset_trip pins, fun _ pins => gives_pcieFundamentalReset pins,
    fun _ _ => gives_fuseLoadDone_reset, fun _ _ => gives_fuseLoadDone, fun _ _ => gives_selfTestDone,
    fun _ _ => gives_bootHostGo, fun _ => gives_bootFlashTimeout, fun _ flash => gives_bootImageCheck_flash flash,
    fun _ flash => gives_bootImageCheck_host flash, fun _ => gives_bootReady, gives_idcode,
    fun _ t => gives_debug_locked t, gives_samplePreload, fun s _ hi => gives_extest s hi⟩

end Sys2Proof

namespace Sys2Proof

open Sys2Proof.Machine

/-! What bringing Clove's host side up to date leaves (R216, R217). -/

/-- The registers of Clove's host side and of its Background admission. -/
def hostSideRegs : List Reg := [CLV_BGALLOW, CLV_BGWAIT_CNT, CLV_HNE 0, CLV_HNE 1, CLV_INT]

/-- The acceptance numbers, the events queued but for their admission, and the other registers are as they were. -/
structure HostSideOnly (s t : State) : Prop where
  next : t.clove.next = s.clove.next
  queue : ∀ v ∈ s.clove.queue, ∃ b, { v with admitted := b } ∈ t.clove.queue
  rd : ∀ r : Reg, r.addr ∉ hostSideRegs.map Reg.addr → t.rd r = s.rd r

namespace HostSideOnly

theorem trans {s t u : State} (h : HostSideOnly s t) (k : HostSideOnly t u) : HostSideOnly s u where
  next := k.next.trans h.next
  queue v hv := by
    obtain ⟨b, hb⟩ := h.queue v hv
    exact k.queue { v with admitted := b } hb
  rd r hr := (k.rd r hr).trans (h.rd r hr)

theorem of_eq {s t : State} (hregs : t.regs = s.regs) (hnext : t.clove.next = s.clove.next)
    (hqueue : t.clove.queue = s.clove.queue) : HostSideOnly s t :=
  ⟨hnext, fun v hv => ⟨v.admitted, hqueue ▸ hv⟩, fun r _ => State.rd_congr hregs r⟩

theorem refl (s : State) : HostSideOnly s s := of_eq rfl rfl rfl

theorem upd (s : State) {r : Reg} (f : Word → Word) (h : r ∈ hostSideRegs) : HostSideOnly s (s.upd r f) :=
  ⟨rfl, fun v hv => ⟨v.admitted, hv⟩, fun _ hq => State.rd_upd_other s f fun he => hq (he ▸ List.mem_map_of_mem h)⟩

theorem admitted (s : State) (v : Ev) : HostSideOnly s (s.admitted v) := by
  refine ⟨rfl, fun u hu => ?_, fun _ _ => rfl⟩
  have hmap := List.mem_map_of_mem (f := fun u : Ev => if u.no = v.no then { u with admitted := true } else u) hu
  split at hmap
  · exact ⟨true, hmap⟩
  · exact ⟨u.admitted, hmap⟩

theorem bgAdmitHost (n : Nat) (s : State) : HostSideOnly s (State.bgAdmitHost n s) := by
  induction n generalizing s with
  | zero => exact refl s
  | succ n ih =>
    unfold State.bgAdmitHost
    split
    · next v _ =>
      split
      · have hcharge : HostSideOnly s (s.charge v) := upd s (fun _ => _) (by decide)
        exact (hcharge.trans (admitted _ v)).trans (ih _)
      · exact refl s
    · exact refl s

theorem bgWaits (s : State) : HostSideOnly s s.bgWaits := by
  unfold State.bgWaits
  split
  · split
    · exact (upd s (r := CLV_BGWAIT_CNT) (fun _ => _) (by decide)).trans (of_eq rfl rfl rfl)
    · exact refl s
  · exact refl s

theorem cloveHost (s : State) : HostSideOnly s s.cloveHost := by
  have h := (bgAdmitHost s.clove.queue.length s).trans (bgWaits _)
  unfold State.cloveHost
  dsimp only
  generalize (State.bgAdmitHost s.clove.queue.length s).bgWaits = t at h ⊢
  have hflows : HostSideOnly s ((t.wr (CLV_HNE 0) (t.hneBits 0)).wr (CLV_HNE 1) (t.hneBits 1)) :=
    (h.trans (upd _ (fun _ => _) (by decide))).trans (upd _ (fun _ => _) (by decide))
  split
  · exact hflows.trans (upd _ (fun _ => _) (by decide))
  · exact hflows

end HostSideOnly

/-! Acceptance (R207, R209, R218). -/

theorem consumed_next (s : State) (v : Ev) : (s.consumed v).clove.next = s.clove.next := by
  unfold State.consumed
  split <;> rfl

theorem acceptAs_next (s : State) (v : Ev) : (s.acceptAs v).clove.next = s.clove.next + 1 := by
  unfold State.acceptAs
  dsimp only
  split
  · exact consumed_next _ _
  · split
    · exact consumed_next _ _
    · exact (HostSideOnly.cloveHost _).next

/-- An event takes the next acceptance number and a place in the queue. -/
def enqueued (s : State) (v : Ev) : State :=
  { s with clove := { s.clove with next := s.clove.next + 1, queue := s.clove.queue ++ [{ v with no := s.clove.next }] } }

/-- An event whose stamp is current is queued where no pair runs. -/
theorem acceptAs_enqueued {s : State} {v : Ev} (hstale : s.stale v = false) (hani : s.rdB ANI_CTRL 0 = false) :
    s.acceptAs v = (enqueued s v).cloveHost := by
  have hstale' : ({ s with clove := { s.clove with next := s.clove.next + 1 } } : State).stale
      { v with no := s.clove.next } = false := hstale
  have hani' : ({ s with clove := { s.clove with next := s.clove.next + 1 } } : State).rdB ANI_CTRL 0 = false := hani
  unfold State.acceptAs
  simp only [hstale', hani']
  simp [enqueued]

theorem acceptAs_mem {s : State} {v : Ev} (hstale : s.stale v = false) (hani : s.rdB ANI_CTRL 0 = false) :
    ∃ b, { v with no := s.clove.next, admitted := b } ∈ (s.acceptAs v).clove.queue := by
  rw [acceptAs_enqueued hstale hani]
  exact (HostSideOnly.cloveHost (enqueued s v)).queue { v with no := s.clove.next } (by simp [enqueued])

theorem rd_acceptAs {s : State} {v : Ev} (hstale : s.stale v = false) (hani : s.rdB ANI_CTRL 0 = false) {r : Reg}
    (hr : r.addr ∉ hostSideRegs.map Reg.addr) : (s.acceptAs v).rd r = s.rd r := by
  rw [acceptAs_enqueued hstale hani]
  exact (HostSideOnly.cloveHost (enqueued s v)).rd r hr

/-! Posts through the ports (R208, R209). -/

/-- The record that a port's registers show. -/
def shownRecord (s : State) (p : Nat) (hdr : Word) : Ev :=
  { no := 0, type := bits hdr 23 16, cls := bits hdr 15 14, origin := min p 2, flow := bits hdr 11 0,
    sec := s.rd (CLV_POST_TSEC p), ns := s.rd (CLV_POST_TNS p),
    payload := (upTo 5).map (fun k => s.rd (CLV_POST_P p k)) }

theorem portEvent_unpaired {s : State} (h : s.rdB ANI_CTRL 0 = false) (p : Nat) (hdr : Word) :
    s.portEvent p hdr = shownRecord s p hdr := by
  have hword : ∀ r, s.payloadWord r = s.rd r := fun r => by simp [State.payloadWord, State.aniActive, h]
  simp only [State.portEvent, shownRecord, hword]

/-- The sequence number that a post takes: the next one through a host port, and none through another. -/
def postSeq (s : State) (p : Nat) : Option Word := if p < 2 then some (s.rd CLV_SEQ + 1) else none

/-- The record that a post through a port queues. -/
def portRecord (s : State) (p : Nat) (hdr : Word) : Ev := { shownRecord s p hdr with seq := postSeq s p }

/-- The answer OK, with the sequence number where the post takes one. -/
def postAnswered (s : State) (p : Nat) : State :=
  let t := s.wr (CLV_POST_RES p) 0
  match postSeq s p with
  | some n => (t.wr CLV_SEQ n).wr (CLV_POST_SEQ p) n
  | none => t

theorem postAnswered_only (s : State) (p : Nat) :
    OnlyRegs s (postAnswered s p) [CLV_POST_RES p, CLV_SEQ, CLV_POST_SEQ p] := by
  unfold postAnswered
  split
  · exact ((OnlyRegs.wr s _ _).trans (.wr _ _ _)).trans (.wr _ _ _)
  · exact (OnlyRegs.wr s _ _).mono (by simp)

theorem postAnswered_clove (s : State) (p : Nat) : (postAnswered s p).clove = s.clove :=
  (congrArg State.clove (postAnswered_only s p).1).trans rfl

/-- The registers of a port's answer are apart from each other, from CLV_SEQ, from those of Clove's host side, and from the
count of BUSY. -/
theorem postRegs_apart (p : Fin 4) :
    (CLV_POST_RES p).addr ≠ CLV_SEQ.addr ∧ (CLV_POST_RES p).addr ≠ (CLV_POST_SEQ p).addr ∧
      CLV_SEQ.addr ≠ (CLV_POST_SEQ p).addr ∧ (CLV_POST_RES p).addr ∉ hostSideRegs.map Reg.addr ∧
      (CLV_POST_SEQ p).addr ∉ hostSideRegs.map Reg.addr ∧ (CLV_POST_RES p).addr ≠ CLV_BUSY_CNT.addr := by
  revert p
  decide

theorem postAnswered_unpaired {s : State} (h : s.rdB ANI_CTRL 0 = false) (p : Fin 4) :
    (postAnswered s p).rdB ANI_CTRL 0 = false :=
  (congrArg (bit · 0) ((postAnswered_only s p).2 _ (by clear h; revert p; decide))).trans h

theorem postAnswered_res (s : State) (p : Fin 4) : (postAnswered s p).rd (CLV_POST_RES p) = 0 := by
  obtain ⟨hseq, hport, -⟩ := postRegs_apart p
  unfold postAnswered
  split
  · rw [State.rd_wr_other _ _ hport, State.rd_wr_other _ _ hseq, State.rd_wr_same]
  · exact State.rd_wr_same _ _ _

theorem postAnswered_seq (s : State) {p : Fin 4} (h : p.val < 2) :
    (postAnswered s p).rd CLV_SEQ = s.rd CLV_SEQ + 1 ∧ (postAnswered s p).rd (CLV_POST_SEQ p) = s.rd CLV_SEQ + 1 := by
  obtain ⟨-, -, hapart, -⟩ := postRegs_apart p
  simp [postAnswered, postSeq, h, State.rd_wr_other _ _ hapart]

/-- A post through a host port to a house flow is DENIED (R209). -/
def postDenied (p : Nat) (hdr : Word) : Bool :=
  decide (p < 2) && decide (2048 ≤ bits hdr 11 0 ∧ bits hdr 11 0 < 2304)

/-- Outside a pair the post of an agent at its own port is DENIED, BUSY, or accepted as the port's record (R208, R209). -/
theorem eventPost_unpaired {s : State} {q : Req} {p : Fin 4} {hdr : Word} (hagent : postAgent q p = true)
    (hflow : bits hdr 11 0 < 2368) (hani : s.rdB ANI_CTRL 0 = false) :
    s.eventPost q p hdr =
      if postDenied p hdr then s.wr (CLV_POST_RES p) 4#32
      else if s.postBusy (bits hdr 15 14) (bits hdr 11 0) then (s.wr (CLV_POST_RES p) 1#32).count CLV_BUSY_CNT
      else (postAnswered s p).accept (portRecord s p hdr) := by
  have hstandby : s.aniStandby = false := by simp [State.aniStandby, hani]
  have hactive : (postAnswered s p).aniActive = false := by simp [State.aniActive, postAnswered_unpaired hani p]
  have hknown : ¬ 2368 ≤ (shownRecord s p hdr).flow := Nat.not_le.2 hflow
  have hseq : (s.wr (CLV_POST_RES p) 0).rd CLV_SEQ = s.rd CLV_SEQ := State.rd_wr_other s 0 (postRegs_apart p).1.symm
  unfold State.eventPost
  rw [if_neg (by simp [hagent]), portEvent_unpaired hani]
  dsimp only
  rw [if_neg (by simp [hstandby]), if_neg hknown, if_neg (by simp [hstandby]), hseq]
  refine ite_congr rfl (fun _ => rfl) fun _ => ite_congr rfl (fun _ => rfl) fun _ => ?_
  unfold portRecord
  unfold postAnswered postSeq at hactive ⊢
  by_cases hp : p.val < 2
  · rw [if_pos hp] at hactive ⊢
    rw [if_pos hp]
    exact if_neg (Bool.eq_false_iff.1 hactive)
  · rw [if_neg hp, if_neg hp]
    rfl

section PortAccepted

variable {s : State} (hani : s.rdB ANI_CTRL 0 = false) (p : Fin 4) (hdr : Word)
include hani

/-- The port's registers show the answer and, for a host port, the sequence number. -/
theorem portAccepted_regs : let u := (postAnswered s p).accept (portRecord s p hdr)
    u.rd (CLV_POST_RES p) = 0 ∧
      (p.val < 2 → u.rd CLV_SEQ = s.rd CLV_SEQ + 1 ∧ u.rd (CLV_POST_SEQ p) = s.rd CLV_SEQ + 1) := by
  obtain ⟨-, -, -, hres, hseq, -⟩ := postRegs_apart p
  have hani' := postAnswered_unpaired hani p
  dsimp only
  unfold State.accept
  rw [rd_acceptAs rfl hani' hres, rd_acceptAs rfl hani' hseq, rd_acceptAs rfl hani' (by decide)]
  exact ⟨postAnswered_res s p, postAnswered_seq s⟩

/-- The port's record is queued under the next acceptance number. -/
theorem portAccepted_queued : let u := (postAnswered s p).accept (portRecord s p hdr)
    u.clove.next = s.clove.next + 1 ∧
      ∃ v ∈ u.clove.queue, v.no = s.clove.next ∧ v.flow = bits hdr 11 0 ∧ v.cls = bits hdr 15 14 ∧
        v.type = bits hdr 23 16 ∧ v.origin = min p.val 2 ∧ v.payload = (upTo 5).map (fun k => s.rd (CLV_POST_P p k)) ∧
        (bits hdr 15 14 = 1 → v.sec = s.rd (CLV_POST_TSEC p) ∧ v.ns = s.rd (CLV_POST_TNS p)) := by
  have hani' := postAnswered_unpaired hani p
  obtain ⟨b, hb⟩ := acceptAs_mem (v := (postAnswered s p).stamped (portRecord s p hdr)) rfl hani'
  refine ⟨?_, _, hb, congrArg Clove.next (postAnswered_clove s p), rfl, rfl, rfl, rfl, rfl, fun hcls => ?_⟩
  · rw [State.accept, acceptAs_next, postAnswered_clove]
  · exact ⟨if_pos hcls, if_pos hcls⟩

end PortAccepted

/-- A write of a port's header by a requester that may write it is a post, while nothing holds the device (R208). -/
theorem gives_eventPost {s : State} {q : Req} {p : Fin 4} {hdr : Word} (hwriter : writerOk q (CLV_POST_HDR p) = true)
    (hheld : s.held = false) {P : State → Prop} :
    Gives (.eventPost q p hdr) s P ↔ P ((s.respond 0 false).eventPost q p hdr).settle := by
  refine gives_iff_of_done ?_
  change execEventPost q p hdr s = _
  simp [execEventPost, hwriter, hheld]

/-! Posts from the outboxes (R210, R218). -/

theorem TimeOnly.obox {g h : Engine} (x : TimeOnly g h) : h.obox = g.obox := (congrArg Engine.obox x).trans rfl

/-- A slot is taken: the note of its store is cleared, and the external port is busy with it (R179). -/
def outboxTaken (s : State) (e o : Nat) : State :=
  let g := s.engAt e
  s.setEng e { g.takePort 1 (g.portSlot 1) 3 with obox := sset 0 g.obox o 0 }

theorem outboxTaken_note (s : State) (e o : Nat) : sget 0 ((outboxTaken s e o).eng e).obox o = 0 := by
  unfold outboxTaken
  rw [State.eng_setEng_same]
  exact sget_sset_same 0 _ o 0

/-- The external port writes a word, its bytes in cycle `c`. -/
def portWord (s : State) (e a c : Nat) (x : Word) : State :=
  s.portWrite e ((wordBytes [x]).zipIdx.map (fun b => (c, a + b.2, b.1)))

theorem wordBytes_one (x : Word) :
    wordBytes [x] = [x.extractLsb' 0 8, x.extractLsb' 8 8, x.extractLsb' 16 8, x.extractLsb' 24 8] := by
  have hbyte : ∀ i, BitVec.ofNat 8 (x.toNat / 256 ^ i) = x.extractLsb' (8 * i) 8 := fun i => by
    apply BitVec.eq_of_toNat_eq
    rw [BitVec.toNat_ofNat, BitVec.extractLsb'_toNat, Nat.shiftRight_eq_div_pow, Nat.pow_mul]
  exact congrArg₂ List.cons (hbyte 0) (congrArg₂ List.cons (hbyte 1) (congrArg₂ List.cons (hbyte 2)
    (congrArg (List.cons · []) (hbyte 3))))

theorem portWord_mem (s : State) (e a c : Nat) (x : Word) : (portWord s e a c x).mem = putWord s.mem a x := by
  unfold portWord
  rw [wordBytes_one]
  rfl

theorem portWord_clove (s : State) (e a c : Nat) (x : Word) : (portWord s e a c x).clove = s.clove := rfl

theorem portWord_obox (s : State) (e a c : Nat) (x : Word) : ((portWord s e a c x).eng e).obox = (s.eng e).obox := by
  have htime : TimeOnly (s.eng e) (s.engAt e) := TimeOnly.engTo _ _
  exact (congrArg Engine.obox (State.eng_setEng_same s e _)).trans htime.obox

/-- Word `i` of an outbox slot. -/
def slotWord (s : State) (e o i : Nat) : Word := wordOf s.mem (dmemAddr e (outboxWord o) + 4 * i)

/-- The record of a slot, under the flow and the epoch noted at its store (R210, R218). -/
def outboxRecord (s : State) (e o st : Nat) : Ev :=
  { no := 0, type := bits (slotWord s e o 0) 23 16, cls := bits (slotWord s e o 0) 15 14, origin := 3,
    flow := bits (slotWord s e o 0) 11 0, sec := slotWord s e o 1, ns := slotWord s e o 2 &&& 0x3FFFFFFF#32,
    payload := (upTo 5).map (fun k => slotWord s e o (3 + k)), srcFlow := some (st / 256), epoch := st % 256 }

/-- A noted slot with origin 0b11 and a known flow is dropped where a post would be BUSY, and else accepted (R210). -/
theorem outboxPost_eq {s : State} {e o st : Nat} (hnote : sget 0 (s.eng e).obox o = st + 1)
    (horigin : bits (slotWord s e o 0) 13 12 = 3) (hflow : bits (slotWord s e o 0) 11 0 < 2368) :
    let t := outboxTaken s e o
    let a := dmemAddr e (outboxWord o)
    let c := (s.engAt e).portSlot 1 + 2
    s.outboxPost e o =
      if s.postBusy (bits (slotWord s e o 0) 15 14) (bits (slotWord s e o 0) 11 0) then
        portWord ((t.count CLV_DROP_CNT).raise CLV_INT 4#32) e a c 1
      else (portWord t e a c 0).accept (outboxRecord s e o st) := by
  have htime : TimeOnly (s.eng e) (s.engAt e) := TimeOnly.engTo _ _
  have hnote' : sget 0 (s.engAt e).obox o = st + 1 := by rw [htime.obox, hnote]
  unfold slotWord at horigin hflow
  unfold State.outboxPost
  dsimp only
  rw [hnote']
  dsimp only
  rw [if_pos horigin, if_neg (Nat.not_le.2 hflow)]
  rfl

section OutboxAccepted

variable {s : State} (e o st a c : Nat)

/-- The acceptance of a slot's record clears word 0 and takes the next acceptance number. -/
theorem outboxAccepted_frame : let u := (portWord (outboxTaken s e o) e a c 0).accept (outboxRecord s e o st)
    sget 0 (u.eng e).obox o = 0 ∧ u.mem = putWord s.mem a 0 ∧ u.clove.next = s.clove.next + 1 := by
  have hkeeps := keeps_acceptAs (portWord (outboxTaken s e o) e a c 0)
    ((portWord (outboxTaken s e o) e a c 0).stamped (outboxRecord s e o st))
  refine ⟨?_, ?_, acceptAs_next _ _⟩
  · rw [State.accept, hkeeps.eng, portWord_obox, outboxTaken_note]
  · exact hkeeps.2.1.trans (portWord_mem _ e a c 0)

/-- A record whose epoch is current is queued (R218). -/
theorem outboxAccepted_queued (hani : s.rdB ANI_CTRL 0 = false) (hepoch : st % 256 = s.epochOf (st / 256)) :
    ∃ v ∈ ((portWord (outboxTaken s e o) e a c 0).accept (outboxRecord s e o st)).clove.queue,
      v.no = s.clove.next ∧ v.flow = bits (slotWord s e o 0) 11 0 ∧ v.origin = 3 ∧
      v.payload = [slotWord s e o 3, slotWord s e o 4, slotWord s e o 5, slotWord s e o 6, slotWord s e o 7] ∧
      v.srcFlow = some (st / 256) := by
  have hstale : (portWord (outboxTaken s e o) e a c 0).stale
      ((portWord (outboxTaken s e o) e a c 0).stamped (outboxRecord s e o st)) = false := bne_eq_false_iff_eq.2 hepoch
  obtain ⟨b, hb⟩ := acceptAs_mem hstale hani
  exact ⟨_, hb, rfl, rfl, rfl, rfl, rfl⟩

end OutboxAccepted

/-- A word written is found, and every byte outside it is as it was. -/
theorem putWord_spec (m : List (Nat × Byte)) (a : Nat) (x : Word) :
    wordOf (putWord m a x) a = x ∧ ∀ j, (∀ i < 4, j ≠ a + i) → sget 0 (putWord m a x) j = sget 0 m j := by
  refine ⟨putWord_same m a x, fun j hj => putWord_other m x ?_⟩
  have h0 := hj 0 (by decide)
  have h1 := hj 1 (by decide)
  have h2 := hj 2 (by decide)
  have h3 := hj 3 (by decide)
  omega

/-- A post through a port: DENIED and BUSY leave Clove as it is, and OK queues the port's record (R209). -/
theorem gives_portPost {s : State} {q : Req} {p : Fin 4} {hdr : Word} (hwriter : writerOk q (CLV_POST_HDR p) = true)
    (hheld : s.held = false) (hagent : postAgent q p = true) (hflow : bits hdr 11 0 < 2368)
    (hani : s.rdB ANI_CTRL 0 = false) : Gives (.eventPost q p hdr) s fun u =>
      let cls := bits hdr 15 14
      let flow := bits hdr 11 0
      (p.val < 2 → 2048 ≤ flow → flow < 2304 → u.rd (CLV_POST_RES p) = 4 ∧ u.clove = s.clove) ∧
      (¬ (p.val < 2 ∧ 2048 ≤ flow ∧ flow < 2304) → s.postBusy cls flow = true →
        u.rd (CLV_POST_RES p) = 1 ∧ u.clove = s.clove ∧
        u.rdF CLV_BUSY_CNT 31 0 = min (s.rdF CLV_BUSY_CNT 31 0 + 1) (2 ^ 32 - 1)) ∧
      (¬ (p.val < 2 ∧ 2048 ≤ flow ∧ flow < 2304) → s.postBusy cls flow = false →
        u.rd (CLV_POST_RES p) = 0 ∧ u.clove.next = s.clove.next + 1 ∧
        (p.val < 2 → u.rd CLV_SEQ = s.rd CLV_SEQ + 1 ∧ u.rd (CLV_POST_SEQ p) = s.rd CLV_SEQ + 1) ∧
        ∃ v ∈ u.clove.queue, v.no = s.clove.next ∧ v.flow = flow ∧ v.cls = cls ∧ v.type = bits hdr 23 16 ∧
          v.origin = min p.val 2 ∧ v.payload = (upTo 5).map (fun k => s.rd (CLV_POST_P p k)) ∧
          (cls = 1 → v.sec = s.rd (CLV_POST_TSEC p) ∧ v.ns = s.rd (CLV_POST_TNS p))) := by
  have hani' : (s.respond 0 false).rdB ANI_CTRL 0 = false := hani
  rw [gives_eventPost hwriter hheld, eventPost_unpaired hagent hflow hani']
  have hbusy : ∀ cls flow, (s.respond 0 false).postBusy cls flow = s.postBusy cls flow := fun _ _ => rfl
  simp only [postDenied, Bool.and_eq_true, decide_eq_true_eq, hbusy]
  refine ⟨fun hp hlo hhi => ?_, fun hden hb => ?_, fun hden hb => ?_⟩
  · rw [if_pos ⟨hp, hlo, hhi⟩]
    rw [State.rd_settle, State.rd_wr_same]
    exact ⟨rfl, rfl⟩
  · rw [if_neg hden, if_pos hb]
    obtain ⟨-, -, -, -, -, hapart⟩ := postRegs_apart p
    refine ⟨?_, rfl, ?_⟩
    · exact (State.rd_count_other _ hapart).trans (State.rd_wr_same _ _ _)
    · rw [State.rdF_settle, rdF_count_same, State.rdF, State.rd_wr_other _ _ hapart.symm]
      rfl
  · rw [if_neg hden, if_neg (by simp [hb])]
    obtain ⟨hres, hseq⟩ := portAccepted_regs hani' p hdr
    obtain ⟨hnext, hqueued⟩ := portAccepted_queued hani' p hdr
    exact ⟨hres, hnext, hseq, hqueued⟩

/-- A post in an outbox slot: word 0 shows whether it was dropped or accepted, and all else of the memory stays (R210). -/
theorem gives_outboxPost {s : State} {e : Fin 32} {o : Fin 8} {st : Nat} (hnote : sget 0 (s.eng e).obox o = st + 1)
    (horigin : bits (slotWord s e o 0) 13 12 = 3) (hflow : bits (slotWord s e o 0) 11 0 < 2368)
    (hani : s.rdB ANI_CTRL 0 = false) : Gives (.outboxPost e o) s fun u =>
      let busy := s.postBusy (bits (slotWord s e o 0) 15 14) (bits (slotWord s e o 0) 11 0)
      let a := dmemAddr e (outboxWord o)
      sget 0 (u.eng e).obox o = 0 ∧
      (busy = true → wordOf u.mem a = 1 ∧ u.clove = s.clove) ∧
      (busy = false → wordOf u.mem a = 0 ∧ u.clove.next = s.clove.next + 1 ∧
        (st % 256 = s.epochOf (st / 256) → ∃ v ∈ u.clove.queue, v.no = s.clove.next ∧
          v.flow = bits (slotWord s e o 0) 11 0 ∧ v.origin = 3 ∧
          v.payload = [slotWord s e o 3, slotWord s e o 4, slotWord s e o 5, slotWord s e o 6, slotWord s e o 7] ∧
          v.srcFlow = some (st / 256))) ∧
      (∀ j, (∀ i < 4, j ≠ a + i) → sget 0 u.mem j = sget 0 s.mem j) := by
  refine (gives_iff_of_done (t := s.outboxPost e o) rfl).2 ?_
  rw [outboxPost_eq hnote horigin hflow]
  cases hbusy : s.postBusy (bits (slotWord s e o 0) 15 14) (bits (slotWord s e o 0) 11 0)
  · rw [if_neg (by decide)]
    obtain ⟨hfree, hmem, hnext⟩ := outboxAccepted_frame (s := s) e o st (dmemAddr e (outboxWord o))
      ((s.engAt e).portSlot 1 + 2)
    obtain ⟨hzero, hrest⟩ := putWord_spec s.mem (dmemAddr e (outboxWord o)) 0
    rw [← hmem] at hzero hrest
    exact ⟨hfree, nofun, fun _ => ⟨hzero, hnext, outboxAccepted_queued e o st _ _ hani⟩, hrest⟩
  · rw [if_pos rfl]
    obtain ⟨hone, hrest⟩ := putWord_spec s.mem (dmemAddr e (outboxWord o)) 1
    simp only [State.settle_mem, State.eng_settle, State.settle_clove, portWord_mem, portWord_obox, portWord_clove]
    exact ⟨outboxTaken_note s e o, fun _ => ⟨hone, rfl⟩, nofun, hrest⟩

/-- Settles O34: a post through a port (`gives_portPost`) and one in an outbox slot (`gives_outboxPost`). -/
theorem eventPosts : Obligations.EventPosts := by
  unfold Obligations.EventPosts
  exact ⟨fun _ _ _ _ hwriter hheld hagent hflow hani => gives_portPost hwriter hheld hagent hflow hani,
    fun _ _ _ _ hnote horigin hflow hani => gives_outboxPost hnote horigin hflow hani⟩

end Sys2Proof

namespace Sys2Proof

open Sys2Proof.Machine

/-! Commits and group requests of the audio ports (R229, R236). -/

/-- A write of SAP_GRP_CTRL that starts no port with a format that the rate makes invalid is added to what is pending
(R224, R236). -/
theorem sapGrpWrite_accepted {s : State} (q : Req) {d : Word} (hlow : d &&& 0xFF#32 = d)
    (hvalid : ∀ n < 24, ∀ k, s.rdF (SAP_CTRL n) 10 8 = k + 1 → bit d k = true →
      fmtValid (s.rd (SAP_FMT n)) (s.sapAsync n) (s.rdF SYS_FRM_CTRL 1 0) = true) :
    s.sapGrpWrite q d = s.upd SAP_GRP_CTRL (fun w => w ||| d) := by
  unfold State.sapGrpWrite
  dsimp only
  rw [hlow, if_neg]
  rw [Bool.not_eq_true, List.any_eq_false]
  intro n hn
  split
  · exact Bool.false_ne_true
  · next k hk =>
    cases hb : bit d k
    · exact Bool.false_ne_true
    · simp [hvalid n (List.mem_range.1 hn) k hk hb]

/-- An accepted request shows in SAP_GRP_CTRL, and nowhere else. -/
theorem grpRequest_pending {s : State} {q : Req} {d : Word}
    (h : (s.respond 0 false).sapGrpWrite q d = (s.respond 0 false).upd SAP_GRP_CTRL (fun w => w ||| d)) :
    ((s.respond 0 false).sapGrpWrite q d).settle.rd SAP_GRP_CTRL = s.rd SAP_GRP_CTRL ||| d ∧
    OnlyRegs s ((s.respond 0 false).sapGrpWrite q d).settle [SAP_GRP_CTRL] := by
  rw [h, State.rd_settle]
  exact ⟨State.rd_upd_same _ _ _, OnlyRegs.after_respond (.upd _ _ _)⟩

/-- The start bits of SAP_GRP_CTRL are bits 3 to 0, and the stop bits 7 to 4 (R239). -/
theorem grpBits_low : ∀ g : BitVec 4, g.zeroExtend 32 &&& 0xFF#32 = g.zeroExtend 32 ∧
    (g.zeroExtend 32 <<< 4) &&& 0xFF#32 = g.zeroExtend 32 <<< 4 := by decide

theorem bit_grpBits : ∀ g : BitVec 4, ∀ k < 4, bit (g.zeroExtend 32) k = g.getLsbD k ∧
    bit (g.zeroExtend 32 <<< 4) k = false := by decide

theorem gives_slotMaskCommit {s : State} {q : Req} {n : Fin 24} (h : Reaches s q (SAP_COMMIT n)) :
    Gives (.slotMaskCommit q n) s fun u =>
      u.rd (SAP_COMMIT n) = 1 ∧ u.rdB (SAP_STAT n) 3 = true ∧ OnlyRegs s u [SAP_COMMIT n, SAP_STAT n] := by
  refine gives_gated (f := fun s => s.sapCommit n 1#32) rfl h ?_
  show _ ∧ _ ∧ OnlyRegs s (((s.respond 0 false).wr (SAP_COMMIT n) 1#32).wrB (SAP_STAT n) 3 true).settle _
  refine ⟨?_, rdB_wrB_same _ _ (by decide) _, OnlyRegs.after_respond ((OnlyRegs.wr _ _ _).trans (.wrB _ _ _ _))⟩
  exact (State.rd_wrB_other _ _ _ (by simp [SAP_COMMIT, SAP_STAT])).trans (State.rd_wr_same _ _ _)

section GroupRequests

variable {s : State} {q : Req} {g : BitVec 4}

theorem gives_groupStart (h : Reaches s q SAP_GRP_CTRL)
    (hvalid : ∀ n < 24, s.rdF (SAP_CTRL n) 10 8 ≤ 4 ∧ ∀ k < 4, s.rdF (SAP_CTRL n) 10 8 = k + 1 → g.getLsbD k = true →
      fmtValid (s.rd (SAP_FMT n)) (s.sapAsync n) (s.rdF SYS_FRM_CTRL 1 0) = true) :
    Gives (.groupStart q g) s fun u =>
      u.rd SAP_GRP_CTRL = s.rd SAP_GRP_CTRL ||| g.zeroExtend 32 ∧ OnlyRegs s u [SAP_GRP_CTRL] := by
  refine gives_gated (f := fun s => s.sapGrpWrite q (g.zeroExtend 32)) rfl h
    (grpRequest_pending (sapGrpWrite_accepted q (grpBits_low g).1 fun n hn k hgrp hbit => ?_))
  obtain ⟨hle, hfmt⟩ := hvalid n hn
  have hk : k + 1 ≤ 4 := hgrp ▸ hle
  exact hfmt k hk hgrp ((bit_grpBits g k hk).1.symm.trans hbit)

theorem gives_groupStop (h : Reaches s q SAP_GRP_CTRL) (hgroup : ∀ n < 24, s.rdF (SAP_CTRL n) 10 8 ≤ 4) :
    Gives (.groupStop q g) s fun u =>
      u.rd SAP_GRP_CTRL = s.rd SAP_GRP_CTRL ||| (g.zeroExtend 32 <<< 4) ∧ OnlyRegs s u [SAP_GRP_CTRL] := by
  refine gives_gated (f := fun s => s.sapGrpWrite q (g.zeroExtend 32 <<< 4)) rfl h
    (grpRequest_pending (sapGrpWrite_accepted q (grpBits_low g).2 fun n hn k hgrp hbit => ?_))
  have hk : k + 1 ≤ 4 := hgrp ▸ hgroup n hn
  rw [(bit_grpBits g k hk).2] at hbit
  cases hbit

end GroupRequests

/-! Channel status of the transmitters (R248). -/

theorem aesT_setAesT_same (s : State) (n : Nat) (p : AesTx) : (s.setAesT n p).aesT n = p := sget_sset_same _ _ _ _

/-- At a Z preamble the staged bits become live where they are committed, and no commit waits any more. -/
theorem aesTxTake_spec (s : State) (n : Nat) :
    ((s.aesTxTake n).aesT n).live = (if s.rdB (AES_TX_COMMIT n) 0 then s.aesStaged n else (s.aesT n).live) ∧
    (s.aesTxTake n).rdB (AES_TX_COMMIT n) 0 = false ∧ (s.aesTxTake n).mem = s.mem := by
  unfold State.aesTxTake
  cases hc : s.rdB (AES_TX_COMMIT n) 0
  · exact ⟨rfl, hc, rfl⟩
  · rw [if_pos rfl, aesT_setAesT_same]
    exact ⟨rfl, congrArg (bit · 0) (State.rd_wr_same s (AES_TX_COMMIT n) 0), rfl⟩

theorem gives_aesTxCommit {s : State} {q : Req} {n : Fin 8} (h : Reaches s q (AES_TX_COMMIT n)) :
    Gives (.aesTxCommit q n) s fun u => u.rd (AES_TX_COMMIT n) = 1 ∧ OnlyRegs s u [AES_TX_COMMIT n] :=
  gives_gated (f := fun s => s.aesTxCommitW n 1#32) rfl h
    ⟨(State.rd_settle _ _).trans (State.rd_wr_same _ _ _), OnlyRegs.after_respond (.wr _ _ _)⟩

theorem gives_aesTxBlockStart {s : State} {n : Fin 8} (hrun : s.rdB (AES_TX_STAT n) 0 = true) :
    Gives (.aesTxBlockStart n) s fun u =>
      (u.aesT n).idx = 0 ∧ u.rdB (AES_TX_COMMIT n) 0 = false ∧ u.mem = s.mem ∧
      (u.aesT n).live = (if s.rdB (AES_TX_COMMIT n) 0 then s.aesStaged n else (s.aesT n).live) := by
  refine (gives_iff_of_done (t := s.aesTxZ n) rfl).2 ?_
  obtain ⟨hlive, hcommit, hmem⟩ := aesTxTake_spec s n
  rw [State.aesTxZ, if_pos hrun]
  show ((State.setAesT _ _ _).aesT n).idx = 0 ∧ _ ∧ _ ∧ ((State.setAesT _ _ _).aesT n).live = _
  rw [aesT_setAesT_same]
  exact ⟨rfl, hcommit, hmem, hlive⟩

/-! The rate converters (R249, R250). -/

theorem gives_srcCommit {s : State} {q : Req} (h : Reaches s q SRC_COMMIT) :
    Gives (.srcCommit q) s fun u => u.rd SRC_COMMIT = 1 ∧ OnlyRegs s u [SRC_COMMIT] :=
  gives_gated (f := fun s => s.srcCommitW 1#32) rfl h
    ⟨(State.rd_settle _ _).trans (State.rd_wr_same _ _ _), OnlyRegs.after_respond (.wr _ _ _)⟩

/-- A channel that has acquired its input, with its flag and its lock bit. -/
def channelLocked (s : State) (c : Nat) : State :=
  ((s.setSrcCh c { s.srcCh c with st := .locked }).raise SRC_INT 1#32).wrB (SRC_LOCK (c / 32)) (c % 32) true

theorem srcLockNow_acquired {s : State} {c : Nat} (hst : (s.srcCh c).st = .acquiring) (hgood : 4096 ≤ (s.srcCh c).good) :
    s.srcLockNow c = channelLocked s c := by
  simp [State.srcLockNow, channelLocked, hst, hgood]

theorem srcInt_ne_srcLock (i : Nat) : SRC_INT.addr ≠ (SRC_LOCK i).addr := by
  simp only [SRC_INT, SRC_LOCK]
  omega

theorem gives_srcLock {s : State} {c : Fin 256} (hst : (s.srcCh c).st = .acquiring) (hgood : 4096 ≤ (s.srcCh c).good) :
    Gives (.srcLock c) s fun u =>
      u.srcCh c = { s.srcCh c with st := .locked } ∧ u.rdB SRC_INT 0 = true ∧ u.rdB (SRC_LOCK (c / 32)) (c % 32) = true ∧
      (∀ r : Reg, r.addr ≠ SRC_INT.addr → r.addr ≠ (SRC_LOCK (c / 32)).addr → u.rd r = s.rd r) ∧ u.mem = s.mem := by
  refine (gives_iff_of_done (t := s.srcLockNow c) rfl).2 ?_
  rw [srcLockNow_acquired hst hgood]
  refine ⟨sget_sset_same _ _ _ _, ?_, rdB_wrB_same _ _ (Nat.mod_lt _ (by decide)) _, fun r hint hlock => ?_, rfl⟩
  · rw [State.rdB_settle, channelLocked, rdB_wrB_other _ (srcInt_ne_srcLock _), State.rdB, State.rd_raise_same, bit_or]
    exact Bool.or_true _
  · exact (State.rd_wrB_other _ _ _ hlock).trans (State.rd_raise_other _ _ hint)

/-- Settles O36: each clause is its command's (`gives_slotMaskCommit`, `gives_groupStart`, `gives_groupStop`,
`gives_aesTxCommit`, `gives_aesTxBlockStart`, `gives_srcCommit`, `gives_srcLock`). -/
theorem portCommitsWait : Obligations.PortCommitsWait := by
  unfold Obligations.PortCommitsWait
  exact ⟨fun _ _ _ => gives_slotMaskCommit, fun _ _ _ => gives_groupStart, fun _ _ _ => gives_groupStop,
    fun _ _ _ => gives_aesTxCommit, fun _ _ => gives_aesTxBlockStart, fun _ _ => gives_srcCommit,
    fun _ _ => gives_srcLock⟩

end Sys2Proof

namespace Sys2Proof

open Sys2Proof.Machine

/-! A ring fetch that leaves the Sample Pool (R235, R239). -/

/-- Port 0 is fed from a ring with SAPn_RINGCFG 0, so that block 129,054 plays next from entry 129,054: the last 16 bytes of
that entry are quad 0 of engine 0. The engine runs a slice whose bundle stores 1 at word 0 of its DMEM, and has no
half-cycle free. -/
def strayRing : State :=
  { (((((State.reset.wr TST_MEM_STAT 0x80000000#32).wr (SAP_STAT 0) 1#32).wr (SAP_CTRL 0) 8#32).wr
      (SAP_RINGCFG 0) 0#32).wr (SAP_TXRING 0) 1072#32).wr SYS_FRM_BLOCK 129053#32 with
    frame := { win := .strip, ticking := true },
    engs := [(0, { cur := some 0, spare := 0, main := { d := [(0, L4.all 1#32)] } })],
    mem := putWord [] (pmemAddr 0 0 + 4) ((encodeBundle { Bundle.nop with x := .stw 0 0 0 }).extractLsb' 32 32) }

/-- The fetch waits for a half-cycle of the engine, and the program's store is made meanwhile (R52). -/
theorem mem_strayRing : wordOf (strayRing.sapRingFetch 0).mem (dmemAddr 0 0) = 1 ∧
    wordOf strayRing.mem (dmemAddr 0 0) = 0 := by decide +kernel

/-- Refutes O37: with SAPn_RINGCFG 0 the ring fetch reads the DMEM of an engine, whose program goes on and stores while the
fetch waits, so the memory changes. R239 rejects a write of that value; the statement asks nothing of the number of
entries. -/
theorem not_serialFrames : ¬ Obligations.SerialFrames := by
  unfold Obligations.SerialFrames
  rintro ⟨-, -, -, h⟩
  have hgives := h strayRing 0 (by decide) (by decide) (.inl rfl) (by decide) (by decide) (by decide)
  obtain ⟨_, -, -, -, hmem⟩ := (gives_iff_of_done (t := strayRing.sapRingFetch 0) rfl).1 hgives
  obtain ⟨hafter, hbefore⟩ := mem_strayRing
  rw [State.settle_mem] at hmem
  rw [hmem, hbefore] at hafter
  exact absurd hafter (by decide)

end Sys2Proof

namespace Sys2Proof

open Sys2Proof.Machine

/-! What a lost input brings about outside the AES3 ports: converters unlock (R250) and Saffron selects (R296, R303). -/

/-- The memory, the receivers and the registers of the AES3 ports (R253) are as they were. -/
structure KeepsAesPorts (s t : State) : Prop where
  mem : t.mem = s.mem
  aesRx : t.aesRx = s.aesRx
  rd : ∀ r : Reg, 0x50070000 ≤ r.addr → r.addr < 0x50080000 → t.rd r = s.rd r

/-- A register outside the page of the AES3 ports. -/
abbrev OffAesPage (r : Reg) : Prop := r.addr < 0x50070000 ∨ 0x50080000 ≤ r.addr

theorem offAesPage_srcLock (i : Nat) : OffAesPage (SRC_LOCK i) := .inr (by simp only [SRC_LOCK]; omega)

theorem offAesPage_refStat {i : Nat} (hi : i < 8) : OffAesPage (SAF_REF_STAT i) := .inl (by simp only [SAF_REF_STAT]; omega)

namespace KeepsAesPorts

variable {s t : State}

theorem refl (s : State) : KeepsAesPorts s s := ⟨rfl, rfl, fun _ _ _ => rfl⟩

theorem ite {c : Prop} [Decidable c] {u : State} (ht : KeepsAesPorts s t) (hu : KeepsAesPorts s u) :
    KeepsAesPorts s (if c then t else u) := by
  split
  · exact ht
  · exact hu

theorem each {α : Type} {f : State → α → State} {l : List α}
    (hf : ∀ t, ∀ x ∈ l, KeepsAesPorts s t → KeepsAesPorts s (f t x)) (h : KeepsAesPorts s t) :
    KeepsAesPorts s (t.each l f) := by
  induction l generalizing t with
  | nil => exact h
  | cons x l ih =>
    exact ih (fun t y hy => hf t y (List.mem_cons_of_mem _ hy)) (hf t x List.mem_cons_self h)

theorem upd {r : Reg} {f : Word → Word} (h : KeepsAesPorts s t) (hr : OffAesPage r := by decide) :
    KeepsAesPorts s (t.upd r f) :=
  ⟨h.mem, h.aesRx, fun q hlo hhi => (State.rd_upd_other t f (by omega)).trans (h.rd q hlo hhi)⟩

theorem wr {r : Reg} {v : Word} (h : KeepsAesPorts s t) (hr : OffAesPage r := by decide) : KeepsAesPorts s (t.wr r v) :=
  h.upd (f := fun _ => v) hr

theorem raise {r : Reg} {m : Word} (h : KeepsAesPorts s t) (hr : OffAesPage r := by decide) :
    KeepsAesPorts s (t.raise r m) := h.upd hr

theorem countF {r : Reg} {hi lo n : Nat} (h : KeepsAesPorts s t) (hr : OffAesPage r := by decide) :
    KeepsAesPorts s (t.countF r hi lo n) := h.upd hr

theorem count {r : Reg} (h : KeepsAesPorts s t) (hr : OffAesPage r := by decide) : KeepsAesPorts s (t.count r) :=
  h.countF hr

theorem wrB {r : Reg} {i : Nat} {b : Bool} (h : KeepsAesPorts s t) (hr : OffAesPage r := by decide) :
    KeepsAesPorts s (t.wrB r i b) := h.upd hr

theorem wrF {r : Reg} {hi lo v : Nat} (h : KeepsAesPorts s t) (hr : OffAesPage r := by decide) :
    KeepsAesPorts s (t.wrF r hi lo v) := h.upd hr

theorem setSrcCh {c : Nat} {x : SrcCh} (h : KeepsAesPorts s t) : KeepsAesPorts s (t.setSrcCh c x) := ⟨h.mem, h.aesRx, h.rd⟩

theorem withSaf {x : Saf} (h : KeepsAesPorts s t) : KeepsAesPorts s { t with saf := x } := ⟨h.mem, h.aesRx, h.rd⟩

theorem srcUnlock {c : Nat} (h : KeepsAesPorts s t) : KeepsAesPorts s (t.srcUnlock c) :=
  .ite (h.setSrcCh.count.raise.wrB (offAesPage_srcLock _)) h.setSrcCh

theorem srcLoss {kind ix : Nat} (h : KeepsAesPorts s t) : KeepsAesPorts s (t.srcLoss kind ix) := by
  unfold State.srcLoss
  split
  · exact h.srcUnlock
  · exact h

theorem setSafState {v : Nat} (h : KeepsAesPorts s t) : KeepsAesPorts s (t.setSafState v) := h.wrF

theorem aim {v : Int} (h : KeepsAesPorts s t) : KeepsAesPorts s (t.aim v) := h.withSaf

theorem setRem {ps : Int} (h : KeepsAesPorts s t) : KeepsAesPorts s (t.setRem ps) := h.withSaf.wr

theorem setSlew {p : Int} (h : KeepsAesPorts s t) : KeepsAesPorts s (t.setSlew p) :=
  have hslew : KeepsAesPorts s { t with slew := p } := ⟨h.mem, h.aesRx, h.rd⟩
  hslew.wrB

theorem refDisq {i : Nat} (hi : i < 8) (h : KeepsAesPorts s t) : KeepsAesPorts s (t.refDisq i) :=
  (h.wrF (offAesPage_refStat hi)).count.raise

theorem toHoldover (h : KeepsAesPorts s t) : KeepsAesPorts s t.toHoldover :=
  .ite h.withSaf.setSafState.aim.count.raise.wr h.withSaf.setSafState.aim

theorem startSwitch (h : KeepsAesPorts s t) : KeepsAesPorts s t.startSwitch :=
  (KeepsAesPorts.ite h.count h).setSafState.setRem.setSlew.aim.withSaf

theorem refSelect (h : KeepsAesPorts s t) : KeepsAesPorts s t.refSelect := by
  unfold State.refSelect
  extract_lets _ _ _ selected flagged
  have hselected : KeepsAesPorts s selected := h.wrB.wrF.wrF
  have hflagged : KeepsAesPorts s flagged := .ite hselected.raise hselected
  exact .ite h (.ite hflagged (.ite (.ite hflagged.startSwitch hflagged) (.ite hflagged.toHoldover hflagged)))

theorem losMark {i : Nat} (hi : i < 8) (h : KeepsAesPorts s t) : KeepsAesPorts s (t.losMark i) := by
  unfold State.losMark
  extract_lets marked disqualified
  have hmarked : KeepsAesPorts s marked := (h.wrB (offAesPage_refStat hi)).raise.count
  have hdisqualified : KeepsAesPorts s disqualified := .ite hmarked (hmarked.refDisq hi)
  exact .ite (.ite hdisqualified.toHoldover hdisqualified) h

theorem losAll {is : List Nat} (his : ∀ i ∈ is, i < 8) (h : KeepsAesPorts s t) : KeepsAesPorts s (t.losAll is) :=
  have hmarked : KeepsAesPorts s (t.each is fun u i => u.losMark i) := .each (fun _ i hi h => h.losMark (his i hi)) h
  .ite hmarked.refSelect hmarked

theorem losSource {src ix : Nat} (h : KeepsAesPorts s t) : KeepsAesPorts s (t.losSource src ix) :=
  h.losAll fun _ hi => List.mem_range.1 (List.mem_filter.1 hi).1

end KeepsAesPorts

/-! Lock loss of an AES3 receiver (R243). -/

theorem aesR_setAesR_same (s : State) (n : Nat) (p : AesRx) : (s.setAesR n p).aesR n = p := sget_sset_same _ _ _ _

theorem rd_setAesR (s : State) (n : Nat) (p : AesRx) (r : Reg) : (s.setAesR n p).rd r = s.rd r := rfl

theorem regs_setAesR (s : State) (n : Nat) (p : AesRx) : (s.setAesR n p).regs = s.regs := rfl

theorem mem_setAesR (s : State) (n : Nat) (p : AesRx) : (s.setAesR n p).mem = s.mem := rfl

theorem aesLocked_setAesR (s : State) (n : Nat) (p : AesRx) : (s.setAesR n p).aesLocked n = s.aesLocked n := rfl

/-- The registers of a receiver that loses its lock: the loss is counted and flagged, and the lock, the grade with its
validity, and the rate are cleared. -/
def lossRegs (s : State) (n : Nat) : State :=
  (((s.count (AES_RX_LOSS_CNT n)).raise (AES_RX_INT n) 1#32).upd (AES_RX_STAT n)
    (fun w => setBits (setBit (setBit w 0 false) 1 false) 7 6 0)).wr (AES_RX_RATE n) 0

/-- A receiver that has lost its lock. -/
def rxUnlocked (p : AesRx) : AesRx :=
  { p with good := 0, badSub := 0, noPre := 0, spoilt := true, lost := true, resume := false, deliver := false, frames := 0,
           cycles := 0 }

/-- The loss in the receiver itself, before its inputs' converters and Saffron learn of it. -/
def lossRecorded (s : State) (n : Nat) : State :=
  let t := lossRegs (s.setAesR n (s.aesR n).spoil) n
  t.setAesR n (rxUnlocked (t.aesR n))

theorem rd_lossRecorded (s : State) (n : Nat) (r : Reg) :
    (lossRecorded s n).rd r = (lossRegs (s.setAesR n (s.aesR n).spoil) n).rd r := by
  unfold lossRecorded
  exact rd_setAesR _ _ _ _

theorem aesLoss_locked {s : State} {n : Nat} (h : s.aesLocked n = true) :
    s.aesLoss n = (((lossRecorded s n).srcLoss 0 (2 * n)).srcLoss 0 (2 * n + 1)).losSource 3 n := by
  have hspoilt : (s.setAesR n (s.aesR n).spoil).aesLocked n = true := h
  rw [State.aesLoss, if_pos hspoilt]
  rfl

theorem lostStat_fields (w : Word) :
    let v := setBits (setBit (setBit w 0 false) 1 false) 7 6 0
    bit v 0 = false ∧ bit v 1 = false ∧ bits v 7 6 = 0 := by
  refine ⟨?_, ?_, bits_setBits_same _ (by decide) (by decide) 0⟩
  · rw [bit_setBits _ (by decide) (by decide), if_neg (by decide), bit_setBit_other _ (by decide),
      bit_setBit_same _ (by decide)]
  · rw [bit_setBits _ (by decide) (by decide), if_neg (by decide), bit_setBit_same _ (by decide)]

section LossRegs

variable (s : State) (n : Nat)

theorem lossRegs_stat : (lossRegs s n).rd (AES_RX_STAT n) =
    setBits (setBit (setBit (s.rd (AES_RX_STAT n)) 0 false) 1 false) 7 6 0 := by
  rw [lossRegs, State.rd_wr_other _ _ (by simp [AES_RX_STAT, AES_RX_RATE]), State.rd_upd_same,
    State.rd_raise_other _ _ (by simp [AES_RX_STAT, AES_RX_INT]),
    State.rd_count_other _ (by simp [AES_RX_STAT, AES_RX_LOSS_CNT])]

theorem lossRegs_mem : (lossRegs s n).mem = s.mem := by
  rw [lossRegs, State.wr_mem, State.upd_mem]
  rfl

theorem lossRegs_rate : (lossRegs s n).rd (AES_RX_RATE n) = 0 := State.rd_wr_same _ _ _

theorem lossRegs_int : (lossRegs s n).rdB (AES_RX_INT n) 0 = true := by
  rw [State.rdB, lossRegs, State.rd_wr_other _ _ (by simp [AES_RX_INT, AES_RX_RATE]),
    State.rd_upd_other _ _ (by simp [AES_RX_INT, AES_RX_STAT]), State.rd_raise_same, bit_or]
  exact Bool.or_true _

theorem lossRegs_count : (lossRegs s n).rdF (AES_RX_LOSS_CNT n) 31 0 =
    min (s.rdF (AES_RX_LOSS_CNT n) 31 0 + 1) (2 ^ 32 - 1) := by
  rw [State.rdF, lossRegs, State.rd_wr_other _ _ (by simp [AES_RX_LOSS_CNT, AES_RX_RATE]),
    State.rd_upd_other _ _ (by simp [AES_RX_LOSS_CNT, AES_RX_STAT]),
    State.rd_raise_other _ _ (by simp [AES_RX_LOSS_CNT, AES_RX_INT])]
  exact rdF_count_same _ _

end LossRegs

/-- What the lock loss of receiver `n` leaves of its port. -/
structure LockLost (n : Nat) (s u : State) : Prop where
  unlocked : u.aesLocked n = false
  gradeInvalid : u.rdB (AES_RX_STAT n) 1 = false
  grade : u.rdF (AES_RX_STAT n) 7 6 = 0
  rate : u.rd (AES_RX_RATE n) = 0
  flagged : u.rdB (AES_RX_INT n) 0 = true
  muted : (u.aesR n).deliver = false
  good : (u.aesR n).good = 0
  counted : u.rdF (AES_RX_LOSS_CNT n) 31 0 = min (s.rdF (AES_RX_LOSS_CNT n) 31 0 + 1) (2 ^ 32 - 1)
  mem : u.mem = s.mem

theorem lockLost_lossRecorded (s : State) (n : Nat) : LockLost n s (lossRecorded s n) := by
  obtain ⟨hlock, hvalid, hgrade⟩ := lostStat_fields ((s.setAesR n (s.aesR n).spoil).rd (AES_RX_STAT n))
  rw [← lossRegs_stat, ← rd_lossRecorded] at hlock hvalid hgrade
  have hrx : (lossRecorded s n).aesR n = rxUnlocked _ := aesR_setAesR_same _ _ _
  exact {
    unlocked := hlock
    gradeInvalid := hvalid
    grade := hgrade
    rate := by rw [rd_lossRecorded, lossRegs_rate]
    flagged := by rw [State.rdB, rd_lossRecorded, ← State.rdB, lossRegs_int]
    muted := by rw [hrx]; rfl
    good := by rw [hrx]; rfl
    counted := by rw [State.rdF, rd_lossRecorded, ← State.rdF, lossRegs_count, State.rdF, rd_setAesR, State.rdF]
    mem := lossRegs_mem (s.setAesR n (s.aesR n).spoil) n }

theorem LockLost.keeps {n : Nat} (hn : n < 8) {s t u : State} (h : LockLost n s t) (k : KeepsAesPorts t u) :
    LockLost n s u := by
  have hrx : u.aesR n = t.aesR n := congrArg (fun m => sget ({} : AesRx) m n) k.aesRx
  have hstat : u.rd (AES_RX_STAT n) = t.rd (AES_RX_STAT n) :=
    k.rd _ (by simp only [AES_RX_STAT]; omega) (by simp only [AES_RX_STAT]; omega)
  have hrate : u.rd (AES_RX_RATE n) = t.rd (AES_RX_RATE n) :=
    k.rd _ (by simp only [AES_RX_RATE]; omega) (by simp only [AES_RX_RATE]; omega)
  have hint : u.rd (AES_RX_INT n) = t.rd (AES_RX_INT n) :=
    k.rd _ (by simp only [AES_RX_INT]; omega) (by simp only [AES_RX_INT]; omega)
  have hcnt : u.rd (AES_RX_LOSS_CNT n) = t.rd (AES_RX_LOSS_CNT n) :=
    k.rd _ (by simp only [AES_RX_LOSS_CNT]; omega) (by simp only [AES_RX_LOSS_CNT]; omega)
  exact ⟨(congrArg (bit · 0) hstat).trans h.unlocked, (congrArg (bit · 1) hstat).trans h.gradeInvalid,
    (congrArg (bits · 7 6) hstat).trans h.grade, hrate.trans h.rate, (congrArg (bit · 0) hint).trans h.flagged,
    (congrArg AesRx.deliver hrx).trans h.muted, (congrArg AesRx.good hrx).trans h.good,
    (congrArg (bits · 31 0) hcnt).trans h.counted, k.mem.trans h.mem⟩

theorem lockLost_aesLoss {s : State} {n : Nat} (hn : n < 8) (h : s.aesLocked n = true) : LockLost n s (s.aesLoss n) := by
  rw [aesLoss_locked h]
  exact (lockLost_lossRecorded s n).keeps hn (KeepsAesPorts.refl _).srcLoss.srcLoss.losSource

theorem gives_aes3LockLoss {s : State} {n : Fin 8} (h : s.aesLocked n = true) : Gives (.aes3LockLoss n) s fun u =>
    u.aesLocked n = false ∧ u.rdB (AES_RX_STAT n) 1 = false ∧ u.rdF (AES_RX_STAT n) 7 6 = 0 ∧ u.rd (AES_RX_RATE n) = 0 ∧
    u.rdB (AES_RX_INT n) 0 = true ∧ (u.aesR n).deliver = false ∧ (u.aesR n).good = 0 ∧
    u.rdF (AES_RX_LOSS_CNT n) 31 0 = min (s.rdF (AES_RX_LOSS_CNT n) 31 0 + 1) (2 ^ 32 - 1) ∧ u.mem = s.mem := by
  have l := lockLost_aesLoss n.isLt h
  exact (gives_iff_of_done (t := s.aesLoss n) rfl).2
    ⟨l.unlocked, l.gradeInvalid, l.grade, l.rate, l.flagged, l.muted, l.good, l.counted, l.mem⟩

/-! A frame without valid preambles (R243, R244). -/

/-- A synchronous receiver keeps each frame's samples, without a slip exactly once; while the frame does not tick, those
of the last three frames. -/
theorem aesKeep_sync {s : State} {n : Nat} (h : (s.aesR n).sync = true) (elapsed : Nat)
    (x : Option Word × Option Word) : s.aesKeep n elapsed false false x = s.setAesR n
      { s.aesR n with
        cap := if s.frame.ticking then (s.aesR n).cap ++ [x]
          else ((s.aesR n).cap ++ [x]).drop (((s.aesR n).cap ++ [x]).length - 3)
        run := if (s.aesR n).badSub = 0 && (s.aesR n).noPre = 0 then 0 else (s.aesR n).run + 1 } := by
  rw [State.aesKeep, if_pos h]
  rfl

/-- A frame that opens no block only continues the block in progress. -/
theorem aesBlock_continued (s : State) (n : Nat) (f : AesFrame) : ∃ p : AesRx, s.aesBlock n f false = s.setAesR n p ∧
    p.good = (s.aesR n).good ∧ p.noPre = (s.aesR n).noPre := by
  unfold State.aesBlock
  dsimp only
  split
  · exact ⟨_, rfl, rfl, rfl⟩
  · exact ⟨_, rfl, rfl, rfl⟩

/-- Up to the lock loss, a frame with no valid preamble changes its receiver alone: it is one more in the row of such
frames, and the row of good frames ends. -/
theorem aesMissing_eq {s : State} {n : Nat} (f : AesFrame) (h : (s.aesR n).sync = true) : ∃ t : State,
    s.aesMissing n f = (if 3 ≤ (s.aesR n).noPre then t.aesLoss n else t) ∧ (t.aesR n).good = 0 ∧
    (t.aesR n).noPre = (s.aesR n).noPre + 1 ∧ t.regs = s.regs ∧ t.mem = s.mem := by
  unfold State.aesMissing
  extract_lets p ok t u
  have ht : t.aesR n = { s.aesR n with good := 0, noPre := (s.aesR n).noPre + 1 } := aesR_setAesR_same _ _ _
  have hsync : (t.aesR n).sync = true := by rw [ht]; exact h
  obtain ⟨q, hq, hgood, hnoPre⟩ := aesBlock_continued (t.aesKeep n f.elapsed false false _) n f
  have hu : u = (t.aesKeep n f.elapsed false false _).setAesR n q := hq
  rw [aesKeep_sync hsync] at hu hgood hnoPre
  rw [aesR_setAesR_same, ht] at hgood hnoPre
  refine ⟨u, rfl, ?_, ?_, ?_, ?_⟩
  · rw [hu, aesR_setAesR_same, hgood]
  · rw [hu, aesR_setAesR_same, hnoPre]
  · rw [hu, regs_setAesR, regs_setAesR]; rfl
  · rw [hu, mem_setAesR, mem_setAesR]; rfl

theorem aesFrame_missing {s : State} {n : Nat} {f : AesFrame} (hon : (s.aesR n).on = true) (hpre : f.b.pre ≠ .y) :
    s.aesFrame n f = s.aesMissing n f := by
  have hb : (f.b.pre == .y) = false := beq_eq_false_iff_ne.2 hpre
  rw [State.aesFrame]
  simp [hon, hb]

section MissingPreamble

variable {s : State} {n : Fin 8} {f : AesFrame}

theorem gives_aes3Frame_missing (hon : (s.aesR n).on = true) (hsync : (s.aesR n).sync = true) (hpre : f.b.pre ≠ .y)
    (hfew : (s.aesR n).noPre < 3) : Gives (.aes3Frame n f) s fun u =>
      (u.aesR n).good = 0 ∧ (u.aesR n).noPre = (s.aesR n).noPre + 1 ∧ u.regs = s.regs ∧ u.mem = s.mem := by
  refine (gives_iff_of_done (t := s.aesFrame n f) rfl).2 ?_
  obtain ⟨t, heq, ht⟩ := aesMissing_eq f hsync
  rw [aesFrame_missing hon hpre, heq, if_neg (by omega)]
  exact ht

theorem gives_aes3Frame_fourthMissing (hon : (s.aesR n).on = true) (hsync : (s.aesR n).sync = true)
    (hpre : f.b.pre ≠ .y) (hmany : 3 ≤ (s.aesR n).noPre) (hlock : s.aesLocked n = true) :
    Gives (.aes3Frame n f) s fun u =>
      u.aesLocked n = false ∧ u.rdB (AES_RX_INT n) 0 = true ∧ u.mem = s.mem := by
  refine (gives_iff_of_done (t := s.aesFrame n f) rfl).2 ?_
  obtain ⟨t, heq, -, -, hregs, hmem⟩ := aesMissing_eq f hsync
  have hlock' : t.aesLocked n = true := (congrArg (bit · 0) (State.rd_congr hregs _)).trans hlock
  have l := lockLost_aesLoss n.isLt hlock'
  rw [aesFrame_missing hon hpre, heq, if_pos hmany]
  exact ⟨l.unlocked, l.flagged, l.mem.trans hmem⟩

end MissingPreamble

/-! A valid frame (R241, R242, R244). -/

/-- The frames captured by receiver `n`, its good frames, its lock, and the memory are as they were. -/
structure KeepsCapture (n : Nat) (s t : State) : Prop where
  cap : (t.aesR n).cap = (s.aesR n).cap
  good : (t.aesR n).good = (s.aesR n).good
  locked : t.aesLocked n = s.aesLocked n
  mem : t.mem = s.mem

namespace KeepsCapture

variable {n : Nat} {s t : State}

theorem refl (n : Nat) (s : State) : KeepsCapture n s s := ⟨rfl, rfl, rfl, rfl⟩

theorem ite {c : Prop} [Decidable c] {u : State} (ht : KeepsCapture n s t) (hu : KeepsCapture n s u) :
    KeepsCapture n s (if c then t else u) := by
  split
  · exact ht
  · exact hu

theorem each {α : Type} {f : State → α → State} (hf : ∀ t x, KeepsCapture n s t → KeepsCapture n s (f t x)) {l : List α}
    (h : KeepsCapture n s t) : KeepsCapture n s (t.each l f) := by
  induction l generalizing t with
  | nil => exact h
  | cons x l ih => exact ih (hf t x h)

theorem setAesR {p : AesRx} (h : KeepsCapture n s t) (hcap : p.cap = (t.aesR n).cap) (hgood : p.good = (t.aesR n).good) :
    KeepsCapture n s (t.setAesR n p) where
  cap := by rw [aesR_setAesR_same, hcap, h.cap]
  good := by rw [aesR_setAesR_same, hgood, h.good]
  locked := h.locked
  mem := h.mem

/-- The lock is bit 0 of AES_RXn_STAT. -/
theorem upd {r : Reg} {f : Word → Word} (h : KeepsCapture n s t) (hr : (AES_RX_STAT n).addr ≠ r.addr) :
    KeepsCapture n s (t.upd r f) :=
  ⟨h.cap, h.good, (congrArg (bit · 0) (State.rd_upd_other t f hr)).trans h.locked, h.mem⟩

theorem updStat {f : Word → Word} (h : KeepsCapture n s t) (hf : ∀ w, bit (f w) 0 = bit w 0) :
    KeepsCapture n s (t.upd (AES_RX_STAT n) f) :=
  ⟨h.cap, h.good, ((congrArg (bit · 0) (State.rd_upd_same t _ f)).trans (hf _)).trans h.locked, h.mem⟩

theorem wr {r : Reg} {v : Word} (h : KeepsCapture n s t) (hr : (AES_RX_STAT n).addr ≠ r.addr) :
    KeepsCapture n s (t.wr r v) := h.upd (f := fun _ => v) hr

/-- A failed CRCC or a block of another length (R245). -/
theorem blockError (h : KeepsCapture n s t) :
    KeepsCapture n s ((t.count (AES_RX_CRC_CNT n)).raise (AES_RX_INT n) 0x10#32) :=
  have hcnt : KeepsCapture n s (t.count (AES_RX_CRC_CNT n)) := h.wr (by simp [AES_RX_STAT, AES_RX_CRC_CNT])
  hcnt.wr (by simp [AES_RX_STAT, AES_RX_INT])

end KeepsCapture

/-- The latch of a channel status writes the grade, the format and their validity, not the lock. -/
theorem bit_latchedStat (w : Word) (pro ok : Bool) (grade : Nat) :
    bit (setBits (setBit (setBit (setBit w 1 true) 2 pro) 3 ok) 7 6 grade) 0 = bit w 0 := by
  rw [bit_setBits _ (by decide) (by decide), if_neg (by decide), bit_setBit_other _ (by decide),
    bit_setBit_other _ (by decide), bit_setBit_other _ (by decide)]

namespace KeepsCapture

variable {n : Nat} {s t : State}

theorem csLatch (h : KeepsCapture n s t) : KeepsCapture n s (t.csLatch n) := by
  unfold State.csLatch
  extract_lets p _ one latched
  have hone : ∀ t cs isA, KeepsCapture n s t → KeepsCapture n s (one t cs isA) := by
    intro t cs isA h
    refine .ite h.blockError ?_
    extract_lets r _ stored flagged
    have haddr : ∀ k, (AES_RX_STAT n).addr ≠ (r k).addr := by
      intro k
      cases isA <;> simp only [r, AES_RX_STAT, AES_RX_CSA, AES_RX_CSB, if_true, Bool.false_eq_true, if_false] <;> omega
    have hstored : KeepsCapture n s stored := .each (fun _ k h => h.wr (haddr k)) h
    have hflagged : KeepsCapture n s flagged := .ite (hstored.upd (by simp [AES_RX_STAT, AES_RX_INT])) hstored
    exact .ite (hflagged.updStat fun w => bit_latchedStat w _ _ _) hflagged
  exact .each (fun _ k h => (h.wr (by simp only [AES_RX_STAT, AES_RX_UA]; omega)).wr
    (by simp only [AES_RX_STAT, AES_RX_UB]; omega)) (hone _ _ _ (hone _ _ _ h))

theorem aesBlock (h : KeepsCapture n s t) (f : AesFrame) (z : Bool) : KeepsCapture n s (t.aesBlock n f z) := by
  unfold State.aesBlock
  extract_lets _ latched p q
  have hlatched : KeepsCapture n s latched := by
    refine .ite ?_ h
    split
    · exact .ite h h.csLatch
    · exact h.blockError
    · exact h
  have hq : q.cap = p.cap ∧ q.good = p.good := by
    cases z
    · exact ⟨rfl, rfl⟩
    · exact ⟨rfl, rfl⟩
  split
  · exact hlatched.setAesR hq.1 hq.2
  · exact hlatched.setAesR hq.1 hq.2

theorem aesRateMeas (h : KeepsCapture n s t) (elapsed : Nat) : KeepsCapture n s (t.aesRateMeas n elapsed) :=
  .ite (h.setAesR rfl rfl) ((h.setAesR (p := { t.aesR n with frames := 0, cycles := 0 }) rfl rfl).upd
    (by simp [AES_RX_STAT, AES_RX_RATE]))

end KeepsCapture

theorem aesKeep_ticking {s : State} {n : Nat} (hsync : (s.aesR n).sync = true) (hticking : s.frame.ticking = true)
    (elapsed : Nat) (x : Option Word × Option Word) :
    ((s.aesKeep n elapsed false false x).aesR n).cap = (s.aesR n).cap ++ [x] ∧
    ((s.aesKeep n elapsed false false x).aesR n).good = (s.aesR n).good ∧
    (s.aesKeep n elapsed false false x).aesLocked n = s.aesLocked n ∧
    (s.aesKeep n elapsed false false x).mem = s.mem := by
  rw [aesKeep_sync hsync, aesR_setAesR_same, if_pos hticking]
  exact ⟨rfl, rfl, rfl, rfl⟩

theorem aesGood_locked {s : State} {n : Nat} (h : s.aesLocked n = true) :
    s.aesGood n = s.setAesR n { s.aesR n with good := min ((s.aesR n).good + 1) 16 } := by
  simp [State.aesGood, h]

/-- Only what Saffron keeps of its references differs. -/
def SafOnly (s t : State) : Prop := t = { s with saf := t.saf }

theorem safOnly_refCompare (s : State) (i : Nat) (t : Int) : SafOnly s (s.refCompare i t) := by
  unfold State.refCompare
  extract_lets x ratio every
  split
  · exact rfl
  · exact rfl

theorem SafOnly.each {α : Type} {f : State → α → State} (hf : ∀ s x, SafOnly s (f s x)) (l : List α) (s : State) :
    SafOnly s (s.each l f) := by
  induction l generalizing s with
  | nil => exact rfl
  | cons x l ih =>
    exact (ih (f s x)).trans (congrArg (fun t : State => { t with saf := ((f s x).each l f).saf }) (hf s x))

/-- A frame's start is measured by Saffron alone (R296). -/
theorem safOnly_refAes (s : State) (n : Nat) (off : Int) : SafOnly s (s.refAes n off) :=
  .each (fun s i => safOnly_refCompare s i _) _ s

theorem subErr_valid {x : Subframe} (h : subValid x = true) (s : State) (n : Nat) : s.subErr n x = s := by
  unfold subValid at h
  rw [Bool.and_eq_true, Bool.not_eq_true', beq_iff_eq] at h
  obtain ⟨hviolation, hparity⟩ := h
  simp [State.subErr, hviolation, hparity]

/-- The state in which a valid frame's samples are taken: its start is measured, and a validity bit that is set is
counted. -/
def frameChecked (s : State) (n : Nat) (f : AesFrame) : State :=
  let t := s.refAes n f.offset
  if f.a.slots.getLsbD 24 || f.b.slots.getLsbD 24 then t.count (AES_RX_VAL_CNT n) else t

theorem frameChecked_spec (s : State) (n : Nat) (f : AesFrame) :
    (frameChecked s n f).aesRx = s.aesRx ∧ (frameChecked s n f).frame = s.frame ∧ (frameChecked s n f).mem = s.mem ∧
    ∀ r : Reg, r.addr ≠ (AES_RX_VAL_CNT n).addr → (frameChecked s n f).rd r = s.rd r := by
  unfold frameChecked
  rw [safOnly_refAes s n f.offset]
  extract_lets t
  split
  · exact ⟨rfl, rfl, rfl, fun r hr => State.rd_count_other t hr⟩
  · exact ⟨rfl, rfl, rfl, fun _ _ => rfl⟩

theorem aesLocked_frameChecked (s : State) (n : Nat) (f : AesFrame) :
    (frameChecked s n f).aesLocked n = s.aesLocked n := by
  obtain ⟨-, -, -, hrd⟩ := frameChecked_spec s n f
  exact congrArg (bit · 0) (hrd _ (by simp [AES_RX_STAT, AES_RX_VAL_CNT]))

theorem rdB_ctrl_frameChecked (s : State) (n : Nat) (f : AesFrame) (i : Nat) :
    (frameChecked s n f).rdB (AES_RX_CTRL n) i = s.rdB (AES_RX_CTRL n) i := by
  obtain ⟨-, -, -, hrd⟩ := frameChecked_spec s n f
  exact congrArg (bit · i) (hrd _ (by simp [AES_RX_CTRL, AES_RX_VAL_CNT]))

/-- A receiver after a frame of two valid subframes with these words. -/
def rxAfterValid (p : AesRx) (wa wb : Word) : AesRx := { p with prevA := wa, prevB := wb, badSub := 0, noPre := 0 }

/-- The samples that a frame delivers (R242). -/
def frameWords (s : State) (n : Nat) (f : AesFrame) : Word × Word :=
  (subWord (s.rdB (AES_RX_CTRL n) 2) f.a, subWord (s.rdB (AES_RX_CTRL n) 2) f.b)

/-- A valid frame is captured, and the block structure and the rate go on with it. -/
def frameCaptured (s : State) (n : Nat) (f : AesFrame) : State :=
  let w := frameWords s n f
  ((((frameChecked s n f).setAesR n (rxAfterValid (s.aesR n) w.1 w.2)).aesKeep n f.elapsed false false
    (some w.1, some w.2)).aesBlock n f (f.a.pre == .z)).aesRateMeas n f.elapsed

theorem frameCaptured_spec {s : State} {n : Nat} {f : AesFrame} (hsync : (s.aesR n).sync = true)
    (hticking : s.frame.ticking = true) :
    ((frameCaptured s n f).aesR n).cap =
      (s.aesR n).cap ++ [(some (frameWords s n f).1, some (frameWords s n f).2)] ∧
    ((frameCaptured s n f).aesR n).good = (s.aesR n).good ∧ (frameCaptured s n f).aesLocked n = s.aesLocked n ∧
    (frameCaptured s n f).mem = s.mem := by
  obtain ⟨-, hframe, hmem, -⟩ := frameChecked_spec s n f
  unfold frameCaptured
  extract_lets w
  generalize ht : (frameChecked s n f).setAesR n (rxAfterValid (s.aesR n) w.1 w.2) = t
  have hrx : t.aesR n = rxAfterValid (s.aesR n) w.1 w.2 := by rw [← ht, aesR_setAesR_same]
  have htick : t.frame.ticking = true := by subst ht; exact (congrArg _ hframe).trans hticking
  have hlocked : t.aesLocked n = s.aesLocked n := by subst ht; exact aesLocked_frameChecked s n f
  have htmem : t.mem = s.mem := by subst ht; exact hmem
  obtain ⟨hcap, hgood, hlock, hkmem⟩ :=
    aesKeep_ticking (by rw [hrx]; exact hsync) htick f.elapsed (some w.1, some w.2)
  rw [hrx] at hcap hgood
  have k := ((KeepsCapture.refl n (t.aesKeep n f.elapsed false false (some w.1, some w.2))).aesBlock f
    (f.a.pre == .z)).aesRateMeas f.elapsed
  exact ⟨k.cap.trans hcap, k.good.trans hgood, (k.locked.trans hlock).trans hlocked, (k.mem.trans hkmem).trans htmem⟩

/-- A frame of two valid subframes, at a rate and at an offset that the receiver accepts. -/
structure FrameValid (s : State) (f : AesFrame) : Prop where
  preA : f.a.pre = .x ∨ f.a.pre = .z
  preB : f.b.pre = .y
  slow : 31000 * f.elapsed ≤ 1000000000
  fast : 1000000000 ≤ 194000 * f.elapsed
  validA : subValid f.a = true
  validB : subValid f.b = true
  inWindow : s.offWindow f.offset = false

section ValidFrame

variable {s : State} {n : Nat} {f : AesFrame}

/-- The run of AES3_FRAME over a valid frame: no slip, no error and no run of invalid subframes, so that both words are
delivered, and the frame counts as good. -/
theorem aesFrame_valid (hon : (s.aesR n).on = true) (hsync : (s.aesR n).sync = true)
    (hticking : s.frame.ticking = true) (hlock : s.aesLocked n = true) (hdeliver : (s.aesR n).deliver = true)
    (hvalidity : s.rdB (AES_RX_CTRL n) 3 = false) (hf : FrameValid s f) :
    s.aesFrame n f = (frameCaptured s n f).aesGood n := by
  obtain ⟨hpreA, hpreB, hslow, hfast, hvalidA, hvalidB, hwindow⟩ := hf
  obtain ⟨-, -, hstays, -⟩ := frameCaptured_spec (f := f) hsync hticking
  rw [hlock] at hstays
  have hpre : ((f.a.pre == .x || f.a.pre == .z) && f.b.pre == .y) = true := by simpa [hpreB] using hpreA
  rw [State.aesFrame]
  extract_lets rate slip s1 s2 s3 aux va vb wa wb s4 vm ok xa xb badA bad s5 s6 z s7 _ s8
  rw [if_neg (by simp [hon]), if_neg (by simp [hpre])]
  have hrate : rate = true := decide_eq_true ⟨hslow, hfast⟩
  have hslip : slip = false := by simp [slip, hwindow]
  have hs3 : s3 = s.refAes n f.offset := by simp [s3, s2, s1, hslip, subErr_valid hvalidA, subErr_valid hvalidB]
  have hs4 : s4 = frameChecked s n f := by simp only [s4, hs3, frameChecked]
  have haux : aux = s.rdB (AES_RX_CTRL n) 2 := by
    rw [show aux = s3.rdB (AES_RX_CTRL n) 2 from rfl, hs3, safOnly_refAes s n f.offset]
    rfl
  have hwa : wa = (frameWords s n f).1 := (if_pos hvalidA).trans (congrArg (subWord · f.a) haux)
  have hwb : wb = (frameWords s n f).2 := (if_pos hvalidB).trans (congrArg (subWord · f.b) haux)
  have hvm : vm = false := by simp [vm, hs4, rdB_ctrl_frameChecked, hvalidity]
  have hok : ok = true := by simp [ok, hs4, aesLocked_frameChecked, hlock, hdeliver, hrate]
  have hxa : xa = some wa := by simp [xa, hok, hvm]
  have hxb : xb = some wb := by simp [xb, hok, hvm]
  have hbadA : badA = 0 := if_pos hvalidA
  have hbad : bad = 0 := if_pos hvalidB
  have hs5 : s5 = (frameChecked s n f).setAesR n (rxAfterValid (s.aesR n) (frameWords s n f).1 (frameWords s n f).2) := by
    simp [s5, hs4, hwa, hwb, hbadA, hbad, rxAfterValid]
  have hs7 : s7 = frameCaptured s n f := by
    simp only [s7, s6, hs5, hslip, hxa, hxb, hwa, hwb, Bool.false_and]
    rfl
  have hs8 : s8 = (frameCaptured s n f).aesGood n := by
    rw [← hs7]
    exact if_pos (by simp [va, vb, hvalidA, hvalidB, hslip])
  have hlocked : s8.aesLocked n = true := by rw [hs8, aesGood_locked hstays, aesLocked_setAesR, hstays]
  rw [if_neg (by simp [hrate, hbadA, hbad]), if_pos hlocked, hs8]

end ValidFrame

theorem gives_aes3Frame_valid {s : State} {n : Fin 8} {f : AesFrame} (hon : (s.aesR n).on = true)
    (hsync : (s.aesR n).sync = true) (hticking : s.frame.ticking = true) (hlock : s.aesLocked n = true)
    (hdeliver : (s.aesR n).deliver = true) (hvalidity : s.rdB (AES_RX_CTRL n) 3 = false) (hf : FrameValid s f) :
    Gives (.aes3Frame n f) s fun u =>
      (u.aesR n).cap = (s.aesR n).cap ++
        [(some (subWord (s.rdB (AES_RX_CTRL n) 2) f.a), some (subWord (s.rdB (AES_RX_CTRL n) 2) f.b))] ∧
      (u.aesR n).good = min ((s.aesR n).good + 1) 16 ∧ u.aesLocked n = true ∧ u.mem = s.mem := by
  refine (gives_iff_of_done (t := s.aesFrame n f) rfl).2 ?_
  obtain ⟨hcap, hgood, hlocked, hmem⟩ := frameCaptured_spec (f := f) hsync hticking
  rw [aesFrame_valid hon hsync hticking hlock hdeliver hvalidity hf, aesGood_locked (hlocked.trans hlock), hgood]
  generalize frameCaptured s n f = t at hcap hlocked hmem ⊢
  show ((State.setAesR _ _ _).aesR n).cap = _ ∧ ((State.setAesR _ _ _).aesR n).good = _ ∧ _ ∧ _
  rw [aesR_setAesR_same]
  exact ⟨hcap, rfl, hlocked.trans hlock, hmem⟩

/-- Settles O38: a valid frame is `gives_aes3Frame_valid`, a frame without valid preambles `gives_aes3Frame_missing` and,
the fourth in a row, `gives_aes3Frame_fourthMissing`, a lock loss `gives_aes3LockLoss`. -/
theorem aesFrames : Obligations.AesFrames := by
  unfold Obligations.AesFrames
  refine ⟨fun s n f hon hsync hticking hlock hdeliver hvalidity hpreA hpreB hslow hfast hvalidA hvalidB hwindow => ?_,
    fun s n f hon hsync hpre => ⟨?_, ?_⟩, fun _ _ => gives_aes3LockLoss⟩
  · exact gives_aes3Frame_valid hon hsync hticking hlock hdeliver hvalidity
      ⟨hpreA, hpreB, hslow, hfast, hvalidA, hvalidB, hwindow⟩
  · exact gives_aes3Frame_missing hon hsync hpre
  · exact gives_aes3Frame_fourthMissing hon hsync hpre

end Sys2Proof

namespace Sys2Proof

open Sys2Proof.Machine

/-! Every command and every step ends in a next state with the vectors settled (R352, R353). -/

theorem vectorsSettled_settle (s : State) : VectorsSettled s.settle := s.settle_cond

/-- An arm is one call of `done`, the issue of a bundle, or a choice between two calls of it: a posting port's on its
writer, a delivery's on its agent. -/
theorem exec_eq_done (c : Instr) (s : State) : ∃ t, exec c s = done t := by
  cases hb : c.bundle? with
  | some x => exact ⟨_, exec_bundle hb s⟩
  | none =>
    cases c
    case eventPost q p hdr =>
      show ∃ t, execEventPost q p hdr s = done t
      unfold execEventPost
      split <;> exact ⟨_, rfl⟩
    case eventDeliver d => cases d <;> exact ⟨_, rfl⟩
    all_goals first | exact ⟨_, rfl⟩ | cases hb

theorem gives_vectorsSettled (c : Instr) (s : State) : Gives c s VectorsSettled := by
  obtain ⟨t, ht⟩ := exec_eq_done c s
  exact (gives_iff_of_done ht).2 (vectorsSettled_settle t)

/-- Settles O56: every arm ends with `done`, and so does an engine cycle on an empty queue. -/
theorem everyStepSettles : Obligations.EveryStepSettles := by
  unfold Obligations.EveryStepSettles
  refine ⟨gives_vectorsSettled, fun s => ?_⟩
  cases hp : s.pending with
  | nil => exact ⟨_, step_idle hp, vectorsSettled_settle _⟩
  | cons c rest =>
    obtain ⟨t, ht, hs⟩ := gives_vectorsSettled c { s with pending := rest }
    exact ⟨t, by rw [step, hp]; exact ht, hs⟩

end Sys2Proof

namespace Sys2Proof

open Sys2Proof.Machine

/-! The start of a received frame is kept in the port's own state (R260, R274), which `OnlyRegs` holds as it was. -/

/-- Port 0 with its link UP. -/
def upPort : State := State.reset.wr (MAC_STAT 0) 2#32

/-- The start of an express frame. -/
def sfdFrame : RxFrame := ⟨[], false, false, 0, false, true⟩

theorem upPort_met : upPort.macUp (0 : Fin 2) = true ∧ sfdFrame.verified = false ∧ sfdFrame.sfd = true ∧
    sfdFrame.frags = 0 ∧ (upPort.mac (0 : Fin 2)).rx = none := by decide

theorem OnlyRegs.macs {s u : State} {rs : List Reg} (h : OnlyRegs s u rs) : u.macs = s.macs :=
  (congrArg State.macs h.1).trans rfl

theorem OnlyRegs.mac {s u : State} {rs : List Reg} (h : OnlyRegs s u rs) (n : Nat) : u.mac n = s.mac n := by
  rw [State.mac, State.mac, h.macs]

/-- Refutes O39: at the SFD of a frame the port keeps what it may be long and its stamp, and the statement also asks that
nothing but registers changes. -/
theorem not_macReceives : ¬ Obligations.MacReceives := by
  unfold Obligations.MacReceives
  intro h
  obtain ⟨hup, hverified, hsfd, hfrags, hrx⟩ := upPort_met
  obtain ⟨-, -, hstart, -⟩ := h upPort 0 sfdFrame
  obtain ⟨u, -, hkept, honly⟩ := hstart hup hverified hsfd hfrags
  rw [honly.mac, hrx] at hkept
  cases hkept

end Sys2Proof

namespace Sys2Proof

open Sys2Proof.Machine

/-! Registers that an operation leaves as they were, named by a predicate on their addresses. -/

/-- The registers whose address `p` names read as before. -/
def KeepsAt (p : Nat → Prop) (s u : State) : Prop := ∀ r : Reg, p r.addr → u.rd r = s.rd r

namespace KeepsAt

variable {p : Nat → Prop}

theorem of_regs {s u : State} (h : u.regs = s.regs) : KeepsAt p s u := fun r _ => State.rd_congr h r

theorem refl (s : State) : KeepsAt p s s := of_regs rfl

theorem trans {s t u : State} (h : KeepsAt p s t) (k : KeepsAt p t u) : KeepsAt p s u :=
  fun r hr => (k r hr).trans (h r hr)

theorem wr {s t : State} (h : KeepsAt p s t) {r : Reg} (hr : ¬ p r.addr) (v : Word) : KeepsAt p s (t.wr r v) :=
  h.trans fun _ hq => State.rd_wr_other t v fun e => hr (e ▸ hq)

theorem upd {s t : State} (h : KeepsAt p s t) {r : Reg} (hr : ¬ p r.addr) (f : Word → Word) :
    KeepsAt p s (t.upd r f) := h.wr hr _

theorem wrF {s t : State} (h : KeepsAt p s t) {r : Reg} (hr : ¬ p r.addr) (hi lo v : Nat) :
    KeepsAt p s (t.wrF r hi lo v) := h.wr hr _

theorem wrB {s t : State} (h : KeepsAt p s t) {r : Reg} (hr : ¬ p r.addr) (i : Nat) (b : Bool) :
    KeepsAt p s (t.wrB r i b) := h.wr hr _

theorem raise {s t : State} (h : KeepsAt p s t) {r : Reg} (hr : ¬ p r.addr) (m : Word) :
    KeepsAt p s (t.raise r m) := h.wr hr _

theorem countF {s t : State} (h : KeepsAt p s t) {r : Reg} (hr : ¬ p r.addr) (hi lo n : Nat) :
    KeepsAt p s (t.countF r hi lo n) := h.wr hr _

theorem count {s t : State} (h : KeepsAt p s t) {r : Reg} (hr : ¬ p r.addr) : KeepsAt p s (t.count r) := h.wr hr _

theorem ite {s t u : State} {c : Prop} [Decidable c] (h : KeepsAt p s t) (k : KeepsAt p s u) :
    KeepsAt p s (if c then t else u) := by split <;> assumption

end KeepsAt

/-! The network ports' registers and their own state. -/

theorem mac_setMac_same (s : State) (n : Nat) (m : Mac) : (s.setMac n m).mac n = m := by
  simp [State.mac, State.setMac]

theorem mac_congr {s t : State} (h : s.macs = t.macs) (n : Nat) : s.mac n = t.mac n := by
  rw [State.mac, State.mac, h]

theorem rdB_raise_same (s : State) (r : Reg) {m : Word} {i : Nat} (h : bit m i = true) : (s.raise r m).rdB r i = true := by
  rw [State.rdB, State.rd_raise_same, bit_or, h, Bool.or_true]

/-! A link's state (R256). -/

theorem setMacLink_spec {s : State} {n l : Nat} (hl : l < 4) (h : s.macLink n ≠ l) :
    (s.setMacLink n l).macLink n = l ∧ (s.setMacLink n l).rdB (MAC_INT n) 0 = true ∧
    OnlyRegs s (s.setMacLink n l) [MAC_STAT n, MAC_INT n] := by
  have hapart : (MAC_STAT n).addr ≠ (MAC_INT n).addr := by simp [MAC_STAT, MAC_INT]
  unfold State.setMacLink
  rw [if_neg h]
  refine ⟨?_, rdB_raise_same _ _ (by decide), ?_⟩
  · rw [State.macLink, State.rdF, State.rd_raise_other _ _ hapart, State.rd_wrB_same, bits_setBit_outside _ (by omega)]
    exact (rdF_wrF_same s _ (by omega) (by omega) l).trans (Nat.mod_eq_of_lt hl)
  · exact (((OnlyRegs.wr s _ _).trans (.wr _ _ _)).trans (.wr _ _ _)).mono (by simp)

/-- What a link's state is read from. -/
def LinkRegs (n a : Nat) : Prop := a = (MAC_STAT n).addr ∨ a = (MAC_LINKDN_CNT n).addr

/-- A field that writes of registers and memory leave. -/
theorem macs_ite {c : Prop} [Decidable c] {s t u : State} (h : t.macs = s.macs) (k : u.macs = s.macs) :
    (if c then t else u).macs = s.macs := by split <;> assumption

theorem keepsAt_txBack {p : Nat → Prop} {n t : Nat} (hi : ¬ p (MAC_INT n).addr) (he : ¬ p (MAC_DESCERR_CNT n).addr)
    (hh : ¬ p (MAC_TXQ_HEAD n t).addr) (s : State) (status err segs : Nat) :
    KeepsAt p s (s.txBack n t status err segs) :=
  have hword : ∀ a w, KeepsAt p s (s.netWord a w) := fun _ _ => .of_regs rfl
  have hint := fun a w => KeepsAt.ite (c := err = 0) (hword a w) ((hword a w).raise hi 4#32)
  KeepsAt.upd (.ite ((hint _ _).count he) (hint _ _)) hh _

theorem macs_txBack (s : State) (n t status err segs : Nat) : (s.txBack n t status err segs).macs = s.macs :=
  have hword : ∀ a w, (s.netWord a w).macs = s.macs := fun _ _ => rfl
  have hint := fun a w => macs_ite (c := err = 0) (hword a w) ((State.raise_macs _ (MAC_INT n) 4#32).trans (hword a w))
  macs_ite (c := 1 ≤ err ∧ err ≤ 4) ((State.count_macs _ (MAC_DESCERR_CNT n)).trans (hint _ _)) (hint _ _)

/-! A link that leaves UP (R257). -/

theorem keepsAt_txLinkDown {n : Fin 2} {t : Nat} (s : State) (ring : Bool) :
    KeepsAt (LinkRegs n) s (s.txLinkDown n t ring) := by
  have hn := n.isLt
  have hcnt : KeepsAt (LinkRegs n) s (s.count (MAC_TXLINKDN_CNT n)) :=
    (KeepsAt.refl s).count (by simp [LinkRegs, MAC_STAT, MAC_LINKDN_CNT, MAC_TXLINKDN_CNT])
  unfold State.txLinkDown
  refine .ite ?_ hcnt
  refine KeepsAt.trans ?_ (keepsAt_txBack ?_ ?_ ?_ _ _ _ _)
  · exact (hcnt.trans (.of_regs rfl)).wrB (by simp [LinkRegs, MAC_STAT, MAC_LINKDN_CNT, MAC_SEG_ABORT]) _ _
  · simp [LinkRegs, MAC_STAT, MAC_LINKDN_CNT, MAC_INT]
  · simp [LinkRegs, MAC_STAT, MAC_LINKDN_CNT, MAC_DESCERR_CNT]
  · simp only [LinkRegs, MAC_STAT, MAC_LINKDN_CNT, MAC_TXQ_HEAD]; omega

theorem mac_txLinkDown (s : State) (n t : Nat) (ring : Bool) :
    ∃ l, (s.txLinkDown n t ring).mac n = { s.mac n with segs := l } := by
  unfold State.txLinkDown
  cases ring with
  | false => exact ⟨(s.mac n).segs, rfl⟩
  | true => exact ⟨_, (mac_congr (macs_txBack _ _ _ _ _ _) n).trans (mac_setMac_same _ _ _)⟩

/-- The frame on the wire or held, where there is one, is discarded. -/
def discard (s : State) (n : Nat) (w : Option Wire) : State :=
  match w with
  | some w => s.txLinkDown n w.cls w.ring
  | none => s

theorem keepsAt_discard {n : Fin 2} {w : Option Wire} (s : State) :
    KeepsAt (LinkRegs n) s (discard s n w) := by
  cases w with
  | none => exact .refl s
  | some x => exact keepsAt_txLinkDown s _

theorem mac_discard (s : State) (n : Nat) (w : Option Wire) : ∃ l, (discard s n w).mac n = { s.mac n with segs := l } := by
  cases w with
  | none => exact ⟨(s.mac n).segs, rfl⟩
  | some x => exact mac_txLinkDown s n x.cls x.ring

theorem leaveUp_eq (s : State) (n : Nat) : s.leaveUp n =
    discard (discard ((s.setMac n { s.mac n with wire := none, held := none, rx := none, rxP := none }).countF
      (MAC_PHYERR_CNT n) 31 0 (b2n (s.mac n).rx.isSome + b2n (s.mac n).rxP.isSome)) n (s.mac n).wire) n (s.mac n).held := rfl

theorem leaveUp_spec (s : State) (n : Fin 2) :
    ((s.leaveUp n).mac n).wire = none ∧ ((s.leaveUp n).mac n).held = none ∧ KeepsAt (LinkRegs n) s (s.leaveUp n) := by
  rw [leaveUp_eq]
  set t := (s.setMac n { s.mac n with wire := none, held := none, rx := none, rxP := none }).countF
    (MAC_PHYERR_CNT n) 31 0 (b2n (s.mac n).rx.isSome + b2n (s.mac n).rxP.isSome)
  have hmac : t.mac n = { s.mac n with wire := none, held := none, rx := none, rxP := none } := mac_setMac_same _ _ _
  have hregs : KeepsAt (LinkRegs n) s t := (KeepsAt.of_regs rfl).countF
    (by simp [LinkRegs, MAC_STAT, MAC_LINKDN_CNT, MAC_PHYERR_CNT]) _ _ _
  obtain ⟨l1, h1⟩ := mac_discard t n (s.mac n).wire
  obtain ⟨l2, h2⟩ := mac_discard (discard t n (s.mac n).wire) n (s.mac n).held
  rw [h2, h1, hmac]
  exact ⟨rfl, rfl, (hregs.trans (keepsAt_discard t)).trans
    (keepsAt_discard _)⟩

theorem macLink_of_keeps {n : Nat} {s u : State} (h : KeepsAt (LinkRegs n) s u) : u.macLink n = s.macLink n :=
  congrArg (bits · 1 0) (h (MAC_STAT n) (.inl rfl))

theorem macs_setMacLink (s : State) (n l : Nat) : (s.setMacLink n l).macs = s.macs := by
  unfold State.setMacLink
  split <;> rfl

/-- A change of state leaves the count of losses. -/
theorem rd_linkdn_setMacLink (s : State) (n l : Nat) : (s.setMacLink n l).rd (MAC_LINKDN_CNT n) = s.rd (MAC_LINKDN_CNT n) := by
  have hkeep : KeepsAt (· = (MAC_LINKDN_CNT n).addr) s (s.setMacLink n l) := .ite (.refl s)
    ((((KeepsAt.refl s).wrF (by simp [MAC_LINKDN_CNT, MAC_STAT]) _ _ _).wrB (by simp [MAC_LINKDN_CNT, MAC_STAT]) _ _).raise
      (by simp [MAC_LINKDN_CNT, MAC_INT]) _)
  exact hkeep _ rfl

/-- A loss from either state with a link: back to acquiring, flagged and counted. -/
theorem linkLost_spec {s t : State} {n : Fin 2} (h : KeepsAt (LinkRegs n) s t) (hl : t.macLink n ≠ 1) :
    let u := (t.setMacLink n 1).count (MAC_LINKDN_CNT n)
    u.macLink n = 1 ∧ u.rdB (MAC_INT n) 0 = true ∧
    u.rdF (MAC_LINKDN_CNT n) 31 0 = min (s.rdF (MAC_LINKDN_CNT n) 31 0 + 1) (2 ^ 32 - 1) := by
  obtain ⟨hlink, hint, -⟩ := setMacLink_spec (by omega) hl
  refine ⟨?_, ?_, ?_⟩
  · rw [State.macLink, State.rdF, State.rd_count_other _ (by simp [MAC_STAT, MAC_LINKDN_CNT])]
    exact hlink
  · rw [State.rdB, State.rd_count_other _ (by simp [MAC_INT, MAC_LINKDN_CNT])]
    exact hint
  · rw [rdF_count_same, State.rdF, rd_linkdn_setMacLink, h _ (.inr rfl), State.rdF]

/-- Settles O41, by the spec of a change of state and of leaving UP. -/
theorem linksChangeState : Obligations.LinksChangeState := by
  unfold Obligations.LinksChangeState
  intro s n _
  refine ⟨fun hl => (gives_iff_of_done rfl).2 ?_, fun hl => (gives_iff_of_done rfl).2 ?_,
    fun hl => (gives_iff_of_done rfl).2 ?_, fun hl => (gives_iff_of_done rfl).2 ?_⟩
  · rw [State.linkLock, if_pos hl]
    obtain ⟨hlink, hint, honly⟩ := setMacLink_spec (s := s) (n := n) (l := 2) (by omega) (by omega)
    exact ⟨hlink, hint, honly.trans (.settle _)⟩
  · obtain ⟨hwire, hheld, hkeep⟩ := leaveUp_spec s n
    rcases hl with hl | hl
    · rw [State.linkLoss, if_pos hl]
      obtain ⟨hlink, hint, hcnt⟩ := linkLost_spec hkeep (by rw [macLink_of_keeps hkeep]; omega)
      have hmac : (((s.leaveUp n).setMacLink n 1).count (MAC_LINKDN_CNT n)).mac n = (s.leaveUp n).mac n :=
        mac_congr (macs_setMacLink _ _ _) n
      exact ⟨hlink, hint, hcnt, fun _ => ⟨(congrArg Mac.wire hmac).trans hwire, (congrArg Mac.held hmac).trans hheld⟩⟩
    · rw [State.linkLoss, if_neg (by omega), if_pos hl]
      obtain ⟨hlink, hint, hcnt⟩ := linkLost_spec (.refl s) (by omega : s.macLink n ≠ 1)
      exact ⟨hlink, hint, hcnt, fun h => by omega⟩
  · obtain ⟨hwire, hheld, hkeep⟩ := leaveUp_spec s n
    rw [State.remoteFault, if_pos hl]
    obtain ⟨hlink, hint, -⟩ := setMacLink_spec (s := s.leaveUp n) (n := n) (l := 3) (by omega)
      (by rw [macLink_of_keeps hkeep]; omega)
    have hmac : ((s.leaveUp n).setMacLink n 3).mac n = (s.leaveUp n).mac n := mac_congr (macs_setMacLink _ _ _) n
    exact ⟨hlink, hint, (congrArg Mac.wire hmac).trans hwire, (congrArg Mac.held hmac).trans hheld⟩
  · rw [State.remoteClear, if_pos hl]
    obtain ⟨hlink, hint, honly⟩ := setMacLink_spec (s := s) (n := n) (l := 2) (by omega) (by omega)
    exact ⟨hlink, hint, honly.trans (.settle _)⟩

end Sys2Proof

namespace Sys2Proof

open Sys2Proof.Machine

/-! Cycles until an instant (R292). -/

theorem le_ceilDiv_mul (a : Nat) {b : Nat} (hb : 0 < b) : a ≤ ceilDiv a b * b := by
  have hmod := Nat.mod_lt (a + b - 1) hb
  have hdiv := Nat.div_add_mod (a + b - 1) b
  unfold ceilDiv
  rw [Nat.mul_comm]
  omega

theorem ceilDiv_mul_lt (a : Nat) {b : Nat} (hb : 0 < b) : ceilDiv a b * b < a + b := by
  have hle := Nat.div_mul_le_self (a + b - 1) b
  unfold ceilDiv
  omega

/-- After the cycles to a value, and with no wrap on the way, the STC is at or past it. -/
theorem stc_advance_cyclesTo {s : State} {t bound : Nat} (hrate : 0 < s.stcRate) (ht : t ≤ s.stc ∨ t + s.stcRate ≤ bound)
    (hstc : s.stc < bound) (hb : bound ≤ 2 ^ 48 * stcSecond) : t ≤ (s.advance (s.cyclesTo t)).stc := by
  have hn : s.stc + s.cyclesTo t * s.stcRate < 2 ^ 48 * stcSecond ∧ t ≤ s.stc + s.cyclesTo t * s.stcRate := by
    unfold State.cyclesTo
    split
    · next h => rw [Nat.zero_mul, Nat.add_zero]; exact ⟨by omega, h⟩
    · next h =>
      have hlo := le_ceilDiv_mul (t - s.stc) hrate
      have hhi := ceilDiv_mul_lt (t - s.stc) hrate
      omega
  have hmod : (s.advance (s.cyclesTo t)).stc = s.stc + s.cyclesTo t * s.stcRate := Nat.mod_eq_of_lt hn.1
  rw [hmod]
  exact hn.2

theorem now_advance (s : State) (n : Nat) : s.now ≤ (s.advance n).now := Nat.le_add_right _ _

/-- Time brought to an instant of the line is at or past it. -/
theorem le_now_advanceTo (s : State) (e : Nat) : e ≤ 25 * (s.advanceTo (ceilDiv e 25)).now := by
  have hceil := le_ceilDiv_mul e (by decide : 0 < 25)
  have hnow : (s.advanceTo (ceilDiv e 25)).now = s.now + (ceilDiv e 25 - s.now) := rfl
  omega

/-! A port as it stands at the present (R267, R269). -/

/-- Only registers and the ports' own state change. -/
def OnlyPorts (s u : State) : Prop := u = { s with regs := u.regs, macs := u.macs }

namespace OnlyPorts

theorem trans {s t u : State} (h : OnlyPorts s t) (k : OnlyPorts t u) : OnlyPorts s u :=
  Eq.trans k (congrArg (fun x : State => { x with regs := u.regs, macs := u.macs }) h)

variable {s u : State} (h : OnlyPorts s u)
include h

theorem mem : u.mem = s.mem := (congrArg State.mem h).trans rfl
theorem now : u.now = s.now := (congrArg State.now h).trans rfl
theorem stc : u.stc = s.stc := (congrArg State.stc h).trans rfl
theorem stcRate : u.stcRate = s.stcRate := (congrArg State.stcRate h).trans rfl

end OnlyPorts

/-- The pause of a port at the present. -/
def pauseLeft (s : State) (n : Nat) : Option (Nat × Nat) := (s.mac n).pause.filter fun x => decide (s.lineNow < x.2)

/-- The first step of `macNow`: a pause that has run out ends, one that has begun shows. -/
def pauseNow (s : State) (n : Nat) : State :=
  match (s.mac n).pause with
  | some (f, u) =>
    if u ≤ s.lineNow then s.pauseEnd n
    else if f ≤ s.lineNow then s.wrB (MAC_STAT n) 3 true else s
  | none => s

/-- The second: the credits up to the instant the first frame of Anise's came. -/
def aniCredits (s : State) (n : Nat) : State :=
  match (s.mac n).aniQ with
  | x :: _ => s.credits n x.1
  | [] => s

theorem macNow_eq (s : State) (n : Nat) : s.macNow n = (aniCredits (pauseNow s n) n).credits n (pauseNow s n).lineNow := by
  have hnow : (aniCredits (pauseNow s n) n).lineNow = (pauseNow s n).lineNow := by
    unfold aniCredits
    split <;> rfl
  rw [← hnow]
  rfl

theorem withPause_self {m : Mac} {p : Option (Nat × Nat)} (h : m.pause = p) : { m with pause := p } = m := by
  subst h
  rfl

theorem pauseNow_spec (s : State) (n : Nat) : (pauseNow s n).mac n = { s.mac n with pause := pauseLeft s n } ∧
    OnlyPorts s (pauseNow s n) ∧ KeepsAt (· ≠ (MAC_STAT n).addr) s (pauseNow s n) := by
  unfold pauseNow pauseLeft
  cases hp : (s.mac n).pause with
  | none => exact ⟨(withPause_self hp).symm, rfl, .refl s⟩
  | some x =>
    obtain ⟨f, e⟩ := x
    dsimp only
    split
    · next h =>
      rw [Option.filter_some, decide_eq_false (by omega)]
      exact ⟨mac_setMac_same _ _ _, rfl, (KeepsAt.of_regs (p := (· ≠ (MAC_STAT n).addr)) rfl).wrF (by simp) _ _ _⟩
    · next h =>
      rw [Option.filter_some, decide_eq_true (by omega), if_pos rfl, withPause_self hp]
      split
      · exact ⟨rfl, rfl, (KeepsAt.refl s).wrB (by simp) _ _⟩
      · exact ⟨rfl, rfl, .refl s⟩

theorem mac_credits (s : State) (n at_ : Nat) :
    ∃ c, (s.credits n at_).mac n = { s.mac n with credit := c, asOf := max (s.mac n).asOf at_ } :=
  ⟨_, mac_setMac_same _ _ _⟩

theorem mac_aniCredits (s : State) (n : Nat) : ∃ c a, (aniCredits s n).mac n = { s.mac n with credit := c, asOf := a } ∧
    OnlyPorts s (aniCredits s n) ∧ (aniCredits s n).regs = s.regs := by
  unfold aniCredits
  split
  · obtain ⟨c, hc⟩ := mac_credits s n (by assumption : Nat × List Byte).1
    exact ⟨c, _, hc, rfl, rfl⟩
  · exact ⟨_, _, rfl, rfl, rfl⟩

/-- The port at the present: its pause where that has not run out, and the credits; MACn_STAT alone may change. -/
theorem macNow_spec (s : State) (n : Nat) :
    (∃ c a, (s.macNow n).mac n = { s.mac n with pause := pauseLeft s n, credit := c, asOf := a }) ∧
    OnlyPorts s (s.macNow n) ∧ KeepsAt (· ≠ (MAC_STAT n).addr) s (s.macNow n) := by
  obtain ⟨hmac, honly, hkeep⟩ := pauseNow_spec s n
  obtain ⟨c1, a1, h1, honly1, hregs1⟩ := mac_aniCredits (pauseNow s n) n
  obtain ⟨c2, h2⟩ := mac_credits (aniCredits (pauseNow s n) n) n (pauseNow s n).lineNow
  rw [macNow_eq]
  refine ⟨⟨_, _, h2.trans (by rw [h1, hmac])⟩, (honly.trans honly1).trans rfl, (hkeep.trans (.of_regs hregs1)).trans (.of_regs rfl)⟩

/-- A pause that has run out shows in MACn_STAT. -/
theorem rdF_stat_macNow_expired {s : State} {n f e : Nat} (hp : (s.mac n).pause = some (f, e)) (he : e ≤ s.lineNow) :
    (s.macNow n).rdF (MAC_STAT n) 4 3 = 0 := by
  have hregs : (s.macNow n).regs = (pauseNow s n).regs := by
    rw [macNow_eq]
    obtain ⟨-, -, -, -, hregs⟩ := mac_aniCredits (pauseNow s n) n
    exact hregs
  have hend : pauseNow s n = s.pauseEnd n := by
    unfold pauseNow
    rw [hp]
    exact if_pos he
  rw [State.rdF, State.rd_congr hregs, hend]
  exact rdF_wrF_same _ _ (by decide) (by decide) 0

theorem gatesAt_congr {s u : State} {n : Nat} (hctrl : u.rd (MAC_CTRL n) = s.rd (MAC_CTRL n))
    (hoper : (u.mac n).oper = (s.mac n).oper) (hnext : (u.mac n).next = (s.mac n).next) (t : Int) :
    u.gatesAt n t = s.gatesAt n t := by
  unfold State.gatesAt State.rdB
  dsimp only
  rw [hctrl, hoper, hnext]

theorem gatesAt_macNow (s : State) (n : Nat) (t : Int) : (s.macNow n).gatesAt n t = s.gatesAt n t := by
  obtain ⟨⟨c, a, hmac⟩, -, hkeep⟩ := macNow_spec s n
  exact gatesAt_congr (hkeep _ (by simp [MAC_CTRL, MAC_STAT])) (by rw [hmac]) (by rw [hmac]) t

theorem mem_macNow (s : State) (n : Nat) : (s.macNow n).mem = s.mem := by
  obtain ⟨-, honly, -⟩ := macNow_spec s n
  exact honly.mem

theorem mac_advance (s : State) (k n : Nat) : (s.advance k).mac n = s.mac n := rfl

/-! Gate lists (R267). -/

/-- The first start of a cycle not before now. -/
theorem first_cycle_start {now base : Int} {c : Nat} (hc : 0 < c) :
    let k := if now ≤ base then 0 else ceilDiv (now - base).toNat c
    now ≤ base + k * c ∧ (k = 0 ∨ base + k * c < now + c) := by
  dsimp only
  split
  · next h => exact ⟨by simpa using h, .inl rfl⟩
  · next h =>
    have hlo : ((now - base).toNat : Int) ≤ (ceilDiv (now - base).toNat c * c : Nat) := by
      exact_mod_cast le_ceilDiv_mul (now - base).toNat hc
    have hhi : ((ceilDiv (now - base).toNat c * c : Nat) : Int) < ((now - base).toNat + c : Nat) := by
      exact_mod_cast ceilDiv_mul_lt (now - base).toNat hc
    push_cast at hlo hhi
    exact ⟨by omega, .inr (by omega)⟩

theorem gclCommit_spec {s : State} {n : Nat} (hcyc : s.rdF (MAC_GCL_CYCLE n) 29 0 ≠ 0) :
    let base : Int := s.nearSec (s.rd (MAC_GCL_BASE_SEC n)) * 1000000000 + s.rdF (MAC_GCL_BASE_NS n) 29 0
    let now : Int := ceilDiv s.stc 1000000000000
    (s.gclCommit n).rd (MAC_GCL_COMMIT n) = 1 ∧ (s.gclCommit n).mem = s.mem ∧
    ((s.gclCommit n).mac n).oper = (s.mac n).oper ∧
    ∃ (g : GateList) (k : Nat), ((s.gclCommit n).mac n).next = some (g, base + k * s.rdF (MAC_GCL_CYCLE n) 29 0) ∧
      g.cycle = s.rdF (MAC_GCL_CYCLE n) 29 0 ∧ g.ivls.length = s.rdF (MAC_GCL_LEN n) 6 0 ∧
      now ≤ base + k * g.cycle ∧ (k = 0 ∨ base + k * g.cycle < now + g.cycle) := by
  intro base now
  obtain ⟨hnow, hfirst⟩ := first_cycle_start (now := now) (base := base) (Nat.pos_of_ne_zero hcyc)
  unfold State.gclCommit
  extract_lets cyc k inst l m
  refine ⟨State.rd_wr_same _ _ _, rfl, (congrArg Mac.oper (mac_setMac_same _ _ _)).trans rfl, ⟨inst, cyc, l⟩, k,
    congrArg Mac.next (mac_setMac_same _ _ _), rfl, ?_, hnow, hfirst⟩
  simp [l, upTo]

/-- A list becomes operational once time has passed to its first cycle. -/
theorem gclActivate_eq {s : State} {n : Nat} {g : GateList} {i : Int} (h : (s.mac n).next = some (g, i)) :
    ∃ t : State, t.mem = s.mem ∧ s.gclActivate n = ((((t.setMac n { t.mac n with oper := some g, next := none }).wr
      (MAC_GCL_COMMIT n) 0).wrF (MAC_GCL_STAT n) 14 8 g.ivls.length).raise (MAC_INT n) 0x40#32) := by
  refine ⟨((s.macNow n).advance (s.cyclesTo (i * 1000000000000).toNat)).macNow n, ?_, ?_⟩
  · generalize (i * 1000000000000).toNat = t
    exact (mem_macNow _ n).trans (mem_macNow s n)
  · unfold State.gclActivate
    rw [h]

theorem gclActivate_spec {s : State} {n : Nat} {g : GateList} {i : Int} (h : (s.mac n).next = some (g, i)) :
    ((s.gclActivate n).mac n).oper = some g ∧ ((s.gclActivate n).mac n).next = none ∧
    (s.gclActivate n).rd (MAC_GCL_COMMIT n) = 0 ∧ (s.gclActivate n).rdF (MAC_GCL_STAT n) 14 8 = g.ivls.length % 128 ∧
    (s.gclActivate n).rdB (MAC_INT n) 6 = true ∧ (s.gclActivate n).mem = s.mem := by
  obtain ⟨t, hmem, heq⟩ := gclActivate_eq h
  rw [heq]
  refine ⟨congrArg Mac.oper (mac_setMac_same _ _ _), congrArg Mac.next (mac_setMac_same _ _ _), ?_, ?_,
    rdB_raise_same _ _ (by decide), hmem⟩
  · rw [State.rd_raise_other _ _ (by simp [MAC_GCL_COMMIT, MAC_INT]),
      State.rd_wrF_other _ _ _ _ (by simp [MAC_GCL_COMMIT, MAC_GCL_STAT]), State.rd_wr_same]
  · rw [State.rdF, State.rd_raise_other _ _ (by simp [MAC_GCL_STAT, MAC_INT])]
    exact rdF_wrF_same _ _ (by decide) (by decide) _

/-- Time passes to a value of the STC, between two looks at a port. -/
theorem advanced_macNow_spec {s : State} {n t : Nat} (hrate : 0 < s.stcRate) (hroom : t + s.stcRate ≤ 2 ^ 48 * stcSecond)
    (hstc : s.stc < 2 ^ 48 * stcSecond) :
    let u := ((s.macNow n).advance ((s.macNow n).cyclesTo t)).macNow n
    s.now ≤ u.now ∧ t ≤ u.stc ∧ (u.mac n).oper = (s.mac n).oper ∧ u.mem = s.mem := by
  obtain ⟨⟨c, a, hmac⟩, honly, -⟩ := macNow_spec s n
  obtain ⟨⟨c', a', hmac'⟩, honly', -⟩ := macNow_spec ((s.macNow n).advance ((s.macNow n).cyclesTo t)) n
  refine ⟨?_, ?_, ?_, honly'.mem.trans honly.mem⟩
  · rw [honly'.now]
    exact honly.now ▸ now_advance _ _
  · rw [honly'.stc]
    refine stc_advance_cyclesTo (honly.stcRate ▸ hrate) (.inr ?_) ?_ (Nat.le_refl _)
    · rwa [honly.stcRate]
    · rwa [honly.stc]
  · rw [hmac', mac_advance, hmac]

/-- The end of an interval: time passes to it, and the list in force stays. -/
theorem gateIvlEnd_spec {s : State} {n d : Nat} (hd : (s.gatesAt n s.stcInt).2 = some d) (hrate : 0 < s.stcRate)
    (hroom : s.stc + d * 1000000000000 + s.stcRate < 2 ^ 48 * stcSecond) :
    s.now ≤ (s.gateIvlEnd n).now ∧ (s.stc / 1000000000000 + d) * 1000000000000 ≤ (s.gateIvlEnd n).stc ∧
    ((s.gateIvlEnd n).mac n).oper = (s.mac n).oper ∧ (s.gateIvlEnd n).mem = s.mem := by
  have hstcInt : (s.macNow n).stcInt = s.stcInt := by
    obtain ⟨-, honly, -⟩ := macNow_spec s n
    rw [State.stcInt, State.stcInt, honly.stc]
  have hend : s.gateIvlEnd n = ((s.macNow n).advance ((s.macNow n).cyclesTo
      ((s.stcInt + d) * 1000000000000).toNat)).macNow n := by
    unfold State.gateIvlEnd
    simp only [gatesAt_macNow, hstcInt, hd]
  have hinst : ((s.stcInt + d) * 1000000000000).toNat = (s.stc / 1000000000000 + d) * 1000000000000 := by
    rw [State.stcInt]
    omega
  rw [hend, hinst]
  exact advanced_macNow_spec hrate (by omega) (by omega)

/-! Pauses (R269, R270). -/

theorem pauseExpire_spec {s : State} {n f e : Nat} (h : (s.mac n).pause = some (f, e)) :
    ((s.pauseExpire n).mac n).pause = none ∧ (s.pauseExpire n).rdF (MAC_STAT n) 4 3 = 0 ∧
    e ≤ 25 * (s.pauseExpire n).now ∧ (s.pauseExpire n).mem = s.mem := by
  have hexp : s.pauseExpire n = (s.advanceTo (ceilDiv e 25)).macNow n := by
    unfold State.pauseExpire
    rw [h]
  rw [hexp]
  set t := s.advanceTo (ceilDiv e 25) with ht
  have hpast : e ≤ t.lineNow := le_now_advanceTo s e
  have hpause : (t.mac n).pause = some (f, e) := h
  obtain ⟨⟨c, a, hmac⟩, honly, -⟩ := macNow_spec t n
  refine ⟨?_, rdF_stat_macNow_expired hpause hpast, ?_, honly.mem⟩
  · rw [hmac, pauseLeft, hpause, Option.filter_some, decide_eq_false (by dsimp only; omega)]
    rfl
  · rw [honly.now]
    exact hpast

theorem pauseDog_spec {s : State} {n f e : Nat} (h : (s.mac n).pause = some (f, e)) (hstat : s.rdB (MAC_STAT n) 4 = false)
    (hceil : (s.mac n).meas + 25000 * s.rdF (MAC_PWD n) 15 0 < e) :
    (s.pauseDog n).rdB (MAC_STAT n) 4 = true ∧ (s.pauseDog n).rdB (MAC_INT n) 1 = true ∧
    (s.pauseDog n).rdF (MAC_PWD_CNT n) 31 0 = min (s.rdF (MAC_PWD_CNT n) 31 0 + 1) (2 ^ 32 - 1) ∧
    (s.mac n).meas + 25000 * s.rdF (MAC_PWD n) 15 0 ≤ 25 * (s.pauseDog n).now ∧ (s.pauseDog n).mem = s.mem := by
  set c := (s.mac n).meas + 25000 * s.rdF (MAC_PWD n) 15 0 with hc
  set t := s.advanceTo (ceilDiv c 25) with ht
  have hdog : s.pauseDog n = ((((t.macNow n).wrB (MAC_STAT n) 4 true).raise (MAC_INT n) 2#32).count (MAC_PWD_CNT n)) := by
    unfold State.pauseDog
    rw [h]
    dsimp only
    rw [← hc, hstat, decide_eq_false (by omega), Bool.or_false, if_neg (by decide)]
  obtain ⟨-, honly, hkeep⟩ := macNow_spec t n
  rw [hdog]
  refine ⟨?_, ?_, ?_, ?_, honly.mem⟩
  · rw [State.rdB, State.rd_count_other _ (by simp [MAC_STAT, MAC_PWD_CNT]),
      State.rd_raise_other _ _ (by simp [MAC_STAT, MAC_INT])]
    exact rdB_wrB_same _ _ (by decide) _
  · rw [State.rdB, State.rd_count_other _ (by simp [MAC_INT, MAC_PWD_CNT])]
    exact rdB_raise_same _ _ (by decide)
  · rw [rdF_count_same, State.rdF, State.rd_raise_other _ _ (by simp [MAC_PWD_CNT, MAC_INT]),
      State.rd_wrB_other _ _ _ (by simp [MAC_PWD_CNT, MAC_STAT]), hkeep _ (by simp [MAC_PWD_CNT, MAC_STAT])]
    rfl
  · exact (le_now_advanceTo s c).trans_eq (congrArg (25 * ·) honly.now.symm)

/-! The stamp queue (R274). -/

theorem stampPop_cons {s : State} {n : Nat} {x : TsEntry} {r : List TsEntry} (h : (s.mac n).tsq = x :: r) :
    ((s.stampPop n).mac n).tsq = r ∧
    (s.stampPop n).rd (MAC_TSQ_STAT n) = BitVec.ofNat 32 (2 ^ 31 + 2 ^ 30 * b2n x.lost.isSome + r.length) ∧
    (s.stampPop n).rd (MAC_TSQ_ID n) = BitVec.ofNat 32 (x.lost.getD 0 * 65536 + x.id) ∧
    (s.stampPop n).rd (MAC_TSQ_SEC n) = secWord x.ns ∧ (s.stampPop n).rd (MAC_TSQ_NS n) = nsWord x.ns ∧
    (s.stampPop n).mem = s.mem := by
  unfold State.stampPop
  dsimp only
  rw [h]
  refine ⟨congrArg Mac.tsq (mac_setMac_same _ _ _), ?_, ?_, ?_, State.rd_wr_same _ _ _, rfl⟩
  · rw [State.rd_wr_other _ _ (by simp [MAC_TSQ_STAT, MAC_TSQ_NS]), State.rd_wr_other _ _ (by simp [MAC_TSQ_STAT, MAC_TSQ_SEC]),
      State.rd_wr_other _ _ (by simp [MAC_TSQ_STAT, MAC_TSQ_ID]), State.rd_wr_same]
  · rw [State.rd_wr_other _ _ (by simp [MAC_TSQ_ID, MAC_TSQ_NS]), State.rd_wr_other _ _ (by simp [MAC_TSQ_ID, MAC_TSQ_SEC]),
      State.rd_wr_same]
  · rw [State.rd_wr_other _ _ (by simp [MAC_TSQ_SEC, MAC_TSQ_NS]), State.rd_wr_same]

theorem stampPop_nil {s : State} {n : Nat} (h : (s.mac n).tsq = []) :
    (s.stampPop n).rdB (MAC_TSQ_STAT n) 31 = false ∧ OnlyRegs s (s.stampPop n) [MAC_TSQ_STAT n] := by
  unfold State.stampPop
  dsimp only
  rw [h]
  exact ⟨rdB_wrB_same _ _ (by decide) _, .wr _ _ _⟩

/-- Settles O42, an operation at a time. -/
theorem gatesPausesAndStamps : Obligations.GatesPausesAndStamps := by
  unfold Obligations.GatesPausesAndStamps
  refine ⟨fun s q n hreach hcyc => gives_gated rfl hreach ?_, fun s n g i h => (gives_iff_of_done rfl).2 (gclActivate_spec h),
    fun s n d hd hrate hroom => (gives_iff_of_done rfl).2 (gateIvlEnd_spec hd hrate hroom),
    fun s n f e h => (gives_iff_of_done rfl).2 (pauseExpire_spec h),
    fun s n f e h hstat hceil => (gives_iff_of_done rfl).2 (pauseDog_spec h hstat hceil),
    fun s q n hreach => gives_gated rfl hreach ⟨fun h => ?_, fun x r h => stampPop_cons (s := s.respond 0 false) h⟩⟩
  · exact gclCommit_spec (s := s.respond 0 false) hcyc
  · obtain ⟨hvalid, honly⟩ := stampPop_nil (s := s.respond 0 false) h
    exact ⟨hvalid, honly.after_respond⟩

end Sys2Proof

namespace Sys2Proof

open Sys2Proof.Machine

/-! Transmit selection on a port with neither gates, shaping nor pause (R266). -/

/-- No gate, no shaped class, no pause and no frame under way holds a class of the port back. -/
structure OpenPort (s : State) (n : Nat) : Prop where
  gates : s.rdB (MAC_CTRL n) 6 = false
  wire : (s.mac n).wire = none
  held : (s.mac n).held = none
  pause : (s.mac n).pause = none
  segs : (s.mac n).segs = []
  shaping : ∀ k < 8, s.rdB (MAC_TCCFG n) (8 + k) = false

/-- A state that differs on a port in its credits alone. -/
structure SamePort (s u : State) (n : Nat) : Prop where
  regs : u.regs = s.regs
  mem : u.mem = s.mem
  mac : ∃ c a, u.mac n = { s.mac n with credit := c, asOf := a }

theorem samePort_credits {s t : State} {n : Nat} (h : SamePort s t n) (at_ : Nat) : SamePort s (t.credits n at_) n := by
  obtain ⟨c, a, hmac⟩ := h.mac
  obtain ⟨c', hmac'⟩ := mac_credits t n at_
  exact ⟨h.regs, h.mem, _, _, hmac'.trans (by rw [hmac])⟩

namespace SamePort

variable {s u : State} {n : Nat} (h : SamePort s u n)
include h

theorem rd (r : Reg) : u.rd r = s.rd r := State.rd_congr h.regs r

theorem openPort (o : OpenPort s n) : OpenPort u n := by
  obtain ⟨c, a, hmac⟩ := h.mac
  refine ⟨?_, ?_, ?_, ?_, ?_, fun k hk => ?_⟩
  · rw [State.rdB, h.rd]; exact o.gates
  · rw [hmac]; exact o.wire
  · rw [hmac]; exact o.held
  · rw [hmac]; exact o.pause
  · rw [hmac]; exact o.segs
  · rw [State.rdB, h.rd]; exact o.shaping k hk

theorem txReady (t : Nat) : u.txReady n t = s.txReady n t := by
  simp only [State.txReady, State.rdF, h.rd]

theorem txWords (t : Nat) : u.txWords n t = s.txWords n t := by
  simp only [State.txWords, State.txDesc, State.rdF, h.rd, h.mem]

theorem maxlen : u.maxlen n = s.maxlen n := by simp only [State.maxlen, State.rdF, h.rd]

end SamePort

namespace OpenPort

variable {s : State} {n : Nat} (o : OpenPort s n)
include o

theorem gatesAt (t : Int) : s.gatesAt n t = (255, none) := by
  unfold State.gatesAt
  rw [o.gates]
  rfl

theorem gateBig (t len : Nat) : s.gateBig n t len = false := by
  unfold State.gateBig
  rw [o.gates, Bool.false_and]

theorem pausedAt (t : Nat) : (s.mac n).pausedAt t = false := by
  unfold Mac.pausedAt
  rw [o.pause]

theorem mayStart {t : Nat} (ht : t < 8) (at_ : Nat) : s.mayStart n t at_ = true := by
  have hopen : ∀ t < 8, opens 255 t = true := by decide
  unfold State.mayStart
  dsimp only
  rw [o.gatesAt, o.pausedAt, o.shaping t ht, hopen t ht]
  rfl

/-- A gate that never closes leaves room for every frame of two to the sixteenth bytes and its preamble and FCS. -/
theorem fits {t len : Nat} (ht : t < 8) (hlen : len < 2 ^ 17) (at_ : Nat) : s.fits n t at_ len 0 = some len := by
  have hopen : ∀ t < 8, opens 255 t = true := by decide
  have hleft : s.gateLeft n t at_ = 25 * 2000000000 := by
    unfold State.gateLeft State.openFor
    rw [o.gatesAt, if_pos (hopen t ht)]
  have hbyte : s.byteT n ≤ 20 := by
    unfold State.byteT
    split <;> omega
  have hroom : (8 + (len - 0)) * s.byteT n ≤ 25 * 2000000000 :=
    (Nat.mul_le_mul_left _ hbyte).trans (by omega)
  unfold State.fits
  rw [hleft, if_pos hroom]

/-- A class in which nothing waits is passed over. -/
theorem macScan_skip {t : Nat} (hoff : (s.mac n).offered t = none) (hring : s.txReady n t = false) (k at_ : Nat) :
    State.macScan (k + 1) s n (t + 1) at_ = State.macScan k s n t at_ := by
  rw [State.macScan]
  simp only [o.held, Option.isSome_none, Bool.false_and, Bool.false_eq_true, if_false, hoff, ite_self, hring]

theorem macScan_skips {t : Nat} (j k at_ : Nat)
    (h : ∀ i, t ≤ i → i < t + j → (s.mac n).offered i = none ∧ s.txReady n i = false) :
    State.macScan (k + j) s n (t + j) at_ = State.macScan k s n t at_ := by
  induction j with
  | zero => rfl
  | succ j ih =>
    obtain ⟨hoff, hring⟩ := h (t + j) (by omega) (by omega)
    rw [← Nat.add_assoc, ← Nat.add_assoc, o.macScan_skip hoff hring, ih fun i hi hj => h i hi (by omega)]

/-- The frame that the stream engine offers in a class starts. -/
theorem macScan_offered {t : Nat} (ht : t < 8) {bs : List Byte} (hstrm : (s.mac n).strmHead t = some bs)
    (hlen : bs.length + 4 ≤ s.maxlen n) (k at_ : Nat) :
    State.macScan (k + 1) s n (t + 1) at_ = (s.setMac n ((s.mac n).drop t)).startWire n
      { cls := t, ring := false, data := sealFrame bs, upto := max bs.length 60 + 4, start := at_ } := by
  have hmax : s.maxlen n < 2 ^ 14 := rdF_lt s (MAC_MAXLEN n) 13 0
  have hoff : (s.mac n).offered t = some bs := by
    unfold Mac.offered
    rw [hstrm]
  have hfw : (s.mac n).fwHead t = none := by
    unfold Mac.fwHead
    rw [hstrm]
    rfl
  have hseg : sget 0 (s.mac n).segs t = 0 := by rw [o.segs]; rfl
  rw [State.macScan]
  simp only [o.held, Option.isSome_none, Bool.false_and, Bool.false_eq_true, if_false, hseg, if_true, hoff, o.gateBig,
    Bool.false_or, decide_eq_true_eq, if_neg (by omega : ¬ s.maxlen n < bs.length + 4), o.mayStart ht,
    o.fits ht (by omega : max bs.length 60 + 4 < 2 ^ 17), hfw, Option.bind_none, Option.map_none]

/-- The plain frame of a class's head descriptor starts. -/
theorem macScan_ring {t : Nat} (ht : t < 8) (hoff : (s.mac n).offered t = none) (hring : s.txReady n t = true) {d : TxD}
    (hd : txD (s.txWords n t) = d) (herr : s.txErr n t d = 0) (hsegd : d.seg = false) (hcsum : d.csum = false)
    (hone : d.one = false) (hts : d.ts = false) (k at_ : Nat) :
    State.macScan (k + 1) s n (t + 1) at_ = (s.setMac n (s.mac n)).startWire n
      { cls := t, ring := true, data := sealFrame (bytesAt s.mem d.addr d.len), upto := max d.len 60 + 4, start := at_ } := by
  have hframe : ∀ i ns, s.txFrame d i ns = bytesAt s.mem d.addr d.len := fun i ns => by
    simp only [State.txFrame, hsegd, hcsum, hone, Bool.false_eq_true, if_false]
    split <;> rfl
  have hlen : (sealFrame (bytesAt s.mem d.addr d.len)).length = max d.len 60 + 4 := by
    simp only [sealFrame, List.length_append, List.length_replicate, bytesAt, List.length_map, upTo, List.length_range,
      leBytes]
    omega
  have hheld : (s.mac n).held.isSome = false := by rw [o.held]; rfl
  have hbig : d.len < 2 ^ 16 := hd ▸ Nat.mod_lt _ (Nat.two_pow_pos _)
  have hseg : sget 0 (s.mac n).segs t = 0 := by rw [o.segs]; rfl
  rw [State.macScan]
  simp only [hheld, Bool.false_and, Bool.false_eq_true, if_false, hseg, if_true, hoff, hring, hd, herr,
    bne_self_eq_false, hsegd, hts, o.mayStart ht, hframe, hlen, o.fits ht (by omega : max d.len 60 + 4 < 2 ^ 17)]

end OpenPort

/-- On an open port a selection is a scan of the classes and nothing else. -/
theorem macSelect_open {s : State} {n : Nat} (o : OpenPort s n) (hup : s.macUp n = true) (hani : (s.mac n).aniQ = []) :
    ∃ u f, 8 ≤ f ∧ SamePort s u n ∧ s.macSelect n =
      (State.macScan f u n 8 (max (s.mac n).free (25 * s.now))).resume n (max (s.mac n).free (25 * s.now)) := by
  have hnow : s.macNow n = s.credits n s.lineNow := by
    have hpause : pauseNow s n = s := by
      unfold pauseNow
      rw [o.pause]
    rw [macNow_eq, hpause]
    unfold aniCredits
    rw [hani]
  have hself : SamePort s s n := ⟨rfl, rfl, _, _, rfl⟩
  have hsame : SamePort s (s.credits n s.lineNow) n := samePort_credits hself _
  have hup' : (s.credits n s.lineNow).macUp n = true := hup
  have hwire : ((s.credits n s.lineNow).mac n).wire = none := (hsame.openPort o).wire
  have hfree : ((s.credits n s.lineNow).mac n).free = (s.mac n).free := by
    obtain ⟨c, a, hmac⟩ := hsame.mac
    rw [hmac]
  have hsel : ∃ f, 8 ≤ f ∧ s.macSelect n = (State.macScan f ((s.credits n s.lineNow).credits n
      (max (s.mac n).free (25 * s.now))) n 8 (max (s.mac n).free (25 * s.now))).resume n (max (s.mac n).free (25 * s.now)) := by
    unfold State.macSelect
    dsimp only
    rw [hnow, hup', hwire, if_pos rfl, hfree]
    refine ⟨_, ?_, rfl⟩
    omega
  obtain ⟨f, hf, hsel⟩ := hsel
  exact ⟨_, f, hf, samePort_credits hsame _, hsel⟩

/-- A frame that has started leaves nothing to resume. -/
theorem resume_startWire (s : State) (n at_ : Nat) (w : Wire) : (s.startWire n w).resume n at_ = s.startWire n w := by
  have hwire : ((s.startWire n w).mac n).wire = some w := congrArg Mac.wire (mac_setMac_same _ _ _)
  unfold State.resume
  dsimp only
  rw [hwire]

theorem mac_startWire (s : State) (n : Nat) (w : Wire) : ∃ a, (s.startWire n w).mac n = { s.mac n with wire := some w, asOf := a } :=
  ⟨_, mac_setMac_same _ _ _⟩

theorem offered_none {m : Mac} (hstrm : m.strmQ = []) (hfw : m.fwQ = []) (hani : m.aniQ = []) (t : Nat) : m.offered t = none := by
  simp [Mac.offered, Mac.fwHead, Mac.strmHead, Mac.aniHead, hstrm, hfw, hani]

theorem strmHead_one {m : Mac} {t : Nat} {bs : List Byte} (h : m.strmQ = [(t, bs)]) (k : Nat) :
    m.strmHead k = if k = t then some bs else none := by
  unfold Mac.strmHead
  rw [h]
  by_cases hk : k = t
  · simp [hk]
  · simp [hk, Ne.symm hk]

theorem offered_other {m : Mac} {t k : Nat} {bs : List Byte} (h : m.strmQ = [(t, bs)]) (hfw : m.fwQ = []) (hani : m.aniQ = [])
    (hk : k ≠ t) : m.offered k = none := by
  have hstrm : m.strmHead k = none := by rw [strmHead_one h, if_neg hk]
  simp [Mac.offered, Mac.fwHead, Mac.aniHead, hstrm, hfw, hani]

theorem drop_one {m : Mac} {t : Nat} {bs : List Byte} (h : m.strmQ = [(t, bs)]) : (m.drop t).strmQ = [] := by
  unfold Mac.drop
  rw [strmHead_one h, if_pos rfl]
  simp [h]

/-- The stream engine's frame starts on an open port. -/
theorem macSelect_strm {s : State} {n : Nat} {t : Fin 8} (o : OpenPort s n) (hup : s.macUp n = true) (hfw : (s.mac n).fwQ = [])
    (hani : (s.mac n).aniQ = []) {bs : List Byte} (hstrm : (s.mac n).strmQ = [(t.val, bs)])
    (hring : ∀ k < 8, s.txReady n k = false) (hlen : bs.length + 4 ≤ s.maxlen n) :
    ((s.macSelect n).mac n).wire = some { cls := t, ring := false, data := sealFrame bs, upto := max bs.length 60 + 4,
                                          start := max (s.mac n).free (25 * s.now) } ∧
    ((s.macSelect n).mac n).strmQ = [] ∧ (s.macSelect n).mem = s.mem := by
  obtain ⟨u, f, hf, hsame, hsel⟩ := macSelect_open o hup hani
  obtain ⟨c, a, hmac⟩ := hsame.mac
  have ou := hsame.openPort o
  have ht := t.isLt
  have hq : (u.mac n).strmQ = [(t.val, bs)] := by rw [hmac]; exact hstrm
  have hidle : ∀ i, t.val + 1 ≤ i → i < t.val + 1 + (7 - t.val) → (u.mac n).offered i = none ∧ u.txReady n i = false :=
    fun i hi hi8 => ⟨offered_other hq (by rw [hmac]; exact hfw) (by rw [hmac]; exact hani) (by omega),
      (hsame.txReady i).trans (hring i (by omega))⟩
  have hskip := ou.macScan_skips (7 - t.val) (f - (7 - t.val)) (max (s.mac n).free (25 * s.now)) hidle
  have hhead : (u.mac n).strmHead t.val = some bs := by rw [strmHead_one hq, if_pos rfl]
  have hstart := ou.macScan_offered ht hhead (hsame.maxlen ▸ hlen) (f - (7 - t.val) - 1) (max (s.mac n).free (25 * s.now))
  rw [show f - (7 - t.val) + (7 - t.val) = f by omega, show t.val + 1 + (7 - t.val) = 8 by omega] at hskip
  rw [show f - (7 - t.val) - 1 + 1 = f - (7 - t.val) by omega] at hstart
  rw [hsel, hskip, hstart, resume_startWire]
  obtain ⟨b, hb⟩ := mac_startWire (u.setMac n ((u.mac n).drop t.val)) n
    { cls := t, ring := false, data := sealFrame bs, upto := max bs.length 60 + 4, start := max (s.mac n).free (25 * s.now) }
  rw [hb, mac_setMac_same]
  exact ⟨rfl, drop_one hq, hsame.mem⟩

/-- The plain frame of the one ring that is ready starts on an open port. -/
theorem macSelect_ring {s : State} {n : Nat} {t : Fin 8} (o : OpenPort s n) (hup : s.macUp n = true) (hfw : (s.mac n).fwQ = [])
    (hani : (s.mac n).aniQ = []) (hstrm : (s.mac n).strmQ = []) (hring : ∀ k < 8, s.txReady n k = decide (k = t.val)) {d : TxD}
    (hd : txD (s.txWords n t) = d) (herr : s.txErr n t d = 0) (hsegd : d.seg = false) (hcsum : d.csum = false)
    (hone : d.one = false) (hts : d.ts = false) :
    ((s.macSelect n).mac n).wire = some { cls := t, ring := true, data := sealFrame (bytesAt s.mem d.addr d.len),
                                          upto := max d.len 60 + 4, start := max (s.mac n).free (25 * s.now) } ∧
    (s.macSelect n).mem = s.mem := by
  obtain ⟨u, f, hf, hsame, hsel⟩ := macSelect_open o hup hani
  obtain ⟨c, a, hmac⟩ := hsame.mac
  have ou := hsame.openPort o
  have ht := t.isLt
  have hoff : ∀ k, (u.mac n).offered k = none :=
    offered_none (by rw [hmac]; exact hstrm) (by rw [hmac]; exact hfw) (by rw [hmac]; exact hani)
  have hidle : ∀ i, t.val + 1 ≤ i → i < t.val + 1 + (7 - t.val) → (u.mac n).offered i = none ∧ u.txReady n i = false :=
    fun i hi hi8 => ⟨hoff i, ((hsame.txReady i).trans (hring i (by omega))).trans (decide_eq_false (by omega))⟩
  have hskip := ou.macScan_skips (7 - t.val) (f - (7 - t.val)) (max (s.mac n).free (25 * s.now)) hidle
  have herr' : u.txErr n t d = 0 := by
    have hsame' : u.txErr n t d = s.txErr n t d := by
      unfold State.txErr
      rw [hsame.maxlen, hsame.mem, o.gateBig, ou.gateBig]
    rw [hsame', herr]
  have hstart := ou.macScan_ring ht (hoff t) ((hsame.txReady t).trans ((hring t ht).trans (decide_eq_true rfl)))
    ((congrArg txD (hsame.txWords t)).trans hd) herr' hsegd hcsum hone hts (f - (7 - t.val) - 1) (max (s.mac n).free (25 * s.now))
  rw [show f - (7 - t.val) + (7 - t.val) = f by omega, show t.val + 1 + (7 - t.val) = 8 by omega] at hskip
  rw [show f - (7 - t.val) - 1 + 1 = f - (7 - t.val) by omega, hsame.mem] at hstart
  rw [hsel, hskip, hstart, resume_startWire]
  obtain ⟨b, hb⟩ := mac_startWire (u.setMac n (u.mac n)) n
    { cls := t, ring := true, data := sealFrame (bytesAt s.mem d.addr d.len), upto := max d.len 60 + 4,
      start := max (s.mac n).free (25 * s.now) }
  rw [hb]
  exact ⟨rfl, hsame.mem⟩

end Sys2Proof

namespace Sys2Proof

open Sys2Proof.Machine

/-! The write-back of a descriptor without error (R265). -/

/-- Word 7 of a descriptor that is written back without error. -/
def doneWord (status segs : Nat) : Word := BitVec.ofNat 32 (2 ^ 31 + status * 2 ^ 28 + 0 * 2 ^ 24 + segs)

theorem txBack_done (s : State) (n t status segs : Nat) : s.txBack n t status 0 segs =
    let u := s.netWord (s.txDesc n t + 28) (doneWord status segs)
    u.upd (MAC_TXQ_HEAD n t) (fun h => BitVec.ofNat 32 ((h.toNat + 1) % (u.rdF (MAC_TXQ_SIZE n t) 12 0))) := rfl

theorem rd_netWord (s : State) (a : Nat) (w : Word) (r : Reg) : (s.netWord a w).rd r = s.rd r := rfl

theorem now_netWord (s : State) (a : Nat) (w : Word) : (s.netWord a w).now = s.now := rfl

theorem rdF_netWord (s : State) (a : Nat) (w : Word) (r : Reg) (hi lo : Nat) : (s.netWord a w).rdF r hi lo = s.rdF r hi lo := rfl

theorem mem_txBack_done (s : State) (n t status segs : Nat) :
    (s.txBack n t status 0 segs).mem = putWord s.mem (s.txDesc n t + 28) (doneWord status segs) := by
  rw [txBack_done]
  rfl

theorem rd_head_txBack_done (s : State) (n t status segs : Nat) : (s.txBack n t status 0 segs).rd (MAC_TXQ_HEAD n t) =
    BitVec.ofNat 32 (((s.rd (MAC_TXQ_HEAD n t)).toNat + 1) % s.rdF (MAC_TXQ_SIZE n t) 12 0) := by
  rw [txBack_done]
  dsimp only
  rw [State.rd_upd_same, rd_netWord, rdF_netWord]

theorem rd_txBack_done_other (s : State) (n t status segs : Nat) {r : Reg} (h : r.addr ≠ (MAC_TXQ_HEAD n t).addr) :
    (s.txBack n t status 0 segs).rd r = s.rd r := by
  rw [txBack_done]
  dsimp only
  rw [State.rd_upd_other _ _ h, rd_netWord]

theorem now_txBack_done (s : State) (n t status segs : Nat) : (s.txBack n t status 0 segs).now = s.now := by
  rw [txBack_done]
  dsimp only
  rw [State.upd_now, now_netWord]

theorem mac_txBack (s : State) (n t status err segs k : Nat) : (s.txBack n t status err segs).mac k = s.mac k :=
  mac_congr (macs_txBack s n t status err segs) k

/-! A frame that leaves the port (R265). -/

/-- A port from which a whole frame has gone, counted, at the end of the frame's time on the line. -/
def frameLeft (t : State) (n e : Nat) (w : Wire) : State :=
  let t := t.setMac n { t.mac n with wire := none, free := e + 12 * t.byteT n }
  let t := t.setMac n { t.mac n with sent := (t.mac n).sent ++ [(w.start, w.data)] }
  (t.count (MAC_TXFRM_CNT n)).upd (MAC_TXBYTE_CNT n) (· + BitVec.ofNat 32 w.data.length)

/-- The counters of frames and bytes sent. -/
def TxCounters (n a : Nat) : Prop := a = (MAC_TXFRM_CNT n).addr ∨ a = (MAC_TXBYTE_CNT n).addr

theorem frameLeft_spec (t : State) (n e : Nat) (w : Wire) :
    (∃ f, (frameLeft t n e w).mac n =
      { t.mac n with wire := none, free := f, sent := (t.mac n).sent ++ [(w.start, w.data)] }) ∧
    (frameLeft t n e w).now = t.now ∧ (frameLeft t n e w).mem = t.mem ∧
    (frameLeft t n e w).rdF (MAC_TXFRM_CNT n) 31 0 = min (t.rdF (MAC_TXFRM_CNT n) 31 0 + 1) (2 ^ 32 - 1) ∧
    KeepsAt (fun a => ¬ TxCounters n a) t (frameLeft t n e w) := by
  have hother : (MAC_TXFRM_CNT n).addr ≠ (MAC_TXBYTE_CNT n).addr := by simp [MAC_TXFRM_CNT, MAC_TXBYTE_CNT]
  refine ⟨⟨_, (mac_setMac_same _ _ _).trans (by rw [mac_setMac_same])⟩, rfl, rfl, ?_, ?_⟩
  · unfold State.rdF frameLeft
    rw [State.rd_upd_other _ _ hother]
    exact rdF_count_same _ _
  · unfold frameLeft
    extract_lets _ t1 _ t2
    have hmacs : KeepsAt (fun a => ¬ TxCounters n a) t t2 := .of_regs rfl
    exact (hmacs.count fun h => h (.inl rfl)).upd (fun h => h (.inr rfl)) _

/-- A whole frame of a ring that has left, before its write-back. -/
def ringFrameLeft (s : State) (n : Nat) (w : Wire) : State :=
  frameLeft ((s.advanceTo (ceilDiv (s.wireEnd n w) 25)).macNow n) n (s.wireEnd n w) w

theorem ringFrameLeft_spec (s : State) (n : Nat) (w : Wire) :
    let t := ringFrameLeft s n w
    (t.mac n).wire = none ∧ (t.mac n).sent = (s.mac n).sent ++ [(w.start, w.data)] ∧ (t.mac n).segs = (s.mac n).segs ∧
    s.wireEnd n w ≤ 25 * t.now ∧ t.mem = s.mem ∧
    t.rdF (MAC_TXFRM_CNT n) 31 0 = min (s.rdF (MAC_TXFRM_CNT n) 31 0 + 1) (2 ^ 32 - 1) ∧
    KeepsAt (fun a => a ≠ (MAC_STAT n).addr ∧ ¬ TxCounters n a) s t := by
  generalize he : s.wireEnd n w = e
  obtain ⟨⟨c, a, hmac⟩, honly, hkeep⟩ := macNow_spec (s.advanceTo (ceilDiv e 25)) n
  obtain ⟨⟨f, hleft⟩, hnow, hmem, hcnt, hkept⟩ := frameLeft_spec ((s.advanceTo (ceilDiv e 25)).macNow n) n e w
  have hpast := le_now_advanceTo s e
  have hfrm : ((s.advanceTo (ceilDiv e 25)).macNow n).rd (MAC_TXFRM_CNT n) = s.rd (MAC_TXFRM_CNT n) :=
    hkeep _ (by simp [MAC_TXFRM_CNT, MAC_STAT])
  unfold ringFrameLeft
  rw [he]
  refine ⟨by rw [hleft], by rw [hleft, hmac]; rfl, by rw [hleft, hmac]; rfl, ?_, hmem.trans honly.mem, ?_, ?_⟩
  · rw [hnow, honly.now]
    exact hpast
  · rw [hcnt, State.rdF, hfrm, State.rdF]
  · exact fun r hr => (hkept r hr.2).trans (hkeep r hr.1)

theorem macComplete_ring {s : State} {n : Nat} {w : Wire} (hw : (s.mac n).wire = some w) (hupto : w.upto = w.data.length)
    (hgone : w.gone = 0) (hring : w.ring = true) (hstamp : w.stamp = none) (hseg : sget 0 (s.mac n).segs w.cls = 0) :
    s.macComplete n = (ringFrameLeft s n w).txBack n w.cls 1 0 0 := by
  have hsegs : sget 0 ((ringFrameLeft s n w).mac n).segs w.cls = 0 := by
    obtain ⟨-, -, hsegs, -⟩ := ringFrameLeft_spec s n w
    rw [hsegs, hseg]
  have hsent : s.macComplete n = (ringFrameLeft s n w).ringSent n w.cls := by
    unfold State.macComplete
    rw [hw]
    dsimp only
    rw [if_neg (by omega), if_pos hgone, if_pos hring]
    unfold State.stampOut
    rw [hstamp]
    rfl
  rw [hsent, State.ringSent, if_pos hsegs]

theorem macComplete_spec {s : State} {n : Fin 2} {w : Wire} (hw : (s.mac n).wire = some w) (hupto : w.upto = w.data.length)
    (hgone : w.gone = 0) (hring : w.ring = true) (hstamp : w.stamp = none) (hcls : w.cls < 8)
    (hseg : sget 0 (s.mac n).segs w.cls = 0) :
    let u := s.macComplete n
    (u.mac n).wire = none ∧ (u.mac n).sent = (s.mac n).sent ++ [(w.start, w.data)] ∧ s.wireEnd n w ≤ 25 * u.now ∧
    wordOf u.mem (s.txDesc n w.cls + 28) = 0x90000000#32 ∧
    (∀ a, (∀ i < 4, a ≠ s.txDesc n w.cls + 28 + i) → sget 0 u.mem a = sget 0 s.mem a) ∧
    u.rd (MAC_TXQ_HEAD n w.cls) =
      BitVec.ofNat 32 (((s.rd (MAC_TXQ_HEAD n w.cls)).toNat + 1) % s.rdF (MAC_TXQ_SIZE n w.cls) 12 0) ∧
    u.rdF (MAC_TXFRM_CNT n) 31 0 = min (s.rdF (MAC_TXFRM_CNT n) 31 0 + 1) (2 ^ 32 - 1) := by
  have hn := n.isLt
  have hword : doneWord 1 0 = 0x90000000#32 := by decide
  have hap : (MAC_TXFRM_CNT n).addr ≠ (MAC_TXQ_HEAD n w.cls).addr := by
    simp only [MAC_TXFRM_CNT, MAC_TXQ_HEAD]; omega
  obtain ⟨hwire, hsent, -, hend, hmem, hcnt, hkeep⟩ := ringFrameLeft_spec s n w
  have hbase : (ringFrameLeft s n w).rd (MAC_TXQ_BASE n w.cls) = s.rd (MAC_TXQ_BASE n w.cls) :=
    hkeep _ (by simp only [TxCounters, MAC_TXQ_BASE, MAC_STAT, MAC_TXFRM_CNT, MAC_TXBYTE_CNT]; omega)
  have hhead : (ringFrameLeft s n w).rd (MAC_TXQ_HEAD n w.cls) = s.rd (MAC_TXQ_HEAD n w.cls) :=
    hkeep _ (by simp only [TxCounters, MAC_TXQ_HEAD, MAC_STAT, MAC_TXFRM_CNT, MAC_TXBYTE_CNT]; omega)
  have hsize : (ringFrameLeft s n w).rd (MAC_TXQ_SIZE n w.cls) = s.rd (MAC_TXQ_SIZE n w.cls) :=
    hkeep _ (by simp only [TxCounters, MAC_TXQ_SIZE, MAC_STAT, MAC_TXFRM_CNT, MAC_TXBYTE_CNT]; omega)
  have hdesc : (ringFrameLeft s n w).txDesc n w.cls = s.txDesc n w.cls := by
    simp only [State.txDesc, State.rdF, hbase, hhead]
  dsimp only
  rw [macComplete_ring hw hupto hgone hring hstamp hseg, mac_txBack, now_txBack_done, mem_txBack_done, rd_head_txBack_done,
    hdesc, hmem, hhead]
  obtain ⟨hsame, hrest⟩ := putWord_spec s.mem (s.txDesc n w.cls + 28) (doneWord 1 0)
  refine ⟨hwire, hsent, hend, hsame.trans hword, hrest, ?_, ?_⟩
  · rw [State.rdF, hsize, State.rdF]
  · rw [State.rdF, rd_txBack_done_other _ n w.cls 1 0 hap]
    exact hcnt

/-! An abort of a segmentation send (R273). -/

theorem segAbort_one (s : State) (n : Nat) (t : Fin 8) (hhead : s.segHead n t = true) :
    let mine := fun (w : Wire) => w.ring && decide (w.cls = t.val)
    s.segAbort n (BitVec.ofNat 8 (2 ^ t.val)).toNat =
      if ((s.mac n).wire.any mine || (s.mac n).held.any mine) = true then s.wrB (MAC_SEG_ABORT n) t true else s.segEnd n t 2 := by
  have hone : ∀ t : Fin 8, (upTo 8).filter (fun k => (BitVec.ofNat 8 (2 ^ t.val)).toNat.testBit k) = [t.val] := by decide
  unfold State.segAbort
  rw [hone]
  exact if_pos hhead

theorem segEnd_spec (s : State) {n : Fin 2} (t : Fin 8) :
    let u := s.segEnd n t 2
    u.rdB (MAC_SEG_ABORT n) t = false ∧ u.rdB (MAC_INT n) 5 = true ∧ sget 0 (u.mac n).segs t = 0 ∧
    wordOf u.mem (s.txDesc n t + 28) = BitVec.ofNat 32 (2 ^ 31 + 2 * 2 ^ 28 + s.segsSent n t % 65536) := by
  intro u
  set v := s.setMac n { s.mac n with segs := sset 0 (s.mac n).segs t 0 } with hv
  have hu : u = ((v.txBack n t 2 0 (s.segsSent n t % 65536)).wrB (MAC_SEG_ABORT n) t false).raise (MAC_INT n) 0x20#32 := rfl
  have hmac : u.mac n = { s.mac n with segs := sset 0 (s.mac n).segs t 0 } := by
    rw [hu]
    exact (mac_txBack v n t 2 0 (s.segsSent n t % 65536) n).trans (mac_setMac_same _ _ _)
  refine ⟨?_, rdB_raise_same _ _ (by decide), ?_, ?_⟩
  · rw [hu, State.rdB, State.rd_raise_other _ _ (by simp [MAC_SEG_ABORT, MAC_INT])]
    exact rdB_wrB_same _ _ (by omega) _
  · rw [hmac, sget_sset_same]
  · rw [hu, State.raise_mem, State.wrB_mem, mem_txBack_done, show v.txDesc n t = s.txDesc n t from rfl, putWord_same, doneWord,
      Nat.zero_mul, Nat.add_zero]

/-- Settles O40: a selection is a scan of the classes, a ring's frame that leaves is written back, an abort waits for the
frame on the line. -/
theorem macTransmits : Obligations.MacTransmits := by
  unfold Obligations.MacTransmits
  refine ⟨fun s n t hup hgates hwire hheld hpause hsegs hfw hani hshape => ?_,
    fun s n w hw hupto hgone hring hstamp hcls hseg => (gives_iff_of_done rfl).2 ?_,
    fun s q n t hreach hhead => gives_gated rfl hreach ?_⟩
  · have o : OpenPort s n := ⟨hgates, hwire, hheld, hpause, hsegs, hshape⟩
    exact ⟨fun bs hstrm hring hlen => (gives_iff_of_done rfl).2 (macSelect_strm o hup hfw hani hstrm hring hlen),
      fun hstrm hring herr hsegd hcsum hone hts =>
        (gives_iff_of_done rfl).2 (macSelect_ring o hup hfw hani hstrm hring rfl herr hsegd hcsum hone hts)⟩
  · exact macComplete_spec hw hupto hgone hring hstamp hcls hseg
  · have habort := segAbort_one (s.respond 0 false) n t hhead
    dsimp only at habort ⊢
    rw [habort]
    refine ⟨fun hon => ?_, fun hoff => ?_⟩
    · rw [if_pos (by exact hon)]
      exact ⟨rdB_wrB_same _ _ (by omega) _, (OnlyRegs.wr (s.respond 0 false) _ _).after_respond⟩
    · rw [if_neg (by rw [show (s.respond 0 false).mac n = s.mac n from rfl, hoff]; decide)]
      exact segEnd_spec (s.respond 0 false) t

end Sys2Proof

namespace Sys2Proof

open Sys2Proof.Machine

/-! What Saffron's operations leave as it was (R292 to R311). -/

/-- Registers that selection, the state and the history write, and every entry's change counts in. -/
def sharedRegs : List Reg :=
  [SAF_STAT, SAF_INT, SAF_HIST, SAF_HOLD_SEC, SAF_PHERR, SAF_SWITCH_CNT, SAF_DISQ_CNT, SAF_SOFT_CNT, SAF_HOLD_CNT, STC_REM, STC_STAT]

/-- Registers that belong to one entry's state and measurement, and the count of losses. -/
def entryRegs (j : Nat) : List Reg :=
  [SAF_REF_STAT j, SAF_REF_FREQ j, SAF_REF_DEV j, SAF_REF_DRIFT j, SAF_REF_PHASE j, SAF_LOS_CNT]

/-- Addresses of which an operation over the shared registers writes none. -/
def Unshared (p : Nat → Prop) : Prop := ∀ r ∈ sharedRegs, ¬ p r.addr

/-- Addresses of which an operation on entry `j` writes none. -/
def OffEntry (j : Nat) (p : Nat → Prop) : Prop := ∀ r ∈ entryRegs j, ¬ p r.addr

/-- Saffron has moved: its own state, the slew and registers outside `p`; the window, the PTP reports and a loss that is
flagged stay. -/
structure SafKeeps (p : Nat → Prop) (s u : State) : Prop where
  only : u = { s with regs := u.regs, saf := u.saf, slew := u.slew }
  win : u.saf.winAt = s.saf.winAt
  ptp : u.saf.ptp = s.saf.ptp
  regs : KeepsAt p s u
  los : s.rdB SAF_INT 7 = true → u.rdB SAF_INT 7 = true

namespace SafKeeps

variable {p : Nat → Prop} {s t u : State}

theorem refl (s : State) : SafKeeps p s s := ⟨rfl, rfl, rfl, .refl s, id⟩

theorem trans (h : SafKeeps p s t) (k : SafKeeps p t u) : SafKeeps p s u :=
  ⟨k.only.trans (congrArg (fun x : State => { x with regs := u.regs, saf := u.saf, slew := u.slew }) h.only),
    k.win.trans h.win, k.ptp.trans h.ptp, h.regs.trans k.regs, fun x => k.los (h.los x)⟩

theorem mem (h : SafKeeps p s t) : t.mem = s.mem := (congrArg State.mem h.only).trans rfl
theorem now (h : SafKeeps p s t) : t.now = s.now := (congrArg State.now h.only).trans rfl

theorem ite {c : Prop} [Decidable c] (h : SafKeeps p s t) (k : SafKeeps p s u) : SafKeeps p s (if c then t else u) := by
  split <;> assumption

theorem each {α : Type} {f : State → α → State} {l : List α} (hf : ∀ t, ∀ x ∈ l, SafKeeps p s t → SafKeeps p s (f t x))
    (h : SafKeeps p s t) : SafKeeps p s (t.each l f) := by
  induction l generalizing t with
  | nil => exact h
  | cons x l ih =>
    rw [each_cons]
    exact ih (fun t y hy => hf t y (List.mem_cons_of_mem _ hy)) (hf t x List.mem_cons_self h)

/-- A register outside `p`, other than the interrupt flags. -/
theorem upd {r : Reg} (h : SafKeeps p s t) (hr : ¬ p r.addr) (hi : SAF_INT.addr ≠ r.addr) (f : Word → Word) :
    SafKeeps p s (t.upd r f) :=
  h.trans ⟨rfl, rfl, rfl, (KeepsAt.refl t).upd hr f, fun x => by rwa [State.rdB, State.rd_upd_other _ _ hi]⟩

theorem flag (h : SafKeeps p s t) (hp : ¬ p SAF_INT.addr) (m : Word) : SafKeeps p s (t.raise SAF_INT m) :=
  h.trans ⟨rfl, rfl, rfl, (KeepsAt.refl t).raise hp m, fun x => by
    rw [State.rdB, State.rd_raise_same, bit_or]
    exact Bool.or_eq_true_iff.2 (.inl x)⟩

/-- Saffron's own state but for the window and the PTP reports. -/
theorem withSaf (h : SafKeeps p s t) {x : Saf} (hw : x.winAt = t.saf.winAt := by rfl)
    (hp : x.ptp = t.saf.ptp := by rfl) :
    SafKeeps p s { t with saf := x } := h.trans ⟨rfl, hw, hp, .of_regs rfl, id⟩

theorem withSlew (h : SafKeeps p s t) (v : Int) : SafKeeps p s { t with slew := v } := h.trans ⟨rfl, rfl, rfl, .of_regs rfl, id⟩

section Shared

variable (hs : Unshared p)
include hs

theorem shared {r : Reg} {f : Word → Word} (h : SafKeeps p s t) (hr : r ∈ sharedRegs := by decide)
    (hi : SAF_INT.addr ≠ r.addr := by decide) : SafKeeps p s (t.upd r f) := h.upd (hs r hr) hi f

theorem wrF {r : Reg} {hi lo v : Nat} (h : SafKeeps p s t) (hr : r ∈ sharedRegs := by decide)
    (hi' : SAF_INT.addr ≠ r.addr := by decide) : SafKeeps p s (t.wrF r hi lo v) := h.shared hs hr hi'

theorem wrB {r : Reg} {i : Nat} {b : Bool} (h : SafKeeps p s t) (hr : r ∈ sharedRegs := by decide)
    (hi : SAF_INT.addr ≠ r.addr := by decide) : SafKeeps p s (t.wrB r i b) := h.shared hs hr hi

theorem wr {r : Reg} {v : Word} (h : SafKeeps p s t) (hr : r ∈ sharedRegs := by decide)
    (hi : SAF_INT.addr ≠ r.addr := by decide) : SafKeeps p s (t.wr r v) := h.shared hs (f := fun _ => v) hr hi

theorem countF {r : Reg} {hi lo n : Nat} (h : SafKeeps p s t) (hr : r ∈ sharedRegs := by decide)
    (hi' : SAF_INT.addr ≠ r.addr := by decide) : SafKeeps p s (t.countF r hi lo n) := h.shared hs hr hi'

theorem count {r : Reg} (h : SafKeeps p s t) (hr : r ∈ sharedRegs := by decide)
    (hi : SAF_INT.addr ≠ r.addr := by decide) : SafKeeps p s (t.count r) := h.countF hs hr hi

theorem flagged {m : Word} (h : SafKeeps p s t) : SafKeeps p s (t.raise SAF_INT m) := h.flag (hs _ (by decide)) m

theorem setSafState {v : Nat} (h : SafKeeps p s t) : SafKeeps p s (t.setSafState v) := h.wrF hs

omit hs in
theorem aim {v : Int} (h : SafKeeps p s t) : SafKeeps p s (t.aim v) := h.withSaf

theorem setRem {v : Int} (h : SafKeeps p s t) : SafKeeps p s (t.setRem v) :=
  (h.withSaf).wr hs

theorem setSlew {v : Int} (h : SafKeeps p s t) : SafKeeps p s (t.setSlew v) :=
  (h.withSlew v).wrB hs

theorem toHoldover (h : SafKeeps p s t) : SafKeeps p s t.toHoldover := by
  unfold State.toHoldover
  extract_lets _ s1 s2
  have h1 : SafKeeps p s s1 := h.withSaf
  exact .ite (((((h1.setSafState hs).aim).count hs).flagged hs).wr hs)
    ((h1.setSafState hs).aim)

theorem startSwitch (h : SafKeeps p s t) : SafKeeps p s t.startSwitch := by
  unfold State.startSwitch
  extract_lets s1 s2 s3
  have h1 : SafKeeps p s s1 := .ite (h.count hs) h
  exact ((((h1.setSafState hs).setRem hs).setSlew hs).aim).withSaf

theorem selQual (h : SafKeeps p s t) : SafKeeps p s t.selQual := h.wrF hs

theorem refSelect (h : SafKeeps p s t) : SafKeeps p s t.refSelect := by
  unfold State.refSelect
  extract_lets _ _ _ selected changed
  have hselected : SafKeeps p s selected := ((h.wrB hs).wrF hs).selQual hs
  have hchanged : SafKeeps p s changed := .ite (hselected.flagged hs) hselected
  exact .ite h (.ite hchanged (.ite (.ite (hchanged.startSwitch hs) hchanged) (.ite (hchanged.toHoldover hs) hchanged)))

theorem safForce (h : SafKeeps p s t) : SafKeeps p s t.safForce := by
  unfold State.safForce
  extract_lets _ s1
  have h1 : SafKeeps p s s1 := h.withSaf
  exact .ite ((h1.setSafState hs).aim) (.ite (.ite h (h.toHoldover hs)) h)

theorem histThaw (h : SafKeeps p s t) : SafKeeps p s t.histThaw := (h.withSaf).wrB hs

theorem histRelease (h : SafKeeps p s t) : SafKeeps p s t.histRelease := .ite (h.histThaw hs) h

theorem histPut (h : SafKeeps p s t) (new : List Int) (age : Nat) : SafKeeps p s (t.histPut new age) := by
  unfold State.histPut
  extract_lets l _ s1 s2
  have h1 : SafKeeps p s s1 := h.withSaf
  have h2 : SafKeeps p s s2 := h1.wr hs
  exact .ite h (.ite (h2.wrB hs) h2)

theorem histStep (h : SafKeeps p s t) (v : Int) : SafKeeps p s (t.histStep v) := .ite (h.withSaf) (h.histPut hs _ _)

theorem safHist (h : SafKeeps p s t) (s0 : State) (y : Nat → Int) : SafKeeps p s (t.safHist s0 y) := by
  unfold State.safHist
  extract_lets s1
  have h1 : SafKeeps p s s1 := by
    unfold s1
    split
    · exact .ite ((h.histPut hs _ _).histThaw hs) h
    · exact h
  split
  · exact h1
  · extract_lets s2
    have h2 : SafKeeps p s s2 := .ite ((h1.withSaf).wrB hs) h1
    exact .ite (h2.histStep hs _) h2

theorem safStep (h : SafKeeps p s t) (y ph : Nat → Int) (was : Nat) : SafKeeps p s (t.safStep y ph was) := by
  unfold State.safStep
  extract_lets e th s1 switched _ followed near _ counted _ held
  have h1 : SafKeeps p s s1 := h.wr hs
  have hswitched : SafKeeps p s switched := ((h1.setSafState hs).aim).setRem hs
  have hfollowed : SafKeeps p s followed := h1.aim.setRem hs
  have hcounted : SafKeeps p s counted := hfollowed.withSaf
  have hheld : SafKeeps p s held := h1.aim
  have hlocking : SafKeeps p s (if followed.safState = 1 then
      if 2 ≤ near then ((counted.setSafState 2).raise SAF_INT 0x20#32).histRelease else counted
      else if 4 * th < e.natAbs then
        { (followed.setSafState 1).raise SAF_INT 0x40#32 with
          saf := { ((followed.setSafState 1).raise SAF_INT 0x40#32).saf with near := 0 } } else followed) :=
    .ite (.ite (((hcounted.setSafState hs).flagged hs).histRelease hs) hcounted)
      (.ite ((hfollowed.setSafState hs).flagged hs).withSaf hfollowed)
  split
  · exact .ite hswitched.withSaf h1
  · exact hlocking
  · exact hlocking
  · exact .ite (hheld.count hs) hheld
  · exact h1.aim

section Entry

variable {j : Nat} (hj : OffEntry j p)
include hj

omit hs in
theorem entry {r : Reg} {f : Word → Word} (h : SafKeeps p s t) (hr : r ∈ entryRegs j := by simp [entryRegs]) :
    SafKeeps p s (t.upd r f) := by
  refine h.upd (hj r hr) ?_ f
  simp only [entryRegs, List.mem_cons, List.not_mem_nil, or_false] at hr
  rcases hr with rfl | rfl | rfl | rfl | rfl | rfl <;>
    simp only [SAF_INT, SAF_REF_STAT, SAF_REF_FREQ, SAF_REF_DEV, SAF_REF_DRIFT, SAF_REF_PHASE, SAF_LOS_CNT] <;> omega

omit hs in
theorem entryF {r : Reg} {hi lo v : Nat} (h : SafKeeps p s t) (hr : r ∈ entryRegs j := by simp [entryRegs]) :
    SafKeeps p s (t.wrF r hi lo v) := h.entry hj hr

omit hs in
theorem entryB {r : Reg} {i : Nat} {b : Bool} (h : SafKeeps p s t) (hr : r ∈ entryRegs j := by simp [entryRegs]) :
    SafKeeps p s (t.wrB r i b) := h.entry hj hr

omit hs in
theorem entryW {r : Reg} {v : Word} (h : SafKeeps p s t) (hr : r ∈ entryRegs j := by simp [entryRegs]) :
    SafKeeps p s (t.wr r v) := h.entry hj (f := fun _ => v) hr

omit hs in
theorem lossCounted (h : SafKeeps p s t) : SafKeeps p s (t.count SAF_LOS_CNT) :=
  have hcnt : SafKeeps p s (t.countF SAF_LOS_CNT 31 0 1) := h.entry hj
  hcnt

omit hs in
theorem setRefState {v : Nat} (h : SafKeeps p s t) : SafKeeps p s (t.setRefState j v) := h.entryF hj

theorem refDisq (h : SafKeeps p s t) : SafKeeps p s (t.refDisq j) :=
  ((h.setRefState hj).count hs).flagged hs

theorem refQual (h : SafKeeps p s t) : SafKeeps p s (t.refQual j) := (h.setRefState hj).flagged hs

omit hj in
omit hs in
theorem setSafRef (h : SafKeeps p s t) (j : Nat) (x : SafRef) : SafKeeps p s (t.setSafRef j x) := h.withSaf

theorem refSoft (h : SafKeeps p s t) : SafKeeps p s (t.refSoft j) :=
  ((((h.setRefState hj).count hs).flagged hs).setSafRef _ _)

omit hs in
theorem refWait (h : SafKeeps p s t) : SafKeeps p s (t.refWait j) := (h.setRefState hj).entryF hj

theorem refStep (h : SafKeeps p s t) (s0 : State) (y : Nat → Int) : SafKeeps p s (t.refStep s0 y j) := by
  unfold State.refStep
  extract_lets d2 tol fails inTol run n s1 alarm left waiting softened _ k passed
  have h1 : SafKeeps p s s1 := h.entryF hj
  have hwaiting : SafKeeps p s waiting := h1.entryF hj
  have hsoftened : SafKeeps p s softened := .ite (h1.refSoft hs hj) h1
  have hpassed : SafKeeps p s passed := h1.setSafRef _ _
  refine .ite (h.setRefState hj) (.ite (.ite h (h.refQual hs hj)) ?_)
  split
  · exact h1.refWait hj
  · exact .ite (.ite (hwaiting.refQual hs hj) hwaiting) (h1.refWait hj)
  · exact .ite (hsoftened.refDisq hs hj) hsoftened
  · exact .ite (h1.refDisq hs hj) (.ite (h1.setSafRef _ _) (.ite (hpassed.setRefState hj) hpassed))
  · exact .ite (h1.refWait hj) h1

omit hs in
theorem refMeasure (h : SafKeeps p s t) (s0 : State) (y ph : Nat → Int) : SafKeeps p s (t.refMeasure s0 y ph j) := by
  unfold State.refMeasure
  extract_lets s1 x ys s2 s3
  have h1 : SafKeeps p s s1 := h.entryF hj
  have h2 : SafKeeps p s s2 := h1.setSafRef _ _
  have h3 : SafKeeps p s s3 := (h2.entryW hj).entryW hj
  exact .ite ((h3.entryW hj).entryW hj) h1

theorem losMark (h : SafKeeps p s t) : SafKeeps p s (t.losMark j) := by
  unfold State.losMark
  extract_lets marked disqualified
  have hmarked : SafKeeps p s marked := ((h.entryB hj).flagged hs).lossCounted hj
  have hdisqualified : SafKeeps p s disqualified := .ite hmarked (hmarked.refDisq hs hj)
  exact .ite (.ite (hdisqualified.toHoldover hs) hdisqualified) h

theorem losScan (h : SafKeeps p s t) : SafKeeps p s (t.losScan j) := .ite (h.losMark hs hj) (h.entryB hj)

end Entry

theorem losAll {is : List Nat} (his : ∀ j ∈ is, OffEntry j p) (h : SafKeeps p s t) : SafKeeps p s (t.losAll is) :=
  have hmarked : SafKeeps p s (t.each is fun u j => u.losMark j) := .each (fun _ j hj h => h.losMark hs (his j hj)) h
  .ite (hmarked.refSelect hs) hmarked

end Shared

end SafKeeps

end Sys2Proof

namespace Sys2Proof

open Sys2Proof.Machine

/-! An entry's own registers through the operations on the others (R296, R300). -/

/-- What an entry's state at a window end is read from. -/
def EntryKept (i a : Nat) : Prop :=
  a = (SAF_REF_STAT i).addr ∨ a = (SAF_REF_CFG i).addr ∨ a = (SAF_REF_TIME i).addr ∨ ∃ k < 8, a = (AES_RX_STAT k).addr

theorem unshared_entryKept {i : Nat} (hi : i < 8) : Unshared (EntryKept i) := by
  intro r hr
  simp only [sharedRegs, List.mem_cons, List.not_mem_nil, or_false] at hr
  unfold EntryKept
  rintro (h | h | h | ⟨k, hk, h⟩) <;> rcases hr with rfl | rfl | rfl | rfl | rfl | rfl | rfl | rfl | rfl | rfl | rfl <;>
    simp only [SAF_STAT, SAF_INT, SAF_HIST, SAF_HOLD_SEC, SAF_PHERR, SAF_SWITCH_CNT, SAF_DISQ_CNT, SAF_SOFT_CNT, SAF_HOLD_CNT,
      STC_REM, STC_STAT, SAF_REF_STAT, SAF_REF_CFG, SAF_REF_TIME, AES_RX_STAT] at h <;> omega

theorem offEntry_entryKept {i j : Nat} (hi : i < 8) (h : j ≠ i) : OffEntry j (EntryKept i) := by
  intro r hr
  simp only [entryRegs, List.mem_cons, List.not_mem_nil, or_false] at hr
  unfold EntryKept
  rintro (h | h | h | ⟨k, hk, h⟩) <;> rcases hr with rfl | rfl | rfl | rfl | rfl | rfl <;>
    simp only [SAF_REF_STAT, SAF_REF_CFG, SAF_REF_TIME, AES_RX_STAT, SAF_REF_FREQ, SAF_REF_DEV, SAF_REF_DRIFT, SAF_REF_PHASE,
      SAF_LOS_CNT] at h <;> omega

namespace KeepsAt

variable {i : Nat} {s t : State} (h : KeepsAt (EntryKept i) s t)
include h

theorem stat : t.rd (SAF_REF_STAT i) = s.rd (SAF_REF_STAT i) := h _ (.inl rfl)

theorem cfg : t.rd (SAF_REF_CFG i) = s.rd (SAF_REF_CFG i) := h _ (.inr (.inl rfl))

theorem refOn : t.refOn i = s.refOn i := congrArg (bit · 31) h.cfg

theorem refSrc : t.refSrc i = s.refSrc i := congrArg (bits · 27 24) h.cfg

theorem refIx : t.refIx i = s.refIx i := congrArg (bits · 18 16) h.cfg

theorem refState : t.refState i = s.refState i := congrArg (bits · 2 0) h.stat

theorem los : t.rdB (SAF_REF_STAT i) 3 = s.rdB (SAF_REF_STAT i) 3 := congrArg (bit · 3) h.stat

theorem refTime : t.rdF (SAF_REF_TIME i) 25 16 = s.rdF (SAF_REF_TIME i) 25 16 :=
  congrArg (bits · 25 16) (h _ (.inr (.inr (.inl rfl))))

theorem aesLock : t.rdB (AES_RX_STAT (t.refIx i)) 0 = s.rdB (AES_RX_STAT (s.refIx i)) 0 := by
  rw [h.refIx, State.rdB, h _ (.inr (.inr (.inr ⟨s.refIx i, rdF_lt s (SAF_REF_CFG i) 18 16, rfl⟩))), State.rdB]

end KeepsAt

/-- A pass over a list around the turn of one element: what the other turns keep holds up to it and from it on. -/
theorem each_turn {R : State → State → Prop} (hrefl : ∀ s, R s s) (htrans : ∀ s t u, R s t → R t u → R s u) {l : List Nat}
    (hnodup : l.Nodup) {i : Nat} (hi : i ∈ l) {f : State → Nat → State} (hf : ∀ t, ∀ j ∈ l, j ≠ i → R t (f t j)) (s : State) :
    ∃ t, R s t ∧ R (f t i) (s.each l f) := by
  obtain ⟨a, b, rfl⟩ := List.append_of_mem hi
  have hpass : ∀ (l' : List Nat), (∀ j ∈ l', j ∈ a ++ i :: b ∧ j ≠ i) → ∀ t, R t (t.each l' f) := by
    intro l'
    induction l' with
    | nil => exact fun _ t => hrefl t
    | cons j l' ih =>
      intro hl t
      obtain ⟨hj, hji⟩ := hl j List.mem_cons_self
      rw [each_cons]
      exact htrans _ _ _ (hf t j hj hji) (ih (fun k hk => hl k (List.mem_cons_of_mem _ hk)) _)
  obtain ⟨-, hb, hab⟩ := List.nodup_append.1 hnodup
  have hsplit : s.each (a ++ i :: b) f = (f (s.each a f) i).each b f := List.foldl_append
  rw [hsplit]
  refine ⟨s.each a f, hpass a (fun j hj => ⟨by simp [hj], ?_⟩) s, hpass b (fun j hj => ⟨by simp [hj], ?_⟩) _⟩
  · rintro rfl
    exact hab j hj j List.mem_cons_self rfl
  · rintro rfl
    exact (List.nodup_cons.1 hb).1 hj

/-- Around one entry's turn, a pass over the entries is what the others' turns leave. -/
theorem SafKeeps.each_at {i : Nat} (hi : i < 8) {f : State → Nat → State}
    (hf : ∀ t : State, ∀ j < 8, j ≠ i → SafKeeps (EntryKept i) t (f t j)) (s : State) :
    ∃ t, SafKeeps (EntryKept i) s t ∧ SafKeeps (EntryKept i) (f t i) (s.each (upTo 8) f) :=
  each_turn SafKeeps.refl (fun _ _ _ => SafKeeps.trans) List.nodup_range (List.mem_range.2 hi)
    (fun t j hj => hf t j (List.mem_range.1 hj)) s

/-! One entry's turn at a window end (R296, R299, R300). -/

theorem rd_stat_refMeasure (s s0 : State) (y ph : Nat → Int) (i : Nat) :
    ∃ q, (s.refMeasure s0 y ph i).rd (SAF_REF_STAT i) = setBits (s.rd (SAF_REF_STAT i)) 7 4 q := by
  refine ⟨s.refQ i, ?_⟩
  unfold State.refMeasure
  extract_lets s1 x ys s2 s3
  have h1 : s1.rd (SAF_REF_STAT i) = setBits (s.rd (SAF_REF_STAT i)) 7 4 (s.refQ i) := State.rd_wrF_same _ _ _ _ _
  have h3 : s3.rd (SAF_REF_STAT i) = s1.rd (SAF_REF_STAT i) :=
    (State.rd_wr_other _ _ (by simp [SAF_REF_STAT, SAF_REF_DEV])).trans
      (State.rd_wr_other s2 _ (by simp [SAF_REF_STAT, SAF_REF_FREQ]))
  split
  · rw [State.rd_wr_other _ _ (by simp [SAF_REF_STAT, SAF_REF_PHASE]),
      State.rd_wr_other _ _ (by simp [SAF_REF_STAT, SAF_REF_DRIFT]), h3, h1]
  · exact h1

/-- The state, the loss and the wait of an entry are apart from its measurement's Q. -/
theorem stat_of_measured {s u : State} {i q : Nat} (h : u.rd (SAF_REF_STAT i) = setBits (s.rd (SAF_REF_STAT i)) 7 4 q) :
    u.refState i = s.refState i ∧ u.rdB (SAF_REF_STAT i) 3 = s.rdB (SAF_REF_STAT i) 3 ∧
    u.rdF (SAF_REF_STAT i) 31 16 = s.rdF (SAF_REF_STAT i) 31 16 := by
  refine ⟨?_, ?_, ?_⟩
  · rw [State.refState, State.rdF, h, bits_setBits_apart _ (by decide) (by decide) (.inl (by decide))]; rfl
  · rw [State.rdB, h, bit_setBits _ (by decide) (by decide), if_neg (by decide)]; rfl
  · rw [State.rdF, h, bits_setBits_apart _ (by decide) (by decide) (.inr (by decide))]; rfl

theorem refStep_off {s : State} {i : Nat} (h : s.refOn i = false) (s0 : State) (y : Nat → Int) :
    (s.refStep s0 y i).refState i = 0 := by
  have hoff : s.refStep s0 y i = s.setRefState i 0 := by
    unfold State.refStep
    rw [h]
    rfl
  rw [hoff]
  exact rdF_wrF_same _ _ (by decide) (by decide) 0

theorem refStep_manual {s : State} {i : Nat} (hon : s.refOn i = true) (hsrc : s.refSrc i = 6) (hst : s.refState i = 0) (s0 : State)
    (y : Nat → Int) : (s.refStep s0 y i).refState i = 2 := by
  have hqual : s.refStep s0 y i = s.refQual i := by
    unfold State.refStep
    rw [hon, if_neg (by decide), if_pos hsrc, if_neg (by omega)]
  rw [hqual, State.refQual, State.refState, State.rdF, State.rd_raise_other _ _ (by simp only [SAF_REF_STAT, SAF_INT]; omega)]
  exact rdF_wrF_same _ _ (by decide) (by decide) 2

/-- The turn of an entry that measures: its count of windows, and what its state makes of them. -/
theorem refStep_on {s : State} {i : Nat} (hon : s.refOn i = true) (hsrc : s.refSrc i ≠ 6) (s0 : State) (y : Nat → Int) :
    ∃ run, (s.refState i = 0 → s.refStep s0 y i = (s.wrF (SAF_REF_STAT i) 15 8 run).refWait i) ∧
      (s.refState i = 4 → s.rdB (SAF_REF_STAT i) 3 = true → s.refStep s0 y i = s.wrF (SAF_REF_STAT i) 15 8 run) := by
  unfold State.refStep
  rw [hon, if_neg (by decide), if_neg hsrc]
  extract_lets d2 tol fails inTol run n s1 alarm left waiting softened _ k passed
  have hst : s1.refState i = s.refState i := rdF_wrF_apart _ _ (by decide) (by decide) (.inl (by decide)) _
  refine ⟨run, fun h0 => ?_, fun h4 hlost => ?_⟩
  · rw [hst, h0]
    rfl
  · have hno : inTol = false := by
      unfold inTol
      rw [hlost]
      rfl
    rw [hst, h4, hno]
    rfl

theorem refWait_spec (s : State) (i : Nat) : (s.refWait i).refState i = 1 ∧
    (s.refWait i).rdF (SAF_REF_STAT i) 31 16 = s.rdF (SAF_REF_TIME i) 25 16 := by
  have hlt := rdF_lt s (SAF_REF_TIME i) 25 16
  refine ⟨?_, (rdF_wrF_same _ _ (by decide) (by decide) _).trans ?_⟩
  · exact (rdF_wrF_apart _ _ (by decide) (by decide) (.inl (by decide)) _).trans (rdF_wrF_same _ _ (by decide) (by decide) 1)
  · exact Nat.mod_eq_of_lt (hlt.trans (by decide))

/-! A loss of signal (R297, R300). -/

/-- An entry has lost its signal: flagged, counted and disqualified. -/
structure SignalLost (i : Nat) (s u : State) : Prop where
  los : u.rdB (SAF_REF_STAT i) 3 = true
  flag : u.rdB SAF_INT 7 = true
  state : u.refState i = 4
  count : u.rdF SAF_LOS_CNT 31 0 = min (s.rdF SAF_LOS_CNT 31 0 + 1) (2 ^ 32 - 1)

/-- What a loss shows in. -/
def LossShown (i a : Nat) : Prop := a = (SAF_REF_STAT i).addr ∨ a = SAF_LOS_CNT.addr

theorem unshared_lossShown {i : Nat} (hi : i < 8) : Unshared (LossShown i) := by
  intro r hr
  simp only [sharedRegs, List.mem_cons, List.not_mem_nil, or_false] at hr
  unfold LossShown
  rintro (h | h) <;> rcases hr with rfl | rfl | rfl | rfl | rfl | rfl | rfl | rfl | rfl | rfl | rfl <;>
    simp only [SAF_STAT, SAF_INT, SAF_HIST, SAF_HOLD_SEC, SAF_PHERR, SAF_SWITCH_CNT, SAF_DISQ_CNT, SAF_SOFT_CNT, SAF_HOLD_CNT,
      STC_REM, STC_STAT, SAF_REF_STAT, SAF_LOS_CNT] at h <;> omega

theorem SignalLost.keeps {i : Nat} {s t u : State} (h : SignalLost i s t) (k : SafKeeps (LossShown i) t u) : SignalLost i s u where
  los := (congrArg (bit · 3) (k.regs _ (.inl rfl))).trans h.los
  flag := k.los h.flag
  state := (congrArg (bits · 2 0) (k.regs _ (.inl rfl))).trans h.state
  count := (congrArg (bits · 31 0) (k.regs _ (.inr rfl))).trans h.count

theorem signalLost_losMark {s : State} {i : Nat} (hi : i < 8) (hnew : s.losNew i = true) : SignalLost i s (s.losMark i) := by
  unfold State.losMark
  rw [if_pos hnew]
  extract_lets marked disqualified
  have hlos : marked.rdB (SAF_REF_STAT i) 3 = true := by
    rw [State.rdB, State.rd_count_other _ (by simp only [SAF_REF_STAT, SAF_LOS_CNT]; omega),
      State.rd_raise_other _ _ (by simp only [SAF_REF_STAT, SAF_INT]; omega)]
    exact rdB_wrB_same _ _ (by decide) _
  have hflag : marked.rdB SAF_INT 7 = true := by
    rw [State.rdB, State.rd_count_other _ (by decide)]
    exact rdB_raise_same _ _ (by decide)
  have hcnt : marked.rdF SAF_LOS_CNT 31 0 = min (s.rdF SAF_LOS_CNT 31 0 + 1) (2 ^ 32 - 1) := by
    rw [rdF_count_same, State.rdF, State.rd_raise_other _ _ (by decide),
      State.rd_wrB_other _ _ _ (by simp only [SAF_REF_STAT, SAF_LOS_CNT]; omega), State.rdF]
  have hdisq : SignalLost i s disqualified := by
    unfold disqualified
    split
    · next h => exact ⟨hlos, hflag, h, hcnt⟩
    · have hstat : (marked.refDisq i).rd (SAF_REF_STAT i) = setBits (marked.rd (SAF_REF_STAT i)) 2 0 4 := by
        rw [State.refDisq, State.rd_raise_other _ _ (by simp only [SAF_REF_STAT, SAF_INT]; omega),
          State.rd_count_other _ (by simp only [SAF_REF_STAT, SAF_DISQ_CNT]; omega)]
        exact State.rd_wrF_same _ _ _ _ _
      refine ⟨?_, ?_, ?_, ?_⟩
      · rw [State.rdB, hstat, bit_setBits _ (by decide) (by decide), if_neg (by decide)]
        exact hlos
      · have hkeep : SafKeeps (fun _ => False) marked (marked.refDisq i) :=
          (SafKeeps.refl _).refDisq (fun _ _ h => h) fun _ _ h => h
        exact hkeep.los hflag
      · rw [State.refState, State.rdF, hstat]
        exact bits_setBits_same _ (by decide) (by decide) 4
      · rw [State.rdF, State.refDisq, State.rd_raise_other _ _ (by decide), State.rd_count_other _ (by decide),
          State.setRefState, State.rd_wrF_other _ _ _ _ (by simp only [SAF_REF_STAT, SAF_LOS_CNT]; omega)]
        exact hcnt
  split
  · exact hdisq.keeps ((SafKeeps.refl _).toHoldover (unshared_lossShown hi))
  · exact hdisq

theorem signalLost_losOf {s : State} {i : Nat} (hi : i < 8) (hnew : s.losNew i = true) : SignalLost i s (s.losOf i) := by
  unfold State.losOf State.losAll
  have hmark := signalLost_losMark hi hnew
  split
  · exact hmark.keeps ((SafKeeps.refl _).refSelect (unshared_lossShown hi))
  · exact hmark

/-- The time, the memory and the PTP reports through any number of losses. -/
theorem losAll_rest (s : State) (is : List Nat) : SafKeeps (fun _ => False) s (s.losAll is) :=
  (SafKeeps.refl s).losAll (fun _ _ h => h) fun _ _ _ _ h => h

end Sys2Proof

namespace Sys2Proof

open Sys2Proof.Machine

/-! A window's end (R299 to R307, R310). -/

/-- A window ends: its time has come, and a new one begins. -/
structure WindowOver (s t : State) : Prop where
  come : s.saf.winAt + 1000000000 ≤ t.now
  win : t.saf.winAt = t.now
  mem : t.mem = s.mem
  regs : KeepsAt (· ≠ SAF_TEMP.addr) s t

theorem safTempStep_spec (s : State) : s.safTempStep.now = s.now ∧ s.safTempStep.saf.winAt = s.now ∧
    s.safTempStep.mem = s.mem ∧ KeepsAt (· ≠ SAF_TEMP.addr) s s.safTempStep := by
  unfold State.safTempStep
  extract_lets f s1 g
  have hregs : KeepsAt (· ≠ SAF_TEMP.addr) s s1 := .ite (.refl s) ((KeepsAt.refl s).wr (by simp) _)
  have hnow : s1.now = s.now := by unfold s1; split <;> rfl
  have hmem : s1.mem = s.mem := by unfold s1; split <;> rfl
  clear_value s1
  exact ⟨hnow, hnow, hmem, hregs.trans (.of_regs rfl)⟩

theorem mem_advanceTo (s : State) (c : Nat) : (s.advanceTo c).mem = s.mem := rfl

theorem regs_advanceTo (s : State) (c : Nat) : (s.advanceTo c).regs = s.regs := rfl

theorem le_now_advanceTo' (s : State) (c : Nat) : c ≤ (s.advanceTo c).now := by
  have hnow : (s.advanceTo c).now = s.now + (c - s.now) := rfl
  omega

theorem windowOver_safTempStep (s : State) :
    WindowOver s (s.advanceTo (s.saf.winAt + 1000000000)).safTempStep := by
  obtain ⟨hnow, hwin, hmem, hregs⟩ := safTempStep_spec (s.advanceTo (s.saf.winAt + 1000000000))
  exact ⟨hnow ▸ le_now_advanceTo' s _, hwin.trans hnow.symm, hmem.trans (mem_advanceTo _ _),
    (KeepsAt.of_regs (regs_advanceTo _ _)).trans hregs⟩

theorem setLinks_eq (f : State → Nat → Dng) (l : List Nat) (s : State) :
    ∃ d, s.each l (fun s n => s.setLink n (f s n)) = { s with dng := d } := by
  induction l generalizing s with
  | nil => exact ⟨s.dng, rfl⟩
  | cons n l ih =>
    obtain ⟨d, hd⟩ := ih (s.setLink n (f s n))
    exact ⟨d, (each_cons _ _ _ _).trans hd⟩

/-- A new window moves no register, no memory and no time. -/
theorem newWindow_eq (s : State) : ∃ d p, s.newWindow = { s with dng := d, saf := { s.saf with ptp := p } } := by
  obtain ⟨d, hd⟩ := setLinks_eq (fun s n => { s.link n with mark := (s.link n).time }) _
    { s with saf := { s.saf with ptp := s.saf.ptp.map (fun (x : Nat × PtpRep) => (x.1, { x.2 with seen := false })) } }
  exact ⟨d, _, hd⟩

/-- The entries' turns of a window end, `s0` the state before them. -/
def entryTurns (s0 : State) (y ph : Nat → Int) : State := s0.each (upTo 8) (fun s i => (s.refStep s0 y i).refMeasure s0 y ph i)

/-- A window's end in its parts: the time, the losses, the entries, and what selects, steers and begins anew. -/
theorem windowStep_parts (s : State) (meas : List Int) : ∃ (s1 u : State) (y ph : Nat → Int),
    WindowOver s s1 ∧ (∀ p, Unshared p → SafKeeps p (entryTurns (s1.each (upTo 8) (fun s i => s.losScan i)) y ph) u) ∧
    s.windowStep meas = u.newWindow := by
  obtain ⟨hcome, hwin, hmem, hregs⟩ := windowOver_safTempStep s
  unfold State.windowStep
  extract_lets s1 _ s2 was s0 y ph _ s3 s4 s5
  refine ⟨s2, _, y, ph, ⟨hcome, hwin, hmem, hregs.trans (.of_regs rfl)⟩, fun p hp => ?_, rfl⟩
  have h4 : SafKeeps p s3 s4 := ((SafKeeps.refl s3).safHist hp s0 y).refSelect hp
  have h5 : SafKeeps p s3 s5 := .ite (h4.safForce hp) h4
  exact (h5.safStep hp y ph was).selQual hp

/-- The entries' turns leave time, window and memory. -/
theorem turns_rest (s1 : State) (y ph : Nat → Int) :
    SafKeeps (fun _ => False) s1 (entryTurns (s1.each (upTo 8) (fun s i => s.losScan i)) y ph) :=
  have hs : Unshared (fun _ => False) := fun _ _ h => h
  have hj : ∀ j, OffEntry j (fun _ => False) := fun _ _ _ h => h
  .each (fun _ j _ h => (h.refStep hs (hj j) _ _).refMeasure (hj j) _ _ _)
    (.each (fun _ j _ h => h.losScan hs (hj j)) (.refl s1))

/-- Entry `i` at a window's end: what it finds, its turn, and what stays of that. -/
theorem turns_at {i : Nat} (hi : i < 8) (s1 : State) (y ph : Nat → Int) : ∃ t1 t2 s0 q,
    SafKeeps (EntryKept i) s1 t1 ∧ SafKeeps (EntryKept i) (t1.losScan i) t2 ∧
    (entryTurns (s1.each (upTo 8) (fun s i => s.losScan i)) y ph).rd (SAF_REF_STAT i) =
      setBits ((t2.refStep s0 y i).rd (SAF_REF_STAT i)) 7 4 q ∧
    ((t1.losScan i).rdB SAF_INT 7 = true →
      (entryTurns (s1.each (upTo 8) (fun s i => s.losScan i)) y ph).rdB SAF_INT 7 = true) := by
  have hs := unshared_entryKept hi
  have hoff : ∀ j < 8, j ≠ i → OffEntry j (EntryKept i) := fun _ _ h => offEntry_entryKept hi h
  obtain ⟨t1, h1, k1⟩ := SafKeeps.each_at hi (fun t j hj hji => (SafKeeps.refl t).losScan hs (hoff j hj hji)) s1
  set s0 := s1.each (upTo 8) (fun s i => s.losScan i)
  obtain ⟨t2, h2, k2⟩ := SafKeeps.each_at hi
    (f := fun s i => (s.refStep s0 y i).refMeasure s0 y ph i)
    (fun t j hj hji => ((SafKeeps.refl t).refStep hs (hoff j hj hji) s0 y).refMeasure (hoff j hj hji) s0 y ph) s0
  obtain ⟨q, hq⟩ := rd_stat_refMeasure (t2.refStep s0 y i) s0 y ph i
  have hturn : SafKeeps (fun _ => False) t2 ((t2.refStep s0 y i).refMeasure s0 y ph i) :=
    ((SafKeeps.refl t2).refStep (fun _ _ h => h) (fun _ _ h => h) s0 y).refMeasure (fun _ _ h => h) s0 y ph
  exact ⟨t1, t2, s0, q, h1, k1.trans h2, k2.regs.stat.trans hq, fun h => k2.los (hturn.los ((k1.trans h2).los h))⟩

/-- Entry `i` through a whole window end: it comes to its scan and its turn as it was, and its turn stays. -/
theorem windowStep_entry {i : Nat} (hi : i < 8) (s : State) (meas : List Int) : ∃ t1 t2 s0 y,
    KeepsAt (EntryKept i) s t1 ∧ KeepsAt (EntryKept i) (t1.losScan i) t2 ∧
    (s.windowStep meas).refState i = (t2.refStep s0 y i).refState i ∧
    (s.windowStep meas).rdB (SAF_REF_STAT i) 3 = (t2.refStep s0 y i).rdB (SAF_REF_STAT i) 3 ∧
    (s.windowStep meas).rdF (SAF_REF_STAT i) 31 16 = (t2.refStep s0 y i).rdF (SAF_REF_STAT i) 31 16 ∧
    ((t1.losScan i).rdB SAF_INT 7 = true → (s.windowStep meas).rdB SAF_INT 7 = true) := by
  obtain ⟨s1, u, y, ph, hover, hrest, heq⟩ := windowStep_parts s meas
  obtain ⟨t1, t2, s0, q, h1, h2, hstat, hint⟩ := turns_at hi s1 y ph
  have hu := hrest _ (unshared_entryKept hi)
  obtain ⟨d, x, hnew⟩ := newWindow_eq u
  have hregs : (s.windowStep meas).regs = u.regs := by rw [heq, hnew]
  have htemp : KeepsAt (EntryKept i) s s1 := fun r hr => hover.regs r fun he => by
    rcases hr with h | h | h | ⟨k, hk, h⟩ <;> rw [he] at h <;>
      simp only [SAF_TEMP, SAF_REF_STAT, SAF_REF_CFG, SAF_REF_TIME, AES_RX_STAT] at h <;> omega
  have hfinal : (s.windowStep meas).rd (SAF_REF_STAT i) = setBits ((t2.refStep s0 y i).rd (SAF_REF_STAT i)) 7 4 q :=
    (State.rd_congr hregs _).trans (hu.regs.stat.trans hstat)
  obtain ⟨hstate, hlos, hwait⟩ := stat_of_measured hfinal
  refine ⟨t1, t2, s0, y, htemp.trans h1.regs, h2.regs, hstate, hlos, hwait, fun h => ?_⟩
  rw [State.rdB, State.rd_congr hregs]
  exact hu.los (hint h)

/-- An entry whose loss is no news: the scan leaves its state and, where it is lost, that. -/
theorem refState_losScan {s : State} {i : Nat} (h : s.refLos i = true → s.losNew i = false) : (s.losScan i).refState i = s.refState i := by
  unfold State.losScan
  split
  · next hlos =>
    have hno := h (Bool.and_eq_true_iff.1 hlos).2
    rw [State.losMark, if_neg (by rw [hno]; decide)]
  · rw [State.refState, State.rdF, State.rd_wrB_same, bits_setBit_outside _ (.inr (by decide))]
    rfl

theorem cfg_losScan {s : State} {i : Nat} (hi : i < 8) : (s.losScan i).rd (SAF_REF_CFG i) = s.rd (SAF_REF_CFG i) ∧
    (s.losScan i).rd (SAF_REF_TIME i) = s.rd (SAF_REF_TIME i) := by
  have hs : Unshared (fun a => a = (SAF_REF_CFG i).addr ∨ a = (SAF_REF_TIME i).addr) := fun r hr h =>
    unshared_entryKept hi r hr (h.elim (fun h => .inr (.inl h)) fun h => .inr (.inr (.inl h)))
  have hj : OffEntry i (fun a => a = (SAF_REF_CFG i).addr ∨ a = (SAF_REF_TIME i).addr) := by
    intro r hr
    simp only [entryRegs, List.mem_cons, List.not_mem_nil, or_false] at hr
    rintro (h | h) <;> rcases hr with rfl | rfl | rfl | rfl | rfl | rfl <;>
      simp only [SAF_REF_STAT, SAF_REF_CFG, SAF_REF_TIME, SAF_REF_FREQ, SAF_REF_DEV, SAF_REF_DRIFT, SAF_REF_PHASE,
        SAF_LOS_CNT] at h <;> omega
  have hkeep := (SafKeeps.refl s).losScan hs hj
  exact ⟨hkeep.regs _ (.inl rfl), hkeep.regs _ (.inr rfl)⟩

theorem refOn_losScan {s : State} {i : Nat} (hi : i < 8) : (s.losScan i).refOn i = s.refOn i :=
  congrArg (bit · 31) (cfg_losScan hi).1

theorem refSrc_losScan {s : State} {i : Nat} (hi : i < 8) : (s.losScan i).refSrc i = s.refSrc i :=
  congrArg (bits · 27 24) (cfg_losScan hi).1

theorem refTime_losScan {s : State} {i : Nat} (hi : i < 8) :
    (s.losScan i).rdF (SAF_REF_TIME i) 25 16 = s.rdF (SAF_REF_TIME i) 25 16 :=
  congrArg (bits · 25 16) (cfg_losScan hi).2

theorem windowStep_off {s : State} {i : Nat} (hi : i < 8) (h : s.refOn i = false) (meas : List Int) :
    (s.windowStep meas).refState i = 0 := by
  obtain ⟨t1, t2, s0, y, h1, h2, hstate, -⟩ := windowStep_entry hi s meas
  rw [hstate]
  exact refStep_off (by rw [h2.refOn, refOn_losScan hi, h1.refOn, h]) s0 y

theorem windowStep_manual {s : State} {i : Nat} (hi : i < 8) (hon : s.refOn i = true) (hst : s.refState i = 0)
    (hsrc : s.refSrc i = 6) (meas : List Int) : (s.windowStep meas).refState i = 2 := by
  obtain ⟨t1, t2, s0, y, h1, h2, hstate, -⟩ := windowStep_entry hi s meas
  have hnews : t1.refLos i = true → t1.losNew i = false := fun h => by
    rw [State.refLos, h1.refSrc, hsrc] at h
    cases h
  rw [hstate]
  refine refStep_manual (by rw [h2.refOn, refOn_losScan hi, h1.refOn, hon]) (by rw [h2.refSrc, refSrc_losScan hi, h1.refSrc, hsrc])
    ?_ s0 y
  rw [h2.refState, refState_losScan hnews, h1.refState, hst]

theorem windowStep_edge {s : State} {i : Nat} (hi : i < 8) (hon : s.refOn i = true) (hst : s.refState i = 0)
    (hsrc : s.refSrc i = 2 ∨ s.refSrc i = 4) (meas : List Int) : (s.windowStep meas).refState i = 1 ∧
    (s.windowStep meas).rdF (SAF_REF_STAT i) 31 16 = s.rdF (SAF_REF_TIME i) 25 16 := by
  obtain ⟨t1, t2, s0, y, h1, h2, hstate, -, hwait, -⟩ := windowStep_entry hi s meas
  have hnews : t1.refLos i = true → t1.losNew i = false := fun h => by
    have hlos : t1.rdB (SAF_REF_STAT i) 3 = true := by
      rw [State.refLos, h1.refSrc] at h
      rcases hsrc with e | e <;> rw [e] at h <;> exact h
    rw [State.losNew, hlos, Bool.not_true, Bool.and_false]
  have hon2 : t2.refOn i = true := by rw [h2.refOn, refOn_losScan hi, h1.refOn, hon]
  have hsrc2 : t2.refSrc i ≠ 6 := by rw [h2.refSrc, refSrc_losScan hi, h1.refSrc]; omega
  have hst2 : t2.refState i = 0 := by rw [h2.refState, refState_losScan hnews, h1.refState, hst]
  obtain ⟨run, hturn, -⟩ := refStep_on hon2 hsrc2 s0 y
  obtain ⟨hone, htime⟩ := refWait_spec (t2.wrF (SAF_REF_STAT i) 15 8 run) i
  rw [hstate, hwait, hturn hst2, htime, State.rdF, State.rd_wrF_other _ _ _ _ (by simp [SAF_REF_TIME, SAF_REF_STAT])]
  exact ⟨hone, h2.refTime.trans ((refTime_losScan hi).trans h1.refTime)⟩

theorem windowStep_aes {s : State} {i : Nat} (hi : i < 8) (hon : s.refOn i = true) (hsrc : s.refSrc i = 3)
    (hlock : s.rdB (AES_RX_STAT (s.refIx i)) 0 = false) (hlos : s.rdB (SAF_REF_STAT i) 3 = false) (meas : List Int) :
    (s.windowStep meas).refState i = 4 ∧ (s.windowStep meas).rdB (SAF_REF_STAT i) 3 = true ∧
    (s.windowStep meas).rdB SAF_INT 7 = true := by
  obtain ⟨t1, t2, s0, y, h1, h2, hstate, hbit, -, hint⟩ := windowStep_entry hi s meas
  have hnew : t1.losNew i = true := by
    rw [State.losNew, h1.refOn, hon, h1.refSrc, hsrc, h1.los, hlos]
    rfl
  have hscan : t1.losScan i = t1.losMark i := by
    unfold State.losScan State.refLos
    rw [h1.refOn, hon, h1.refSrc, hsrc, h1.aesLock, hlock]
    rfl
  have hlost := signalLost_losMark hi hnew
  have hon2 : t2.refOn i = true := by rw [h2.refOn, refOn_losScan hi, h1.refOn, hon]
  have hsrc2 : t2.refSrc i ≠ 6 := by rw [h2.refSrc, refSrc_losScan hi, h1.refSrc]; omega
  have hst2 : t2.refState i = 4 := by rw [h2.refState, hscan]; exact hlost.state
  have hlos2 : t2.rdB (SAF_REF_STAT i) 3 = true := by rw [h2.los, hscan]; exact hlost.los
  obtain ⟨run, -, hturn⟩ := refStep_on hon2 hsrc2 s0 y
  rw [hstate, hbit, hturn hst2 hlos2]
  refine ⟨?_, ?_, hint (by rw [hscan]; exact hlost.flag)⟩
  · exact (rdF_wrF_apart _ _ (by decide) (by decide) (.inl (by decide)) _).trans hst2
  · exact (rdB_wrF_apart _ _ (by decide) (by decide) (.inl (by decide)) _).trans hlos2

theorem windowStep_rest (s : State) (meas : List Int) :
    s.saf.winAt + 1000000000 ≤ (s.windowStep meas).now ∧ (s.windowStep meas).saf.winAt = (s.windowStep meas).now ∧
    (s.windowStep meas).mem = s.mem := by
  obtain ⟨s1, u, y, ph, hover, hrest, heq⟩ := windowStep_parts s meas
  have hall := (turns_rest s1 y ph).trans (hrest _ fun _ _ h => h)
  obtain ⟨d, x, hnew⟩ := newWindow_eq u
  rw [heq, hnew]
  refine ⟨?_, hall.win.trans (hover.win.trans hall.now.symm), hall.mem.trans hover.mem⟩
  exact hover.come.trans_eq hall.now.symm

end Sys2Proof

namespace Sys2Proof

open Sys2Proof.Machine

/-! The steer (R292, R293). -/

theorem clampTo_bound {b : Int} (hb : 0 ≤ b) (v : Int) : -b ≤ clampTo b v ∧ clampTo b v ≤ b := by
  unfold clampTo
  split
  · omega
  · split <;> omega

/-- The slew's room beside a steer within its bound. -/
theorem slewRoom {b v q : Int} (hlo : -b ≤ v) (hhi : v ≤ b) :
    let hi := (b - v) / 1000000
    let lo := -((b + v) / 1000000)
    let p := (if hi < q then hi else if q < lo then lo else q) * 1000000
    v + p ≤ b ∧ -b ≤ v + p := by
  intro hi lo p
  have hhi' : hi * 1000000 ≤ b - v := Int.ediv_mul_le _ (by decide)
  have hlo' : (b + v) / 1000000 * 1000000 ≤ b + v := Int.ediv_mul_le _ (by decide)
  have hhi0 : 0 ≤ hi := Int.ediv_nonneg (by omega) (by decide)
  have hlo0 : 0 ≤ (b + v) / 1000000 := Int.ediv_nonneg (by omega) (by decide)
  unfold p
  split
  · omega
  · split <;> omega

/-- A steer update in its parts: the time has come, what is left to slew has moved, and the steer and the slew are within
their bound. -/
theorem steerUpdate_spec (s : State) :
    -500000000 ≤ s.steerUpdate.steer ∧ s.steerUpdate.steer ≤ 500000000 ∧
    -500000000 ≤ s.steerUpdate.steer + s.steerUpdate.slew ∧ s.steerUpdate.steer + s.steerUpdate.slew ≤ 500000000 ∧
    s.steerUpdate.saf.us = (s.saf.us + 1) % 1000 ∧ s.saf.usAt + 1000 ≤ s.steerUpdate.now ∧
    s.steerUpdate.saf.rem = s.saf.rem - s.slew / 1000000 ∧ s.steerUpdate.mem = s.mem := by
  have hcome := le_now_advanceTo' s (s.saf.usAt + 1000)
  have hmem := mem_advanceTo s (s.saf.usAt + 1000)
  have hsaf : (s.advanceTo (s.saf.usAt + 1000)).saf = s.saf := rfl
  have hslew : (s.advanceTo (s.saf.usAt + 1000)).slew = s.slew := rfl
  unfold State.steerUpdate
  extract_lets t us f left ended t1 t2 v v' q hi lo q' t3
  have ht : t = s.advanceTo (s.saf.usAt + 1000) := rfl
  rw [← ht] at hcome hmem hsaf hslew
  clear_value t
  have h1 : t1.now = t.now ∧ t1.mem = t.mem ∧ t1.saf = { t.saf with rem := left } := ⟨rfl, rfl, rfl⟩
  have h2 : t2.now = t1.now ∧ t2.mem = t1.mem ∧ t2.saf = t1.saf := by
    unfold t2
    split <;> exact ⟨rfl, rfl, rfl⟩
  have hv : -500000000 ≤ v' ∧ v' ≤ 500000000 := clampTo_bound (b := 500000000) (by decide) v
  have hsum := slewRoom (q := q) hv.1 hv.2
  obtain ⟨hnow1, hmem1, hsaf1⟩ := h1
  obtain ⟨hnow2, hmem2, hsaf2⟩ := h2
  refine ⟨hv.1, hv.2, hsum.2, hsum.1, ?_, ?_, ?_, hmem2.trans (hmem1.trans hmem)⟩
  · exact congrArg (fun x : Saf => (x.us + 1) % 1000) hsaf
  · exact hcome.trans_eq (hnow2.trans hnow1).symm
  · calc t3.saf.rem = t1.saf.rem := congrArg Saf.rem hsaf2
      _ = t.saf.rem - t.slew / 1000000 := congrArg Saf.rem hsaf1
      _ = s.saf.rem - s.slew / 1000000 := by rw [hsaf, hslew]

/-! The edges of a reference's input (R296, R297). -/

theorem roundHalfEven_near (a : Int) {b : Nat} (hb : 0 < b) :
    2 * (roundHalfEven a b * b) ≤ 2 * a + b ∧ 2 * a ≤ 2 * (roundHalfEven a b * b) + b := by
  have hdiv := Int.ediv_mul_add_emod a b
  have hlo := Int.emod_nonneg a (by omega : (b : Int) ≠ 0)
  have hhi := Int.emod_lt_of_pos a (by omega : (0 : Int) < b)
  have hnext : (a / b + 1) * (b : Int) = a / b * b + b := by rw [Int.add_mul, Int.one_mul]
  unfold roundHalfEven
  dsimp only
  split
  · omega
  · split
    · omega
    · split <;> omega

/-- The nearest sample edge is half a period off at most, to the rounding. -/
theorem edgePhase_bound {s : State} (hfs : 0 < s.fs) (t : Int) :
    2 * (s.edgePhase t 1).natAbs * s.fs ≤ 1000000000 + s.fs := by
  have hu : ((1 : Nat) : Int) * ((stcSecond : Nat) : Int) = 1000000000000000000000 := by decide
  have hmod := Int.emod_nonneg (t * s.fs + 1000000000000000000000 / 2) (by decide : (1000000000000000000000 : Int) ≠ 0)
  have hlt := Int.emod_lt_of_pos (t * s.fs + 1000000000000000000000 / 2) (by decide : (0 : Int) < 1000000000000000000000)
  unfold State.edgePhase
  rw [hu]
  dsimp only
  generalize (t * s.fs + 1000000000000000000000 / 2) % 1000000000000000000000 = x at hmod hlt ⊢
  obtain ⟨hup, hdown⟩ := roundHalfEven_near (x - 1000000000000000000000 / 2) (Nat.mul_pos hfs (by decide : 0 < 1000000000000))
  generalize roundHalfEven (x - 1000000000000000000000 / 2) (s.fs * 1000000000000) = r at hup hdown ⊢
  have hscale : r * ((s.fs * 1000000000000 : Nat) : Int) = r * s.fs * 1000000000000 := by push_cast; ring
  rw [hscale] at hup hdown
  have habs : ((2 * r.natAbs * s.fs : Nat) : Int) = 2 * |r * s.fs| := by
    rw [abs_mul, Nat.abs_cast, Int.abs_eq_natAbs]
    push_cast
    ring
  have hsum : |r * (s.fs : Int)| * 2 ≤ 1000000000 + s.fs := by
    rcases abs_cases (r * (s.fs : Int)) with ⟨he, -⟩ | ⟨he, -⟩ <;> rw [he] <;> omega
  omega

/-- The turn of an entry whose source has an edge. -/
def edgeTurn (err : Int) (ago : Nat) (s : State) (i : Nat) : State :=
  let q := s.refRate i
  let s := s.wrB (SAF_REF_STAT i) 3 false
  if 1000000000 * q.2 < 20 * err.natAbs * q.1 then s.setSafRef i { s.safRef i with disc := (s.safRef i).disc + 1 }
  else s.refCompare i ((s.stc : Int) - ago * 1000000000000)

theorem refEdge_eq {s : State} {video : Bool} {width : Nat} (h : (if video then 100 else 20) ≤ width) (err : Int) (ago : Nat) :
    s.refEdge video width err ago = s.each (s.refsOf (if video then 4 else 2) 0) (edgeTurn err ago) := by
  unfold State.refEdge
  rw [if_neg (by omega)]
  rfl

/-- Other entries' turns move registers and Saffron's state, and of entry `i` nothing. -/
structure EdgeKeeps (i : Nat) (s t : State) : Prop where
  only : t = { s with regs := t.regs, saf := t.saf }
  ref : t.safRef i = s.safRef i
  regs : KeepsAt (fun a => ∀ j, j ≠ i → a ≠ (SAF_REF_STAT j).addr) s t

namespace EdgeKeeps

variable {i : Nat} {s t u : State}

theorem refl (s : State) : EdgeKeeps i s s := ⟨rfl, rfl, .refl s⟩

theorem trans (h : EdgeKeeps i s t) (k : EdgeKeeps i t u) : EdgeKeeps i s u :=
  ⟨k.only.trans (congrArg (fun x : State => { x with regs := u.regs, saf := u.saf }) h.only), k.ref.trans h.ref,
    h.regs.trans k.regs⟩

theorem clearLoss {j : Nat} (hj : j ≠ i) (s : State) : EdgeKeeps i s (s.wrB (SAF_REF_STAT j) 3 false) :=
  ⟨rfl, rfl, (KeepsAt.refl s).wrB (fun h => h j hj rfl) _ _⟩

theorem setSafRef {j : Nat} (hj : j ≠ i) (s : State) (x : SafRef) : EdgeKeeps i s (s.setSafRef j x) :=
  ⟨rfl, sget_sset_other _ _ _ _ hj.symm, .of_regs rfl⟩

theorem refCompare {j : Nat} (hj : j ≠ i) (s : State) (t : Int) : EdgeKeeps i s (s.refCompare j t) := by
  unfold State.refCompare
  extract_lets
  split <;> exact setSafRef hj s _

theorem edgeTurn {j : Nat} (hj : j ≠ i) (err : Int) (ago : Nat) (s : State) : EdgeKeeps i s (edgeTurn err ago s j) := by
  unfold Sys2Proof.edgeTurn
  extract_lets q t
  have ht : EdgeKeeps i s t := clearLoss hj s
  split
  · exact ht.trans (setSafRef hj t _)
  · exact ht.trans (refCompare hj t _)

theorem cfg (h : EdgeKeeps i s t) : t.rd (SAF_REF_CFG i) = s.rd (SAF_REF_CFG i) :=
  h.regs _ fun j _ => by simp only [SAF_REF_CFG, SAF_REF_STAT]; omega

theorem fs (h : EdgeKeeps i s t) : t.fs = s.fs :=
  congrArg (fun w => rateHz (bits w 1 0)) (h.regs SYS_FRM_CTRL fun j _ => by simp only [SYS_FRM_CTRL, SAF_REF_STAT]; omega)

theorem vid (h : EdgeKeeps i s t) : t.rd SAF_VID_CFG = s.rd SAF_VID_CFG :=
  h.regs _ fun j _ => by simp only [SAF_VID_CFG, SAF_REF_STAT]; omega

theorem stc (h : EdgeKeeps i s t) : t.stc = s.stc := (congrArg State.stc h.only).trans rfl

theorem refRate (h : EdgeKeeps i s t) : t.refRate i = s.refRate i := by
  simp only [State.refRate, State.refSrc, State.rdF, h.cfg, h.vid, h.fs]
  rfl

end EdgeKeeps

theorem safRef_setSafRef_same (s : State) (i : Nat) (x : SafRef) : (s.setSafRef i x).safRef i = x := by
  simp [State.setSafRef, State.safRef]

/-- An entry's comparison: nothing is discarded; a word clock's edge at ratio 0b00 is compared with the nearest sample edge. -/
theorem refCompare_spec (s : State) (i : Nat) (t : Int) : ((s.refCompare i t).safRef i).disc = (s.safRef i).disc ∧
    (s.refSrc i ≠ 4 → s.rdF (SAF_REF_CFG i) 13 12 = 0 → ((s.refCompare i t).safRef i).phase = s.edgePhase t 1) := by
  unfold State.refCompare
  extract_lets x ratio every
  split
  · next h =>
    refine ⟨by rw [safRef_setSafRef_same], fun hsrc hratio => ?_⟩
    have hone : every = 1 := by
      unfold every ratio
      rw [if_neg hsrc, hratio]
      rfl
    omega
  · refine ⟨by rw [safRef_setSafRef_same], fun _ hratio => ?_⟩
    rw [safRef_setSafRef_same]
    unfold ratio
    rw [hratio]
    rfl

theorem rdB_stat_edgeTurn (s : State) (i : Nat) (err : Int) (ago : Nat) : (edgeTurn err ago s i).rdB (SAF_REF_STAT i) 3 = false := by
  unfold edgeTurn
  extract_lets q t
  have ht : t.rdB (SAF_REF_STAT i) 3 = false := rdB_wrB_same _ _ (by decide) _
  split
  · exact ht
  · unfold State.refCompare
    extract_lets
    split <;> exact ht

theorem edgeTurn_spec (s : State) (i : Nat) (err : Int) (ago : Nat) :
    (1000000000 * (s.refRate i).2 < 20 * err.natAbs * (s.refRate i).1 →
      ((edgeTurn err ago s i).safRef i).disc = (s.safRef i).disc + 1 ∧
      ((edgeTurn err ago s i).safRef i).phase = (s.safRef i).phase) ∧
    (20 * err.natAbs * (s.refRate i).1 ≤ 1000000000 * (s.refRate i).2 →
      ((edgeTurn err ago s i).safRef i).disc = (s.safRef i).disc ∧
      (s.refSrc i ≠ 4 → s.rdF (SAF_REF_CFG i) 13 12 = 0 →
        ((edgeTurn err ago s i).safRef i).phase = s.edgePhase ((s.stc : Int) - ago * 1000000000000) 1)) := by
  have hcfg : (s.wrB (SAF_REF_STAT i) 3 false).rd (SAF_REF_CFG i) = s.rd (SAF_REF_CFG i) :=
    State.rd_wrB_other _ _ _ (by simp [SAF_REF_CFG, SAF_REF_STAT])
  have hfs : (s.wrB (SAF_REF_STAT i) 3 false).fs = s.fs :=
    congrArg (fun w => rateHz (bits w 1 0))
      (State.rd_wrB_other (q := SYS_FRM_CTRL) _ _ _ (by simp only [SYS_FRM_CTRL, SAF_REF_STAT]; omega))
  unfold edgeTurn
  extract_lets q t
  refine ⟨fun h => ?_, fun h => ?_⟩
  · rw [if_pos h, safRef_setSafRef_same]
    exact ⟨rfl, rfl⟩
  · rw [if_neg (Nat.not_lt.2 h)]
    obtain ⟨hdisc, hphase⟩ := refCompare_spec t i ((t.stc : Int) - ago * 1000000000000)
    refine ⟨hdisc, fun hsrc hratio => (hphase ?_ ?_).trans ?_⟩
    · rwa [State.refSrc, State.rdF, hcfg]
    · rwa [State.rdF, hcfg]
    · unfold State.edgePhase
      rw [hfs]
      rfl

theorem nodup_refsOf (s : State) (src ix : Nat) : (s.refsOf src ix).Nodup := List.nodup_range.filter _

theorem fs_pos (s : State) : 0 < s.fs := by
  unfold State.fs rateHz
  split <;> decide

/-- The edge of an entry of the source: its turn, through those of the others. -/
theorem refEdge_entry {s : State} {video : Bool} {width : Nat} (hw : (if video then 100 else 20) ≤ width) (err : Int) (ago : Nat)
    {i : Nat} (hi : i < 8) (hon : s.refOn i = true) (hsrc : s.refSrc i = if video then 4 else 2) (hix : s.refIx i = 0) :
    let u := s.refEdge video width err ago
    u.rdB (SAF_REF_STAT i) 3 = false ∧
    (1000000000 * (s.refRate i).2 < 20 * err.natAbs * (s.refRate i).1 →
      (u.safRef i).disc = (s.safRef i).disc + 1 ∧ (u.safRef i).phase = (s.safRef i).phase) ∧
    (20 * err.natAbs * (s.refRate i).1 ≤ 1000000000 * (s.refRate i).2 → (u.safRef i).disc = (s.safRef i).disc ∧
      (video = false → s.rdF (SAF_REF_CFG i) 13 12 = 0 →
        (u.safRef i).phase = s.edgePhase ((s.stc : Int) - ago * 1000000000000) 1)) := by
  have hmem : i ∈ s.refsOf (if video then 4 else 2) 0 := by
    refine List.mem_filter.2 ⟨List.mem_range.2 hi, ?_⟩
    rw [hon, hsrc, hix]
    simp
  obtain ⟨t, h, k⟩ := each_turn (R := EdgeKeeps i) EdgeKeeps.refl (fun _ _ _ => EdgeKeeps.trans) (nodup_refsOf s _ _) hmem
    (f := edgeTurn err ago) (fun t j _ hji => EdgeKeeps.edgeTurn hji err ago t) s
  obtain ⟨hoff, hnear⟩ := edgeTurn_spec t i err ago
  rw [h.refRate, h.ref] at hoff hnear
  intro u
  have hu : u = s.each (s.refsOf (if video then 4 else 2) 0) (edgeTurn err ago) := refEdge_eq hw err ago
  rw [← hu] at k
  rw [k.ref]
  refine ⟨?_, hoff, fun hle => ⟨(hnear hle).1, fun hvid hratio => ((hnear hle).2 ?_ ?_).trans ?_⟩⟩
  · have hstat : u.rd (SAF_REF_STAT i) = (edgeTurn err ago t i).rd (SAF_REF_STAT i) :=
      k.regs _ fun j hj => by simp only [SAF_REF_STAT]; omega
    rw [State.rdB, hstat]
    exact rdB_stat_edgeTurn t i err ago
  · rw [State.refSrc, State.rdF, h.cfg]
    have hsrc' : s.refSrc i = 2 := by rw [hsrc, hvid]; rfl
    rw [show bits (s.rd (SAF_REF_CFG i)) 27 24 = s.refSrc i from rfl, hsrc']
    decide
  · rwa [State.rdF, h.cfg]
  · unfold State.edgePhase
    rw [h.fs, h.stc]

/-! A lost grandmaster, and a silent path of a stream (R285, R290). -/

theorem ptpRep_setPtpRep_same (s : State) (p : Nat) (x : PtpRep) : (s.setPtpRep p x).ptpRep p = x := by
  simp [State.setPtpRep, State.ptpRep]

theorem losMark_shows {s : State} {i : Nat} (hi : i < 8) (hon : s.refOn i = true) (hsrc : s.refSrc i ≠ 6) :
    (s.losMark i).rdB (SAF_REF_STAT i) 3 = true := by
  cases hnew : s.losNew i with
  | true => exact (signalLost_losMark hi hnew).los
  | false =>
    have hlos : s.rdB (SAF_REF_STAT i) 3 = true := by
      unfold State.losNew at hnew
      rw [hon, bne_iff_ne.2 hsrc] at hnew
      simpa using hnew
    rw [State.losMark, if_neg (by rw [hnew]; decide)]
    exact hlos

/-- Every entry that follows a lost source shows the loss. -/
theorem losSource_shows {s : State} {src ix i : Nat} (hi : i < 8) (hon : s.refOn i = true) (hsrc : s.refSrc i = src)
    (hne : src ≠ 6) (hix : s.refIx i = ix) : (s.losSource src ix).rdB (SAF_REF_STAT i) 3 = true := by
  have hs := unshared_entryKept hi
  have hmem : i ∈ (upTo 8).filter (fun i => s.refSrc i = src && s.refIx i = ix) :=
    List.mem_filter.2 ⟨List.mem_range.2 hi, by rw [hsrc, hix]; simp⟩
  obtain ⟨t, h, k⟩ := each_turn (R := SafKeeps (EntryKept i)) SafKeeps.refl (fun _ _ _ => SafKeeps.trans)
    (List.nodup_range.filter _) hmem (f := fun s j => s.losMark j)
    (fun t j _ hji => (SafKeeps.refl t).losMark hs (offEntry_entryKept hi hji)) s
  have hmark : (t.losMark i).rdB (SAF_REF_STAT i) 3 = true :=
    losMark_shows hi (by rw [h.regs.refOn, hon]) (by rw [h.regs.refSrc, hsrc]; exact hne)
  have hall := k.regs.los.trans hmark
  unfold State.losSource State.losAll
  extract_lets u
  split
  · exact ((SafKeeps.refl u).refSelect hs).regs.los.trans hall
  · exact hall

theorem ptpAnnounceLost_spec {s : State} {p : Nat} (hinst : (s.ptpInst p).isSome = true) (hcore : s.anyCore = true)
    (hshed : s.shedLevel < 5) :
    let u := s.ptpAnnounceLost p
    (u.ptpRep p).lost = true ∧ u.mem = s.mem ∧
    ∀ i < 8, s.refOn i = true → s.refSrc i = 1 → s.refIx i = p → u.rdB (SAF_REF_STAT i) 3 = true := by
  obtain ⟨x, hx⟩ := Option.isSome_iff_exists.1 hinst
  have hruns : s.ptpRuns = true := by
    unfold State.ptpRuns
    simp [hcore, hshed]
  have hlost : ∃ v, s.ptpAnnounceLost p = (s.ptpLost p).setPtpInst p v := by
    unfold State.ptpAnnounceLost
    rw [hx]
    dsimp only
    rw [if_pos hruns]
    exact ⟨_, rfl⟩
  obtain ⟨v, hv⟩ := hlost
  set t := s.setPtpRep p { s.ptpRep p with lost := true } with ht
  have hrest : SafKeeps (fun _ => False) t (s.ptpLost p) := losAll_rest t _
  have hrep : (s.ptpLost p).ptpRep p = t.ptpRep p := by rw [State.ptpRep, State.ptpRep, hrest.ptp]
  rw [hv]
  refine ⟨?_, hrest.mem, fun i hi hon hsrc hix => ?_⟩
  · calc ((s.ptpLost p).ptpRep p).lost = (t.ptpRep p).lost := by rw [hrep]
      _ = true := by rw [ht, ptpRep_setPtpRep_same]
  · exact losSource_shows (s := t) hi hon hsrc (by decide) hix

theorem pathDown_spec {s : State} {i : Nat} {pathB : Bool} (hruns : s.rxRuns i = true)
    (hb : pathB = true → s.rdB (STRM_RX_CTRL i) 30 = true)
    (hup : s.rdB (STRM_RX_STAT i) (if pathB then 2 else 1) = true) :
    let u := s.pathDown i pathB
    u.rdB (STRM_RX_STAT i) (if pathB then 2 else 1) = false ∧ u.rdB STRM_INT 1 = true ∧ u.mem = s.mem ∧
    ∀ r : Reg, r.addr ≠ (STRM_RX_STAT i).addr → r.addr ≠ STRM_INT.addr → u.rd r = s.rd r := by
  have hpath : (!pathB || bit (s.rd (STRM_RX_CTRL i)) 30) = true := by
    cases pathB with
    | false => rfl
    | true => exact hb rfl
  have hdown : ∃ c, s.pathDown i pathB =
      ((s.advanceTo c).wrB (STRM_RX_STAT i) (if pathB then 2 else 1) false).raise STRM_INT 2#32 := by
    unfold State.pathDown
    dsimp only
    rw [hruns, hpath, hup, if_pos (by decide)]
    exact ⟨_, rfl⟩
  obtain ⟨c, hc⟩ := hdown
  dsimp only
  rw [hc]
  refine ⟨?_, rdB_raise_same _ _ (by decide), mem_advanceTo s c, fun r hr hint => ?_⟩
  · rw [State.rdB, State.rd_raise_other _ _ (by simp only [STRM_RX_STAT, STRM_INT]; omega)]
    exact rdB_wrB_same _ _ (by split <;> decide) _
  · rw [State.rd_raise_other _ _ hint, State.rd_wrB_other _ _ _ hr]
    exact State.rd_congr (regs_advanceTo s c) r

/-- Settles O43: every part of a window's end leaves an entry's registers to that entry's own turn. -/
theorem referencesAndSteer : Obligations.ReferencesAndSteer := by
  unfold Obligations.ReferencesAndSteer
  refine ⟨fun s => (gives_iff_of_done (t := s.steerUpdate) rfl).2 (steerUpdate_spec s), fun s meas h => (gives_iff_of_done rfl).2 ?_,
    fun s meas h => (gives_iff_of_done rfl).2 ?_, fun s i hon hsrc hlos => (gives_iff_of_done rfl).2 ?_,
    fun s video width err ago => (gives_iff_of_done rfl).2 ⟨fun hw => ?_, fun hw i hi hon hsrc hix => ?_⟩,
    fun s p hinst hcore hshed => (gives_iff_of_done rfl).2 (ptpAnnounceLost_spec hinst hcore hshed),
    fun s i pathB hruns hb hup => (gives_iff_of_done rfl).2 (pathDown_spec hruns hb hup)⟩
  · rw [State.windowEnd, if_pos h]
    exact .settle s
  · rw [State.windowEnd, if_neg (by rw [h]; decide)]
    obtain ⟨hcome, hwin, hmem⟩ := windowStep_rest s meas
    exact ⟨hcome, hwin, hmem, fun i hi hoff => windowStep_off hi hoff meas,
      fun i hi hon hst hsrc => windowStep_manual hi hon hst hsrc meas,
      fun i hi hon hst hsrc => windowStep_edge hi hon hst hsrc meas,
      fun i hi hon hsrc hlock hlos => windowStep_aes hi hon hsrc hlock hlos meas⟩
  · have hnew : s.losNew i = true := by
      rw [State.losNew, hon, bne_iff_ne.2 hsrc, hlos]
      rfl
    have hlost := signalLost_losOf i.isLt hnew
    exact ⟨hlost.los, hlost.flag, hlost.count, hlost.state, (losAll_rest s [i.val]).mem⟩
  · rw [State.refEdge, if_pos hw]
    exact ⟨(OnlyRegs.count s _).trans (.settle _), rdF_count_same _ _⟩
  · obtain ⟨hlos, hoff, hnear⟩ := refEdge_entry hw err ago hi hon hsrc hix
    refine ⟨hlos, hoff, fun hle => ⟨(hnear hle).1, fun hvid hratio => ?_⟩⟩
    have hphase := (hnear hle).2 hvid hratio
    exact ⟨hphase, hphase ▸ edgePhase_bound (fs_pos s) _⟩

end Sys2Proof

namespace Sys2Proof

open Sys2Proof.Machine

/-! A late timed start whose STC is no value of the 48-bit seconds (R292, R295, R310). -/

/-- The STC just past its last second, no value that it takes, and a timed start armed for its first. -/
def pastLastSecond : State := ({ State.reset with stc := 2 ^ 48 * stcSecond } : State).wr STC_STAT 2#32

theorem pastLastSecond_met : pastLastSecond.rdB STC_STAT 1 = true ∧ pastLastSecond.gainFenced = false ∧
    pastLastSecond.running = false ∧ pastLastSecond.rdB SYS_FRM_STAT 2 = false ∧ pastLastSecond.frame.final = false ∧
    pastLastSecond.stcRegs STC_START_SECH STC_START_SECL STC_START_NS + pastLastSecond.stcRate ≤ pastLastSecond.stc := by
  decide

/-- The cycle of the start wraps the STC to 0, and tick 0 is placed from there. -/
theorem edge_pastLastSecond : (pastLastSecond.timedStart false).frame.edge = 2 := by decide

theorem edge_stated_pastLastSecond : ceilDiv (pastLastSecond.stc * pastLastSecond.fs) stcSecond + 2 ≠ 2 := by decide

/-- Refutes O44: a timed start that comes late is placed from the STC after its cycle, which wraps; the statement places it
from the STC before, and its last clause, unlike the third, does not ask that this is a value of the STC. -/
theorem not_stcAndTimedStart : ¬ Obligations.StcAndTimedStart := by
  unfold Obligations.StcAndTimedStart
  intro h
  obtain ⟨-, -, -, -, -, hstart⟩ := h
  obtain ⟨harmed, hfence, hstopped, hstop, hfinal, hlate⟩ := pastLastSecond_met
  have hgives := (gives_iff_of_done (t := pastLastSecond.timedStart false) rfl).1
    (hstart pastLastSecond harmed hfence hstopped hstop hfinal)
  obtain ⟨-, -, -, -, -, -, hpassed⟩ := hgives
  obtain ⟨-, hedge⟩ := hpassed hlate
  exact edge_stated_pastLastSecond (hedge.symm.trans edge_pastLastSecond)

end Sys2Proof

namespace Sys2Proof

open Sys2Proof.Machine

/-! The mirror copy's commands and loads (R342, R344, R345). -/

/-- What a copy's final status leaves, after the standby of an aborted one is told (R345). -/
def copyEnded (s : State) (status : Nat) : State :=
  let s := s.upd ANI_COPY_STAT (fun w => setBits (setBits (setBit w 31 true) 5 4 status) 1 0 0)
  let s := ((s.wrB ANI_CMD 2 false).wr ANI_COPY_LEFT 0).raise ANI_INT 0x80#32
  s.updAni (fun a => { a with left := [], flying := none, abort := false, doneAt := some s.now })

theorem copyEnd_of_copying {s : State} (h : s.copying = true) {status : Nat} (hs : status ≠ 2) :
    s.copyEnd status = copyEnded s status := by
  rw [State.copyEnd, if_pos h, if_neg hs]
  rfl

/-- What a copy that has ended reads. -/
structure CopyEnded (s u : State) (status : Nat) : Prop where
  idle : u.copying = false
  done : u.rdB ANI_COPY_STAT 31 = true
  status : u.rdF ANI_COPY_STAT 5 4 = status
  phase : u.rdF ANI_COPY_STAT 1 0 = 0
  left : u.rd ANI_COPY_LEFT = 0
  int : u.rdB ANI_INT 7 = true
  mem : u.mem = s.mem

theorem copyEnded_spec (s : State) {status : Nat} (h : status < 4) : CopyEnded s (copyEnded s status) status := by
  have hstat : (copyEnded s status).rd ANI_COPY_STAT =
      setBits (setBits (setBit (s.rd ANI_COPY_STAT) 31 true) 5 4 status) 1 0 0 := by
    unfold copyEnded
    exact (State.rd_raise_other _ _ (by decide)).trans ((State.rd_wr_other _ _ (by decide)).trans
      ((State.rd_wrB_other _ _ _ (by decide)).trans (State.rd_upd_same _ _ _)))
  refine ⟨?_, ?_, ?_, ?_, ?_, rdB_raise_same _ _ (by decide), rfl⟩
  · exact congrArg (bit · 2) ((State.rd_raise_other _ _ (by decide)).trans (State.rd_wr_other _ _ (by decide)))
      |>.trans (rdB_wrB_same _ _ (by omega) _)
  · rw [State.rdB, hstat, bit_setBits _ (by omega) (by omega), if_neg (by omega),
      bit_setBits _ (by omega) (by omega), if_neg (by omega), bit_setBit_same _ (by omega)]
  · rw [State.rdF, hstat, bits_setBits_apart _ (by omega) (by omega) (by omega),
      bits_setBits_same _ (by omega) (by omega)]
    exact Nat.mod_eq_of_lt h
  · rw [State.rdF, hstat, bits_setBits_same _ (by omega) (by omega), Nat.zero_mod]
  · exact (State.rd_raise_other _ _ (by decide)).trans (State.rd_wr_same _ _ _)

/-! ANI_CMD (R340, R342, R344, R345). -/

theorem aniCmd_take {s : State} (hon : s.rdB ANI_CTRL 0 = true) (hrole : s.aniRole = 2) :
    s.aniCmd 1#32 = s.updAni (fun a => { a with take := true }) := by
  have hc : (bit 1#32 0 && s.aniOn && s.aniRole = 2) = true := by simp [State.aniOn, hon, hrole, bit]
  unfold State.aniCmd
  rw [if_pos hc]
  rfl

theorem aniCmd_release {s : State} (hon : s.rdB ANI_CTRL 0 = true) (hstate : s.aniState = 1) (hpeer : s.peerState = 3) :
    s.aniCmd 2#32 = if s.ani.release = none then s.updAni (fun a => { a with release := some s.blockNo, ack := false })
      else s := by
  have hc : (bit 2#32 1 && !(bit 2#32 0) && s.aniOn && s.aniState = 1 && s.peerState = 3 && s.ani.release.isNone)
      = s.ani.release.isNone := by simp [State.aniOn, hon, hstate, hpeer, bit]
  unfold State.aniCmd
  dsimp only
  rw [if_neg (by simp [bit] : ¬ (bit 2#32 0 && s.aniOn && s.aniRole = 2) = true), hc]
  cases s.ani.release <;> rfl

/-- What a copy of the slices `l` leaves that starts with `v` in ANI_COPY_LEFT (R344). -/
def copyStarted (s : State) (l : List Nat) (v : Word) : State :=
  ((((s.wrB ANI_CMD 2 true).wrF ANI_COPY_STAT 5 4 0).wrF ANI_COPY_STAT 1 0 1).wr ANI_COPY_LEFT v).updAni (fun a =>
    { a with left := l, bulkAt := 0, flying := none, abort := false, doneAt := none })

theorem aniCmd_copy {s : State} (hon : s.rdB ANI_CTRL 0 = true) (hstate : s.aniState = 1) (hpeer : s.peerState = 6)
    (hidle : s.copying = false) :
    s.aniCmd 4#32 = copyStarted s s.validSlices (BitVec.ofNat 32 s.validSlices.length) := by
  have hc : (s.aniOn && s.aniState = 1 && s.peerState = 6 && !s.copying) = true := by
    simp [State.aniOn, hon, hstate, hpeer, hidle]
  calc s.aniCmd 4#32 = s.copyStart := rfl
    _ = _ := by rw [State.copyStart, if_pos hc]; rfl

theorem copyStarted_spec (s : State) (l : List Nat) (v : Word) : (copyStarted s l v).copying = true ∧
    (copyStarted s l v).rdF ANI_COPY_STAT 1 0 = 1 ∧ (copyStarted s l v).rdF ANI_COPY_STAT 5 4 = 0 ∧
    (copyStarted s l v).ani.left = l ∧ (copyStarted s l v).rd ANI_COPY_LEFT = v ∧ (copyStarted s l v).mem = s.mem := by
  let a := s.wrB ANI_CMD 2 true
  let b := a.wrF ANI_COPY_STAT 5 4 0
  let c := b.wrF ANI_COPY_STAT 1 0 1
  have hrd : ∀ {r : Reg}, r.addr ≠ ANI_COPY_LEFT.addr → (copyStarted s l v).rd r = c.rd r :=
    fun h => State.rd_wr_other c v h
  refine ⟨?_, ?_, ?_, rfl, State.rd_wr_same c _ v, rfl⟩
  · have hcmd : (copyStarted s l v).rd ANI_CMD = a.rd ANI_CMD := (hrd (by decide)).trans
      ((State.rd_wrF_other b _ _ _ (by decide)).trans (State.rd_wrF_other a _ _ _ (by decide)))
    exact (congrArg (bit · 2) hcmd).trans (rdB_wrB_same s _ (by omega) _)
  · exact (congrArg (bits · 1 0) (hrd (by decide))).trans (rdF_wrF_same b _ (by omega) (by omega) _)
  · exact (congrArg (bits · 5 4) (hrd (by decide))).trans
      ((rdF_wrF_apart b _ (by omega) (by omega) (by omega) _).trans (rdF_wrF_same a _ (by omega) (by omega) _))

theorem aniCmd_abort (s : State) : s.aniCmd 8#32 =
    if s.copying then s.updAni (fun a => { a with abort := true })
    else if s.rdF ANI_COPY_STAT 5 4 = 1 && s.ani.doneAt == some s.now then s.wrF ANI_COPY_STAT 5 4 3
    else s := rfl

theorem copyLate_iff (s : State) : (s.rdF ANI_COPY_STAT 5 4 = 1 && s.ani.doneAt == some s.now) = true ↔
    s.rdF ANI_COPY_STAT 5 4 = 1 ∧ s.ani.doneAt = some s.now := by simp

/-! A slice snapshot loads into its slice's window (R344). -/

theorem putBytes_above {a x : Nat} {bs : List Byte} (h : a + bs.length ≤ x) (m : List (Nat × Byte)) :
    sget 0 (putBytes m a bs) x = sget 0 m x := by
  induction bs generalizing a m with
  | nil => rfl
  | cons b bs ih =>
    rw [List.length_cons] at h
    exact (ih (by omega) _).trans (putByte_other m b (by omega))

theorem foldl_putByte_zipIdx (l : List Byte) (a k : Nat) (m : List (Nat × Byte)) :
    (l.zipIdx k).foldl (fun m x => putByte m (a + x.2) x.1) m = putBytes m (a + k) l := by
  induction l generalizing k m with
  | nil => rfl
  | cons b l ih => rw [List.zipIdx_cons, List.foldl_cons, ih]; rfl

theorem aniFence_unfenced {s : State} (h : ∀ u, s.fenced u = false) (w : Bool) (a n : Nat) : s.aniFence w a n = s := by
  have hnone : s.fencedIn a n = none := by
    unfold State.fencedIn
    dsimp only
    split
    · rfl
    · exact List.findSome?_eq_none_iff.2 fun x _ => by simp [h]
  rw [State.aniFence, hnone]

/-- What a snapshot that loads leaves, where nothing is fenced. -/
theorem sliceLoad_standby {s : State} {id : Nat} {d : List Byte} {rest : List (Nat × List Byte)}
    (hstandby : s.aniStandby = true) (hloads : s.ani.loads = (id, d) :: rest)
    (hwait : ((s.eng (id / 64)).sb (id % 64)).started = false) (hvalid : (s.liveOf id).valid = true)
    (hwhole : ∀ x, s.fenced x = false) : s.sliceLoad =
      { s with
        mem := putBytes s.mem (dmemAddr (id / 64) ((s.liveOf id).sb * 4)) (d.take ((s.liveOf id).winSize * 16))
        ani := { s.ani with loads := rest, loaded :=
          if s.ani.loaded.contains id then s.ani.loaded else s.ani.loaded ++ [id] } } := by
  let t := s.updAni (fun a => { a with loads := rest })
  have hc : ¬ ((((t.eng (id / 64)).sb (id % 64)).started || !(t.liveOf id).valid) = true) := by
    change ¬ ((((s.eng (id / 64)).sb (id % 64)).started || !(s.liveOf id).valid) = true)
    simp [hwait, hvalid]
  have htwhole : ∀ x, t.fenced x = false := hwhole
  have hfilter : ∀ a : Nat, ((d.take ((s.liveOf id).winSize * 16)).zipIdx).filter (fun x => t.whole (a + x.2)) =
      (d.take ((s.liveOf id).winSize * 16)).zipIdx := fun a =>
    List.filter_eq_self.2 fun x _ => whole_of_unfenced htwhole _
  rw [State.sliceLoad, if_pos hstandby]
  simp only [hloads]
  rw [if_neg hc]
  have hlive : t.liveOf id = s.liveOf id := rfl
  rw [hlive, hfilter, foldl_putByte_zipIdx, aniFence_unfenced htwhole]
  rfl

theorem mem_addOnce (l : List Nat) (x : Nat) : x ∈ (if l.contains x then l else l ++ [x]) := by
  split
  · next h => exact List.contains_iff_mem.1 h
  · exact List.mem_append_right _ (List.mem_singleton.2 rfl)

/-- What a slice that has loaded leaves of the copy on the active. -/
theorem sliceLoad_active {s : State} {id k : Nat} (hactive : s.aniStandby = false) (hfly : s.ani.flying = some (id, k))
    (hcopy : s.copying = true) : s.sliceLoad =
      let l := s.ani.left.filter (· != id)
      let t := (s.updAni (fun a => { a with left := l, flying := .none })).wr ANI_COPY_LEFT (BitVec.ofNat 32 l.length)
      if l.isEmpty then t.copyEnd (if s.ani.abort then 3 else 1) else t := by
  rw [State.sliceLoad, if_neg (by simp [hactive])]
  simp only [hfly]
  rw [if_pos hcopy]
  rfl

/-- Settles O48, clause by clause: what ANI_CMD's write does for each bit, and the two sides of a slice's load. -/
theorem aniseCommands : Obligations.AniseCommands := by
  unfold Obligations.AniseCommands
  refine ⟨fun s q hreach hon => ⟨fun hrole => ?_, fun hstate hpeer => ?_, fun hstate hpeer hidle => ?_,
    fun hcopy => ?_, fun hidle => ?_⟩, fun s id d rest hstandby hloads hwait hvalid hwhole => ?_,
    fun s id k hactive hfly hcopy => ?_⟩
  · refine gives_gated rfl hreach ?_
    rw [aniCmd_take (s := s.respond 0 false) hon hrole]
    exact ⟨rfl, rfl⟩
  · refine gives_gated rfl hreach ?_
    rw [aniCmd_release (s := s.respond 0 false) hon hstate hpeer, State.respond_ani]
    split <;> exact ⟨rfl, rfl⟩
  · refine gives_gated rfl hreach ?_
    rw [aniCmd_copy (s := s.respond 0 false) hon hstate hpeer hidle]
    have hslices : (s.respond 0 false).validSlices = s.validSlices := rfl
    rw [hslices]
    generalize BitVec.ofNat 32 s.validSlices.length = v
    obtain ⟨hcopy, hphase, hstatus, hleft, hcount, hmem⟩ := copyStarted_spec (s.respond 0 false) s.validSlices v
    exact ⟨hcopy, hphase, hstatus, hleft, hcount, hmem⟩
  · refine gives_gated rfl hreach ?_
    rw [aniCmd_abort, if_pos (show (s.respond 0 false).copying = true from hcopy)]
    exact ⟨rfl, rfl⟩
  · refine gives_gated rfl hreach ?_
    rw [aniCmd_abort, if_neg (show ¬ (s.respond 0 false).copying = true by
      rw [show (s.respond 0 false).copying = s.copying from rfl, hidle]; decide)]
    refine ⟨fun hdone hat => ?_, fun hearly => ?_⟩
    · rw [if_pos ((copyLate_iff (s.respond 0 false)).2 ⟨hdone, hat⟩)]
      exact ⟨rdF_wrF_same _ _ (by omega) (by omega) _, (OnlyRegs.upd _ _ _).after_respond⟩
    · rw [if_neg fun h => hearly ((copyLate_iff (s.respond 0 false)).1 h)]
      exact (OnlyRegs.refl _).after_respond
  · refine (gives_iff_of_done (t := s.sliceLoad) rfl).2 ?_
    rw [sliceLoad_standby hstandby hloads hwait hvalid hwhole]
    refine ⟨rfl, fun i hi => ?_, fun x hx => ?_, mem_addOnce _ _, rfl⟩
    · have hlt : i < (d.take ((s.liveOf id).winSize * 16)).length := by rw [List.length_take]; omega
      refine (putBytes_at hlt s.mem _).trans ?_
      rw [List.getElem_take, List.getD_eq_getElem]
    · rcases hx with hx | hx
      · exact putBytes_below hx _ _
      · exact putBytes_above (by rw [List.length_take]; omega) _
  · refine (gives_iff_of_done (t := s.sliceLoad) rfl).2 ?_
    rw [sliceLoad_active hactive hfly hcopy]
    set l := s.ani.left.filter (· != id) with hl
    refine ⟨fun hall => ?_, fun hsome => ?_⟩
    · have hempty : l = [] := List.filter_eq_nil_iff.2 fun x hx => by simp [hall x hx]
      have hcopying : ((s.updAni (fun a => { a with left := l, flying := none })).wr ANI_COPY_LEFT
          (BitVec.ofNat 32 l.length)).copying = true :=
        (rdB_wr_other _ (by decide) _ _).trans hcopy
      dsimp only
      rw [if_pos (by simp [hempty]), copyEnd_of_copying hcopying (by split <;> decide)]
      obtain ⟨h1, h2, h3, h4, h5, h6, h7⟩ := copyEnded_spec ((s.updAni (fun a => { a with left := l, flying := none })).wr
        ANI_COPY_LEFT (BitVec.ofNat 32 l.length)) (status := if s.ani.abort then 3 else 1) (by split <;> decide)
      exact ⟨h1, h2, h3, h4, h5, h6, h7⟩
    · obtain ⟨x, hx, hne⟩ := hsome
      have hmem : x ∈ l := List.mem_filter.2 ⟨hx, by simpa using hne⟩
      dsimp only
      rw [if_neg (by simpa using List.ne_nil_of_mem hmem)]
      exact ⟨rfl, rfl, State.rd_wr_same _ _ _, OnlyRegs.wr (s.updAni (fun a => { a with left := l, flying := none }))
        ANI_COPY_LEFT _ |>.trans (OnlyRegs.settle _)⟩

end Sys2Proof

namespace Sys2Proof

open Sys2Proof.Machine

/-! A mirrored write on an active whose M path names a network port that there is not (R327, R330). -/

/-- Pairing is on as the active, over port 2 of the network. -/
def mirrorOnPort2 : State := State.reset.wr ANI_CTRL 0x2B#32

theorem mirrorOnPort2_met : writerOk ⟨6, false⟩ SYS_FRM_SPLIT = true ∧ mirrorOnPort2.held = false ∧
    mirrorOnPort2.aniActive = true := by decide

/-- What the write leaves. -/
def mirroredOnPort2 : State := mirrorOnPort2.gated ⟨6, false⟩ SYS_FRM_SPLIT 0 (fun s => s.splitWrite ⟨6, false⟩ 0)

/-- The record's frame is counted as discarded at the register that would be port 2's. -/
theorem mirroredOnPort2_counts : mirroredOnPort2.rd (MAC_TXLINKDN_CNT 2) = 1 ∧ mirrorOnPort2.rd (MAC_TXLINKDN_CNT 2) = 0 := by
  decide

/-- Refutes O47: a mirrored write counts the discarded frame of its record on the port that ANI_CTRL names, and its last
clause allows a change of the counters of ports 0 and 1 alone. -/
theorem not_anisePaths : ¬ Obligations.AnisePaths := by
  unfold Obligations.AnisePaths
  intro h
  obtain ⟨-, -, -, -, -, hwrite⟩ := h
  obtain ⟨hwriter, hheld, hactive⟩ := mirrorOnPort2_met
  have hgives := (gives_iff_of_done (t := mirroredOnPort2) rfl).1 (hwrite mirrorOnPort2 ⟨6, false⟩ 0 rfl hwriter hheld)
  obtain ⟨-, hcaptured⟩ := hgives
  obtain ⟨hregs, -⟩ := hcaptured hactive
  have hkept := hregs (MAC_TXLINKDN_CNT 2) (by decide)
  obtain ⟨hafter, hbefore⟩ := mirroredOnPort2_counts
  rw [State.rd_settle, hafter, hbefore] at hkept
  exact absurd hkept (by decide)

end Sys2Proof

namespace Sys2Proof

open Sys2Proof.Machine

/-! What writes of registers alone leave. -/

/-- Nothing but registers changes, and none whose address `p` names. -/
structure RegsAlone (p : Nat → Prop) (s u : State) : Prop where
  only : u = { s with regs := u.regs }
  keeps : KeepsAt p s u

namespace RegsAlone

variable {p : Nat → Prop} {s t u : State}

theorem refl (s : State) : RegsAlone p s s := ⟨rfl, .refl s⟩

theorem trans (h : RegsAlone p s t) (k : RegsAlone p t u) : RegsAlone p s u :=
  ⟨k.only.trans (congrArg (fun x : State => { x with regs := u.regs }) h.only), h.keeps.trans k.keeps⟩

theorem wr (h : RegsAlone p s t) {r : Reg} (hr : ¬ p r.addr) (v : Word) : RegsAlone p s (t.wr r v) :=
  h.trans ⟨rfl, (KeepsAt.refl t).wr hr v⟩

theorem upd (h : RegsAlone p s t) {r : Reg} (hr : ¬ p r.addr) (f : Word → Word) : RegsAlone p s (t.upd r f) := h.wr hr _

theorem wrF (h : RegsAlone p s t) {r : Reg} (hr : ¬ p r.addr) (hi lo v : Nat) : RegsAlone p s (t.wrF r hi lo v) :=
  h.wr hr _

theorem wrB (h : RegsAlone p s t) {r : Reg} (hr : ¬ p r.addr) (i : Nat) (b : Bool) : RegsAlone p s (t.wrB r i b) :=
  h.wr hr _

theorem raise (h : RegsAlone p s t) {r : Reg} (hr : ¬ p r.addr) (m : Word) : RegsAlone p s (t.raise r m) := h.wr hr _

theorem count (h : RegsAlone p s t) {r : Reg} (hr : ¬ p r.addr) : RegsAlone p s (t.count r) := h.wr hr _

theorem ite {c : Prop} [Decidable c] (h : RegsAlone p s t) (k : RegsAlone p s u) :
    RegsAlone p s (if c then t else u) := by split <;> assumption

theorem each {α : Type} {f : State → α → State} {l : List α} (h : ∀ s, ∀ x ∈ l, RegsAlone p s (f s x)) (s : State) :
    RegsAlone p s (s.each l f) := by
  induction l generalizing s with
  | nil => exact refl s
  | cons x l ih =>
    exact (h s x List.mem_cons_self).trans (ih (fun s y hy => h s y (List.mem_cons_of_mem _ hy)) (f s x))

theorem mono {q : Nat → Prop} (h : RegsAlone p s u) (hpq : ∀ a, q a → p a) : RegsAlone q s u :=
  ⟨h.only, fun r hr => h.keeps r (hpq _ hr)⟩

theorem onlyRegs {rs : List Reg} (h : RegsAlone (· ∉ rs.map Reg.addr) s u) : OnlyRegs s u rs :=
  ⟨congrArg (fun x : State => { x with regs := u.regs, rsp := u.rsp, hif := u.hif }) h.only, h.keeps⟩

end RegsAlone

/-! A mailbox command is completed (R354, R356). -/

theorem mem_mbRegs_stat (m : Nat) : HSE_MB_STAT m ∈ mbRegs m := by simp [mbRegs]

theorem mem_mbRegs_rsp {m k : Nat} (hk : k < 16) : HSE_MB_RSP m k ∈ mbRegs m :=
  List.mem_append_right _ (List.mem_map_of_mem (List.mem_range.2 hk))

theorem not_away {rs : List Reg} {r : Reg} (h : r ∈ rs) : ¬ r.addr ∉ rs.map Reg.addr :=
  not_not_intro (List.mem_map_of_mem h)

/-- The addresses of the registers of a mailbox. -/
theorem addr_mbRegs {m : Nat} (hm : m < 2) : ∀ r ∈ mbRegs m, r.addr / 0x1000 = 0x50110 ∧ r.addr % 0x1000 < 0x200 := by
  intro r hr
  simp only [mbRegs, List.mem_append, List.mem_cons, List.not_mem_nil, or_false, List.mem_map, upTo, List.mem_range] at hr
  rcases hr with ((rfl | rfl | rfl | rfl) | ⟨k, hk, rfl⟩) | ⟨k, hk, rfl⟩
  all_goals
    simp only [HSE_MB_CMD, HSE_MB_DOOR, HSE_MB_STAT, HSE_MB_TO, HSE_MB_ARG, HSE_MB_RSP]
    omega

/-- A register that is none of a mailbox's, by its address. -/
theorem away_of_addr {m : Nat} (hm : m < 2) {r : Reg} (h : r.addr / 0x1000 ≠ 0x50110 ∨ 0x200 ≤ r.addr % 0x1000) :
    r.addr ∉ (mbRegs m).map Reg.addr := by
  intro hmem
  obtain ⟨q, hq, he⟩ := List.mem_map.1 hmem
  have haddr := addr_mbRegs hm q hq
  omega

/-- The words that a code answers with. -/
def answerWords (status : Nat) (rsp : List Word) : List Word := if status = 0 || status = 2 then rsp.take 16 else []

theorem length_answerWords (status : Nat) (rsp : List Word) : (answerWords status rsp).length ≤ 16 := by
  unfold answerWords
  split
  · rw [List.length_take]; omega
  · exact Nat.zero_le _

theorem answerWords_short {status : Nat} (h : status = 0 ∨ status = 2) {rsp : List Word} (hlen : rsp.length ≤ 16) :
    answerWords status rsp = rsp := by
  rw [answerWords, if_pos (by simpa using h)]
  exact List.take_of_length_le hlen

theorem answerWords_none {status : Nat} (h0 : status ≠ 0) (h2 : status ≠ 2) (rsp : List Word) :
    answerWords status rsp = [] := if_neg (by simp [h0, h2])

/-- The response registers take the words. -/
def rspWords (s : State) (m : Nat) (ws : List Word) : State :=
  s.each (upTo 16) (fun s k => s.wr (HSE_MB_RSP m k) (ws.getD k 0))

theorem rspWords_regs (s : State) (m : Nat) (ws : List Word) :
    RegsAlone (· ∉ ((upTo 16).map (HSE_MB_RSP m)).map Reg.addr) s (rspWords s m ws) :=
  .each (fun s _ hk => (RegsAlone.refl s).wr (not_away (List.mem_map_of_mem hk)) _) s

theorem rd_rspWords (s : State) (m : Nat) (ws : List Word) : ∀ k < 16, (rspWords s m ws).rd (HSE_MB_RSP m k) = ws.getD k 0 := by
  intro k hk
  refine each_forall (Q := fun k t => t.rd (HSE_MB_RSP m k) = ws.getD k 0) (l := upTo 16) (fun t x _ => ?_)
    (fun t x _ y _ hy => ?_) s k (List.mem_range.2 hk)
  · exact State.rd_wr_same _ _ _
  · by_cases hxy : y = x
    · rw [hxy]; exact State.rd_wr_same _ _ _
    · exact (State.rd_wr_other _ _ (by simp only [HSE_MB_RSP]; omega)).trans hy

/-- The status word of an answer. -/
def answerStat (w : Word) (tag len status : Nat) : Word :=
  setBits (setBits (setBits (setBit (setBit w 31 true) 30 false) 23 16 tag) 12 8 len) 7 0 status

theorem answerStat_spec (w : Word) {tag len status : Nat} (htag : tag < 256) (hlen : len < 32) (hstatus : status < 256) :
    bit (answerStat w tag len status) 31 = true ∧ bit (answerStat w tag len status) 30 = false ∧
    bits (answerStat w tag len status) 23 16 = tag ∧ bits (answerStat w tag len status) 12 8 = len ∧
    bits (answerStat w tag len status) 7 0 = status := by
  unfold answerStat
  refine ⟨?_, ?_, ?_, ?_, ?_⟩
  · rw [bit_setBits _ (by omega) (by omega), if_neg (by omega), bit_setBits _ (by omega) (by omega), if_neg (by omega),
      bit_setBits _ (by omega) (by omega), if_neg (by omega), bit_setBit_other _ (by omega), bit_setBit_same _ (by omega)]
  · rw [bit_setBits _ (by omega) (by omega), if_neg (by omega), bit_setBits _ (by omega) (by omega), if_neg (by omega),
      bit_setBits _ (by omega) (by omega), if_neg (by omega), bit_setBit_same _ (by omega)]
  · rw [bits_setBits_apart _ (by omega) (by omega) (by omega), bits_setBits_apart _ (by omega) (by omega) (by omega),
      bits_setBits_same _ (by omega) (by omega)]
    exact Nat.mod_eq_of_lt htag
  · rw [bits_setBits_apart _ (by omega) (by omega) (by omega), bits_setBits_same _ (by omega) (by omega)]
    exact Nat.mod_eq_of_lt hlen
  · rw [bits_setBits_same _ (by omega) (by omega)]
    exact Nat.mod_eq_of_lt hstatus

/-- The registers of a mailbox after its answer. -/
def answerRegs (s : State) (m status : Nat) (ws : List Word) : State :=
  (rspWords s m ws).upd (HSE_MB_STAT m)
    (fun w => answerStat w ((rspWords s m ws).rdF (HSE_MB_CMD m) 31 24) ws.length status)

/-- The firmware's share of the end of a command. -/
def commandOver (s : State) (m : Nat) : State :=
  { s with house := { s.house with due := sset 0 s.house.due m 0, lost := s.house.lost.filter (· != m) } }

theorem mbDone_eq (s : State) (m status : Nat) (rsp : List Word) :
    s.mbDone m status rsp = commandOver (answerRegs s m status (answerWords status rsp)) m := rfl

theorem answerRegs_alone (s : State) (m status : Nat) (ws : List Word) :
    RegsAlone (· ∉ (mbRegs m).map Reg.addr) s (answerRegs s m status ws) :=
  ((rspWords_regs s m ws).mono fun _ ha hb => ha (List.map_subset _ (fun _ hr => List.mem_append_right _ hr) hb)).upd
    (not_away (mem_mbRegs_stat m)) _

/-- What the end of a command leaves besides the mailbox's registers. -/
theorem mbDone_only (s : State) (m status : Nat) (rsp : List Word) : s.mbDone m status rsp =
    { s with regs := (s.mbDone m status rsp).regs,
             house := { s.house with due := sset 0 s.house.due m 0, lost := s.house.lost.filter (· != m) } } := by
  rw [mbDone_eq]
  have honly := (answerRegs_alone s m status (answerWords status rsp)).only
  generalize answerRegs s m status (answerWords status rsp) = t at honly ⊢
  exact congrArg (commandOver · m) honly

theorem mbDone_keeps (s : State) (m status : Nat) (rsp : List Word) :
    KeepsAt (· ∉ (mbRegs m).map Reg.addr) s (s.mbDone m status rsp) :=
  (answerRegs_alone s m status (answerWords status rsp)).keeps

theorem mbDone_onlyMailbox (s : State) (m status : Nat) (rsp : List Word) : OnlyMailbox s (s.mbDone m status rsp).settle m := by
  refine ⟨?_, mbDone_keeps s m status rsp⟩
  have honly := mbDone_only s m status rsp
  generalize s.mbDone m status rsp = t at honly ⊢
  exact congrArg (fun x : State => { x with regs := t.regs, hif := t.settle.hif, house := t.house, free := t.free }) honly

theorem rd_answerRegs_stat (s : State) (m status : Nat) (ws : List Word) : (answerRegs s m status ws).rd (HSE_MB_STAT m) =
    answerStat ((rspWords s m ws).rd (HSE_MB_STAT m)) (s.rdF (HSE_MB_CMD m) 31 24) ws.length status := by
  have hcmd : (rspWords s m ws).rdF (HSE_MB_CMD m) 31 24 = s.rdF (HSE_MB_CMD m) 31 24 := by
    refine congrArg (bits · 31 24) ((rspWords_regs s m ws).keeps _ ?_)
    simp only [List.map_map, List.mem_map, upTo, List.mem_range, Function.comp_apply, HSE_MB_RSP, HSE_MB_CMD]
    rintro ⟨k, hk, he⟩
    omega
  rw [answerRegs, State.rd_upd_same, hcmd]

theorem mbDone_answered (s : State) (m : Nat) {status : Nat} (hstatus : status < 256) (rsp : List Word) :
    Answered s (s.mbDone m status rsp) m status (answerWords status rsp) := by
  have hlen : (answerWords status rsp).length < 32 := Nat.lt_of_le_of_lt (length_answerWords status rsp) (by decide)
  have htag : s.rdF (HSE_MB_CMD m) 31 24 < 256 := rdF_lt s (HSE_MB_CMD m) 31 24
  rw [mbDone_eq]
  generalize answerWords status rsp = ws at hlen ⊢
  have hstat : (commandOver (answerRegs s m status ws) m).rd (HSE_MB_STAT m) = _ := rd_answerRegs_stat s m status ws
  obtain ⟨hdone, hbusy, htag', hlen', hstatus'⟩ := answerStat_spec ((rspWords s m ws).rd (HSE_MB_STAT m)) htag hlen hstatus
  refine ⟨?_, ?_, ?_, ?_, ?_, fun k hk => ?_⟩
  · rw [State.rdB, hstat, hdone]
  · rw [State.rdB, hstat, hbusy]
  · rw [State.rdF, hstat, htag']
  · rw [State.rdF, hstat, hlen']
  · rw [State.rdF, hstat, hstatus']
  · have hapart : (HSE_MB_RSP m k).addr ≠ (HSE_MB_STAT m).addr := by simp only [HSE_MB_RSP, HSE_MB_STAT]; omega
    change (answerRegs s m status ws).rd (HSE_MB_RSP m k) = _
    rw [answerRegs, State.rd_upd_other _ _ hapart, rd_rspWords s m ws k hk]

/-- An answer of a code that carries no words. -/
theorem mbDone_bare (s : State) (m : Nat) {status : Nat} (hstatus : status < 256) (h0 : status ≠ 0) (h2 : status ≠ 2)
    (rsp : List Word) : Answered s (s.mbDone m status rsp) m status [] := by
  have h := mbDone_answered s m hstatus rsp
  rwa [answerWords_none h0 h2] at h

/-- An answer of a code that carries words, 16 at most. -/
theorem mbDone_words (s : State) (m : Nat) {status : Nat} (h : status = 0 ∨ status = 2) {rsp : List Word}
    (hlen : rsp.length ≤ 16) : Answered s (s.mbDone m status rsp) m status rsp := by
  have ha := mbDone_answered s m (show status < 256 by omega) rsp
  rwa [answerWords_short h hlen] at ha

/-- What an answer names does not depend on the state before it but for the command's tag. -/
theorem Answered.of_cmd {s t u : State} {m status : Nat} {rsp : List Word} (h : Answered t u m status rsp)
    (hcmd : t.rd (HSE_MB_CMD m) = s.rd (HSE_MB_CMD m)) : Answered s u m status rsp := by
  obtain ⟨h31, h30, htag, hlen, hstatus, hwords⟩ := h
  exact ⟨h31, h30, htag.trans (congrArg (bits · 31 24) hcmd), hlen, hstatus, hwords⟩

theorem Answered.of_keeps {s t u : State} {m status : Nat} {rsp : List Word} (h : Answered s t m status rsp)
    (hk : ∀ r ∈ mbRegs m, u.rd r = t.rd r) : Answered s u m status rsp := by
  obtain ⟨h31, h30, htag, hlen, hstatus, hwords⟩ := h
  have hs := hk _ (mem_mbRegs_stat m)
  exact ⟨(congrArg (bit · 31) hs).trans h31, (congrArg (bit · 30) hs).trans h30, (congrArg (bits · 23 16) hs).trans htag,
    (congrArg (bits · 12 8) hs).trans hlen, (congrArg (bits · 7 0) hs).trans hstatus,
    fun k hk' => (hk _ (mem_mbRegs_rsp hk')).trans (hwords k hk')⟩

/-! The firmware's run of a command (R351, R355 to R358). -/

theorem mbOver_intime {s : State} {m : Nat} (h : s.mbBusy m = false ∨ s.now < sget 0 s.house.due m) : s.mbOver m = s := by
  rw [State.mbOver, if_neg]
  rcases h with h | h
  · simp [h]
  · simp [Nat.not_le.2 h]

/-- An outstanding command runs: shed, denied to the Guest, or what its row does. -/
theorem fwCmd_outstanding {s : State} {m op : Nat} (h : Outstanding s m op) (owner : Bool) (f : State → State) :
    s.fwCmd m op owner f =
      if 3 ≤ s.shedLevel then s.mbDone m 6 [] else if owner && m = 1 then s.mbDone m 4 [] else f s := by
  obtain ⟨hbusy, hop, hcore, htime, hlate, hlost⟩ := h
  unfold State.fwCmd
  dsimp only
  rw [mbOver_intime (.inr htime), beq_false_of_ne hlate, if_neg (by simp), if_pos (by simp [hbusy, hop, hcore, hlost])]

theorem fwCmd_shed {s : State} {m op : Nat} (h : Outstanding s m op) (hshed : 3 ≤ s.shedLevel) (owner : Bool)
    (f : State → State) : s.fwCmd m op owner f = s.mbDone m 6 [] := by
  rw [fwCmd_outstanding h, if_pos hshed]

theorem fwCmd_denied {s : State} {op : Nat} (h : Outstanding s 1 op) (hshed : s.shedLevel < 3) (f : State → State) :
    s.fwCmd 1 op true f = s.mbDone 1 4 [] := by
  rw [fwCmd_outstanding h, if_neg (Nat.not_le.2 hshed), if_pos (by decide)]

theorem fwCmd_run {s : State} {m op : Nat} (h : Outstanding s m op) (hshed : s.shedLevel < 3) {owner : Bool}
    (howner : owner = false ∨ m = 0) (f : State → State) : s.fwCmd m op owner f = f s := by
  rw [fwCmd_outstanding h, if_neg (Nat.not_le.2 hshed), if_neg]
  rcases howner with rfl | rfl <;> simp

/-- The oldest command timed out is of the opcode: its answer is late. -/
theorem fwCmd_late {s : State} {m op : Nat} (hcore : (s.mbOver m).anyCore = true)
    (hlate : (sget [] (s.mbOver m).house.late m).headD 256 = op) (owner : Bool) (f : State → State) :
    s.fwCmd m op owner f = (s.mbOver m).lateTake m := by
  unfold State.fwCmd
  dsimp only
  rw [hcore, hlate, if_pos (by simp)]

/-- An answer that a core's reset has lost does not come. -/
theorem fwCmd_lost {s : State} {m op : Nat} (htime : s.now < sget 0 s.house.due m)
    (hlate : (sget [] s.house.late m).headD 256 ≠ op) (hlost : m ∈ s.house.lost) (owner : Bool) (f : State → State) :
    s.fwCmd m op owner f = s := by
  unfold State.fwCmd
  dsimp only
  rw [mbOver_intime (.inr htime), beq_false_of_ne hlate, if_neg (by simp), if_neg (by simp [hlost])]

end Sys2Proof

namespace Sys2Proof

open Sys2Proof.Machine

/-! The commands of a mailbox (R354, R355). -/

theorem lateTake_only (s : State) (m : Nat) : s.lateTake m = { s with
    regs := (s.lateTake m).regs,
    house := { s.house with late := sset [] s.house.late m (sget [] s.house.late m).tail } } := rfl

theorem lateTake_spec (s : State) (m : Nat) : LateCounted s (s.lateTake m) ∧
    sget [] (s.lateTake m).house.late m = (sget [] s.house.late m).tail ∧
    KeepsAt (· ≠ HSE_LATE_CNT.addr) s (s.lateTake m) :=
  ⟨⟨rdF_count_same s HSE_LATE_CNT, rfl⟩, sget_sset_same _ _ _ _,
    ((KeepsAt.refl s).count (fun h => h rfl)).trans (.of_regs rfl)⟩

/-- What a time-out leaves: the code, and the answer that is still to come. -/
theorem mbExpire_spec (s : State) (m : Nat) : Answered s (s.mbExpire m) m 5 [] ∧ (s.mbExpire m).mem = s.mem ∧
    (s.mbExpire m).now = s.now ∧ KeepsAt (· ∉ (mbRegs m).map Reg.addr) s (s.mbExpire m) ∧
    sget [] (s.mbExpire m).house.late m = sget [] s.house.late m ++ (if m ∈ s.house.lost then [] else [s.mbOp m]) := by
  have hanswer := mbDone_bare s m (show 5 < 256 by decide) (by decide) (by decide) []
  have honly := mbDone_only s m 5 []
  have hkeeps := mbDone_keeps s m 5 []
  have hlate : (s.mbDone m 5 []).house.late = s.house.late := (congrArg (fun x : State => x.house.late) honly).trans rfl
  have hmem : (s.mbDone m 5 []).mem = s.mem := (congrArg State.mem honly).trans rfl
  have hnow : (s.mbDone m 5 []).now = s.now := (congrArg State.now honly).trans rfl
  unfold State.mbExpire
  dsimp only
  generalize s.mbDone m 5 [] = t at *
  by_cases hlost : m ∈ s.house.lost
  · rw [if_pos (by simpa using hlost), if_pos hlost, List.append_nil, hlate]
    exact ⟨hanswer, hmem, hnow, hkeeps, rfl⟩
  · rw [if_neg (by simpa using hlost), if_neg hlost]
    exact ⟨hanswer, hmem, hnow, hkeeps.trans (.of_regs rfl), by rw [← hlate]; exact sget_sset_same _ _ _ _⟩

theorem mbOver_due {s : State} {m : Nat} (hbusy : s.mbBusy m = true) (hdue : sget 0 s.house.due m ≤ s.now) :
    s.mbOver m = s.mbExpire m := by
  rw [State.mbOver, if_pos (by simp [hbusy, hdue])]

/-! The firmware's answer (R355, R356). -/

/-- An opcode that is no row is UNSUPPORTED. -/
theorem fwRun_unlisted {s : State} {m : Fin 2} {op : Nat} (h : op ∉ (fwCommands m).map Prod.snd) (hop : s.mbOp m = op) :
    s.fwRun m = s.fwCmd m op false (fun s => s.mbDone m 7 []) := by
  simp only [fwCommands, List.map_cons, List.map_nil, List.mem_cons, List.not_mem_nil, or_false, not_or] at h
  unfold State.fwRun
  rw [hop]
  split
  case h_10 => rfl
  all_goals omega

theorem mbAnswer_eq {s : State} {m status : Nat} (hcore : s.anyCore = true) (hlate : sget [] (s.mbOver m).house.late m = []) :
    s.mbAnswer m status =
      if (s.mbOver m).mbBusy m && !(((s.mbOver m).fwRun m).mbBusy m) && ((s.mbOver m).fwRun m).rdF (HSE_MB_STAT m) 7 0 = status
      then (s.mbOver m).fwRun m else s.mbOver m := by
  unfold State.mbAnswer
  dsimp only
  rw [if_neg (by simp [hcore]), if_neg (by simp [hlate])]

theorem mbAnswer_late {s : State} {m : Nat} (status : Nat) (hcore : s.anyCore = true)
    (hlate : sget [] (s.mbOver m).house.late m ≠ []) : s.mbAnswer m status = (s.mbOver m).lateTake m := by
  unfold State.mbAnswer
  dsimp only
  rw [if_neg (by simp [hcore]), if_pos hlate]

theorem fwCommands_small {m : Fin 2} {c : Instr × Nat} (hc : c ∈ fwCommands m) : c.2 < 256 := by
  simp only [fwCommands, List.mem_cons, List.not_mem_nil, or_false] at hc
  rcases hc with rfl | rfl | rfl | rfl | rfl | rfl | rfl | rfl | rfl <;> simp

/-! What an outstanding command leaves of its mailbox: it is answered. -/

theorem mbBusy_mbDone (s : State) (m : Nat) {status : Nat} (h : status < 256) (rsp : List Word) :
    (s.mbDone m status rsp).mbBusy m = false := by
  obtain ⟨-, h30, -⟩ := mbDone_answered s m h rsp
  exact h30

theorem mbBusy_of_rd {s u : State} {m : Nat} (h : u.rd (HSE_MB_STAT m) = s.rd (HSE_MB_STAT m)) : u.mbBusy m = s.mbBusy m :=
  congrArg (bit · 30) h

theorem rd_cloveHost_mbox (s : State) {r : Reg} (h : 0x50110000 ≤ r.addr) : s.cloveHost.rd r = s.rd r :=
  clv_cloveHost s r (by omega)

/-- A core's reset leaves every register from the mailboxes' on but the cores' states and the host flows' bits. -/
theorem rd_coreReset (s : State) (c : Nat) {r : Reg} (h : 0x50110000 ≤ r.addr) (hr : r.addr ≠ HSE_CORE_STAT.addr) :
    (s.coreReset c).rd r = s.rd r :=
  (rd_cloveHost_mbox _ h).trans (State.rd_wrF_other _ _ _ _ hr)

theorem rd_each_coreReset (l : List Nat) (s : State) {r : Reg} (h : 0x50110000 ≤ r.addr) (hr : r.addr ≠ HSE_CORE_STAT.addr) :
    (s.each l State.coreReset).rd r = s.rd r := by
  induction l generalizing s with
  | nil => rfl
  | cons c l ih => exact (ih (s.coreReset c)).trans (rd_coreReset s c h hr)

theorem statusApart (m : Nat) (hm : m < 2) : 0x50110000 ≤ (HSE_MB_STAT m).addr ∧ (HSE_MB_STAT m).addr < 0x50110400 := by
  simp only [HSE_MB_STAT]
  omega

/-- A command's effect ends it. -/
def EndsCommand (m : Nat) (f : State → State) : Prop := ∀ s, (f s).mbBusy m = false

/-- The rows of the commands as the one rule runs them: the rule's parameters, and that the effect ends the command. -/
def RunsAs (m : Nat) (i : Instr) (op : Nat) (owner : Bool) (f : State → State) : Prop :=
  (∀ s, exec i s = done (s.fwCmd m op owner f)) ∧ (∀ s : State, s.mbOp m = op → s.fwRun m = s.fwCmd m op owner f) ∧
  EndsCommand m f

/-! What each command does (R357), named: the model gives it to its one rule for commands. -/

def versionCmd (m : Nat) (s : State) : State :=
  s.mbDone m 0 [s.rd HSE_FW_VER, s.rd HSE_CORE_STAT, BitVec.ofNat 32 s.shedLevel]

/-- A page of statistics, collected now or kept, with its last bit. -/
def pageWords (s : State) (ws : List Word) : List Word :=
  (upTo 16).map (fun k => if k = 15 then setBit (ws.getD k 0) 31 (s.shedLevel != 0) else ws.getD k 0)

def statsPage (s : State) (p : Nat) : List Word × State :=
  if s.shedLevel = 0 then s.freeWords 16 else (sget [] s.house.pages p, s)

def statsCmd (m : Nat) (s : State) : State :=
  if 3 < (s.mbArg m 0).toNat then s.mbDone m 2 []
  else (statsPage s (s.mbArg m 0).toNat).2.mbDone m 0 (pageWords s (statsPage s (s.mbArg m 0).toNat).1)

/-- PTP takes its port's filter entries. -/
def instanceSet (s : State) (m : Nat) : State :=
  let s := s.setPtpInst (s.mbPort m) (some { args := (upTo 4).map (s.mbArg m) })
  s.ptpFilters (s.mbPort m) (bits (s.mbArg m 0) 2 1)

def ptpSetCmd (m : Nat) (s : State) : State :=
  if !(s.rdB (MAC_CTRL (s.mbPort m)) 0) then s.mbDone m 3 []
  else if (s.ptpInst (s.mbPort m)).any PtpInst.starting then s.mbDone m 1 []
  else (instanceSet s m).mbDone m 0 []

def ptpStopCmd (m : Nat) (s : State) : State :=
  if (s.ptpInst (s.mbPort m)).isNone then s.mbDone m 3 []
  else ((s.setPtpInst (s.mbPort m) none).ptpRelease (s.mbPort m)).mbDone m 0 []

/-- The words of PTP_STATUS from five free ones. -/
def statusWords (i : Option PtpInst) (ws : List Word) : List Word :=
  let f := fun k => ws.getD k 0
  match i with
  | none => 0 :: ws
  | some i =>
    let gm := fun o k => if i.leader.isEmpty then f k else BitVec.ofNat 32 (beAt i.leader o 4)
    [BitVec.ofNat 32 i.state, gm 4 0, gm 0 1, if i.known then BitVec.ofNat 32 (i.cls * 256 + i.acc) else f 2,
      if i.known then satWord i.offset else f 3, (i.delay.map satWord).getD (f 4)]

def ptpStatusCmd (m : Nat) (s : State) : State :=
  (s.freeWords 5).2.mbDone m 0 (statusWords ((s.freeWords 5).2.ptpInst ((s.freeWords 5).2.mbPort m)) (s.freeWords 5).1)

def discSetCmd (m : Nat) (s : State) : State :=
  if bits (s.mbArg m 0) 15 8 = 0 then s.mbDone m 2 []
  else { s with house := { s.house with
    disc := sset (0, 0) s.house.disc (s.mbPort m) (s.mbArg m 0, s.mbArg m 1) } }.mbDone m 0 []

def aniStatsCmd (m : Nat) (s : State) : State :=
  s.mbDone m 0 [BitVec.ofNat 32 s.house.takes, s.house.takeAt, BitVec.ofNat 32 s.house.drops, s.house.chgAt]

/-- The image that FW_UPDATE copies. -/
def updateImage (s : State) (a n : Nat) : List Byte := (upTo n).map (fun i => if s.whole (a + i) then s.byte (a + i) else 0)

/-- An image that passes comes into force, and both cores start again. -/
def updateTaken (s : State) (m h : Nat) : State :=
  let s := (s.mbDone m 0 []).takeImage h
  (State.coreReset { s with house := { s.house with update := true } } 0).coreReset 1

/-- An image that fails is refused with its code. -/
def updateRefused (s : State) (m c : Nat) : State :=
  ((s.wr HSE_FW_ERR (BitVec.ofNat 32 c)).raise HSE_INT 4#32).mbDone m 2 [BitVec.ofNat 32 c]

/-- The image is in the half not in force. -/
def updateCopied (s : State) (a n : Nat) : State :=
  let h := 1 - s.half
  let img := updateImage s a n
  let s := if (s.fencedIn a n).isSome then (s.fenceRange a n 4 false).busErr 4 false false 4 (targetOf a) a else s
  { s with mem := putBytes s.mem (halfBase h) img }

def updateChecked (t : State) (m h : Nat) (img : List Byte) : State :=
  match t.imageCode img with
  | 0 => updateTaken t m h
  | c => updateRefused t m c

def fwUpdateCmd (m : Nat) (s : State) : State :=
  if s.house.update then s.mbDone m 1 []
  else if 2 ^ 25 < (s.mbArg m 0).toNat + (s.mbArg m 1).toNat then s.mbDone m 2 []
  else updateChecked (updateCopied s (0x10000000 + (s.mbArg m 0).toNat) (min (s.mbArg m 1).toNat 0x80000)) m (1 - s.half)
    (updateImage s (0x10000000 + (s.mbArg m 0).toNat) (min (s.mbArg m 1).toNat 0x80000))

def coreRestartCmd (m : Nat) (s : State) : State :=
  if (s.mbArg m 0).toNat = 0 || decide (3 < (s.mbArg m 0).toNat) then s.mbDone m 2 []
  else (s.mbDone m 0 []).each ((upTo 2).filter (fun c => (s.mbArg m 0).toNat.testBit c)) State.coreReset

/-- Each row runs its command. -/
theorem runsAs_row {m : Nat} {i : Instr} {op : Nat} {owner : Bool} {f : State → State} {run : State → State}
    (hexec : ∀ s, exec i s = done (run s)) (hrun : ∀ s, run s = s.fwCmd m op owner f)
    (hfw : ∀ s : State, s.mbOp m = op → s.fwRun m = run s) (hends : EndsCommand m f) : RunsAs m i op owner f :=
  ⟨fun s => (hexec s).trans (congrArg done (hrun s)), fun s h => (hfw s h).trans (hrun s), hends⟩

theorem getVersion_eq (s : State) (m : Nat) : s.getVersion m = s.fwCmd m 0x01 false (versionCmd m) := rfl
theorem getStats_eq (s : State) (m : Nat) : s.getStats m = s.fwCmd m 0x02 false (statsCmd m) := rfl
theorem ptpSet_eq (s : State) (m : Nat) : s.ptpSet m = s.fwCmd m 0x10 true (ptpSetCmd m) := rfl
theorem ptpStop_eq (s : State) (m : Nat) : s.ptpStop m = s.fwCmd m 0x11 true (ptpStopCmd m) := rfl
theorem ptpStatus_eq (s : State) (m : Nat) : s.ptpStatus m = s.fwCmd m 0x12 false (ptpStatusCmd m) := rfl
theorem discSet_eq (s : State) (m : Nat) : s.discSet m = s.fwCmd m 0x20 true (discSetCmd m) := rfl
theorem aniStats_eq (s : State) (m : Nat) : s.aniStats m = s.fwCmd m 0x30 false (aniStatsCmd m) := rfl
theorem fwUpdate_eq (s : State) (m : Nat) : s.fwUpdate m = s.fwCmd m 0x40 true (fwUpdateCmd m) := by
  unfold State.fwUpdate
  congr 1
theorem coreRestart_eq (s : State) (m : Nat) : s.coreRestart m = s.fwCmd m 0x41 true (coreRestartCmd m) := rfl

/-! Each command ends. -/

theorem endsCommand_stats (m : Nat) : EndsCommand m (statsCmd m) := fun s => by
  unfold statsCmd
  split
  · exact mbBusy_mbDone _ m (by decide) _
  · exact mbBusy_mbDone _ m (by decide) _

theorem endsCommand_ptpSet (m : Nat) : EndsCommand m (ptpSetCmd m) := fun s => by
  unfold ptpSetCmd
  split
  · exact mbBusy_mbDone _ m (by decide) _
  · split <;> exact mbBusy_mbDone _ m (by decide) _

theorem endsCommand_ptpStop (m : Nat) : EndsCommand m (ptpStopCmd m) := fun s => by
  unfold ptpStopCmd
  split <;> exact mbBusy_mbDone _ m (by decide) _

theorem endsCommand_discSet (m : Nat) : EndsCommand m (discSetCmd m) := fun s => by
  unfold discSetCmd
  split <;> exact mbBusy_mbDone _ m (by decide) _

theorem rd_takeImage (s : State) (h : Nat) {r : Reg} (hr : r.addr ≠ HSE_CORE_STAT.addr) (hver : r.addr ≠ HSE_FW_VER.addr) :
    (s.takeImage h).rd r = s.rd r := by
  have hregs : (s.takeImage h).regs =
      ((s.wrB HSE_CORE_STAT 8 (h == 1)).wr HSE_FW_VER (wordOf s.mem (halfBase h + 4))).regs := rfl
  rw [State.rd_congr hregs, State.rd_wr_other _ _ hver, State.rd_wrB_other _ _ _ hr]

theorem rd_updateTaken (s : State) (m h : Nat) {r : Reg} (hlo : 0x50110000 ≤ r.addr) (hr : r.addr ≠ HSE_CORE_STAT.addr)
    (hver : r.addr ≠ HSE_FW_VER.addr) : (updateTaken s m h).rd r = (s.mbDone m 0 []).rd r := by
  unfold updateTaken
  dsimp only
  generalize s.mbDone m 0 [] = t
  rw [rd_coreReset _ _ hlo hr, rd_coreReset _ _ hlo hr]
  exact (State.rd_congr rfl r).trans (rd_takeImage t h hr hver)

theorem endsCommand_fwUpdate {m : Nat} (hm : m < 2) : EndsCommand m (fwUpdateCmd m) := fun s => by
  obtain ⟨hlo, hhi⟩ := statusApart m hm
  have hcore : HSE_CORE_STAT.addr = 0x50110400 := rfl
  have hver : HSE_FW_VER.addr = 0x50110408 := rfl
  unfold fwUpdateCmd
  split
  · exact mbBusy_mbDone _ m (by decide) _
  · split
    · exact mbBusy_mbDone _ m (by decide) _
    · unfold updateChecked
      split
      · exact (mbBusy_of_rd (rd_updateTaken _ m _ hlo (by omega) (by omega))).trans (mbBusy_mbDone _ m (by decide) _)
      · exact mbBusy_mbDone _ m (by decide) _

theorem endsCommand_coreRestart {m : Nat} (hm : m < 2) : EndsCommand m (coreRestartCmd m) := fun s => by
  obtain ⟨hlo, hhi⟩ := statusApart m hm
  have hcore : HSE_CORE_STAT.addr = 0x50110400 := rfl
  unfold coreRestartCmd
  split
  · exact mbBusy_mbDone _ m (by decide) _
  · exact (mbBusy_of_rd (rd_each_coreReset _ _ hlo (by omega))).trans (mbBusy_mbDone _ m (by decide) _)

/-- Each row of the firmware's commands runs as the one rule runs it, and ends. -/
theorem runsAs_fwCommand {m : Fin 2} {c : Instr × Nat} (hc : c ∈ fwCommands m) :
    ∃ owner f, RunsAs m c.1 c.2 owner f := by
  have hm := m.isLt
  simp only [fwCommands, List.mem_cons, List.not_mem_nil, or_false] at hc
  rcases hc with rfl | rfl | rfl | rfl | rfl | rfl | rfl | rfl | rfl
  · exact ⟨_, _, runsAs_row (fun _ => rfl) (getVersion_eq · m) (fun s h => by unfold State.fwRun; rw [h]; rfl)
      fun s => mbBusy_mbDone s m (by decide) _⟩
  · exact ⟨_, _, runsAs_row (fun _ => rfl) (getStats_eq · m) (fun s h => by unfold State.fwRun; rw [h]; rfl)
      (endsCommand_stats m)⟩
  · exact ⟨_, _, runsAs_row (fun _ => rfl) (ptpSet_eq · m) (fun s h => by unfold State.fwRun; rw [h]; rfl)
      (endsCommand_ptpSet m)⟩
  · exact ⟨_, _, runsAs_row (fun _ => rfl) (ptpStop_eq · m) (fun s h => by unfold State.fwRun; rw [h]; rfl)
      (endsCommand_ptpStop m)⟩
  · exact ⟨_, _, runsAs_row (fun _ => rfl) (ptpStatus_eq · m) (fun s h => by unfold State.fwRun; rw [h]; rfl)
      fun s => mbBusy_mbDone _ m (by decide) _⟩
  · exact ⟨_, _, runsAs_row (fun _ => rfl) (discSet_eq · m) (fun s h => by unfold State.fwRun; rw [h]; rfl)
      (endsCommand_discSet m)⟩
  · exact ⟨_, _, runsAs_row (fun _ => rfl) (aniStats_eq · m) (fun s h => by unfold State.fwRun; rw [h]; rfl)
      fun s => mbBusy_mbDone s m (by decide) _⟩
  · exact ⟨_, _, runsAs_row (fun _ => rfl) (fwUpdate_eq · m) (fun s h => by unfold State.fwRun; rw [h]; rfl)
      (endsCommand_fwUpdate hm)⟩
  · exact ⟨_, _, runsAs_row (fun _ => rfl) (coreRestart_eq · m) (fun s h => by unfold State.fwRun; rw [h]; rfl)
      (endsCommand_coreRestart hm)⟩

/-- An outstanding command of a row ends, whatever its code. -/
theorem mbBusy_fwCmd {s : State} {m op : Nat} (h : Outstanding s m op) {owner : Bool} {f : State → State}
    (hends : EndsCommand m f) : (s.fwCmd m op owner f).mbBusy m = false := by
  rw [fwCmd_outstanding h]
  split
  · exact mbBusy_mbDone _ m (by decide) _
  · split
    · exact mbBusy_mbDone _ m (by decide) _
    · exact hends s

end Sys2Proof

namespace Sys2Proof

open Sys2Proof.Machine

/-! The mailboxes (R354 to R356, R365). -/

theorem mbGo_busy {s : State} {q : Req} {m : Nat} (huser : mbUser q m = true) (hbusy : s.mbBusy m = true) :
    s.mbGo q m = s.raise (HSE_MB_STAT m) 0x20000000#32 := by
  rw [State.mbGo, if_neg (by simp [huser]), if_pos hbusy]

theorem anyCore_of_rd {s u : State} (h : u.rd HSE_CORE_STAT = s.rd HSE_CORE_STAT) : u.anyCore = s.anyCore := by
  unfold State.anyCore State.coreRuns State.coreState State.rdF
  rw [h]

theorem anyCore_busy (s : State) (m : Nat) : (s.wrB (HSE_MB_STAT m) 30 true).anyCore = s.anyCore :=
  anyCore_of_rd (State.rd_wrB_other s 30 true (by simp only [HSE_CORE_STAT, HSE_MB_STAT]; omega))

/-- A mailbox whose command is taken and is due at `v`. -/
def commandTaken (s : State) (m v : Nat) : State :=
  { s.wrB (HSE_MB_STAT m) 30 true with house := { s.house with due := sset 0 s.house.due m v } }

theorem mbGo_taken {s : State} {q : Req} {m : Nat} (huser : mbUser q m = true) (hbusy : s.mbBusy m = false)
    (hcore : s.anyCore = true) : s.mbGo q m = commandTaken s m (s.now + 1000000 * s.rdF (HSE_MB_TO m) 9 0) := by
  rw [State.mbGo, if_neg (by simp [huser]), if_neg (by simp [hbusy])]
  dsimp only
  rw [if_pos ((anyCore_busy s m).trans hcore), State.wrB_now,
    rdF_wrB_other _ (by simp only [HSE_MB_TO, HSE_MB_STAT]; omega)]
  rfl

theorem mbGo_stopped {s : State} {q : Req} {m : Nat} (huser : mbUser q m = true) (hbusy : s.mbBusy m = false)
    (hcore : s.anyCore = false) : s.mbGo q m = (s.wrB (HSE_MB_STAT m) 30 true).mbDone m 3 [] := by
  rw [State.mbGo, if_neg (by simp [huser]), if_neg (by simp [hbusy])]
  dsimp only
  rw [if_neg (by simp [anyCore_busy, hcore])]

theorem gives_mailboxGo {s : State} {q : Req} {m : Fin 2} (hreach : Reaches s q (HSE_MB_DOOR m)) (huser : mbUser q m = true) :
    Gives (.mailboxGo q m) s fun u =>
      (s.mbBusy m = true → u.rd (HSE_MB_STAT m) = s.rd (HSE_MB_STAT m) ||| 0x20000000#32 ∧ OnlyRegs s u [HSE_MB_STAT m]) ∧
      (s.mbBusy m = false → s.anyCore = true → u.rdB (HSE_MB_STAT m) 30 = true ∧
        sget 0 u.house.due m = s.now + 1000000 * s.rdF (HSE_MB_TO m) 9 0 ∧ u.mem = s.mem ∧
        ∀ r : Reg, r.addr ≠ (HSE_MB_STAT m).addr → u.rd r = s.rd r) ∧
      (s.mbBusy m = false → s.anyCore = false → Answered s u m 3 []) := by
  have hm := m.isLt
  refine gives_gated rfl hreach ⟨fun hbusy => ?_, fun hbusy hcore => ?_, fun hbusy hcore => ?_⟩
  · rw [mbGo_busy (s := s.respond 0 false) huser hbusy]
    exact ⟨State.rd_raise_same _ _ _, (OnlyRegs.upd _ _ _).after_respond⟩
  · rw [mbGo_taken (s := s.respond 0 false) huser hbusy hcore]
    rw [State.respond_now, show (s.respond 0 false).rdF (HSE_MB_TO m) 9 0 = s.rdF (HSE_MB_TO m) 9 0 from rfl]
    generalize s.now + 1000000 * s.rdF (HSE_MB_TO m) 9 0 = v
    have hstat : (commandTaken (s.respond 0 false) m v).rdB (HSE_MB_STAT m) 30 = true := rdB_wrB_same s _ (by omega) true
    have hrest : ∀ r : Reg, r.addr ≠ (HSE_MB_STAT m).addr → (commandTaken (s.respond 0 false) m v).rd r = s.rd r :=
      fun r hr => State.rd_wrB_other s 30 true hr
    exact ⟨hstat, sget_sset_same 0 s.house.due m v, rfl, hrest⟩
  · rw [mbGo_stopped (s := s.respond 0 false) huser hbusy hcore]
    have hdone := mbDone_bare ((s.respond 0 false).wrB (HSE_MB_STAT m) 30 true) m (show 3 < 256 by decide) (by decide) (by decide) []
    have hcmd : ((s.respond 0 false).wrB (HSE_MB_STAT m) 30 true).rd (HSE_MB_CMD m) = s.rd (HSE_MB_CMD m) :=
      State.rd_wrB_other (s.respond 0 false) 30 true (by simp only [HSE_MB_CMD, HSE_MB_STAT]; omega)
    exact (hdone.of_cmd hcmd).of_keeps fun r _ => State.rd_settle _ r

/-- A go of a requester that does not use the mailbox has no effect. -/
theorem gives_mailboxGo_other {s : State} {q : Req} {m : Fin 2} (huser : mbUser q m = false) :
    Gives (.mailboxGo q m) s fun u => u.mem = s.mem ∧ u.rd (HSE_MB_STAT m) = s.rd (HSE_MB_STAT m) ∧ u.house = s.house := by
  have hm := m.isLt
  have hplain : mirrored (HSE_MB_DOOR m).addr = false := by
    have haddr : (HSE_MB_DOOR m).addr = 0x50110004 + 0x100 * m := rfl
    have hblock : ((HSE_MB_DOOR m).addr - 0x50000000) / 0x10000 = 17 := by omega
    unfold mirrored
    rw [hblock]
    simp only [Bool.or_eq_false_iff, decide_eq_false_iff_not, Bool.and_eq_false_iff]
    refine ⟨⟨⟨⟨⟨⟨?_, ?_⟩, ?_⟩, ?_⟩, ?_⟩, ?_⟩, .inr (by decide)⟩ <;> omega
  have hgate : s.gated q (HSE_MB_DOOR m) 1#32 (fun s => s.mbGo q m) = s.respond 0 false := by
    unfold State.gated
    dsimp only
    rw [hplain]
    split
    · rfl
    · rw [if_neg (by simp)]
      split
      · rw [State.mbGo, if_pos (by simp [huser])]
      · rfl
  refine (gives_iff_of_done (t := s.gated q (HSE_MB_DOOR m) 1#32 (fun s => s.mbGo q m)) rfl).2 ?_
  rw [hgate]
  exact ⟨rfl, rfl, rfl⟩

/-- An answer is what the command's own row leaves, where that has its code, and nothing else. -/
theorem mailboxAnswer_row {s : State} {m : Fin 2} (status : BitVec 8) (rsp : List Word) {c : Instr × Nat}
    (hc : c ∈ fwCommands m) (hout : Outstanding s m c.2) (hlate : sget [] s.house.late m = []) :
    ∃ t, exec c.1 s = .next t ∧ t.mbBusy m = false ∧
      (t.rdF (HSE_MB_STAT m) 7 0 = status.toNat → exec (.mailboxAnswer m status rsp) s = .next t) ∧
      (t.rdF (HSE_MB_STAT m) 7 0 ≠ status.toNat → Gives (.mailboxAnswer m status rsp) s fun u => OnlyRegs s u []) := by
  obtain ⟨owner, f, hexec, hrun, hends⟩ := runsAs_fwCommand hc
  have hover := mbBusy_fwCmd hout hends (owner := owner)
  obtain ⟨hbusy, hop, hcore, htime, -, -⟩ := hout
  have hintime := mbOver_intime (m := m) (.inr htime)
  have hanswer : s.mbAnswer m status.toNat =
      if (s.fwCmd m c.2 owner f).rdF (HSE_MB_STAT m) 7 0 = status.toNat then s.fwCmd m c.2 owner f else s := by
    rw [mbAnswer_eq hcore (by rw [hintime]; exact hlate), hintime, hrun s hop, hbusy, hover]
    simp
  refine ⟨_, hexec s, hover, fun hstatus => ?_, fun hstatus => ?_⟩ <;> rw [State.rdF_settle] at hstatus
  · change done (s.mbAnswer m status.toNat) = _
    rw [hanswer, if_pos hstatus]
    rfl
  · refine (gives_iff_of_done (t := s.mbAnswer m status.toNat) rfl).2 ?_
    rw [hanswer, if_neg hstatus]
    exact OnlyRegs.settle s

/-- An opcode that is no row is answered UNSUPPORTED, or SHED. -/
theorem gives_mailboxAnswer_unlisted {s : State} {m : Fin 2} (rsp : List Word) {op : Nat}
    (hop : op ∉ (fwCommands m).map Prod.snd) (hout : Outstanding s m op) (hlate : sget [] s.house.late m = [])
    {status : BitVec 8} (hstatus : status.toNat = if 3 ≤ s.shedLevel then 6 else 7) :
    Gives (.mailboxAnswer m status rsp) s fun u => Answered s u m status.toNat [] ∧ OnlyMailbox s u m := by
  have hcmd : s.fwRun m = s.mbDone m status.toNat [] := by
    have hrun := fwRun_unlisted hop hout.2.1
    by_cases hshed : 3 ≤ s.shedLevel
    · rw [hrun, fwCmd_shed hout hshed, hstatus, if_pos hshed]
    · rw [hrun, fwCmd_run hout (Nat.lt_of_not_le hshed) (.inl rfl), hstatus, if_neg hshed]
  have hcode : status.toNat = 6 ∨ status.toNat = 7 := by split at hstatus <;> simp [hstatus]
  have hanswered := mbDone_bare s m status.isLt (by omega) (by omega) []
  obtain ⟨hbusy, -, hcore, htime, -, -⟩ := hout
  have hintime := mbOver_intime (m := m) (.inr htime)
  have hanswer : s.mbAnswer m status.toNat = s.mbDone m status.toNat [] := by
    obtain ⟨-, hover, -, -, hcode, -⟩ := hanswered
    rw [mbAnswer_eq hcore (by rw [hintime]; exact hlate), hintime, hcmd, hbusy,
      show (s.mbDone m status.toNat []).mbBusy m = false from hover, hcode]
    simp
  refine (gives_iff_of_done (t := s.mbAnswer m status.toNat) rfl).2 ?_
  rw [hanswer]
  exact ⟨hanswered, mbDone_onlyMailbox s m _ _⟩

/-- Every command of the oldest opcode timed out, the firmware's answer first, takes its late answer. -/
theorem runs_late {s : State} {m : Fin 2} (status : BitVec 8) (rsp : List Word) {op : Nat} (hcore : s.anyCore = true)
    (hcore' : (s.mbOver m).anyCore = true) {rest : List Nat} (hlate : sget [] (s.mbOver m).house.late m = op :: rest) :
    ∀ c ∈ (Instr.mailboxAnswer m status rsp, op) :: fwCommands m, c.2 = op →
      exec c.1 s = done ((s.mbOver m).lateTake m) := by
  intro c hc hop
  rcases List.mem_cons.1 hc with rfl | hc
  · exact congrArg done (mbAnswer_late status.toNat hcore (by rw [hlate]; exact List.cons_ne_nil _ _))
  · obtain ⟨owner, f, hexec, -, -⟩ := runsAs_fwCommand hc
    rw [hexec, fwCmd_late hcore' (by rw [hlate, hop]; rfl)]

/-- A command lost with a core's reset is not answered. -/
theorem gives_lost {s : State} {m : Fin 2} (status : BitVec 8) (rsp : List Word)
    (hlost : m.val ∈ s.house.lost) (htime : s.now < sget 0 s.house.due m) (hlate : sget [] s.house.late m = []) :
    ∀ c ∈ (Instr.mailboxAnswer m status rsp, 0) :: fwCommands m, Gives c.1 s fun u => OnlyRegs s u [] := by
  have hintime := mbOver_intime (m := m) (.inr htime)
  have hnone : ∀ {op : Nat}, op < 256 → (sget [] s.house.late m).headD 256 ≠ op := fun h => by
    rw [hlate]
    exact Nat.ne_of_gt h
  have hkept : s.fwRun m = s := by
    by_cases hop : s.mbOp m ∈ (fwCommands m).map Prod.snd
    · obtain ⟨c, hc, he⟩ := List.mem_map.1 hop
      obtain ⟨owner, f, -, hrun, -⟩ := runsAs_fwCommand hc
      rw [hrun s he.symm, fwCmd_lost htime (hnone (fwCommands_small hc)) hlost]
    · rw [fwRun_unlisted hop rfl, fwCmd_lost htime (hnone (show s.mbOp m < 256 from rdF_lt s (HSE_MB_CMD m) 7 0)) hlost]
  intro c hc
  rcases List.mem_cons.1 hc with rfl | hc
  · have hanswer : s.mbAnswer m status.toNat = s := by
      cases hcore : s.anyCore with
      | false => rw [State.mbAnswer, hintime]; simp [hcore]
      | true => rw [mbAnswer_eq hcore (by rw [hintime]; exact hlate), hintime, hkept]; simp
    refine (gives_iff_of_done (t := s.mbAnswer m status.toNat) rfl).2 ?_
    rw [hanswer]
    exact OnlyRegs.settle s
  · obtain ⟨owner, f, hexec, -, -⟩ := runsAs_fwCommand hc
    refine (gives_iff_of_done (hexec s)).2 ?_
    rw [fwCmd_lost htime (hnone (fwCommands_small hc)) hlost]
    exact OnlyRegs.settle s

/-- Settles O49, clause by clause: the go, the answer to an outstanding command, and what is late or lost. -/
theorem mailboxes : Obligations.Mailboxes := by
  unfold Obligations.Mailboxes
  refine ⟨fun s q m hreach huser => gives_mailboxGo hreach huser, fun s q m huser => gives_mailboxGo_other huser,
    fun s m status rsp c hc hout hlate => mailboxAnswer_row status rsp hc hout hlate,
    fun s m rsp op hop hout hlate => ⟨fun hshed => ?_, fun hshed => ?_⟩,
    fun s m status rsp op rest hlate hcore htime c hc hop => ?_,
    fun s m status rsp hbusy hcore hdue hlost hlate c hc hop => ?_,
    fun s m status rsp _ hlost htime hlate => gives_lost status rsp hlost htime hlate,
    fun s m hbusy => ?_⟩
  · exact gives_mailboxAnswer_unlisted rsp hop hout hlate (status := 7) (by rw [if_neg (Nat.not_le.2 hshed)]; rfl)
  · exact gives_mailboxAnswer_unlisted rsp hop hout hlate (status := 6) (by rw [if_pos hshed]; rfl)
  · have hintime := mbOver_intime (m := m) htime
    have hexec := runs_late status rsp hcore (by rw [hintime]; exact hcore) (by rw [hintime]; exact hlate) c hc hop
    refine (gives_iff_of_done hexec).2 ?_
    rw [hintime]
    obtain ⟨hcount, htail, hkeeps⟩ := lateTake_spec s m
    exact ⟨hcount, htail.trans (by rw [hlate]; rfl), fun r hr => hkeeps r hr⟩
  · obtain ⟨hanswered, hmem, -, hkeeps, hlist⟩ := mbExpire_spec s m
    have hover := mbOver_due hbusy hdue
    rw [if_neg hlost, hlate, List.nil_append] at hlist
    have hcore' : (s.mbOver m).anyCore = true := by
      rw [hover, anyCore_of_rd (hkeeps HSE_CORE_STAT (away_of_addr m.isLt (by decide)))]
      exact hcore
    have hexec := runs_late status rsp hcore hcore' (by rw [hover]; exact hlist) c hc hop
    refine (gives_iff_of_done hexec).2 ?_
    rw [hover]
    obtain ⟨⟨hcount, hmem'⟩, htail, hkeeps'⟩ := lateTake_spec (s.mbExpire m) m
    have haway : HSE_LATE_CNT.addr ∉ (mbRegs m).map Reg.addr := away_of_addr m.isLt (by decide)
    refine ⟨hanswered.of_keeps fun r hr => hkeeps' r ?_, ⟨hcount.trans ?_, hmem'.trans hmem⟩,
      htail.trans (by rw [hlist]; rfl), fun r hr => ?_⟩
    · exact fun he => haway (he ▸ List.mem_map_of_mem hr)
    · rw [State.rdF, hkeeps _ haway]
      rfl
    · rw [List.mem_cons, not_or] at hr
      exact (hkeeps' r hr.1).trans (hkeeps r hr.2)
  · refine (gives_iff_of_done (t := (s.advanceTo (sget 0 s.house.due m)).mbExpire m) ?_).2 ?_
    · change done (s.mbTimeout m) = _
      rw [State.mbTimeout, if_pos hbusy]
    · obtain ⟨hanswered, hmem, hnow, hkeeps, hlist⟩ := mbExpire_spec (s.advanceTo (sget 0 s.house.due m)) m
      refine ⟨hanswered.of_cmd (State.rd_congr (regs_advanceTo s _) _), ?_, hmem.trans (mem_advanceTo s _), hlist,
        fun r hr => (hkeeps r hr).trans (State.rd_congr (regs_advanceTo s _) r)⟩
      exact Nat.le_trans (le_now_advanceTo' s _) (Nat.le_of_eq hnow.symm)

end Sys2Proof

namespace Sys2Proof

open Sys2Proof.Machine

/-! What the firmware's commands leave alone (R357). -/

theorem OnlyMailbox.of_hidden {s t u : State} {m : Nat} (h : OnlyMailbox t u m)
    (ht : t = { s with house := t.house, free := t.free }) : OnlyMailbox s u m := by
  obtain ⟨honly, hkeeps⟩ := h
  have hregs : t.regs = s.regs := (congrArg State.regs ht).trans rfl
  exact ⟨honly.trans (congrArg (fun x : State =>
    { x with regs := u.regs, hif := u.hif, house := u.house, free := u.free }) ht),
    fun r hr => (hkeeps r hr).trans (State.rd_congr hregs r)⟩

theorem OnlyMailbox.withPtp {s u : State} {m p : Nat} (h : OnlyMailbox s u m) : OnlyMailboxPtp s u m p := by
  obtain ⟨honly, hkeeps⟩ := h
  have hmacs : u.macs = s.macs := (congrArg State.macs honly).trans rfl
  refine ⟨congrArg (fun x : State => { x with regs := u.regs, hif := u.hif, house := u.house, free := u.free, macs := u.macs })
    honly, fun n _ => mac_congr hmacs n, fun r hr => hkeeps r fun hm => hr ?_⟩
  rw [List.map_append]
  exact List.mem_append_left _ hm

/-- Free words are as many as asked for, and take nothing else of the state. -/
theorem freeWords_spec (n : Nat) (s : State) :
    (s.freeWords n).1.length = n ∧ (s.freeWords n).2 = { s with free := (s.freeWords n).2.free } := by
  induction n generalizing s with
  | zero => exact ⟨rfl, rfl⟩
  | succ n ih =>
    obtain ⟨hlen, hstate⟩ := ih s.freeWord.2
    refine ⟨congrArg (· + 1) hlen, ?_⟩
    exact hstate.trans rfl

theorem ptpInst_congr {s u : State} (h : u.house.ptp = s.house.ptp) (p : Nat) : u.ptpInst p = s.ptpInst p := by
  rw [State.ptpInst, State.ptpInst, h]

theorem ptpInst_setPtpInst (s : State) (p : Nat) (x : Option PtpInst) : (s.setPtpInst p x).ptpInst p = x := by
  have hnone : (s.house.ptp.filter (fun x => x.1 != p)).find? (fun x => x.1 = p) = none :=
    List.find?_eq_none.2 fun y hy => by simpa using (List.mem_filter.1 hy).2
  cases x with
  | none => exact congrArg (Option.map Prod.snd) hnone
  | some i =>
    change Option.map Prod.snd ((s.house.ptp.filter (fun x => x.1 != p) ++ [(p, i)]).find? (fun x => x.1 = p)) = some i
    rw [List.find?_append, hnone]
    simp

theorem house_mbDone (s : State) (m status : Nat) (rsp : List Word) : (s.mbDone m status rsp).house =
    { s.house with due := sset 0 s.house.due m 0, lost := s.house.lost.filter (· != m) } :=
  (congrArg State.house (mbDone_only s m status rsp)).trans rfl

theorem ptpInst_mbDone (s : State) (m status : Nat) (rsp : List Word) (p : Nat) :
    (s.mbDone m status rsp).ptpInst p = s.ptpInst p := 
  ptpInst_congr ((congrArg House.ptp (house_mbDone s m status rsp)).trans rfl) p

theorem macs_mbDone (s : State) (m status : Nat) (rsp : List Word) : (s.mbDone m status rsp).macs = s.macs :=
  (congrArg State.macs (mbDone_only s m status rsp)).trans rfl

theorem mem_mbDone (s : State) (m status : Nat) (rsp : List Word) : (s.mbDone m status rsp).mem = s.mem :=
  (congrArg State.mem (mbDone_only s m status rsp)).trans rfl

/-- A filter entry of a port is no register of a mailbox. -/
theorem filter_away {m : Nat} (hm : m < 2) (p : Nat) {i : Nat} (hi : i < 64) :
    (MAC_FLT_A p i).addr ∉ (mbRegs m).map Reg.addr ∧ (MAC_FLT_B p i).addr ∉ (mbRegs m).map Reg.addr := by
  refine ⟨away_of_addr hm ?_, away_of_addr hm ?_⟩
  · simp only [MAC_FLT_A]; omega
  · simp only [MAC_FLT_B]; omega

/-! PTP_SET and PTP_STOP (R289, R357). -/

/-- The filter entries that PTP takes on its port. -/
def filterRegs (p : Nat) : List Reg := [MAC_FLT_A p 62, MAC_FLT_B p 62, MAC_FLT_A p 63, MAC_FLT_B p 63]

theorem ptpFilters_spec (s : State) (p profile : Nat) :
    RegsAlone (· ∉ (filterRegs p).map Reg.addr) s (s.ptpFilters p profile) ∧
    (s.ptpFilters p profile).rdB (MAC_FLT_A p 62) 31 = true ∧ (s.ptpFilters p profile).rdF (MAC_FLT_A p 62) 23 20 = 15 := by
  have hAB : ∀ a b : Nat, (MAC_FLT_A p a).addr ≠ (MAC_FLT_B p b).addr := fun a b => by
    simp only [MAC_FLT_A, MAC_FLT_B]; omega
  have hin : ∀ r ∈ filterRegs p, ¬ r.addr ∉ (filterRegs p).map Reg.addr := fun r hr => not_away hr
  unfold State.ptpFilters
  split
  · have hrd : (((s.wr (MAC_FLT_A p 62) 0x90F00000#32).wr (MAC_FLT_B p 62) 0x88F70000#32).wr (MAC_FLT_A p 63) 0).rd
        (MAC_FLT_A p 62) = 0x90F00000#32 := by
      rw [State.rd_wr_other _ _ (by simp [MAC_FLT_A]), State.rd_wr_other _ _ (hAB _ _), State.rd_wr_same]
    refine ⟨(((RegsAlone.refl s).wr (hin _ (by simp [filterRegs])) _).wr (hin _ (by simp [filterRegs])) _).wr
      (hin _ (by simp [filterRegs])) _, ?_, ?_⟩
    · rw [State.rdB, hrd]; decide
    · rw [State.rdF, hrd]; decide
  · have hrd : ((((s.wr (MAC_FLT_A p 62) 0x88F00000#32).wr (MAC_FLT_B p 62) 319#32).wr (MAC_FLT_A p 63) 0x88F00000#32).wr
        (MAC_FLT_B p 63) 320#32).rd (MAC_FLT_A p 62) = 0x88F00000#32 := by
      rw [State.rd_wr_other _ _ (hAB _ _), State.rd_wr_other _ _ (by simp [MAC_FLT_A]), State.rd_wr_other _ _ (hAB _ _),
        State.rd_wr_same]
    refine ⟨((((RegsAlone.refl s).wr (hin _ (by simp [filterRegs])) _).wr (hin _ (by simp [filterRegs])) _).wr
      (hin _ (by simp [filterRegs])) _).wr (hin _ (by simp [filterRegs])) _, ?_, ?_⟩
    · rw [State.rdB, hrd]; decide
    · rw [State.rdF, hrd]; decide

/-- A change of a port's filter entries and hidden state, then the answer: what moves on is what OnlyMailboxPtp names. -/
theorem onlyMailboxPtp_mbDone {s t : State} {m p status : Nat} (rsp : List Word)
    (honly : t = { s with regs := t.regs, house := t.house, macs := t.macs })
    (hkeeps : KeepsAt (· ∉ (filterRegs p).map Reg.addr) s t) (hmac : ∀ n, n ≠ p → t.mac n = s.mac n) :
    OnlyMailboxPtp s (t.mbDone m status rsp).settle m p := by
  have hdone := mbDone_only t m status rsp
  have hkept := mbDone_keeps t m status rsp
  have hmacs := macs_mbDone t m status rsp
  generalize t.mbDone m status rsp = u at *
  refine ⟨?_, fun n hn => (mac_congr hmacs n).trans (hmac n hn), fun r hr => ?_⟩
  · have h1 : u.settle = { t with regs := u.regs, hif := u.settle.hif, house := u.house, free := u.free, macs := u.macs } :=
      congrArg (fun x : State => { x with regs := u.regs, hif := u.settle.hif, house := u.house, free := u.free,
                                          macs := u.macs }) hdone
    exact h1.trans (congrArg (fun x : State => { x with regs := u.regs, hif := u.settle.hif, house := u.house,
                                                        free := u.free, macs := u.macs }) honly)
  · rw [List.map_append, List.mem_append, not_or] at hr
    exact (hkept r hr.1).trans (hkeeps r hr.2)

theorem exec_getVersion (s : State) (m : Fin 2) : exec (.getVersion m) s = done (s.fwCmd m 0x01 false (versionCmd m)) := rfl
theorem exec_getStats (s : State) (m : Fin 2) : exec (.getStats m) s = done (s.fwCmd m 0x02 false (statsCmd m)) := rfl
theorem exec_ptpSet (s : State) (m : Fin 2) : exec (.ptpSet m) s = done (s.fwCmd m 0x10 true (ptpSetCmd m)) := rfl
theorem exec_ptpStop (s : State) (m : Fin 2) : exec (.ptpStop m) s = done (s.fwCmd m 0x11 true (ptpStopCmd m)) := rfl
theorem exec_ptpStatus (s : State) (m : Fin 2) : exec (.ptpStatus m) s = done (s.fwCmd m 0x12 false (ptpStatusCmd m)) := rfl
theorem exec_discSet (s : State) (m : Fin 2) : exec (.discSet m) s = done (s.fwCmd m 0x20 true (discSetCmd m)) := rfl
theorem exec_aniStats (s : State) (m : Fin 2) : exec (.aniStats m) s = done (s.fwCmd m 0x30 false (aniStatsCmd m)) := rfl
theorem exec_fwUpdate (s : State) (m : Fin 2) : exec (.fwUpdate m) s = done (s.fwCmd m 0x40 true (fwUpdateCmd m)) :=
  congrArg done (fwUpdate_eq s m)
theorem exec_coreRestart (s : State) (m : Fin 2) :
    exec (.coreRestart m) s = done (s.fwCmd m 0x41 true (coreRestartCmd m)) := rfl

/-- An outstanding command that is neither shed nor denied leaves what its row does. -/
theorem gives_fwCmd {i : Instr} {s : State} {m : Fin 2} {op : Nat} {owner : Bool} {f : State → State} {P : State → Prop}
    (hexec : exec i s = done (s.fwCmd m op owner f)) (hout : Outstanding s m op) (hshed : s.shedLevel < 3)
    (howner : owner = false ∨ m.val = 0) {t : State} (ht : f s = t) (hP : P t.settle) : Gives i s P :=
  (gives_iff_of_done hexec).2 (by rw [fwCmd_run hout hshed howner, ht]; exact hP)

theorem Answered.settle {s u : State} {m status : Nat} {rsp : List Word} (h : Answered s u m status rsp) :
    Answered s u.settle m status rsp := h

@[simp] theorem ptpInst_settle (u : State) (p : Nat) : u.settle.ptpInst p = u.ptpInst p := rfl

/-- A command that ends with a code and no words, and does nothing else. -/
theorem refused_spec (s : State) (m : Nat) {status : Nat} (hlt : status < 256) (h0 : status ≠ 0) (h2 : status ≠ 2) (p : Nat) :
    Answered s (s.mbDone m status []).settle m status [] ∧
    (s.mbDone m status []).settle.ptpInst p = s.ptpInst p ∧ OnlyMailbox s (s.mbDone m status []).settle m :=
  ⟨(mbDone_bare s m hlt h0 h2 []).settle, (ptpInst_settle _ p).trans (ptpInst_mbDone s m _ [] p), mbDone_onlyMailbox s m _ []⟩

/-- Registers written after a change of the firmware's own state. -/
theorem RegsAlone.after_house {q : Nat → Prop} {s t u : State} (h : RegsAlone q t u) (ht : t = { s with house := t.house }) :
    u = { s with regs := u.regs, house := u.house, macs := u.macs } ∧ KeepsAt q s u ∧ u.macs = s.macs ∧
    ∀ p, u.ptpInst p = t.ptpInst p := by
  obtain ⟨honly, hkeeps⟩ := h
  have hregs : t.regs = s.regs := (congrArg State.regs ht).trans rfl
  have hmacs : t.macs = s.macs := (congrArg State.macs ht).trans rfl
  have hmacs' : u.macs = t.macs := (congrArg State.macs honly).trans rfl
  have hptp : u.house = t.house := (congrArg State.house honly).trans rfl
  have h1 : u = { t with regs := u.regs, house := u.house, macs := u.macs } :=
    congrArg (fun x : State => { x with regs := u.regs, house := u.house, macs := u.macs }) honly
  have h2 := congrArg (fun x : State => { x with regs := u.regs, house := u.house, macs := u.macs }) ht
  exact ⟨h1.trans h2, (KeepsAt.of_regs hregs).trans hkeeps, hmacs'.trans hmacs,
    fun p => ptpInst_congr (congrArg House.ptp hptp) p⟩

/-- PTP put on a port with a command's arguments. -/
def instancePut (s : State) (m : Nat) : State := s.setPtpInst (s.mbPort m) (some { args := (upTo 4).map (s.mbArg m) })

theorem instanceSet_eq (s : State) (m : Nat) :
    instanceSet s m = (instancePut s m).ptpFilters (s.mbPort m) (bits (s.mbArg m 0) 2 1) := rfl

theorem gives_ptpSet {s : State} (hout : Outstanding s 0 0x10) (hshed : s.shedLevel < 3) : Gives (.ptpSet 0) s fun u =>
    let p := s.mbPort 0
    let open_ := s.rdB (MAC_CTRL p) 0
    let busy := (s.ptpInst p).any PtpInst.starting
    OnlyMailboxPtp s u 0 p ∧ (open_ = false → Answered s u 0 3 [] ∧ u.ptpInst p = s.ptpInst p ∧ OnlyMailbox s u 0) ∧
    (open_ = true → busy = true → Answered s u 0 1 [] ∧ u.ptpInst p = s.ptpInst p ∧ OnlyMailbox s u 0) ∧
    (open_ = true → busy = false → Answered s u 0 0 [] ∧ u.rdB (MAC_FLT_A p 62) 31 = true ∧
      u.rdF (MAC_FLT_A p 62) 23 20 = 15 ∧
      u.ptpInst p = some { args := [s.mbArg 0 0, s.mbArg 0 1, s.mbArg 0 2, s.mbArg 0 3] }) := by
  cases hopen : s.rdB (MAC_CTRL (s.mbPort 0)) 0 with
  | false =>
    have heq : ptpSetCmd 0 s = s.mbDone 0 3 [] := by rw [ptpSetCmd, hopen]; rfl
    refine gives_fwCmd (exec_ptpSet s 0) hout hshed (.inr rfl) heq ?_
    have h := refused_spec s 0 (status := 3) (by decide) (by decide) (by decide) (s.mbPort 0)
    exact ⟨h.2.2.withPtp, fun _ => h, fun h => (by simp [hopen] at h), fun h => (by simp [hopen] at h)⟩
  | true =>
    cases hbusy : (s.ptpInst (s.mbPort 0)).any PtpInst.starting with
    | true =>
      have heq : ptpSetCmd 0 s = s.mbDone 0 1 [] := by rw [ptpSetCmd, hopen, hbusy]; rfl
      refine gives_fwCmd (exec_ptpSet s 0) hout hshed (.inr rfl) heq ?_
      have h := refused_spec s 0 (status := 1) (by decide) (by decide) (by decide) (s.mbPort 0)
      exact ⟨h.2.2.withPtp, fun h => (by simp [hopen] at h), fun _ _ => h, fun _ h => (by simp [hbusy] at h)⟩
    | false =>
      have heq : ptpSetCmd 0 s = (instanceSet s 0).mbDone 0 0 [] := by rw [ptpSetCmd, hopen, hbusy]; rfl
      refine gives_fwCmd (exec_ptpSet s 0) hout hshed (.inr rfl) heq ?_
      obtain ⟨halone, hon, hqueue⟩ := ptpFilters_spec (instancePut s 0) (s.mbPort 0) (bits (s.mbArg 0 0) 2 1)
      rw [← instanceSet_eq] at halone hon hqueue
      obtain ⟨honly, hkeeps, hmacs, hinst⟩ := halone.after_house (s := s) rfl
      have hflt : ((instanceSet s 0).mbDone 0 0 []).settle.rd (MAC_FLT_A (s.mbPort 0) 62) =
          (instanceSet s 0).rd (MAC_FLT_A (s.mbPort 0) 62) :=
        (State.rd_settle _ _).trans <| mbDone_keeps _ 0 0 [] _ (filter_away (by decide) _ (by decide)).1
      have hcmd : (instanceSet s 0).rd (HSE_MB_CMD 0) = s.rd (HSE_MB_CMD 0) := hkeeps _ (by
        simp only [filterRegs, List.map_cons, List.map_nil, List.mem_cons, List.not_mem_nil, or_false, MAC_FLT_A, MAC_FLT_B,
          HSE_MB_CMD, State.mbPort]
        have hport : b2n (bit (s.mbArg 0 0) 0) < 2 := by cases bit (s.mbArg 0 0) 0 <;> decide
        omega)
      refine ⟨onlyMailboxPtp_mbDone [] honly hkeeps fun n _ => mac_congr hmacs n, fun h => (by simp [hopen] at h),
        fun _ h => (by simp [hbusy] at h), fun _ _ => ⟨?_, ?_, ?_, ?_⟩⟩
      · exact ((mbDone_words _ 0 (.inl rfl) (Nat.zero_le _)).of_cmd hcmd).settle
      · exact (congrArg (bit · 31) hflt).trans hon
      · exact (congrArg (bits · 23 20) hflt).trans hqueue
      · exact (ptpInst_settle _ _).trans <| (ptpInst_mbDone _ 0 0 [] _).trans ((hinst _).trans (ptpInst_setPtpInst _ _ _))

end Sys2Proof

namespace Sys2Proof

open Sys2Proof.Machine

/-! The commands of the firmware, one by one (R357, R358, R361). -/

theorem mac_settle (s : State) (n : Nat) : s.settle.mac n = s.mac n := rfl

theorem ptpRelease_only (s : State) (p : Nat) :
    s.ptpRelease p = { s with regs := (s.ptpRelease p).regs, macs := (s.ptpRelease p).macs } := rfl

theorem setPtpInst_only (s : State) (p : Nat) (x : Option PtpInst) :
    s.setPtpInst p x = { s with house := (s.setPtpInst p x).house } := rfl

/-- PTP that ends on a port, with its filter entries given back. -/
def instanceEnded (s : State) (p : Nat) : State := (s.setPtpInst p none).ptpRelease p

theorem instanceEnded_spec (s : State) (p : Nat) :
    instanceEnded s p = { s with regs := (instanceEnded s p).regs, house := (instanceEnded s p).house,
                                 macs := (instanceEnded s p).macs } ∧
    (∀ n, n ≠ p → (instanceEnded s p).mac n = s.mac n) ∧ (instanceEnded s p).ptpInst p = none := by
  have hset := setPtpInst_only s p none
  have hinst := ptpInst_setPtpInst s p none
  unfold instanceEnded
  generalize s.setPtpInst p none = t at *
  have hmac : ∀ n, n ≠ p → (t.ptpRelease p).mac n = t.mac n := fun n hn => sget_sset_other _ _ _ _ hn
  have hhouse : (t.ptpRelease p).house = t.house := rfl
  have honly := ptpRelease_only t p
  generalize t.ptpRelease p = u at *
  have hmacs : t.macs = s.macs := (congrArg State.macs hset).trans rfl
  refine ⟨?_, fun n hn => (hmac n hn).trans (mac_congr hmacs n), (ptpInst_congr (congrArg House.ptp hhouse) p).trans hinst⟩
  have h1 : u = { t with regs := u.regs, house := u.house, macs := u.macs } :=
    congrArg (fun x : State => { x with regs := u.regs, house := u.house, macs := u.macs }) honly
  exact h1.trans (congrArg (fun x : State => { x with regs := u.regs, house := u.house, macs := u.macs }) hset)

theorem ptpRelease_spec (s : State) (p : Nat) : KeepsAt (· ∉ (filterRegs p).map Reg.addr) s (s.ptpRelease p) ∧
    (s.ptpRelease p).rd (MAC_FLT_A p 62) = 0 ∧ (s.ptpRelease p).rd (MAC_FLT_A p 63) = 0 ∧
    ((s.ptpRelease p).mac p).fwQ = [] := by
  let a := s.wr (MAC_FLT_A p 62) 0
  let b := a.wr (MAC_FLT_A p 63) 0
  have hregs : (s.ptpRelease p).regs = b.regs := rfl
  have hin : ∀ {i : Nat}, MAC_FLT_A p i ∈ filterRegs p → ¬ (MAC_FLT_A p i).addr ∉ (filterRegs p).map Reg.addr :=
    fun h => not_away h
  refine ⟨?_, ?_, ?_, congrArg Mac.fwQ (mac_setMac_same b p _)⟩
  · exact (((KeepsAt.refl s).wr (hin (i := 62) (by simp [filterRegs])) 0).wr (hin (i := 63) (by simp [filterRegs])) 0).trans
      (.of_regs hregs)
  · rw [State.rd_congr hregs]
    exact (State.rd_wr_other a 0 (by simp [MAC_FLT_A])).trans (State.rd_wr_same s _ 0)
  · rw [State.rd_congr hregs]
    exact State.rd_wr_same a _ 0

theorem gives_ptpStop {s : State} (hout : Outstanding s 0 0x11) (hshed : s.shedLevel < 3) : Gives (.ptpStop 0) s fun u =>
    u.ptpInst (s.mbPort 0) = none ∧ OnlyMailboxPtp s u 0 (s.mbPort 0) ∧
    ((s.ptpInst (s.mbPort 0)).isSome = true → u.rd (MAC_FLT_A (s.mbPort 0) 62) = 0 ∧ u.rd (MAC_FLT_A (s.mbPort 0) 63) = 0 ∧
      (u.mac (s.mbPort 0)).fwQ = []) ∧
    Answered s u 0 (if (s.ptpInst (s.mbPort 0)).isSome then 0 else 3) [] := by
  cases hinst : s.ptpInst (s.mbPort 0) with
  | none =>
    have heq : ptpStopCmd 0 s = s.mbDone 0 3 [] := by rw [ptpStopCmd, hinst]; rfl
    refine gives_fwCmd (exec_ptpStop s 0) hout hshed (.inr rfl) heq ?_
    obtain ⟨hanswered, hkept, honly⟩ := refused_spec s 0 (status := 3) (by decide) (by decide) (by decide) (s.mbPort 0)
    exact ⟨hkept.trans hinst, honly.withPtp, fun h => absurd h (by decide), hanswered⟩
  | some i =>
    generalize hp : s.mbPort 0 = p at *
    have heq : ptpStopCmd 0 s = (instanceEnded s p).mbDone 0 0 [] := by rw [ptpStopCmd, hp, hinst]; rfl
    refine gives_fwCmd (exec_ptpStop s 0) hout hshed (.inr rfl) heq ?_
    have hport : p < 2 := by rw [← hp, State.mbPort]; cases bit (s.mbArg 0 0) 0 <;> decide
    obtain ⟨hkeeps, hq62, hq63, hfwq⟩ := ptpRelease_spec (s.setPtpInst p none) p
    obtain ⟨honly, hmac, hnone⟩ := instanceEnded_spec s p
    have hset : KeepsAt (· ∉ (filterRegs p).map Reg.addr) s (s.setPtpInst p none) := .of_regs rfl
    replace hkeeps := hset.trans hkeeps
    change KeepsAt _ s (instanceEnded s p) at hkeeps
    change (instanceEnded s p).rd (MAC_FLT_A p 62) = 0 at hq62
    change (instanceEnded s p).rd (MAC_FLT_A p 63) = 0 at hq63
    change ((instanceEnded s p).mac p).fwQ = [] at hfwq
    generalize instanceEnded s p = t at *
    have hother : ∀ r : Reg, r.addr ∉ (mbRegs 0).map Reg.addr → (t.mbDone 0 0 []).settle.rd r = t.rd r :=
      fun r hr => (State.rd_settle _ r).trans (mbDone_keeps t 0 0 [] r hr)
    have hcmd : t.rd (HSE_MB_CMD 0) = s.rd (HSE_MB_CMD 0) := hkeeps _ (by
      simp only [filterRegs, List.map_cons, List.map_nil, List.mem_cons, List.not_mem_nil, or_false, MAC_FLT_A, MAC_FLT_B,
        HSE_MB_CMD]
      omega)
    refine ⟨(ptpInst_settle _ _).trans ((ptpInst_mbDone t 0 0 [] p).trans hnone),
      onlyMailboxPtp_mbDone [] honly hkeeps hmac, fun _ => ⟨?_, ?_, ?_⟩, ?_⟩
    · exact (hother _ (filter_away (by decide) p (by decide)).1).trans hq62
    · exact (hother _ (filter_away (by decide) p (by decide)).1).trans hq63
    · rw [mac_settle, mac_congr (macs_mbDone t 0 0 []) p, hfwq]
    · exact ((mbDone_words t 0 (.inl rfl) (Nat.zero_le _)).of_cmd hcmd).settle

theorem satWord_eq (v : Int) : satWord v = clamp32 v := by
  unfold satWord clamp32 clampBits
  congr 1
  split
  · omega
  · split <;> omega

/-- An answer with words, of a command that moved only free values and the firmware's own state on before. -/
theorem answered_hidden {s t : State} {m : Nat} (ht : t = { s with house := t.house, free := t.free }) {rsp : List Word}
    (hlen : rsp.length ≤ 16) :
    OnlyMailbox s (t.mbDone m 0 rsp).settle m ∧ Answered s (t.mbDone m 0 rsp).settle m 0 rsp := by
  have hregs : t.regs = s.regs := (congrArg State.regs ht).trans rfl
  exact ⟨(mbDone_onlyMailbox t m 0 rsp).of_hidden ht,
    ((mbDone_words t m (.inl rfl) hlen).of_cmd (State.rd_congr hregs _)).settle⟩

theorem gives_getVersion {s : State} {m : Fin 2} (hout : Outstanding s m 0x01) (hshed : s.shedLevel < 3) :
    Gives (.getVersion m) s fun u =>
      Answered s u m 0 [s.rd HSE_FW_VER, s.rd HSE_CORE_STAT, BitVec.ofNat 32 s.shedLevel] ∧ OnlyMailbox s u m := by
  refine gives_fwCmd (exec_getVersion s m) hout hshed (.inl rfl) (t := s.mbDone m 0 _) rfl ?_
  obtain ⟨honly, hanswered⟩ := answered_hidden (s := s) (t := s) (m := m) rfl
    (rsp := [s.rd HSE_FW_VER, s.rd HSE_CORE_STAT, BitVec.ofNat 32 s.shedLevel]) (by simp)
  exact ⟨hanswered, honly⟩

theorem gives_aniStats {s : State} {m : Fin 2} (hout : Outstanding s m 0x30) (hshed : s.shedLevel < 3) :
    Gives (.aniStats m) s fun u => OnlyMailbox s u m ∧ Answered s u m 0 [BitVec.ofNat 32 s.house.takes, s.house.takeAt,
      BitVec.ofNat 32 s.house.drops, s.house.chgAt] := by
  refine gives_fwCmd (exec_aniStats s m) hout hshed (.inl rfl) (t := s.mbDone m 0 _) rfl ?_
  exact answered_hidden (s := s) (t := s) (m := m) rfl (by simp)

theorem statsPage_hidden (s : State) (p : Nat) : (statsPage s p).2 =
    { s with house := (statsPage s p).2.house, free := (statsPage s p).2.free } := by
  unfold statsPage
  split
  · obtain ⟨-, h⟩ := freeWords_spec 16 s
    exact congrArg (fun x : State => { x with house := (s.freeWords 16).2.house, free := (s.freeWords 16).2.free }) h
  · rfl

theorem length_pageWords (s : State) (ws : List Word) : (pageWords s ws).length = 16 := by simp [pageWords, upTo]

theorem pageWords_getD (s : State) (ws : List Word) {k : Nat} (hk : k < 16) :
    (pageWords s ws).getD k 0 = if k = 15 then setBit (ws.getD k 0) 31 (s.shedLevel != 0) else ws.getD k 0 := by
  rw [List.getD_eq_getElem _ _ (by rw [length_pageWords]; exact hk)]
  simp [pageWords, upTo]

theorem gives_getStats {s : State} {m : Fin 2} (hout : Outstanding s m 0x02) (hshed : s.shedLevel < 3) :
    Gives (.getStats m) s fun u =>
    let p := (s.mbArg m 0).toNat
    OnlyMailbox s u m ∧ (3 < p → Answered s u m 2 []) ∧
    (p ≤ 3 → ∃ ws : List Word, ws.length = 16 ∧ Answered s u m 0 ws ∧ bit (ws.getD 15 0) 31 = (s.shedLevel != 0) ∧
      (s.shedLevel ≠ 0 → ∀ k < 15, ws.getD k 0 = (sget [] s.house.pages p).getD k 0)) := by
  by_cases hp : 3 < (s.mbArg m 0).toNat
  · refine gives_fwCmd (exec_getStats s m) hout hshed (.inl rfl) (t := s.mbDone m 2 []) (if_pos hp) ?_
    exact ⟨mbDone_onlyMailbox s m 2 [], fun _ => (mbDone_words s m (.inr rfl) (Nat.zero_le _)).settle,
      fun h => absurd hp (Nat.not_lt.2 h)⟩
  · generalize hq : (s.mbArg m 0).toNat = p at *
    refine gives_fwCmd (exec_getStats s m) hout hshed (.inl rfl)
      (t := (statsPage s p).2.mbDone m 0 (pageWords s (statsPage s p).1)) (by rw [statsCmd, hq, if_neg hp]) ?_
    obtain ⟨honly, hanswered⟩ := answered_hidden (m := m) (statsPage_hidden s p) (rsp := pageWords s (statsPage s p).1)
      (by rw [length_pageWords])
    refine ⟨honly, fun h => absurd h hp, fun _ => ⟨_, length_pageWords s _, hanswered, ?_, fun hlevel k hk => ?_⟩⟩
    · rw [pageWords_getD s _ (by decide), if_pos rfl, bit_setBit_same _ (by decide)]
    · rw [pageWords_getD s _ (by omega), if_neg (by omega), statsPage, if_neg hlevel]

theorem disc_mbDone (s : State) (m status : Nat) (rsp : List Word) : (s.mbDone m status rsp).house.disc = s.house.disc :=
  (congrArg House.disc (house_mbDone s m status rsp)).trans rfl

theorem gives_discSet {s : State} (hout : Outstanding s 0 0x20) (hshed : s.shedLevel < 3) : Gives (.discSet 0) s fun u =>
    OnlyMailbox s u 0 ∧ (bits (s.mbArg 0 0) 15 8 = 0 → Answered s u 0 2 [] ∧ u.house.disc = s.house.disc) ∧
    (bits (s.mbArg 0 0) 15 8 ≠ 0 → Answered s u 0 0 [] ∧
      sget (0, 0) u.house.disc (s.mbPort 0) = (s.mbArg 0 0, s.mbArg 0 1)) := by
  by_cases hzero : bits (s.mbArg 0 0) 15 8 = 0
  · refine gives_fwCmd (exec_discSet s 0) hout hshed (.inr rfl) (t := s.mbDone 0 2 []) (if_pos hzero) ?_
    exact ⟨mbDone_onlyMailbox s 0 2 [], fun _ => ⟨(mbDone_words s 0 (.inr rfl) (Nat.zero_le _)).settle,
      disc_mbDone s 0 2 []⟩, fun h => absurd hzero h⟩
  · let t : State := { s with house := { s.house with
      disc := sset (0, 0) s.house.disc (s.mbPort 0) (s.mbArg 0 0, s.mbArg 0 1) } }
    refine gives_fwCmd (exec_discSet s 0) hout hshed (.inr rfl) (t := t.mbDone 0 0 []) (if_neg hzero) ?_
    obtain ⟨honly, hanswered⟩ := answered_hidden (s := s) (t := t) (m := 0) rfl (rsp := []) (Nat.zero_le _)
    refine ⟨honly, fun h => absurd h hzero, fun _ => ⟨hanswered, ?_⟩⟩
    rw [State.settle_house, disc_mbDone]
    exact sget_sset_same _ _ _ _

end Sys2Proof

namespace Sys2Proof

open Sys2Proof.Machine

/-! PTP_STATUS (R357). -/

theorem gives_ptpStatus {s : State} {m : Fin 2} (hout : Outstanding s m 0x12) (hshed : s.shedLevel < 3) :
    Gives (.ptpStatus m) s fun u =>
    OnlyMailbox s u m ∧
    (s.ptpInst (s.mbPort m) = none → ∃ ws : List Word, ws.length = 5 ∧ Answered s u m 0 (0 :: ws)) ∧
    (∀ i, s.ptpInst (s.mbPort m) = some i → ∃ gm0 gm1 quality offset delay : Word,
      Answered s u m 0 [BitVec.ofNat 32 i.state, gm1, gm0, quality, offset, delay] ∧
      (i.state = 3 → i.clock ≠ [] → gm0 = BitVec.ofNat 32 (beAt i.clock 0 4) ∧ gm1 = BitVec.ofNat 32 (beAt i.clock 4 4)) ∧
      (i.state ≠ 3 → i.gm ≠ [] → gm0 = BitVec.ofNat 32 (beAt i.gm 0 4) ∧ gm1 = BitVec.ofNat 32 (beAt i.gm 4 4)) ∧
      (i.known = true → quality = BitVec.ofNat 32 (i.cls * 256 + i.acc) ∧ offset = clamp32 i.offset) ∧
      (∀ v, i.delay = some v → delay = clamp32 v)) := by
  obtain ⟨hlen, hstate⟩ := freeWords_spec 5 s
  have hhouse : (s.freeWords 5).2.house = s.house := (congrArg State.house hstate).trans rfl
  have hregs : (s.freeWords 5).2.regs = s.regs := (congrArg State.regs hstate).trans rfl
  have hinst : (s.freeWords 5).2.ptpInst ((s.freeWords 5).2.mbPort m) = s.ptpInst (s.mbPort m) := by
    rw [State.mbPort, State.mbArg, State.rd_congr hregs, ptpInst_congr (congrArg House.ptp hhouse)]
    rfl
  have hhidden : (s.freeWords 5).2 = { s with house := (s.freeWords 5).2.house, free := (s.freeWords 5).2.free } :=
    congrArg (fun x : State => { x with house := (s.freeWords 5).2.house, free := (s.freeWords 5).2.free }) hstate
  refine gives_fwCmd (exec_ptpStatus s m) hout hshed (.inl rfl)
    (t := (s.freeWords 5).2.mbDone m 0 (statusWords (s.ptpInst (s.mbPort m)) (s.freeWords 5).1))
    (by rw [ptpStatusCmd, hinst]) ?_
  generalize (s.freeWords 5).2 = t at hhidden ⊢
  generalize (s.freeWords 5).1 = ws at hlen ⊢
  cases s.ptpInst (s.mbPort m) with
  | none =>
    have hwords : (statusWords none ws).length ≤ 16 := by simp [statusWords, hlen]
    obtain ⟨honly, hanswered⟩ := answered_hidden (m := m) hhidden hwords
    exact ⟨honly, fun _ => ⟨ws, hlen, hanswered⟩, fun i h => by simp at h⟩
  | some i =>
    have hwords : (statusWords (some i) ws).length ≤ 16 := by simp [statusWords]
    obtain ⟨honly, hanswered⟩ := answered_hidden (m := m) hhidden hwords
    refine ⟨honly, fun h => by simp at h, fun j hj => ?_⟩
    obtain rfl : i = j := Option.some.inj hj
    refine ⟨_, _, _, _, _, hanswered, fun hmaster hclock => ?_, fun hslave hgm => ?_, fun hknown => ?_, fun v hv => ?_⟩
    · have hleader : i.leader = i.clock := if_pos hmaster
      simp [hleader, hclock]
    · have hleader : i.leader = i.gm := if_neg hslave
      simp [hleader, hgm]
    · simp [hknown, satWord_eq]
    · simp [hv, satWord_eq]

/-! A core's reset (R359, R365). -/

theorem mem_coreReset (s : State) (c : Nat) : (s.coreReset c).mem = s.mem :=
  (congrArg State.mem (CloveAlone.cloveHost _)).trans rfl

theorem rd_coreStat_coreReset (s : State) (c : Nat) :
    (s.coreReset c).rd HSE_CORE_STAT = (s.setCore c 1).rd HSE_CORE_STAT :=
  (rd_cloveHost_mbox _ (by decide)).trans (State.rd_congr rfl _)

theorem coreState_of_rd {s u : State} (h : u.rd HSE_CORE_STAT = s.rd HSE_CORE_STAT) (c : Nat) : u.coreState c = s.coreState c :=
  congrArg (bits · (4 * c + 1) (4 * c)) h

theorem half_of_rd {s u : State} (h : u.rd HSE_CORE_STAT = s.rd HSE_CORE_STAT) : u.half = s.half :=
  congrArg (fun w => b2n (bit w 8)) h

theorem coreState_coreReset_same (s : State) {c : Nat} (hc : c < 2) : (s.coreReset c).coreState c = 1 :=
  (coreState_of_rd (rd_coreStat_coreReset s c) c).trans (coreState_setCore_same s (by omega) (by decide))

theorem coreState_coreReset_other (s : State) {c d : Nat} (hc : c < 2) (h : d ≠ c) :
    (s.coreReset c).coreState d = s.coreState d :=
  (coreState_of_rd (rd_coreStat_coreReset s c) d).trans (coreState_setCore_other s (by omega) h 1)

theorem half_coreReset (s : State) {c : Nat} (hc : c < 2) : (s.coreReset c).half = s.half :=
  (half_of_rd (rd_coreStat_coreReset s c)).trans (half_setCore s hc 1)

/-- Cores reset one after another are reset, and the others stay. -/
theorem coreState_each_coreReset (l : List Nat) (hl : ∀ c ∈ l, c < 2) (s : State) (d : Nat) :
    (s.each l State.coreReset).coreState d = if d ∈ l then 1 else s.coreState d := by
  induction l generalizing s with
  | nil => rfl
  | cons c l ih =>
    rw [each_cons, ih (fun x hx => hl x (List.mem_cons_of_mem _ hx))]
    have hc := hl c List.mem_cons_self
    by_cases hdl : d ∈ l
    · rw [if_pos hdl, if_pos (List.mem_cons_of_mem _ hdl)]
    · rw [if_neg hdl]
      by_cases hdc : d = c
      · rw [if_pos (hdc ▸ List.mem_cons_self), hdc, coreState_coreReset_same s hc]
      · rw [if_neg (by simp [hdc, hdl]), coreState_coreReset_other s hc hdc]

theorem gives_coreRestart {s : State} (hout : Outstanding s 0 0x41) (hshed : s.shedLevel < 3) :
    Gives (.coreRestart 0) s fun u =>
    let a := (s.mbArg 0 0).toNat
    (a = 0 ∨ 3 < a → Answered s u 0 2 [] ∧ OnlyMailbox s u 0) ∧
    (1 ≤ a → a ≤ 3 → Answered s u 0 0 [] ∧
      ∀ c < 2, u.coreState c = (if a.testBit c then 1 else s.coreState c)) := by
  by_cases hbad : (s.mbArg 0 0).toNat = 0 ∨ 3 < (s.mbArg 0 0).toNat
  · have heq : coreRestartCmd 0 s = s.mbDone 0 2 [] := by rw [coreRestartCmd, if_pos (by simpa using hbad)]
    refine gives_fwCmd (exec_coreRestart s 0) hout hshed (.inr rfl) heq ?_
    exact ⟨fun _ => ⟨(mbDone_words s 0 (.inr rfl) (Nat.zero_le _)).settle, mbDone_onlyMailbox s 0 2 []⟩,
      fun h1 h3 => by omega⟩
  · generalize ha : (s.mbArg 0 0).toNat = a at *
    have heq : coreRestartCmd 0 s = (s.mbDone 0 0 []).each ((upTo 2).filter (fun c => a.testBit c)) State.coreReset := by
      rw [coreRestartCmd, ha, if_neg (by simpa using hbad)]
    refine gives_fwCmd (exec_coreRestart s 0) hout hshed (.inr rfl) heq ?_
    refine ⟨fun h => absurd h hbad, fun _ _ => ⟨?_, fun c hc => ?_⟩⟩
    · refine ((mbDone_words s 0 (.inl rfl) (Nat.zero_le _)).of_keeps fun r hr => ?_).settle
      obtain ⟨hlo, hhi⟩ := addr_mbRegs (by decide) r hr
      have hcore : HSE_CORE_STAT.addr = 0x50110400 := rfl
      exact rd_each_coreReset _ _ (by omega) (by omega)
    · have hdone : (s.mbDone 0 0 []).coreState c = s.coreState c :=
        coreState_of_rd (mbDone_keeps s 0 0 [] _ (away_of_addr (by decide) (by decide))) c
      rw [coreState_settle, ← hdone]
      rw [coreState_each_coreReset ((upTo 2).filter (fun c => a.testBit c))
        (fun x hx => List.mem_range.1 (List.mem_filter.1 hx).1)]
      simp [upTo, hc]

/-! FW_UPDATE (R361). -/

/-- A byte of the Sample Pool lies in no fenced unit where no bank of the Pool is fenced. -/
theorem whole_pool {s : State} (hpool : ∀ i < 64, s.fenced (608 + i) = false) {x : Nat} (hlo : 0x10000000 ≤ x)
    (hhi : x < 0x12000000) : ∃ v, unitAt x = some v ∧ s.fenced v = false := by
  refine ⟨poolUnit (x - 0x10000000), if_pos ⟨hlo, hhi⟩, ?_⟩
  have h := hpool ((x - 0x10000000) / 2 ^ 23 % 4 * 16 + (x - 0x10000000) / 64 % 16) (by omega)
  rwa [← Nat.add_assoc] at h

theorem fencedIn_pool {s : State} (hpool : ∀ i < 64, s.fenced (608 + i) = false) {a n : Nat} (hlo : 0x10000000 ≤ a)
    (hhi : a + n ≤ 0x12000000) : s.fencedIn a n = none := by
  unfold State.fencedIn
  dsimp only
  split
  · rfl
  · refine List.findSome?_eq_none_iff.2 fun x hx => ?_
    have hrange : a ≤ x ∧ x < a + n := by
      simp only [List.mem_append, List.mem_flatMap, List.mem_map, List.mem_cons, List.not_mem_nil, or_false, upTo,
        List.mem_range] at hx
      rcases hx with ⟨i, hi, rfl | rfl⟩ | ⟨i, hi, rfl⟩ <;> omega
    obtain ⟨v, hv, hfence⟩ := whole_pool hpool (x := x) (by omega) (by omega)
    simp [hv, hfence]

theorem updateImage_pool {s : State} (hpool : ∀ i < 64, s.fenced (608 + i) = false) {a n : Nat} (hlo : 0x10000000 ≤ a)
    (hhi : a + n ≤ 0x12000000) : updateImage s a n = bytesAt s.mem a n := by
  refine List.map_congr_left fun i hi => ?_
  have hi' : i < n := List.mem_range.1 hi
  obtain ⟨v, hv, hfence⟩ := whole_pool hpool (x := a + i) (by omega) (by omega)
  have hwhole : s.whole (a + i) = true := by rw [State.whole, hv]; simp [hfence]
  rw [if_pos hwhole, State.byte, if_neg (by omega)]

/-- The state with an image in the half not in force. -/
def imageInHalf (s : State) (a n : Nat) : State :=
  { s with mem := putBytes s.mem (halfBase (1 - s.half)) (bytesAt s.mem a n) }

/-- The copy of an image whose banks are whole changes the half alone. -/
theorem updateCopied_pool {s : State} (hpool : ∀ i < 64, s.fenced (608 + i) = false) {a n : Nat} (hlo : 0x10000000 ≤ a)
    (hhi : a + n ≤ 0x12000000) :
    updateCopied s a n = imageInHalf s a n := by
  unfold updateCopied
  dsimp only
  rw [fencedIn_pool hpool hlo hhi, updateImage_pool hpool hlo hhi]
  rfl

/-- What an image that passes leaves. -/
structure UpdateTaken (t u : State) (h : Nat) : Prop where
  mem : u.mem = t.mem
  half : u.half = h
  version : u.rd HSE_FW_VER = wordOf t.mem (halfBase h + 4)
  core0 : u.coreState 0 = 1
  core1 : u.coreState 1 = 1
  mailbox : ∀ r ∈ mbRegs 0, u.rd r = (t.mbDone 0 0 []).rd r

theorem half_takeImage_half (s : State) {h : Nat} (hh : h < 2) : (s.takeImage h).half = h := by
  have hrd : (s.takeImage h).rd HSE_CORE_STAT = (s.wrB HSE_CORE_STAT 8 (h == 1)).rd HSE_CORE_STAT := by
    have hregs : (s.takeImage h).regs =
        ((s.wrB HSE_CORE_STAT 8 (h == 1)).wr HSE_FW_VER (wordOf s.mem (halfBase h + 4))).regs := rfl
    rw [State.rd_congr hregs, State.rd_wr_other _ _ (by decide)]
  rw [half_of_rd hrd, State.half, rdB_wrB_same _ _ (by decide)]
  obtain rfl | rfl : h = 0 ∨ h = 1 := by omega
  all_goals rfl

theorem updateTaken_spec (t : State) {h : Nat} (hh : h < 2) : UpdateTaken t (updateTaken t 0 h) h := by
  have hmbox : ∀ r ∈ mbRegs 0, (updateTaken t 0 h).rd r = (t.mbDone 0 0 []).rd r := fun r hr => by
    obtain ⟨hlo, hhi⟩ := addr_mbRegs (by decide) r hr
    have hcore : HSE_CORE_STAT.addr = 0x50110400 := rfl
    have hver : HSE_FW_VER.addr = 0x50110408 := rfl
    exact rd_updateTaken t 0 h (by omega) (by omega) (by omega)
  have hmem := mem_mbDone t 0 0 []
  refine ⟨?_, ?_, ?_, ?_, ?_, hmbox⟩ <;> clear hmbox
  all_goals
    unfold updateTaken
    dsimp only
    generalize t.mbDone 0 0 [] = v at hmem ⊢
  · rw [mem_coreReset, mem_coreReset]
    exact hmem
  · rw [half_coreReset _ (by decide), half_coreReset _ (by decide)]
    exact (half_of_rd (State.rd_congr rfl _)).trans (half_takeImage_half v hh)
  · rw [rd_coreReset _ _ (by decide) (by decide), rd_coreReset _ _ (by decide) (by decide), ← hmem]
    have hregs : (v.takeImage h).regs =
      ((v.wrB HSE_CORE_STAT 8 (h == 1)).wr HSE_FW_VER (wordOf v.mem (halfBase h + 4))).regs := rfl
    exact (State.rd_congr (t := v.takeImage h) rfl _).trans ((State.rd_congr hregs _).trans (State.rd_wr_same _ _ _))
  · rw [coreState_coreReset_other _ (by decide) (by decide), coreState_coreReset_same _ (by decide)]
  · rw [coreState_coreReset_same _ (by decide)]

theorem updateChecked_of_code {t : State} {m h : Nat} {img : List Byte} (hcode : t.imageCode img = 0) :
    updateChecked t m h img = updateTaken t m h := by
  unfold updateChecked
  split
  · rfl
  · next hne => exact absurd hcode hne

theorem updateChecked_of_fault {t : State} {m h : Nat} {img : List Byte} (hcode : t.imageCode img ≠ 0) :
    updateChecked t m h img = updateRefused t m (t.imageCode img) := by
  unfold updateChecked
  split
  · next h0 => exact absurd h0 hcode
  · rfl

theorem imageCode_withMem (s : State) (mem : List (Nat × Byte)) (img : List Byte) :
    ({ s with mem := mem } : State).imageCode img = s.imageCode img := rfl

theorem length_bytesAt (m : List (Nat × Byte)) (a n : Nat) : (bytesAt m a n).length = n := by simp [bytesAt, upTo]

/-- A byte of a range copied elsewhere. -/
theorem sget_putBytes_bytesAt (m : List (Nat × Byte)) (a b : Nat) {n i : Nat} (hi : i < n) :
    sget 0 (putBytes m b (bytesAt m a n)) (b + i) = sget 0 m (a + i) := by
  rw [putBytes_at (by rw [length_bytesAt]; exact hi)]
  simp [bytesAt, upTo]

/-- A command that ends with an error code, kept in HSE_FW_ERR too. -/
def refusedWith (t : State) (v : Word) : State := ((t.wr HSE_FW_ERR v).raise HSE_INT 4#32).mbDone 0 2 [v]

theorem updateRefused_eq (t : State) (c : Nat) : updateRefused t 0 c = refusedWith t (BitVec.ofNat 32 c) := rfl

theorem refusedWith_spec (t : State) (v : Word) : Answered t (refusedWith t v) 0 2 [v] ∧ (refusedWith t v).half = t.half ∧
    (refusedWith t v).rd HSE_FW_ERR = v ∧ (refusedWith t v).rdB HSE_INT 2 = true ∧ (refusedWith t v).mem = t.mem := by
  let a := t.wr HSE_FW_ERR v
  let b := a.raise HSE_INT 4#32
  have hkept : ∀ {r : Reg}, r.addr / 0x1000 ≠ 0x50110 ∨ 0x200 ≤ r.addr % 0x1000 → (refusedWith t v).rd r = b.rd r :=
    fun h => mbDone_keeps b 0 2 [v] _ (away_of_addr (by decide) h)
  have hcmd : b.rd (HSE_MB_CMD 0) = t.rd (HSE_MB_CMD 0) :=
    (State.rd_raise_other a _ (by decide)).trans (State.rd_wr_other t v (by decide))
  refine ⟨(mbDone_words b 0 (.inr rfl) (rsp := [v]) (by simp)).of_cmd hcmd, half_of_rd ?_, ?_, ?_, mem_mbDone b 0 2 [v]⟩
  · exact (hkept (by decide)).trans ((State.rd_raise_other a _ (by decide)).trans (State.rd_wr_other t v (by decide)))
  · exact (hkept (by decide)).trans ((State.rd_raise_other a _ (by decide)).trans (State.rd_wr_same t _ v))
  · exact (congrArg (bit · 2) (hkept (by decide))).trans (rdB_raise_same a HSE_INT (by decide))

/-- An image in the half not in force comes into force, or is refused with its code. -/
theorem updateChecked_spec (s : State) (a n : Nat) :
    let img := bytesAt s.mem a n
    let half := halfBase (1 - s.half)
    let u := (updateChecked (imageInHalf s a n) 0 (1 - s.half) img).settle
    (∀ i < n, sget 0 u.mem (half + i) = sget 0 s.mem (a + i)) ∧
    (s.imageCode img = 0 → Answered s u 0 0 [] ∧ u.half = 1 - s.half ∧ u.rd HSE_FW_VER = wordOf u.mem (half + 4) ∧
      u.coreState 0 = 1 ∧ u.coreState 1 = 1) ∧
    (s.imageCode img ≠ 0 → Answered s u 0 2 [BitVec.ofNat 32 (s.imageCode img)] ∧ u.half = s.half ∧
      u.rd HSE_FW_ERR = BitVec.ofNat 32 (s.imageCode img) ∧ u.rdB HSE_INT 2 = true) := by
  intro img half u
  have hbytes : ∀ i < n, sget 0 (imageInHalf s a n).mem (half + i) = sget 0 s.mem (a + i) :=
    fun i hi => sget_putBytes_bytesAt s.mem a half hi
  have hcode : (imageInHalf s a n).imageCode img = s.imageCode img := imageCode_withMem s _ _
  have hrd : ∀ r : Reg, (imageInHalf s a n).rd r = s.rd r := fun r => State.rd_congr rfl r
  by_cases hzero : s.imageCode img = 0
  · have hu : u = (updateTaken (imageInHalf s a n) 0 (1 - s.half)).settle :=
      congrArg State.settle (updateChecked_of_code (hcode.trans hzero))
    have hspec := updateTaken_spec (imageInHalf s a n) (h := 1 - s.half) (by omega)
    rw [hu]
    generalize updateTaken (imageInHalf s a n) 0 (1 - s.half) = v at hspec ⊢
    refine ⟨fun i hi => ?_, fun _ => ⟨?_, ?_, ?_, hspec.core0, hspec.core1⟩, fun h => absurd hzero h⟩
    · rw [State.settle_mem, hspec.mem, hbytes i hi]
    · exact (((mbDone_words (imageInHalf s a n) 0 (.inl rfl) (Nat.zero_le _)).of_cmd (hrd _)).of_keeps hspec.mailbox).settle
    · exact hspec.half
    · rw [State.rd_settle, State.settle_mem, hspec.version, hspec.mem]
  · have hu : u = (updateRefused (imageInHalf s a n) 0 (s.imageCode img)).settle := by
      rw [← hcode]
      exact congrArg State.settle (updateChecked_of_fault (by rw [hcode]; exact hzero))
    rw [hu, updateRefused_eq]
    generalize BitVec.ofNat 32 (s.imageCode img) = v
    obtain ⟨hanswered, hhalf, herr, hint, hmem⟩ := refusedWith_spec (imageInHalf s a n) v
    generalize refusedWith (imageInHalf s a n) v = x at *
    refine ⟨fun i hi => ?_, fun h => absurd h hzero, fun _ => ⟨?_, ?_, herr, hint⟩⟩
    · rw [State.settle_mem, hmem, hbytes i hi]
    · exact (hanswered.of_cmd (hrd _)).settle
    · exact hhalf.trans (half_of_rd (hrd _))

theorem gives_fwUpdate {s : State} (hout : Outstanding s 0 0x40) (hshed : s.shedLevel < 3) (hidle : s.house.update = false) :
    Gives (.fwUpdate 0) s fun u =>
    let off := (s.mbArg 0 0).toNat
    let n := min (s.mbArg 0 1).toNat 0x80000
    let img := bytesAt s.mem (0x10000000 + off) n
    let half := halfBase (1 - s.half)
    (2 ^ 25 < off + (s.mbArg 0 1).toNat → Answered s u 0 2 [] ∧ OnlyMailbox s u 0) ∧
    (off + (s.mbArg 0 1).toNat ≤ 2 ^ 25 → (∀ i < 64, s.fenced (608 + i) = false) →
      (∀ i < n, sget 0 u.mem (half + i) = sget 0 s.mem (0x10000000 + off + i)) ∧
      (s.imageCode img = 0 → Answered s u 0 0 [] ∧ u.half = 1 - s.half ∧ u.rd HSE_FW_VER = wordOf u.mem (half + 4) ∧
        u.coreState 0 = 1 ∧ u.coreState 1 = 1) ∧
      (s.imageCode img ≠ 0 → Answered s u 0 2 [BitVec.ofNat 32 (s.imageCode img)] ∧ u.half = s.half ∧
        u.rd HSE_FW_ERR = BitVec.ofNat 32 (s.imageCode img) ∧ u.rdB HSE_INT 2 = true)) := by
  by_cases hbig : 2 ^ 25 < (s.mbArg 0 0).toNat + (s.mbArg 0 1).toNat
  · have heq : fwUpdateCmd 0 s = s.mbDone 0 2 [] := by rw [fwUpdateCmd, hidle, if_neg (by decide), if_pos hbig]
    refine gives_fwCmd (exec_fwUpdate s 0) hout hshed (.inr rfl) heq ?_
    exact ⟨fun _ => ⟨(mbDone_words s 0 (.inr rfl) (Nat.zero_le _)).settle, mbDone_onlyMailbox s 0 2 []⟩,
      fun hsmall => absurd hbig (Nat.not_lt.2 hsmall)⟩
  · have hn : min (s.mbArg 0 1).toNat 0x80000 ≤ (s.mbArg 0 1).toNat := Nat.min_le_left _ _
    have hrange : 0x10000000 + (s.mbArg 0 0).toNat + min (s.mbArg 0 1).toNat 0x80000 ≤ 0x12000000 := by omega
    have heq : fwUpdateCmd 0 s = updateChecked (updateCopied s (0x10000000 + (s.mbArg 0 0).toNat)
        (min (s.mbArg 0 1).toNat 0x80000)) 0 (1 - s.half)
        (updateImage s (0x10000000 + (s.mbArg 0 0).toNat) (min (s.mbArg 0 1).toNat 0x80000)) := by
      rw [fwUpdateCmd, hidle, if_neg (by decide), if_neg hbig]
    refine gives_fwCmd (exec_fwUpdate s 0) hout hshed (.inr rfl) heq ?_
    have hlo : 0x10000000 ≤ 0x10000000 + (s.mbArg 0 0).toNat := Nat.le_add_right _ _
    refine ⟨fun h => absurd h hbig, fun _ hpool => ?_⟩
    rw [updateImage_pool hpool hlo hrange, updateCopied_pool hpool hlo hrange]
    exact updateChecked_spec s _ _

/-- Settles O50, a command at a time. -/
theorem houseCommands : Obligations.HouseCommands := by
  unfold Obligations.HouseCommands
  refine ⟨fun s m c hc hout hshed => ?_, fun s c hc hout hshed => ?_, fun s m hout hshed => gives_getVersion hout hshed,
    fun s m hout hshed => gives_getStats hout hshed, fun s hout hshed => gives_ptpSet hout hshed,
    fun s hout hshed => gives_ptpStop hout hshed, fun s m hout hshed => gives_ptpStatus hout hshed,
    fun s hout hshed => gives_discSet hout hshed, fun s m hout hshed => gives_aniStats hout hshed,
    fun s hout hshed hidle => gives_fwUpdate hout hshed hidle, fun s hout hshed => gives_coreRestart hout hshed⟩
  · obtain ⟨owner, f, hexec, -, -⟩ := runsAs_fwCommand hc
    refine (gives_iff_of_done (hexec s)).2 ?_
    rw [fwCmd_shed hout hshed]
    exact ⟨(mbDone_bare s m (by decide) (by decide) (by decide) []).settle, mbDone_onlyMailbox s m 6 []⟩
  · have hdenied : ∀ {f : State → State}, exec c.1 s = done (s.fwCmd 1 c.2 true f) →
        Gives c.1 s fun u => Answered s u 1 4 [] ∧ OnlyMailbox s u 1 := fun hexec => by
      refine (gives_iff_of_done hexec).2 ?_
      rw [fwCmd_denied hout hshed]
      exact ⟨(mbDone_bare s 1 (by decide) (by decide) (by decide) []).settle, mbDone_onlyMailbox s 1 4 []⟩
    simp only [List.mem_cons, List.not_mem_nil, or_false] at hc
    rcases hc with rfl | rfl | rfl | rfl | rfl
    · exact hdenied (exec_ptpSet s 1)
    · exact hdenied (exec_ptpStop s 1)
    · exact hdenied (exec_discSet s 1)
    · exact hdenied (exec_fwUpdate s 1)
    · exact hdenied (exec_coreRestart s 1)

end Sys2Proof

namespace Sys2Proof

open Sys2Proof.Machine

/-! The shed level (R358). -/

theorem rdF_loads (s : State) (l0 l1 : BitVec 8) : (s.setLoads l0.toNat l1.toNat).rdF HSE_HOUSE_STAT 15 8 = l0.toNat ∧
    (s.setLoads l0.toNat l1.toNat).rdF HSE_HOUSE_STAT 23 16 = l1.toNat ∧
    (s.setLoads l0.toNat l1.toNat).shedLevel = s.shedLevel := by
  unfold State.setLoads State.shedLevel
  refine ⟨?_, ?_, ?_⟩
  · rw [rdF_wrF_apart _ _ (by omega) (by omega) (by omega), rdF_wrF_same _ _ (by omega) (by omega)]
    exact Nat.mod_eq_of_lt l0.isLt
  · rw [rdF_wrF_same _ _ (by omega) (by omega)]
    exact Nat.mod_eq_of_lt l1.isLt
  · rw [rdF_wrF_apart _ _ (by omega) (by omega) (by omega), rdF_wrF_apart _ _ (by omega) (by omega) (by omega)]

theorem onlyRegs_setLoads (s : State) (l0 l1 : Nat) : OnlyRegs s (s.setLoads l0 l1) [HSE_HOUSE_STAT] :=
  ((OnlyRegs.upd s HSE_HOUSE_STAT (setBits · 15 8 l0)).trans (.upd _ HSE_HOUSE_STAT (setBits · 23 16 l1))).mono (by simp)

/-- A page of statistics as it stands. -/
def keepPage (s : State) (p : Nat) : State :=
  let r := s.freeWords 16
  { r.2 with house := { r.2.house with pages := sset [] r.2.house.pages p r.1 } }

theorem keepPages_eq (s : State) : s.keepPages = s.each (upTo 4) keepPage := rfl

theorem keepPage_kept (s : State) (p : Nat) : (keepPage s p).regs = s.regs ∧ (keepPage s p).mem = s.mem := by
  obtain ⟨-, hstate⟩ := freeWords_spec 16 s
  unfold keepPage
  generalize s.freeWords 16 = r at *
  exact ⟨(congrArg State.regs hstate).trans rfl, (congrArg State.mem hstate).trans rfl⟩

theorem each_keepPage_kept (l : List Nat) (s : State) : (s.each l keepPage).regs = s.regs ∧ (s.each l keepPage).mem = s.mem := by
  induction l generalizing s with
  | nil => exact ⟨rfl, rfl⟩
  | cons p l ih =>
    obtain ⟨hregs, hmem⟩ := keepPage_kept s p
    obtain ⟨hregs', hmem'⟩ := ih (keepPage s p)
    rw [each_cons]
    exact ⟨hregs'.trans hregs, hmem'.trans hmem⟩

/-- The registers of the two mailboxes are apart. -/
theorem mbRegs_apart {m n : Nat} (h : m ≠ n) : ∀ r ∈ mbRegs m, r.addr ∉ (mbRegs n).map Reg.addr := by
  have haddr : ∀ k, ∀ r ∈ mbRegs k, 0x50110000 + 0x100 * k ≤ r.addr ∧ r.addr < 0x50110100 + 0x100 * k := by
    intro k r hr
    simp only [mbRegs, List.mem_append, List.mem_cons, List.not_mem_nil, or_false, List.mem_map, upTo, List.mem_range] at hr
    rcases hr with ((rfl | rfl | rfl | rfl) | ⟨j, hj, rfl⟩) | ⟨j, hj, rfl⟩
    all_goals
      simp only [HSE_MB_CMD, HSE_MB_DOOR, HSE_MB_STAT, HSE_MB_TO, HSE_MB_ARG, HSE_MB_RSP]
      omega
  intro r hr hmem
  obtain ⟨q, hq, he⟩ := List.mem_map.1 hmem
  have h1 := haddr m r hr
  have h2 := haddr n q hq
  omega

theorem rd_cmd_mbDone (s : State) (m n status : Nat) (rsp : List Word) :
    (s.mbDone n status rsp).rd (HSE_MB_CMD m) = s.rd (HSE_MB_CMD m) := by
  have hrsp : (rspWords s n (answerWords status rsp)).rd (HSE_MB_CMD m) = s.rd (HSE_MB_CMD m) := by
    refine (rspWords_regs s n _).keeps _ ?_
    simp only [List.map_map, List.mem_map, upTo, List.mem_range, Function.comp_apply, HSE_MB_RSP, HSE_MB_CMD]
    rintro ⟨k, hk, he⟩
    omega
  have hstat : (answerRegs s n status (answerWords status rsp)).rd (HSE_MB_CMD m) =
      (rspWords s n (answerWords status rsp)).rd (HSE_MB_CMD m) :=
    State.rd_upd_other _ _ (by simp only [HSE_MB_CMD, HSE_MB_STAT]; omega)
  exact hstat.trans hrsp

/-- The outstanding commands are shed. -/
def shedAll (s : State) (l : List Nat) : State := s.each l (fun s m => s.mbDone m 6 [])

theorem shedAll_cons (s : State) (m : Nat) (l : List Nat) : shedAll s (m :: l) = shedAll (s.mbDone m 6 []) l :=
  each_cons s m l _

theorem mem_shedAll (l : List Nat) (s : State) : (shedAll s l).mem = s.mem := by
  induction l generalizing s with
  | nil => rfl
  | cons m l ih => rw [shedAll_cons, ih, mem_mbDone]

theorem rd_shedAll {l : List Nat} {r : Reg} (h : ∀ m ∈ l, r.addr ∉ (mbRegs m).map Reg.addr) (s : State) :
    (shedAll s l).rd r = s.rd r := by
  induction l generalizing s with
  | nil => rfl
  | cons m l ih =>
    rw [shedAll_cons, ih fun n hn => h n (List.mem_cons_of_mem _ hn)]
    exact mbDone_keeps s m 6 [] r (h m List.mem_cons_self)

theorem answered_shedAll (l : List Nat) (s : State) : ∀ m ∈ l, Answered s (shedAll s l) m 6 [] := by
  induction l generalizing s with
  | nil => exact fun _ h => absurd h List.not_mem_nil
  | cons x l ih =>
    intro m hm
    rw [shedAll_cons]
    by_cases hin : m ∈ l
    · exact (ih _ m hin).of_cmd (rd_cmd_mbDone s m x 6 [])
    · obtain rfl : m = x := (List.mem_cons.1 hm).resolve_right hin
      refine (mbDone_bare s m (by decide) (by decide) (by decide) []).of_keeps fun r hr => rd_shedAll (fun n hn => ?_) _
      exact mbRegs_apart (fun h : m = n => hin (h ▸ hn)) r hr

/-- The level of shedding risen, before outstanding commands are shed. -/
def levelRisen (s : State) : State := ((s.wrF HSE_HOUSE_STAT 2 0 (s.shedLevel + 1)).raise HSE_INT 1#32).count HSE_SHED_CNT

theorem levelRisen_spec {s : State} (h : s.shedLevel < 5) : (levelRisen s).shedLevel = s.shedLevel + 1 ∧
    (levelRisen s).rdB HSE_INT 0 = true ∧
    (levelRisen s).rdF HSE_SHED_CNT 31 0 = min (s.rdF HSE_SHED_CNT 31 0 + 1) (2 ^ 32 - 1) ∧
    (∀ hi lo, 3 ≤ lo → (levelRisen s).rdF HSE_HOUSE_STAT hi lo = s.rdF HSE_HOUSE_STAT hi lo) ∧
    KeepsAt (· ∉ [HSE_HOUSE_STAT.addr, HSE_INT.addr, HSE_SHED_CNT.addr]) s (levelRisen s) ∧ (levelRisen s).mem = s.mem := by
  let a := s.wrF HSE_HOUSE_STAT 2 0 (s.shedLevel + 1)
  let b := a.raise HSE_INT 1#32
  have hstat : (levelRisen s).rd HSE_HOUSE_STAT = a.rd HSE_HOUSE_STAT :=
    (State.rd_count_other b (by decide)).trans (State.rd_raise_other a _ (by decide))
  refine ⟨?_, ?_, ?_, fun hi lo hlo => ?_, ?_, rfl⟩
  · refine (congrArg (bits · 2 0) hstat).trans ((rdF_wrF_same s _ (by omega) (by omega) _).trans ?_)
    exact Nat.mod_eq_of_lt (by omega)
  · exact (congrArg (bit · 0) (State.rd_count_other b (by decide))).trans (rdB_raise_same a _ (by decide))
  · refine (rdF_count_same b HSE_SHED_CNT).trans ?_
    have hcnt : b.rdF HSE_SHED_CNT 31 0 = s.rdF HSE_SHED_CNT 31 0 :=
      congrArg (bits · 31 0) ((State.rd_raise_other a _ (by decide)).trans (State.rd_wrF_other s _ _ _ (by decide)))
    rw [hcnt]
  · exact (congrArg (bits · hi lo) hstat).trans (rdF_wrF_apart s _ (by omega) (by omega) (by omega) _)
  · exact (((KeepsAt.refl s).wrF (by simp) _ _ _).raise (by simp) _).count (by simp)

/-- The firmware's load is above the limit, and the level below the last: the level rises. -/
theorem shedRise_above {s : State} {l0 l1 : BitVec 8} (hlevel : s.shedLevel < 5) (hload : 90 < l0.toNat ∨ 90 < l1.toNat) :
    ∃ t, t.regs = (s.setLoads l0.toNat l1.toNat).regs ∧ t.mem = s.mem ∧ s.shedRise l0.toNat l1.toNat =
      if (levelRisen t).shedLevel = 3 then shedAll (levelRisen t) ((upTo 2).filter (levelRisen t).mbBusy) else levelRisen t := by
  obtain ⟨-, -, hsame⟩ := rdF_loads s l0 l1
  have hcond : ((decide (90 < l0.toNat) || decide (90 < l1.toNat)) &&
      decide ((s.setLoads l0.toNat l1.toNat).shedLevel < 5)) = true := by
    rw [hsame]
    simpa [hlevel] using hload
  unfold State.shedRise
  dsimp only
  rw [if_pos hcond]
  have hmem : (s.setLoads l0.toNat l1.toNat).mem = s.mem := rfl
  generalize s.setLoads l0.toNat l1.toNat = v at *
  by_cases hzero : v.shedLevel = 0
  · obtain ⟨hregs, hkept⟩ := each_keepPage_kept (upTo 4) v
    refine ⟨v.keepPages, hregs, hkept.trans hmem, ?_⟩
    rw [if_pos hzero]
    rfl
  · refine ⟨v, rfl, hmem, ?_⟩
    rw [if_neg hzero]
    rfl

theorem shedRise_below {s : State} {l0 l1 : BitVec 8} (h0 : l0.toNat ≤ 90) (h1 : l1.toNat ≤ 90) :
    s.shedRise l0.toNat l1.toNat = s.setLoads l0.toNat l1.toNat := by
  unfold State.shedRise
  dsimp only
  rw [if_neg (by simp [Nat.not_lt.2 h0, Nat.not_lt.2 h1])]

theorem shedRise_last {s : State} {l0 l1 : BitVec 8} (h : 5 ≤ s.shedLevel) :
    s.shedRise l0.toNat l1.toNat = s.setLoads l0.toNat l1.toNat := by
  obtain ⟨-, -, hsame⟩ := rdF_loads s l0 l1
  unfold State.shedRise
  dsimp only
  rw [if_neg (by simp [hsame, Nat.not_lt.2 h])]

theorem shedLevel_of_rd {s u : State} (h : u.rd HSE_HOUSE_STAT = s.rd HSE_HOUSE_STAT) : u.shedLevel = s.shedLevel :=
  congrArg (bits · 2 0) h

/-- At level 3 the outstanding commands are answered, and nothing but the mailboxes changes. -/
theorem shedStep_spec (v : State) :
    let w := if v.shedLevel = 3 then shedAll v ((upTo 2).filter v.mbBusy) else v
    (∀ r : Reg, r.addr / 0x1000 ≠ 0x50110 ∨ 0x200 ≤ r.addr % 0x1000 → w.rd r = v.rd r) ∧ w.mem = v.mem ∧
    (v.shedLevel = 3 → ∀ m < 2, v.mbBusy m = true → Answered v w m 6 []) := by
  have hlt : ∀ m ∈ (upTo 2).filter v.mbBusy, m < 2 := fun m hm => List.mem_range.1 (List.mem_filter.1 hm).1
  by_cases h : v.shedLevel = 3
  · rw [if_pos h]
    exact ⟨fun r hr => rd_shedAll (fun m hm => away_of_addr (hlt m hm) hr) v, mem_shedAll _ v,
      fun _ m hm hbusy => answered_shedAll _ v m (List.mem_filter.2 ⟨List.mem_range.2 hm, hbusy⟩)⟩
  · rw [if_neg h]
    exact ⟨fun _ _ => rfl, rfl, fun h3 => absurd h3 h⟩

theorem lost_coreReset (s : State) (c : Nat) : (s.coreReset c).house.lost = (upTo 2).filter s.mbBusy :=
  (congrArg (fun x : State => x.house.lost) (CloveAlone.cloveHost _)).trans rfl

theorem gives_shedLevelRise (s : State) (l0 l1 : BitVec 8) : Gives (.shedLevelRise l0 l1) s fun u =>
    u.rdF HSE_HOUSE_STAT 15 8 = l0.toNat ∧ u.rdF HSE_HOUSE_STAT 23 16 = l1.toNat ∧ u.mem = s.mem ∧
    (s.shedLevel < 5 → (90 < l0.toNat ∨ 90 < l1.toNat) → u.shedLevel = s.shedLevel + 1 ∧ u.rdB HSE_INT 0 = true ∧
      u.rdF HSE_SHED_CNT 31 0 = min (s.rdF HSE_SHED_CNT 31 0 + 1) (2 ^ 32 - 1) ∧
      (s.shedLevel = 2 → ∀ m < 2, s.mbBusy m = true → Answered s u m 6 [])) ∧
    (l0.toNat ≤ 90 → l1.toNat ≤ 90 → u.shedLevel = s.shedLevel ∧ OnlyRegs s u [HSE_HOUSE_STAT]) := by
  refine (gives_iff_of_done (t := s.shedRise l0.toNat l1.toNat) rfl).2 ?_
  obtain ⟨hl0, hl1, hsame⟩ := rdF_loads s l0 l1
  have honly := onlyRegs_setLoads s l0.toNat l1.toNat
  by_cases hrise : s.shedLevel < 5 ∧ (90 < l0.toNat ∨ 90 < l1.toNat)
  · obtain ⟨hlevel, hload⟩ := hrise
    obtain ⟨t, hregs, hmem, heq⟩ := shedRise_above hlevel hload
    have ht : t.shedLevel = s.shedLevel := (shedLevel_of_rd (State.rd_congr hregs _)).trans hsame
    have hcnt : t.rdF HSE_SHED_CNT 31 0 = s.rdF HSE_SHED_CNT 31 0 :=
      congrArg (bits · 31 0) ((State.rd_congr hregs _).trans (honly.2 _ (by decide)))
    obtain ⟨hnew, hint, hcount, hstat, hkeeps, hmem'⟩ := levelRisen_spec (s := t) (by omega)
    have hfield : ∀ hi lo, 3 ≤ lo → (levelRisen t).rdF HSE_HOUSE_STAT hi lo =
        (s.setLoads l0.toNat l1.toNat).rdF HSE_HOUSE_STAT hi lo := fun hi lo hlo =>
      (hstat hi lo hlo).trans (congrArg (bits · hi lo) (State.rd_congr hregs _))
    have hmbox : ∀ m < 2, ∀ r ∈ mbRegs m, (levelRisen t).rd r = s.rd r := fun m hm r hr => by
      obtain ⟨hlo, hhi⟩ := addr_mbRegs hm r hr
      have h1 : HSE_HOUSE_STAT.addr = 0x50110404 := rfl
      have h2 : HSE_INT.addr = 0x50110410 := rfl
      have h3 : HSE_SHED_CNT.addr = 0x5011041C := rfl
      have hone : (levelRisen t).rd r = t.rd r :=
        hkeeps r (by simp only [List.mem_cons, List.not_mem_nil, or_false]; omega)
      have htwo : (s.setLoads l0.toNat l1.toNat).rd r = s.rd r :=
        honly.2 r (by simp only [List.map_cons, List.map_nil, List.mem_singleton]; omega)
      exact hone.trans ((State.rd_congr hregs r).trans htwo)
    rw [heq]
    rw [ht] at hnew
    rw [hcnt] at hcount
    replace hmem' := hmem'.trans hmem
    generalize levelRisen t = v at *
    obtain ⟨hw, hwmem, hanswers⟩ := shedStep_spec v
    generalize (if v.shedLevel = 3 then shedAll v ((upTo 2).filter v.mbBusy) else v) = w at *
    refine ⟨?_, ?_, hwmem.trans hmem', fun _ _ => ⟨?_, ?_, ?_, fun htwo m hm hbusy => ?_⟩, fun h0 h1 => by omega⟩
    · exact (congrArg (bits · 15 8) (hw _ (by decide))).trans ((hfield 15 8 (by decide)).trans hl0)
    · exact (congrArg (bits · 23 16) (hw _ (by decide))).trans ((hfield 23 16 (by decide)).trans hl1)
    · exact (shedLevel_of_rd (hw _ (by decide))).trans hnew
    · exact (congrArg (bit · 0) (hw _ (by decide))).trans hint
    · exact (congrArg (bits · 31 0) (hw _ (by decide))).trans hcount
    · have hvbusy : v.mbBusy m = true := (mbBusy_of_rd (hmbox m hm _ (mem_mbRegs_stat m))).trans hbusy
      exact ((hanswers (by rw [hnew, htwo]) m hm hvbusy).of_cmd (hmbox m hm _ (by simp [mbRegs]))).settle
  · have heq : s.shedRise l0.toNat l1.toNat = s.setLoads l0.toNat l1.toNat := by
      by_cases hlevel : s.shedLevel < 5
      · exact shedRise_below (by omega) (by omega)
      · exact shedRise_last (by omega)
    rw [heq]
    exact ⟨hl0, hl1, rfl, fun hlevel hload => absurd ⟨hlevel, hload⟩ hrise, fun _ _ => ⟨hsame, honly.trans (.settle _)⟩⟩

theorem gives_shedLevelFall (s : State) (l0 l1 : BitVec 8) : Gives (.shedLevelFall l0 l1) s fun u =>
    OnlyRegs s u [HSE_HOUSE_STAT] ∧
    (l0.toNat < 70 → l1.toNat < 70 → u.shedLevel = s.shedLevel - 1) ∧
    (70 ≤ l0.toNat ∨ 70 ≤ l1.toNat → u.shedLevel = s.shedLevel) := by
  refine (gives_iff_of_done (t := s.shedFall l0.toNat l1.toNat) rfl).2 ?_
  obtain ⟨-, -, hsame⟩ := rdF_loads s l0 l1
  have honly := onlyRegs_setLoads s l0.toNat l1.toNat
  unfold State.shedFall
  dsimp only
  rw [hsame]
  generalize s.setLoads l0.toNat l1.toNat = v at *
  have hlevel : s.shedLevel < 8 := rdF_lt s HSE_HOUSE_STAT 2 0
  by_cases hlow : l0.toNat < 70 ∧ l1.toNat < 70
  · rw [if_pos hlow]
    refine ⟨((honly.trans (.upd v HSE_HOUSE_STAT _)).trans (.settle _)).mono (by simp), fun _ _ => ?_, fun h => by omega⟩
    refine (rdF_wrF_same v HSE_HOUSE_STAT (by decide) (by decide) _).trans (Nat.mod_eq_of_lt (by omega))
  · rw [if_neg hlow]
    exact ⟨honly.trans (.settle _), fun h0 h1 => absurd ⟨h0, h1⟩ hlow, fun _ => hsame⟩

/-! Cores that stop and start (R359, R360, R365). -/

theorem gives_houseWatchdogReset {s : State} {c : Fin 2} (hruns : s.coreRuns c = true) :
    Gives (.houseWatchdogReset c) s fun u =>
    u.coreState c = 1 ∧ u.coreState (1 - c.val) = s.coreState (1 - c.val) ∧ u.rdB HSE_INT 1 = true ∧
    (∀ m < 2, s.mbBusy m = true → u.mbBusy m = true ∧ m ∈ u.house.lost) ∧
    u.rdF HSE_WDT_CNT 31 0 = min (s.rdF HSE_WDT_CNT 31 0 + 1) (2 ^ 32 - 1) ∧ u.mem = s.mem := by
  have hc := c.isLt
  refine (gives_iff_of_done (t := ((s.coreReset c).raise HSE_INT 2#32).count HSE_WDT_CNT) ?_).2 ?_
  · change done (s.coreDog c) = _
    rw [State.coreDog, if_pos hruns]
  · have hreset := coreState_coreReset_same s hc
    have hother := coreState_coreReset_other s hc (show 1 - c.val ≠ c.val by omega)
    have hmem := mem_coreReset s c
    have hcnt : (s.coreReset c).rd HSE_WDT_CNT = s.rd HSE_WDT_CNT := rd_coreReset s c (by decide) (by decide)
    have hbox : ∀ m < 2, (s.coreReset c).rd (HSE_MB_STAT m) = s.rd (HSE_MB_STAT m) := fun m hm => by
      obtain ⟨hlo, hhi⟩ := statusApart m hm
      have hcore : HSE_CORE_STAT.addr = 0x50110400 := rfl
      exact rd_coreReset s c hlo (by omega)
    have hlost := lost_coreReset s c
    generalize s.coreReset c = t at *
    have hrd : ∀ {r : Reg}, r.addr ≠ HSE_INT.addr → r.addr ≠ HSE_WDT_CNT.addr →
        ((t.raise HSE_INT 2#32).count HSE_WDT_CNT).rd r = t.rd r := fun h1 h2 =>
      (State.rd_count_other _ h2).trans (State.rd_raise_other t _ h1)
    have hcount : ((t.raise HSE_INT 2#32).count HSE_WDT_CNT).rdF HSE_WDT_CNT 31 0 =
        min (s.rdF HSE_WDT_CNT 31 0 + 1) (2 ^ 32 - 1) := by
      rw [rdF_count_same, State.rdF, State.rd_raise_other t _ (by decide), hcnt]
      rfl
    have hint : ((t.raise HSE_INT 2#32).count HSE_WDT_CNT).rdB HSE_INT 1 = true :=
      (congrArg (bit · 1) (State.rd_count_other _ (by decide))).trans (rdB_raise_same t _ (by decide))
    have hkept : ((t.raise HSE_INT 2#32).count HSE_WDT_CNT).mem = t.mem ∧
        ((t.raise HSE_INT 2#32).count HSE_WDT_CNT).house = t.house := ⟨rfl, rfl⟩
    generalize (t.raise HSE_INT 2#32).count HSE_WDT_CNT = w at *
    obtain ⟨hwmem, hhouse⟩ := hkept
    have hcore : w.rd HSE_CORE_STAT = t.rd HSE_CORE_STAT := hrd (by decide) (by decide)
    refine ⟨(coreState_of_rd hcore c).trans hreset, (coreState_of_rd hcore _).trans hother, hint,
      fun m hm hbusy => ⟨?_, ?_⟩, hcount, hwmem.trans hmem⟩
    · obtain ⟨hlo, hhi⟩ := statusApart m hm
      have haddr : HSE_INT.addr = 0x50110410 := rfl
      have hwdt : HSE_WDT_CNT.addr = 0x50110420 := rfl
      exact (mbBusy_of_rd ((hrd (by omega) (by omega)).trans (hbox m hm))).trans hbusy
    · rw [State.settle_house, hhouse, hlost]
      exact List.mem_filter.2 ⟨List.mem_range.2 hm, hbusy⟩

end Sys2Proof

namespace Sys2Proof

open Sys2Proof.Machine

/-! A core's start (R359, R360). -/

theorem mem_cloveHost (s : State) : s.cloveHost.mem = s.mem := (congrArg State.mem (CloveAlone.cloveHost s)).trans rfl

theorem coreUp_eq {s : State} {c : Nat} (hboots : s.coreState c = 1) (hready : s.boot.ready = true) : s.coreUp c =
    match s.imageCode (s.imageAt (halfBase s.half)) with
    | 0 =>
      let s := (s.setCore c 2).cloveHost
      if s.coreRuns 0 && s.coreRuns 1 then { s with house := { s.house with update := false } } else s
    | k => ((s.wr HSE_FW_ERR (BitVec.ofNat 32 k)).setCore c 0).cloveHost := by
  unfold State.coreUp
  exact if_pos (by simp [hboots, hready])

theorem gives_houseCoreRunning {s : State} {c : Fin 2} (hboots : s.coreState c = 1) (hready : s.boot.ready = true) :
    Gives (.houseCoreRunning c) s fun u =>
    let code := s.imageCode (s.imageAt (halfBase s.half))
    u.mem = s.mem ∧ (code = 0 → u.coreState c = 2) ∧
    (code ≠ 0 → u.coreState c = 0 ∧ u.rd HSE_FW_ERR = BitVec.ofNat 32 code) := by
  have hc := c.isLt
  refine (gives_iff_of_done (t := s.coreUp c) rfl).2 ?_
  rw [coreUp_eq hboots hready]
  dsimp only
  generalize s.imageCode (s.imageAt (halfBase s.half)) = code
  split
  · have hcore : ((s.setCore c 2).cloveHost).coreState c = 2 :=
      (coreState_of_rd (rd_cloveHost_mbox _ (by decide)) c).trans (coreState_setCore_same s (by omega) (by decide))
    have hmem : ((s.setCore c 2).cloveHost).mem = s.mem := mem_cloveHost _
    generalize (s.setCore c 2).cloveHost = t at *
    split
    · exact ⟨hmem, fun _ => hcore, fun h => absurd rfl h⟩
    · exact ⟨hmem, fun _ => hcore, fun h => absurd rfl h⟩
  · next hcode =>
    refine ⟨(mem_cloveHost _).trans rfl, fun h => absurd h hcode, fun _ => ⟨?_, ?_⟩⟩
    · exact (coreState_of_rd (rd_cloveHost_mbox _ (by decide)) c).trans (coreState_setCore_same _ (by omega) (by decide))
    · exact (rd_cloveHost_mbox _ (by decide)).trans ((rd_setCore_other _ _ _ (by decide)).trans (State.rd_wr_same _ _ _))

/-! PTP messages and announcements (R289, R357, R358). -/

/-- A frame that the firmware offers to a port in UP waits behind the frames of its ring. -/
theorem fwOffer_up {s : State} {n : Nat} (hup : s.macUp n = true) (f : FwFrame) :
    ((s.fwOffer n f).mac n).fwQ = (s.mac n).fwQ ++ [f] ∧ ((s.fwOffer n f).mac n).fwRx = (s.mac n).fwRx ∧
    (s.fwOffer n f).house = s.house ∧ (s.fwOffer n f).mem = s.mem := by
  obtain ⟨⟨c, a, hmac⟩, honly, -⟩ := macNow_spec s n
  have hhouse : (s.macNow n).house = s.house := (congrArg State.house honly).trans rfl
  have hmem := mem_macNow s n
  rw [State.fwOffer, if_neg (by simp [hup])]
  generalize s.macNow n = t at *
  refine ⟨?_, ?_, hhouse, hmem⟩
  · rw [mac_setMac_same, hmac]
  · rw [mac_setMac_same, hmac]

theorem offerFrame_up {s : State} {n : Nat} (hup : s.macUp n = true) (cls : Nat) (bs : List Byte) :
    ((s.offerFrame n cls bs).mac n).strmQ = (s.mac n).strmQ ++ [(cls, bs)] ∧ (s.offerFrame n cls bs).mem = s.mem := by
  obtain ⟨⟨c, a, hmac⟩, -, -⟩ := macNow_spec s n
  have hmem := mem_macNow s n
  rw [State.offerFrame, if_neg (by simp [hup])]
  dsimp only
  generalize s.macNow n = t at *
  exact ⟨by rw [mac_setMac_same, hmac], hmem⟩

/-- A message's share of the port: an answer takes the oldest request. -/
def requestTaken (s : State) (p : Nat) (k : PtpMsg) : State :=
  if ptpAnswer k then s.setMac p { s.mac p with fwRx := (s.mac p).fwRx.tail } else s

/-- A message's sequence number, and the port's PTP after it. -/
def messageSeq (s : State) (p : Nat) (i : PtpInst) (k : PtpMsg) : Nat :=
  if ptpAnswer k then beAt ((s.mac p).fwRx.headD (0, [])).2 30 2 else sget 0 i.seq (ptpType k)

def messageSent (i : PtpInst) (k : PtpMsg) (seq : Nat) : PtpInst :=
  { i with starting := false, state := if ptpLeads k then 3 else i.state,
           seq := sset 0 i.seq (ptpType k) ((seq + 1) % 65536) }

theorem ptpSend_eq {s : State} {p : Nat} {k : PtpMsg} {i : PtpInst} (hinst : s.ptpInst p = some i) (hcore : s.anyCore = true)
    (hshed : s.shedLevel < 5) (hsends : i.sends (!(s.mac p).fwRx.isEmpty) k = true) : s.ptpSend p k =
      State.fwOffer (State.setPtpInst { requestTaken s p k with free := (requestTaken s p k).free + 1 } p
        (some (messageSent i k (messageSeq s p i k)))) p
        (s.ptpBuild i p (messageSeq s p i k) ((s.mac p).fwRx.headD (0, [])) k) := by
  have hruns : s.ptpRuns = true := by simp [State.ptpRuns, hcore, hshed]
  rw [State.ptpSend, hinst]
  dsimp only
  rw [if_pos (by rw [hruns, hsends]; rfl)]
  rfl

theorem requestTaken_spec (s : State) (p : Nat) (k : PtpMsg) : (requestTaken s p k).regs = s.regs ∧
    (requestTaken s p k).mem = s.mem ∧ ((requestTaken s p k).mac p).fwQ = (s.mac p).fwQ ∧
    ((requestTaken s p k).mac p).fwRx = if ptpAnswer k then (s.mac p).fwRx.tail else (s.mac p).fwRx := by
  unfold requestTaken
  cases ptpAnswer k with
  | true =>
    rw [if_pos rfl]
    exact ⟨rfl, rfl, by rw [mac_setMac_same], by rw [mac_setMac_same, if_pos rfl]⟩
  | false => exact ⟨rfl, rfl, rfl, rfl⟩

theorem macUp_of_regs {s u : State} (h : u.regs = s.regs) (n : Nat) : u.macUp n = s.macUp n :=
  congrArg (fun w => bits w 1 0 == 2) (State.rd_congr h (MAC_STAT n))

theorem gives_ptpMessageSend {s : State} {p : Fin 2} {k : PtpMsg} {i : PtpInst} (hinst : s.ptpInst p = some i)
    (hcore : s.anyCore = true) (hshed : s.shedLevel < 5) (hsends : i.sends (!(s.mac p).fwRx.isEmpty) k = true)
    (hup : s.macUp p = true) : Gives (.ptpMessageSend p k) s fun u =>
      let rx := (s.mac p).fwRx
      let seq := if ptpAnswer k then beAt (rx.headD (0, [])).2 30 2 else sget 0 i.seq (ptpType k)
      (u.mac p).fwQ = (s.mac p).fwQ ++ [s.ptpBuild i p seq (rx.headD (0, [])) k] ∧
      (u.mac p).fwRx = (if ptpAnswer k then rx.tail else rx) ∧
      u.ptpInst p = some { i with starting := false, state := if ptpLeads k then 3 else i.state,
                                  seq := sset 0 i.seq (ptpType k) ((seq + 1) % 65536) } ∧
      u.mem = s.mem := by
  refine (gives_iff_of_done (t := s.ptpSend p k) rfl).2 ?_
  rw [ptpSend_eq hinst hcore hshed hsends]
  generalize hseq : messageSeq s p i k = seq
  obtain ⟨hregs, hmem, hfwq, hfwrx⟩ := requestTaken_spec s p k
  generalize requestTaken s p k = t at *
  generalize hv : State.setPtpInst { t with free := t.free + 1 } p (some (messageSent i k seq)) = v
  have hmac : v.mac p = t.mac p := by rw [← hv]; rfl
  have hvmem : v.mem = t.mem := by rw [← hv]; rfl
  have hvinst : v.ptpInst p = some (messageSent i k seq) := by rw [← hv]; exact ptpInst_setPtpInst _ _ _
  have hvup : v.macUp p = true := (macUp_of_regs (by rw [← hv]; exact hregs) p).trans hup
  obtain ⟨hq, hrx, hhouse, hkept⟩ := fwOffer_up hvup (s.ptpBuild i p seq ((s.mac p).fwRx.headD (0, [])) k)
  generalize v.fwOffer p (s.ptpBuild i p seq ((s.mac p).fwRx.headD (0, [])) k) = w at *
  subst hseq
  exact ⟨hq.trans (by rw [hmac, hfwq]; rfl), hrx.trans (by rw [hmac, hfwrx]),
    (ptpInst_settle w p).trans ((ptpInst_congr (congrArg House.ptp hhouse) p).trans hvinst), hkept.trans (hvmem.trans hmem)⟩

theorem gives_discoveryAnnounce {s : State} {p : Fin 2} (hon : bit (sget (0, 0) s.house.disc p).1 1 = true)
    (hshed : s.shedLevel < 2) (hcore : s.anyCore = true) (hup : s.macUp p = true) : Gives (.discoveryAnnounce p) s fun u =>
      (∃ l, (u.mac p).strmQ = l ++ [(0, Config.firmwareFrame s.free
        [(sget (0, 0) s.house.disc p).1, (sget (0, 0) s.house.disc p).2])]) ∧ u.mem = s.mem := by
  refine (gives_iff_of_done (t := s.discAnnounce p) rfl).2 ?_
  have heq : s.discAnnounce p = State.offerFrame { s with free := s.free + 1 } p 0 (Config.firmwareFrame s.free
      [(sget (0, 0) s.house.disc p).1, (sget (0, 0) s.house.disc p).2]) := by
    rw [State.discAnnounce, if_pos (by rw [hon, hcore, decide_eq_true hshed]; rfl)]
    rfl
  rw [heq]
  obtain ⟨hq, hmem⟩ := offerFrame_up (s := { s with free := s.free + 1 }) (n := p) hup 0 (Config.firmwareFrame s.free
    [(sget (0, 0) s.house.disc p).1, (sget (0, 0) s.house.disc p).2])
  exact ⟨⟨_, hq⟩, hmem⟩

theorem discAnnounce_shed {s : State} {p : Nat} (h : 2 ≤ s.shedLevel) : s.discAnnounce p = s := by
  rw [State.discAnnounce, if_neg (by simp [Nat.not_lt.2 h])]

theorem ptpSend_none {s : State} {p : Nat} (k : PtpMsg) (h : 5 ≤ s.shedLevel ∨ s.ptpInst p = none) : s.ptpSend p k = s := by
  unfold State.ptpSend
  split
  · next i hi =>
    have hshed : 5 ≤ s.shedLevel := h.resolve_right (by rw [hi]; exact Option.some_ne_none i)
    have hruns : s.ptpRuns = false := by simp [State.ptpRuns, Nat.not_lt.2 hshed]
    rw [if_neg (by simp [hruns])]
  · rfl

theorem ptpReportIn_none {s : State} {p : Nat} {offset : Int} {cls acc : Nat} (h : 5 ≤ s.shedLevel ∨ s.ptpInst p = none) :
    s.ptpReportIn p offset cls acc = s := by
  unfold State.ptpReportIn
  split
  · next i hi =>
    have hshed : 5 ≤ s.shedLevel := h.resolve_right (by rw [hi]; exact Option.some_ne_none i)
    have hruns : s.ptpRuns = false := by simp [State.ptpRuns, Nat.not_lt.2 hshed]
    rw [if_neg (by simp [hruns])]
  · rfl

end Sys2Proof

namespace Sys2Proof

open Sys2Proof.Machine

/-! PTP's report of its offset, and the step of the STC (R290, R294, R308). -/

theorem sget_map_value {α : Type} (d : α) (f : α → α) {m : List (Nat × α)} {k : Nat} (h : k ∈ m.map Prod.fst) :
    sget d (m.map (fun x => (x.1, f x.2))) k = f (sget d m k) := by
  induction m with
  | nil => simp at h
  | cons a m ih =>
    obtain ⟨j, v⟩ := a
    rw [List.map_cons, sget_cons, sget_cons]
    split
    · rfl
    · next hne =>
      simp only [List.map_cons, List.mem_cons] at h
      exact ih (h.resolve_left fun e => hne e.symm)

/-- What a report leaves of the port's offsets. -/
def reported (s : State) (p : Nat) (offset : Int) (cls acc : Nat) : PtpRep :=
  { seen := true, last := s.now, offset := offset, cls := cls, acc := acc, lost := false, stcAt := some s.stc,
    y := s.ptpY p offset cls acc }

/-- The report of the reference in use from its grandmaster, 1 ms off or more while the frame stands still. -/
def Steps (s : State) (p : Nat) (offset : Int) (cls acc : Nat) : Prop :=
  ∃ x, s.safSel = some x ∧ s.refSrc x = 1 ∧ s.refIx x = p ∧ s.rdB STC_CTRL 0 = true ∧ s.running = false ∧
    1000000 < offset.natAbs ∧ ((s.ptpRep p).stcAt = none ∨ ((s.ptpRep p).cls = cls ∧ (s.ptpRep p).acc = acc))

/-- A report that steps nothing is kept, and nothing else changes. -/
theorem ptpReport_kept {s : State} {p : Nat} {offset : Int} {cls acc : Nat} (h : ¬ Steps s p offset cls acc) :
    s.ptpReport p offset cls acc = s.setPtpRep p (reported s p offset cls acc) := by
  unfold State.ptpReport
  dsimp only
  split
  · next x hx =>
    rw [if_neg]
    · rfl
    · intro hc
      simp only [Bool.and_eq_true, Bool.or_eq_true, decide_eq_true_eq, Bool.not_eq_true', Option.isNone_iff_eq_none] at hc
      obtain ⟨⟨⟨⟨⟨hsame, hsrc⟩, hix⟩, hauto⟩, hstop⟩, hoff⟩ := hc
      exact h ⟨x, hx, hsrc, hix, hauto, hstop, hoff, hsame⟩
  · rfl

theorem ptpReport_steps {s : State} {p : Nat} {offset : Int} {cls acc : Nat} (h : Steps s p offset cls acc) :
    s.ptpReport p offset cls acc =
      (s.setPtpRep p (reported s p offset cls acc)).setStc ((s.stc : Int) - offset * 1000000000000).toNat := by
  obtain ⟨x, hx, hsrc, hix, hauto, hstop, hoff, hsame⟩ := h
  have hsel : (s.setPtpRep p (reported s p offset cls acc)).safSel = some x := hx
  have hcond : ((s.ptpRep p).stcAt.isNone || (decide ((s.ptpRep p).cls = cls) && decide ((s.ptpRep p).acc = acc))) = true := by
    simpa using hsame
  have hrest : (decide ((s.setPtpRep p (reported s p offset cls acc)).refSrc x = 1) &&
      decide ((s.setPtpRep p (reported s p offset cls acc)).refIx x = p) &&
      (s.setPtpRep p (reported s p offset cls acc)).rdB STC_CTRL 0 &&
      !(s.setPtpRep p (reported s p offset cls acc)).running && decide (1000000 < offset.natAbs)) = true := by
    change (decide (s.refSrc x = 1) && decide (s.refIx x = p) && s.rdB STC_CTRL 0 && !s.running &&
      decide (1000000 < offset.natAbs)) = true
    simp [hsrc, hix, hauto, hstop, hoff]
  unfold State.ptpReport
  dsimp only
  change (match (s.setPtpRep p (reported s p offset cls acc)).safSel with | some i => _ | none => _) = _
  rw [hsel]
  refine if_pos ?_
  simp only [Bool.and_eq_true] at hrest ⊢
  exact ⟨⟨⟨⟨⟨hcond, hrest.1.1.1.1⟩, hrest.1.1.1.2⟩, hrest.1.1.2⟩, hrest.1.2⟩, hrest.2⟩

/-- A grandmaster's offset and the time of its report, moved with the STC. -/
def movedRep (d : Int) (x : PtpRep) : PtpRep :=
  { x with offset := x.offset + d / 1000000000000, stcAt := x.stcAt.map (fun u => (u + d).toNat) }

theorem setStc_spec (s : State) (t : Nat) : (s.setStc t).stc = t % (2 ^ 48 * stcSecond) ∧ (s.setStc t).mem = s.mem ∧
    (s.setStc t).house = s.house ∧
    (s.setStc t).saf.ptp = s.saf.ptp.map (fun x => (x.1, movedRep (((t % (2 ^ 48 * stcSecond) : Nat) : Int) - s.stc) x.2)) := by
  unfold State.setStc
  generalize t % (2 ^ 48 * stcSecond) = v
  exact ⟨rfl, rfl, rfl, rfl⟩

/-- What that report leaves in either case. -/
structure Reported (s u : State) (p : Nat) (cls acc : Nat) : Prop where
  cls : (u.ptpRep p).cls = cls
  acc : (u.ptpRep p).acc = acc
  lost : (u.ptpRep p).lost = false
  mem : u.mem = s.mem

theorem reported_kept {s : State} {p : Nat} {offset : Int} {cls acc : Nat} (h : ¬ Steps s p offset cls acc) :
    Reported s (s.ptpReport p offset cls acc) p cls acc ∧ ((s.ptpReport p offset cls acc).ptpRep p).offset = offset ∧
    (s.ptpReport p offset cls acc).stc = s.stc := by
  rw [ptpReport_kept h]
  have hrep := ptpRep_setPtpRep_same s p (reported s p offset cls acc)
  exact ⟨⟨by rw [hrep]; rfl, by rw [hrep]; rfl, by rw [hrep]; rfl, rfl⟩, by rw [hrep]; rfl, rfl⟩

theorem reported_listed (s : State) (p : Nat) (offset : Int) (cls acc : Nat) :
    p ∈ (s.setPtpRep p (reported s p offset cls acc)).saf.ptp.map Prod.fst := by
  refine listed_of_sget_ne (d := ({} : PtpRep)) fun h => ?_
  have hrep : sget {} (s.setPtpRep p (reported s p offset cls acc)).saf.ptp p = reported s p offset cls acc :=
    ptpRep_setPtpRep_same s p _
  have hat := congrArg PtpRep.stcAt (hrep.symm.trans h)
  exact Option.some_ne_none _ hat

/-- The offset that was stepped is gone (R294). -/
theorem reported_stepped {s : State} {p : Nat} {offset : Int} {cls acc : Nat} (h : Steps s p offset cls acc) :
    Reported s (s.ptpReport p offset cls acc) p cls acc ∧
    (0 ≤ (s.stc : Int) - offset * 1000000000000 → (s.stc : Int) - offset * 1000000000000 < 2 ^ 48 * stcSecond →
      ((s.ptpReport p offset cls acc).stc : Int) = (s.stc : Int) - offset * 1000000000000 ∧
      ((s.ptpReport p offset cls acc).ptpRep p).offset = 0) := by
  rw [ptpReport_steps h]
  have hlisted := reported_listed s p offset cls acc
  have hrep : sget {} (s.setPtpRep p (reported s p offset cls acc)).saf.ptp p = reported s p offset cls acc :=
    ptpRep_setPtpRep_same s p _
  have hbefore : (s.setPtpRep p (reported s p offset cls acc)).stc = s.stc := rfl
  have hmem : (s.setPtpRep p (reported s p offset cls acc)).mem = s.mem := rfl
  generalize s.setPtpRep p (reported s p offset cls acc) = t at *
  obtain ⟨hstc, hkept, -, hptp⟩ := setStc_spec t ((s.stc : Int) - offset * 1000000000000).toNat
  generalize t.setStc ((s.stc : Int) - offset * 1000000000000).toNat = u at *
  have hmoved : u.ptpRep p = movedRep ((((((s.stc : Int) - offset * 1000000000000).toNat % (2 ^ 48 * stcSecond) : Nat)) : Int) - t.stc)
      (reported s p offset cls acc) := by
    rw [State.ptpRep, hptp, sget_map_value _ _ hlisted, hrep]
  refine ⟨⟨by rw [hmoved]; rfl, by rw [hmoved]; rfl, by rw [hmoved]; rfl, hkept.trans hmem⟩, fun hlo hhi => ?_⟩
  have hnat : ((((s.stc : Int) - offset * 1000000000000).toNat % (2 ^ 48 * stcSecond) : Nat) : Int) =
      (s.stc : Int) - offset * 1000000000000 := by
    rw [Nat.mod_eq_of_lt (by omega)]
    exact Int.toNat_of_nonneg hlo
  refine ⟨(congrArg Nat.cast hstc).trans hnat, ?_⟩
  rw [hmoved, hnat, hbefore]
  change offset + ((s.stc : Int) - offset * 1000000000000 - s.stc) / 1000000000000 = 0
  omega

theorem setPtpInst_keeps (s : State) (p : Nat) (x : Option PtpInst) : (s.setPtpInst p x).stc = s.stc ∧
    (s.setPtpInst p x).mem = s.mem ∧ (s.setPtpInst p x).ptpRep p = s.ptpRep p := ⟨rfl, rfl, rfl⟩

theorem gives_ptpOffsetReport {s : State} {p : Fin 2} {offset : Int} {cls acc : BitVec 8} {i : PtpInst}
    (hinst : s.ptpInst p = some i) (hcore : s.anyCore = true) (hshed : s.shedLevel < 5) :
    Gives (.ptpOffsetReport p offset cls acc) s fun u =>
      (s.rdB STC_CTRL 0 = false ∨ s.running = true → (u.ptpRep p).offset = offset ∧ u.stc = s.stc) ∧
      ((s.ptpRep p).stcAt.isSome = true → (s.ptpRep p).cls ≠ cls.toNat ∨ (s.ptpRep p).acc ≠ acc.toNat →
        (u.ptpRep p).offset = offset ∧ u.stc = s.stc) ∧
      (∀ x : Nat, s.safSel = some x → s.refSrc x = 1 → s.refIx x = p.val → s.rdB STC_CTRL 0 = true → s.running = false →
        1000000 < offset.natAbs → (s.ptpRep p).stcAt = none ∨ ((s.ptpRep p).cls = cls.toNat ∧ (s.ptpRep p).acc = acc.toNat) →
        0 ≤ (s.stc : Int) - offset * 1000000000000 → (s.stc : Int) - offset * 1000000000000 < 2 ^ 48 * stcSecond →
        (u.stc : Int) = (s.stc : Int) - offset * 1000000000000 ∧ (u.ptpRep p).offset = 0) ∧
      (u.ptpRep p).cls = cls.toNat ∧ (u.ptpRep p).acc = acc.toNat ∧
      (u.ptpRep p).lost = false ∧ u.mem = s.mem ∧
      u.ptpInst p = some { i with starting := false, state := 2, known := true, offset := offset, cls := cls.toNat,
                                  acc := acc.toNat } := by
  have hruns : s.ptpRuns = true := by simp [State.ptpRuns, hcore, hshed]
  refine (gives_iff_of_done (t := s.ptpReportIn p offset cls.toNat acc.toNat) rfl).2 ?_
  have heq : s.ptpReportIn p offset cls.toNat acc.toNat = (s.ptpReport p offset cls.toNat acc.toNat).setPtpInst p
      (some { i with starting := false, state := 2, known := true, offset := offset, cls := cls.toNat, acc := acc.toNat }) := by
    rw [State.ptpReportIn, hinst]
    exact if_pos hruns
  rw [heq]
  have hboth : Reported s (s.ptpReport p offset cls.toNat acc.toNat) p cls.toNat acc.toNat := by
    by_cases hsteps : Steps s p offset cls.toNat acc.toNat
    · exact (reported_stepped hsteps).1
    · exact (reported_kept hsteps).1
  have hkept := fun h => (reported_kept (s := s) (p := p) (offset := offset) (cls := cls.toNat) (acc := acc.toNat) h).2
  have hstepped := fun h => (reported_stepped (s := s) (p := p) (offset := offset) (cls := cls.toNat) (acc := acc.toNat) h).2
  generalize s.ptpReport p offset cls.toNat acc.toNat = v at *
  obtain ⟨hcls, hacc, hlost, hmem⟩ := hboth
  refine ⟨fun h => hkept fun hsteps => ?_, fun hsome hdiff => hkept fun hsteps => ?_, fun x hx hsrc hix hauto hstop hoff hsame hlo hhi =>
    hstepped ⟨x, hx, hsrc, hix, hauto, hstop, hoff, hsame⟩ hlo hhi, hcls, hacc, hlost, hmem,
    (ptpInst_settle _ _).trans (ptpInst_setPtpInst v p _)⟩
  · obtain ⟨-, -, -, -, hauto, hstop, -⟩ := hsteps
    rcases h with h | h
    · rw [hauto] at h; cases h
    · rw [hstop] at h; cases h
  · obtain ⟨-, -, -, -, -, -, -, hnone | ⟨hc, ha⟩⟩ := hsteps
    · rw [hnone] at hsome; cases hsome
    · exact hdiff.elim (fun h => h hc) (fun h => h ha)

/-- Settles O51, a duty at a time. -/
theorem houseDuties : Obligations.HouseDuties := by
  unfold Obligations.HouseDuties
  refine ⟨gives_shedLevelRise, gives_shedLevelFall, fun s c hruns => gives_houseWatchdogReset hruns,
    fun s c hboots hready => gives_houseCoreRunning hboots hready,
    fun s p k i hinst hcore hshed hsends hup => gives_ptpMessageSend hinst hcore hshed hsends hup,
    fun s p k h => (gives_iff_of_done (t := s.ptpSend p k) rfl).2 ?_,
    fun s p hon hshed hcore hup => gives_discoveryAnnounce hon hshed hcore hup,
    fun s p hshed => (gives_iff_of_done (t := s.discAnnounce p) rfl).2 ?_,
    fun s p offset cls acc i hinst hcore hshed => gives_ptpOffsetReport hinst hcore hshed,
    fun s p offset cls acc h => (gives_iff_of_done (t := s.ptpReportIn p offset cls.toNat acc.toNat) rfl).2 ?_⟩
  · rw [ptpSend_none k h]
    exact OnlyRegs.settle s
  · rw [discAnnounce_shed hshed]
    exact OnlyRegs.settle s
  · rw [ptpReportIn_none h]
    exact OnlyRegs.settle s

end Sys2Proof

namespace Sys2Proof

open Sys2Proof.Machine

/-! What the master ports leave when they take transactions (R191, R330): of the registers, all but the counters of the
capture of mirrored writes and of held transactions. -/

/-- The counters and flags that a transaction's acceptance moves. -/
def portCounters : List Reg :=
  [ANI_WSEQ, ANI_SBWR_CNT, ANI_INT, MXM_HOLD_CNT] ++ (upTo 4).map MAC_TXLINKDN_CNT ++ (upTo 4).map DNG_L_RETRY_CNT

/-- An address of none of them. -/
abbrev PortsKeep (a : Nat) : Prop := a ∉ portCounters.map Reg.addr

theorem mem_portCounters_mac {n : Nat} (hn : n < 4) : MAC_TXLINKDN_CNT n ∈ portCounters :=
  List.mem_append_left _ (List.mem_append_right _ (List.mem_map_of_mem (List.mem_range.2 hn)))

theorem mem_portCounters_dng {n : Nat} (hn : n < 4) : DNG_L_RETRY_CNT n ∈ portCounters :=
  List.mem_append_right _ (List.mem_map_of_mem (List.mem_range.2 hn))

/-- Where the counters stand. -/
theorem addr_portCounters : ∀ a ∈ portCounters.map Reg.addr, 0x50090000 ≤ a ∧ a < 0x500F0000 := by decide

theorem portsKeep_of_addr {a : Nat} (h : a < 0x50090000 ∨ 0x500F0000 ≤ a) : PortsKeep a := fun hmem => by
  have hrange := addr_portCounters a hmem
  omega

/-- The state with what the ports change as in another. -/
def withPorts (s u : State) : State :=
  { s with regs := u.regs, ani := u.ani, dng := u.dng, macs := u.macs, free := u.free, bmx := u.bmx, portWait := u.portWait }

/-- Nothing changes but the ports' queues, what Anise sends and holds, and those counters. -/
structure PortsAlone (s u : State) : Prop where
  only : u = withPorts s u
  keeps : KeepsAt PortsKeep s u

namespace PortsAlone

variable {s t u : State}

theorem refl (s : State) : PortsAlone s s := ⟨rfl, .refl s⟩

theorem trans (h : PortsAlone s t) (k : PortsAlone t u) : PortsAlone s u :=
  ⟨k.only.trans (congrArg (fun x => withPorts x u) h.only : withPorts t u = withPorts (withPorts s t) u), h.keeps.trans k.keeps⟩

theorem after (k : PortsAlone t u) (h : PortsAlone s t) : PortsAlone s u := h.trans k

theorem mem (h : PortsAlone s u) : u.mem = s.mem := by rw [h.only]; rfl

theorem dma (h : PortsAlone s u) : u.dma = s.dma := by rw [h.only]; rfl

theorem hif (h : PortsAlone s u) : u.hif = s.hif := by rw [h.only]; rfl

theorem reqs (h : PortsAlone s u) : u.reqs = s.reqs := by rw [h.only]; rfl

theorem nextReq (h : PortsAlone s u) : u.nextReq = s.nextReq := by rw [h.only]; rfl

theorem pwr (h : PortsAlone s u) : u.pwr = s.pwr := by rw [h.only]; rfl

theorem stc (h : PortsAlone s u) : u.stc = s.stc := by rw [h.only]; rfl

/-- A change of no register. -/
theorem quiet (hregs : u.regs = s.regs) (h : u = withPorts s u) : PortsAlone s u := ⟨h, .of_regs hregs⟩

/-- A counter moves. -/
theorem counts {r : Reg} (hr : r ∈ portCounters) (v : Word) : PortsAlone s (s.wr r v) :=
  ⟨rfl, (KeepsAt.refl s).wr (not_not_intro (List.mem_map_of_mem hr)) v⟩

theorem each {α : Type} {f : State → α → State} (h : ∀ s x, PortsAlone s (f s x)) (l : List α) (s : State) :
    PortsAlone s (s.each l f) := by
  induction l generalizing s with
  | nil => exact refl s
  | cons x l ih => exact (h s x).trans (ih (f s x))

theorem dngSend {n : Nat} (hn : n < 4) (s : State) (f : DngOut) : PortsAlone s (s.dngSend n f) := by
  unfold State.dngSend
  split
  · exact refl s
  · exact ((quiet rfl rfl).trans (counts (mem_portCounters_dng hn) _)).trans (quiet rfl rfl)

theorem dngMirror {n : Nat} (hn : n < 4) (s : State) (bs : List Byte) : PortsAlone s (s.dngMirror n bs) := by
  unfold State.dngMirror
  split
  · exact each (fun s p => dngSend hn s _) _ s
  · exact refl s

theorem macMirror {n : Nat} (hn : n < 4) (s : State) (bs : List Byte) : PortsAlone s (s.macMirror n bs) := by
  unfold State.macMirror
  refine each (fun s p => ?_) _ s
  dsimp only
  split
  · exact quiet rfl rfl
  · exact counts (mem_portCounters_mac hn) _

theorem aniSend (s : State) (x : AniItem) : PortsAlone s (s.aniSend x) := by
  unfold State.aniSend State.aniOut
  have hport : ∀ t : State, t.rdF ANI_CTRL 5 4 < 4 := fun t => rdF_lt t ANI_CTRL 5 4
  split
  · exact quiet rfl rfl
  · dsimp only
    split
    · exact (macMirror (hport _) _ _).after (quiet rfl rfl)
    · exact (dngMirror (hport _) _ _).after (quiet rfl rfl)

theorem aniCapture (s : State) (x : AniItem) : PortsAlone s (s.aniCapture x) :=
  ((aniSend s x).trans (counts (r := ANI_WSEQ) (by decide) _)).trans (quiet rfl rfl)

theorem aniDiscard (s : State) : PortsAlone s s.aniDiscard :=
  (counts (r := ANI_SBWR_CNT) (by decide) _).trans (counts (r := ANI_INT) (by decide) _)

theorem mirrorWrite (s : State) (t : Txn) : PortsAlone s (s.mirrorWrite t) := by
  unfold State.mirrorWrite
  split
  · exact aniDiscard s
  · refine each (fun s b => ?_) _ s
    split
    · exact refl s
    · exact aniCapture _ _

theorem mxmHold (s : State) : PortsAlone s s.mxmHold := by
  unfold State.mxmHold
  refine each (fun s x => ?_) _ s
  refine PortsAlone.trans (t := s.count MXM_HOLD_CNT) ?_ (quiet rfl rfl)
  exact counts (r := MXM_HOLD_CNT) (by decide) _

theorem acceptTxn (s : State) (t : Txn) (o : Origin) : PortsAlone s (s.acceptTxn t o) := by
  unfold State.acceptTxn
  extract_lets m c seq s₁ broke bmx₁ s₂ mir s₃ tgt x bmx₃
  split
  · refine PortsAlone.trans (t := s₃) ?_ ((mxmHold _).after (quiet rfl rfl))
    have h₁ : PortsAlone s s₁ := by
      dsimp only [s₁]
      split <;> exact quiet rfl rfl
    have h₂ : PortsAlone s₁ s₂ := by
      dsimp only [s₂]
      split <;> exact quiet rfl rfl
    have h₃ : PortsAlone s₂ s₃ := by
      dsimp only [s₃]
      split
      · exact (mirrorWrite s₂ t).trans (quiet rfl rfl)
      · exact refl s₂
    exact (h₁.trans h₂).trans h₃
  · exact refl s

theorem portPump (n : Nat) (s : State) : PortsAlone s (State.portPump n s) := by
  induction n generalizing s with
  | zero => exact refl s
  | succ n ih =>
    unfold State.portPump
    split
    · exact refl s
    · exact (ih _).after ((acceptTxn _ _ _).after (quiet rfl rfl))

theorem portGo (s : State) : PortsAlone s s.portGo := portPump _ _

end PortsAlone

end Sys2Proof

namespace Sys2Proof

open Sys2Proof.Machine

/-! What the evaluation of the interrupt vectors leaves of the host interface (R353). -/

/-- Messages are sent and pending bits set, and the vectors' conditions noted; nothing else changes. -/
def Signals (h g : Hif) : Prop :=
  ∃ p q msgs cond, g = { h with pf0 := { h.pf0 with pending := h.pf0.pending ++ p },
                                pf1 := { h.pf1 with pending := h.pf1.pending ++ q },
                                msgs := h.msgs ++ msgs, cond := cond }

namespace Signals

theorem noted (h : Hif) (c : List Nat) : Signals h { h with cond := c } :=
  ⟨[], [], [], c, by simp only [List.append_nil]⟩

theorem trans {h g k : Hif} (a : Signals h g) (b : Signals g k) : Signals h k := by
  obtain ⟨p, q, m, c, rfl⟩ := a
  obtain ⟨p', q', m', c', rfl⟩ := b
  exact ⟨p ++ p', q ++ q', m ++ m', c', by simp only [List.append_assoc]⟩

theorem send (h : Hif) (fn v : Nat) : Signals h (h.send fn v) := by
  unfold Hif.send
  extract_lets m w
  by_cases hpass : m.passes w = true
  · rw [if_pos hpass]
    exact ⟨[], [], [(fn, w)], h.cond, by simp only [List.append_nil]⟩
  · rw [if_neg hpass]
    obtain ⟨x, hx⟩ : ∃ x, (if m.pending.contains w then m.pending else m.pending ++ [w]) = m.pending ++ x := by
      split
      · exact ⟨[], (List.append_nil _).symm⟩
      · exact ⟨_, rfl⟩
    rw [hx]
    by_cases hfn : fn = 0
    · refine ⟨x, [], [], h.cond, ?_⟩
      simp [m, Hif.setMsix, Hif.msix, hfn]
    · refine ⟨[], x, [], h.cond, ?_⟩
      simp [m, Hif.setMsix, Hif.msix, hfn]

theorem vecHif (s : State) : Signals s.hif s.vecHif := by
  unfold State.vecHif
  refine Signals.trans (noted s.hif []) ?_
  generalize ({ s.hif with cond := [] } : Hif) = h
  generalize vectors = l
  induction l generalizing h with
  | nil => exact noted h h.cond
  | cons v l ih =>
    refine Signals.trans ?_ (ih _)
    refine Signals.trans ?_ (noted _ _)
    split
    · exact send _ _ _
    · exact noted h h.cond

end Signals

theorem signals_settle (s : State) : Signals s.hif s.settle.hif := .vecHif s

theorem asked_settle (s : State) : s.settle.hif.asked = s.hif.asked := by
  obtain ⟨p, q, m, c, h⟩ := signals_settle s
  rw [h]

theorem wrote_settle (s : State) : s.settle.hif.wrote = s.hif.wrote := by
  obtain ⟨p, q, m, c, h⟩ := signals_settle s
  rw [h]

end Sys2Proof

namespace Sys2Proof

open Sys2Proof.Machine

/-! A DMA channel's transaction joins its master's queue (R191, R363). -/

/-- A port with a place takes a transaction with the origin that it has. -/
theorem acceptTxn_origin {s : State} {t : Txn} (o : Origin) (hfree : s.portFree t.master.val = true) :
    ∃ x ∈ (s.acceptTxn t o).bmx.txns,
      x.id = s.bmx.nextId ∧ x.txn = t ∧ x.origin = o ∧ x.cause = s.acceptCause t := by
  unfold State.acceptTxn
  extract_lets m c seq s₁ broke bmx₁ s₂ mir s₃ tgt x bmx₃
  rw [if_pos hfree]
  have h₁ : KeepsQueues s s₁ := by
    dsimp only [s₁]
    split <;> exact ⟨rfl, rfl, rfl⟩
  have h₂ : KeepsQueues s₁ s₂ := by
    dsimp only [s₂]
    split <;> exact ⟨rfl, rfl, rfl⟩
  have h₃ : KeepsQueues s₂ s₃ := by
    dsimp only [s₃]
    split
    · exact (KeepsQueues.mirrorWrite s₂ t).trans ⟨rfl, rfl, rfl⟩
    · exact .refl s₂
  have hnext : x.id = s.bmx.nextId := ((h₁.trans h₂).trans h₃).nextId
  exact exists_mem_mxmHold (x := x) (List.mem_append_right _ List.mem_cons_self) fun _ => ⟨hnext, rfl, rfl, rfl⟩

/-- The turn of a unit passes on from a channel. -/
def dmaTurned (s : State) (n c : Nat) : State :=
  { s with dma := sset {} s.dma n { s.dmaUnit n with turn := (c + 1) % dmaChans n } }

theorem dmaCh_setDmaCh (s : State) (n c : Nat) (x : DmaCh) : (s.setDmaCh n c x).dmaCh n c = x := by
  simp [State.dmaCh, State.dmaUnit, State.setDmaCh]

theorem dmaCh_congr {s u : State} (h : u.dma = s.dma) (n c : Nat) : u.dmaCh n c = s.dmaCh n c := by
  rw [State.dmaCh, State.dmaUnit, h]; rfl

theorem dmaCh_dmaTurned (s : State) (n c k : Nat) : (dmaTurned s n c).dmaCh n k = s.dmaCh n k := by
  simp [State.dmaCh, State.dmaUnit, dmaTurned]

theorem turn_dmaTurned (s : State) (n c : Nat) : ((dmaTurned s n c).dmaUnit n).turn = (c + 1) % dmaChans n := by
  simp [State.dmaUnit, dmaTurned]

theorem dmaIssue_open {s : State} {n c : Nat} (h : DmaOpen s n c) (host : List Byte) :
    s.dmaIssue n host = dmaTurned (s.dmaTxn n c host) n c := by
  obtain ⟨hnext, hopen⟩ := h
  rw [State.dmaIssue, hnext]
  exact if_pos hopen

/-- The master of a channel's transactions. -/
theorem master_dmaReq (s : State) {n : Nat} (hn : n < 5) (c : Nat) : (s.dmaReq n c).master.val = dmaMaster n := by
  unfold State.dmaReq dmaMaster
  split
  · rfl
  · exact Nat.mod_eq_of_lt (by omega)

theorem portFree_of_dmaOpen {s : State} {n c : Nat} (h : DmaOpen s n c) : s.portFree (dmaMaster n) = true :=
  (Bool.and_eq_true_iff.1 h.2).1

/-- What a channel sends, and what the host side keeps. -/
theorem dmaSend_spec {s : State} {n c : Nat} (hn : n < 5) (hfree : s.portFree (dmaMaster n) = true) (write : Bool) (a : Nat)
    (bytes : List Byte) (k : DmaStep) :
    DmaSent s (dmaTurned (s.dmaSend n c write a bytes k) n c).settle n c
      (runTxn (s.dmaReq n c) write false a (bytes.map (fun b => (b, true)))) k ∧
    (s.dmaSend n c write a bytes k).hif = s.hif := by
  set v := s.setDmaCh n c { s.dmaCh n c with busy := some s.bmx.nextId }
  set t := runTxn (s.dmaReq n c) write false a (bytes.map (fun b => (b, true)))
  have hmaster : t.master.val = dmaMaster n := master_dmaReq s hn c
  have hvfree : v.portFree t.master.val = true := by
    rw [hmaster]
    exact hfree
  obtain ⟨x, hx, hid, htxn, horigin, hcause⟩ := acceptTxn_origin (.dma n c s.bmx.nextId k) hvfree
  have hports := (PortsAlone.acceptTxn v t (.dma n c s.bmx.nextId k))
  have hsend : s.dmaSend n c write a bytes k = v.acceptTxn t (.dma n c s.bmx.nextId k) := rfl
  rw [hsend]
  generalize v.acceptTxn t (.dma n c s.bmx.nextId k) = u at *
  have hdma : u.dma = v.dma := hports.dma
  refine ⟨⟨?_, ?_, ?_, x, hx, hid, htxn, horigin, hcause⟩, hports.hif⟩
  · have hch : (dmaTurned u n c).settle.dmaCh n c = v.dmaCh n c :=
      ((dmaCh_congr rfl n c).trans (dmaCh_dmaTurned u n c c)).trans (dmaCh_congr hdma n c)
    rw [hch, dmaCh_setDmaCh]
  · exact turn_dmaTurned u n c
  · exact hports.mem

/-! What a channel's turn issues (R363, R364). -/

theorem dmaTxn_stop {s : State} {n c st er : Nat} (h : (s.dmaCh n c).stop = some (st, er)) (host : List Byte) :
    s.dmaTxn n c host = s.dmaBack n c st er := by
  simp [State.dmaTxn, h]

theorem dmaTxn_abort_late {s : State} {n c : Nat} (hstop : (s.dmaCh n c).stop = none)
    (habort : (s.dmaCh n c).abort = true) (hbuf : (s.dmaCh n c).buf = [])
    (hlast : (descOf (s.dmaCh n c).desc).last = true)
    (hlen : (descOf (s.dmaCh n c).desc).len ≤ s.dmaMoved n c) (host : List Byte) :
    s.dmaTxn n c host = s.dmaBack n c 3 0 := by
  have hdesc : (s.dmaCh n c).desc ≠ [] := fun e => absurd (e ▸ hlast) (by decide)
  simp [State.dmaTxn, hstop, habort, hbuf, hlast, hlen, hdesc]

theorem dmaTxn_abort_early {s : State} {n c : Nat} (hstop : (s.dmaCh n c).stop = none)
    (habort : (s.dmaCh n c).abort = true) (hbuf : (s.dmaCh n c).buf = [])
    (hmore : (descOf (s.dmaCh n c).desc).last = false ∨ s.dmaMoved n c < (descOf (s.dmaCh n c).desc).len)
    (host : List Byte) : s.dmaTxn n c host = s.dmaBack n c 2 1 := by
  have hdone : ((descOf (s.dmaCh n c).desc).last && decide ((descOf (s.dmaCh n c).desc).len ≤ s.dmaMoved n c)) = false := by
    rcases hmore with h | h
    · rw [h, Bool.false_and]
    · rw [decide_eq_false (Nat.not_le.2 h), Bool.and_false]
  simp [State.dmaTxn, hstop, habort, hbuf, hdone]

/-- A channel goes on where no abort takes effect before its next transaction. -/
theorem dmaTxn_going {s : State} {n c : Nat} (hstop : (s.dmaCh n c).stop = none)
    (h : (s.dmaCh n c).abort = false ∨ (s.dmaCh n c).buf ≠ []) (host : List Byte) : s.dmaTxn n c host =
      if (s.dmaCh n c).desc.isEmpty then s.dmaSend n c false (s.rd (dmaReg n c 2)).toNat (List.replicate 32 0) .fetch
      else if (descOf (s.dmaCh n c).desc).len ≤ s.dmaMoved n c then s.dmaBack n c 1 0
      else s.dmaMove n c (descOf (s.dmaCh n c).desc) host := by
  have hgo : ((s.dmaCh n c).abort && (s.dmaCh n c).buf.isEmpty) = false := by
    rcases h with h | h
    · rw [h, Bool.false_and]
    · rw [List.isEmpty_eq_false_iff.2 h, Bool.and_false]
  simp [State.dmaTxn, hstop, hgo]

theorem dmaTxn_moves {s : State} {n c : Nat} (hstop : (s.dmaCh n c).stop = none)
    (h : (s.dmaCh n c).abort = false ∨ (s.dmaCh n c).buf ≠ []) (hdesc : (s.dmaCh n c).desc ≠ [])
    (hmoved : s.dmaMoved n c < (descOf (s.dmaCh n c).desc).len) (host : List Byte) :
    s.dmaTxn n c host = s.dmaMove n c (descOf (s.dmaCh n c).desc) host := by
  rw [dmaTxn_going hstop h, List.isEmpty_eq_false_iff.2 hdesc, if_neg (by decide), if_neg (by omega)]

/-- The state with a read of host memory asked for. -/
def hostAsked (s : State) (n c a k : Nat) : State :=
  { s with hif := { s.hif with asked := s.hif.asked ++ [(b2n (s.dmaReq n c).guest, a, k)] } }

theorem dmaMove_short {s : State} {n c : Nat} {d : Desc} (hbuf : (s.dmaCh n c).buf = []) (hsrc : d.srcHost = true)
    {host : List Byte} (h : host.length < d.step (s.dmaMoved n c)) : s.dmaMove n c d host =
      (hostAsked s n c (d.src + s.dmaMoved n c) (d.step (s.dmaMoved n c))).dmaBack n c 2 2 := by
  simp [State.dmaMove, hbuf, hsrc, hostAsked, h]

theorem dmaMove_whole {s : State} {n c : Nat} {d : Desc} (hbuf : (s.dmaCh n c).buf = []) (hsrc : d.srcHost = true)
    {host : List Byte} (h : d.step (s.dmaMoved n c) ≤ host.length) : s.dmaMove n c d host =
      ((hostAsked s n c (d.src + s.dmaMoved n c) (d.step (s.dmaMoved n c))).setDmaCh n c
        { s.dmaCh n c with buf := host.take (d.step (s.dmaMoved n c)) }).dmaSend n c true
          (d.dst + s.dmaMoved n c) (host.take (d.step (s.dmaMoved n c))) .write := by
  simp [State.dmaMove, hbuf, hsrc, hostAsked, Nat.not_lt.2 h]

section Issue

variable {s : State} {n c : Nat}

/-- A unit's turn, where its channel's transaction is a send from a state with the same ports. -/
theorem issue_spec (hn : n < 5) (h : DmaOpen s n c) {v : State} {host : List Byte} {write : Bool} {a : Nat} {bytes : List Byte} {k : DmaStep}
    (htxn : s.dmaTxn n c host = v.dmaSend n c write a bytes k)
    (hv : v.portFree (dmaMaster n) = s.portFree (dmaMaster n)) :
    DmaSent v (s.dmaIssue n host).settle n c (runTxn (v.dmaReq n c) write false a (bytes.map (fun b => (b, true)))) k ∧
    (s.dmaIssue n host).settle.hif.asked = v.hif.asked := by
  obtain ⟨hsent, hhif⟩ := dmaSend_spec hn (hv.trans (portFree_of_dmaOpen h)) write a bytes k (c := c)
  rw [dmaIssue_open h, htxn, asked_settle]
  exact ⟨hsent, congrArg Hif.asked hhif⟩

theorem issue_back (hn : n < 5) (h : DmaOpen s n c) {host : List Byte} {st er : Nat}
    (htxn : s.dmaTxn n c host = s.dmaBack n c st er) :
    DmaSent s (s.dmaIssue n host).settle n c (backTxn s n c st er) (.back st er) := (issue_spec hn h htxn rfl).1

end Issue

/-- What the turn of a unit's channel issues. -/
theorem dmaChannels_issue (s : State) (n : Fin 5) (c : Fin 8) (host : List Byte) (h : DmaOpen s n c) :
    Gives (.dmaTransactionIssue n host) s fun u =>
      let ch := s.dmaCh n c
      let d := descOf ch.desc
      let moved := s.dmaMoved n c
      let k := min (d.len - moved) (min (moveLimit d.srcHost (d.src + moved)) (moveLimit d.dstHost (d.dst + moved)))
      (∀ st er, ch.stop = some (st, er) → DmaSent s u n c (backTxn s n c st er) (.back st er)) ∧
      (ch.stop = none → ch.abort = true → ch.buf = [] →
        (d.last = true → d.len ≤ moved → DmaSent s u n c (backTxn s n c 3 0) (.back 3 0)) ∧
        (d.last = false ∨ moved < d.len → DmaSent s u n c (backTxn s n c 2 1) (.back 2 1))) ∧
      (ch.stop = none → ch.abort = false ∨ ch.buf ≠ [] → ch.desc = [] → DmaSent s u n c
        (runTxn (s.dmaReq n c) false false (s.rd (dmaReg n c 2)).toNat (List.replicate 32 (0, true))) .fetch) ∧
      (ch.stop = none → ch.abort = false ∨ ch.buf ≠ [] → ch.desc ≠ [] → d.len ≤ moved →
        DmaSent s u n c (backTxn s n c 1 0) (.back 1 0)) ∧
      (ch.stop = none → ch.desc ≠ [] → moved < d.len → ch.buf ≠ [] → DmaSent s u n c
        (runTxn (s.dmaReq n c) true false (d.dst + moved) (ch.buf.map (fun b => (b, true)))) .write) ∧
      (ch.stop = none → ch.abort = false → ch.desc ≠ [] → moved < d.len → ch.buf = [] → d.srcHost = false →
        DmaSent s u n c (runTxn (s.dmaReq n c) false false (d.src + moved) (List.replicate k (0, true))) .read) ∧
      (ch.stop = none → ch.abort = false → ch.desc ≠ [] → moved < d.len → ch.buf = [] → d.srcHost = true →
        u.hif.asked = s.hif.asked ++ [(b2n (s.dmaReq n c).guest, d.src + moved, k)] ∧
        (k ≤ host.length → DmaSent s u n c (runTxn (s.dmaReq n c) true false (d.dst + moved)
          ((host.take k).map (fun b => (b, true)))) .write) ∧
        (host.length < k → DmaSent s u n c (backTxn s n c 2 2) (.back 2 2))) := by
  refine (gives_iff_of_done (t := s.dmaIssue n host) rfl).2 ?_
  intro ch d moved k
  have hn := n.isLt
  refine ⟨?_, ?_, ?_, ?_, ?_, ?_, ?_⟩
  · intro st er hstop
    exact issue_back hn h (dmaTxn_stop hstop host)
  · intro hstop habort hbuf
    exact ⟨fun hlast hlen => issue_back hn h (dmaTxn_abort_late hstop habort hbuf hlast hlen host),
      fun hmore => issue_back hn h (dmaTxn_abort_early hstop habort hbuf hmore host)⟩
  · intro hstop hgo hdesc
    have htxn := dmaTxn_going hstop hgo host
    rw [hdesc, if_pos (by decide)] at htxn
    have hsent := (issue_spec hn h htxn rfl).1
    rwa [List.map_replicate] at hsent
  · intro hstop hgo hdesc hlen
    have htxn := dmaTxn_going hstop hgo host
    rw [List.isEmpty_eq_false_iff.2 hdesc, if_neg (by decide), if_pos hlen] at htxn
    exact issue_back hn h htxn
  · intro hstop hdesc hmoved hbuf
    have htxn := dmaTxn_moves hstop (.inr hbuf) hdesc hmoved host
    rw [State.dmaMove, List.isEmpty_eq_false_iff.2 hbuf] at htxn
    exact (issue_spec hn h htxn rfl).1
  · intro hstop habort hdesc hmoved hbuf hsrc
    have htxn := dmaTxn_moves hstop (.inl habort) hdesc hmoved host
    rw [State.dmaMove, hbuf, hsrc] at htxn
    have hsent := (issue_spec hn h htxn rfl).1
    rwa [List.map_replicate] at hsent
  · intro hstop habort hdesc hmoved hbuf hsrc
    have htxn := dmaTxn_moves hstop (.inl habort) hdesc hmoved host
    have hshort := fun hlen => issue_spec hn h (htxn.trans (dmaMove_short hbuf hsrc hlen)) rfl
    have hwhole := fun hlen => issue_spec hn h (htxn.trans (dmaMove_whole hbuf hsrc hlen)) rfl
    exact ⟨(Nat.lt_or_ge host.length k).elim (fun hlen => (hshort hlen).2) (fun hlen => (hwhole hlen).2),
      fun hlen => (hwhole hlen).1, fun hlen => (hshort hlen).1⟩

end Sys2Proof

namespace Sys2Proof

open Sys2Proof.Machine

/-! The registers of a DMA channel (R366, R368). -/

/-- Where a unit's channels stand. -/
def dmaBase (n : Nat) : Nat := if n < 4 then 0x50120000 + 0x400 * n else 0x50100400

theorem addr_dmaReg (n c : Nat) {k : Nat} (hk : k < 5) : (dmaReg n c k).addr = dmaBase n + 0x20 * c + 4 * k := by
  have hcases : k = 0 ∨ k = 1 ∨ k = 2 ∨ k = 3 ∨ k = 4 := by omega
  unfold dmaBase
  rcases hcases with rfl | rfl | rfl | rfl | rfl
  all_goals
    simp only [dmaReg]
    split <;> simp only [CDMA_CH_CTRL, CDMA_CH_DESC, CDMA_CH_CUR, CDMA_CH_STAT, CDMA_CH_MOVED, HIF_CH_CTRL, HIF_CH_DESC,
      HIF_CH_CUR, HIF_CH_STAT, HIF_CH_MOVED]
    all_goals omega

theorem dmaReg_apart (n c : Nat) {j k : Nat} (hj : j < 5) (hk : k < 5) (h : j ≠ k) :
    (dmaReg n c j).addr ≠ (dmaReg n c k).addr := by
  rw [addr_dmaReg n c hj, addr_dmaReg n c hk]
  omega

theorem addr_dmaInt (n : Nat) : (dmaInt n).addr = if n < 4 then 0x50120100 + 0x400 * n else 0x50100030 := by
  unfold dmaInt
  split <;> rfl

section Channel

variable {n c : Nat} (hn : n < 5) (hc : c < dmaChans n)

include hn hc in
theorem dmaInt_apart {k : Nat} (hk : k < 5) : (dmaReg n c k).addr ≠ (dmaInt n).addr := by
  rw [addr_dmaReg n c hk, addr_dmaInt, dmaBase]
  unfold dmaChans at hc
  split <;> split at hc <;> omega

include hc in
theorem dmaChan_lt : c < 8 := by
  unfold dmaChans at hc
  split at hc <;> omega

include hn hc in
theorem portsKeep_dmaReg {k : Nat} (hk : k < 5) : PortsKeep (dmaReg n c k).addr := by
  have hchan := dmaChan_lt hc
  refine portsKeep_of_addr (.inr ?_)
  rw [addr_dmaReg n c hk, dmaBase]
  split <;> omega

include hn in
theorem portsKeep_dmaInt : PortsKeep (dmaInt n).addr := by
  refine portsKeep_of_addr (.inr ?_)
  rw [addr_dmaInt]
  split <;> omega

end Channel

/-! A channel reaches its final status (R363, R364). -/

/-- The word of a channel's final status. -/
theorem finalWord (w : Word) {st er : Nat} (hst : st < 4) (her : er < 16) :
    let v := setBits (setBits (setBit (setBit w 31 true) 0 false) 11 8 er) 5 4 st
    bit v 31 = true ∧ bit v 0 = false ∧ bits v 5 4 = st ∧ bits v 11 8 = er := by
  intro v
  refine ⟨?_, ?_, ?_, ?_⟩
  · simp [v, bit_setBits, bit_setBit_same, bit_setBit_other]
  · simp [v, bit_setBits, bit_setBit_same]
  · rw [bits_setBits_same _ (by omega) (by omega)]
    exact Nat.mod_eq_of_lt hst
  · rw [bits_setBits_apart _ (by omega) (by omega) (by omega), bits_setBits_same _ (by omega) (by omega)]
    exact Nat.mod_eq_of_lt her

/-- The register of a channel's state and outcome takes the final word. -/
def finalStat (s : State) (n c st er : Nat) : State :=
  s.upd (dmaReg n c 3) (fun w => setBits (setBits (setBit (setBit w 31 true) 0 false) 11 8 er) 5 4 st)

theorem dmaFinal_eq (s : State) (n c st er : Nat) : s.dmaFinal n c st er =
    ((finalStat s n c st er).setDmaCh n c {}).raise (dmaInt n) (BitVec.ofNat 32 (2 ^ c)) := rfl

/-- A flag of a channel is set. -/
theorem rdB_raise_chan (s : State) (r : Reg) {c : Nat} (hc : c < 8) :
    (s.raise r (BitVec.ofNat 32 (2 ^ c))).rdB r c = true := by
  have hbit : ∀ k < 8, bit (BitVec.ofNat 32 (2 ^ k)) k = true := by decide
  exact rdB_raise_same s r (hbit c hc)

theorem dmaFinal_spec {s : State} {n c st er : Nat} (hn : n < 5) (hc : c < dmaChans n) (hst : st < 4) (her : er < 16) :
    DmaEnded (s.dmaFinal n c st er) n c st er ∧ (s.dmaFinal n c st er).dmaCh n c = {} ∧
    KeepsAt (fun a => a ≠ (dmaReg n c 3).addr ∧ a ≠ (dmaInt n).addr) s (s.dmaFinal n c st er) := by
  rw [dmaFinal_eq]
  set t := finalStat s n c st er
  have hword : ((t.setDmaCh n c {}).raise (dmaInt n) (BitVec.ofNat 32 (2 ^ c))).rd (dmaReg n c 3) = t.rd (dmaReg n c 3) :=
    State.rd_raise_other _ _ (dmaInt_apart hn hc (by omega))
  have hstat : t.rd (dmaReg n c 3) =
      setBits (setBits (setBit (setBit (s.rd (dmaReg n c 3)) 31 true) 0 false) 11 8 er) 5 4 st := State.rd_upd_same _ _ _
  obtain ⟨hdone, hrun, hstatus, hcause⟩ := finalWord (s.rd (dmaReg n c 3)) hst her
  refine ⟨⟨?_, ?_, ?_, ?_, rdB_raise_chan _ _ (dmaChan_lt hc)⟩, dmaCh_setDmaCh t n c {}, ?_⟩
  · rwa [State.rdB, hword, hstat]
  · rwa [State.rdB, hword, hstat]
  · rwa [State.rdF, hword, hstat]
  · rwa [State.rdF, hword, hstat]
  · have ht : KeepsAt (fun a => a ≠ (dmaReg n c 3).addr ∧ a ≠ (dmaInt n).addr) s t := (KeepsAt.refl s).upd (by simp) _
    exact (ht.trans (.of_regs rfl)).raise (by simp) _

/-! Go and abort (R364). -/

theorem dmaRunning_respond (s : State) (n c : Nat) (v : Word) (e : Bool) :
    (s.respond v e).dmaRunning n c = s.dmaRunning n c := rfl

/-- The word of a go or an abort, with the channel's function as it stands. -/
theorem ctrlWord (b : Bool) (v : Word) : bit (setBit v 8 b) 0 = bit v 0 ∧ bit (setBit v 8 b) 1 = bit v 1 ∧
    bit (setBit v 8 b) 8 = b :=
  ⟨bit_setBit_other v (by decide) b, bit_setBit_other v (by decide) b, bit_setBit_same v (by decide) b⟩

/-- A write to the CTRL of a channel that runs only aborts. -/
theorem dmaCtrl_running {s : State} {n c : Nat} (h : s.dmaRunning n c = true) (q : Req) (d : Word) :
    s.dmaCtrl q n c d = if bit d 1 then s.setDmaCh n c { s.dmaCh n c with abort := true } else s := by
  simp [State.dmaCtrl, h]

/-- The function of a channel, written by the Owner. -/
def chanFn (s : State) (q : Req) (n c : Nat) (d : Word) : State :=
  if n = 4 && !q.guest then s.wrB (dmaReg n c 0) 8 (bit d 8) else s

/-- A channel's registers at its start. -/
def chanGo (s : State) (n c : Nat) : State :=
  ((s.wr (dmaReg n c 2) (s.rd (dmaReg n c 1))).wr (dmaReg n c 4) 0).upd (dmaReg n c 3)
    (fun w => setBit (setBits (setBits w 11 8 0) 5 4 0) 0 true)

theorem dmaCtrl_go {s : State} {n c : Nat} (h : s.dmaRunning n c = false) {d : Word} (hd : bit d 0 = true) (q : Req) :
    s.dmaCtrl q n c d = (chanGo (chanFn s q n c d) n c).setDmaCh n c {} := by
  simp [State.dmaCtrl, h, hd, chanGo, chanFn]

theorem chanGo_spec (s : State) (n c : Nat) :
    (chanGo s n c).rd (dmaReg n c 2) = s.rd (dmaReg n c 1) ∧ (chanGo s n c).rd (dmaReg n c 4) = 0 ∧
    (chanGo s n c).rdB (dmaReg n c 3) 0 = true ∧ (chanGo s n c).rdF (dmaReg n c 3) 5 4 = 0 ∧
    (chanGo s n c).rdF (dmaReg n c 3) 11 8 = 0 ∧ (chanGo s n c).mem = s.mem ∧
    KeepsAt (· ∉ [(dmaReg n c 2).addr, (dmaReg n c 3).addr, (dmaReg n c 4).addr]) s (chanGo s n c) := by
  have hapart := fun {j k : Nat} (hj : j < 5) (hk : k < 5) (h : j ≠ k) => dmaReg_apart n c hj hk h
  set t := (s.wr (dmaReg n c 2) (s.rd (dmaReg n c 1))).wr (dmaReg n c 4) 0
  have hstat : (chanGo s n c).rd (dmaReg n c 3) = setBit (setBits (setBits (t.rd (dmaReg n c 3)) 11 8 0) 5 4 0) 0 true :=
    State.rd_upd_same _ _ _
  refine ⟨?_, ?_, ?_, ?_, ?_, rfl, ?_⟩
  · rw [chanGo, State.rd_upd_other _ _ (hapart (by omega) (by omega) (by omega)),
      State.rd_wr_other _ _ (hapart (by omega) (by omega) (by omega)), State.rd_wr_same]
  · rw [chanGo, State.rd_upd_other _ _ (hapart (by omega) (by omega) (by omega)), State.rd_wr_same]
  · rw [State.rdB, hstat, bit_setBit_same _ (by omega)]
  · rw [State.rdF, hstat, bits_setBit_outside _ (by omega), bits_setBits_same _ (by omega) (by omega)]
    rfl
  · rw [State.rdF, hstat, bits_setBit_outside _ (by omega), bits_setBits_apart _ (by omega) (by omega) (by omega),
      bits_setBits_same _ (by omega) (by omega)]
    rfl
  · exact (((KeepsAt.refl s).wr (by simp) _).wr (by simp) _).upd (by simp) _

theorem dmaChannels_go (s : State) (q : Req) (n : Fin 5) (c : Fin 8) (hc : c.val < dmaChans n)
    (hreach : Reaches s q (dmaReg n c 0)) :
    Gives (.dmaGo q n c) s fun u => u.mem = s.mem ∧
      (s.dmaRunning n c = true → OnlyRegs s u []) ∧
      (s.dmaRunning n c = false → u.rd (dmaReg n c 2) = s.rd (dmaReg n c 1) ∧ u.rd (dmaReg n c 4) = 0 ∧
        u.rdB (dmaReg n c 3) 0 = true ∧ u.rdF (dmaReg n c 3) 5 4 = 0 ∧ u.rdF (dmaReg n c 3) 11 8 = 0 ∧
        u.dmaCh n c = {} ∧ ∀ r : Reg, r.addr ∉ [(dmaReg n c 0).addr, (dmaReg n c 2).addr, (dmaReg n c 3).addr,
          (dmaReg n c 4).addr] → u.rd r = s.rd r) := by
  have hexec : exec (.dmaGo q n c) s = done (s.gated q (dmaReg n c 0) 1#32
      (fun s => s.dmaCtrl q n c (setBit 1#32 8 (s.rdB (dmaReg n c 0) 8)))) := congrArg done (if_pos hc)
  refine gives_gated hexec hreach ?_
  set v := s.respond 0 false
  obtain ⟨hgo, habort, hfn⟩ := ctrlWord (v.rdB (dmaReg n c 0) 8) 1#32
  cases hrun : s.dmaRunning n c with
  | true =>
    have hsame : v.dmaCtrl q n c (setBit 1#32 8 (v.rdB (dmaReg n c 0) 8)) = v :=
      (dmaCtrl_running (s := v) hrun q _).trans (if_neg (by rw [habort]; decide))
    rw [hsame]
    exact ⟨rfl, fun _ => (OnlyRegs.refl v).after_respond, fun h => absurd h (by decide)⟩
  | false =>
    rw [dmaCtrl_go (s := v) hrun (hgo.trans (by decide))]
    set w := chanFn v q n c (setBit 1#32 8 (v.rdB (dmaReg n c 0) 8))
    have hw : RegsAlone (· ≠ (dmaReg n c 0).addr) v w :=
      .ite ((RegsAlone.refl v).wrB (by simp) _ _) (.refl v)
    obtain ⟨hcur, hmoved, hon, hstatus, hcause, hmem, hkeeps⟩ := chanGo_spec w n c
    generalize chanGo w n c = x at *
    have hvmem : w.mem = s.mem := (congrArg State.mem hw.only :)
    refine ⟨hmem.trans hvmem, fun h => absurd h (by decide), fun _ => ⟨hcur.trans ?_, hmoved, hon, hstatus, hcause,
      dmaCh_setDmaCh x n c {}, fun r hr => ?_⟩⟩
    · exact hw.keeps _ (dmaReg_apart n c (by omega) (by omega) (by omega))
    · simp only [List.mem_cons, not_or, List.not_mem_nil, not_false_eq_true, and_true] at hr
      obtain ⟨h0, h2, h3, h4⟩ := hr
      exact (hkeeps r (by simp [h2, h3, h4])).trans (hw.keeps r h0)

theorem dmaChannels_abort (s : State) (q : Req) (n : Fin 5) (c : Fin 8) (hc : c.val < dmaChans n)
    (hreach : Reaches s q (dmaReg n c 0)) (hrun : s.dmaRunning n c = true) :
    Gives (.dmaAbort q n c) s fun u =>
      u.dmaCh n c = { s.dmaCh n c with abort := true } ∧ u.regs = s.regs ∧ u.mem = s.mem := by
  have hexec : exec (.dmaAbort q n c) s = done (s.gated q (dmaReg n c 0) 2#32
      (fun s => s.dmaCtrl q n c (setBit 2#32 8 (s.rdB (dmaReg n c 0) 8)))) := congrArg done (if_pos hc)
  refine gives_gated hexec hreach ?_
  set v := s.respond 0 false
  obtain ⟨-, habort, -⟩ := ctrlWord (v.rdB (dmaReg n c 0) 8) 2#32
  have hset : v.dmaCtrl q n c (setBit 2#32 8 (v.rdB (dmaReg n c 0) 8)) =
      v.setDmaCh n c { v.dmaCh n c with abort := true } :=
    (dmaCtrl_running (s := v) hrun q _).trans (if_pos (habort.trans (by decide)))
  rw [hset]
  exact ⟨dmaCh_setDmaCh v n c _, rfl, rfl⟩

/-- A unit of which no channel runs issues nothing. -/
theorem dmaChannels_idle (s : State) (n : Fin 5) (host : List Byte) (h : ∀ c < dmaChans n, s.dmaRunning n c = false) :
    Gives (.dmaTransactionIssue n host) s fun u => OnlyRegs s u [] := by
  refine (gives_iff_of_done (t := s.dmaIssue n host) rfl).2 ?_
  have hpos : 0 < dmaChans n := by unfold dmaChans; split <;> decide
  have hnone : s.dmaNext n = none := by
    refine List.find?_eq_none.2 fun c hc => ?_
    obtain ⟨i, -, rfl⟩ := List.mem_map.1 hc
    simp [h _ (Nat.mod_lt _ hpos)]
  have hsame : s.dmaIssue n host = s := by rw [State.dmaIssue, hnone]
  rw [hsame]
  exact .settle s

end Sys2Proof

namespace Sys2Proof

open Sys2Proof.Machine

/-! The end of a DMA channel's transaction (R362 to R364). -/

/-- The state with a transaction gone from the Bus Matrix. -/
def txnGone (s : State) (x : BusTxn) : State :=
  { s with bmx := { s.bmx with txns := s.bmx.txns.filter (fun y => y.id != x.id) } }

theorem completeAt_dma {s : State} {t : Nat} {x : BusTxn} {n c token : Nat} {k : DmaStep} (hdone : s.doneAt t = some x)
    (hkilled : x.killed = false) (horigin : x.origin = .dma n c token k) (hbusy : (s.dmaCh n c).busy = some token) :
    s.completeAt t =
      ((txnGone s x).dmaEnd n c k ((readBytes x.txn x.data).map Prod.snd) (x.err != 0)).portGo.mxmHold := by
  have hawait : ((txnGone s x).dmaCh n c).busy = some token := hbusy
  have hend : s.completeAt t = s.endTxn x := by rw [State.completeAt, hdone]
  rw [hend, State.endTxn, hkilled, horigin]
  exact congrArg (fun w : State => w.portGo.mxmHold) (if_pos hawait)

/-- What a channel shows, and memory, are as they were. -/
structure ChanKept (n c : Nat) (e u : State) : Prop where
  chan : u.dmaCh n c = e.dmaCh n c
  reg : ∀ k < 5, u.rd (dmaReg n c k) = e.rd (dmaReg n c k)
  int : u.rd (dmaInt n) = e.rd (dmaInt n)
  mem : u.mem = e.mem
  wrote : u.hif.wrote = e.hif.wrote

section Channel

variable {n c : Nat} (hn : n < 5) (hc : c < dmaChans n)

include hn hc

/-- The ports take what waits, and the channel is as the end left it. -/
theorem chanKept_ports (e : State) : ChanKept n c e e.portGo.mxmHold.settle := by
  have hports := (PortsAlone.portGo e).trans (.mxmHold _)
  generalize e.portGo.mxmHold = u at *
  exact ⟨dmaCh_congr hports.dma n c, fun k hk => hports.keeps _ (portsKeep_dmaReg hn hc hk),
    hports.keeps _ (portsKeep_dmaInt hn), hports.mem, (wrote_settle u).trans (congrArg Hif.wrote hports.hif)⟩

end Channel

namespace ChanKept

variable {n c : Nat} {e u : State} (h : ChanKept n c e u)

include h

theorem moved : u.dmaMoved n c = e.dmaMoved n c := congrArg (bits · 23 0) (h.reg 4 (by omega))

theorem ended {st er : Nat} (k : DmaEnded e n c st er) : DmaEnded u n c st er := by
  obtain ⟨hdone, hrun, hstatus, hcause, hint⟩ := k
  have hstat := h.reg 3 (by omega)
  refine ⟨?_, ?_, ?_, ?_, ?_⟩
  · rwa [State.rdB, hstat]
  · rwa [State.rdB, hstat]
  · rwa [State.rdF, hstat]
  · rwa [State.rdF, hstat]
  · rwa [State.rdB, h.int]

end ChanKept

/-- The bytes moved, as the register takes them. -/
theorem dmaMoved_wrF (s : State) (n c : Nat) {k : Nat} (h : k < 2 ^ 24) : (s.wrF (dmaReg n c 4) 23 0 k).dmaMoved n c = k :=
  (rdF_wrF_same s _ (by omega) (by omega) k).trans (Nat.mod_eq_of_lt h)

/-! A descriptor is written back COMPLETE (R363). -/

/-- A descriptor's flag, where it asks for one. -/
def irqRaised (s : State) (n c : Nat) (d : Desc) : State :=
  if d.irq then s.raise (dmaInt n) (BitVec.ofNat 32 (2 ^ c)) else s

theorem irqRaised_only (s : State) (n c : Nat) (d : Desc) : RegsAlone (· ≠ (dmaInt n).addr) s (irqRaised s n c d) :=
  .ite ((RegsAlone.refl s).raise (by simp) _) (.refl s)

theorem irqRaised_int {s : State} {n c : Nat} {d : Desc} (h : d.irq = true) (hc : c < 8) :
    (irqRaised s n c d).rdB (dmaInt n) c = true := by
  rw [irqRaised, if_pos h]
  exact rdB_raise_chan s _ hc

/-- The channel goes on to the next descriptor. -/
def nextStarted (s : State) (n c : Nat) (d : Desc) : State :=
  ((s.wr (dmaReg n c 2) (BitVec.ofNat 32 (d.next / 32 * 32))).wr (dmaReg n c 4) 0).setDmaCh n c { abort := (s.dmaCh n c).abort }

theorem dmaNextDesc_late {s : State} {n c : Nat} {d : Desc} (hlast : d.last = true) (habort : (s.dmaCh n c).abort = true) :
    s.dmaNextDesc n c d = (irqRaised s n c d).setDmaCh n c { (irqRaised s n c d).dmaCh n c with stop := some (3, 0) } := by
  have hsame : (irqRaised s n c d).dmaCh n c = s.dmaCh n c := dmaCh_congr (congrArg State.dma (irqRaised_only s n c d).only :) n c
  refine if_pos ?_
  show (d.last && ((irqRaised s n c d).dmaCh n c).abort) = true
  rw [hsame, hlast, habort]
  rfl

theorem dmaNextDesc_last {s : State} {n c : Nat} {d : Desc} (hlast : d.last = true) (habort : (s.dmaCh n c).abort = false) :
    s.dmaNextDesc n c d = (irqRaised s n c d).dmaFinal n c 1 0 := by
  have hsame : (irqRaised s n c d).dmaCh n c = s.dmaCh n c := dmaCh_congr (congrArg State.dma (irqRaised_only s n c d).only :) n c
  refine (if_neg ?_).trans (if_pos hlast)
  show ¬ (d.last && ((irqRaised s n c d).dmaCh n c).abort) = true
  rw [hsame, habort, Bool.and_false]
  decide

theorem dmaNextDesc_more {s : State} {n c : Nat} {d : Desc} (hlast : d.last = false) : s.dmaNextDesc n c d =
    if d.next % 32 = 0 then nextStarted (irqRaised s n c d) n c d
    else (nextStarted (irqRaised s n c d) n c d).dmaFinal n c 2 3 := by
  simp only [State.dmaNextDesc, hlast, Bool.false_and, Bool.false_eq_true, if_false]
  rfl

theorem nextStarted_spec (s : State) (n c : Nat) (d : Desc) :
    (nextStarted s n c d).rd (dmaReg n c 2) = BitVec.ofNat 32 (d.next / 32 * 32) ∧
    (nextStarted s n c d).rd (dmaReg n c 4) = 0 ∧ ((nextStarted s n c d).dmaCh n c).desc = [] ∧
    KeepsAt (fun a => a ≠ (dmaReg n c 2).addr ∧ a ≠ (dmaReg n c 4).addr) s (nextStarted s n c d) := by
  unfold nextStarted
  set t := (s.wr (dmaReg n c 2) (BitVec.ofNat 32 (d.next / 32 * 32))).wr (dmaReg n c 4) 0
  refine ⟨?_, ?_, ?_, ?_⟩
  · exact (State.rd_wr_other _ _ (dmaReg_apart n c (by omega) (by omega) (by omega))).trans (State.rd_wr_same _ _ _)
  · exact State.rd_wr_same _ _ _
  · rw [dmaCh_setDmaCh]
  · exact (((KeepsAt.refl s).wr (by simp) _).wr (by simp) _).trans (.of_regs rfl)

theorem nextStarted_mem (s : State) (n c : Nat) (d : Desc) : (nextStarted s n c d).mem = s.mem := rfl

theorem setDmaCh_mem (s : State) (n c : Nat) (x : DmaCh) : (s.setDmaCh n c x).mem = s.mem := rfl

theorem dmaFinal_mem (s : State) (n c st er : Nat) : (s.dmaFinal n c st er).mem = s.mem := rfl

theorem dmaNextDesc_mem (s : State) (n c : Nat) (d : Desc) : (s.dmaNextDesc n c d).mem = s.mem := by
  have hirq : (irqRaised s n c d).mem = s.mem := (congrArg State.mem (irqRaised_only s n c d).only :)
  cases hlast : d.last with
  | false =>
    rw [dmaNextDesc_more hlast]
    split
    · exact (nextStarted_mem _ n c d).trans hirq
    · exact ((dmaFinal_mem _ n c 2 3).trans (nextStarted_mem _ n c d)).trans hirq
  | true =>
    cases habort : (s.dmaCh n c).abort with
    | true =>
      rw [dmaNextDesc_late hlast habort]
      exact (setDmaCh_mem _ n c _).trans hirq
    | false =>
      rw [dmaNextDesc_last hlast habort]
      exact (dmaFinal_mem _ n c 1 0).trans hirq

theorem dmaEnd_mem (s : State) (n c : Nat) (k : DmaStep) (bytes : List Byte) (err : Bool) :
    (s.dmaEnd n c k bytes err).mem = s.mem := by
  cases k with
  | fetch => cases err <;> rfl
  | read =>
    cases err with
    | true => rfl
    | false => cases h : (descOf (s.dmaCh n c).desc).dstHost <;> simp [State.dmaEnd, h, State.setDmaCh]
  | write => cases err <;> rfl
  | back st er =>
    unfold State.dmaEnd
    dsimp only
    split
    · split
      · rfl
      · exact dmaNextDesc_mem _ _ _ _
    · rfl

end Sys2Proof

namespace Sys2Proof

open Sys2Proof.Machine

/-! What the end of a channel's transaction does, by its kind (R362, R363). -/

section End

variable (s : State) (n c : Nat) (bytes : List Byte)

theorem dmaEnd_fetch_error : s.dmaEnd n c .fetch bytes true = s.dmaFinal n c 2 2 := rfl

theorem dmaEnd_fetched : (s.dmaEnd n c .fetch bytes false).dmaCh n c = { s.dmaCh n c with
    busy := none, desc := bytesWords bytes, stop := if descOk n (bytesWords bytes) then none else some (2, 3) } :=
  dmaCh_setDmaCh s n c _

/-- A move that ended in an error stops the channel, with nothing more moved. -/
theorem dmaEnd_move_error {k : DmaStep} (h : k = .read ∨ k = .write) :
    ((s.dmaEnd n c k bytes true).dmaCh n c).stop = some (2, 2) ∧
    (s.dmaEnd n c k bytes true).dmaMoved n c = s.dmaMoved n c := by
  rcases h with rfl | rfl
  · exact ⟨congrArg DmaCh.stop (dmaCh_setDmaCh s n c _), rfl⟩
  · exact ⟨congrArg DmaCh.stop (dmaCh_setDmaCh s n c _), rfl⟩

theorem dmaEnd_read (h : (descOf (s.dmaCh n c).desc).dstHost = false) :
    (s.dmaEnd n c .read bytes false).dmaCh n c = { s.dmaCh n c with busy := none, buf := bytes } ∧
    (s.dmaEnd n c .read bytes false).dmaMoved n c = s.dmaMoved n c := by
  have hend : s.dmaEnd n c .read bytes false = s.setDmaCh n c { s.dmaCh n c with busy := none, buf := bytes } := by
    simp [State.dmaEnd, h]
  rw [hend]
  exact ⟨dmaCh_setDmaCh s n c _, rfl⟩

theorem dmaEnd_read_host (h : (descOf (s.dmaCh n c).desc).dstHost = true) (hlt : s.dmaMoved n c + bytes.length < 2 ^ 24)
    (hc : c < dmaChans n) (hn : n < 5) :
    (s.dmaEnd n c .read bytes false).dmaMoved n c = s.dmaMoved n c + bytes.length ∧
    (s.dmaEnd n c .read bytes false).hif.wrote = s.hif.wrote ++
      [(b2n (s.dmaReq n c).guest, (descOf (s.dmaCh n c).desc).dst + s.dmaMoved n c, bytes)] := by
  set t := (s.setDmaCh n c { s.dmaCh n c with busy := none }).wrF (dmaReg n c 4) 23 0 (s.dmaMoved n c + bytes.length)
  have hend : s.dmaEnd n c .read bytes false = { t with hif := { t.hif with wrote := t.hif.wrote ++
      [(b2n (t.dmaReq n c).guest, (descOf (s.dmaCh n c).desc).dst + s.dmaMoved n c, bytes)] } } := by
    simp [State.dmaEnd, h, t]
  have hreq : t.dmaReq n c = s.dmaReq n c := by
    unfold State.dmaReq
    split
    · next h4 =>
      subst h4
      exact congrArg (fun w => Req.mk 6 (bit w 8)) (State.rd_wr_other _ _ (dmaReg_apart 4 c (j := 0) (by omega) (by omega) (by omega)))
    · rfl
  rw [hend, hreq]
  exact ⟨dmaMoved_wrF _ n c hlt, rfl⟩

theorem dmaEnd_written (hlt : s.dmaMoved n c + (s.dmaCh n c).buf.length < 2 ^ 24) :
    (s.dmaEnd n c .write bytes false).dmaMoved n c = s.dmaMoved n c + (s.dmaCh n c).buf.length ∧
    (s.dmaEnd n c .write bytes false).dmaCh n c = { s.dmaCh n c with busy := none, buf := [] } :=
  ⟨dmaMoved_wrF _ n c hlt, dmaCh_setDmaCh s n c _⟩

theorem dmaEnd_back_error (er : Nat) : s.dmaEnd n c (.back 1 er) bytes true = s.dmaFinal n c 2 2 := rfl

theorem dmaEnd_back (er : Nat) : s.dmaEnd n c (.back 1 er) bytes false =
    (s.setDmaCh n c { s.dmaCh n c with busy := none }).dmaNextDesc n c (descOf (s.dmaCh n c).desc) := rfl

theorem dmaEnd_back_final {st : Nat} (h : st ≠ 1) (er : Nat) (err : Bool) :
    s.dmaEnd n c (.back st er) bytes err = s.dmaFinal n c st er := by simp [State.dmaEnd, h]

end End

theorem DmaEnded.int {u : State} {n c st er : Nat} (h : DmaEnded u n c st er) : u.rdB (dmaInt n) c = true := by
  obtain ⟨-, -, -, -, hint⟩ := h
  exact hint

/-- A descriptor written back COMPLETE raises its flag, and the chain ends or goes on. -/
theorem dmaNextDesc_spec {s : State} {n c : Nat} (hn : n < 5) (hc : c < dmaChans n) (d : Desc) :
    (d.irq = true → (s.dmaNextDesc n c d).rdB (dmaInt n) c = true) ∧
    (d.last = true → (s.dmaCh n c).abort = false → DmaEnded (s.dmaNextDesc n c d) n c 1 0) ∧
    (d.last = true → (s.dmaCh n c).abort = true → ((s.dmaNextDesc n c d).dmaCh n c).stop = some (3, 0)) ∧
    (d.last = false → (s.dmaNextDesc n c d).rd (dmaReg n c 2) = BitVec.ofNat 32 (d.next / 32 * 32) ∧
      (s.dmaNextDesc n c d).rd (dmaReg n c 4) = 0 ∧ ((s.dmaNextDesc n c d).dmaCh n c).desc = [] ∧
      (d.next % 32 ≠ 0 → DmaEnded (s.dmaNextDesc n c d) n c 2 3)) := by
  have hint := fun h => irqRaised_int (s := s) (n := n) (d := d) h (dmaChan_lt hc)
  cases hlast : d.last with
  | true =>
    cases habort : (s.dmaCh n c).abort with
    | true =>
      rw [dmaNextDesc_late hlast habort]
      exact ⟨hint, nofun, fun _ _ => congrArg DmaCh.stop (dmaCh_setDmaCh _ n c _), nofun⟩
    | false =>
      rw [dmaNextDesc_last hlast habort]
      obtain ⟨hended, -, -⟩ := dmaFinal_spec (s := irqRaised s n c d) hn hc (st := 1) (er := 0) (by omega) (by omega)
      exact ⟨fun _ => hended.int, fun _ _ => hended, nofun, nofun⟩
  | false =>
    rw [dmaNextDesc_more hlast]
    obtain ⟨hcur, hmoved, hdesc, hkeeps⟩ := nextStarted_spec (irqRaised s n c d) n c d
    have hstart := hkeeps (dmaInt n) ⟨(dmaInt_apart hn hc (by omega)).symm, (dmaInt_apart hn hc (by omega)).symm⟩
    generalize nextStarted (irqRaised s n c d) n c d = t at *
    split
    · next hnext =>
      exact ⟨fun h => (congrArg (bit · c) hstart).trans (hint h), nofun, nofun,
        fun _ => ⟨hcur, hmoved, hdesc, fun h => absurd hnext h⟩⟩
    · obtain ⟨hended, hch, hfinal⟩ := dmaFinal_spec (s := t) hn hc (st := 2) (er := 3) (by omega) (by omega)
      have hkept := fun {k : Nat} (hk : k < 5) (h3 : k ≠ 3) =>
        hfinal (dmaReg n c k) ⟨dmaReg_apart n c hk (by omega) h3, dmaInt_apart hn hc hk⟩
      exact ⟨fun _ => hended.int, nofun, nofun, fun _ => ⟨(hkept (by omega) (by omega)).trans hcur,
        (hkept (by omega) (by omega)).trans hmoved, by rw [hch], fun _ => hended⟩⟩

/-- What the end of a channel's transaction leaves. -/
theorem dmaChannels_end (s : State) (t : Fin 16) (x : BusTxn) (n : Fin 5) (c : Fin 8) (token : Nat) (k : DmaStep)
    (hc : c.val < dmaChans n) (hdone : s.doneAt t = some x) (hkilled : x.killed = false)
    (horigin : x.origin = .dma n c token k) (hbusy : (s.dmaCh n c).busy = some token) :
    Gives (.bmxTransactionComplete t) s fun u =>
      let ch := s.dmaCh n c
      let d := descOf ch.desc
      let bytes := (readBytes x.txn x.data).map Prod.snd
      u.mem = s.mem ∧
      (k = .fetch → x.err ≠ 0 → DmaEnded u n c 2 2) ∧
      (k = .fetch → x.err = 0 → u.dmaCh n c = { ch with
        busy := none, desc := bytesWords bytes, stop := if descOk n (bytesWords bytes) then none else some (2, 3) }) ∧
      (k = .read ∨ k = .write → x.err ≠ 0 → (u.dmaCh n c).stop = some (2, 2) ∧ u.dmaMoved n c = s.dmaMoved n c) ∧
      (k = .read → x.err = 0 → d.dstHost = false → u.dmaCh n c = { ch with busy := none, buf := bytes } ∧
        u.dmaMoved n c = s.dmaMoved n c) ∧
      (k = .read → x.err = 0 → d.dstHost = true → s.dmaMoved n c + bytes.length < 2 ^ 24 →
        u.dmaMoved n c = s.dmaMoved n c + bytes.length ∧
        u.hif.wrote = s.hif.wrote ++ [(b2n (s.dmaReq n c).guest, d.dst + s.dmaMoved n c, bytes)]) ∧
      (k = .write → x.err = 0 → s.dmaMoved n c + ch.buf.length < 2 ^ 24 →
        u.dmaMoved n c = s.dmaMoved n c + ch.buf.length ∧ u.dmaCh n c = { ch with busy := none, buf := [] }) ∧
      (k = .back 1 0 → x.err ≠ 0 → DmaEnded u n c 2 2) ∧
      (k = .back 1 0 → x.err = 0 → (d.irq = true → u.rdB (dmaInt n) c = true) ∧
        (d.last = true → ch.abort = false → DmaEnded u n c 1 0) ∧
        (d.last = true → ch.abort = true → (u.dmaCh n c).stop = some (3, 0)) ∧
        (d.last = false → u.rd (dmaReg n c 2) = BitVec.ofNat 32 (d.next / 32 * 32) ∧ u.rd (dmaReg n c 4) = 0 ∧
          (u.dmaCh n c).desc = [] ∧ (d.next % 32 ≠ 0 → DmaEnded u n c 2 3))) ∧
      (∀ st er, st ≠ 1 → st < 4 → er < 16 → k = .back st er → DmaEnded u n c st er) := by
  refine (gives_iff_of_done (t := s.completeAt t) rfl).2 ?_
  intro ch d bytes
  rw [completeAt_dma hdone hkilled horigin hbusy]
  have hn := n.isLt
  have hbad : x.err ≠ 0 → (x.err != 0) = true := bne_iff_ne.2
  have hgood : x.err = 0 → (x.err != 0) = false := fun h => by rw [h]; rfl
  set v := txnGone s x
  have hfinal := fun {st er : Nat} (hst : st < 4) (her : er < 16) => (dmaFinal_spec (s := v) hn hc hst her).1
  have hkept := chanKept_ports hn hc (v.dmaEnd n c k bytes (x.err != 0))
  generalize (v.dmaEnd n c k bytes (x.err != 0)).portGo.mxmHold.settle = u at *
  refine ⟨hkept.mem.trans (dmaEnd_mem v n c k bytes _), ?_, ?_, ?_, ?_, ?_, ?_, ?_, ?_, ?_⟩
  · rintro rfl herr
    rw [hbad herr] at hkept
    exact hkept.ended (hfinal (by omega) (by omega))
  · rintro rfl herr
    rw [hgood herr] at hkept
    exact hkept.chan.trans (dmaEnd_fetched v n c bytes)
  · intro hk herr
    rw [hbad herr] at hkept
    obtain ⟨hstop, hmoved⟩ := dmaEnd_move_error v n c bytes hk
    exact ⟨(congrArg DmaCh.stop hkept.chan).trans hstop, hkept.moved.trans hmoved⟩
  · rintro rfl herr hdst
    rw [hgood herr] at hkept
    obtain ⟨hch, hmoved⟩ := dmaEnd_read v n c bytes hdst
    exact ⟨hkept.chan.trans hch, hkept.moved.trans hmoved⟩
  · rintro rfl herr hdst hlt
    rw [hgood herr] at hkept
    obtain ⟨hmoved, hwrote⟩ := dmaEnd_read_host v n c bytes hdst hlt hc hn
    exact ⟨hkept.moved.trans hmoved, hkept.wrote.trans hwrote⟩
  · rintro rfl herr hlt
    rw [hgood herr] at hkept
    obtain ⟨hmoved, hch⟩ := dmaEnd_written v n c bytes hlt
    exact ⟨hkept.moved.trans hmoved, hkept.chan.trans hch⟩
  · rintro rfl herr
    rw [hbad herr] at hkept
    exact hkept.ended (hfinal (by omega) (by omega))
  · rintro rfl herr
    rw [hgood herr, dmaEnd_back] at hkept
    set w := v.setDmaCh n c { v.dmaCh n c with busy := none }
    have habort : (w.dmaCh n c).abort = ch.abort := by rw [dmaCh_setDmaCh]; rfl
    obtain ⟨hirq, hlast, hlate, hmore⟩ := dmaNextDesc_spec (s := w) hn hc d
    rw [habort] at hlast hlate
    refine ⟨fun h => (congrArg (bit · c.val) hkept.int).trans (hirq h), fun h ha => hkept.ended (hlast h ha),
      fun h ha => (congrArg DmaCh.stop hkept.chan).trans (hlate h ha), fun h => ?_⟩
    obtain ⟨hcur, hmoved, hdesc, hend⟩ := hmore h
    exact ⟨(hkept.reg 2 (by omega)).trans hcur, (hkept.reg 4 (by omega)).trans hmoved,
      (congrArg DmaCh.desc hkept.chan).trans hdesc, fun hx => hkept.ended (hend hx)⟩
  · rintro st er hst hlt her rfl
    rw [dmaEnd_back_final v n c bytes hst] at hkept
    exact hkept.ended (hfinal hlt her)

/-- Settles O53, a command at a time: what each turn issues, and what the end of each kind of transaction leaves. -/
theorem dmaChannels : Obligations.DmaChannels := by
  unfold Obligations.DmaChannels
  exact ⟨dmaChannels_go, dmaChannels_abort, dmaChannels_idle, dmaChannels_issue, dmaChannels_end⟩

end Sys2Proof

namespace Sys2Proof

open Sys2Proof.Machine

/-! A network port that is turned on or off (R256, R257, R370, R371). -/

/-- Nothing but a network port's registers and state and memory changes, and no register that `p` names. -/
structure MacMoved (p : Nat → Prop) (s u : State) : Prop where
  only : u = { s with regs := u.regs, mem := u.mem, macs := u.macs }
  keeps : KeepsAt p s u

/-- The registers that a port's end of work writes are none that `p` names. -/
structure MacOff (n : Nat) (p : Nat → Prop) : Prop where
  fixed : ∀ r ∈ [MAC_STAT n, MAC_INT n, MAC_PHYERR_CNT n, MAC_TXLINKDN_CNT n, MAC_DESCERR_CNT n, MAC_SEG_ABORT n], ¬ p r.addr
  head : ∀ t, ¬ p (MAC_TXQ_HEAD n t).addr

namespace MacMoved

variable {p : Nat → Prop} {n : Nat} {s t u : State}

theorem refl (s : State) : MacMoved p s s := ⟨rfl, .refl s⟩

theorem trans (h : MacMoved p s t) (k : MacMoved p t u) : MacMoved p s u :=
  ⟨k.only.trans (congrArg (fun x : State => { x with regs := u.regs, mem := u.mem, macs := u.macs }) h.only :),
    h.keeps.trans k.keeps⟩

theorem ite {c : Prop} [Decidable c] (h : MacMoved p s t) (k : MacMoved p s u) : MacMoved p s (if c then t else u) := by
  split <;> assumption

theorem wr {r : Reg} (h : MacMoved p s t) (hr : ¬ p r.addr) (v : Word) : MacMoved p s (t.wr r v) :=
  h.trans ⟨rfl, (KeepsAt.refl t).wr hr v⟩

theorem setMac (h : MacMoved p s t) (n : Nat) (m : Mac) : MacMoved p s (t.setMac n m) := h.trans ⟨rfl, .of_regs rfl⟩

theorem netWord (h : MacMoved p s t) (a : Nat) (w : Word) : MacMoved p s (t.netWord a w) := h.trans ⟨rfl, .of_regs rfl⟩

variable (hp : MacOff n p)

include hp

theorem txBack (h : MacMoved p s t) (q status err segs : Nat) : MacMoved p s (t.txBack n q status err segs) := by
  unfold State.txBack
  extract_lets w s₁ s₂ s₃
  have h₁ : MacMoved p s s₁ := h.netWord _ _
  have h₂ : MacMoved p s s₂ := .ite h₁ (h₁.wr (hp.fixed (MAC_INT n) (by simp)) _)
  have h₃ : MacMoved p s s₃ := .ite (h₂.wr (hp.fixed (MAC_DESCERR_CNT n) (by simp)) _) h₂
  exact h₃.wr (hp.head q) _

theorem txLinkDown (h : MacMoved p s t) (q : Nat) (ring : Bool) : MacMoved p s (t.txLinkDown n q ring) := by
  unfold State.txLinkDown
  have hcount : MacMoved p s (t.count (MAC_TXLINKDN_CNT n)) := h.wr (hp.fixed _ (by simp)) _
  refine .ite ?_ hcount
  exact ((hcount.setMac _ _).wr (hp.fixed (MAC_SEG_ABORT n) (by simp)) _).txBack hp _ _ _ _

theorem discard (h : MacMoved p s t) (w : Option Wire) : MacMoved p s (discard t n w) := by
  cases w with
  | none => exact h
  | some w => exact h.txLinkDown hp _ _

theorem leaveUp (h : MacMoved p s t) : MacMoved p s (t.leaveUp n) := by
  rw [leaveUp_eq]
  exact (((h.setMac _ _).wr (hp.fixed (MAC_PHYERR_CNT n) (by simp)) _).discard hp _).discard hp _

theorem setMacLink (h : MacMoved p s t) (l : Nat) : MacMoved p s (t.setMacLink n l) := by
  unfold State.setMacLink
  have hstat := hp.fixed (MAC_STAT n) (by simp)
  exact .ite h (((h.wr hstat _).wr hstat _).wr (hp.fixed (MAC_INT n) (by simp)) _)

theorem macEnable (h : MacMoved p s t) (on : Bool) : MacMoved p s (t.macEnable n on) := by
  unfold State.macEnable
  exact .ite (.ite (h.setMacLink hp 1) h) ((MacMoved.ite (h.leaveUp hp) h).setMacLink hp 0)

end MacMoved

theorem macLink_setMacLink {s : State} {n l : Nat} (hl : l < 4) : (s.setMacLink n l).macLink n = l := by
  by_cases h : s.macLink n = l
  · rwa [State.setMacLink, if_pos h]
  · exact (setMacLink_spec hl h).1

/-- A port that is turned off is OFF. -/
theorem macLink_macEnable_off (s : State) (n : Nat) : (s.macEnable n false).macLink n = 0 := macLink_setMacLink (by omega)

/-- A port that is turned off leaves memory and the other ports, where it has no frame to give back. -/
theorem macEnable_off_idle {s : State} {n : Nat} (hwire : (s.mac n).wire = none) (hheld : (s.mac n).held = none) :
    (s.macEnable n false).mem = s.mem ∧ ∀ m ≠ n, (s.macEnable n false).mac m = s.mac m := by
  have hleave : (s.leaveUp n).mem = s.mem ∧ ∀ m ≠ n, (s.leaveUp n).mac m = s.mac m := by
    rw [leaveUp_eq, hwire, hheld]
    exact ⟨rfl, fun m hm => sget_sset_other _ _ s.macs _ hm⟩
  have hlink : ∀ t : State, (t.setMacLink n 0).mem = t.mem ∧ ∀ m, (t.setMacLink n 0).mac m = t.mac m := fun t => by
    unfold State.setMacLink
    split <;> exact ⟨rfl, fun _ => rfl⟩
  have hoff : s.macEnable n false = (if s.macUp n then s.leaveUp n else s).setMacLink n 0 := rfl
  rw [hoff]
  obtain ⟨hmem, hmac⟩ := hlink (if s.macUp n then s.leaveUp n else s)
  rw [hmem]
  refine ⟨?_, fun m hm => (hmac m).trans ?_⟩
  · split
    · exact hleave.1
    · rfl
  · split
    · exact hleave.2 m hm
    · rfl

end Sys2Proof

namespace Sys2Proof

open Sys2Proof.Machine

/-! What a Dongo link does on its line (R313 to R315). -/

theorem link_setLink_same (s : State) (n : Nat) (l : Dng) : (s.setLink n l).link n = l := by
  simp [State.link, State.setLink]

theorem link_congr {s u : State} (h : u.dng = s.dng) (n : Nat) : u.link n = s.link n := by
  rw [State.link, h]; rfl

theorem link_updLink_same (s : State) (n : Nat) (f : Dng → Dng) : (s.updLink n f).link n = f (s.link n) :=
  link_setLink_same s n _

theorem link_lineRun (s : State) (n : Nat) : (s.lineRun n).link n = s.linkNow n := link_setLink_same s n _

/-- Nothing but the links' own state, Saffron's, the cascade terms held and registers changes, and no register that `p`
names. -/
structure DngMoved (p : Nat → Prop) (s u : State) : Prop where
  only : u = { s with regs := u.regs, dng := u.dng, mtx := u.mtx, saf := u.saf, slew := u.slew }
  keeps : KeepsAt p s u

/-- The registers that a link's change of state writes are none that `p` names. -/
structure DngOff (n : Nat) (p : Nat → Prop) : Prop where
  fixed : ∀ r ∈ [DNG_L_STAT n, DNG_L_INT n, DNG_L_RETRY_CNT n, DNG_L_EVLOST_CNT n, DNG_STAT], ¬ p r.addr
  shared : Unshared p
  entry : ∀ j < 8, OffEntry j p

namespace DngMoved

variable {p : Nat → Prop} {n : Nat} {s t u : State}

theorem refl (s : State) : DngMoved p s s := ⟨rfl, .refl s⟩

theorem trans (h : DngMoved p s t) (k : DngMoved p t u) : DngMoved p s u :=
  ⟨k.only.trans (congrArg
    (fun x : State => { x with regs := u.regs, dng := u.dng, mtx := u.mtx, saf := u.saf, slew := u.slew }) h.only :),
    h.keeps.trans k.keeps⟩

theorem ite {c : Prop} [Decidable c] (h : DngMoved p s t) (k : DngMoved p s u) : DngMoved p s (if c then t else u) := by
  split <;> assumption

theorem wr {r : Reg} (h : DngMoved p s t) (hr : ¬ p r.addr) (v : Word) : DngMoved p s (t.wr r v) :=
  h.trans ⟨rfl, (KeepsAt.refl t).wr hr v⟩

theorem setLink (h : DngMoved p s t) (n : Nat) (l : Dng) : DngMoved p s (t.setLink n l) := h.trans ⟨rfl, .of_regs rfl⟩

theorem updLink (h : DngMoved p s t) (n : Nat) (f : Dng → Dng) : DngMoved p s (t.updLink n f) := h.setLink n _

theorem each {α : Type} {f : State → α → State} (h : ∀ s x, DngMoved p s (f s x)) (l : List α) (s : State) :
    DngMoved p s (s.each l f) := by
  induction l generalizing s with
  | nil => exact refl s
  | cons x l ih => exact (h s x).trans (ih (f s x))

theorem of_saf (h : DngMoved p s t) (k : SafKeeps p t u) : DngMoved p s u := by
  have hdng : u.dng = t.dng := (congrArg State.dng k.only).trans rfl
  have hmtx : u.mtx = t.mtx := (congrArg State.mtx k.only).trans rfl
  refine h.trans ⟨?_, k.regs⟩
  rw [hdng, hmtx]
  exact k.only

theorem mem (h : DngMoved p s t) : t.mem = s.mem := (congrArg State.mem h.only).trans rfl
theorem now (h : DngMoved p s t) : t.now = s.now := (congrArg State.now h.only).trans rfl

variable (hp : DngOff n p)

include hp

theorem lineRun (h : DngMoved p s t) : DngMoved p s (t.lineRun n) :=
  (h.setLink n _).wr (hp.fixed (DNG_L_RETRY_CNT n) (by simp)) _

theorem dngSend (h : DngMoved p s t) (f : DngOut) : DngMoved p s (t.dngSend n f) := by
  unfold State.dngSend
  exact .ite h ((h.lineRun hp).setLink n _)

theorem setDngState (h : DngMoved p s t) (v : Nat) : DngMoved p s (t.setDngState n v) := by
  unfold State.setDngState
  exact .ite h (((h.wr (hp.fixed (DNG_L_STAT n) (by simp)) _).wr (hp.fixed DNG_STAT (by simp)) _).wr
    (hp.fixed (DNG_L_INT n) (by simp)) _)

theorem setAligned (h : DngMoved p s t) (b : Bool) : DngMoved p s (t.setAligned n b) := by
  unfold State.setAligned
  have hshown := ((h.wr (hp.fixed (DNG_L_STAT n) (by simp)) (setBit (t.rd (DNG_L_STAT n)) 4 b)).wr
    (hp.fixed DNG_STAT (by simp)) (setBit ((t.wrB (DNG_L_STAT n) 4 b).rd DNG_STAT) (4 + n) b)).wr
    (hp.fixed (DNG_L_INT n) (by simp)) (((t.wrB (DNG_L_STAT n) 4 b).wrB DNG_STAT (4 + n) b).rd (DNG_L_INT n) ||| 2#32)
  exact .ite h ((hshown.lineRun hp).updLink n _)

theorem dngHello (h : DngMoved p s t) (echo : Bool) : DngMoved p s (t.dngHello n echo) := by
  unfold State.dngHello
  exact (DngMoved.ite h (h.updLink n _)).dngSend hp _

theorem losSource (h : DngMoved p s t) (src ix : Nat) : DngMoved p s (t.losSource src ix) :=
  h.of_saf ((SafKeeps.refl t).losAll hp.shared
    fun j hj => hp.entry j (List.mem_range.1 (List.mem_filter.1 hj).1))

end DngMoved

/-! A link that leaves UP (R316, R323). -/

/-- The events that go with a link's frames that are not acknowledged. -/
def dngLost (l : Dng) : Nat :=
  (((l.replay ++ l.queue).filter (fun f => f.kind == .event)).map DngOut.cnt).foldl (· + ·) 0

/-- The link no longer aligned, in its new state. -/
def dngLeft (s : State) (n v : Nat) : State := (((s.lineRun n).cascDrop n).setAligned n false).setDngState n v

/-- The events lost are counted. -/
def lossCounted (s : State) (n k : Nat) : State :=
  if k = 0 then s else (s.countF (DNG_L_EVLOST_CNT n) 31 0 k).raise (DNG_L_INT n) 0x10#32

/-- A link with nothing that waits or is to be acknowledged. -/
def dngFresh (l : Dng) : Dng :=
  { l with txSeq := 0, rxSeq := 0, queue := [], replay := [], again := [], hello := false, ackDue := false, peer := none }

theorem dngDown_eq (s : State) (n v : Nat) : s.dngDown n v =
    ((lossCounted (dngLeft s n v) n (dngLost (s.linkNow n))).updLink n dngFresh).losSource 5 n := by
  rw [← link_lineRun]
  rfl

theorem dngState_setDngState {s : State} {n v : Nat} (hv : v < 4) : (s.setDngState n v).dngState n = v := by
  by_cases h : s.dngState n = v
  · rwa [State.setDngState, if_pos h]
  · rw [State.setDngState, if_neg h, State.dngState, State.rdF,
      State.rd_raise_other _ _ (by simp only [DNG_L_STAT, DNG_L_INT]; omega), State.rd_wrB_other _ _ _
        (by simp only [DNG_L_STAT, DNG_STAT]; omega)]
    exact (rdF_wrF_same s _ (by omega) (by omega) v).trans (Nat.mod_eq_of_lt hv)

theorem setDngState_flag {s : State} {n v : Nat} (h : s.dngState n ≠ v) : (s.setDngState n v).rdB (DNG_L_INT n) 0 = true := by
  rw [State.setDngState, if_neg h]
  exact rdB_raise_same _ _ (by decide)

/-- A flag of a link stays set as another is raised. -/
theorem rdB_raise_kept {s : State} {r : Reg} {i : Nat} (h : s.rdB r i = true) (m : Word) : (s.raise r m).rdB r i = true := by
  rw [State.rdB, State.rd_raise_same, bit_or]
  exact Bool.or_eq_true_iff.2 (.inl h)

section Down

variable {p : Nat → Prop} {n : Nat} {s t : State}

theorem DngMoved.dngDown (hp : DngOff n p) (h : DngMoved p s t) (v : Nat) : DngMoved p s (t.dngDown n v) := by
  rw [dngDown_eq]
  have hdropped : DngMoved p s ((t.lineRun n).cascDrop n) := (h.lineRun hp).trans ⟨rfl, .of_regs rfl⟩
  have hleft : DngMoved p s (dngLeft t n v) := (hdropped.setAligned hp false).setDngState hp v
  have hcounted : DngMoved p s (lossCounted (dngLeft t n v) n (dngLost (t.linkNow n))) :=
    .ite hleft ((hleft.wr (hp.fixed (DNG_L_EVLOST_CNT n) (by simp)) _).wr (hp.fixed (DNG_L_INT n) (by simp)) _)
  exact (hcounted.updLink n _).losSource hp 5 n

end Down

/-- The addresses of a link's state and flags, and of its count of losses. -/
def DngShown (n a : Nat) : Prop := a = (DNG_L_STAT n).addr ∨ a = (DNG_L_INT n).addr ∨ a = (DNG_L_DOWN_CNT n).addr

theorem dngShown_saf {n : Nat} : Unshared (DngShown n) ∧ ∀ j < 8, OffEntry j (DngShown n) := by
  constructor
  · intro r hr
    simp only [sharedRegs, List.mem_cons, List.not_mem_nil, or_false] at hr
    rcases hr with rfl | rfl | rfl | rfl | rfl | rfl | rfl | rfl | rfl | rfl | rfl
    all_goals
      simp only [DngShown, DNG_L_STAT, DNG_L_INT, DNG_L_DOWN_CNT, SAF_STAT, SAF_INT, SAF_HIST, SAF_HOLD_SEC, SAF_PHERR,
        SAF_SWITCH_CNT, SAF_DISQ_CNT, SAF_SOFT_CNT, SAF_HOLD_CNT, STC_REM, STC_STAT]
      omega
  · intro j hj r hr
    simp only [entryRegs, List.mem_cons, List.not_mem_nil, or_false] at hr
    rcases hr with rfl | rfl | rfl | rfl | rfl | rfl
    all_goals
      simp only [DngShown, DNG_L_STAT, DNG_L_INT, DNG_L_DOWN_CNT, SAF_REF_STAT, SAF_REF_FREQ, SAF_REF_DEV, SAF_REF_DRIFT,
        SAF_REF_PHASE, SAF_LOS_CNT]
      omega

theorem dngState_congr {s u : State} {n : Nat} (h : u.rd (DNG_L_STAT n) = s.rd (DNG_L_STAT n)) :
    u.dngState n = s.dngState n := congrArg (bits · 1 0) h

theorem rd_lineRun (s : State) {n : Nat} {r : Reg} (h : r.addr ≠ (DNG_L_RETRY_CNT n).addr) : (s.lineRun n).rd r = s.rd r := by
  unfold State.lineRun
  extract_lets l k
  exact (State.rd_wr_other _ _ h).trans (State.rd_congr rfl r)

theorem dngState_lineRun (s : State) (n : Nat) : (s.lineRun n).dngState n = s.dngState n :=
  dngState_congr (rd_lineRun s (by simp only [DNG_L_STAT, DNG_L_RETRY_CNT]; omega))

theorem dngState_updLink (s : State) (n : Nat) (f : Dng → Dng) : (s.updLink n f).dngState n = s.dngState n := rfl

theorem dngState_cascDrop (s : State) (n : Nat) : (s.cascDrop n).dngState n = s.dngState n := rfl

/-- The change of alignment, as the registers show it. -/
def alignShown (s : State) (n : Nat) (b : Bool) : State :=
  ((s.wrB (DNG_L_STAT n) 4 b).wrB DNG_STAT (4 + n) b).raise (DNG_L_INT n) 2#32

/-- A link whose alignment changed. -/
def realigned (b : Bool) (l : Dng) : Dng :=
  { l with al := 0, rx := [], queue := l.queue.filter (fun f => b || !(dngTied f.kind)) }

theorem setAligned_eq (s : State) (n : Nat) (b : Bool) : s.setAligned n b =
    if s.rdB (DNG_L_STAT n) 4 = b then s else ((alignShown s n b).lineRun n).updLink n (realigned b) := rfl

theorem rd_alignShown (s : State) (n : Nat) (b : Bool) :
    (alignShown s n b).rd (DNG_L_STAT n) = setBit (s.rd (DNG_L_STAT n)) 4 b := by
  unfold alignShown
  rw [State.rd_raise_other _ _ (by simp only [DNG_L_STAT, DNG_L_INT]; omega),
    State.rd_wrB_other _ _ _ (by simp only [DNG_L_STAT, DNG_STAT]; omega), State.rd_wrB_same]

theorem dngState_setAligned (s : State) (n : Nat) (b : Bool) : (s.setAligned n b).dngState n = s.dngState n := by
  rw [setAligned_eq]
  split
  · rfl
  · rw [dngState_updLink, dngState_lineRun, State.dngState, State.rdF, rd_alignShown, bits_setBit_outside _ (by omega)]
    rfl

/-- Events lost are counted apart from what the link shows. -/
theorem lossCounted_spec (s : State) (n k : Nat) : (lossCounted s n k).rd (DNG_L_STAT n) = s.rd (DNG_L_STAT n) ∧
    (s.rdB (DNG_L_INT n) 0 = true → (lossCounted s n k).rdB (DNG_L_INT n) 0 = true) := by
  unfold lossCounted
  split
  · exact ⟨rfl, id⟩
  · refine ⟨?_, fun h => rdB_raise_kept ?_ _⟩
    · rw [State.rd_raise_other _ _ (by simp only [DNG_L_STAT, DNG_L_INT]; omega)]
      exact State.rd_wr_other _ _ (by simp only [DNG_L_STAT, DNG_L_EVLOST_CNT]; omega)
    · exact (congrArg (bit · 0) (State.rd_wr_other _ _ (by simp only [DNG_L_INT, DNG_L_EVLOST_CNT]; omega))).trans h

/-- What a link that leaves UP shows, and its own state. -/
theorem dngDown_spec {s : State} {n v : Nat} (hv : v < 4) (hstate : s.dngState n = 2) (hne : v ≠ 2) :
    (s.dngDown n v).dngState n = v ∧ (s.dngDown n v).rdB (DNG_L_INT n) 0 = true ∧
    ∃ l, (s.dngDown n v).link n = dngFresh l := by
  rw [dngDown_eq]
  have hstay : (((s.lineRun n).cascDrop n).setAligned n false).dngState n = 2 :=
    by rw [dngState_setAligned, dngState_cascDrop, dngState_lineRun, hstate]
  have hleft : (dngLeft s n v).dngState n = v := dngState_setDngState hv
  have hflag : (dngLeft s n v).rdB (DNG_L_INT n) 0 = true := setDngState_flag (by rw [hstay]; exact hne.symm)
  obtain ⟨hstat, hint⟩ := lossCounted_spec (dngLeft s n v) n (dngLost (s.linkNow n))
  generalize lossCounted (dngLeft s n v) n (dngLost (s.linkNow n)) = t at *
  have hfresh := link_updLink_same t n dngFresh
  have hregs : ∀ r, (t.updLink n dngFresh).rd r = t.rd r := fun r => State.rd_congr rfl r
  generalize t.updLink n dngFresh = w at *
  have hlos : SafKeeps (DngShown n) w (w.losSource 5 n) :=
    (SafKeeps.refl _).losAll dngShown_saf.1 fun j hj => dngShown_saf.2 j (List.mem_range.1 (List.mem_filter.1 hj).1)
  generalize w.losSource 5 n = u at *
  refine ⟨?_, ?_, t.link n, ?_⟩
  · rw [dngState_congr ((hlos.regs _ (.inl rfl)).trans ((hregs _).trans hstat)), hleft]
  · exact (congrArg (bit · 0) ((hlos.regs _ (.inr (.inl rfl))).trans (hregs _))).trans (hint hflag)
  · have hdng : u.dng = w.dng := (congrArg State.dng hlos.only).trans rfl
    exact (link_congr hdng n).trans hfresh

/-! A link that is turned on or off, and one that trains again (R316). -/

theorem DngMoved.dngEnable {p : Nat → Prop} {n : Nat} {s t : State} (hp : DngOff n p) (h : DngMoved p s t) (on : Bool) :
    DngMoved p s (t.dngEnable n on) := by
  unfold State.dngEnable
  exact .ite (.ite ((h.setDngState hp 1).dngHello hp false) h) (.ite (h.dngDown hp 0) (h.setDngState hp 0))

/-- A link that is turned off is OFF. -/
theorem dngState_dngEnable_off (s : State) (n : Nat) : (s.dngEnable n false).dngState n = 0 := by
  unfold State.dngEnable
  rw [if_neg (by decide)]
  split
  · next h => exact (dngDown_spec (by omega) h (by omega)).1
  · exact dngState_setDngState (by omega)

end Sys2Proof

namespace Sys2Proof

open Sys2Proof.Machine

/-! The house cores and the links as a power state begins or ends (R370, R371). -/

/-- A core that is in one of the states of `p` goes to state `v`. -/
def coreTurn (p : Nat → Prop) [DecidablePred p] (v : Nat → Nat) (s : State) (c : Nat) : State :=
  if p (s.coreState c) then s.setCore c (v c) else s

/-- Both cores. -/
def coresTurned (p : Nat → Prop) [DecidablePred p] (v : Nat → Nat) (s : State) : State := s.each (upTo 2) (coreTurn p v)

section Cores

variable {p : Nat → Prop} [DecidablePred p] {v : Nat → Nat}

theorem coreTurn_same (hv : ∀ c, v c < 4) (s : State) {c : Nat} (hc : c < 7) :
    (coreTurn p v s c).coreState c = if p (s.coreState c) then v c else s.coreState c := by
  unfold coreTurn
  split
  · exact coreState_setCore_same s hc (hv c)
  · rfl

theorem coreTurn_other (s : State) {c d : Nat} (hc : c < 7) (h : d ≠ c) :
    (coreTurn p v s c).coreState d = s.coreState d := by
  unfold coreTurn
  split
  · exact coreState_setCore_other s hc h _
  · rfl

theorem coresTurned_state (hv : ∀ c, v c < 4) (s : State) {c : Nat} (hc : c < 2) :
    (coresTurned p v s).coreState c = if p (s.coreState c) then v c else s.coreState c := by
  have htwo : coresTurned p v s = coreTurn p v (coreTurn p v s 0) 1 := rfl
  rw [htwo]
  have hcases : c = 0 ∨ c = 1 := by omega
  rcases hcases with rfl | rfl
  · rw [coreTurn_other _ (by omega) (by omega), coreTurn_same hv s (by omega)]
  · rw [coreTurn_same hv _ (by omega), coreTurn_other s (by omega) (by omega)]

theorem coresTurned_only (s : State) : RegsAlone (· ≠ HSE_CORE_STAT.addr) s (coresTurned p v s) :=
  .each (fun t c _ => .ite ((RegsAlone.refl t).wrF (by simp) _ _ _) (.refl t)) s

end Cores

/-- The registers of the power states, of the host interface and of the house complex, but for addresses that end in the
place of a ring's head. -/
def PowerShown (a : Nat) : Prop := 0x50010000 ≤ a ∧ a < 0x50020000 ∨ (0x50100000 ≤ a ∧ a < 0x50120000 ∧ a % 16 ≠ 12)

theorem macOff_powerShown {n : Nat} (hn : n < 2) : MacOff n PowerShown where
  fixed r hr := by
    simp only [List.mem_cons, List.not_mem_nil, or_false] at hr
    rcases hr with rfl | rfl | rfl | rfl | rfl | rfl
    all_goals
      simp only [PowerShown, MAC_STAT, MAC_INT, MAC_PHYERR_CNT, MAC_TXLINKDN_CNT, MAC_DESCERR_CNT, MAC_SEG_ABORT]
      omega
  head t := by
    simp only [PowerShown, MAC_TXQ_HEAD]
    omega

theorem dngOff_powerShown {n : Nat} (hn : n < 4) : DngOff n PowerShown where
  fixed r hr := by
    simp only [List.mem_cons, List.not_mem_nil, or_false] at hr
    rcases hr with rfl | rfl | rfl | rfl | rfl
    all_goals
      simp only [PowerShown, DNG_L_STAT, DNG_L_INT, DNG_L_RETRY_CNT, DNG_L_EVLOST_CNT, DNG_STAT]
      omega
  shared r hr := by
    simp only [sharedRegs, List.mem_cons, List.not_mem_nil, or_false] at hr
    rcases hr with rfl | rfl | rfl | rfl | rfl | rfl | rfl | rfl | rfl | rfl | rfl
    all_goals
      simp only [PowerShown, SAF_STAT, SAF_INT, SAF_HIST, SAF_HOLD_SEC, SAF_PHERR, SAF_SWITCH_CNT, SAF_DISQ_CNT,
        SAF_SOFT_CNT, SAF_HOLD_CNT, STC_REM, STC_STAT]
      omega
  entry j hj r hr := by
    simp only [entryRegs, List.mem_cons, List.not_mem_nil, or_false] at hr
    rcases hr with rfl | rfl | rfl | rfl | rfl | rfl
    all_goals
      simp only [PowerShown, SAF_REF_STAT, SAF_REF_FREQ, SAF_REF_DEV, SAF_REF_DRIFT, SAF_REF_PHASE, SAF_LOS_CNT]
      omega

/-- The state with what the links and Clove change as in another. -/
def withLinks (s u : State) : State :=
  { s with regs := u.regs, mem := u.mem, macs := u.macs, dng := u.dng, mtx := u.mtx, saf := u.saf, slew := u.slew,
           clove := u.clove }

/-- The links, Saffron and Clove have moved, and no register of the power states, of the host interface or of the house. -/
structure LinksMoved (s u : State) : Prop where
  only : u = withLinks s u
  keeps : KeepsAt PowerShown s u

namespace LinksMoved

variable {s t u : State}

theorem refl (s : State) : LinksMoved s s := ⟨rfl, .refl s⟩

theorem trans (h : LinksMoved s t) (k : LinksMoved t u) : LinksMoved s u :=
  ⟨k.only.trans (congrArg (fun x => withLinks x u) h.only : withLinks t u = withLinks (withLinks s t) u),
    h.keeps.trans k.keeps⟩

theorem pwr (h : LinksMoved s u) : u.pwr = s.pwr := by rw [h.only]; rfl

theorem ani (h : LinksMoved s u) : u.ani = s.ani := by rw [h.only]; rfl

theorem hif (h : LinksMoved s u) : u.hif = s.hif := by rw [h.only]; rfl

theorem portWait (h : LinksMoved s u) : u.portWait = s.portWait := by rw [h.only]; rfl

theorem reqs (h : LinksMoved s u) : u.reqs = s.reqs := by rw [h.only]; rfl

theorem nextReq (h : LinksMoved s u) : u.nextReq = s.nextReq := by rw [h.only]; rfl

theorem bmx (h : LinksMoved s u) : u.bmx = s.bmx := by rw [h.only]; rfl

theorem now (h : LinksMoved s u) : u.now = s.now := by rw [h.only]; rfl

theorem stc (h : LinksMoved s u) : u.stc = s.stc := by rw [h.only]; rfl

theorem of_mac (h : MacMoved PowerShown s u) : LinksMoved s u :=
  ⟨h.only.trans (by rw [h.only]; rfl), h.keeps⟩

theorem of_dng (h : DngMoved PowerShown s u) : LinksMoved s u :=
  ⟨h.only.trans (by rw [h.only]; rfl), h.keeps⟩

theorem cloveHost (s : State) : LinksMoved s s.cloveHost := by
  have h : s.cloveHost = { s with clove := s.cloveHost.clove, regs := s.cloveHost.regs } := CloveAlone.cloveHost s
  exact ⟨h.trans (by rw [h]; rfl), fun r hr => clv_cloveHost s r (by simp only [PowerShown] at hr; omega)⟩

theorem each {α : Type} {f : State → α → State} {l : List α} (h : ∀ s, ∀ x ∈ l, LinksMoved s (f s x)) (s : State) :
    LinksMoved s (s.each l f) := by
  induction l generalizing s with
  | nil => exact refl s
  | cons x l ih =>
    exact (h s x List.mem_cons_self).trans (ih (fun s y hy => h s y (List.mem_cons_of_mem _ hy)) (f s x))

end LinksMoved

end Sys2Proof

namespace Sys2Proof

open Sys2Proof.Machine

/-! A power state is entered (R370, R371). -/

/-- Every link is turned off. -/
def portsOff (s : State) : State :=
  (s.each (upTo 2) (fun s n => s.macEnable n false)).each (upTo 4) (fun s n => s.dngEnable n false)

theorem macOff_stat {m n : Nat} (h : n ≠ m) : MacOff m (· = (MAC_STAT n).addr) where
  fixed r hr := by
    simp only [List.mem_cons, List.not_mem_nil, or_false] at hr
    rcases hr with rfl | rfl | rfl | rfl | rfl | rfl
    all_goals
      simp only [MAC_STAT, MAC_INT, MAC_PHYERR_CNT, MAC_TXLINKDN_CNT, MAC_DESCERR_CNT, MAC_SEG_ABORT]
      omega
  head t := by
    simp only [MAC_STAT, MAC_TXQ_HEAD]
    omega

/-- What Saffron's operations write stands below the network ports and the links. -/
theorem dngOff_of_far {m : Nat} {p : Nat → Prop} (hfar : ∀ a, p a → 0x50060000 ≤ a)
    (h : ∀ r ∈ [DNG_L_STAT m, DNG_L_INT m, DNG_L_RETRY_CNT m, DNG_L_EVLOST_CNT m, DNG_STAT], ¬ p r.addr) : DngOff m p where
  fixed := h
  shared r hr hpr := by
    have hlow : ∀ q ∈ sharedRegs, q.addr < 0x50060000 := by decide
    exact absurd (hfar _ hpr) (Nat.not_le.2 (hlow r hr))
  entry j hj r hr hpr := by
    have hlow : ∀ j < 8, ∀ q ∈ entryRegs j, q.addr < 0x50060000 := by decide
    exact absurd (hfar _ hpr) (Nat.not_le.2 (hlow j hj r hr))

theorem dngOff_macStat {m n : Nat} (hn : n < 2) : DngOff m (· = (MAC_STAT n).addr) :=
  dngOff_of_far (by rintro a rfl; simp only [MAC_STAT]; omega) fun r hr => by
    simp only [List.mem_cons, List.not_mem_nil, or_false] at hr
    rcases hr with rfl | rfl | rfl | rfl | rfl
    all_goals
      simp only [MAC_STAT, DNG_L_STAT, DNG_L_INT, DNG_L_RETRY_CNT, DNG_L_EVLOST_CNT, DNG_STAT]
      omega

theorem dngOff_stat {m n : Nat} (hn : n < 4) (h : n ≠ m) : DngOff m (· = (DNG_L_STAT n).addr) :=
  dngOff_of_far (by rintro a rfl; simp only [DNG_L_STAT]; omega) fun r hr => by
    simp only [List.mem_cons, List.not_mem_nil, or_false] at hr
    rcases hr with rfl | rfl | rfl | rfl | rfl
    all_goals
      simp only [DNG_L_STAT, DNG_L_INT, DNG_L_RETRY_CNT, DNG_L_EVLOST_CNT, DNG_STAT]
      omega

theorem macLink_congr {s u : State} {n : Nat} (h : u.rd (MAC_STAT n) = s.rd (MAC_STAT n)) : u.macLink n = s.macLink n :=
  congrArg (bits · 1 0) h

theorem portsOff_links (s : State) : LinksMoved s (portsOff s) :=
  (LinksMoved.each (f := fun s n => s.macEnable n false)
    (fun t _ hn => .of_mac ((MacMoved.refl t).macEnable (macOff_powerShown (List.mem_range.1 hn)) false)) s).trans
  (.each (f := fun s n => s.dngEnable n false)
    (fun t _ hn => .of_dng ((DngMoved.refl t).dngEnable (dngOff_powerShown (List.mem_range.1 hn)) false)) _)

theorem portsOff_macLink (s : State) : ∀ n < 2, (portsOff s).macLink n = 0 := by
  intro n hn
  have hmac : (s.each (upTo 2) (fun s n => s.macEnable n false)).macLink n = 0 :=
    each_forall (Q := fun n t => t.macLink n = 0) (fun t m _ => macLink_macEnable_off t m)
      (fun t m _ n _ h => by
        by_cases he : n = m
        · rw [he]
          exact macLink_macEnable_off t m
        · exact (macLink_congr (((MacMoved.refl t).macEnable (macOff_stat he) false).keeps _ rfl)).trans h)
      s n (List.mem_range.2 hn)
  unfold portsOff
  generalize s.each (upTo 2) (fun s n => s.macEnable n false) = t at *
  refine (macLink_congr ?_).trans hmac
  exact (DngMoved.each (f := fun s n => s.dngEnable n false) (fun w m => (DngMoved.refl w).dngEnable (dngOff_macStat hn) false) (upTo 4) t).keeps _ rfl

theorem portsOff_dngState (s : State) : ∀ n < 4, (portsOff s).dngState n = 0 := fun n hn =>
  each_forall (Q := fun n t => t.dngState n = 0) (f := fun s n => s.dngEnable n false)
    (fun t m _ => dngState_dngEnable_off t m)
    (fun t m _ k hk h => by
      by_cases he : k = m
      · rw [he]
        exact dngState_dngEnable_off t m
      · exact (dngState_congr (((DngMoved.refl t).dngEnable
          (dngOff_stat (List.mem_range.1 hk) he) false).keeps _ rfl)).trans h)
    _ n (List.mem_range.2 hn)

/-- With no frame on a wire or held back, memory stays. -/
theorem portsOff_mem {s : State} (h : ∀ n < 2, (s.mac n).wire = none ∧ (s.mac n).held = none) : (portsOff s).mem = s.mem := by
  have hdng : ∀ t : State, (t.each (upTo 4) (fun s n => s.dngEnable n false)).mem = t.mem := fun t =>
    (DngMoved.each (p := fun _ => False) (f := fun s n => s.dngEnable n false) (fun w m => (DngMoved.refl w).dngEnable
      ⟨fun _ _ h => h, fun _ _ h => h, fun _ _ _ _ h => h⟩ false) (upTo 4) t).mem
  have htwo : s.each (upTo 2) (fun s n => s.macEnable n false) = (s.macEnable 0 false).macEnable 1 false := rfl
  obtain ⟨hmem, hmac⟩ := macEnable_off_idle (h 0 (by omega)).1 (h 0 (by omega)).2
  have hone := hmac 1 (by omega)
  obtain ⟨hmem', -⟩ := macEnable_off_idle (s := s.macEnable 0 false) (n := 1) (by rw [hone]; exact (h 1 (by omega)).1)
    (by rw [hone]; exact (h 1 (by omega)).2)
  unfold portsOff
  rw [hdng, htwo, hmem', hmem]

/-- The state shows, with the cores noted that were booting. -/
def enterShown (s : State) (t : Nat) : State :=
  { s.wrF PWR_STAT 2 0 t with pwr := { s.pwr with
      entering := none, at_ := s.now,
      booting := if 2 ≤ t then (upTo 2).filter (fun c => s.coreState c = 1) else [] } }

/-- In S2 to S4 the cores halt. -/
def coresHalted (s : State) (t : Nat) : State := if 2 ≤ t then coresTurned (fun x => 1 ≤ x) (fun _ => 3) s else s

/-- In S3 and S4 HB_TX is low, and in S4 the host's link is down. -/
def pinsDown (s : State) (t : Nat) : State :=
  let s := if 3 ≤ t then { s with ani := { s.ani with hbTx := false } } else s
  if t = 4 then s.wr HIF_STAT 0 else s

theorem pwrEnter_eq {s : State} {t : Nat} (h : s.pwr.entering = some t) (htxns : s.bmx.txns = []) (hwait : s.portWait = []) :
    s.pwrEnter = (pinsDown (coresHalted (portsOff (enterShown s t)) t) t).cloveHost := by
  have hidle : s.noAccess = true := by rw [State.noAccess, htxns, hwait]; rfl
  unfold State.pwrEnter
  rw [hidle, if_pos rfl, h]
  rfl

theorem pwrEnter_busy {s : State} (h : s.bmx.txns ≠ [] ∨ s.portWait ≠ []) : s.pwrEnter = s := by
  have hbusy : s.noAccess = false := by
    rw [State.noAccess]
    rcases h with h | h
    · rw [List.isEmpty_eq_false_iff.2 h, Bool.false_and]
    · rw [List.isEmpty_eq_false_iff.2 h, Bool.and_false]
  unfold State.pwrEnter
  rw [hbusy]
  rfl

theorem enterShown_spec (s : State) {t : Nat} (ht : t ≤ 4) :
    (enterShown s t).pwrState = t ∧ (∀ c, (enterShown s t).coreState c = s.coreState c) ∧
    (∀ c < 2, c ∈ (enterShown s t).pwr.booting ↔ 2 ≤ t ∧ s.coreState c = 1) := by
  refine ⟨(rdF_wrF_same s _ (by omega) (by omega) t).trans (Nat.mod_eq_of_lt (by omega)), fun c => ?_, fun c hc => ?_⟩
  · exact congrArg (bits · (4 * c + 1) (4 * c)) (State.rd_wrF_other s _ _ _ (by decide))
  · have hboot : (enterShown s t).pwr.booting = if 2 ≤ t then (upTo 2).filter (fun c => s.coreState c = 1) else [] := rfl
    rw [hboot]
    split
    · next h => simp [upTo, h, hc]
    · next h => simp [h]

theorem coresHalted_spec (s : State) (t : Nat) : RegsAlone (· ≠ HSE_CORE_STAT.addr) s (coresHalted s t) ∧
    ∀ c < 2, (coresHalted s t).coreState c = if 2 ≤ t ∧ 1 ≤ s.coreState c then 3 else s.coreState c := by
  unfold coresHalted
  split
  · next h =>
    refine ⟨coresTurned_only s, fun c hc => (coresTurned_state (by omega) s hc).trans ?_⟩
    simp [h]
  · next h => exact ⟨.refl s, fun c _ => (if_neg fun hc => h hc.1).symm⟩

theorem pinsDown_spec (s : State) (t : Nat) : KeepsAt (· ≠ HIF_STAT.addr) s (pinsDown s t) ∧
    (pinsDown s t).pwr = s.pwr ∧ (pinsDown s t).mem = s.mem ∧ (3 ≤ t → (pinsDown s t).ani.hbTx = false) ∧
    (t = 4 → (pinsDown s t).rd HIF_STAT = 0) := by
  unfold pinsDown
  dsimp only
  refine ⟨?_, ?_, ?_, fun h => ?_, fun h => ?_⟩
  · have hbeat : KeepsAt (· ≠ HIF_STAT.addr) s (if 3 ≤ t then { s with ani := { s.ani with hbTx := false } } else s) :=
      .ite (.of_regs rfl) (.refl s)
    exact .ite (hbeat.wr (by simp) 0) hbeat
  · split <;> split <;> rfl
  · split <;> split <;> rfl
  · rw [if_pos h]
    split <;> rfl
  · rw [if_pos h]
    exact State.rd_wr_same _ _ _

theorem coreState_congr {s u : State} (h : u.rd HSE_CORE_STAT = s.rd HSE_CORE_STAT) (c : Nat) :
    u.coreState c = s.coreState c := congrArg (bits · (4 * c + 1) (4 * c)) h

theorem pwrState_congr {s u : State} (h : u.rd PWR_STAT = s.rd PWR_STAT) : u.pwrState = s.pwrState :=
  congrArg (bits · 2 0) h

/-- What the power state that is entered leaves. -/
theorem powerStates_enter (s : State) (t : Nat) (hentering : s.pwr.entering = some t) (ht : t ≤ 4) :
    Gives .powerStateEnter s fun u =>
    (s.bmx.txns ≠ [] ∨ s.portWait ≠ [] → OnlyRegs s u []) ∧
    (s.bmx.txns = [] → s.portWait = [] →
      u.pwrState = t ∧ u.pwr.entering = none ∧ (∀ n < 2, u.macLink n = 0) ∧ (∀ n < 4, u.dngState n = 0) ∧
      (∀ c < 2, u.coreState c = (if 2 ≤ t ∧ 1 ≤ s.coreState c then 3 else s.coreState c)) ∧
      (∀ c < 2, c ∈ u.pwr.booting ↔ 2 ≤ t ∧ s.coreState c = 1) ∧
      (3 ≤ t → u.ani.hbTx = false) ∧ (t = 4 → u.rd HIF_STAT = 0) ∧
      ((∀ n < 2, (s.mac n).wire = none ∧ (s.mac n).held = none) → u.mem = s.mem)) := by
  refine (gives_iff_of_done (t := s.pwrEnter) rfl).2 ⟨fun hbusy => ?_, fun htxns hwait => ?_⟩
  · rw [pwrEnter_busy hbusy]
    exact .settle s
  · rw [pwrEnter_eq hentering htxns hwait]
    obtain ⟨hstate, hcore, hboot⟩ := enterShown_spec s ht
    have hentered : (enterShown s t).pwr.entering = none := rfl
    have hframes : (∀ n < 2, (s.mac n).wire = none ∧ (s.mac n).held = none) →
        (portsOff (enterShown s t)).mem = s.mem := fun h => portsOff_mem (s := enterShown s t) h
    generalize enterShown s t = v at *
    have hoff := portsOff_links v
    have hmac := portsOff_macLink v
    have hdng := portsOff_dngState v
    generalize portsOff v = w at *
    obtain ⟨hhalt, hhalted⟩ := coresHalted_spec w t
    generalize coresHalted w t = x at *
    obtain ⟨hpins, hpinpwr, hpinmem, hhb, hhif⟩ := pinsDown_spec x t
    generalize pinsDown x t = y at *
    have hclove := LinksMoved.cloveHost y
    have hclv := clv_cloveHost y
    have hymem := mem_cloveHost y
    generalize y.cloveHost = z at *
    have hxmem : x.mem = w.mem := (congrArg State.mem hhalt.only).trans rfl
    have hxpwr : x.pwr = w.pwr := (congrArg State.pwr hhalt.only).trans rfl
    have hpwr : z.settle.pwr = v.pwr := ((hclove.pwr.trans hpinpwr).trans hxpwr).trans hoff.pwr
    have hshown := fun {r : Reg} (hc : r.addr < 0x50030000 ∨ 0x50040000 ≤ r.addr) (hr : r.addr ≠ HIF_STAT.addr) =>
      ((State.rd_settle z r).trans (hclv r hc)).trans (hpins r hr)
    have hkept := fun {r : Reg} (hc : r.addr < 0x50030000 ∨ 0x50040000 ≤ r.addr) (hr : r.addr ≠ HIF_STAT.addr)
      (hr' : r.addr ≠ HSE_CORE_STAT.addr) => (hshown hc hr).trans (hhalt.keeps r hr')
    refine ⟨?_, ?_, fun n hn => ?_, fun n hn => ?_, fun c hc => ?_, fun c hc => ?_, fun h => ?_, fun h => ?_, fun h => ?_⟩
    · refine (pwrState_congr ((hkept (by decide) (by decide) (by decide)).trans (hoff.keeps _ ?_))).trans hstate
      exact .inl (by decide)
    · rw [hpwr, hentered]
    · refine (macLink_congr (hkept ?_ ?_ ?_)).trans (hmac n hn)
      all_goals
        simp only [MAC_STAT, HIF_STAT, HSE_CORE_STAT]
        omega
    · refine (dngState_congr (hkept ?_ ?_ ?_)).trans (hdng n hn)
      all_goals
        simp only [DNG_L_STAT, HIF_STAT, HSE_CORE_STAT]
        omega
    · have hwcore : w.coreState c = s.coreState c :=
        (coreState_congr (hoff.keeps _ (.inr (by decide))) c).trans (hcore c)
      rw [coreState_congr (hshown (r := HSE_CORE_STAT) (by decide) (by decide)) c, hhalted c hc, hwcore]
    · rw [hpwr]
      exact hboot c hc
    · exact (congrArg Anise.hbTx hclove.ani).trans (hhb h)
    · exact ((State.rd_settle z HIF_STAT).trans (hclv HIF_STAT (by decide))).trans (hhif h)
    · exact ((hymem.trans hpinmem).trans hxmem).trans (hframes h)

end Sys2Proof

namespace Sys2Proof

open Sys2Proof.Machine

/-! The host's requests that waited for the exit (R349, R372). -/

/-- The state with what the host's requests change as in another. -/
def withHost (s u : State) : State := { withPorts s u with hif := u.hif, reqs := u.reqs, nextReq := u.nextReq }

/-- No request of the host waits for the exit. -/
def noneLater (s : State) : State := { s with hif := { s.hif with later := [] } }

/-- Nothing changes but what the host's requests change. -/
structure HostServed (s u : State) : Prop where
  only : u = withHost s u
  keeps : KeepsAt PortsKeep s u

namespace HostServed

variable {s t u : State}

theorem refl (s : State) : HostServed s s := ⟨rfl, .refl s⟩

theorem trans (h : HostServed s t) (k : HostServed t u) : HostServed s u :=
  ⟨k.only.trans (congrArg (fun x => withHost x u) h.only : withHost t u = withHost (withHost s t) u),
    h.keeps.trans k.keeps⟩

theorem quiet (hregs : u.regs = s.regs) (h : u = withHost s u) : HostServed s u := ⟨h, .of_regs hregs⟩

theorem of_ports (h : PortsAlone s u) : HostServed s u := ⟨h.only.trans (by rw [h.only]; rfl), h.keeps⟩

theorem pwr (h : HostServed s u) : u.pwr = s.pwr := by rw [h.only]; rfl

theorem after (k : HostServed t u) (h : HostServed s t) : HostServed s u := h.trans k

theorem hostReq (s : State) (fn : Nat) (write : Bool) (a : Nat) (d : List (Byte × Bool)) :
    HostServed s (s.hostReq fn write a d) := by
  unfold State.hostReq
  split
  · exact refl s
  · exact (of_ports (PortsAlone.portGo _)).after (quiet rfl rfl)

theorem msixPut (s : State) (fn : Nat) (m : Msix) : HostServed s (s.msixPut fn m) := quiet rfl rfl

theorem msixWrite (s : State) (fn off : Nat) (d : Word) : HostServed s (s.msixWrite fn off d) := by
  unfold State.msixWrite
  extract_lets i v m
  split
  · split
    · split
      · exact quiet rfl rfl
      · exact msixPut _ _ _
    · exact quiet rfl rfl
  · exact refl s

theorem hostWord (s : State) (fn : Nat) (w : Word) : HostServed s (s.hostWord fn w) := quiet rfl rfl

theorem cfgWrite (s : State) (fn : Nat) (i : CfgItem) (d : Word) : HostServed s (s.cfgWrite fn i d) := by
  cases i with
  | ids => exact refl s
  | classCode => exact refl s
  | subsystem => exact refl s
  | msixControl => exact msixPut _ _ _
  | deviceControl =>
    unfold State.cfgWrite
    dsimp only
    split
    · exact quiet rfl rfl
    · exact refl s
  | aerStatus =>
    unfold State.cfgWrite
    dsimp only
    split
    · exact quiet rfl rfl
    · exact refl s

theorem tlpNow (s : State) (t : Tlp) : HostServed s (s.tlpNow t) := by
  cases t with
  | read fn a en => exact hostReq _ _ _ _ _
  | write fn a d => exact hostReq _ _ _ _ _
  | msixWrite fn off d => exact msixWrite _ _ _ _
  | msixRead fn off => exact hostWord _ _ _
  | cfgRead fn i => exact hostWord _ _ _
  | cfgWrite fn i d => exact cfgWrite _ _ _ _

theorem each {α : Type} {f : State → α → State} (h : ∀ s x, HostServed s (f s x)) (l : List α) (s : State) :
    HostServed s (s.each l f) := by
  induction l generalizing s with
  | nil => exact refl s
  | cons x l ih => exact (h s x).trans (ih (f s x))

theorem tlpLate (s : State) : HostServed s s.tlpLate :=
  (each tlpNow s.hif.later (noneLater s)).after (quiet rfl rfl)

end HostServed

/-! A stay ends (R371). -/

/-- The links that are enabled acquire and train again. -/
def portsOn (s : State) : State :=
  (s.each (upTo 2) (fun s n => if s.rdB (MAC_CTRL n) 0 then s.macEnable n true else s)).each (upTo 4)
    (fun s n => if s.rdB (DNG_L_CTRL n) 0 then s.dngEnable n true else s)

theorem portsOn_links (s : State) : LinksMoved s (portsOn s) :=
  (LinksMoved.each (f := fun s n => if s.rdB (MAC_CTRL n) 0 then s.macEnable n true else s)
    (fun t _ hn => .of_mac (.ite ((MacMoved.refl t).macEnable (macOff_powerShown (List.mem_range.1 hn)) true) (.refl t))) s).trans
  (.each (f := fun s n => if s.rdB (DNG_L_CTRL n) 0 then s.dngEnable n true else s)
    (fun t _ hn => .of_dng (.ite ((DngMoved.refl t).dngEnable (dngOff_powerShown (List.mem_range.1 hn)) true) (.refl t))) _)

/-- The end of a stay as the registers show it. -/
def exitRegs (s : State) (w : Nat) : State := ((s.wrF PWR_STAT 2 0 0).wrF PWR_STAT 20 16 w).raise PWR_INT 1#32

def resumeShown (s : State) (w : Nat) : State :=
  { exitRegs s w with pwr := { s.pwr with woke := none, booting := [] } }

/-- The cores go on as they were. -/
def coresResumed (s : State) (boots : List Nat) : State :=
  coresTurned (fun x => x = 3) (fun c => if boots.contains c then 1 else 2) s

/-- Times that run while the clocks run go on, and a new window starts. -/
def clocksResumed (s : State) (d : Nat) : State :=
  { s with
    house := { s.house with due := s.house.due.map (fun (x : Nat × Nat) => (x.1, x.2 + d)) }
    saf := { s.saf with
      winAt := s.now, tSum := 0, tNum := 0
      refs := s.saf.refs.map (fun (x : Nat × SafRef) => (x.1, { x.2 with disc := 0 }))
      hAge := s.saf.hAge + (s.now - s.saf.winAt), pAge := s.saf.pAge + (s.now - s.saf.winAt) } }

theorem pwrResume_eq (s : State) (t w : Nat) : s.pwrResume t w =
    if 2 ≤ t then
      (clocksResumed (coresResumed (portsOn (resumeShown s w)) s.pwr.booting) (s.now - s.pwr.at_)).cloveHost.portGo
    else portsOn (resumeShown s w) := rfl

theorem exitRegs_spec (s : State) {w : Nat} (hw : w < 32) : (exitRegs s w).pwrState = 0 ∧
    (exitRegs s w).rdF PWR_STAT 20 16 = w ∧ (exitRegs s w).rdB PWR_INT 0 = true ∧
    KeepsAt (fun a => a ≠ PWR_STAT.addr ∧ a ≠ PWR_INT.addr) s (exitRegs s w) := by
  unfold exitRegs
  set t := s.wrF PWR_STAT 2 0 0
  have hstat := State.rd_raise_other (t.wrF PWR_STAT 20 16 w) (q := PWR_STAT) (r := PWR_INT) 1#32 (by decide)
  refine ⟨?_, ?_, rdB_raise_same _ _ (by decide), ?_⟩
  · exact ((congrArg (bits · 2 0) hstat).trans (rdF_wrF_apart t _ (by omega) (by omega) (by omega) w)).trans
      (rdF_wrF_same s _ (by omega) (by omega) 0)
  · exact ((congrArg (bits · 20 16) hstat).trans (rdF_wrF_same t _ (by omega) (by omega) w)).trans (Nat.mod_eq_of_lt hw)
  · exact (((KeepsAt.refl s).wrF (by simp) _ _ _).wrF (by simp) _ _ _).raise (by simp) _

end Sys2Proof

namespace Sys2Proof

open Sys2Proof.Machine

/-! The exit from a power state (R371 to R374). -/

/-- The word of PWR_STAT and the flags, the host's side and the cores after the exit from S1 to S3. -/
structure Resumed (s e : State) (t w : Nat) : Prop where
  stat : e.rd PWR_STAT = (exitRegs s w).rd PWR_STAT
  int : e.rd PWR_INT = (exitRegs s w).rd PWR_INT
  woke : e.pwr.woke = none
  core : ∀ c < 2, e.coreState c =
    (if 2 ≤ t ∧ s.coreState c = 3 then (if c ∈ s.pwr.booting then 1 else 2) else s.coreState c)
  hif : e.hif = s.hif
  reqs : e.reqs = s.reqs
  nextReq : e.nextReq = s.nextReq
  waits : ∃ v : State, v.portWait = s.portWait ∧ (e = v ∨ e = v.portGo)

theorem resumeShown_rest (s : State) (w : Nat) : (∀ r, (resumeShown s w).rd r = (exitRegs s w).rd r) ∧
    (resumeShown s w).pwr.woke = none ∧ (resumeShown s w).hif = s.hif ∧ (resumeShown s w).reqs = s.reqs ∧
    (resumeShown s w).nextReq = s.nextReq ∧ (resumeShown s w).portWait = s.portWait := by
  have honly : exitRegs s w = { s with regs := (exitRegs s w).regs } :=
    ((((RegsAlone.refl (p := fun _ => False) s).wrF id _ _ _).wrF id _ _ _).raise id _).only
  unfold resumeShown
  generalize exitRegs s w = v at *
  rw [honly]
  exact ⟨fun _ => rfl, rfl, rfl, rfl, rfl, rfl⟩

theorem resumed_ports (s : State) {t : Nat} (ht : t < 2) (w : Nat) : Resumed s (portsOn (resumeShown s w)) t w := by
  obtain ⟨hregs, hwoke, hhif, hreqs, hnext, hwait⟩ := resumeShown_rest s w
  have hcore : (exitRegs s w).rd HSE_CORE_STAT = s.rd HSE_CORE_STAT :=
    (((KeepsAt.refl s).wrF (p := (· = HSE_CORE_STAT.addr)) (r := PWR_STAT) (by decide) 2 0 0).wrF (r := PWR_STAT) (by decide)
      20 16 w).raise (r := PWR_INT) (by decide) 1#32 HSE_CORE_STAT rfl
  generalize resumeShown s w = v at *
  have hon := portsOn_links v
  refine ⟨?_, ?_, ?_, fun c _ => ?_, hon.hif.trans hhif, hon.reqs.trans hreqs, hon.nextReq.trans hnext, _,
    hon.portWait.trans hwait, .inl rfl⟩
  · exact (hon.keeps PWR_STAT (.inl (by decide))).trans (hregs _)
  · exact (hon.keeps PWR_INT (.inl (by decide))).trans (hregs _)
  · rw [hon.pwr, hwoke]
  · rw [if_neg (by omega)]
    exact coreState_congr (((hon.keeps HSE_CORE_STAT (.inr (by decide))).trans (hregs _)).trans hcore) c

theorem coresResumed_spec (s : State) (boots : List Nat) : RegsAlone (· ≠ HSE_CORE_STAT.addr) s (coresResumed s boots) ∧
    ∀ c < 2, (coresResumed s boots).coreState c =
      if s.coreState c = 3 then (if c ∈ boots then 1 else 2) else s.coreState c := by
  refine ⟨coresTurned_only s, fun c hc => ?_⟩
  refine (coresTurned_state (fun c => by split <;> omega) s hc).trans ?_
  simp only [List.contains_iff_mem]

/-- After S2 or S3 the cores and the clocks go on as well. -/
theorem resumed_clocks (s : State) {t : Nat} (ht : 2 ≤ t) (w : Nat) : Resumed s (s.pwrResume t w) t w := by
  rw [pwrResume_eq, if_pos ht]
  obtain ⟨hstat, hint, hwoke, hcore, hhif, hreqs, hnext, -⟩ := resumed_ports s (t := 0) (by omega) w
  have hpw : (portsOn (resumeShown s w)).portWait = s.portWait := (portsOn_links _).portWait.trans (resumeShown_rest s w).2.2.2.2.2
  generalize portsOn (resumeShown s w) = v at *
  obtain ⟨hcores, hresumed⟩ := coresResumed_spec v s.pwr.booting
  generalize coresResumed v s.pwr.booting = x at *
  have hxpwr : x.pwr = v.pwr := (congrArg State.pwr hcores.only).trans rfl
  have hxhif : x.hif = v.hif := (congrArg State.hif hcores.only).trans rfl
  have hxreqs : x.reqs = v.reqs := (congrArg State.reqs hcores.only).trans rfl
  have hxnext : x.nextReq = v.nextReq := (congrArg State.nextReq hcores.only).trans rfl
  have hxwait : x.portWait = v.portWait := (congrArg State.portWait hcores.only).trans rfl
  have hclove := LinksMoved.cloveHost (clocksResumed x (s.now - s.pwr.at_))
  have hyregs : ∀ r, (clocksResumed x (s.now - s.pwr.at_)).rd r = x.rd r := fun r => State.rd_congr rfl r
  have hyrest : (clocksResumed x (s.now - s.pwr.at_)).pwr = x.pwr ∧ (clocksResumed x (s.now - s.pwr.at_)).hif = x.hif ∧
      (clocksResumed x (s.now - s.pwr.at_)).reqs = x.reqs ∧ (clocksResumed x (s.now - s.pwr.at_)).nextReq = x.nextReq ∧
      (clocksResumed x (s.now - s.pwr.at_)).portWait = x.portWait := ⟨rfl, rfl, rfl, rfl, rfl⟩
  generalize clocksResumed x (s.now - s.pwr.at_) = y at *
  obtain ⟨hypwr, hyhif, hyreqs, hynext, hywait⟩ := hyrest
  generalize y.cloveHost = z at *
  have hports := PortsAlone.portGo z
  have hkept := fun {r : Reg} (hk : PortsKeep r.addr) (hp : PowerShown r.addr) =>
    (hports.keeps r hk).trans ((hclove.keeps r hp).trans (hyregs r))
  refine ⟨?_, ?_, ?_, fun c hc => ?_, ?_, ?_, ?_, z, ?_, .inr rfl⟩
  · exact ((hkept (by decide) (.inl (by decide))).trans (hcores.keeps PWR_STAT (by decide))).trans hstat
  · exact ((hkept (by decide) (.inl (by decide))).trans (hcores.keeps PWR_INT (by decide))).trans hint
  · rw [hports.pwr, hclove.pwr, hypwr, hxpwr, hwoke]
  · have hvcore : v.coreState c = s.coreState c := (hcore c hc).trans (if_neg (by omega))
    rw [coreState_congr (hkept (r := HSE_CORE_STAT) (by decide) (.inr (by decide))) c, hresumed c hc, hvcore]
    simp only [ht, true_and]
  · rw [hports.hif, hclove.hif, hyhif, hxhif, hhif]
  · rw [hports.reqs, hclove.reqs, hyreqs, hxreqs, hreqs]
  · rw [hports.nextReq, hclove.nextReq, hynext, hxnext, hnext]
  · rw [hclove.portWait, hywait, hxwait, hpw]

theorem pwrExit_resumes {s : State} {w : Nat} (hwoke : s.pwr.woke = some w) (h1 : 1 ≤ s.pwrState) (h3 : s.pwrState ≤ 3) :
    Resumed s s.pwrExit s.pwrState w := by
  have hexit : s.pwrExit = s.pwrResume s.pwrState w := by
    rw [State.pwrExit, hwoke]
    exact if_pos ⟨h1, h3⟩
  rw [hexit]
  by_cases ht : 2 ≤ s.pwrState
  · exact resumed_clocks s ht w
  · rw [pwrResume_eq, if_neg ht]
    exact resumed_ports s (by omega) w

/-- The exit from S4 (R373). -/
def deepExit (s : State) (w : Nat) : State :=
  (((s.deepRestart 3).wrF PWR_STAT 20 16 w).raise PWR_INT 1#32).wrB PWR_AON_STAT 1 true

theorem pwrExit_deep {s : State} {w : Nat} (hwoke : s.pwr.woke = some w) (h : s.pwrState = 4) : s.pwrExit = deepExit s w := by
  rw [State.pwrExit, hwoke]
  dsimp only
  rw [if_neg (by omega), if_pos h]
  rfl

/-- The registers after a restart of the device with a cause (R373, R376). -/
theorem rd_deepRestart (s : State) (b : Nat) {r : Reg} (h : r.addr ≠ SYS_RST_CAUSE.addr) :
    (s.deepRestart b).rd r = if aonReg r.addr then s.rd r else r.reset := by
  have hrd : (s.deepRestart b).rd r = ((s.blocksReset false s.boot.pins).resetCause b).rd r := State.rd_congr rfl r
  rw [hrd, State.resetCause, State.rd_wrB_other _ _ _ h, rd_blocksReset, Bool.false_and, Bool.or_false]

theorem rdB_deepRestart (s : State) {b : Nat} (h : b < 32) : (s.deepRestart b).rdB SYS_RST_CAUSE b = true :=
  rdB_resetCause (s.blocksReset false s.boot.pins) h

theorem deepRestart_kept (s : State) (b : Nat) : (s.deepRestart b).stc = 0 ∧ (s.deepRestart b).boot.step = .fuses ∧
    (s.deepRestart b).pwr = {} ∧ (s.deepRestart b).hif = {} := ⟨rfl, rfl, rfl, rfl⟩

/-- Whether an address lies in a fenced unit. -/
def fencedAt (s : State) (a : Nat) : Bool :=
  match unitAt a with
  | some u => s.fenced u
  | none => false

theorem fencedAt_false {s : State} {a : Nat} (h : ∀ x, unitAt a = some x → s.fenced x = false) : fencedAt s a = false := by
  unfold fencedAt
  split
  · next u hu => exact h u hu
  · rfl

/-- A restart leaves no word of a unit that is not fenced (R373). -/
theorem sget_deepRestart (s : State) (b : Nat) {a : Nat} (h : ∀ x, unitAt a = some x → s.fenced x = false) :
    sget 0 (s.deepRestart b).mem a = 0 := by
  have hmem : (s.deepRestart b).mem = s.mem.filter (fun kv => fencedAt s kv.1) := rfl
  rw [hmem, sget_filter_key 0 s.mem (fencedAt s) a, fencedAt_false h]
  rfl

/-- The exit from S4, as it shows. -/
theorem deepExit_spec (s : State) {w : Nat} (hw : w < 32) : (deepExit s w).pwrState = 0 ∧
    (deepExit s w).rdF PWR_STAT 20 16 = w ∧ (deepExit s w).rdB PWR_AON_STAT 1 = true ∧ (deepExit s w).running = false ∧
    (∀ r : Reg, aonReg r.addr = false → r.addr ∉ [PWR_STAT.addr, PWR_INT.addr] → (deepExit s w).rd r = r.reset) := by
  have hreset : ∀ r : Reg, aonReg r.addr = false → (s.deepRestart 3).rd r = r.reset := fun r hr => by
    rw [rd_deepRestart s 3 (fun e => by rw [e] at hr; exact absurd hr (by decide)), hr]
    rfl
  have hkeeps : KeepsAt (fun a => a ≠ PWR_STAT.addr ∧ a ≠ PWR_INT.addr ∧ a ≠ PWR_AON_STAT.addr) (s.deepRestart 3) (deepExit s w) :=
    (((KeepsAt.refl _).wrF (by simp) _ _ _).raise (by simp) _).wrB (by simp) _ _
  have hstat : (deepExit s w).rd PWR_STAT = ((s.deepRestart 3).wrF PWR_STAT 20 16 w).rd PWR_STAT :=
    (State.rd_wrB_other _ _ _ (by decide)).trans (State.rd_raise_other _ _ (by decide))
  refine ⟨?_, ?_, rdB_wrB_same _ _ (by omega) _, ?_, fun r haon hr => ?_⟩
  · refine (congrArg (bits · 2 0) hstat).trans ((rdF_wrF_apart _ _ (by omega) (by omega) (by omega) w).trans ?_)
    exact (congrArg (bits · 2 0) (hreset PWR_STAT (by decide))).trans (by decide)
  · exact ((congrArg (bits · 20 16) hstat).trans (rdF_wrF_same _ _ (by omega) (by omega) w)).trans (Nat.mod_eq_of_lt hw)
  · rw [State.running, State.rdB, hkeeps SYS_FRM_STAT (by decide), hreset SYS_FRM_STAT (by decide)]
    decide
  · simp only [List.mem_cons, not_or, List.not_mem_nil, not_false_eq_true, and_true] at hr
    obtain ⟨hstat, hint⟩ := hr
    exact (hkeeps r ⟨hstat, hint, fun e => by rw [e] at haon; exact absurd haon (by decide)⟩).trans (hreset r haon)

theorem deepExit_rest (s : State) (w : Nat) : (deepExit s w).mem = (s.deepRestart 3).mem ∧
    (deepExit s w).stc = (s.deepRestart 3).stc ∧ (deepExit s w).boot = (s.deepRestart 3).boot ∧
    (deepExit s w).hif = (s.deepRestart 3).hif := by
  unfold deepExit
  generalize s.deepRestart 3 = v
  have honly := ((((RegsAlone.refl (p := fun _ => False) v).wrF (r := PWR_STAT) id 20 16 w).raise (r := PWR_INT) id 1#32).wrB
    (r := PWR_AON_STAT) id 1 true).only
  rw [honly]
  exact ⟨rfl, rfl, rfl, rfl⟩

/-- A device that is not asleep carries out what waited for it. -/
theorem wakeUp_awake {s : State} (h : s.pwrExit.pwrState = 0) : s.wakeUp = s.pwrExit.tlpLate := by
  have hawake : s.pwrExit.asleep = false := by
    have hzero : s.pwrExit.rdF PWR_STAT 2 0 = 0 := h
    rw [State.asleep, hzero]
    decide
  rw [State.wakeUp]
  exact if_neg (by rw [hawake]; decide)

theorem tlpLate_none {s : State} (h : s.hif.later = []) : s.tlpLate = s := by
  rw [State.tlpLate, h]
  have hsame : ({ s.hif with later := [] } : Hif) = s.hif := by rw [← h]
  rw [hsame]
  rfl

/-- The exit from S1 to S3, with what waited for it. -/
theorem wakeUp_resumes {s : State} {w : Nat} (hwoke : s.pwr.woke = some w) (hw : w < 32) (h1 : 1 ≤ s.pwrState)
    (h3 : s.pwrState ≤ 3) : s.wakeUp.pwrState = 0 ∧ s.wakeUp.rdF PWR_STAT 20 16 = w ∧ s.wakeUp.rdB PWR_INT 0 = true ∧
    s.wakeUp.pwr.woke = none ∧ ∀ c < 2, s.wakeUp.coreState c =
      (if 2 ≤ s.pwrState ∧ s.coreState c = 3 then (if c ∈ s.pwr.booting then 1 else 2) else s.coreState c) := by
  obtain ⟨hstat, hint, hnone, hcore, -, -, -, -⟩ := pwrExit_resumes hwoke h1 h3
  obtain ⟨hzero, hsource, hflag, -⟩ := exitRegs_spec s hw
  rw [wakeUp_awake ((pwrState_congr hstat).trans hzero)]
  generalize exitRegs s w = v at *
  generalize s.pwrExit = e at *
  have hlate := HostServed.tlpLate e
  refine ⟨?_, ?_, ?_, ?_, fun c hc => ?_⟩
  · exact (pwrState_congr ((hlate.keeps _ (by decide)).trans hstat)).trans hzero
  · exact (congrArg (bits · 20 16) ((hlate.keeps _ (by decide)).trans hstat)).trans hsource
  · exact (congrArg (bit · 0) ((hlate.keeps _ (by decide)).trans hint)).trans hflag
  · rw [hlate.pwr, hnone]
  · exact (coreState_congr (hlate.keeps _ (by decide)) c).trans (hcore c hc)

theorem wakeUp_deep {s : State} {w : Nat} (hwoke : s.pwr.woke = some w) (hw : w < 32) (h : s.pwrState = 4) :
    s.wakeUp = deepExit s w := by
  have hexit := pwrExit_deep hwoke h
  rw [wakeUp_awake (by rw [hexit]; exact (deepExit_spec s hw).1), hexit]
  obtain ⟨-, -, -, hhif⟩ := deepExit_rest s w
  refine tlpLate_none ?_
  rw [hhif]
  rfl

/-- What the exit from a power state leaves. -/
theorem powerStates_exit (s : State) (w : Nat) (hwoke : s.pwr.woke = some w) (hw : w < 18) :
    Gives .powerStateExit s fun u =>
    (1 ≤ s.pwrState → s.pwrState ≤ 3 → u.pwrState = 0 ∧ u.rdF PWR_STAT 20 16 = w ∧ u.rdB PWR_INT 0 = true ∧
      u.pwr.woke = none ∧
      ∀ c < 2, u.coreState c =
        (if 2 ≤ s.pwrState ∧ s.coreState c = 3 then (if c ∈ s.pwr.booting then 1 else 2) else s.coreState c)) ∧
    (s.pwrState = 4 → u.stc = 0 ∧ u.pwrState = 0 ∧ u.rdF PWR_STAT 20 16 = w ∧ u.rdB PWR_AON_STAT 1 = true ∧
      u.boot.step = .fuses ∧ u.running = false ∧
      (∀ a, (∀ x, unitAt a = some x → s.fenced x = false) → sget 0 u.mem a = 0) ∧
      (∀ r : Reg, aonReg r.addr = false → r.addr ∉ [PWR_STAT.addr, PWR_INT.addr] → u.rd r = r.reset)) := by
  refine (gives_iff_of_done (t := s.wakeUp) rfl).2 ⟨fun h1 h3 => ?_, fun h4 => ?_⟩
  · obtain ⟨hzero, hsource, hflag, hnone, hcore⟩ := wakeUp_resumes hwoke (by omega) h1 h3
    generalize s.wakeUp = z at *
    have hsettle := State.rd_settle z
    refine ⟨(pwrState_congr (hsettle _)).trans hzero, ?_, ?_, hnone, fun c hc => ?_⟩
    · exact (congrArg (bits · 20 16) (hsettle _)).trans hsource
    · exact (congrArg (bit · 0) (hsettle _)).trans hflag
    · exact (coreState_congr (hsettle _) c).trans (hcore c hc)
  · rw [wakeUp_deep hwoke (by omega) h4]
    obtain ⟨hzero, hsource, haon, hrun, hregs⟩ := deepExit_spec s (w := w) (by omega)
    obtain ⟨hmem, hstc, hboot, -⟩ := deepExit_rest s w
    obtain ⟨hstc', hboot', -, -⟩ := deepRestart_kept s 3
    generalize deepExit s w = z at *
    have hsettle := State.rd_settle z
    refine ⟨(State.settle_stc z).trans (hstc.trans hstc'), ?_, ?_, ?_,
      (congrArg Boot.step ((State.settle_boot z).trans hboot)).trans hboot', ?_, fun a ha => ?_, fun r ha hr => ?_⟩
    · exact (pwrState_congr (hsettle _)).trans hzero
    · exact (congrArg (bits · 20 16) (hsettle _)).trans hsource
    · exact (congrArg (bit · 1) (hsettle _)).trans haon
    · exact (congrArg (bit · 0) (hsettle _)).trans hrun
    · exact (congrArg (sget 0 · a) ((State.settle_mem z).trans hmem)).trans (sget_deepRestart s 3 ha)
    · exact (hsettle r).trans (hregs r ha hr)

theorem powerStates_noWake (s : State) (hwoke : s.pwr.woke = none) (hlater : s.hif.later = []) :
    Gives .powerStateExit s fun u => OnlyRegs s u [] := by
  refine (gives_iff_of_done (t := s.wakeUp) rfl).2 ?_
  have hexit : s.pwrExit = s := by rw [State.pwrExit, hwoke]
  have hsame : s.wakeUp = s := by
    rw [State.wakeUp, hexit]
    rw [tlpLate_none hlater]
    exact ite_self s
  rw [hsame]
  exact .settle s

end Sys2Proof

namespace Sys2Proof

open Sys2Proof.Machine

/-! What a write of registers alone leaves, by parts of the state. -/

namespace RegsAlone

variable {p : Nat → Prop} {s u : State}

theorem mem (h : RegsAlone p s u) : u.mem = s.mem := (congrArg State.mem h.only).trans rfl
theorem pwr (h : RegsAlone p s u) : u.pwr = s.pwr := (congrArg State.pwr h.only).trans rfl
theorem stc (h : RegsAlone p s u) : u.stc = s.stc := (congrArg State.stc h.only).trans rfl
theorem boot (h : RegsAlone p s u) : u.boot = s.boot := (congrArg State.boot h.only).trans rfl

end RegsAlone

/-! Temperatures (R375, R376). -/

/-- A temperature register reads back what it took. -/
theorem sbits_tempWord (x : BitVec 16) : sbits (tempWord x.toInt) 15 0 = x.toInt := by
  have hbits : bits (tempWord x.toInt) 15 0 = x.toNat := by
    have hx := x.isLt
    simp only [bits, tempWord, BitVec.ofInt_toInt, BitVec.toNat_ofNat]
    omega
  have hx := x.isLt
  rw [sbits, hbits, BitVec.toInt_eq_toNat_cond]
  split <;> split <;> omega

theorem temp_of_rd {s : State} {r : Reg} {x : BitVec 16} (h : s.rd r = tempWord x.toInt) : s.temp r = x.toInt := by
  rw [State.temp, h, sbits_tempWord]

theorem temp_congr {s u : State} {r : Reg} (h : u.rd r = s.rd r) : u.temp r = s.temp r := congrArg (sbits · 15 0) h

/-- The hottest of a list of temperatures. -/
def hottest (ts : List Int) : Int := ts.foldl max (ts.headD 0)

theorem foldl_max (ts : List Int) (a : Int) : a ≤ ts.foldl max a ∧ (∀ x ∈ ts, x ≤ ts.foldl max a) ∧
    (ts.foldl max a = a ∨ ts.foldl max a ∈ ts) := by
  induction ts generalizing a with
  | nil => exact ⟨le_refl a, fun x hx => absurd hx List.not_mem_nil, .inl rfl⟩
  | cons x ts ih =>
    obtain ⟨hle, hall, hmem⟩ := ih (max a x)
    rw [List.foldl_cons]
    refine ⟨(le_max_left a x).trans hle, fun y hy => ?_, ?_⟩
    · rcases List.mem_cons.1 hy with rfl | hy
      · exact (le_max_right a y).trans hle
      · exact hall y hy
    · rcases hmem with hmem | hmem
      · rcases max_choice a x with hm | hm
        · exact .inl (hmem.trans hm)
        · exact .inr (by rw [hmem, hm]; exact List.mem_cons_self)
      · exact .inr (List.mem_cons_of_mem _ hmem)

theorem hottest_spec {ts : List Int} (h : ts ≠ []) : hottest ts ∈ ts ∧ ∀ x ∈ ts, x ≤ hottest ts := by
  obtain ⟨-, hall, hmem⟩ := foldl_max ts (ts.headD 0)
  refine ⟨?_, hall⟩
  rcases hmem with hmem | hmem
  · obtain ⟨x, ys, rfl⟩ := List.exists_cons_of_ne_nil h
    have hfirst : hottest (x :: ys) = x := hmem
    rw [hfirst]
    exact List.mem_cons_self
  · exact hmem

/-- The registers of the sensors. -/
def sensed (s : State) (ts : List Int) : State := s.each ts.zipIdx (fun s t => s.wr (PWR_TSENS t.2) (tempWord t.1))

/-- The highest temperature of all. -/
def peakKept (s : State) (top : Int) : State :=
  if !s.pwr.peakSeen || decide (s.temp PWR_TPEAK < top) then s.wr PWR_TPEAK (tempWord top) else s

/-- The sample is noted, for the peak and for the window's mean. -/
def sampleNoted (s : State) (ts : List Int) : State :=
  { s with pwr := { s.pwr with peakSeen := true },
           saf := { s.saf with tSum := s.saf.tSum + ts.foldl (· + ·) 0, tNum := s.saf.tNum + ts.length } }

/-- The registers as they show a sample. -/
def sampleShown (s : State) (ts : List Int) : State :=
  peakKept ((sensed s ts).wr PWR_TMAX (tempWord (hottest ts))) (hottest ts)

/-- Registers below the sensors' are not theirs. -/
theorem sensed_regs (s : State) (ts : List Int) : RegsAlone (· < 0x50010050) s (sensed s ts) :=
  .each (fun t x _ => (RegsAlone.refl t).wr (by simp only [PWR_TSENS]; omega) _) s

theorem sensed_sensor (s : State) (ts : List Int) {i : Nat} {x : Int} (h : ts[i]? = some x) :
    (sensed s ts).rd (PWR_TSENS i) = tempWord x := by
  refine each_forall (Q := fun p t => t.rd (PWR_TSENS p.2) = tempWord p.1)
    (fun t p _ => State.rd_wr_same t _ _) (fun t p hp q hq hkept => ?_) s (x, i) (List.mem_zipIdx_iff_getElem?.2 h)
  by_cases he : q.2 = p.2
  · have hsame : q.1 = p.1 := by
      have hpx := List.mem_zipIdx_iff_getElem?.1 hp
      have hqx := List.mem_zipIdx_iff_getElem?.1 hq
      rw [he, hpx] at hqx
      exact (Option.some.inj hqx).symm
    rw [he, hsame]
    exact State.rd_wr_same t _ _
  · exact (State.rd_wr_other t _ (by simp only [PWR_TSENS]; omega)).trans hkept

theorem peakKept_regs (s : State) (top : Int) : RegsAlone (· ≠ PWR_TPEAK.addr) s (peakKept s top) :=
  .ite ((RegsAlone.refl s).wr (by simp) _) (.refl s)

/-- The peak is the higher of itself and the sample, once there is one. -/
theorem peakKept_peak (s : State) (x : BitVec 16) : (peakKept s x.toInt).temp PWR_TPEAK =
    if s.pwr.peakSeen then max (s.temp PWR_TPEAK) x.toInt else x.toInt := by
  have htook : (s.wr PWR_TPEAK (tempWord x.toInt)).temp PWR_TPEAK = x.toInt := temp_of_rd (State.rd_wr_same s _ _)
  unfold peakKept
  cases hseen : s.pwr.peakSeen with
  | false => simpa [hseen] using htook
  | true =>
    by_cases hlt : s.temp PWR_TPEAK < x.toInt
    · simp only [hlt, Bool.not_true, decide_true, Bool.or_true, if_true, htook]
      exact (max_eq_right (le_of_lt hlt)).symm
    · simp only [hlt, Bool.not_true, decide_false, Bool.or_false, Bool.false_eq_true, if_false, if_true]
      exact (max_eq_left (not_lt.1 hlt)).symm

/-- What a sample leaves: the sensors, the highest of them and of all, and the alarm; the rest of the registers below the
sensors', memory and the power state's other parts stay. -/
structure Sampled (s u : State) (t : List (BitVec 16)) : Prop where
  mem : u.mem = s.mem
  trip : u.pwr.trip = s.pwr.trip
  stc : u.stc = s.stc
  boot : u.boot = s.boot
  sensor : ∀ i x, t[i]? = some x → u.temp (PWR_TSENS i) = x.toInt
  top : u.temp PWR_TMAX = hottest (t.map BitVec.toInt)
  peak : u.temp PWR_TPEAK = if s.pwr.peakSeen then max (s.temp PWR_TPEAK) (u.temp PWR_TMAX) else u.temp PWR_TMAX
  alarm : u.hot = true → u.rdB PWR_INT 1 = true
  flags : ∀ i, s.rdB PWR_INT i = true → u.rdB PWR_INT i = true
  keeps : KeepsAt (fun a => a < 0x50010044 ∧ a ≠ PWR_INT.addr) s u

/-- The sample as the registers show it. -/
theorem sampleShown_spec (s : State) {t : List (BitVec 16)} (ht : t ≠ []) :
    RegsAlone (fun a => a < 0x50010048) s (sampleShown s (t.map BitVec.toInt)) ∧
    (∀ i x, t[i]? = some x → (sampleShown s (t.map BitVec.toInt)).temp (PWR_TSENS i) = x.toInt) ∧
    (sampleShown s (t.map BitVec.toInt)).temp PWR_TMAX = hottest (t.map BitVec.toInt) ∧
    (sampleShown s (t.map BitVec.toInt)).temp PWR_TPEAK =
      if s.pwr.peakSeen then max (s.temp PWR_TPEAK) (hottest (t.map BitVec.toInt)) else hottest (t.map BitVec.toInt) := by
  obtain ⟨x, -, hx⟩ : ∃ x ∈ t, x.toInt = hottest (t.map BitVec.toInt) :=
    List.mem_map.1 (hottest_spec (by simpa using ht)).1
  have hsensed := sensed_regs s (t.map BitVec.toInt)
  have hsensor := fun i y (h : t[i]? = some y) =>
    sensed_sensor s (t.map BitVec.toInt) (i := i) (x := y.toInt) (by rw [List.getElem?_map, h]; rfl)
  unfold sampleShown
  rw [← hx]
  generalize sensed s (t.map BitVec.toInt) = v at *
  have hpwr : (v.wr PWR_TMAX (tempWord x.toInt)).pwr = s.pwr :=
    (State.wr_pwr v _ _).trans ((congrArg State.pwr hsensed.only).trans rfl)
  have hmax : (v.wr PWR_TMAX (tempWord x.toInt)).rd PWR_TMAX = tempWord x.toInt := State.rd_wr_same v _ _
  have hother : KeepsAt (· ≠ PWR_TMAX.addr) v (v.wr PWR_TMAX (tempWord x.toInt)) := (KeepsAt.refl v).wr (by simp) _
  have hwr : RegsAlone (fun a => a < 0x50010048) s (v.wr PWR_TMAX (tempWord x.toInt)) :=
    (hsensed.mono fun a ha => by omega).wr (by decide) _
  generalize v.wr PWR_TMAX (tempWord x.toInt) = w at *
  have hpeak := peakKept_regs w x.toInt
  have htop := peakKept_peak w x
  refine ⟨hwr.trans (hpeak.mono fun a ha he => ?_), fun i y hy => temp_of_rd ?_, temp_of_rd ?_, ?_⟩
  · rw [he] at ha
    exact absurd ha (by decide)
  · exact ((hpeak.keeps _ (by simp only [PWR_TSENS, PWR_TPEAK]; omega)).trans
      (hother _ (by simp only [PWR_TSENS, PWR_TMAX]; omega))).trans (hsensor i y hy)
  · exact (hpeak.keeps _ (by decide)).trans hmax
  · rw [htop, hpwr, temp_congr ((hother PWR_TPEAK (by decide)).trans (hsensed.keeps PWR_TPEAK (by decide)))]

/-- The flag of the alarm. -/
def alarmRaised (s : State) : State := if s.hot then s.raise PWR_INT 2#32 else s

theorem alarmRaised_spec (s : State) : RegsAlone (· ≠ PWR_INT.addr) s (alarmRaised s) ∧
    ((alarmRaised s).hot = true → (alarmRaised s).rdB PWR_INT 1 = true) ∧
    ∀ i, s.rdB PWR_INT i = true → (alarmRaised s).rdB PWR_INT i = true := by
  have hregs : RegsAlone (· ≠ PWR_INT.addr) s (alarmRaised s) := .ite ((RegsAlone.refl s).raise (by simp) _) (.refl s)
  have hhot : (alarmRaised s).hot = s.hot := by
    rw [State.hot, temp_congr (hregs.keeps PWR_TALARM (by decide)), temp_congr (hregs.keeps PWR_TMAX (by decide))]
    rfl
  refine ⟨hregs, fun h => ?_, fun i hi => ?_⟩
  · rw [hhot] at h
    rw [alarmRaised, if_pos h]
    exact rdB_raise_same _ _ (by decide)
  · unfold alarmRaised
    split
    · exact rdB_raise_kept hi _
    · exact hi

theorem sampled (s : State) {t : List (BitVec 16)} (ht : t ≠ []) : Sampled s (s.tempRegs (t.map BitVec.toInt)) t := by
  have hregs_eq : s.tempRegs (t.map BitVec.toInt) =
      alarmRaised (sampleNoted (sampleShown s (t.map BitVec.toInt)) (t.map BitVec.toInt)) := rfl
  rw [hregs_eq]
  obtain ⟨hregs, hsensor, htop, hpeak⟩ := sampleShown_spec s ht
  generalize sampleShown s (t.map BitVec.toInt) = v at *
  have hnoted : ∀ r, (sampleNoted v (t.map BitVec.toInt)).rd r = v.rd r := fun r => State.rd_congr rfl r
  have hrest : (sampleNoted v (t.map BitVec.toInt)).mem = v.mem ∧ (sampleNoted v (t.map BitVec.toInt)).pwr.trip = v.pwr.trip ∧
      (sampleNoted v (t.map BitVec.toInt)).stc = v.stc ∧ (sampleNoted v (t.map BitVec.toInt)).boot = v.boot :=
    ⟨rfl, rfl, rfl, rfl⟩
  clear hregs_eq
  generalize sampleNoted v (t.map BitVec.toInt) = w at *
  obtain ⟨hmem, htrip, hstc, hboot⟩ := hrest
  obtain ⟨halarm, hint, hflags⟩ := alarmRaised_spec w
  generalize alarmRaised w = u at *
  have htemp := fun {r : Reg} (hr : r.addr ≠ PWR_INT.addr) => temp_congr ((halarm.keeps r hr).trans (hnoted r))
  have hutop := (htemp (r := PWR_TMAX) (by decide)).trans htop
  refine ⟨?_, ?_, ?_, ?_, fun i x hx => ?_, hutop, ?_, hint, fun i hi => hflags i ?_, fun r hr => ?_⟩
  · rw [halarm.mem, hmem, hregs.mem]
  · rw [halarm.pwr, htrip, hregs.pwr]
  · rw [halarm.stc, hstc, hregs.stc]
  · rw [halarm.boot, hboot, hregs.boot]
  · exact (htemp (by simp only [PWR_TSENS, PWR_INT]; omega)).trans (hsensor i x hx)
  · rw [hutop]
    exact (htemp (by decide)).trans hpeak
  · exact (congrArg (bit · i) ((hnoted _).trans (hregs.keeps PWR_INT (by decide)))).trans hi
  · exact ((halarm.keeps r hr.2).trans (hnoted r)).trans (hregs.keeps r (by omega))

end Sys2Proof

namespace Sys2Proof

open Sys2Proof.Machine

/-! Temperature samples (R375, R376). -/

theorem hottest_lt {t : List (BitVec 16)} (ht : t ≠ []) {k : Int} :
    hottest (t.map BitVec.toInt) < k ↔ ∀ x ∈ t, x.toInt < k := by
  obtain ⟨hmem, hall⟩ := hottest_spec (ts := t.map BitVec.toInt) (by simpa using ht)
  refine ⟨fun h x hx => (hall _ (List.mem_map_of_mem hx)).trans_lt h, fun h => ?_⟩
  obtain ⟨x, hx, he⟩ := List.mem_map.1 hmem
  exact he ▸ h x hx

theorem hottest_ge {t : List (BitVec 16)} (ht : t ≠ []) {k : Int} :
    k ≤ hottest (t.map BitVec.toInt) ↔ ∃ x ∈ t, k ≤ x.toInt := by
  rw [← not_lt, hottest_lt ht]
  simp only [not_forall, not_lt, exists_prop]

theorem tempSample_por {s : State} (h : s.pwr.por = true) (ts : List Int) : s.tempSample ts = s := by
  simp [State.tempSample, h]

theorem tempSample_held {s : State} (hpor : s.pwr.por = false) (htrip : s.pwr.trip = true) (ts : List Int) :
    s.tempSample ts = if hottest ts < 1840 then ((s.deepRestart 4).raise PWR_INT 8#32).tempRegs ts else s := by
  simp only [State.tempSample, hpor, htrip, Bool.false_eq_true, if_false, if_true]
  rfl

theorem tempSample_runs {s : State} (h : s.held = false) (ts : List Int) :
    s.tempSample ts = if 2000 ≤ hottest ts then (s.tempRegs ts).trip else s.tempRegs ts := by
  obtain ⟨htrip, hpor⟩ := Bool.or_eq_false_iff.1 h
  simp only [State.tempSample, hpor, htrip, Bool.false_eq_true, if_false]
  rfl

/-- A trip holds the device with its pin low (R376). -/
theorem trip_spec (s : State) : s.trip.pwr.trip = true ∧ s.trip.faultLow = true ∧ s.trip.rdB PWR_AON_STAT 0 = true ∧
    s.trip.running = false := by
  set v := s.blocksReset false s.boot.pins
  have hregs : ∀ r, s.trip.rd r = (v.wrB PWR_AON_STAT 0 true).rd r := fun r => State.rd_congr rfl r
  have htrip : s.trip.pwr.trip = true := rfl
  refine ⟨htrip, ?_, ?_, ?_⟩
  · rw [State.faultLow, htrip, Bool.true_or]
  · exact (congrArg (bit · 0) (hregs _)).trans (rdB_wrB_same v _ (by omega) _)
  · exact (congrArg (bit · 0) ((hregs SYS_FRM_STAT).trans (State.rd_wrB_other _ _ _ (by decide)))).trans
      (running_blocksReset s false s.boot.pins)

theorem powerStates_temperature (s : State) (t : List (BitVec 16)) (hlen : t.length = 9) :
    Gives (.temperatureSample t) s fun u =>
    (s.pwr.por = true → OnlyRegs s u []) ∧
    (s.held = false → (∀ x ∈ t, x.toInt < 2000) → u.mem = s.mem ∧ u.pwr.trip = false ∧
      (∀ i < 9, u.temp (PWR_TSENS i) = (t.getD i 0).toInt) ∧ (∀ x ∈ t, x.toInt ≤ u.temp PWR_TMAX) ∧
      (∃ x ∈ t, u.temp PWR_TMAX = x.toInt) ∧ u.temp PWR_TPEAK =
        (if s.pwr.peakSeen then max (s.temp PWR_TPEAK) (u.temp PWR_TMAX) else u.temp PWR_TMAX) ∧ (u.hot = true → u.rdB PWR_INT 1 = true)) ∧
    (s.held = false → (∃ x ∈ t, 2000 ≤ x.toInt) → u.pwr.trip = true ∧ u.faultLow = true ∧
      u.rdB PWR_AON_STAT 0 = true ∧ u.running = false) ∧
    (s.pwr.trip = true → (∃ x ∈ t, 1840 ≤ x.toInt) → OnlyRegs s u []) ∧
    (s.pwr.trip = true → s.pwr.por = false → (∀ x ∈ t, x.toInt < 1840) → u.pwr.trip = false ∧ u.stc = 0 ∧
      u.boot.step = .fuses ∧ u.rdB PWR_INT 3 = true ∧ u.rdB SYS_RST_CAUSE 4 = true) := by
  have ht : t ≠ [] := fun e => by rw [e] at hlen; exact absurd hlen (by decide)
  refine (gives_iff_of_done (t := s.tempSample (t.map BitVec.toInt)) rfl).2 ⟨fun hpor => ?_, fun hheld hcool => ?_,
    fun hheld hhot => ?_, fun htrip hwarm => ?_, fun htrip hpor hcool => ?_⟩
  · rw [tempSample_por hpor]
    exact .settle s
  · rw [tempSample_runs hheld, if_neg (not_le.2 ((hottest_lt ht).2 hcool))]
    obtain ⟨hmem, htrip, -, -, hsensor, htop, hpeak, halarm, -, -⟩ := sampled s ht
    obtain ⟨hin, hall⟩ := hottest_spec (ts := t.map BitVec.toInt) (by simpa using ht)
    generalize s.tempRegs (t.map BitVec.toInt) = z at *
    have hsettle := State.rd_settle z
    have htemp := fun r => temp_congr (hsettle r)
    have hhot : z.settle.hot = z.hot := by rw [State.hot, htemp, htemp]; rfl
    refine ⟨(State.settle_mem z).trans hmem, ?_, fun i hi => ?_, fun x hx => ?_, ?_, ?_, fun h => ?_⟩
    · rw [State.settle_pwr, htrip]
      exact (Bool.or_eq_false_iff.1 hheld).1
    · refine (htemp _).trans (hsensor i _ ?_)
      rw [List.getD_eq_getElem _ _ (by omega), List.getElem?_eq_getElem (by omega)]
    · rw [htemp, htop]
      exact hall _ (List.mem_map_of_mem hx)
    · rw [htemp, htop]
      obtain ⟨x, hx, he⟩ := List.mem_map.1 hin
      exact ⟨x, hx, he.symm⟩
    · rw [htemp, htemp, hpeak]
    · exact (congrArg (bit · 1) (hsettle _)).trans (halarm (hhot.symm.trans h))
  · rw [tempSample_runs hheld, if_pos ((hottest_ge ht).2 hhot)]
    obtain ⟨htrip, hfault, haon, hrun⟩ := trip_spec (s.tempRegs (t.map BitVec.toInt))
    generalize (s.tempRegs (t.map BitVec.toInt)).trip = z at *
    have htrip' : z.settle.pwr.trip = true := by rw [State.settle_pwr, htrip]
    refine ⟨htrip', by rw [State.faultLow, htrip', Bool.true_or], ?_, ?_⟩
    · exact (congrArg (bit · 0) (State.rd_settle z _)).trans haon
    · exact (congrArg (bit · 0) (State.rd_settle z _)).trans hrun
  · have hsame : s.tempSample (t.map BitVec.toInt) = s := by
      cases hpor : s.pwr.por with
      | true => exact tempSample_por hpor _
      | false => rw [tempSample_held hpor htrip, if_neg (not_lt.2 ((hottest_ge ht).2 hwarm))]
    rw [hsame]
    exact .settle s
  · rw [tempSample_held hpor htrip, if_pos ((hottest_lt ht).2 hcool)]
    obtain ⟨hstc, hboot, hpwr, -⟩ := deepRestart_kept s 4
    have hcause := rdB_deepRestart s (b := 4) (by omega)
    generalize s.deepRestart 4 = v at *
    have hraised := (RegsAlone.refl (p := (· ≠ PWR_INT.addr)) v).raise (r := PWR_INT) (by simp) 8#32
    have hflag : (v.raise PWR_INT 8#32).rdB PWR_INT 3 = true := rdB_raise_same v _ (by decide)
    generalize v.raise PWR_INT 8#32 = w at *
    obtain ⟨-, htrip', hstc', hboot', -, -, -, -, hflags, hkeeps⟩ := sampled w ht
    generalize w.tempRegs (t.map BitVec.toInt) = z at *
    refine ⟨?_, ?_, ?_, ?_, ?_⟩
    · rw [State.settle_pwr, htrip', hraised.pwr, hpwr]
    · rw [State.settle_stc, hstc', hraised.stc, hstc]
    · rw [State.settle_boot, hboot', hraised.boot, hboot]
    · exact (congrArg (bit · 3) (State.rd_settle z _)).trans (hflags 3 hflag)
    · exact (congrArg (bit · 4) ((State.rd_settle z _).trans
        ((hkeeps SYS_RST_CAUSE (by decide)).trans (hraised.keeps SYS_RST_CAUSE (by decide))))).trans hcause

end Sys2Proof

namespace Sys2Proof

open Sys2Proof.Machine

/-! Requests of a power state (R370). -/

theorem and_mask_eq_zero (w : Word) (k : Nat) (hk : k < 32) :
    w &&& BitVec.ofNat 32 (2 ^ (k + 1) - 1) = 0 ↔ bits w k 0 = 0 := by
  have hpow : 2 ^ (k + 1) - 1 < 2 ^ 32 := by
    have := Nat.pow_le_pow_right (n := 2) (by omega) (show k + 1 ≤ 32 by omega)
    have := Nat.one_le_two_pow (n := k + 1)
    omega
  rw [← BitVec.toNat_inj, BitVec.toNat_and, BitVec.toNat_ofNat, Nat.mod_eq_of_lt hpow, Nat.and_two_pow_sub_one_eq_mod]
  simp [bits]

/-- The DMA channels that run, by their status registers. -/
theorem anyDma_eq (s : State) : s.anyDma =
    ((upTo 4).any (fun n => (upTo 8).any (fun c => s.rdB (CDMA_CH_STAT n c) 0)) ||
      (upTo 4).any (fun c => s.rdB (HIF_CH_STAT c) 0)) := by
  have hunits : upTo 5 = upTo 4 ++ [4] := rfl
  rw [State.anyDma, hunits, List.any_append, List.any_cons, List.any_nil, Bool.or_false]
  rfl

theorem pwrRefuse_eq (s : State) : s.pwrRefuse = powerRefusal s := by
  have hwake : (s.rd PWR_WAKE_EN &&& (if s.rdF PWR_CTRL 2 0 = 4 then 0x1FFFF#32 else 0x3FFFF#32) = 0) ↔
      bits (s.rd PWR_WAKE_EN) (if s.rdF PWR_CTRL 2 0 = 4 then 16 else 17) 0 = 0 := by
    split
    · exact and_mask_eq_zero _ 16 (by omega)
    · exact and_mask_eq_zero _ 17 (by omega)
  unfold State.pwrRefuse powerRefusal
  simp only [anyDma_eq, hwake]
  rfl

theorem pwrRefuse_lt (s : State) : s.pwrRefuse < 16 := by
  unfold State.pwrRefuse
  dsimp only
  split_ifs <;> omega

/-- A request that is refused (R370). -/
def pwrRefused (s : State) (c : Nat) : State := (s.wrF PWR_STAT 31 28 c).raise PWR_INT 4#32

/-- A request that begins the entry. -/
def pwrBegun (s : State) : State :=
  { s.wrF PWR_STAT 2 0 7 with pwr := { s.pwr with entering := some (s.rdF PWR_CTRL 2 0), at_ := s.now } }

theorem pwrReq_asleep {s : State} (h : s.asleep = true) (q : Req) : s.pwrReq q 1#32 = s := by
  have hbit : bit (1#32) 1 = false := by decide
  simp [State.pwrReq, h, hbit]

theorem pwrReq_awake {s : State} (h : s.asleep = false) (q : Req) : s.pwrReq q 1#32 =
    if powerRefusal s = 0 then pwrBegun s else pwrRefused s (powerRefusal s) := by
  have hbit : bit (1#32) 1 = false := by decide
  have hset : bit (1#32) 0 = true := by decide
  simp only [State.pwrReq, hbit, hset, h, Bool.false_eq_true, if_false, Bool.not_false, Bool.and_self, if_true, pwrRefuse_eq]
  split
  · next h0 => rw [if_pos h0]; rfl
  · next h0 => rw [if_neg h0]; rfl

theorem powerStates_request (s : State) (q : Req) (hreach : Reaches s q PWR_REQ) :
    Gives (.powerStateRequest q) s fun u =>
    (s.asleep = true → OnlyRegs s u []) ∧
    (s.asleep = false → powerRefusal s = 0 → u.pwrState = 7 ∧ u.pwr.entering = some (s.rdF PWR_CTRL 2 0) ∧ u.mem = s.mem ∧
      ∀ r : Reg, r.addr ≠ PWR_STAT.addr → u.rd r = s.rd r) ∧
    (s.asleep = false → powerRefusal s ≠ 0 → u.rdF PWR_STAT 31 28 = powerRefusal s ∧ u.rdB PWR_INT 2 = true ∧
      OnlyRegs s u [PWR_STAT, PWR_INT]) := by
  refine gives_gated rfl hreach ?_
  have hrefusal : powerRefusal (s.respond 0 false) = powerRefusal s := rfl
  have hlt : powerRefusal s < 16 := pwrRefuse_eq s ▸ pwrRefuse_lt s
  refine ⟨fun hasleep => ?_, fun hawake h0 => ?_, fun hawake h0 => ?_⟩
  · rw [pwrReq_asleep (s := s.respond 0 false) hasleep]
    exact (OnlyRegs.refl _).after_respond
  · rw [pwrReq_awake (s := s.respond 0 false) hawake, hrefusal, if_pos h0]
    have hregs : ∀ r, (pwrBegun (s.respond 0 false)).rd r = ((s.respond 0 false).wrF PWR_STAT 2 0 7).rd r :=
      fun r => State.rd_congr rfl r
    refine ⟨?_, rfl, rfl, fun r hr => ?_⟩
    · exact (congrArg (bits · 2 0) ((State.rd_settle _ _).trans (hregs _))).trans
        (rdF_wrF_same (s.respond 0 false) PWR_STAT (by omega) (by omega) 7)
    · exact ((State.rd_settle _ r).trans (hregs r)).trans ((State.rd_wrF_other _ _ _ _ hr).trans (State.rd_respond s 0 false r))
  · rw [pwrReq_awake (s := s.respond 0 false) hawake, hrefusal, if_neg h0]
    unfold pwrRefused
    generalize powerRefusal s = c at *
    set v := (s.respond 0 false).wrF PWR_STAT 31 28 c
    have hcode : (v.raise PWR_INT 4#32).rd PWR_STAT = v.rd PWR_STAT := State.rd_raise_other _ _ (by decide)
    refine ⟨?_, ?_, ?_⟩
    · exact ((congrArg (bits · 31 28) ((State.rd_settle _ _).trans hcode)).trans
        (rdF_wrF_same (s.respond 0 false) PWR_STAT (by omega) (by omega) c)).trans (Nat.mod_eq_of_lt hlt)
    · exact (congrArg (bit · 2) (State.rd_settle _ _)).trans (rdB_raise_same v PWR_INT (by decide))
    · exact (((OnlyRegs.wr _ PWR_STAT _).trans (.wr _ PWR_INT _)).mono (by simp)).after_respond

end Sys2Proof

namespace Sys2Proof

open Sys2Proof.Machine

/-! Wake events (R372, R374). -/

theorem wakeEvent_only (s : State) (src : Nat) : s.wakeEvent src = { s with pwr := (s.wakeEvent src).pwr } := by
  unfold State.wakeEvent
  split
  · rfl
  · extract_lets enabled
    split
    · rfl
    · split
      · rfl
      · split <;> rfl

theorem wakeEvent_regs (s : State) (src : Nat) : (s.wakeEvent src).regs = s.regs := by rw [wakeEvent_only]
theorem wakeEvent_mem (s : State) (src : Nat) : (s.wakeEvent src).mem = s.mem := by rw [wakeEvent_only]

theorem wakeEvent_running {s : State} (h : s.stay = none) (src : Nat) : s.wakeEvent src = s := by
  rw [State.wakeEvent, h]

theorem wakeEvent_disabled {s : State} {src : Nat} (h : s.rdB PWR_WAKE_EN (min src 17) = false) : s.wakeEvent src = s := by
  unfold State.wakeEvent
  split
  · rfl
  · simp [h]

/-- The first event of an enabled source that the state admits is kept. -/
theorem wakeEvent_kept {s : State} {src t : Nat} (hstay : s.stay = some t) (hen : s.rdB PWR_WAKE_EN (min src 17) = true)
    (hadmit : src ≠ 17 ∨ t ≠ 4) (hwoke : s.pwr.woke = none) :
    s.wakeEvent src = { s with pwr := { s.pwr with woke := some src, wokeAt := s.now } } := by
  have hall : (decide (src = 17) && decide (t = 4)) = false := by
    rcases hadmit with h | h
    · rw [decide_eq_false h, Bool.false_and]
    · rw [decide_eq_false h, Bool.and_false]
  simp [State.wakeEvent, hstay, hen, hall, hwoke]

theorem wakeEvent_kept_pin {s : State} {src : Nat} (hsrc : src < 17) (hstay : s.stay ≠ none)
    (hen : s.rdB PWR_WAKE_EN src = true) (hwoke : s.pwr.woke = none) :
    s.wakeEvent src = { s with pwr := { s.pwr with woke := some src, wokeAt := s.now } } := by
  obtain ⟨t, ht⟩ := Option.ne_none_iff_exists'.1 hstay
  exact wakeEvent_kept ht (by rwa [Nat.min_eq_left (by omega)]) (.inl (by omega)) hwoke

theorem powerStates_hostWake (s : State) (q : Req) (hreach : Reaches s q PWR_REQ) :
    Gives (.hostWake q) s fun u =>
    (s.stay = some 1 → q.master = 6 → s.rdB PWR_WAKE_EN 17 = true → s.pwr.woke = none →
      u.pwr.woke = some 17 ∧ u.regs = s.regs ∧ u.mem = s.mem) ∧
    (s.stay ≠ some 1 ∨ q.master ≠ 6 → OnlyRegs s u []) := by
  refine gives_gated rfl hreach ?_
  have hreq : (s.respond 0 false).pwrReq q 2#32 = (s.respond 0 false).hostWake q := by
    have hwake : bit (2#32) 1 = true := by decide
    have henter : bit (2#32) 0 = false := by decide
    simp [State.pwrReq, hwake, henter]
  rw [hreq]
  refine ⟨fun hstay hq hen hwoke => ?_, fun h => ?_⟩
  · have hev : (s.respond 0 false).hostWake q = (s.respond 0 false).wakeEvent 17 :=
      if_pos (Bool.and_eq_true_iff.2 ⟨decide_eq_true (show (s.respond 0 false).stay = some 1 from hstay), by rw [hq]; rfl⟩)
    rw [hev, wakeEvent_kept (s := s.respond 0 false) (src := 17) (t := 1) hstay hen (.inr (by omega)) hwoke]
    exact ⟨rfl, rfl, rfl⟩
  · have hno : (s.respond 0 false).hostWake q = s.respond 0 false := by
      refine if_neg fun hand => ?_
      obtain ⟨hstay, hq⟩ := Bool.and_eq_true_iff.1 hand
      rcases h with h | h
      · exact h (of_decide_eq_true hstay)
      · exact h (eq_of_beq hq)
    rw [hno]
    exact (OnlyRegs.refl _).after_respond

theorem powerStates_gpio (s : State) (n : Fin 16) (falling : Bool) : Gives (.gpioWake n falling) s fun u =>
    u.regs = s.regs ∧ u.mem = s.mem ∧
    (s.rdB PWR_WAKE_POL n = falling → s.stay ≠ none → s.rdB PWR_WAKE_EN n = true → s.pwr.woke = none →
      u.pwr.woke = some n.val ∧ u.pwr.wokeAt = s.now) ∧
    (s.rdB PWR_WAKE_POL n ≠ falling ∨ s.stay = none ∨ s.rdB PWR_WAKE_EN n = false → u.pwr = s.pwr) := by
  refine (gives_iff_of_done (t := if s.rdB PWR_WAKE_POL n = falling then s.wakeEvent n else s) rfl).2 ?_
  have hn := n.isLt
  by_cases hpol : s.rdB PWR_WAKE_POL n = falling
  · rw [if_pos hpol]
    refine ⟨(State.settle_regs _).trans (wakeEvent_regs s n), (State.settle_mem _).trans (wakeEvent_mem s n), fun _ hstay hen hwoke => ?_,
      fun h => ?_⟩
    · rw [wakeEvent_kept_pin (by omega) hstay hen hwoke]
      exact ⟨rfl, rfl⟩
    · rcases h with h | h | h
      · exact absurd hpol h
      · rw [wakeEvent_running h]
        rfl
      · rw [wakeEvent_disabled (by rwa [Nat.min_eq_left (by omega)])]
        rfl
  · rw [if_neg hpol]
    exact ⟨rfl, rfl, fun h => absurd h hpol, fun _ => rfl⟩

theorem powerStates_timer (s : State) : Gives .aonTimerExpiry s fun u => u.regs = s.regs ∧ u.mem = s.mem ∧
    (s.rd PWR_AON_TIMER ≠ 0 → s.stay ≠ none → s.rdB PWR_WAKE_EN 16 = true → s.pwr.woke = none →
      u.pwr.woke = some 16) ∧
    (s.rd PWR_AON_TIMER = 0 ∨ s.stay = none → u.pwr = s.pwr) := by
  refine (gives_iff_of_done (t := if s.rd PWR_AON_TIMER = 0 then s else s.wakeEvent 16) rfl).2 ?_
  by_cases hoff : s.rd PWR_AON_TIMER = 0
  · rw [if_pos hoff]
    exact ⟨rfl, rfl, fun h => absurd hoff h, fun _ => rfl⟩
  · rw [if_neg hoff]
    refine ⟨(State.settle_regs _).trans (wakeEvent_regs s 16), (State.settle_mem _).trans (wakeEvent_mem s 16), fun _ hstay hen hwoke => ?_,
      fun h => ?_⟩
    · rw [wakeEvent_kept_pin (by omega) hstay hen hwoke]
      rfl
    · rw [wakeEvent_running (h.resolve_left hoff)]
      rfl

/-! The hot count (R376). -/

theorem powerStates_hot (s : State) : Gives .hotCountPeriod s fun u =>
    (s.running = false → s.pwrState ≤ 1 → s.hot = true → u.rdB PWR_INT 1 = true ∧
      u.rdF PWR_HOT_CNT 31 0 = min (s.rdF PWR_HOT_CNT 31 0 + 1) (2 ^ 32 - 1) ∧ OnlyRegs s u [PWR_INT, PWR_HOT_CNT]) ∧
    (s.running = true ∨ s.hot = false ∨ 2 ≤ s.pwrState → OnlyRegs s u []) := by
  refine (gives_iff_of_done (t := s.hotPeriod) rfl).2 ⟨fun hstopped hstate hhot => ?_, fun h => ?_⟩
  · have hcounts : s.hotPeriod = (s.raise PWR_INT 2#32).count PWR_HOT_CNT := by
      simp [State.hotPeriod, State.hotBlock, hstopped, hstate, hhot]
    rw [hcounts]
    have hint : ((s.raise PWR_INT 2#32).count PWR_HOT_CNT).rd PWR_INT = (s.raise PWR_INT 2#32).rd PWR_INT :=
      State.rd_wr_other _ _ (by decide)
    refine ⟨?_, ?_, ?_⟩
    · exact ((congrArg (bit · 1) (State.rd_settle _ _)).trans (congrArg (bit · 1) hint)).trans
        (rdB_raise_same s _ (by decide))
    · refine (congrArg (bits · 31 0) (State.rd_settle _ _)).trans ((rdF_count_same _ PWR_HOT_CNT).trans ?_)
      rw [State.rdF, State.rd_raise_other _ _ (by decide)]
      rfl
    · have honly : OnlyRegs s ((s.raise PWR_INT 2#32).count PWR_HOT_CNT) [PWR_INT, PWR_HOT_CNT] :=
        ((OnlyRegs.wr s PWR_INT _).trans (.wr _ PWR_HOT_CNT _)).mono (by simp)
      exact (honly.trans (.settle _)).mono (by simp)
  · have hsame : s.hotPeriod = s := by
      unfold State.hotPeriod State.hotBlock
      rcases h with h | h | h
      · simp [h]
      · simp [h]
      · simp [show ¬ s.pwrState ≤ 1 by omega]
    rw [hsame]
    exact .settle s

/-- Settles O54, a command at a time: requests, the entry, wake events, the exit, the hot count and temperature samples. -/
theorem powerStates : Obligations.PowerStates := by
  unfold Obligations.PowerStates
  exact ⟨powerStates_request, powerStates_enter, powerStates_hostWake, powerStates_gpio, powerStates_timer, powerStates_exit,
    powerStates_noWake, powerStates_hot, powerStates_temperature⟩

end Sys2Proof

namespace Sys2Proof

open Sys2Proof.Machine

/-! What waits for a master's port goes to it in order of arrival (R192, R349). -/

/-- What waits for a master's port. -/
def waitsFor (m : Fin 12) (l : List (Origin × Txn)) : List (Origin × Txn) := l.filter (fun w => w.2.master == m)

/-- The first that a free port can take is the first that waits for that port. -/
theorem waitsFor_erase {l : List (Origin × Txn)} {free : Fin 12 → Bool} {w : Origin × Txn}
    (h : l.find? (fun w => free w.2.master) = some w) (m : Fin 12) :
    ∃ moved, waitsFor m l = moved ++ waitsFor m (l.erase w) := by
  obtain ⟨hw, as, bs, rfl, has⟩ := List.find?_eq_some_iff_append.1 h
  have hnot : w ∉ as := fun hmem => by
    have hfalse := has w hmem
    rw [hw] at hfalse
    exact absurd hfalse (by decide)
  rw [List.erase_append_right _ hnot, List.erase_cons_head]
  unfold waitsFor
  rw [List.filter_append, List.filter_append]
  by_cases hm : w.2.master = m
  · have hnone : as.filter (fun w => w.2.master == m) = [] := by
      refine List.filter_eq_nil_iff.2 fun a ha he => ?_
      have hfalse := has a ha
      rw [eq_of_beq he, ← hm, hw] at hfalse
      exact absurd hfalse (by decide)
    rw [hnone, List.filter_cons_of_pos (by simp [hm])]
    exact ⟨[w], rfl⟩
  · rw [List.filter_cons_of_neg (by simp [hm])]
    exact ⟨[], rfl⟩

theorem portPump_moves (m : Fin 12) (n : Nat) (s : State) :
    ∃ moved, waitsFor m s.portWait = moved ++ waitsFor m (State.portPump n s).portWait := by
  induction n generalizing s with
  | zero => exact ⟨[], rfl⟩
  | succ n ih =>
    cases hfind : s.portWait.find? (fun w => s.portFree w.2.master) with
    | none =>
      have hstay : State.portPump (n + 1) s = s := by simp [State.portPump, hfind]
      rw [hstay]
      exact ⟨[], rfl⟩
    | some w =>
      have hgo : State.portPump (n + 1) s =
          State.portPump n (({ s with portWait := s.portWait.erase w } : State).acceptTxn w.2 w.1) := by
        simp [State.portPump, hfind]
      have hfree : s.portFree w.2.master.val = true := by
        have hsome := List.find?_some hfind
        exact hsome
      obtain ⟨hwait, -, -, -⟩ := acceptTxn_spec (s := { s with portWait := s.portWait.erase w }) w.1 hfree
      obtain ⟨first, hfirst⟩ := waitsFor_erase (free := fun m => s.portFree m) hfind m
      obtain ⟨rest, hrest⟩ := ih (({ s with portWait := s.portWait.erase w } : State).acceptTxn w.2 w.1)
      rw [hwait] at hrest
      rw [hgo, hfirst, hrest]
      exact ⟨first ++ rest, (List.append_assoc _ _ _).symm⟩

/-- The transactions of a request wait with the request's number. -/
def tlpWaits (s : State) (fn : Nat) (write : Bool) (a : Nat) (d : List (Byte × Bool)) : List (Origin × Txn) :=
  (tlpParts a d.length).map (fun p => (Origin.tlp s.nextReq, tlpTxn fn write a d p))

/-- The state with a request's transactions behind what waits. -/
def reqQueued (s : State) (fn : Nat) (write : Bool) (a : Nat) (d : List (Byte × Bool)) : State :=
  { s with
    reqs := s.reqs ++ [{ id := s.nextReq, fn := fn, read := !write, addr := a, len := d.length,
                         left := ((tlpParts a d.length).map (tlpTxn fn write a d)).length }]
    nextReq := s.nextReq + 1
    portWait := s.portWait ++ ((tlpParts a d.length).map (tlpTxn fn write a d)).map (fun t => (Origin.tlp s.nextReq, t)) }

theorem hostReq_eq {s : State} {d : List (Byte × Bool)} {a : Nat} (hd : d ≠ []) (ha : a + d.length ≤ 2 ^ 31) (fn : Nat)
    (write : Bool) : s.hostReq fn write a d = (reqQueued s fn write a d).portGo := by
  refine if_neg ?_
  rw [List.isEmpty_eq_false_iff.2 hd, Bool.false_or, decide_eq_true_eq]
  exact Nat.not_lt.2 ha

/-- A memory request's transactions wait in order of arrival. -/
theorem hostReq_queued {s : State} {d : List (Byte × Bool)} {a : Nat} (hd : d ≠ []) (ha : a + d.length ≤ 2 ^ 31)
    (fn : Nat) (write : Bool) : (s.hostReq fn write a d).nextReq = s.nextReq + 1 ∧
    ∃ moved, waitsFor 6 s.portWait ++ tlpWaits s fn write a d = moved ++ waitsFor 6 (s.hostReq fn write a d).portWait := by
  rw [hostReq_eq hd ha]
  refine ⟨(PortsAlone.portGo _).nextReq, ?_⟩
  obtain ⟨moved, hmoved⟩ := portPump_moves 6 (reqQueued s fn write a d).portWait.length (reqQueued s fn write a d)
  refine ⟨moved, Eq.trans ?_ hmoved⟩
  have hall : waitsFor 6 (tlpWaits s fn write a d) = tlpWaits s fn write a d := by
    refine List.filter_eq_self.2 fun w hw => ?_
    obtain ⟨p, -, rfl⟩ := List.mem_map.1 hw
    rfl
  have hqueue : (reqQueued s fn write a d).portWait = s.portWait ++ tlpWaits s fn write a d := by
    simp [reqQueued, tlpWaits]
  rw [hqueue]
  unfold waitsFor at *
  rw [List.filter_append, hall]

/-- A request that a device carries out now wakes it at most. -/
theorem tlp_awake {s : State} (h : s.asleep = false) (t : Tlp) : ∃ p, s.tlp t = ({ s with pwr := p } : State).tlpNow t := by
  unfold State.tlp
  extract_lets v
  have hv : ∃ p, v = { s with pwr := p } := by
    dsimp only [v]
    split
    · exact ⟨_, wakeEvent_only s 17⟩
    · exact ⟨s.pwr, rfl⟩
  obtain ⟨p, hp⟩ := hv
  rw [hp]
  have hawake : ({ s with pwr := p } : State).asleep = false := h
  exact ⟨p, if_neg (by rw [hawake]; decide)⟩

theorem gives_request {s : State} {c : Tlp} {fn : Fin 2} {write : Bool} {a : Nat} {d : List (Byte × Bool)}
    (hawake : s.asleep = false) (hc : ∀ v : State, v.tlpNow c = v.hostReq fn write a d) (hd : d ≠ [])
    (ha : a + d.length ≤ 2 ^ 31) : Gives (.pcieTlpReceive c) s fun u => TlpQueued s u fn write a d := by
  refine (gives_iff_of_done (t := s.tlp c) rfl).2 ?_
  obtain ⟨p, hp⟩ := tlp_awake hawake c
  rw [hp, hc]
  exact hostReq_queued (s := { s with pwr := p }) hd ha fn write

/-- A part of a request in register space lies in one dword. -/
theorem part_in_dword {a n : Nat} (hn : 0 < n) (hlo : 0x50000000 ≤ a) (hhi : a < 0x60000000) :
    ∀ p ∈ tlpParts a n, p.1 / 4 = (p.1 + p.2 - 1) / 4 := by
  intro p hp
  unfold tlpParts at hp
  rw [if_pos ⟨hlo, hhi⟩] at hp
  unfold stepParts at hp
  obtain ⟨k, hk, rfl⟩ := List.mem_map.1 hp
  have hk' : k < (a + n - 1) / 4 + 1 - a / 4 := List.mem_range.1 hk
  dsimp only
  omega

theorem hostInterface_read (s : State) (fn : Fin 2) (a : BitVec 32) (en : List Bool) (hen : en ≠ [])
    (ha : a.toNat + en.length ≤ 2 ^ 31) (hawake : s.asleep = false) :
    Gives (.pcieTlpReceive (.read fn a en)) s fun u =>
      TlpQueued s u fn false a.toNat (en.map (fun b => (0, b))) ∧
      (0x50000000 ≤ a.toNat → a.toNat < 0x60000000 → ∀ p ∈ tlpParts a.toNat en.length, p.1 / 4 = (p.1 + p.2 - 1) / 4) := by
  have hqueued := gives_request (c := .read fn a en) (d := en.map (fun b => (0, b))) (a := a.toNat) (write := false) (fn := fn)
    hawake (fun _ => rfl) (by simpa using hen) (by simpa using ha)
  refine (gives_iff_of_done (t := s.tlp (.read fn a en)) rfl).2 ⟨(gives_iff_of_done rfl).1 hqueued, fun hlo hhi => ?_⟩
  exact part_in_dword (List.length_pos_iff.2 hen) hlo hhi

theorem hostInterface_write (s : State) (fn : Fin 2) (a : BitVec 32) (d : List (Byte × Bool)) (hd : d ≠ [])
    (ha : a.toNat + d.length ≤ 2 ^ 31) (hawake : s.asleep = false) :
    Gives (.pcieTlpReceive (.write fn a d)) s fun u => TlpQueued s u fn true a.toNat d :=
  gives_request hawake (fun _ => rfl) hd ha

end Sys2Proof

namespace Sys2Proof

open Sys2Proof.Machine

/-! What the evaluation of the vectors leaves of the host interface, part by part (R353). -/

namespace Signals

variable {h g : Hif}

theorem cpls (k : Signals h g) : g.cpls = h.cpls := by obtain ⟨p, q, m, c, rfl⟩ := k; rfl
theorem errs (k : Signals h g) : g.errs = h.errs := by obtain ⟨p, q, m, c, rfl⟩ := k; rfl
theorem aer (k : Signals h g) : g.aer = h.aer := by obtain ⟨p, q, m, c, rfl⟩ := k; rfl
theorem sizes (k : Signals h g) : g.sizes = h.sizes := by obtain ⟨p, q, m, c, rfl⟩ := k; rfl
theorem later (k : Signals h g) : g.later = h.later := by obtain ⟨p, q, m, c, rfl⟩ := k; rfl

theorem mem_msgs (k : Signals h g) {x : Nat × Nat} (hx : x ∈ h.msgs) : x ∈ g.msgs := by
  obtain ⟨p, q, m, c, rfl⟩ := k
  exact List.mem_append_left _ hx

/-- A function's MSI-X state gains pending bits alone. -/
theorem msix (k : Signals h g) (fn : Nat) : ∃ p, g.msix fn = { h.msix fn with pending := (h.msix fn).pending ++ p } := by
  obtain ⟨p, q, m, c, rfl⟩ := k
  unfold Hif.msix
  split
  · exact ⟨p, rfl⟩
  · exact ⟨q, rfl⟩

end Signals

/-! Read completions (R349, R350). -/

/-- A list of bytes as the parts of a read give it. -/
theorem completion_bytes (l : List Byte) (n : Nat) (hn : l.length = n) : (upTo n).map (fun i =>
    (((l.zipIdx.map (fun x => (x.2, x.1))).find? (fun x => x.1 = 0 + i)).map Prod.snd).getD 0) = l := by
  refine List.ext_getElem (by simp [upTo, hn]) fun i hi hl => ?_
  have hi' : i < n := by simpa [upTo] using hi
  have hfind : (l.zipIdx.map (fun x => (x.2, x.1))).find? (fun x => x.1 = 0 + i) = some (i, l[i]) := by
    refine List.find?_eq_some_iff_getElem.2 ⟨by simp, i, by simpa using hl, by simp, fun j hj => ?_⟩
    simp only [List.getElem_map, List.getElem_zipIdx, Bool.not_eq_true', decide_eq_false_iff_not]
    omega
  simp only [upTo, List.getElem_map, List.getElem_range, hfind]
  rfl

/-- A read whose word is there at once. -/
def wordReq (s : State) (fn : Nat) (w : Word) : HostReq :=
  { id := s.nextReq, fn := fn, read := true, addr := 0, len := 4, left := 0,
    data := (leBytes 4 w.toNat).zipIdx.map (fun x => (x.2, x.1)) }

/-- The state with that read behind the others. -/
def wordQueued (s : State) (fn : Nat) (w : Word) : State :=
  { s with reqs := s.reqs ++ [wordReq s fn w], nextReq := s.nextReq + 1 }

theorem hostWord_eq (s : State) (fn : Nat) (w : Word) : s.hostWord fn w = (wordQueued s fn w).reqFlush := rfl

theorem completion_word (s v : State) (fn : Nat) (w : Word) : v.completion (wordReq s fn w) = (leBytes 4 w.toNat, false) := by
  unfold State.completion
  have herr : (wordReq s fn w).err = false := rfl
  rw [herr, Bool.and_false]
  exact congrArg (·, false) (completion_bytes (leBytes 4 w.toNat) 4 (by simp [leBytes, upTo]))

/-- Alone, it completes at once. -/
theorem hostWord_alone {s : State} (h : s.reqs = []) (fn : Nat) (w : Word) :
    (s.hostWord fn w).hif.cpls = s.hif.cpls ++ [(leBytes 4 w.toNat, false)] := by
  rw [hostWord_eq]
  have hreqs : (wordQueued s fn w).reqs = [wordReq s fn w] := by rw [wordQueued, h]; rfl
  have hdone : readsDone (wordQueued s fn w).reqs = [wordReq s fn w] := by rw [hreqs]; rfl
  unfold State.reqFlush
  dsimp only
  rw [hdone, List.map_singleton, completion_word]
  rfl

/-- Behind a read with a part outstanding, it waits. -/
theorem hostWord_behind {s : State} {r : HostReq} {l : List HostReq} (h : s.reqs = r :: l) (hr : r.read = true)
    (hleft : r.left ≠ 0) (fn : Nat) (w : Word) : (s.hostWord fn w).hif.cpls = s.hif.cpls ∧
    wordReq s fn w ∈ (s.hostWord fn w).reqs := by
  rw [hostWord_eq]
  have hreqs : (wordQueued s fn w).reqs = r :: (l ++ [wordReq s fn w]) := by rw [wordQueued, h]; rfl
  have hdone : readsDone (wordQueued s fn w).reqs = [] := by
    rw [hreqs, readsDone, List.filter_cons_of_pos hr, List.takeWhile_cons_of_neg (by simpa using hleft)]
  unfold State.reqFlush
  dsimp only
  rw [hdone]
  refine ⟨List.append_nil _, List.mem_filter.2 ⟨?_, ?_⟩⟩
  · rw [hreqs]
    exact List.mem_cons_of_mem _ (List.mem_append_right _ List.mem_cons_self)
  · rfl

theorem hostWord_regs (s : State) (fn : Nat) (w : Word) : (s.hostWord fn w).regs = s.regs := rfl

end Sys2Proof

namespace Sys2Proof

open Sys2Proof.Machine

/-! The MSI-X table and the configuration space (R348). -/

section Reads

variable (s : State) (fn : Nat)

/-- An entry's address and data in the table. -/
theorem msixRead_table {v k : Nat} (hv : v < 64) (hk : k < 3) :
    s.msixRead fn (16 * v + 4 * k) = sget 0 (s.hif.msix fn).table (4 * v + k) := by
  have hix : (16 * v + 4 * k) / 4 = 4 * v + k := by omega
  unfold State.msixRead
  dsimp only
  rw [hix, if_pos (by omega), if_neg (by omega)]

/-- An entry's mask. -/
theorem msixRead_mask {v : Nat} (hv : v < 64) :
    s.msixRead fn (16 * v + 12) = if (s.hif.msix fn).unmasked.contains v then 0 else 1 := by
  have hix : (16 * v + 12) / 4 = 4 * v + 3 := by omega
  have hvec : (4 * v + 3) / 4 = v := by omega
  unfold State.msixRead
  dsimp only
  rw [hix, if_pos (by omega), if_pos (by omega), hvec]

/-- The pending bits. -/
theorem msixRead_pending {k : Nat} (hk : k < 2) : s.msixRead fn (0x2000 + 4 * k) =
    bitsOf 32 (fun b => (s.hif.msix fn).pending.contains (32 * k + b)) := by
  have hix : (0x2000 + 4 * k - 0x2000) / 4 = k := by omega
  unfold State.msixRead
  dsimp only
  rw [if_neg (by omega), if_pos (by omega), hix]

end Reads

theorem toNat_offset {k : Nat} (h : k < 2 ^ 14) : (BitVec.ofNat 14 k).toNat = k := by
  rw [BitVec.toNat_ofNat, Nat.mod_eq_of_lt h]

/-- A read that the host interface answers itself gives its word. -/
theorem tlpNow_word (s : State) (fn : Fin 2) : ∀ c ∈ hostWords s fn, s.tlpNow c.1 = s.hostWord fn c.2 := by
  intro c hc
  have hread : ∀ (k : Nat) (w : Word), k < 2 ^ 14 → s.msixRead fn k = w →
      s.tlpNow (.msixRead fn (BitVec.ofNat 14 k)) = s.hostWord fn w := fun k w hk hw => by
    rw [← hw]
    exact congrArg (fun k => s.hostWord fn (s.msixRead fn k)) (toNat_offset hk)
  unfold hostWords at hc
  simp only [List.mem_append, List.mem_flatMap, List.mem_map, upTo, List.mem_range, List.mem_cons, List.not_mem_nil,
    or_false] at hc
  rcases hc with (⟨v, hv, ⟨k, hk, rfl⟩ | rfl⟩ | ⟨k, hk, rfl⟩) | rfl | rfl | rfl
  · exact hread _ _ (by omega) (msixRead_table s fn hv hk)
  · exact hread _ _ (by omega) (msixRead_mask s fn hv)
  · exact hread _ _ (by omega) (msixRead_pending s fn hk)
  · rfl
  · rfl
  · rfl

theorem hostInterface_words (s : State) (fn : Fin 2) (hawake : s.asleep = false) : ∀ c ∈ hostWords s fn,
    Gives (.pcieTlpReceive c.1) s fun u =>
      (s.reqs = [] → u.hif.cpls = s.hif.cpls ++ [(leBytes 4 c.2.toNat, false)]) ∧
      (∀ r l, s.reqs = r :: l → r.read = true → r.left ≠ 0 →
        u.hif.cpls = s.hif.cpls ∧ ∃ x ∈ u.reqs, x.id = s.nextReq ∧ x.left = 0 ∧ x.read = true) ∧ u.regs = s.regs := by
  intro c hc
  refine (gives_iff_of_done (t := s.tlp c.1) rfl).2 ?_
  obtain ⟨p, hp⟩ := tlp_awake hawake c.1
  have hword : s.tlp c.1 = ({ s with pwr := p } : State).hostWord fn c.2 :=
    hp.trans (tlpNow_word { s with pwr := p } fn c hc)
  have hcpls := (signals_settle (({ s with pwr := p } : State).hostWord fn c.2)).cpls
  rw [hword]
  refine ⟨fun h => hcpls.trans (hostWord_alone (s := { s with pwr := p }) h fn c.2), fun r l h hr hleft => ?_, rfl⟩
  obtain ⟨hsame, hwaits⟩ := hostWord_behind (s := { s with pwr := p }) h hr hleft fn c.2
  exact ⟨hcpls.trans hsame, _, hwaits, rfl, rfl, rfl⟩

/-! Writes of the MSI-X table and the configuration space (R348, R353). -/

theorem msix_setMsix_same (h : Hif) (fn : Nat) (m : Msix) : (h.setMsix fn m).msix fn = m := by
  unfold Hif.setMsix Hif.msix
  split <;> rfl

theorem msixPut_msix (s : State) (fn : Nat) (m : Msix) :
    (s.msixPut fn m).hif.msix fn = { m with pending := m.pending.filter (fun v => !(m.passes v)) } :=
  msix_setMsix_same s.hif fn _

/-- What was pending and passes now is sent, where its condition still holds. -/
theorem msixPut_sends {s : State} {fn : Nat} {m : Msix} {v : Nat} (hv : v ∈ m.pending) (hpass : m.passes v = true)
    (hcond : s.fnCond fn v = true) : (fn, v) ∈ (s.msixPut fn m).hif.msgs :=
  List.mem_append_right _ (List.mem_map_of_mem (List.mem_filter.2 ⟨List.mem_filter.2 ⟨hv, hpass⟩, hcond⟩))

theorem passes_of {m : Msix} {v : Nat} (hon : m.on = true) (hmask : m.mask = false) (hv : v ∈ m.unmasked) :
    m.passes v = true := by
  simp [Msix.passes, hon, hmask, hv]

/-- The state of a function's MSI-X capability after a command, by its own parts. -/
theorem msix_settle (s : State) (fn : Nat) : (s.settle.hif.msix fn).on = (s.hif.msix fn).on ∧
    (s.settle.hif.msix fn).mask = (s.hif.msix fn).mask ∧ (s.settle.hif.msix fn).unmasked = (s.hif.msix fn).unmasked ∧
    (s.settle.hif.msix fn).table = (s.hif.msix fn).table := by
  obtain ⟨p, hp⟩ := (signals_settle s).msix fn
  rw [hp]
  exact ⟨rfl, rfl, rfl, rfl⟩

theorem msixWrite_word {s : State} {fn off : Nat} (hoff : off < 0x400) (h : off / 4 % 4 ≠ 3) (d : Word) :
    s.msixWrite fn off d =
      { s with hif := s.hif.setMsix fn { s.hif.msix fn with table := sset 0 (s.hif.msix fn).table (off / 4) d } } := by
  unfold State.msixWrite
  dsimp only
  rw [if_pos hoff, if_neg h]

theorem msixWrite_masked {s : State} {fn off : Nat} (hoff : off < 0x400) (h : off / 4 % 4 = 3) {d : Word}
    (hd : bit d 0 = true) : s.msixWrite fn off d = { s with hif := s.hif.setMsix fn { s.hif.msix fn with
      unmasked := (s.hif.msix fn).unmasked.filter (· != off / 4 / 4) } } := by
  unfold State.msixWrite
  dsimp only
  rw [if_pos hoff, if_pos h, if_pos hd]

/-- The MSI-X state with a vector unmasked. -/
def vecUnmasked (m : Msix) (v : Nat) : Msix :=
  { m with unmasked := if m.unmasked.contains v then m.unmasked else m.unmasked ++ [v] }

theorem msixWrite_unmasked {s : State} {fn off : Nat} (hoff : off < 0x400) (h : off / 4 % 4 = 3) {d : Word}
    (hd : bit d 0 = false) : s.msixWrite fn off d = s.msixPut fn (vecUnmasked (s.hif.msix fn) (off / 4 / 4)) := by
  unfold State.msixWrite
  dsimp only
  rw [if_pos hoff, if_pos h, if_neg (by rw [hd]; decide)]
  rfl

theorem msixWrite_rest (s : State) (fn off : Nat) (d : Word) :
    (s.msixWrite fn off d).regs = s.regs ∧ (s.msixWrite fn off d).mem = s.mem := by
  unfold State.msixWrite
  dsimp only
  split
  · split
    · split <;> exact ⟨rfl, rfl⟩
    · exact ⟨rfl, rfl⟩
  · exact ⟨rfl, rfl⟩

theorem hostInterface_msixWrite (s : State) (fn : Fin 2) (off : BitVec 14) (d : Word) (hoff : off.toNat < 0x400)
    (hawake : s.asleep = false) : Gives (.pcieTlpReceive (.msixWrite fn off d)) s fun u =>
      let v := off.toNat / 16
      let m := s.hif.msix fn
      u.regs = s.regs ∧ u.mem = s.mem ∧
      (off.toNat / 4 % 4 ≠ 3 → sget 0 (u.hif.msix fn).table (off.toNat / 4) = d) ∧
      (off.toNat / 4 % 4 = 3 → (v ∈ (u.hif.msix fn).unmasked ↔ bit d 0 = false)) ∧
      (off.toNat / 4 % 4 = 3 → bit d 0 = false → v ∈ m.pending → m.on = true → m.mask = false → s.fnCond fn v = true →
        (fn.val, v) ∈ u.hif.msgs) := by
  refine (gives_iff_of_done (t := s.tlp (.msixWrite fn off d)) rfl).2 ?_
  obtain ⟨p, hp⟩ := tlp_awake hawake (.msixWrite fn off d)
  have hdone : s.tlp (.msixWrite fn off d) = ({ s with pwr := p } : State).msixWrite fn off.toNat d := hp
  intro v m
  have hvec : off.toNat / 4 / 4 = v := by omega
  obtain ⟨hregs, hmem⟩ := msixWrite_rest { s with pwr := p } fn off.toNat d
  rw [hdone]
  obtain ⟨-, -, hun, htable⟩ := msix_settle (({ s with pwr := p } : State).msixWrite fn off.toNat d) fn
  refine ⟨?_, ?_, fun h => ?_, fun h => ?_, fun h hd hpend hon hmask hcond => ?_⟩
  · exact (State.settle_regs _).trans hregs
  · exact (State.settle_mem _).trans hmem
  · rw [htable, msixWrite_word hoff h, msix_setMsix_same]
    exact sget_sset_same _ _ _ _
  · rw [hun]
    cases hd : bit d 0 with
    | true =>
      rw [msixWrite_masked hoff h hd, msix_setMsix_same, hvec]
      simp
    | false =>
      rw [msixWrite_unmasked hoff h hd, msixPut_msix, hvec]
      simp only [iff_true]
      exact mem_addOnce _ _
  · refine (signals_settle _).mem_msgs ?_
    rw [msixWrite_unmasked hoff h hd, hvec]
    exact msixPut_sends (s := { s with pwr := p }) (m := vecUnmasked m v) hpend (passes_of hon hmask (mem_addOnce _ _)) hcond

/-! Writes of the configuration space (R348). -/

/-- A command that a device carries out now, from a state that its wake-up alone changed. -/
theorem gives_tlp {s : State} {t : Tlp} {P : State → Prop} (hawake : s.asleep = false)
    (h : ∀ p, P (({ s with pwr := p } : State).tlpNow t).settle) : Gives (.pcieTlpReceive t) s P := by
  refine (gives_iff_of_done (t := s.tlp t) rfl).2 ?_
  obtain ⟨p, hp⟩ := tlp_awake hawake t
  rw [hp]
  exact h p

theorem cfgWrite_msixControl (s : State) (fn : Nat) (d : Word) :
    s.cfgWrite fn .msixControl d = s.msixPut fn { s.hif.msix fn with on := bit d 15, mask := bit d 14 } := rfl

theorem cfgWrite_sizes (s : State) (fn : Nat) (d : Word) : s.cfgWrite fn .deviceControl d =
    if bits d 7 5 ≤ 2 ∧ bits d 14 12 ≤ 5 then
      { s with hif := { s.hif with sizes := sset (0, 2) s.hif.sizes fn (bits d 7 5, bits d 14 12) } }
    else s := rfl

theorem cfgWrite_aer (s : State) (fn : Nat) (d : Word) : s.cfgWrite fn .aerStatus d =
    if bit d 15 then { s with hif := { s.hif with aer := s.hif.aer.filter (· != fn) } } else s := rfl

theorem hostInterface_cfgWrite (s : State) (fn : Fin 2) (d : Word) (hawake : s.asleep = false) :
    (Gives (.pcieTlpReceive (.cfgWrite fn .msixControl d)) s fun u =>
      (u.hif.msix fn).on = bit d 15 ∧ (u.hif.msix fn).mask = bit d 14 ∧ u.regs = s.regs ∧
      (bit d 15 = true → bit d 14 = false → ∀ v ∈ (s.hif.msix fn).pending, v ∈ (s.hif.msix fn).unmasked →
        s.fnCond fn v = true → (fn.val, v) ∈ u.hif.msgs)) ∧
    (Gives (.pcieTlpReceive (.cfgWrite fn .deviceControl d)) s fun u => u.regs = s.regs ∧
      sget (0, 2) u.hif.sizes fn =
        (if bits d 7 5 ≤ 2 ∧ bits d 14 12 ≤ 5 then (bits d 7 5, bits d 14 12) else sget (0, 2) s.hif.sizes fn)) ∧
    (Gives (.pcieTlpReceive (.cfgWrite fn .aerStatus d)) s fun u => u.regs = s.regs ∧
      (fn.val ∈ u.hif.aer ↔ fn.val ∈ s.hif.aer ∧ bit d 15 = false)) ∧
    (∀ i ∈ [CfgItem.ids, .classCode, .subsystem], Gives (.pcieTlpReceive (.cfgWrite fn i d)) s fun u =>
      OnlyRegs { s with pwr := u.pwr } u []) := by
  refine ⟨gives_tlp hawake fun p => ?_, gives_tlp hawake fun p => ?_, gives_tlp hawake fun p => ?_,
    fun i hi => gives_tlp hawake fun p => ?_⟩
  · set v : State := { s with pwr := p }
    have hput : v.tlpNow (.cfgWrite fn .msixControl d) =
        v.msixPut fn { v.hif.msix fn with on := bit d 15, mask := bit d 14 } := rfl
    rw [hput]
    obtain ⟨hon, hmask, -, -⟩ := msix_settle (v.msixPut fn { v.hif.msix fn with on := bit d 15, mask := bit d 14 }) fn
    rw [msixPut_msix] at hon hmask
    refine ⟨hon, hmask, rfl, fun h15 h14 x hx hun hcond => (signals_settle _).mem_msgs ?_⟩
    exact msixPut_sends (s := v) (m := { v.hif.msix fn with on := bit d 15, mask := bit d 14 }) hx (passes_of h15 h14 hun) hcond
  · set v : State := { s with pwr := p }
    have hcfg : v.tlpNow (.cfgWrite fn .deviceControl d) = v.cfgWrite fn .deviceControl d := rfl
    rw [hcfg, cfgWrite_sizes]
    refine ⟨?_, ?_⟩
    · split <;> rfl
    · rw [(signals_settle _).sizes]
      split
      · exact sget_sset_same _ _ _ _
      · rfl
  · set v : State := { s with pwr := p }
    have hcfg : v.tlpNow (.cfgWrite fn .aerStatus d) = v.cfgWrite fn .aerStatus d := rfl
    rw [hcfg, cfgWrite_aer]
    refine ⟨?_, ?_⟩
    · split <;> rfl
    · rw [(signals_settle _).aer]
      split
      · next h => simp [h]
      · next h => simp [h, v]
  · have hsame : ({ s with pwr := p } : State).tlpNow (.cfgWrite fn i d) = { s with pwr := p } := by
      simp only [List.mem_cons, List.not_mem_nil, or_false] at hi
      rcases hi with rfl | rfl | rfl <;> rfl
    rw [hsame]
    exact .settle { s with pwr := p }

end Sys2Proof

namespace Sys2Proof

open Sys2Proof.Machine

/-! Requests in S2 and S3, and after the exit (R372). -/

theorem pwr_tlpNow (s : State) (t : Tlp) : (s.tlpNow t).pwr = s.pwr := (HostServed.tlpNow s t).pwr

theorem later_hostReq (s : State) (fn : Nat) (write : Bool) (a : Nat) (d : List (Byte × Bool)) :
    (s.hostReq fn write a d).hif = s.hif := by
  unfold State.hostReq
  split
  · rfl
  · exact (PortsAlone.portGo _).hif

theorem later_setMsix (h : Hif) (fn : Nat) (m : Msix) : (h.setMsix fn m).later = h.later := by
  unfold Hif.setMsix
  split <;> rfl

theorem later_tlpNow (s : State) (t : Tlp) : (s.tlpNow t).hif.later = s.hif.later := by
  cases t with
  | read fn a en => exact congrArg Hif.later (later_hostReq _ _ _ _ _)
  | write fn a d => exact congrArg Hif.later (later_hostReq _ _ _ _ _)
  | msixWrite fn off d =>
    show (s.msixWrite fn off.toNat d).hif.later = s.hif.later
    unfold State.msixWrite
    dsimp only
    split
    · split
      · split
        · exact later_setMsix _ _ _
        · exact later_setMsix _ _ _
      · exact later_setMsix _ _ _
    · rfl
  | msixRead fn off => rfl
  | cfgRead fn i => rfl
  | cfgWrite fn i d =>
    cases i with
    | ids => rfl
    | classCode => rfl
    | subsystem => rfl
    | msixControl => exact later_setMsix _ _ _
    | deviceControl =>
      show (s.cfgWrite fn .deviceControl d).hif.later = s.hif.later
      rw [cfgWrite_sizes]
      split <;> rfl
    | aerStatus =>
      show (s.cfgWrite fn .aerStatus d).hif.later = s.hif.later
      rw [cfgWrite_aer]
      split <;> rfl

theorem later_tlpLate (s : State) : s.tlpLate.hif.later = [] := by
  have heach : ∀ (l : List Tlp) (v : State), (v.each l State.tlpNow).hif.later = v.hif.later := fun l => by
    induction l with
    | nil => exact fun _ => rfl
    | cons t l ih => exact fun v => (ih (v.tlpNow t)).trans (later_tlpNow v t)
  exact heach s.hif.later (noneLater s)

theorem tlp_asleep {s : State} (hstay : s.stay = some 2 ∨ s.stay = some 3) (h : s.asleep = true) (t : Tlp) :
    s.tlp t = { s with pwr := (s.wakeEvent 17).pwr, hif := { s.hif with later := s.hif.later ++ [t] } } := by
  have hwakes : (decide (s.stay = some 2) || decide (s.stay = some 3)) = true := by
    rcases hstay with e | e
    · rw [e]; rfl
    · rw [e]; rfl
  unfold State.tlp
  dsimp only
  rw [hwakes, if_pos rfl, wakeEvent_only s 17]
  exact if_pos h

theorem tlp_wakes {s : State} (hstay : s.stay = some 2 ∨ s.stay = some 3) (h : s.asleep = false) (t : Tlp) :
    s.tlp t = (s.wakeEvent 17).tlpNow t := by
  have hwakes : (decide (s.stay = some 2) || decide (s.stay = some 3)) = true := by
    rcases hstay with e | e
    · rw [e]; rfl
    · rw [e]; rfl
  have hawake : (s.wakeEvent 17).asleep = false := by
    rw [wakeEvent_only s 17]
    exact h
  unfold State.tlp
  dsimp only
  rw [hwakes, if_pos rfl]
  exact if_neg (by rw [hawake]; decide)

theorem hostInterface_wakes (s : State) (t : Tlp) (hstay : s.stay = some 2 ∨ s.stay = some 3) :
    Gives (.pcieTlpReceive t) s fun u =>
    (s.rdB PWR_WAKE_EN 17 = true → s.pwr.woke = none → u.pwr.woke = some 17) ∧
    (s.asleep = true → u.hif.later = s.hif.later ++ [t] ∧ u.hif.cpls = s.hif.cpls ∧
      OnlyRegs { s with pwr := u.pwr } u []) := by
  refine (gives_iff_of_done (t := s.tlp t) rfl).2 ?_
  have hkept (hen : s.rdB PWR_WAKE_EN 17 = true) (hwoke : s.pwr.woke = none) :
      s.wakeEvent 17 = { s with pwr := { s.pwr with woke := some 17, wokeAt := s.now } } := by
    rcases hstay with e | e
    · exact wakeEvent_kept (src := 17) (t := 2) e hen (.inr (by omega)) hwoke
    · exact wakeEvent_kept (src := 17) (t := 3) e hen (.inr (by omega)) hwoke
  cases hasleep : s.asleep with
  | true =>
    rw [tlp_asleep hstay hasleep]
    set v : State := { s with pwr := (s.wakeEvent 17).pwr, hif := { s.hif with later := s.hif.later ++ [t] } }
    have hsig := signals_settle v
    refine ⟨fun hen hwoke => ?_, fun _ => ⟨hsig.later, hsig.cpls, ?_⟩⟩
    · show (s.wakeEvent 17).pwr.woke = some 17
      rw [hkept hen hwoke]
    · exact ⟨rfl, fun _ _ => rfl⟩
  | false =>
    rw [tlp_wakes hstay hasleep]
    refine ⟨fun hen hwoke => ?_, fun h => absurd h (by decide)⟩
    rw [State.settle_pwr, pwr_tlpNow, hkept hen hwoke]

/-- A memory request that waited for the exit is queued as it is carried out. -/
theorem resumed_queued {s e : State} {t w : Nat} (h : Resumed s e t w) {a : Nat} {d : List (Byte × Bool)} (hd : d ≠ [])
    (ha : a + d.length ≤ 2 ^ 31) (fn : Fin 2) (write : Bool) :
    TlpQueued s ((noneLater e).hostReq fn write a d) fn write a d := by
  obtain ⟨v, hv, hwaits⟩ := h.waits
  obtain ⟨hnext, moved, hmoved⟩ := hostReq_queued (s := noneLater e) hd ha fn write
  have hids : tlpWaits (noneLater e) fn write a d = tlpWaits s fn write a d :=
    congrArg (fun id => (tlpParts a d.length).map (fun p => (Origin.tlp id, tlpTxn fn write a d p))) h.nextReq
  have hfirst : ∃ first, waitsFor 6 s.portWait = first ++ waitsFor 6 (noneLater e).portWait := by
    rcases hwaits with rfl | rfl
    · exact ⟨[], congrArg (waitsFor 6) hv.symm⟩
    · rw [← hv]
      exact portPump_moves 6 v.portWait.length v
  obtain ⟨first, hfirst⟩ := hfirst
  refine ⟨hnext.trans (congrArg (· + 1) h.nextReq), first ++ moved, ?_⟩
  show waitsFor 6 s.portWait ++ tlpWaits s fn write a d = _
  rw [hids] at hmoved
  rw [hfirst, List.append_assoc, hmoved, List.append_assoc]
  rfl

theorem msixRead_congr {s u : State} {fn : Nat} (h : u.hif.msix fn = s.hif.msix fn) (off : Nat) :
    u.msixRead fn off = s.msixRead fn off := by
  unfold State.msixRead
  rw [h]

theorem pwrState_exitRegs (s : State) (w : Nat) : (exitRegs s w).pwrState = 0 := by
  unfold exitRegs
  set t := s.wrF PWR_STAT 2 0 0
  have hstat := State.rd_raise_other (t.wrF PWR_STAT 20 16 w) (q := PWR_STAT) (r := PWR_INT) 1#32 (by decide)
  calc bits (((t.wrF PWR_STAT 20 16 w).raise PWR_INT 1#32).rd PWR_STAT) 2 0
    _ = (t.wrF PWR_STAT 20 16 w).rdF PWR_STAT 2 0 := congrArg (bits · 2 0) hstat
    _ = t.rdF PWR_STAT 2 0 := rdF_wrF_apart t _ (by omega) (by omega) (by omega) w
    _ = 0 := rdF_wrF_same s _ (by omega) (by omega) 0

theorem hostInterface_exit (s : State) (w : Nat) (hstate : s.pwrState = 2 ∨ s.pwrState = 3) (hwoke : s.pwr.woke = some w) :
    Gives .powerStateExit s fun u =>
    u.hif.later = [] ∧
    (∀ fn off, s.hif.later = [.msixRead fn off] → s.reqs = [] →
      u.hif.cpls = s.hif.cpls ++ [(leBytes 4 (s.msixRead fn off.toNat).toNat, false)]) ∧
    (∀ fn a en, s.hif.later = [.read fn a en] → en ≠ [] → a.toNat + en.length ≤ 2 ^ 31 →
      TlpQueued s u fn false a.toNat (en.map (fun b => (0, b)))) ∧
    (∀ fn a d, s.hif.later = [.write fn a d] → d ≠ [] → a.toNat + d.length ≤ 2 ^ 31 →
      TlpQueued s u fn true a.toNat d) := by
  refine (gives_iff_of_done (t := s.wakeUp) rfl).2 ?_
  have hexit := pwrExit_resumes hwoke (by omega) (by omega)
  rw [wakeUp_awake ((pwrState_congr hexit.stat).trans (pwrState_exitRegs s w))]
  generalize s.pwrExit = e at *
  have hone : ∀ t, s.hif.later = [t] → e.tlpLate = (noneLater e).tlpNow t := fun t h => by
    have hlate : e.hif.later = [t] := (congrArg Hif.later hexit.hif).trans h
    rw [State.tlpLate, hlate]
    rfl
  refine ⟨(signals_settle _).later.trans (later_tlpLate e), fun fn off h hreqs => ?_, fun fn a en h hen ha => ?_,
    fun fn a d h hd ha => ?_⟩
  · have hword : e.tlpLate = (noneLater e).hostWord fn ((noneLater e).msixRead fn off.toNat) := hone _ h
    have hread : (noneLater e).msixRead fn off.toNat = s.msixRead fn off.toNat :=
      msixRead_congr (s := s) (u := noneLater e) (congrArg (Hif.msix · fn) hexit.hif :) _
    rw [hword, (signals_settle _).cpls, hread, hostWord_alone (s := noneLater e) (hexit.reqs.trans hreqs)]
    have hcpls : (noneLater e).hif.cpls = s.hif.cpls := (congrArg Hif.cpls hexit.hif :)
    rw [hcpls]
  · have hreq : e.tlpLate = (noneLater e).hostReq fn false a.toNat (en.map (fun b => (0, b))) := hone _ h
    rw [hreq]
    exact resumed_queued hexit (by simpa using hen) (by simpa using ha) fn false
  · have hreq : e.tlpLate = (noneLater e).hostReq fn true a.toNat d := hone _ h
    rw [hreq]
    exact resumed_queued hexit hd ha fn true

end Sys2Proof

namespace Sys2Proof

open Sys2Proof.Machine

/-! A vector re-armed (R353). -/

/-- The evaluation of vectors whose conditions are known sends nothing. -/
theorem vecHif_known {s : State} {l : List Nat} (hl : ∀ v ∈ l, s.vecCond v = true → v ∈ s.hif.cond) (h : Hif) :
    l.foldl (fun h v =>
      let c := s.vecCond v
      let h' := if c && !(s.hif.cond.contains v) then h.send (s.vecFn v) v else h
      { h' with cond := if c then h'.cond ++ [v] else h'.cond }) h =
    { h with cond := h.cond ++ l.filter s.vecCond } := by
  induction l generalizing h with
  | nil => simp
  | cons v l ih =>
    rw [List.foldl_cons, ih fun w hw => hl w (List.mem_cons_of_mem _ hw)]
    cases hv : s.vecCond v with
    | true =>
      have hmem := hl v List.mem_cons_self hv
      simp [hv, hmem]
    | false => simp [hv]

theorem vecHif_settled {s : State} (h : VectorsSettled s) : s.vecHif = s.hif := by
  have hknown : ∀ v ∈ vectors, s.vecCond v = true → v ∈ s.hif.cond := fun v hv hc => by
    rw [h]
    exact List.mem_filter.2 ⟨hv, hc⟩
  refine (vecHif_known hknown { s.hif with cond := [] }).trans ?_
  have hcond : ([] : List Nat) ++ vectors.filter s.vecCond = s.hif.cond := h.symm
  rw [hcond]

theorem send_cond (h : Hif) (fn v : Nat) : (h.send fn v).cond = h.cond := by
  unfold Hif.send
  dsimp only
  generalize (if v = 65 then 1 else v) = k
  split
  · rfl
  · unfold Hif.setMsix
    split <;> rfl

/-- The bit that a mask of one bit selects. -/
theorem selects_one (v : Fin 8) : (upTo 8).filter (fun k => (BitVec.ofNat 8 (2 ^ v.val)).toNat.testBit k) = [v.val] := by
  revert v
  decide

/-- The vector that a function re-arms. -/
def rearmed (q : Req) (v : Nat) : Nat := if v = 1 && b2n q.guest = 1 then 65 else v

/-- The state with that vector sent again, where its condition holds. -/
def rearmSent (s : State) (q : Req) (v : Nat) : State :=
  if s.vecFn (rearmed q v) = b2n q.guest && s.vecCond (rearmed q v) then
    { s with hif := s.hif.send (b2n q.guest) (rearmed q v) }
  else s

theorem rearm_one {s : State} {q : Req} (h : q.master = 6) (v : Fin 8) :
    s.rearm q (BitVec.ofNat 8 (2 ^ v.val)).toNat = rearmSent s q v := by
  unfold State.rearm
  rw [selects_one, if_pos (by rw [h]; rfl)]
  rfl

theorem rearmSent_settled {s : State} (h : VectorsSettled s) (q : Req) (v : Nat) : VectorsSettled (rearmSent s q v) := by
  unfold rearmSent
  split
  · exact (send_cond _ _ _).trans h
  · exact h

theorem hif_rearm {s : State} {q : Req} (hq : q.master = 6) (h : VectorsSettled s) (v : Fin 8) :
    (s.rearm q (BitVec.ofNat 8 (2 ^ v.val)).toNat).settle.hif = (rearmSent s q v).hif := by
  rw [rearm_one hq]
  exact vecHif_settled (rearmSent_settled h q v)

/-- The number that the message of a vector carries. -/
theorem rearmed_number (q : Req) (v : Fin 8) : (if rearmed q v = 65 then 1 else rearmed q v) = v.val := by
  unfold rearmed
  have hv := v.isLt
  split
  · rename_i h
    have h1 : v.val = 1 := by simpa using (Bool.and_eq_true_iff.1 h).1
    rw [if_pos rfl, h1]
  · exact if_neg (by omega)

theorem rearmed_eq (q : Req) (v : Fin 8) : rearmed q v = if v = 1 ∧ q.guest = true then 65 else v.val := by
  unfold rearmed
  have hguest : b2n q.guest = 1 ↔ q.guest = true := by cases q.guest <;> decide
  have hone : v.val = 1 ↔ v = 1 := by omega
  simp only [Bool.and_eq_true, decide_eq_true_eq, hguest, hone]

theorem msix_setMsix (h : Hif) {fn : Nat} (m : Msix) : (h.setMsix fn m).msix fn = m := by
  unfold Hif.setMsix Hif.msix
  split <;> rfl

theorem passes_iff (m : Msix) (v : Nat) : m.passes v = true ↔ m.on = true ∧ m.mask = false ∧ v ∈ m.unmasked := by
  simp [Msix.passes, and_assoc]

theorem hostInterface_rearm (s : State) (q : Req) (v : Fin 8) (hreach : Reaches s q HIF_IREARM) (hq : q.master = 6)
    (hsettled : VectorsSettled s) : Gives (.interruptRearm q (BitVec.ofNat 8 (2 ^ v.val))) s fun u =>
      let fn := b2n q.guest
      let x := if v = 1 ∧ q.guest = true then 65 else v.val
      let m := s.hif.msix fn
      (s.vecFn x = fn → s.vecCond x = true → m.on = true → m.mask = false → v.val ∈ m.unmasked →
        u.hif.msgs = s.hif.msgs ++ [(fn, v.val)]) ∧
      (s.vecFn x = fn → s.vecCond x = true → m.on = false ∨ m.mask = true ∨ v.val ∉ m.unmasked →
        u.hif.msgs = s.hif.msgs ∧ v.val ∈ (u.hif.msix fn).pending) ∧
      (s.vecFn x ≠ fn ∨ s.vecCond x = false → u.hif = s.hif) := by
  refine gives_gated rfl hreach ?_
  have hhif := hif_rearm (s := s.respond 0 false) hq hsettled v
  rw [hhif]
  dsimp only
  rw [← rearmed_eq]
  have hnumber := rearmed_number q v
  have hsent : (s.vecFn (rearmed q v) = b2n q.guest) → s.vecCond (rearmed q v) = true →
      (rearmSent (s.respond 0 false) q v).hif = s.hif.send (b2n q.guest) (rearmed q v) := fun hf hc => by
    have hif : (decide ((s.respond 0 false).vecFn (rearmed q v) = b2n q.guest) && (s.respond 0 false).vecCond (rearmed q v)) = true :=
      Bool.and_eq_true_iff.2 ⟨decide_eq_true hf, hc⟩
    rw [rearmSent, if_pos hif]
    rfl
  refine ⟨fun hf hc hon hmask hun => ?_, fun hf hc hmasked => ?_, fun hnot => ?_⟩
  · rw [hsent hf hc, Hif.send, hnumber, if_pos ((passes_iff _ _).2 ⟨hon, hmask, hun⟩)]
  · have hstop : ¬ (s.hif.msix (b2n q.guest)).passes v = true := fun h => by
      obtain ⟨hon, hmask, hun⟩ := (passes_iff _ _).1 h
      rcases hmasked with h | h | h
      · rw [hon] at h; cases h
      · rw [hmask] at h; cases h
      · exact h hun
    rw [hsent hf hc, Hif.send, hnumber, if_neg hstop]
    constructor
    · unfold Hif.setMsix
      split <;> rfl
    · rw [msix_setMsix]
      dsimp only
      split
      · rename_i h
        exact List.contains_iff_mem.1 h
      · exact List.mem_append_right _ List.mem_cons_self
  · have hif : ¬ (decide ((s.respond 0 false).vecFn (rearmed q v) = b2n q.guest) && (s.respond 0 false).vecCond (rearmed q v)) = true :=
      fun h => by
        obtain ⟨hf, hc⟩ := Bool.and_eq_true_iff.1 h
        rcases hnot with hn | hn
        · exact hn (of_decide_eq_true hf)
        · exact absurd (hn.symm.trans hc) (by decide)
    rw [rearmSent, if_neg hif]
    rfl

/-! A change of the PCI Express link (R366). -/

theorem hostInterface_link (s : State) (up : Bool) (width : BitVec 4) (speed : BitVec 3) :
    Gives (.pcieLinkChange up width speed) s fun u =>
    u.rd HIF_STAT = (if up then BitVec.ofNat 32 (256 + width.toNat * 16 + speed.toNat) else 0) ∧
    u.rdB HIF_INT 1 = true ∧ OnlyRegs s u [HIF_STAT, HIF_INT] := by
  refine (gives_iff_of_done (t := s.pcieLink up width.toNat speed.toNat) rfl).2 ?_
  unfold State.pcieLink
  generalize (if up then BitVec.ofNat 32 (256 + width.toNat * 16 + speed.toNat) else 0) = x
  refine ⟨?_, ?_, ?_⟩
  · rw [State.rd_settle, State.rd_raise_other _ _ (by decide), State.rd_wr_same]
  · rw [State.rdB, State.rd_settle]
    exact rdB_raise_same _ _ (by decide)
  · exact ((OnlyRegs.wr s HIF_STAT x).trans (.upd _ HIF_INT _)).trans (.settle _)

/-! The end of a read request in an error (R349, R350). -/

/-- A read whose last part ended in an error. -/
def failedReq (r : HostReq) (data : List (Nat × Byte)) : HostReq :=
  { r with left := r.left - 1, data := r.data ++ data, err := r.err || true }

/-- The state with that part gone. -/
def reqFailed (s : State) (r : HostReq) (data : List (Nat × Byte)) : State := { s with reqs := [failedReq r data] }

theorem reqPart_failed {s : State} {r : HostReq} {id : Nat} (h : s.reqs = [r]) (hid : r.id = id) (data : List (Nat × Byte)) :
    s.reqPart id data true = (reqFailed s r data).reqFlush := by
  subst hid
  unfold State.reqPart
  rw [h]
  simp only [List.map_singleton, if_true]
  rfl

theorem reqFlush_failed (s : State) {r : HostReq} (hread : r.read = true) (hleft : r.left = 1) (data : List (Nat × Byte)) :
    (reqFailed s r data).reqFlush.reqs = [] ∧
    (s.rdB HIF_CTRL 0 = true → (reqFailed s r data).reqFlush.hif.cpls = s.hif.cpls ++ [([], true)] ∧
      (reqFailed s r data).reqFlush.hif.errs = s.hif.errs ++ [r.fn] ∧ r.fn ∈ (reqFailed s r data).reqFlush.hif.aer) ∧
    (s.rdB HIF_CTRL 0 = false → (reqFailed s r data).reqFlush.hif.errs = s.hif.errs ∧
      ∃ bytes, bytes.length = r.len ∧ (reqFailed s r data).reqFlush.hif.cpls = s.hif.cpls ++ [(bytes, false)]) := by
  have hdone : readsDone (reqFailed s r data).reqs = [failedReq r data] := by
    simp [readsDone, reqFailed, failedReq, hread, hleft]
  have hctrl : (reqFailed s r data).rdB HIF_CTRL 0 = s.rdB HIF_CTRL 0 := rfl
  have herr : (failedReq r data).err = true := Bool.or_true _
  have hkind : (failedReq r data).read = true := hread
  unfold State.reqFlush
  dsimp only
  rw [hdone]
  refine ⟨?_, fun hon => ?_, fun hoff => ?_⟩
  · simp [reqFailed, hkind]
  · have hcpl : (reqFailed s r data).completion (failedReq r data) = ([], true) := by
      simp [State.completion, hctrl, hon, herr]
    have hbad : [failedReq r data].filter (fun x => ((reqFailed s r data).completion x).2) = [failedReq r data] := by
      simp [hcpl]
    rw [hbad, List.map_singleton, hcpl]
    exact ⟨rfl, rfl, List.mem_dedup.2 (List.mem_append_right _ List.mem_cons_self)⟩
  · have hcpl : ((reqFailed s r data).completion (failedReq r data)).2 = false := by
      simp [State.completion, hctrl, hoff]
    have hbad : [failedReq r data].filter (fun x => ((reqFailed s r data).completion x).2) = [] := by
      simp [hcpl]
    rw [hbad]
    refine ⟨List.append_nil _, ((reqFailed s r data).completion (failedReq r data)).1, ?_, ?_⟩
    · simp [State.completion, hctrl, hoff, upTo, failedReq]
    · rw [← hcpl]
      rfl

theorem completeAt_tlp {s : State} {t : Nat} {x : BusTxn} {id : Nat} (hdone : s.doneAt t = some x) (hkilled : x.killed = false)
    (horigin : x.origin = .tlp id) (hread : x.txn.write = false) (herr : x.err ≠ 0) :
    s.completeAt t = ((txnGone s x).reqPart id (readBytes x.txn x.data) true).portGo.mxmHold := by
  have hend : s.completeAt t = s.endTxn x := by rw [State.completeAt, hdone]
  have hbad : (x.err != 0) = true := by simpa using herr
  rw [hend, State.endTxn, hkilled, horigin, hbad]
  unfold State.txnOutcome
  rw [hread]
  rfl

theorem hostInterface_error (s : State) (t : Fin 16) (x : BusTxn) (id : Nat) (r : HostReq) (hdone : s.doneAt t = some x)
    (hkilled : x.killed = false) (horigin : x.origin = .tlp id) (hwrite : x.txn.write = false) (herr : x.err ≠ 0)
    (hreqs : s.reqs = [r]) (hid : r.id = id) (hread : r.read = true) (hleft : r.left = 1) :
    Gives (.bmxTransactionComplete t) s fun u => u.reqs = [] ∧
      (s.rdB HIF_CTRL 0 = true → u.hif.cpls = s.hif.cpls ++ [([], true)] ∧ u.hif.errs = s.hif.errs ++ [r.fn] ∧
        r.fn ∈ u.hif.aer) ∧
      (s.rdB HIF_CTRL 0 = false → u.hif.errs = s.hif.errs ∧
        ∃ bytes, bytes.length = r.len ∧ u.hif.cpls = s.hif.cpls ++ [(bytes, false)]) := by
  refine (gives_iff_of_done (t := s.completeAt t) rfl).2 ?_
  have hstart : (txnGone s x).reqs = [r] := hreqs
  rw [completeAt_tlp hdone hkilled horigin hwrite herr, reqPart_failed hstart hid]
  obtain ⟨hgone, habort, hzeros⟩ := reqFlush_failed (txnGone s x) hread hleft (readBytes x.txn x.data)
  generalize (reqFailed (txnGone s x) r (readBytes x.txn x.data)).reqFlush = e at *
  have hports := (PortsAlone.portGo e).trans (.mxmHold _)
  generalize e.portGo.mxmHold = u at *
  have hsig := signals_settle u
  rw [hports.hif] at hsig
  rw [hsig.cpls, hsig.errs, hsig.aer]
  exact ⟨hports.reqs.trans hgone, habort, hzeros⟩

end Sys2Proof

namespace Sys2Proof

open Sys2Proof.Machine

/-! A Function Level Reset (R348). -/

/-- Every register of a mailbox but the time-out resets to 0. -/
theorem reset_mbRegs {m : Nat} : ∀ r ∈ mbRegs m, r.reset = if r.addr = 0x5011000C + 0x100 * m then 0x64#32 else 0#32 := by
  intro r hr
  simp only [mbRegs, List.mem_append, List.mem_cons, List.not_mem_nil, or_false, List.mem_map, upTo, List.mem_range] at hr
  rcases hr with ((rfl | rfl | rfl | rfl) | ⟨k, hk, rfl⟩) | ⟨k, hk, rfl⟩
  case inl.inl.inr.inr.inr => exact (if_pos rfl).symm
  all_goals
    refine (if_neg ?_).symm
    simp only [HSE_MB_CMD, HSE_MB_DOOR, HSE_MB_STAT, HSE_MB_ARG, HSE_MB_RSP]
    omega

/-- The mailbox of a function, reset. -/
def boxReset (s : State) (fn : Nat) : State := s.each (mbRegs fn) (fun s r => s.wr r r.reset)

theorem boxReset_only (s : State) (fn : Nat) : RegsAlone (· ∉ (mbRegs fn).map Reg.addr) s (boxReset s fn) :=
  .each (fun s _ hr => (RegsAlone.refl s).wr (not_away hr) _) s

theorem boxReset_regs (s : State) (fn : Nat) : ∀ r ∈ mbRegs fn, (boxReset s fn).rd r = r.reset := by
  refine each_forall (Q := fun r t => t.rd r = r.reset) (fun t r _ => State.rd_wr_same t r _) (fun t r hr q hq h => ?_) s
  by_cases he : q.addr = r.addr
  · have hreset : q.reset = r.reset := by rw [reset_mbRegs q hq, reset_mbRegs r hr, he]
    rw [State.rd, he, hreset]
    exact State.rd_wr_same t r r.reset
  · exact (State.rd_wr_other t _ he).trans h

/-- The state with the function's MSI-X state and its commands gone. -/
def fnCleared (s : State) (fn : Nat) : State :=
  { s with hif := s.hif.setMsix fn {},
           house := { s.house with due := sset 0 s.house.due fn 0, late := sset [] s.house.late fn [],
                                   lost := s.house.lost.filter (· != fn) } }

theorem fnCleared_rest (s : State) (fn : Nat) : (fnCleared s fn).regs = s.regs ∧ (fnCleared s fn).dma = s.dma ∧
    (fnCleared s fn).mem = s.mem ∧ (fnCleared s fn).hif.msix fn = {} := ⟨rfl, rfl, rfl, msix_setMsix _ _⟩

/-- The state of a function's mailbox and MSI-X gone. -/
def fnReset (s : State) (fn : Nat) : State := fnCleared (boxReset s fn) fn

/-- What the reset of a function leaves but for its channels. -/
theorem fnReset_rest (s : State) (fn : Nat) : (fnReset s fn).regs = (boxReset s fn).regs ∧ (fnReset s fn).dma = s.dma ∧
    (fnReset s fn).mem = s.mem ∧ (fnReset s fn).hif.msix fn = {} := by
  have hbox := boxReset_only s fn
  unfold fnReset
  generalize boxReset s fn = t at *
  obtain ⟨hregs, hdma, hmem, hmsix⟩ := fnCleared_rest t fn
  exact ⟨hregs, hdma.trans (congrArg State.dma hbox.only :), hmem.trans hbox.mem, hmsix⟩

/-- The registers of a HIF DMA channel, reset. -/
def chanRegsReset (s : State) (c : Nat) : State := s.each (upTo 5) (fun s k => s.wr (dmaReg 4 c k) (dmaReg 4 c k).reset)

/-- That channel, reset. -/
def chanReset (s : State) (c : Nat) : State := (chanRegsReset s c).setDmaCh 4 c {}

/-- The channels that a function owns. -/
def chansOf (s : State) (fn : Nat) : List Nat := (upTo 4).filter (fun c => b2n (s.rdB (dmaReg 4 c 0) 8) = fn)

theorem flr_eq (s : State) (fn : Nat) : s.flr fn = (fnReset s fn).each (chansOf (fnReset s fn) fn) chanReset := rfl

/-- Not the address of a register of the channel. -/
def OffChan (c a : Nat) : Prop := ∀ k < 5, a ≠ (dmaReg 4 c k).addr

theorem chanRegsReset_only (s : State) (c : Nat) : RegsAlone (OffChan c) s (chanRegsReset s c) :=
  .each (fun s k hk => (RegsAlone.refl s).wr (fun h => h k (List.mem_range.1 hk) rfl) _) s

theorem chanRegsReset_regs (s : State) (c : Nat) : ∀ k ∈ upTo 5, (chanRegsReset s c).rd (dmaReg 4 c k) = (dmaReg 4 c k).reset := by
  refine each_forall (Q := fun k t => t.rd (dmaReg 4 c k) = (dmaReg 4 c k).reset) (fun t k _ => State.rd_wr_same t _ _)
    (fun t k hk j hj h => ?_) s
  by_cases he : j = k
  · subst he
    exact State.rd_wr_same t _ _
  · exact (State.rd_wr_other t _ (dmaReg_apart 4 c (List.mem_range.1 hj) (List.mem_range.1 hk) he)).trans h

theorem offChan_other {c j k : Nat} (hk : k < 5) (h : j ≠ c) : OffChan c (dmaReg 4 j k).addr := fun i hi => by
  rw [addr_dmaReg 4 j hk, addr_dmaReg 4 c hi]
  omega

/-- What the reset of a channel leaves. -/
structure ChanGone (c : Nat) (u : State) : Prop where
  chan : u.dmaCh 4 c = {}
  regs : ∀ k < 5, u.rd (dmaReg 4 c k) = (dmaReg 4 c k).reset

theorem chanReset_gone (s : State) (c : Nat) : ChanGone c (chanReset s c) := by
  have hregs := chanRegsReset_regs s c
  unfold chanReset
  generalize chanRegsReset s c = t at *
  exact ⟨dmaCh_setDmaCh t 4 c {}, fun k hk => hregs k (List.mem_range.2 hk)⟩

/-- Another channel, the memory and the host interface stay. -/
structure ChanApart (p : Nat → Prop) (s u : State) : Prop where
  keeps : ∀ r : Reg, (∀ c, p c → OffChan c r.addr) → u.rd r = s.rd r
  chan : ∀ j, ¬ p j → u.dmaCh 4 j = s.dmaCh 4 j
  mem : u.mem = s.mem
  hif : u.hif = s.hif

theorem ChanApart.trans {p : Nat → Prop} {s t u : State} (h : ChanApart p s t) (k : ChanApart p t u) : ChanApart p s u :=
  ⟨fun r hr => (k.keeps r hr).trans (h.keeps r hr), fun j hj => (k.chan j hj).trans (h.chan j hj),
    k.mem.trans h.mem, k.hif.trans h.hif⟩

theorem chanReset_apart {p : Nat → Prop} {c : Nat} (h : p c) (s : State) : ChanApart p s (chanReset s c) := by
  have hregs := chanRegsReset_only s c
  unfold chanReset
  generalize chanRegsReset s c = t at *
  have hdma : t.dma = s.dma := (congrArg State.dma hregs.only :)
  have hhif : t.hif = s.hif := (congrArg State.hif hregs.only :)
  refine ⟨fun r hr => hregs.keeps r (hr c h), fun j hj => ?_, hregs.mem, hhif⟩
  have hj' : j ≠ c := fun e => hj (e ▸ h)
  have hother : (t.setDmaCh 4 c {}).dmaCh 4 j = t.dmaCh 4 j := by
    unfold State.setDmaCh State.dmaCh State.dmaUnit
    rw [sget_sset_same]
    exact sget_sset_other ({} : DmaCh) {} _ {} hj'
  exact hother.trans (dmaCh_congr hdma 4 j)

theorem chansReset_within {p : Nat → Prop} {l : List Nat} (h : ∀ c ∈ l, p c) (s : State) :
    ChanApart p s (s.each l chanReset) := by
  induction l generalizing s with
  | nil => exact ⟨fun _ _ => rfl, fun _ _ => rfl, rfl, rfl⟩
  | cons c l ih =>
    have hfirst := chanReset_apart (h c List.mem_cons_self) s
    rw [each_cons]
    generalize chanReset s c = t at *
    exact hfirst.trans (ih (fun j hj => h j (List.mem_cons_of_mem _ hj)) t)

theorem chansReset_apart (l : List Nat) (s : State) : ChanApart (· ∈ l) s (s.each l chanReset) :=
  chansReset_within (fun _ h => h) s

theorem chansReset_gone (l : List Nat) (s : State) : ∀ c ∈ l, ChanGone c (s.each l chanReset) := by
  refine each_forall (fun t c _ => chanReset_gone t c) (fun t c hc j hj h => ?_) s
  by_cases he : j = c
  · exact he ▸ chanReset_gone t c
  · have hapart := chanReset_apart (p := (· = c)) rfl t
    exact ⟨(hapart.chan j he).trans h.chan, fun k hk =>
      (hapart.keeps _ fun i hi => hi ▸ offChan_other hk he).trans (h.regs k hk)⟩

theorem fnReset_rd (s : State) {fn : Nat} (hfn : fn < 2) {r : Reg} (h : r.addr / 0x1000 ≠ 0x50110) :
    (fnReset s fn).rd r = s.rd r :=
  (State.rd_congr (fnReset_rest s fn).1 r).trans ((boxReset_only s fn).keeps r (away_of_addr hfn (.inl h)))

theorem mem_chansOf {s : State} {fn : Nat} (hfn : fn < 2) {c : Nat} (hc : c < 4) :
    c ∈ chansOf (fnReset s fn) fn ↔ s.rdB (HIF_CH_CTRL c) 8 = (fn == 1) := by
  have hbit : (fnReset s fn).rdB (dmaReg 4 c 0) 8 = s.rdB (HIF_CH_CTRL c) 8 :=
    congrArg (bit · 8) (fnReset_rd s hfn (by rw [addr_dmaReg 4 c (by omega), dmaBase, if_neg (by omega)]; omega))
  have hfn' : fn = 0 ∨ fn = 1 := by omega
  unfold chansOf
  rw [List.mem_filter, hbit]
  generalize s.rdB (HIF_CH_CTRL c) 8 = b
  rcases hfn' with rfl | rfl
  · cases b <;> simp [upTo, b2n, hc]
  · cases b <;> simp [upTo, b2n, hc]

theorem chansOf_lt {s : State} {fn c : Nat} (h : c ∈ chansOf s fn) : c < 4 := List.mem_range.1 (List.mem_filter.1 h).1

/-- A register outside the page of the HIF channels is none of theirs. -/
theorem offChan_of_addr {c a : Nat} (hc : c < 4) (h : a / 0x1000 ≠ 0x50100) : OffChan c a := fun k hk => by
  rw [addr_dmaReg 4 c hk, dmaBase, if_neg (by omega)]
  omega

/-- What a Function Level Reset leaves. -/
theorem hostInterface_reset (s : State) (fn : Fin 2) : Gives (.functionLevelReset fn) s fun u =>
    (∀ r ∈ mbRegs fn, u.rd r = r.reset) ∧ (u.hif.msix fn).on = false ∧ (u.hif.msix fn).unmasked = [] ∧ (u.hif.msix fn).table = [] ∧
    (∀ c < 4, s.rdB (HIF_CH_CTRL c) 8 = (fn.val == 1) →
      u.dmaCh 4 c = {} ∧ ∀ k < 5, u.rd (dmaReg 4 c k) = (dmaReg 4 c k).reset) ∧
    (∀ c < 4, s.rdB (HIF_CH_CTRL c) 8 ≠ (fn.val == 1) →
      u.dmaCh 4 c = s.dmaCh 4 c ∧ ∀ k < 5, u.rd (dmaReg 4 c k) = s.rd (dmaReg 4 c k)) ∧
    (∀ r : Reg, r.addr / 0x1000 ≠ 0x50110 → r.addr / 0x1000 ≠ 0x50100 → u.rd r = s.rd r) ∧ u.mem = s.mem := by
  refine (gives_iff_of_done (t := s.flr fn) rfl).2 ?_
  have howned := fun c (hc : c < 4) => mem_chansOf (s := s) fn.isLt hc
  have hpage : ∀ c < 4, ∀ k < 5, (dmaReg 4 c k).addr / 0x1000 ≠ 0x50110 := fun c hc k hk => by
    rw [addr_dmaReg 4 c hk, dmaBase, if_neg (by omega)]
    omega
  have hrd : ∀ r : Reg, r.addr / 0x1000 ≠ 0x50110 → (fnReset s fn).rd r = s.rd r := fun r hr => fnReset_rd s fn.isLt hr
  obtain ⟨hregs, hdma, hmem, hmsix⟩ := fnReset_rest s fn
  have hbox : ∀ r ∈ mbRegs fn, (fnReset s fn).rd r = r.reset := fun r hr =>
    (State.rd_congr hregs r).trans (boxReset_regs s fn r hr)
  rw [flr_eq]
  have hlt : ∀ c ∈ chansOf (fnReset s fn) fn, c < 4 := fun c h => chansOf_lt h
  generalize chansOf (fnReset s fn) fn = l at *
  generalize fnReset s fn = t at *
  have hapart := chansReset_apart l t
  have hgone := chansReset_gone l t
  generalize t.each l chanReset = u at *
  obtain ⟨p, hp⟩ := (signals_settle u).msix fn
  rw [hapart.hif, hmsix] at hp
  rw [hp]
  refine ⟨fun r hr => (hapart.keeps r fun c hc => offChan_of_addr (hlt c hc) ?_).trans (hbox r hr), rfl, rfl, rfl,
    fun c hc h => ?_, fun c hc h => ?_, fun r hbox' hchan => ?_, hapart.mem.trans hmem⟩
  · rw [(addr_mbRegs fn.isLt r hr).1]
    decide
  · have hg := hgone c ((howned c hc).2 h)
    exact ⟨hg.chan, hg.regs⟩
  · have hn : c ∉ l := fun hc' => h ((howned c hc).1 hc')
    exact ⟨(hapart.chan c hn).trans (dmaCh_congr hdma 4 c), fun k hk =>
      (hapart.keeps _ fun i hi => offChan_other hk fun (e : c = i) => hn (e ▸ hi)).trans (hrd _ (hpage c hc k hk))⟩
  · exact (hapart.keeps r fun c hc => offChan_of_addr (hlt c hc) hchan).trans (hrd r hbox')

/-- Settles O52: requests become transactions that wait in order (`hostInterface_read`, `hostInterface_write`); a failed read
completes with zeros or as a Completer Abort; the MSI-X table, the configuration space, wakes, the exit, re-arming, the
Function Level Reset and the link each by the lemma of their name. -/
theorem hostInterface : Obligations.HostInterface := by
  unfold Obligations.HostInterface
  exact ⟨hostInterface_read, hostInterface_write,
    fun s t x id r hdone hkilled horigin hwrite herr _ hreqs hid hread hleft =>
      hostInterface_error s t x id r hdone hkilled horigin hwrite herr hreqs hid hread hleft,
    hostInterface_msixWrite, hostInterface_words, hostInterface_cfgWrite, hostInterface_wakes, hostInterface_exit,
    hostInterface_rearm, hostInterface_reset, hostInterface_link⟩

end Sys2Proof

namespace Sys2Proof

open Sys2Proof.Machine

/-! The order of sending, and a frame's start (R314, R315). -/

/-- The place that a frame takes among those of which one starts. -/
def DngOut.place (f : DngOut) : Nat := if f.resent = 0 then dngRank f.kind else min 1 (dngRank f.kind)

theorem dngRank_lt (k : DngKind) : dngRank k < 6 := by cases k <;> decide

theorem place_lt (f : DngOut) : DngOut.place f < 6 := by
  have hrank := dngRank_lt f.kind
  unfold DngOut.place
  split <;> omega

/-- The frame picked has the first place of those that are ready. -/
theorem pick_first {l : Dng} {t : Nat} {f g : DngOut} (h : l.pick t = some f) (hg : g ∈ l.ready) (hat : 63 * g.at_ ≤ t) :
    DngOut.place f ≤ DngOut.place g := by
  obtain ⟨before, r, after, hsplit, hfind, hnone⟩ := List.findSome?_eq_some_iff.1 h
  have hplace : DngOut.place f = r := by simpa [DngOut.place] using List.find?_some hfind
  have hsorted : (before ++ r :: after).Pairwise (· < ·) := hsplit ▸ List.pairwise_lt_range
  have hmem : DngOut.place g ∈ before ++ r :: after := hsplit ▸ List.mem_range.2 (place_lt g)
  rw [hplace]
  rcases List.mem_append.1 hmem with hb | hr
  · have hreach := List.find?_eq_none.1 (hnone _ hb) g (List.mem_filter.2 ⟨hg, decide_eq_true hat⟩)
    exact absurd (by simp [DngOut.place]) hreach
  · rcases List.mem_cons.1 hr with he | ha
    · exact he.ge
    · exact Nat.le_of_lt ((List.pairwise_cons.1 (List.pairwise_append.1 hsorted).2.1).1 _ ha)

theorem dongoSends_pick (l : Dng) (t : Nat) (f g : DngOut) (_ : l.again = []) (h : l.pick t = some f) (hf : f.resent = 0)
    (hg : g ∈ l.queue) (hmay : l.mayStart g = true) (hnew : g.resent = 0) (hat : 63 * g.at_ ≤ t) :
    dngRank f.kind ≤ dngRank g.kind := by
  have hready : g ∈ l.ready := List.mem_append_left _ (List.mem_filter.2 ⟨hg, hmay⟩)
  simpa [DngOut.place, hf, hnew] using pick_first h hready hat

theorem dongoSends_start (l : Dng) (f : DngOut) (t stc : Nat) (hkind : f.kind = .time) (hnew : f.resent = 0) :
    let u := l.start f t stc
    ∃ g, u.sent = l.sent ++ [(t / 63, g)] ∧ u.replay = l.replay ++ [g] ∧ g.kind = .time ∧ g.seq = l.txSeq ∧
      g.payload = leBytes 6 (stcSec stc) ++ leBytes 4 (stcNs stc) ++ f.payload.drop 10 ∧
      u.txSeq = (l.txSeq + 1) % 4096 ∧ u.lineFree = t + 8 * (f.payload.length + 12) := by
  have hseq : dngSequenced f.kind = true := by rw [hkind]; rfl
  have htime : (f.kind == .time) = true := by rw [hkind]; rfl
  unfold Dng.start
  rw [if_neg (not_not_intro hnew), if_pos hseq, if_pos htime]
  exact ⟨_, rfl, rfl, hkind, rfl, rfl, rfl, rfl⟩

theorem dongoSends_again (l : Dng) (f : DngOut) (t stc : Nat) (h : f.resent ≠ 0) :
    (l.start f t stc).sent = l.sent ++ [(t / 63, f)] ∧ (l.start f t stc).again = l.again.drop 1 ∧
      (l.start f t stc).replay = l.replay := by
  unfold Dng.start
  rw [if_pos h]
  exact ⟨rfl, rfl, rfl⟩

/-! What the line does not look at (R315). -/

/-- A change of a link that its line does not see. -/
structure LineBlind (g : Dng → Dng) : Prop where
  ready : ∀ l : Dng, (g l).ready = l.ready
  lineFree : ∀ l : Dng, (g l).lineFree = l.lineFree
  start : ∀ (l : Dng) (f : DngOut) (t c : Nat), (g l).start f t c = g (l.start f t c)
  queue : ∀ l : Dng, (g l).queue = l.queue
  again : ∀ l : Dng, (g l).again = l.again
  sent : ∀ l : Dng, (g l).sent = l.sent

theorem run_lineBlind {g : Dng → Dng} (h : LineBlind g) (stcAt : Nat → Nat) (now n : Nat) (l : Dng) :
    Dng.run stcAt now n (g l) = g (Dng.run stcAt now n l) := by
  induction n generalizing l with
  | zero => rfl
  | succ n ih =>
    have hstart : (g l).startAt = l.startAt := by rw [Dng.startAt, Dng.startAt, h.ready, h.lineFree]
    have hpick : ∀ t, (g l).pick t = l.pick t := fun t => by rw [Dng.pick, Dng.pick, h.ready]
    unfold Dng.run
    rw [hstart]
    split
    · next t _ =>
      split
      · rw [hpick]
        split
        · rw [h.start, ih]
        · rfl
      · rfl
    · rfl

theorem linkNow_updLink {g : Dng → Dng} (h : LineBlind g) (s : State) (n : Nat) :
    (s.updLink n g).linkNow n = g (s.linkNow n) := by
  have hlink := link_updLink_same s n g
  unfold State.linkNow
  dsimp only
  rw [hlink, h.queue, h.again]
  exact run_lineBlind h s.stcAt s.now _ _

theorem start_ready (g : Dng → Dng) (hq : ∀ l : Dng, (g l).queue = l.queue) (ha : ∀ l : Dng, (g l).again = l.again)
    (hr : ∀ l : Dng, (g l).replay = l.replay) (l : Dng) : (g l).ready = l.ready := by
  have hmay : (g l).mayStart = l.mayStart := by
    funext f
    rw [Dng.mayStart, Dng.mayStart, ha, hr]
  rw [Dng.ready, Dng.ready, hmay, hq, ha]

/-- When a HELLO was asked with, what a link owes an acknowledgement, and what it expects next. -/
def heardAt (c : Nat) (l : Dng) : Dng := { l with helloAt := c }
def acked (l : Dng) : Dng := { l with ackDue := false }
def expects (q : Nat) (l : Dng) : Dng := { l with rxSeq := q, ackDue := true }

theorem lineBlind_heardAt (c : Nat) : LineBlind (heardAt c) where
  ready := start_ready _ (fun _ => rfl) (fun _ => rfl) fun _ => rfl
  lineFree _ := rfl
  start l f t k := by
    unfold Dng.start heardAt
    split
    · rfl
    · dsimp only
      split <;> rfl
  queue _ := rfl
  again _ := rfl
  sent _ := rfl

theorem lineBlind_acked : LineBlind acked where
  ready := start_ready _ (fun _ => rfl) (fun _ => rfl) fun _ => rfl
  lineFree _ := rfl
  start l f t k := by
    unfold Dng.start acked
    split
    · rfl
    · dsimp only
      split <;> rfl
  queue _ := rfl
  again _ := rfl
  sent _ := rfl

theorem lineBlind_expects (q : Nat) : LineBlind (expects q) where
  ready := start_ready _ (fun _ => rfl) (fun _ => rfl) fun _ => rfl
  lineFree _ := rfl
  start l f t k := by
    unfold Dng.start expects
    split
    · rfl
    · dsimp only
      split <;> rfl
  queue _ := rfl
  again _ := rfl
  sent _ := rfl

/-- The line sees the time and the link alone. -/
theorem linkNow_congr {s u : State} {n : Nat} (hlink : u.link n = s.link n) (hnow : u.now = s.now) (hstc : u.stcAt = s.stcAt) :
    u.linkNow n = s.linkNow n := by
  unfold State.linkNow
  rw [hlink, hnow, hstc]

/-- The line sends nothing more where nothing waits. -/
theorem linkNow_idle {s : State} {n : Nat} (hq : (s.link n).queue = []) (ha : (s.link n).again = []) :
    s.linkNow n = s.link n := by
  unfold State.linkNow
  dsimp only
  rw [hq, ha]
  rfl

/-! A frame sent waits for the line (R314, R315). -/

/-- The frames sent again since. -/
def retries (s : State) (n : Nat) : Nat :=
  (((s.linkNow n).sent.drop (s.link n).sent.length).filter (fun x => x.2.resent != 0)).length

theorem lineRun_eq (s : State) (n : Nat) :
    s.lineRun n = (s.setLink n (s.linkNow n)).countF (DNG_L_RETRY_CNT n) 31 0 (retries s n) := rfl

theorem rdF_countF_whole (s : State) (r : Reg) (k : Nat) :
    (s.countF r 31 0 k).rdF r 31 0 = min (s.rdF r 31 0 + k) (2 ^ 32 - 1) := by
  have hlt : min (bits (s.rd r) 31 0 + k) (2 ^ 32 - 1) < 2 ^ 32 := by omega
  unfold State.rdF
  rw [State.rd_countF_same]
  exact (bits_setBits_same _ (by omega) (by omega) _).trans (Nat.mod_eq_of_lt hlt)

theorem lineRun_retries (s : State) (n : Nat) : OnlyRetries s (s.lineRun n) n :=
  ⟨fun _ hr => rd_lineRun s hr, by rw [lineRun_eq]; exact rdF_countF_whole _ _ _⟩

/-- A frame as it waits. -/
def DngOut.fresh (f : DngOut) (c : Nat) : DngOut := { f with seq := 0, resent := 0, at_ := c }

/-- A link with a frame more that waits. -/
def Dng.withFrame (f : DngOut) (l : Dng) : Dng := { l with queue := l.queue ++ [f] }

/-- Only AUDIO and CASC frames are held back by the standby gate (R329). -/
def ungated (f : DngOut) : Prop := (f.kind == .audio || f.kind == .casc) = false

theorem dngSend_eq {f : DngOut} (h : ungated f) (s : State) (n : Nat) :
    s.dngSend n f = (s.lineRun n).updLink n (Dng.withFrame (DngOut.fresh f s.now)) := by
  have hgate : ((f.kind == .audio || f.kind == .casc) && s.gatedOut 3 &&
      !(!(s.rdB ANI_CTRL 3) && s.rdF ANI_CTRL 5 4 == n)) = false := by
    rw [ungated] at h
    rw [h]
    rfl
  unfold State.dngSend
  rw [if_neg (by rw [hgate]; decide)]
  rfl

/-- What a frame that is sent leaves: the line as it is now, the frame behind those that wait. -/
structure Queued (s u : State) (n : Nat) (l : Dng) (f : DngOut) : Prop where
  link : u.link n = Dng.withFrame f l
  retries : OnlyRetries s u n
  mem : u.mem = s.mem

theorem queued_dngSend {f : DngOut} (h : ungated f) (s : State) (n : Nat) :
    Queued s (s.dngSend n f) n (s.linkNow n) (DngOut.fresh f s.now) := by
  rw [dngSend_eq h]
  have hlink := link_lineRun s n
  have hretries := lineRun_retries s n
  have hmem : (s.lineRun n).mem = s.mem := rfl
  generalize s.lineRun n = t at *
  exact ⟨by rw [link_updLink_same, hlink], ⟨hretries.1, hretries.2⟩, hmem⟩

namespace Queued

variable {s u : State} {n : Nat} {l : Dng} {f : DngOut}

theorem queue (h : Queued s u n l f) : (u.link n).queue = l.queue ++ [f] := by rw [h.link]; rfl

theorem settle (h : Queued s u n l f) : Queued s u.settle n l f := ⟨h.link, h.retries, h.mem⟩

/-- A change that the line does not see goes before. -/
theorem blind {g : Dng → Dng} (hg : LineBlind g) (h : Queued (s.updLink n g) u n ((s.updLink n g).linkNow n) f) :
    Queued s u n (g (s.linkNow n)) f := by
  obtain ⟨hlink, ⟨hregs, hcount⟩, hmem⟩ := h
  rw [linkNow_updLink hg] at hlink
  refine ⟨hlink, ⟨hregs, ?_⟩, hmem⟩
  rw [linkNow_updLink hg, link_updLink_same, hg.sent, hg.sent] at hcount
  exact hcount

end Queued

end Sys2Proof

namespace Sys2Proof

open Sys2Proof.Machine

/-! A HELLO asked with, an acknowledgement and a TIME frame (R315, R316, R321). -/

/-- A HELLO that asks. -/
def helloFrame : DngOut := { kind := .hello, seq := 0, payload := [0] }

theorem dngHello_queued (s : State) (n : Nat) :
    Queued s (s.dngHello n false) n (heardAt s.now (s.linkNow n)) (DngOut.fresh helloFrame s.now) :=
  Queued.blind (lineBlind_heardAt s.now) (queued_dngSend (f := helloFrame) rfl (s.updLink n (heardAt s.now)) n)

theorem dongoSends_train (s : State) (n : Fin 4) (h : s.dngState n = 1) : Gives (.dongoTrainTimeout n) s fun u =>
    (u.link n).queue = (s.linkNow n).queue ++ [{ kind := .hello, seq := 0, payload := [0], at_ := s.now }] ∧
    (u.link n).helloAt = s.now ∧ OnlyRetries s u n ∧ u.mem = s.mem := by
  refine (gives_iff_of_done (t := s.dngTrain n) rfl).2 ?_
  rw [State.dngTrain, if_pos h]
  have hsent := (dngHello_queued s n).settle
  exact ⟨hsent.queue, by rw [hsent.link]; rfl, hsent.retries, hsent.mem⟩

theorem dongoSends_ack (s : State) (n : Fin 4) (h : s.dngState n = 2) : Gives (.dongoAckTimer n) s fun u =>
    (u.link n).queue = (s.linkNow n).queue ++
      [{ kind := .ack, seq := 0, payload := leBytes 2 (s.link n).rxSeq, at_ := s.now }] ∧
    (u.link n).ackDue = false ∧ OnlyRetries s u n ∧ u.mem = s.mem := by
  refine (gives_iff_of_done (t := s.dngAck n) rfl).2 ?_
  rw [State.dngAck, if_pos h]
  have hsent := (Queued.blind lineBlind_acked (queued_dngSend
    (f := { kind := .ack, seq := 0, payload := seqBytes ((s.updLink n acked).link n).rxSeq }) rfl (s.updLink n acked) n)).settle
  rw [link_updLink_same] at hsent
  exact ⟨hsent.queue, ((congrArg Dng.ackDue hsent.link :).trans rfl :), hsent.retries, hsent.mem⟩

/-- The bytes of a TIME frame that waits. -/
def timeBody (q fmt b : Nat) : List Byte := leBytes 10 0 ++ leBytes 1 q ++ leBytes 1 fmt ++ leBytes 4 b

theorem timeBody_spec (q fmt b : Nat) : (timeBody q fmt b).length = 16 ∧ (timeBody q fmt b).getD 10 0 = BitVec.ofNat 8 q := by
  constructor
  · simp [timeBody, leBytes, upTo]
  · simp [timeBody, leBytes, upTo]

theorem dongoSends_time (s : State) (n : Fin 4) (h : s.dngState n = 2) : Gives (.dongoTimeSend n) s fun u =>
    ∃ p, (u.link n).queue = (s.linkNow n).queue ++ [{ kind := .time, seq := 0, payload := p, at_ := s.now }] ∧
      p.length = 16 ∧ p.getD 10 0 = BitVec.ofNat 8 (s.dngQual n) ∧ OnlyRetries s u n ∧ u.mem = s.mem := by
  refine (gives_iff_of_done (t := s.dngTimeSend n) rfl).2 ?_
  have hframe : ∃ fmt b, s.dngTimeSend n =
      s.dngSend n { kind := .time, seq := 0, payload := timeBody (s.dngQual n) fmt b } := ⟨_, _, if_pos h⟩
  obtain ⟨fmt, b, hframe⟩ := hframe
  rw [hframe]
  have hsent := (queued_dngSend (f := { kind := .time, seq := 0, payload := timeBody (s.dngQual n) fmt b }) rfl s n).settle
  obtain ⟨hlen, hqual⟩ := timeBody_spec (s.dngQual n) fmt b
  exact ⟨timeBody (s.dngQual n) fmt b, hsent.queue, hlen, hqual, hsent.retries, hsent.mem⟩

/-! The delay of a link (R321). -/

theorem dongoSends_delay_training (s : State) (n : Fin 4) (rt : BitVec 17) (h : s.dngState n = 1) :
    Gives (.dongoDelayMeasure n rt) s fun u =>
    u.rd (DNG_L_DELAY n) = BitVec.ofNat 32 (min (rt.toNat / 2) 65535) ∧ OnlyRegs s u [DNG_L_DELAY n] := by
  refine (gives_iff_of_done (t := s.dngDelay n rt.toNat) rfl).2 ?_
  have hdone : s.dngDelay n rt.toNat = s.setDelay n rt.toNat := by rw [State.dngDelay, h]; rfl
  rw [hdone]
  exact ⟨State.rd_wr_same s _ _, (OnlyRegs.wr s _ _).trans (.settle _)⟩

theorem dongoSends_delay_up (s : State) (n : Fin 4) (rt : BitVec 17) (h : s.dngState n = 2) :
    Gives (.dongoDelayMeasure n rt) s fun u =>
    u.rd (DNG_L_DELAY n) = BitVec.ofNat 32 (min (rt.toNat / 2) 65535) ∧ (u.link n).helloAt = s.now ∧
    (u.link n).queue = (s.linkNow n).queue ++ [{ kind := .hello, seq := 0, payload := [0], at_ := s.now }] ∧
    (∀ r : Reg, r.addr ∉ [(DNG_L_DELAY n).addr, (DNG_L_RETRY_CNT n).addr] → u.rd r = s.rd r) ∧ u.mem = s.mem := by
  refine (gives_iff_of_done (t := s.dngDelay n rt.toNat) rfl).2 ?_
  have hdone : s.dngDelay n rt.toNat = (s.setDelay n rt.toNat).dngHello n false := by rw [State.dngDelay, h]; rfl
  rw [hdone]
  have hsent := (dngHello_queued (s.setDelay n rt.toNat) n).settle
  have hnow : (s.setDelay n rt.toNat).linkNow n = s.linkNow n := linkNow_congr rfl rfl rfl
  have hdelay : (s.setDelay n rt.toNat).rd (DNG_L_DELAY n) = BitVec.ofNat 32 (min (rt.toNat / 2) 65535) :=
    State.rd_wr_same s _ _
  have hrest : ∀ r : Reg, r.addr ≠ (DNG_L_DELAY n).addr → (s.setDelay n rt.toNat).rd r = s.rd r := fun r hr =>
    State.rd_wr_other s _ hr
  have hsame : (s.setDelay n rt.toNat).now = s.now ∧ (s.setDelay n rt.toNat).mem = s.mem := ⟨rfl, rfl⟩
  generalize s.setDelay n rt.toNat = t at *
  refine ⟨?_, ?_, ?_, fun r hr => ?_, hsent.mem.trans hsame.2⟩
  · refine (hsent.retries.1 _ ?_).trans hdelay
    simp only [DNG_L_DELAY, DNG_L_RETRY_CNT]
    omega
  · rw [hsent.link, ← hsame.1]
    rfl
  · rw [hsent.queue, hnow, hsame.1]
    rfl
  · simp only [List.mem_cons, List.not_mem_nil, or_false, not_or] at hr
    exact (hsent.retries.1 r hr.2).trans (hrest r hr.1)

/-! A link in UP trains again (R316). -/

/-- The count of losses is none of the registers that a link's change of state writes. -/
theorem dngOff_downCnt (n : Nat) : DngOff n (· = (DNG_L_DOWN_CNT n).addr) where
  fixed r hr := by
    simp only [List.mem_cons, List.not_mem_nil, or_false] at hr
    rcases hr with rfl | rfl | rfl | rfl | rfl
    all_goals
      simp only [DNG_L_DOWN_CNT, DNG_L_STAT, DNG_L_INT, DNG_L_RETRY_CNT, DNG_L_EVLOST_CNT, DNG_STAT]
      omega
  shared r hr h := (dngShown_saf (n := n)).1 r hr (.inr (.inr h))
  entry j hj r hr h := (dngShown_saf (n := n)).2 j hj r hr (.inr (.inr h))

/-- The link down in TRAIN, its loss counted. -/
def trainsAgain (s : State) (n : Nat) : State := (s.dngDown n 1).count (DNG_L_DOWN_CNT n)

theorem dngRetrain_eq {s : State} {n : Nat} (h : s.dngState n = 2) :
    s.dngRetrain n = (trainsAgain s n).dngHello n false := by
  rw [State.dngRetrain, if_pos h]
  rfl

theorem dngOff_none (n : Nat) : DngOff n (fun _ => False) := ⟨fun _ _ h => h, fun _ _ h => h, fun _ _ _ _ h => h⟩

theorem trainsAgain_spec {s : State} {n : Nat} (h : s.dngState n = 2) : (trainsAgain s n).dngState n = 1 ∧
    (trainsAgain s n).rdB (DNG_L_INT n) 0 = true ∧
    (trainsAgain s n).rdF (DNG_L_DOWN_CNT n) 31 0 = min (s.rdF (DNG_L_DOWN_CNT n) 31 0 + 1) (2 ^ 32 - 1) ∧
    (∃ l, (trainsAgain s n).link n = dngFresh l) ∧ (trainsAgain s n).mem = s.mem ∧ (trainsAgain s n).now = s.now := by
  have hcnt := (DngMoved.refl s).dngDown (dngOff_downCnt n) 1
  obtain ⟨hstate, hint, hlink⟩ := dngDown_spec (v := 1) (by omega) h (by omega)
  have hstat : (DNG_L_STAT n).addr ≠ (DNG_L_DOWN_CNT n).addr := by
    simp only [DNG_L_STAT, DNG_L_DOWN_CNT]
    omega
  have hflag : (DNG_L_INT n).addr ≠ (DNG_L_DOWN_CNT n).addr := by
    simp only [DNG_L_INT, DNG_L_DOWN_CNT]
    omega
  unfold trainsAgain
  have hmem := hcnt.mem
  have hnow := hcnt.now
  have hkept := hcnt.keeps (DNG_L_DOWN_CNT n) rfl
  generalize s.dngDown n 1 = t at *
  refine ⟨(dngState_congr (State.rd_count_other t hstat)).trans hstate,
    (congrArg (bit · 0) (State.rd_count_other t hflag)).trans hint, ?_, hlink, hmem, hnow⟩
  rw [rdF_count_same, State.rdF, hkept]
  rfl

theorem dongoSends_retrain (s : State) (n : Fin 4) (h : s.dngState n = 2) :
    ∀ c ∈ [Instr.dongoRxTimeout n, Instr.dongoLaneLockLoss n], Gives c s fun u =>
    u.dngState n = 1 ∧ u.linkAligned n = false ∧ u.rdB (DNG_L_INT n) 0 = true ∧
    u.rdF (DNG_L_DOWN_CNT n) 31 0 = min (s.rdF (DNG_L_DOWN_CNT n) 31 0 + 1) (2 ^ 32 - 1) ∧
    (u.link n).queue = [{ kind := .hello, seq := 0, payload := [0], at_ := s.now }] ∧
    (u.link n).replay = [] ∧ (u.link n).txSeq = 0 ∧ (u.link n).rxSeq = 0 ∧ u.mem = s.mem := by
  intro c hc
  have hdone : exec c s = done (s.dngRetrain n) := by
    simp only [List.mem_cons, List.not_mem_nil, or_false] at hc
    rcases hc with rfl | rfl <;> rfl
  refine (gives_iff_of_done hdone).2 ?_
  rw [dngRetrain_eq h]
  obtain ⟨hstate, hint, hcnt, ⟨l, hlink⟩, hmem, hnow⟩ := trainsAgain_spec h
  generalize trainsAgain s n = t at *
  have hidle : t.linkNow n = dngFresh l := (linkNow_idle (by rw [hlink]; rfl) (by rw [hlink]; rfl)).trans hlink
  have hsent := (dngHello_queued t n).settle
  rw [hidle, hnow] at hsent
  generalize (t.dngHello n false).settle = u at *
  have hstat : u.dngState n = 1 :=
    (dngState_congr (hsent.retries.1 _ (by simp only [DNG_L_STAT, DNG_L_RETRY_CNT]; omega))).trans hstate
  refine ⟨hstat, ?_, ?_, ?_, hsent.queue, ?_, ?_, ?_, hsent.mem.trans hmem⟩
  · have hup : u.linkUp n = false := by
      show (u.dngState n == 2) = false
      rw [hstat]
      rfl
    rw [State.linkAligned, hup, Bool.false_and]
  · exact (congrArg (bit · 0) (hsent.retries.1 _ (by simp only [DNG_L_INT, DNG_L_RETRY_CNT]; omega))).trans hint
  · exact (congrArg (bits · 31 0) (hsent.retries.1 _ (by simp only [DNG_L_DOWN_CNT, DNG_L_RETRY_CNT]; omega))).trans hcnt
  · rw [hsent.link]; rfl
  · rw [hsent.link]; rfl
  · rw [hsent.link]; rfl

theorem dongoSends_idle (s : State) (n : Fin 4) (h : s.dngState n ≠ 2) :
    ∀ c ∈ [Instr.dongoRxTimeout n, Instr.dongoLaneLockLoss n], Gives c s fun u => OnlyRegs s u [] := by
  intro c hc
  have hdone : exec c s = done (s.dngRetrain n) := by
    simp only [List.mem_cons, List.not_mem_nil, or_false] at hc
    rcases hc with rfl | rfl <;> rfl
  refine (gives_iff_of_done hdone).2 ?_
  rw [State.dngRetrain, if_neg h]
  exact OnlyRegs.settle s

end Sys2Proof

namespace Sys2Proof

open Sys2Proof.Machine

/-! Clove's host side with no Background event in its queue (R216, R217). -/

/-- The host flows that have a ready head, shown, with the flag of those that rose. -/
def hostShown (s : State) : State :=
  let n0 := s.hneBits 0
  let n1 := s.hneBits 1
  let rose := (n0 &&& ~~~(s.rd (CLV_HNE 0))) != 0 || (n1 &&& ~~~(s.rd (CLV_HNE 1))) != 0
  let s := (s.wr (CLV_HNE 0) n0).wr (CLV_HNE 1) n1
  if rose then s.raise CLV_INT 1#32 else s

theorem cloveHost_quiet {s : State} (h : ∀ v ∈ s.clove.queue, v.cls ≠ 3) : s.cloveHost = hostShown s := by
  have hnone : s.bgNext = none := by
    refine List.find?_eq_none.2 fun v hv => ?_
    simp [h v hv]
  have hadmit : ∀ k, State.bgAdmitHost k s = s := fun k => by
    cases k with
    | zero => rfl
    | succ k => rw [State.bgAdmitHost, hnone]
  have hwaits : s.bgWaits = s := by rw [State.bgWaits, hnone]
  rw [State.cloveHost, hadmit, hwaits]
  rfl

/-- Registers alone change, none outside Clove's block. -/
theorem hostShown_alone (s : State) : RegsAlone (fun a => a < 0x50030000 ∨ 0x50040000 ≤ a) s (hostShown s) := by
  unfold hostShown
  dsimp only
  have hbits := ((RegsAlone.refl (p := fun a => a < 0x50030000 ∨ 0x50040000 ≤ a) s).wr (r := CLV_HNE 0) (by decide)
    (s.hneBits 0)).wr (r := CLV_HNE 1) (by decide) (s.hneBits 1)
  exact .ite (hbits.raise (by decide) _) hbits

/-! A ready event goes to the line (R323). -/

section Forward

variable {s : State} {n : Nat} {v : Ev} (hqueue : s.clove.queue = [v]) (hflow : v.flow = 2360 + n) (hcls : v.cls = 0)
  (hsrc : v.srcFlow = none)

include hqueue hflow

theorem head_alone : s.head? (2360 + n) = some v := by
  rw [State.head?, hqueue]
  simp [hflow]

include hcls

omit hqueue in
theorem ready_alone : s.ready v = true := by
  have hdue : s.due v = true := by simp [State.due, hcls]
  have hadmits : s.admits v = true := by simp [State.admits, hcls]
  have hbase : s.readyBase v = true := by
    rw [State.readyBase, hdue, if_neg (by omega), if_neg (by omega)]
    rfl
  rw [State.ready, hbase, hadmits]
  rfl

theorem hostHead_alone : s.hostHead (2360 + n) = some v := by
  rw [State.hostHead, head_alone hqueue hflow]
  exact if_pos (ready_alone hflow hcls)

include hsrc

omit hcls in
theorem popStale_alone (k : Nat) : State.popStale k s (2360 + n) = s := by
  cases k with
  | zero => rfl
  | succ k =>
    have hfresh : s.stale v = false := by rw [State.stale, hsrc]
    rw [State.popStale, head_alone hqueue hflow]
    exact if_neg (by simp [hfresh])

end Forward

/-- The event gone from Clove. -/
def eventTaken (s : State) (v : Ev) : State := ((s.unqueue v).consumed v).cloveHost

theorem eventTaken_queue {s : State} {v : Ev} (h : s.clove.queue = [v]) : (eventTaken s v).clove.queue = [] := by
  have hgone : ((s.unqueue v).consumed v).clove.queue = [] := by
    have hempty : (s.unqueue v).clove.queue = [] := by
      show s.clove.queue.filter (fun u => u.no != v.no) = []
      rw [h]
      simp
    unfold State.consumed
    split
    · exact hempty
    · exact hempty
  unfold eventTaken
  generalize (s.unqueue v).consumed v = t at *
  rw [cloveHost_quiet (by rw [hgone]; simp)]
  exact (congrArg (fun x : State => x.clove.queue) (hostShown_alone t).only).trans hgone

theorem eventTaken_alone (s : State) (v : Ev) : CloveAlone s (eventTaken s v) := by
  have hconsumed : CloveAlone s ((s.unqueue v).consumed v) := by
    unfold State.consumed
    split <;> rfl
  exact hconsumed.trans (.cloveHost _)

/-- The frame of a forwarded event. -/
def eventFrame (v : Ev) : DngOut := { kind := .event, seq := 0, cnt := 1, payload := wordBytes (evWords v 0) }

theorem dngForward_eq {s : State} {n : Nat} {v : Ev} (hfwd : s.forwarded (2360 + n) = true)
    (hqueue : s.cloveHost.clove.queue = [v]) (hflow : v.flow = 2360 + n) (hcls : v.cls = 0) (hsrc : v.srcFlow = none) :
    s.dngForward n = (eventTaken s.cloveHost v).dngSend n (eventFrame v) := by
  rw [State.dngForward, if_pos hfwd]
  dsimp only
  generalize s.cloveHost = t at *
  rw [popStale_alone hqueue hflow hsrc, hostHead_alone hqueue hflow hcls]
  rfl

/-- The line does not see Clove. -/
theorem linkNow_cloveAlone {s u : State} (h : CloveAlone s u) (n : Nat) : u.linkNow n = s.linkNow n := by
  have hdng : u.dng = s.dng := (congrArg State.dng h :)
  have hnow : u.now = s.now := (congrArg State.now h :)
  have hstc : u.stcAt = s.stcAt := by
    rw [h]
    rfl
  exact linkNow_congr (link_congr hdng n) hnow hstc

/-- A frame that is sent leaves Clove. -/
theorem clove_dngSend (s : State) (n : Nat) (f : DngOut) : (s.dngSend n f).clove = s.clove := by
  unfold State.dngSend
  split
  · rfl
  · rfl

theorem dongoSends_forward (s : State) (n : Fin 4) (v : Ev) (hfwd : s.forwarded (2360 + n) = true)
    (hqueue : s.clove.queue = [v]) (hflow : v.flow = 2360 + n.val) (hcls : v.cls = 0) (hsrc : v.srcFlow = none) :
    Gives (.dongoEventForward n) s fun u =>
    u.clove.queue = [] ∧ (u.link n).queue = (s.linkNow n).queue ++
      [{ kind := .event, seq := 0, cnt := 1, payload := wordBytes (evWords v 0), at_ := s.now }] ∧ u.mem = s.mem := by
  refine (gives_iff_of_done (t := s.dngForward n) rfl).2 ?_
  have hhost : s.cloveHost = hostShown s := cloveHost_quiet (by rw [hqueue]; simp [hcls])
  have hshown := CloveAlone.cloveHost s
  have hkept : s.cloveHost.clove.queue = [v] := by
    rw [hhost]
    exact (congrArg (fun x : State => x.clove.queue) (hostShown_alone s).only).trans hqueue
  rw [dngForward_eq hfwd hkept hflow hcls hsrc]
  generalize s.cloveHost = t at *
  have hempty := eventTaken_queue hkept
  have halone := hshown.trans (eventTaken_alone t v)
  generalize eventTaken t v = e at *
  have hsent := (queued_dngSend (f := eventFrame v) rfl e n).settle
  have hnow : e.now = s.now := (congrArg State.now halone :)
  have hmem : e.mem = s.mem := (congrArg State.mem halone :)
  refine ⟨?_, ?_, hsent.mem.trans hmem⟩
  · rw [State.settle_clove, clove_dngSend, hempty]
  · rw [hsent.queue, linkNow_cloveAlone halone, hnow]
    rfl

/-- Settles O46: the order and the start of frames (`dongoSends_pick`, `dongoSends_start`, `dongoSends_again`), and for each
timer what it sends (`Queued`). -/
theorem dongoTimersAndSends : Obligations.DongoTimersAndSends := by
  unfold Obligations.DongoTimersAndSends
  exact ⟨dongoSends_pick, dongoSends_start, dongoSends_again, fun s n => ⟨dongoSends_retrain s n, dongoSends_idle s n,
    dongoSends_train s n, dongoSends_ack s n, dongoSends_time s n, dongoSends_delay_training s n, dongoSends_delay_up s n,
    dongoSends_forward s n⟩⟩

end Sys2Proof

namespace Sys2Proof

open Sys2Proof.Machine

/-! A frame on the line reads back (R314). -/

theorem ofLeBytes_append (l m : List Byte) : ofLeBytes (l ++ m) = ofLeBytes l + 256 ^ l.length * ofLeBytes m := by
  induction l with
  | nil => simp [ofLeBytes]
  | cons b l ih =>
    rw [List.cons_append, ofLeBytes, ih, ofLeBytes, List.length_cons, pow_succ]
    ring

theorem length_leBytes (n v : Nat) : (leBytes n v).length = n := by simp [leBytes, upTo]

theorem leBytes_succ (n v : Nat) : leBytes (n + 1) v = leBytes n v ++ [BitVec.ofNat 8 (v / 256 ^ n)] := by
  simp [leBytes, upTo, List.range_succ]

theorem ofLeBytes_leBytes (n v : Nat) : ofLeBytes (leBytes n v) = v % 256 ^ n := by
  induction n with
  | zero => simp [leBytes, upTo, ofLeBytes, Nat.mod_one]
  | succ n ih =>
    have hlast : ofLeBytes [BitVec.ofNat 8 (v / 256 ^ n)] = v / 256 ^ n % 256 := by
      simp [ofLeBytes, BitVec.toNat_ofNat]
    rw [leBytes_succ, ofLeBytes_append, ih, hlast, length_leBytes, pow_succ, Nat.mod_mul]

theorem codeKind_kindCode (k : DngKind) : codeKind (kindCode k) = k := by cases k <;> rfl

theorem kindCode_le (k : DngKind) : kindCode k ≤ 8 := by cases k <;> decide

/-- The fields of a header. -/
theorem dngHeader_fields {f : DngOut} (hseq : f.seq < 4096) (hchan : f.chan < 256) (hcnt : f.cnt < 256) :
    dngHeader f < 256 ^ 8 ∧ dngHeader f / 2 ^ 60 = kindCode f.kind ∧ dngHeader f / 2 ^ 48 % 2 ^ 12 = f.seq ∧
    dngHeader f / 2 ^ 16 % 2 ^ 32 = f.block.toNat ∧ dngHeader f / 2 ^ 8 % 2 ^ 8 = f.chan ∧ dngHeader f % 2 ^ 8 = f.cnt := by
  have hkind := kindCode_le f.kind
  have hblock := f.block.isLt
  unfold dngHeader
  rw [Nat.mod_eq_of_lt hseq, Nat.mod_eq_of_lt hchan, Nat.mod_eq_of_lt hcnt]
  generalize kindCode f.kind = k at *
  generalize f.block.toNat = b at *
  omega

/-- Bytes in front of a CRC-32, and the CRC-32. -/
theorem wire_split (bs : List Byte) (c : Nat) : (bs ++ leBytes 4 c).length - 4 = bs.length ∧
    (bs ++ leBytes 4 c).take bs.length = bs ∧ (bs ++ leBytes 4 c).drop bs.length = leBytes 4 c := by
  rw [List.length_append, length_leBytes]
  exact ⟨by omega, List.take_left' rfl, List.drop_left' rfl⟩

theorem dngParse_dngWire (f : DngOut) (hkind : f.kind ≠ .other) (hseq : f.seq < 4096) (hchan : f.chan < 256)
    (hcnt : f.cnt < 256) : dngParse (dngWire f) =
    some ⟨f.kind, BitVec.ofNat 12 f.seq, f.block, BitVec.ofNat 8 f.chan, BitVec.ofNat 8 f.cnt, f.payload⟩ := by
  obtain ⟨hlt, hk, hs, hb, hc, hn⟩ := dngHeader_fields hseq hchan hcnt
  have hlen : (leBytes 8 (dngHeader f)).length = 8 := length_leBytes 8 _
  have hhead : ofLeBytes ((leBytes 8 (dngHeader f) ++ f.payload ++ leBytes 4 (crc32 (leBytes 8 (dngHeader f) ++ f.payload)).toNat).take 8)
      = dngHeader f := by
    rw [List.append_assoc, List.take_left' hlen, ofLeBytes_leBytes, Nat.mod_eq_of_lt hlt]
  have hbody : (leBytes 8 (dngHeader f) ++ f.payload).drop 8 = f.payload := List.drop_left' hlen
  have htotal : (leBytes 8 (dngHeader f) ++ f.payload).length = 8 + f.payload.length := by rw [List.length_append, hlen]
  unfold dngParse dngWire
  dsimp only
  rw [hhead]
  generalize leBytes 8 (dngHeader f) ++ f.payload = bs at *
  obtain ⟨hfront, htake, hdrop⟩ := wire_split bs (crc32 bs).toNat
  rw [hfront, htake, hdrop, ofLeBytes_leBytes, hk, codeKind_kindCode, Nat.mod_eq_of_lt (by have := (crc32 bs).isLt; omega), hbody]
  have hgood : ¬ (decide ((bs ++ leBytes 4 (crc32 bs).toNat).length < 12) || (crc32 bs).toNat != (crc32 bs).toNat ||
      f.kind == DngKind.other) = true := by
    have hother : (f.kind == DngKind.other) = false := by simpa using hkind
    rw [hother, List.length_append, length_leBytes, htotal]
    simp
  rw [if_neg hgood]
  have hfields : BitVec.ofNat 12 (dngHeader f / 2 ^ 48) = BitVec.ofNat 12 f.seq ∧
      BitVec.ofNat 32 (dngHeader f / 2 ^ 16) = f.block ∧ BitVec.ofNat 8 (dngHeader f / 2 ^ 8) = BitVec.ofNat 8 f.chan ∧
      BitVec.ofNat 8 (dngHeader f) = BitVec.ofNat 8 f.cnt := by
    refine ⟨?_, ?_, ?_, ?_⟩ <;> apply BitVec.eq_of_toNat_eq <;> simp only [BitVec.toNat_ofNat] <;> omega
  obtain ⟨h1, h2, h3, h4⟩ := hfields
  rw [h1, h2, h3, h4]

end Sys2Proof

namespace Sys2Proof

open Sys2Proof.Machine

/-! A link's receiver: what it expects next, a HELLO, and its answers (R314, R315, R316, R321). -/

/-- The line changes nothing of a link that no start of a frame does. -/
theorem run_kept {α : Type} (g : Dng → α) (h : ∀ (l : Dng) (f : DngOut) (t c : Nat), g (l.start f t c) = g l)
    (stcAt : Nat → Nat) (now n : Nat) (l : Dng) : g (Dng.run stcAt now n l) = g l := by
  induction n generalizing l with
  | zero => rfl
  | succ n ih =>
    unfold Dng.run
    split
    · split
      · split
        · rw [ih, h]
        · rfl
      · rfl
    · rfl

/-- The receiving side of a link. -/
structure SameEar (l m : Dng) : Prop where
  rxSeq : m.rxSeq = l.rxSeq
  ackDue : m.ackDue = l.ackDue
  casc : m.casc = l.casc
  rx : m.rx = l.rx
  phase : m.phase = l.phase
  qual : m.qual = l.qual
  own : m.own = l.own

theorem SameEar.refl (l : Dng) : SameEar l l := ⟨rfl, rfl, rfl, rfl, rfl, rfl, rfl⟩

theorem SameEar.trans {l m k : Dng} (h : SameEar l m) (j : SameEar m k) : SameEar l k :=
  ⟨j.rxSeq.trans h.rxSeq, j.ackDue.trans h.ackDue, j.casc.trans h.casc, j.rx.trans h.rx, j.phase.trans h.phase,
    j.qual.trans h.qual, j.own.trans h.own⟩

theorem sameEar_start (l : Dng) (f : DngOut) (t c : Nat) : SameEar l (l.start f t c) := by
  unfold Dng.start
  split
  · exact ⟨rfl, rfl, rfl, rfl, rfl, rfl, rfl⟩
  · dsimp only
    split
    · exact ⟨rfl, rfl, rfl, rfl, rfl, rfl, rfl⟩
    · exact ⟨rfl, rfl, rfl, rfl, rfl, rfl, rfl⟩

theorem sameEar_linkNow (s : State) (n : Nat) : SameEar (s.link n) (s.linkNow n) := by
  have hear := fun l f t c => sameEar_start l f t c
  unfold State.linkNow
  exact ⟨run_kept Dng.rxSeq (fun l f t c => (hear l f t c).rxSeq) _ _ _ _,
    run_kept Dng.ackDue (fun l f t c => (hear l f t c).ackDue) _ _ _ _,
    run_kept Dng.casc (fun l f t c => (hear l f t c).casc) _ _ _ _,
    run_kept Dng.rx (fun l f t c => (hear l f t c).rx) _ _ _ _,
    run_kept Dng.phase (fun l f t c => (hear l f t c).phase) _ _ _ _,
    run_kept Dng.qual (fun l f t c => (hear l f t c).qual) _ _ _ _,
    run_kept Dng.own (fun l f t c => (hear l f t c).own) _ _ _ _⟩

/-- The NAK that names the next frame expected. -/
def nakFrame (s : State) (n : Nat) : DngOut := { kind := .nak, seq := 0, payload := seqBytes (s.link n).rxSeq }

theorem queued_dngNak (s : State) (n : Nat) :
    Queued s (s.dngNak n) n (s.linkNow n) (DngOut.fresh (nakFrame s n) s.now) :=
  queued_dngSend (f := nakFrame s n) rfl s n

theorem dngReceive_off {s : State} {n : Nat} (h : s.dngState n = 0) (bs : List Byte) : s.dngReceive n bs = s := if_pos h

theorem dongoReceives_off (s : State) (n : Fin 4) (bs : List Byte) (h : s.dngState n = 0) :
    Gives (.dongoFrameReceive n bs) s fun u => OnlyRegs s u [] := by
  refine (gives_iff_of_done (t := s.dngReceive n bs) rfl).2 ?_
  rw [dngReceive_off h]
  exact OnlyRegs.settle s

theorem dngReceive_bad {s : State} {n : Nat} (h : s.dngState n = 2) {bs : List Byte} (hparse : dngParse bs = none) :
    s.dngReceive n bs = (s.count (DNG_L_CRC_CNT n)).dngNak n := by
  have hstat : (s.count (DNG_L_CRC_CNT n)).dngState n = 2 :=
    (dngState_congr (State.rd_count_other s (by simp only [DNG_L_STAT, DNG_L_CRC_CNT]; omega))).trans h
  rw [State.dngReceive, if_neg (by rw [h]; decide), hparse]
  exact if_pos hstat

theorem dongoReceives_bad (s : State) (n : Fin 4) (bs : List Byte) (h : s.dngState n = 2) (hparse : dngParse bs = none) :
    Gives (.dongoFrameReceive n bs) s fun u =>
    u.rdF (DNG_L_CRC_CNT n) 31 0 = min (s.rdF (DNG_L_CRC_CNT n) 31 0 + 1) (2 ^ 32 - 1) ∧
    (u.link n).queue = (s.linkNow n).queue ++ [{ kind := .nak, seq := 0, payload := leBytes 2 (s.link n).rxSeq, at_ := s.now }] ∧
    (u.link n).rxSeq = (s.link n).rxSeq ∧ u.mem = s.mem ∧ u.clove = s.clove := by
  refine (gives_iff_of_done (t := s.dngReceive n bs) rfl).2 ?_
  rw [dngReceive_bad h hparse]
  have hcount := rdF_count_same s (DNG_L_CRC_CNT n)
  have hnow : (s.count (DNG_L_CRC_CNT n)).linkNow n = s.linkNow n := linkNow_congr rfl rfl rfl
  have hsame : (s.count (DNG_L_CRC_CNT n)).link n = s.link n ∧ (s.count (DNG_L_CRC_CNT n)).now = s.now ∧
      (s.count (DNG_L_CRC_CNT n)).mem = s.mem ∧ (s.count (DNG_L_CRC_CNT n)).clove = s.clove := ⟨rfl, rfl, rfl, rfl⟩
  generalize s.count (DNG_L_CRC_CNT n) = t at *
  obtain ⟨hlink, htime, hmem, hclove⟩ := hsame
  have hsent := (queued_dngNak t n).settle
  have hear := sameEar_linkNow t n
  refine ⟨?_, ?_, ?_, hsent.mem.trans hmem, ?_⟩
  · exact (congrArg (bits · 31 0) (hsent.retries.1 _ (by simp only [DNG_L_CRC_CNT, DNG_L_RETRY_CNT]; omega))).trans hcount
  · rw [hsent.queue, hnow, htime, nakFrame, hlink]
    rfl
  · rw [hsent.link, ← hlink, ← hear.rxSeq]
    rfl
  · rw [State.settle_clove, State.dngNak, clove_dngSend, hclove]

theorem dngReceive_hello {s : State} {n : Nat} (h : s.dngState n ≠ 0) {bs : List Byte} {f : DngFrame}
    (hparse : dngParse bs = some f) (hkind : f.kind = .hello) : s.dngReceive n bs = s.dngHelloIn n f := by
  rw [State.dngReceive, if_neg h, hparse]
  exact if_pos (by rw [hkind]; rfl)

/-- The link in UP, with its delay. -/
def linkMet (s : State) (n : Nat) : State := (s.setDngState n 2).setDelay n (s.now - (s.link n).helloAt)

/-- A HELLO has been exchanged. -/
def met (l : Dng) : Dng := { l with hello := true }

theorem dongoReceives_echo_training (s : State) (n : Fin 4) (bs : List Byte) (f : DngFrame) (hparse : dngParse bs = some f)
    (h : s.dngState n = 1) (hkind : f.kind = .hello) (hecho : f.payload.headD 0 ≠ 0) :
    Gives (.dongoFrameReceive n bs) s fun u =>
    u.dngState n = 2 ∧ u.rdB DNG_STAT n = true ∧ u.rdB (DNG_L_INT n) 0 = true ∧ (u.link n).hello = true ∧
    u.rd (DNG_L_DELAY n) = BitVec.ofNat 32 (min ((s.now - (s.link n).helloAt) / 2) 65535) ∧ u.mem = s.mem := by
  refine (gives_iff_of_done (t := s.dngReceive n bs) rfl).2 ?_
  have hin : s.dngHelloIn n f = (linkMet s n).updLink n met := by
    rw [State.dngHelloIn, if_neg hecho, if_pos h]
    rfl
  rw [dngReceive_hello (by rw [h]; decide) hparse hkind, hin]
  have hstate := dngState_setDngState (s := s) (n := n) (v := 2) (by omega)
  have hflag := setDngState_flag (s := s) (n := n) (v := 2) (by rw [h]; decide)
  have hup : (s.setDngState n 2).rdB DNG_STAT n = true := by
    have hn := n.isLt
    rw [State.setDngState, if_neg (by rw [h]; decide), State.rdB, State.rd_raise_other _ _ (by simp only [DNG_STAT, DNG_L_INT]; omega),
      State.rd_wrB_same, bit_setBit_same _ (by omega)]
    rfl
  have hmem : (s.setDngState n 2).mem = s.mem := by
    rw [State.setDngState, if_neg (by rw [h]; decide)]
    rfl
  unfold linkMet
  generalize s.setDngState n 2 = t at *
  have hkeep : ∀ r : Reg, r.addr ≠ (DNG_L_DELAY n).addr →
      ((t.setDelay n (s.now - (s.link n).helloAt)).updLink n met).settle.rd r = t.rd r := fun r hr =>
    State.rd_wr_other t _ hr
  refine ⟨(dngState_congr (hkeep _ ?_)).trans hstate, (congrArg (bit · n) (hkeep _ ?_)).trans hup,
    (congrArg (bit · 0) (hkeep _ ?_)).trans hflag, ?_, State.rd_wr_same t _ _, hmem⟩
  · simp only [DNG_L_STAT, DNG_L_DELAY]
    omega
  · simp only [DNG_STAT, DNG_L_DELAY]
    omega
  · simp only [DNG_L_INT, DNG_L_DELAY]
    omega
  · rw [link_congr (State.settle_dng _), link_updLink_same]
    rfl

theorem dongoReceives_echo_up (s : State) (n : Fin 4) (bs : List Byte) (f : DngFrame) (hparse : dngParse bs = some f)
    (h : s.dngState n = 2) (hkind : f.kind = .hello) (hecho : f.payload.headD 0 ≠ 0) :
    Gives (.dongoFrameReceive n bs) s fun u =>
    u.rd (DNG_L_DELAY n) = BitVec.ofNat 32 (min ((s.now - (s.link n).helloAt) / 2) 65535) ∧
    OnlyRegs s u [DNG_L_DELAY n] := by
  refine (gives_iff_of_done (t := s.dngReceive n bs) rfl).2 ?_
  rw [dngReceive_hello (by rw [h]; decide) hparse hkind, State.dngHelloIn, if_neg hecho, if_neg (by rw [h]; decide)]
  exact ⟨State.rd_wr_same s _ _, (OnlyRegs.wr s _ _).trans (.settle _)⟩

theorem dongoReceives_hello (s : State) (n : Fin 4) (bs : List Byte) (f : DngFrame) (hparse : dngParse bs = some f)
    (h : s.dngState n ≠ 0) (hkind : f.kind = .hello) (hask : f.payload.headD 0 = 0) :
    Gives (.dongoFrameReceive n bs) s fun u =>
    (u.link n).queue = (s.linkNow n).queue ++ [{ kind := .hello, seq := 0, payload := [1], at_ := s.now }] ∧
    OnlyRetries s u n ∧ u.mem = s.mem := by
  refine (gives_iff_of_done (t := s.dngReceive n bs) rfl).2 ?_
  have hanswer : s.dngHelloIn n f = s.dngSend n { kind := .hello, seq := 0, payload := [1] } := if_pos hask
  rw [dngReceive_hello h hparse hkind, hanswer]
  have hsent := (queued_dngSend (f := { kind := .hello, seq := 0, payload := [1] }) rfl s n).settle
  exact ⟨hsent.queue, hsent.retries, hsent.mem⟩

/-! Frames with a sequence number, and acknowledgements (R315). -/

/-- The kinds that take a number, as the receiver meets them. -/
def Numbered (f : DngFrame) : Prop := f.kind = .audio ∨ f.kind = .casc ∨ f.kind = .time ∨ f.kind = .event ∨ f.kind = .mirror

theorem dngReceive_numbered {s : State} {n : Nat} (h : s.dngState n = 2) {bs : List Byte} {f : DngFrame}
    (hparse : dngParse bs = some f) (hkind : Numbered f) : s.dngReceive n bs =
      if f.seq.toNat = (s.link n).rxSeq then
        (s.setLink n (expects (((s.link n).rxSeq + 1) % 4096) (s.link n))).dngAct n f
      else s.dngNak n := by
  rw [State.dngReceive, if_neg (by rw [h]; decide), hparse]
  dsimp only
  unfold Numbered at hkind
  rw [if_neg (by rcases hkind with e | e | e | e | e <;> rw [e] <;> decide), if_neg (by rw [h]; decide)]
  rcases hkind with e | e | e | e | e <;> rw [e] <;> rfl

theorem dongoReceives_gap (s : State) (n : Fin 4) (bs : List Byte) (f : DngFrame) (hparse : dngParse bs = some f)
    (h : s.dngState n = 2) (hkind : Numbered f) (hseq : f.seq.toNat ≠ (s.link n).rxSeq) :
    Gives (.dongoFrameReceive n bs) s fun u =>
    (u.link n).rxSeq = (s.link n).rxSeq ∧
    (u.link n).queue = (s.linkNow n).queue ++ [{ kind := .nak, seq := 0, payload := leBytes 2 (s.link n).rxSeq, at_ := s.now }] ∧
    OnlyRetries s u n ∧ u.mem = s.mem := by
  refine (gives_iff_of_done (t := s.dngReceive n bs) rfl).2 ?_
  rw [dngReceive_numbered h hparse hkind, if_neg hseq]
  have hsent := (queued_dngNak s n).settle
  refine ⟨?_, hsent.queue, hsent.retries, hsent.mem⟩
  rw [hsent.link, ← (sameEar_linkNow s n).rxSeq]
  rfl

end Sys2Proof

namespace Sys2Proof

open Sys2Proof.Machine

/-! Acknowledgements (R315). -/

/-- A link whose frames before a number are acknowledged: the first `k` of those kept leave. -/
def dropAcked (k c : Nat) (l : Dng) : Dng :=
  { l with replay := l.replay.drop k, again := l.again.filter (fun g => (l.replay.drop k).any (fun x => x.seq = g.seq)),
           lineFree := max l.lineFree (63 * c) }

/-- A frame to be sent once more. -/
def DngOut.onceMore (c : Nat) (x : DngOut) : DngOut := { x with resent := x.resent + 1, at_ := c }

theorem now_lineRun (s : State) (n : Nat) : (s.lineRun n).now = s.now := rfl

theorem dngAcked_some {s : State} {n q : Nat} {g : DngOut} {rest : List DngOut} (h : (s.linkNow n).replay = g :: rest)
    (hk : (q + 4096 - g.seq) % 4096 ≤ rest.length + 1) :
    s.dngAcked n q = (s.lineRun n).setLink n (dropAcked ((q + 4096 - g.seq) % 4096) s.now (s.linkNow n)) := by
  unfold State.dngAcked State.updLink
  rw [link_lineRun]
  congr 1
  dsimp only
  split
  · next hnil =>
    rw [h] at hnil
    cases hnil
  · next first later hcons =>
    rw [h] at hcons
    obtain ⟨rfl, rfl⟩ := List.cons.inj hcons
    exact if_pos (by rw [h]; exact hk)

section Acks

variable {s : State} {n : Nat} {bs : List Byte} {f : DngFrame} {g : DngOut} {rest : List DngOut}

theorem dngReceive_ack (hparse : dngParse bs = some f) (h : s.dngState n = 2) (hkind : f.kind = .ack) :
    s.dngReceive n bs = s.dngAcked n (ofLeBytes (f.payload.take 2) % 4096) := by
  rw [State.dngReceive, if_neg (by rw [h]; decide), hparse]
  dsimp only
  rw [if_neg (by rw [hkind]; decide), if_neg (by rw [h]; decide), hkind]

theorem dngReceive_nak (hparse : dngParse bs = some f) (h : s.dngState n = 2) (hkind : f.kind = .nak) :
    s.dngReceive n bs = s.dngNaked n (ofLeBytes (f.payload.take 2) % 4096) := by
  rw [State.dngReceive, if_neg (by rw [h]; decide), hparse]
  dsimp only
  rw [if_neg (by rw [hkind]; decide), if_neg (by rw [h]; decide), hkind]

end Acks

/-- What an acknowledgement leaves. -/
structure Acked (s t : State) (n k : Nat) : Prop where
  link : t.link n = dropAcked k s.now (s.linkNow n)
  retries : OnlyRetries s t n
  mem : t.mem = s.mem
  now : t.now = s.now

theorem acked_spec (s : State) (n k : Nat) :
    Acked s ((s.lineRun n).setLink n (dropAcked k s.now (s.linkNow n))) n k := by
  have hretries := lineRun_retries s n
  have hnow := now_lineRun s n
  have hmem : (s.lineRun n).mem = s.mem := rfl
  generalize s.lineRun n = t at *
  exact ⟨link_setLink_same t n _, ⟨hretries.1, hretries.2⟩, hmem, hnow⟩

theorem dongoReceives_ack (s : State) (n : Fin 4) (bs : List Byte) (f : DngFrame) (hparse : dngParse bs = some f)
    (g : DngOut) (rest : List DngOut) (h : s.dngState n = 2) (hreplay : (s.linkNow n).replay = g :: rest)
    (hk : (ofLeBytes (f.payload.take 2) % 4096 + 4096 - g.seq) % 4096 ≤ rest.length + 1) (hkind : f.kind = .ack) :
    Gives (.dongoFrameReceive n bs) s fun u =>
    (u.link n).replay = (g :: rest).drop ((ofLeBytes (f.payload.take 2) % 4096 + 4096 - g.seq) % 4096) ∧
    OnlyRetries s u n ∧ u.mem = s.mem := by
  refine (gives_iff_of_done (t := s.dngReceive n bs) rfl).2 ?_
  rw [dngReceive_ack hparse h hkind, dngAcked_some hreplay hk]
  generalize (ofLeBytes (f.payload.take 2) % 4096 + 4096 - g.seq) % 4096 = k
  have hacked := acked_spec s n k
  generalize (s.lineRun n).setLink n (dropAcked k s.now (s.linkNow n)) = t at *
  refine ⟨?_, ⟨hacked.retries.1, hacked.retries.2⟩, hacked.mem⟩
  rw [link_congr (State.settle_dng t), hacked.link, ← hreplay]
  rfl

/-- The state after a NAK whose frames are all sent again. -/
def sentAgain (t : State) (n : Nat) : State :=
  t.setLink n { t.link n with replay := (t.link n).replay.map (DngOut.onceMore t.now),
                              again := (t.link n).replay.map (DngOut.onceMore t.now) }

/-- Where none waits to be sent again, every frame kept is due once more. -/
theorem dngNaked_eq {s t : State} {n q : Nat} (ht : s.dngAcked n q = t) (hagain : (t.link n).again = []) :
    s.dngNaked n q =
      if (t.link n).replay.any (fun x => decide (t.rdF (DNG_L_CTRL n) 7 4 < x.resent + 1)) then t.dngRetrain n
      else sentAgain t n := by
  unfold State.dngNaked
  rw [ht]
  dsimp only
  rw [hagain]
  have hmap : (t.link n).replay.map (fun f => if ([] : List DngOut).any (fun g => decide (g.seq = f.seq)) then f
      else { f with resent := f.resent + 1, at_ := t.now }) = (t.link n).replay.map (DngOut.onceMore t.now) := rfl
  rw [hmap, List.any_map]
  rfl

section Naks

variable (s : State) (n : Fin 4) (bs : List Byte) (f : DngFrame) (hparse : dngParse bs = some f)
  (g : DngOut) (rest : List DngOut) (h : s.dngState n = 2) (hreplay : (s.linkNow n).replay = g :: rest)
  (hk : (ofLeBytes (f.payload.take 2) % 4096 + 4096 - g.seq) % 4096 ≤ rest.length + 1) (hkind : f.kind = .nak)
  (hagain : (s.linkNow n).again = [])

include hparse h hreplay hk hkind hagain

/-- A NAK meets the frames that its number leaves. -/
theorem dngReceive_naked : ∃ t, Acked s t n ((ofLeBytes (f.payload.take 2) % 4096 + 4096 - g.seq) % 4096) ∧
    s.dngReceive n bs =
      if ((g :: rest).drop ((ofLeBytes (f.payload.take 2) % 4096 + 4096 - g.seq) % 4096)).any
          (fun x => decide (s.rdF (DNG_L_CTRL n) 7 4 < x.resent + 1)) then t.dngRetrain n
      else sentAgain t n := by
  rw [dngReceive_nak hparse h hkind]
  have hsome := dngAcked_some hreplay hk
  generalize (ofLeBytes (f.payload.take 2) % 4096 + 4096 - g.seq) % 4096 = k at *
  have hacked := acked_spec s n k
  generalize (s.lineRun n).setLink n (dropAcked k s.now (s.linkNow n)) = t at *
  have hnone : (t.link n).again = [] := by rw [hacked.link, dropAcked, hagain]; rfl
  have hkept : (t.link n).replay = (g :: rest).drop k := by rw [hacked.link, ← hreplay]; rfl
  have hmost : t.rdF (DNG_L_CTRL n) 7 4 = s.rdF (DNG_L_CTRL n) 7 4 :=
    congrArg (bits · 7 4) (hacked.retries.1 _ (by simp only [DNG_L_CTRL, DNG_L_RETRY_CNT]; omega))
  refine ⟨t, hacked, ?_⟩
  rw [dngNaked_eq hsome hnone, hkept, hmost]

theorem dongoReceives_nak
    (hfew : ∀ x ∈ (g :: rest).drop ((ofLeBytes (f.payload.take 2) % 4096 + 4096 - g.seq) % 4096),
      x.resent < s.rdF (DNG_L_CTRL n) 7 4) : Gives (.dongoFrameReceive n bs) s fun u =>
    (u.link n).again = ((g :: rest).drop ((ofLeBytes (f.payload.take 2) % 4096 + 4096 - g.seq) % 4096)).map
      (fun x => { x with resent := x.resent + 1, at_ := s.now }) ∧
    (u.link n).replay = (u.link n).again ∧ u.dngState n = 2 ∧ OnlyRetries s u n ∧ u.mem = s.mem := by
  refine (gives_iff_of_done (t := s.dngReceive n bs) rfl).2 ?_
  obtain ⟨t, hacked, hreceive⟩ := dngReceive_naked s n bs f hparse g rest h hreplay hk hkind hagain
  generalize (ofLeBytes (f.payload.take 2) % 4096 + 4096 - g.seq) % 4096 = k at *
  have hnone : ¬ ((g :: rest).drop k).any (fun x => decide (s.rdF (DNG_L_CTRL n) 7 4 < x.resent + 1)) = true := by
    rw [List.any_eq_true]
    rintro ⟨x, hx, hmany⟩
    have hlow := hfew x hx
    have hhigh := of_decide_eq_true hmany
    omega
  rw [hreceive, if_neg hnone]
  have hkept : (t.link n).replay = (g :: rest).drop k := by rw [hacked.link, ← hreplay]; rfl
  have hlink : ((sentAgain t n).settle.link n) = { t.link n with
      replay := (t.link n).replay.map (DngOut.onceMore t.now), again := (t.link n).replay.map (DngOut.onceMore t.now) } :=
    link_setLink_same t n _
  have hstat : t.dngState n = 2 :=
    (dngState_congr (hacked.retries.1 _ (by simp only [DNG_L_STAT, DNG_L_RETRY_CNT]; omega))).trans h
  refine ⟨?_, ?_, hstat, ⟨hacked.retries.1, hacked.retries.2⟩, hacked.mem⟩
  · rw [hlink, hkept, hacked.now]
    rfl
  · rw [hlink]

theorem dongoReceives_nak_down
    (hmany : ∃ x ∈ (g :: rest).drop ((ofLeBytes (f.payload.take 2) % 4096 + 4096 - g.seq) % 4096),
      s.rdF (DNG_L_CTRL n) 7 4 ≤ x.resent) : Gives (.dongoFrameReceive n bs) s fun u =>
    u.dngState n = 1 ∧ (u.link n).replay = [] ∧ u.rdB (DNG_L_INT n) 0 = true ∧
    u.rdF (DNG_L_DOWN_CNT n) 31 0 = min (s.rdF (DNG_L_DOWN_CNT n) 31 0 + 1) (2 ^ 32 - 1) := by
  refine (gives_iff_of_done (t := s.dngReceive n bs) rfl).2 ?_
  obtain ⟨t, hacked, hreceive⟩ := dngReceive_naked s n bs f hparse g rest h hreplay hk hkind hagain
  generalize (ofLeBytes (f.payload.take 2) % 4096 + 4096 - g.seq) % 4096 = k at *
  obtain ⟨x, hx, hmost⟩ := hmany
  have hany : ((g :: rest).drop k).any (fun x => decide (s.rdF (DNG_L_CTRL n) 7 4 < x.resent + 1)) = true :=
    List.any_eq_true.2 ⟨x, hx, decide_eq_true (by omega)⟩
  have hstat : t.dngState n = 2 :=
    (dngState_congr (hacked.retries.1 _ (by simp only [DNG_L_STAT, DNG_L_RETRY_CNT]; omega))).trans h
  have hcount : t.rdF (DNG_L_DOWN_CNT n) 31 0 = s.rdF (DNG_L_DOWN_CNT n) 31 0 :=
    congrArg (bits · 31 0) (hacked.retries.1 _ (by simp only [DNG_L_DOWN_CNT, DNG_L_RETRY_CNT]; omega))
  rw [hreceive, if_pos hany]
  obtain ⟨hdown, -, hint, hlost, -, hreplay', -⟩ :=
    (gives_iff_of_done (t := t.dngRetrain n) rfl).1 (dongoSends_retrain t n hstat _ List.mem_cons_self)
  exact ⟨hdown, hreplay', hint, hlost.trans (by rw [hcount])⟩

end Naks

end Sys2Proof

namespace Sys2Proof

open Sys2Proof.Machine

/-! A frame in sequence takes its number (R315). -/

/-- The state in which a frame in sequence is acted on. -/
def numberTaken (s : State) (n : Nat) : State := s.setLink n (expects (((s.link n).rxSeq + 1) % 4096) (s.link n))

theorem link_numberTaken (s : State) (n : Nat) :
    (numberTaken s n).link n = expects (((s.link n).rxSeq + 1) % 4096) (s.link n) := link_setLink_same s n _

/-- What an action on a frame leaves of its number, and the link in its state. -/
structure NumberKept (s u : State) (n : Nat) : Prop where
  rxSeq : (u.link n).rxSeq = ((s.link n).rxSeq + 1) % 4096
  ackDue : (u.link n).ackDue = true
  state : u.dngState n = s.dngState n

theorem numberKept_of {s u : State} {n : Nat} (hlink : (u.link n).rxSeq = ((numberTaken s n).link n).rxSeq ∧
    (u.link n).ackDue = ((numberTaken s n).link n).ackDue) (hstat : u.rd (DNG_L_STAT n) = s.rd (DNG_L_STAT n)) :
    NumberKept s u n := by
  rw [link_numberTaken] at hlink
  exact ⟨hlink.1, hlink.2, dngState_congr hstat⟩

/-! AUDIO frames (R317 to R319). -/

/-- The channel of the words at a place of an AUDIO frame. -/
def audioChan (f : DngFrame) (i : Nat) : Nat := (f.chan.toNat + i) % 256

/-- Those words, of the peer's block. -/
def audioWords (B : Nat) (f : DngFrame) (i : Nat) : Nat × Nat × List Word :=
  (audioChan f i, f.block.toNat, ((bytesWords f.payload).drop (i * B)).take B)

/-- A link with a channel's words of a block more. -/
def withWords (x : Nat × Nat × List Word) (l : Dng) : Dng :=
  { l with rx := l.rx.filter (fun y => !(y.1 = x.1 && y.2.1 = x.2.1)) ++ [x] }

/-- A channel that is no cascade channel has its words. -/
def audioPut (B n : Nat) (f : DngFrame) (s : State) (i : Nat) : State :=
  if s.cascChan n (audioChan f i) then s else s.updLink n (withWords (audioWords B f i))

theorem dngAudio_aligned {s : State} {n : Nat} (h : s.linkAligned n = true) (f : DngFrame) :
    s.dngAudio n f = s.each (upTo f.cnt.toNat) (audioPut s.blk n f) := by
  unfold State.dngAudio
  rw [if_neg (by rw [h]; decide)]
  rfl

theorem dngAudio_apart {s : State} {n : Nat} (h : s.linkAligned n = false) (f : DngFrame) : s.dngAudio n f = s :=
  if_pos (by rw [h]; rfl)

/-- Nothing but the audio received on a link changes. -/
structure AudioOnly (n : Nat) (s u : State) : Prop where
  only : u = { s with dng := u.dng }
  link : ∃ r, u.link n = { s.link n with rx := r }

theorem AudioOnly.refl (n : Nat) (s : State) : AudioOnly n s s := ⟨rfl, (s.link n).rx, rfl⟩

theorem AudioOnly.trans {n : Nat} {s t u : State} (h : AudioOnly n s t) (k : AudioOnly n t u) : AudioOnly n s u := by
  obtain ⟨r, hr⟩ := k.link
  obtain ⟨q, hq⟩ := h.link
  refine ⟨k.only.trans (congrArg (fun x : State => { x with dng := u.dng }) h.only :), r, ?_⟩
  rw [hr, hq]

theorem audioOnly_put (B n : Nat) (f : DngFrame) (s : State) (i : Nat) : AudioOnly n s (audioPut B n f s i) := by
  unfold audioPut
  split
  · exact .refl n s
  · exact ⟨rfl, _, link_updLink_same s n _⟩

theorem audioOnly_each (B n : Nat) (f : DngFrame) (l : List Nat) (s : State) : AudioOnly n s (s.each l (audioPut B n f)) := by
  induction l generalizing s with
  | nil => exact .refl n s
  | cons i l ih => exact (audioOnly_put B n f s i).trans (ih _)

theorem cascChan_congr {s u : State} {n : Nat} (h : (u.link n).casc = (s.link n).casc) (c : Nat) :
    u.cascChan n c = s.cascChan n c := by
  unfold State.cascChan
  rw [h]

theorem AudioOnly.cascChan {n : Nat} {s u : State} (h : AudioOnly n s u) (c : Nat) : u.cascChan n c = s.cascChan n c := by
  obtain ⟨r, hr⟩ := h.link
  exact cascChan_congr (by rw [hr]) c

/-- Places in one frame have channels of their own. -/
theorem audioChan_inj {f : DngFrame} {i j : Nat} (hi : i < f.cnt.toNat) (hj : j < f.cnt.toNat)
    (h : audioChan f i = audioChan f j) : i = j := by
  have hcnt := f.cnt.isLt
  unfold audioChan at h
  omega

theorem audioPut_words (B n : Nat) (f : DngFrame) (s : State) : ∀ i ∈ upTo f.cnt.toNat,
    (s.each (upTo f.cnt.toNat) (audioPut B n f)).cascChan n (audioChan f i) = false →
      audioWords B f i ∈ ((s.each (upTo f.cnt.toNat) (audioPut B n f)).link n).rx := by
  refine each_forall (Q := fun i t => t.cascChan n (audioChan f i) = false → audioWords B f i ∈ (t.link n).rx)
    (fun t i _ h => ?_) (fun t i hi j hj hold h => ?_) s
  · rw [(audioOnly_put B n f t i).cascChan] at h
    rw [audioPut, if_neg (by rw [h]; decide), link_updLink_same]
    exact List.mem_append_right _ List.mem_cons_self
  · rw [(audioOnly_put B n f t i).cascChan] at h
    have hmem := hold h
    by_cases he : j = i
    · subst he
      rw [audioPut, if_neg (by rw [h]; decide), link_updLink_same]
      exact List.mem_append_right _ List.mem_cons_self
    · unfold audioPut
      split
      · exact hmem
      · rw [link_updLink_same]
        refine List.mem_append_left _ (List.mem_filter.2 ⟨hmem, ?_⟩)
        have hchan : audioChan f j ≠ audioChan f i := fun e =>
          he (audioChan_inj (List.mem_range.1 hj) (List.mem_range.1 hi) e)
        simp [audioWords, hchan]

theorem audio_taken (s : State) (n : Nat) (f : DngFrame) : NumberKept s ((numberTaken s n).dngAudio n f).settle n ∧
    AudioTaken s ((numberTaken s n).dngAudio n f).settle n f := by
  have hlink := link_numberTaken s n
  have halign : (numberTaken s n).linkAligned n = s.linkAligned n := rfl
  have hblk : (numberTaken s n).blk = s.blk := rfl
  have hcasc : ∀ c, (numberTaken s n).cascChan n c = s.cascChan n c := fun c => cascChan_congr (by rw [hlink]; rfl) c
  have hsame : (numberTaken s n).regs = s.regs ∧ (numberTaken s n).mem = s.mem ∧ (numberTaken s n).clove = s.clove :=
    ⟨rfl, rfl, rfl⟩
  have hnumber := fun u : State => numberKept_of (s := s) (u := u) (n := n)
  generalize numberTaken s n = t at *
  obtain ⟨hregs, hmem, hclove⟩ := hsame
  cases ha : s.linkAligned n with
  | false =>
    rw [dngAudio_apart (halign.trans ha)]
    refine ⟨hnumber t.settle ⟨rfl, rfl⟩ (State.rd_congr hregs _), hregs, hmem, hclove, fun _ => ?_, fun h => ?_⟩
    · rw [link_congr (State.settle_dng t), hlink]
      rfl
    · exact absurd (ha.symm.trans h) (by decide)
  | true =>
    rw [dngAudio_aligned (halign.trans ha), hblk]
    have honly := audioOnly_each s.blk n f (upTo f.cnt.toNat) t
    have hwords := audioPut_words s.blk n f t
    generalize t.each (upTo f.cnt.toNat) (audioPut s.blk n f) = u at *
    obtain ⟨r, hr⟩ := honly.link
    have huregs : u.regs = s.regs := (congrArg State.regs honly.only).trans hregs
    refine ⟨hnumber u.settle ?_ (State.rd_congr huregs _), huregs, (congrArg State.mem honly.only).trans hmem,
      (congrArg State.clove honly.only).trans hclove, fun h => absurd (ha.symm.trans h) (by decide), fun _ i hi hc => ?_⟩
    · rw [link_congr (State.settle_dng u), hr]
      exact ⟨rfl, rfl⟩
    · exact hwords i (List.mem_range.2 hi) ((honly.cascChan _).trans ((hcasc _).trans hc))

/-! EVENT frames (R323). -/

/-- Clove and registers alone change, and not the link's state. -/
structure EventMoved (n : Nat) (s u : State) : Prop where
  alone : CloveAlone s u
  stat : u.rd (DNG_L_STAT n) = s.rd (DNG_L_STAT n)

theorem EventMoved.trans {n : Nat} {s t u : State} (h : EventMoved n s t) (k : EventMoved n t u) : EventMoved n s u :=
  ⟨h.alone.trans k.alone, k.stat.trans h.stat⟩

/-- The flow that a record names. -/
def recordFlow (ws : List Word) : Nat := bits (ws.getD 7 0) 11 0

/-- The record is refused (R209, R323). -/
def recordShut (s : State) (ws : List Word) : Bool :=
  s.postBusy (bits (ws.getD 0 0) 15 14) (recordFlow ws) || decide (2048 ≤ recordFlow ws ∧ recordFlow ws < 2304) ||
    decide (2367 < recordFlow ws)

theorem recordShut_iff (s : State) (ws : List Word) : recordShut s ws = true ↔
    s.postBusy (bits (ws.getD 0 0) 15 14) (recordFlow ws) = true ∨ (2048 ≤ recordFlow ws ∧ recordFlow ws < 2304) ∨
      2367 < recordFlow ws := by
  simp only [recordShut, Bool.or_eq_true, decide_eq_true_eq, or_assoc]

/-- The event of a record. -/
def recordEvent (ws : List Word) : Ev :=
  { no := 0, type := bits (ws.getD 0 0) 23 16, cls := bits (ws.getD 0 0) 15 14, origin := bits (ws.getD 0 0) 13 12,
    flow := recordFlow ws, sec := ws.getD 1 0, ns := ws.getD 2 0, payload := ws.drop 3 }

theorem dngEvent_eq (s : State) (n : Nat) (ws : List Word) : s.dngEvent n ws =
    if recordShut s ws then s.count (DNG_L_EVDROP_CNT n) else s.acceptAs (recordEvent ws) := rfl

theorem eventMoved_dngEvent {n : Nat} (hn : n < 4) (s : State) (ws : List Word) : EventMoved n s (s.dngEvent n ws) := by
  rw [dngEvent_eq]
  split
  · exact ⟨rfl, State.rd_count_other s (by simp only [DNG_L_STAT, DNG_L_EVDROP_CNT]; omega)⟩
  · exact ⟨.acceptAs s _, clv_acceptAs s _ _ (.inr (by simp only [DNG_L_STAT]; omega))⟩

theorem eventMoved_each {n : Nat} (hn : n < 4) (g : Nat → List Word) (l : List Nat) (s : State) :
    EventMoved n s (s.each l (fun s i => s.dngEvent n (g i))) := by
  induction l generalizing s with
  | nil => exact ⟨.refl s, rfl⟩
  | cons i l ih => exact (eventMoved_dngEvent hn s (g i)).trans (ih _)

/-- The words of the record at a place of an EVENT frame. -/
def recordAt (f : DngFrame) (i : Nat) : List Word := ((bytesWords f.payload).drop (8 * i)).take 8

/-- The records of a frame, in order. -/
def eventsTaken (s : State) (n : Nat) (f : DngFrame) : State :=
  s.each (upTo f.cnt.toNat) (fun s i => s.dngEvent n (recordAt f i))

/-- The record of a frame of one. -/
theorem eventsTaken_one (s : State) (n : Nat) {f : DngFrame} (h : f.cnt = 1) :
    eventsTaken s n f = s.dngEvent n ((bytesWords f.payload).take 8) := by
  unfold eventsTaken
  rw [h]
  rfl

theorem dngEvent_taken {s : State} {n : Nat} (ws : List Word) (hani : s.rdB ANI_CTRL 0 = false) :
    (recordShut s ws = true → (s.dngEvent n ws).clove = s.clove ∧
      (s.dngEvent n ws).rdF (DNG_L_EVDROP_CNT n) 31 0 = min (s.rdF (DNG_L_EVDROP_CNT n) 31 0 + 1) (2 ^ 32 - 1)) ∧
    (recordShut s ws = false → (s.dngEvent n ws).clove.next = s.clove.next + 1 ∧
      ∃ b, { recordEvent ws with no := s.clove.next, admitted := b } ∈ (s.dngEvent n ws).clove.queue) := by
  rw [dngEvent_eq]
  refine ⟨fun h => ?_, fun h => ?_⟩
  · rw [if_pos h]
    exact ⟨rfl, rdF_count_same s _⟩
  · rw [if_neg (by rw [h]; decide)]
    exact ⟨acceptAs_next s _, acceptAs_mem rfl hani⟩

theorem event_taken (s : State) {n : Nat} (hn : n < 4) (f : DngFrame) :
    NumberKept s (eventsTaken (numberTaken s n) n f).settle n ∧ EventTaken s (eventsTaken (numberTaken s n) n f).settle n f := by
  have hshut : ∀ ws, recordShut (numberTaken s n) ws = recordShut s ws := fun _ => rfl
  have hsame : (numberTaken s n).regs = s.regs ∧ (numberTaken s n).mem = s.mem ∧ (numberTaken s n).clove = s.clove :=
    ⟨rfl, rfl, rfl⟩
  have hnumber := fun u : State => numberKept_of (s := s) (u := u) (n := n)
  generalize numberTaken s n = t at *
  obtain ⟨hregs, hmem, hclove⟩ := hsame
  have hmoved : EventMoved n t (eventsTaken t n f) := eventMoved_each hn (recordAt f) _ t
  have hone := eventsTaken_one t n (f := f)
  generalize eventsTaken t n f = u at *
  have hdng : u.dng = t.dng := (congrArg State.dng hmoved.alone :)
  have humem : u.mem = t.mem := (congrArg State.mem hmoved.alone :)
  refine ⟨hnumber u.settle ?_ (hmoved.stat.trans (State.rd_congr hregs _)), fun hcnt hani => ⟨humem.trans hmem, ?_⟩⟩
  · rw [link_congr (s := t) ((State.settle_dng u).trans hdng)]
    exact ⟨rfl, rfl⟩
  · obtain ⟨hdrop, hpost⟩ := dngEvent_taken (s := t) (n := n) ((bytesWords f.payload).take 8)
      ((congrArg (bit · 0) (State.rd_congr hregs ANI_CTRL)).trans hani)
    rw [← hone hcnt, hshut, hclove] at hdrop hpost
    refine ⟨fun h => ?_, fun h => ?_⟩
    · obtain ⟨hkept, hcount⟩ := hdrop ((recordShut_iff s _).2 h)
      have hbefore : t.rdF (DNG_L_EVDROP_CNT n) 31 0 = s.rdF (DNG_L_EVDROP_CNT n) 31 0 :=
        congrArg (bits · 31 0) (State.rd_congr hregs _)
      rw [hbefore] at hcount
      exact ⟨hkept, hcount⟩
    · have hs : recordShut s ((bytesWords f.payload).take 8) = false := by
        rw [← Bool.not_eq_true]
        exact fun hs => h ((recordShut_iff s _).1 hs)
      obtain ⟨hnext, b, hqueued⟩ := hpost hs
      exact ⟨hnext, _, hqueued, rfl, rfl, rfl, rfl, rfl, rfl, rfl, rfl, rfl⟩

end Sys2Proof

namespace Sys2Proof

open Sys2Proof.Machine

/-! A change of one bit of a link's status (R316, R317). -/

/-- Of what a link's status, memory, Clove and the receiver show, only one bit changes. -/
structure StatBit (i n : Nat) (w u : State) : Prop where
  field : ∀ hi lo, i < lo ∨ hi < i → u.rdF (DNG_L_STAT n) hi lo = w.rdF (DNG_L_STAT n) hi lo
  flag : ∀ j, j ≠ i → u.rdB (DNG_L_STAT n) j = w.rdB (DNG_L_STAT n) j
  mem : u.mem = w.mem
  clove : u.clove = w.clove
  rxSeq : (u.link n).rxSeq = (w.link n).rxSeq
  ackDue : (u.link n).ackDue = (w.link n).ackDue
  phase : (u.link n).phase = (w.link n).phase
  qual : (u.link n).qual = (w.link n).qual

theorem statBit_wrB (w : State) (n i : Nat) (b : Bool) : StatBit i n w (w.wrB (DNG_L_STAT n) i b) where
  field hi lo h := (congrArg (bits · hi lo) (State.rd_wrB_same w _ _ _)).trans (bits_setBit_outside _ h b)
  flag _ hj := rdB_wrB_bit w _ hj b
  mem := rfl
  clove := rfl
  rxSeq := rfl
  ackDue := rfl
  phase := rfl
  qual := rfl

/-- A link's own state is none of the registers, memory or Clove. -/
theorem updLink_rest (w : State) (n : Nat) (g : Dng → Dng) : (∀ r, (w.updLink n g).rd r = w.rd r) ∧
    (w.updLink n g).mem = w.mem ∧ (w.updLink n g).clove = w.clove := by
  have hregs : (w.updLink n g).regs = w.regs := rfl
  exact ⟨State.rd_congr hregs, rfl, rfl⟩

theorem rd_setAligned {w : State} {n : Nat} {b : Bool} (h : ¬ w.rdB (DNG_L_STAT n) 4 = b) :
    (w.setAligned n b).rd (DNG_L_STAT n) = setBit (w.rd (DNG_L_STAT n)) 4 b := by
  have hshown := rd_alignShown w n b
  rw [setAligned_eq, if_neg h]
  generalize alignShown w n b = v at *
  have hrun : (v.lineRun n).rd (DNG_L_STAT n) = v.rd (DNG_L_STAT n) :=
    rd_lineRun v (by simp only [DNG_L_STAT, DNG_L_RETRY_CNT]; omega)
  exact ((updLink_rest _ n _).1 _).trans (hrun.trans hshown)

/-- The change of alignment leaves the shown state's line, memory and Clove. -/
theorem alignShown_rest (w : State) (n : Nat) (b : Bool) : (alignShown w n b).link n = w.link n ∧
    (alignShown w n b).mem = w.mem ∧ (alignShown w n b).clove = w.clove := ⟨rfl, rfl, rfl⟩

theorem statBit_setAligned (w : State) (n : Nat) (b : Bool) : StatBit 4 n w (w.setAligned n b) := by
  by_cases h : w.rdB (DNG_L_STAT n) 4 = b
  · rw [setAligned_eq, if_pos h]
    exact ⟨fun _ _ _ => rfl, fun _ _ => rfl, rfl, rfl, rfl, rfl, rfl, rfl⟩
  · have hrd := rd_setAligned h
    obtain ⟨hlink, hmem, hclove⟩ := alignShown_rest w n b
    rw [setAligned_eq, if_neg h] at hrd ⊢
    generalize alignShown w n b = v at *
    have hear := sameEar_linkNow v n
    have hrun := link_lineRun v n
    have hrest : (v.lineRun n).mem = v.mem ∧ (v.lineRun n).clove = v.clove := ⟨rfl, rfl⟩
    generalize v.lineRun n = x at *
    rw [hlink] at hear
    have hnew : (x.updLink n (realigned b)).link n = realigned b (v.linkNow n) := by rw [link_updLink_same, hrun]
    refine ⟨fun hi lo ho => ?_, fun j hj => ?_, hrest.1.trans hmem, hrest.2.trans hclove, ?_, ?_, ?_, ?_⟩
    · rw [State.rdF, hrd, bits_setBit_outside _ ho]
      rfl
    · rw [State.rdB, hrd, bit_setBit_other _ hj]
      rfl
    · rw [hnew, ← hear.rxSeq]; rfl
    · rw [hnew, ← hear.ackDue]; rfl
    · rw [hnew, ← hear.phase]; rfl
    · rw [hnew, ← hear.qual]; rfl

theorem setAligned_flag (w : State) (n : Nat) (b : Bool) : (w.setAligned n b).rdB (DNG_L_STAT n) 4 = b := by
  by_cases h : w.rdB (DNG_L_STAT n) 4 = b
  · rwa [setAligned_eq, if_pos h]
  · rw [State.rdB, rd_setAligned h, bit_setBit_same _ (by omega)]

/-- No AUDIO or CASC frame. -/
def NoneTied (l : Dng) : Prop := ∀ g ∈ l.queue, g.kind ≠ .audio ∧ g.kind ≠ .casc

/-- A link no longer aligned sends none that waits. -/
theorem setAligned_lost {w : State} {n : Nat} (h : w.rdB (DNG_L_STAT n) 4 = true) : NoneTied ((w.setAligned n false).link n) := by
  rw [setAligned_eq, if_neg (by rw [h]; decide), link_updLink_same]
  intro g hg
  have htied := (List.mem_filter.1 hg).2
  constructor
  · intro e
    rw [e] at htied
    exact absurd htied (by decide)
  · intro e
    rw [e] at htied
    exact absurd htied (by decide)

/-! TIME frames (R317, R321). -/

/-- The quality byte of a TIME frame, and whether its device number is the link's own. -/
def timeQual (f : DngFrame) : Nat := byteAt f.payload 10
def timeClash (s : State) (f : DngFrame) : Bool := decide (timeQual f / 16 % 8 = s.rdF DNG_CTRL 2 0)

/-- Rate, block length and block number of a frame of a tick. -/
def timeNumbers (f : DngFrame) : Nat × Nat × Word :=
  (byteAt f.payload 11 % 4, byteAt f.payload 11 / 4 % 4, BitVec.ofNat 32 (ofLeBytes ((f.payload.drop 12).take 4)))

/-- Whether the numbers differ from the link's own in rate or block length, and in the block number. -/
def formatDiffers (o : Nat × Nat × Word) (f : DngFrame) : Bool := o.1 ≠ (timeNumbers f).1 || o.2.1 ≠ (timeNumbers f).2.1
def blockDiffers (o : Nat × Nat × Word) (f : DngFrame) : Bool := o.2.2 ≠ (timeNumbers f).2.2

/-- The peer's STC in the frame, and the phase point that it gives. -/
def timePeer (f : DngFrame) : Int := (ofLeBytes (f.payload.take 6) : Int) * 1000000000 + ofLeBytes ((f.payload.drop 6).take 4)
def timePhase (s : State) (n : Nat) (f : DngFrame) : Int :=
  timePeer f + (s.rdF (DNG_L_DELAY n) 15 0 + sbits (s.rd (DNG_L_DLYADJ n)) 15 0) - s.stcInt

/-- What the frame says of its sender's time, as registers show it. -/
def timeShown (s : State) (n : Nat) (f : DngFrame) : State :=
  ((s.wrF (DNG_L_STAT n) 31 24 (timeQual f)).wrF (DNG_L_STAT n) 18 16 (timeQual f / 16)).wrB (DNG_L_STAT n) 7 (timeClash s f)

/-- A link that has heard the time, and the numbers of its peer's tick. -/
def toldTime (p : Int) (q : Nat) (at_ : Int × Nat) (l : Dng) : Dng := { l with phase := p, qual := q % 16, time := some at_ }
def toldNumbers (x : Nat × Nat × Word) (l : Dng) : Dng := { l with peer := some x }

/-- The state with that. -/
def timeHeard (s : State) (n : Nat) (f : DngFrame) : State :=
  (timeShown s n f).updLink n (toldTime (timePhase s n f) (timeQual f) (timePeer f, s.now))

/-- The two differences shown. -/
def numbersShown (w : State) (n : Nat) (f : DngFrame) (o : Nat × Nat × Word) : State :=
  ((w.updLink n (toldNumbers (timeNumbers f))).wrB (DNG_L_STAT n) 5 (formatDiffers o f)).wrB (DNG_L_STAT n) 6 (blockDiffers o f)

/-- The alignment that the frame leads to. -/
def timeSettled (w : State) (n : Nat) (f : DngFrame) (clash : Prop) [Decidable clash] : State :=
  if byteAt f.payload 11 / 16 % 2 = 1 then
    match ((w.updLink n (toldNumbers (timeNumbers f))).link n).own with
    | none => (w.updLink n (toldNumbers (timeNumbers f))).setAligned n false
    | some o => (numbersShown w n f o).setAligned n (!formatDiffers o f && !blockDiffers o f && !decide clash)
  else if clash then w.setAligned n false else w

theorem dngTime_eq (s : State) (n : Nat) (f : DngFrame) :
    s.dngTime n f = timeSettled (timeHeard s n f) n f (timeQual f / 16 % 8 = s.rdF DNG_CTRL 2 0) := rfl

section Settled

variable {w : State} {n : Nat} {f : DngFrame} (clash : Prop) [Decidable clash]

theorem timeSettled_untold (htick : byteAt f.payload 11 / 16 % 2 = 1) (hown : (w.link n).own = none) :
    timeSettled w n f clash = (w.updLink n (toldNumbers (timeNumbers f))).setAligned n false := by
  have hkept : ((w.updLink n (toldNumbers (timeNumbers f))).link n).own = none := by
    rw [link_updLink_same]
    exact hown
  rw [timeSettled, if_pos htick, hkept]

theorem timeSettled_told {o : Nat × Nat × Word} (htick : byteAt f.payload 11 / 16 % 2 = 1) (hown : (w.link n).own = some o) :
    timeSettled w n f clash = (numbersShown w n f o).setAligned n
      (!formatDiffers o f && !blockDiffers o f && !decide clash) := by
  have hkept : ((w.updLink n (toldNumbers (timeNumbers f))).link n).own = some o := by
    rw [link_updLink_same]
    exact hown
  rw [timeSettled, if_pos htick, hkept]

theorem timeSettled_between (htick : ¬ byteAt f.payload 11 / 16 % 2 = 1) :
    timeSettled w n f clash = if clash then w.setAligned n false else w := if_neg htick

end Settled

/-- What every TIME frame leaves. -/
structure TimeHeard (s u : State) (n : Nat) (f : DngFrame) : Prop where
  number : NumberKept s u n
  mem : u.mem = s.mem
  clove : u.clove = s.clove
  quality : u.rdF (DNG_L_STAT n) 31 24 = timeQual f
  device : u.rdF (DNG_L_STAT n) 18 16 = timeQual f / 16 % 8
  clash : u.rdB (DNG_L_STAT n) 7 = timeClash s f
  qual : (u.link n).qual = timeQual f % 16
  phase : (u.link n).phase = timePhase s n f

theorem TimeHeard.step {s w u : State} {n i : Nat} {f : DngFrame} (h : TimeHeard s w n f) (k : StatBit i n w u)
    (hlo : 1 < i) (hhi : i < 7) : TimeHeard s u n f where
  number := ⟨k.rxSeq.trans h.number.rxSeq, k.ackDue.trans h.number.ackDue, (k.field 1 0 (by omega)).trans h.number.state⟩
  mem := k.mem.trans h.mem
  clove := k.clove.trans h.clove
  quality := (k.field 31 24 (by omega)).trans h.quality
  device := (k.field 18 16 (by omega)).trans h.device
  clash := (k.flag 7 (by omega)).trans h.clash
  qual := k.qual.trans h.qual
  phase := k.phase.trans h.phase

theorem statBit_told (w : State) (n i : Nat) (x : Nat × Nat × Word) : StatBit i n w (w.updLink n (toldNumbers x)) := by
  have hlink := link_updLink_same w n (toldNumbers x)
  refine ⟨fun _ _ _ => rfl, fun _ _ => rfl, rfl, rfl, ?_, ?_, ?_, ?_⟩
  all_goals
    rw [hlink]
    rfl

theorem timeQual_lt (f : DngFrame) : timeQual f < 256 := (f.payload.getD 10 0).isLt

theorem timeShown_stat (s : State) (n : Nat) (f : DngFrame) :
    (timeShown s n f).rdF (DNG_L_STAT n) 31 24 = timeQual f ∧
    (timeShown s n f).rdF (DNG_L_STAT n) 18 16 = timeQual f / 16 % 8 ∧
    (timeShown s n f).rdB (DNG_L_STAT n) 7 = timeClash s f ∧ (timeShown s n f).dngState n = s.dngState n ∧
    (timeShown s n f).rdB (DNG_L_STAT n) 4 = s.rdB (DNG_L_STAT n) 4 := by
  have hlt := timeQual_lt f
  unfold timeShown
  set a := s.wrF (DNG_L_STAT n) 31 24 (timeQual f) with ha
  set b := a.wrF (DNG_L_STAT n) 18 16 (timeQual f / 16)
  have hlast := statBit_wrB b n 7 (timeClash s f)
  refine ⟨?_, ?_, rdB_wrB_same b _ (by omega) _, ?_, ?_⟩
  · rw [hlast.field 31 24 (by omega), rdF_wrF_apart a _ (by omega) (by omega) (by omega), ha, rdF_wrF_same s _ (by omega) (by omega)]
    exact Nat.mod_eq_of_lt hlt
  · exact (hlast.field 18 16 (by omega)).trans (rdF_wrF_same a _ (by omega) (by omega) _)
  · show (b.wrB (DNG_L_STAT n) 7 (timeClash s f)).rdF (DNG_L_STAT n) 1 0 = s.rdF (DNG_L_STAT n) 1 0
    rw [hlast.field 1 0 (by omega), rdF_wrF_apart a _ (by omega) (by omega) (by omega), ha,
      rdF_wrF_apart s _ (by omega) (by omega) (by omega)]
  · rw [hlast.flag 4 (by omega), rdB_wrF_apart a _ (by omega) (by omega) (by omega), ha,
      rdB_wrF_apart s _ (by omega) (by omega) (by omega)]

/-- Time and device number come from registers and the STC. -/
theorem time_congr {s t : State} (hregs : t.regs = s.regs) (hstc : t.stc = s.stc) (n : Nat) (f : DngFrame) :
    t.rdF DNG_CTRL 2 0 = s.rdF DNG_CTRL 2 0 ∧ timePhase t n f = timePhase s n f := by
  have hrd : ∀ r, t.rd r = s.rd r := State.rd_congr hregs
  have hint : t.stcInt = s.stcInt := by
    unfold State.stcInt
    rw [hstc]
  have hdelay : t.rdF (DNG_L_DELAY n) 15 0 = s.rdF (DNG_L_DELAY n) 15 0 := congrArg (bits · 15 0) (hrd _)
  refine ⟨congrArg (bits · 2 0) (hrd _), ?_⟩
  unfold timePhase
  rw [hint, hdelay, hrd]

theorem numberTaken_rest (s : State) (n : Nat) : (numberTaken s n).regs = s.regs ∧ (numberTaken s n).stc = s.stc ∧
    (numberTaken s n).mem = s.mem ∧ (numberTaken s n).clove = s.clove := ⟨rfl, rfl, rfl, rfl⟩

theorem timeShown_rest (s : State) (n : Nat) (f : DngFrame) : (timeShown s n f).link n = s.link n ∧
    (timeShown s n f).mem = s.mem ∧ (timeShown s n f).clove = s.clove := ⟨rfl, rfl, rfl⟩

theorem timeHeard_spec (s : State) (n : Nat) (f : DngFrame) : TimeHeard s (timeHeard (numberTaken s n) n f) n f ∧
    (timeHeard (numberTaken s n) n f).rdB (DNG_L_STAT n) 4 = s.rdB (DNG_L_STAT n) 4 ∧
    ((timeHeard (numberTaken s n) n f).link n).own = (s.link n).own := by
  have hlink := link_numberTaken s n
  obtain ⟨hregs, hstc, hmem, hclove⟩ := numberTaken_rest s n
  generalize numberTaken s n = t at *
  obtain ⟨hdev, hphase⟩ := time_congr hregs hstc n f
  have hclash : timeClash t f = timeClash s f := by rw [timeClash, hdev]; rfl
  have hstat := State.rd_congr hregs (DNG_L_STAT n)
  obtain ⟨hq, hd, hc, hs, h4⟩ := timeShown_stat t n f
  obtain ⟨hl, hm, hv⟩ := timeShown_rest t n f
  unfold timeHeard
  generalize timeShown t n f = w at *
  have hnew : (w.updLink n (toldTime (timePhase t n f) (timeQual f) (timePeer f, t.now))).link n =
      toldTime (timePhase t n f) (timeQual f) (timePeer f, t.now) (expects (((s.link n).rxSeq + 1) % 4096) (s.link n)) := by
    rw [link_updLink_same, hl, hlink]
  obtain ⟨hrd, hxmem, hxclove⟩ := updLink_rest w n (toldTime (timePhase t n f) (timeQual f) (timePeer f, t.now))
  generalize w.updLink n (toldTime (timePhase t n f) (timeQual f) (timePeer f, t.now)) = x at *
  have hfield : ∀ hi lo, x.rdF (DNG_L_STAT n) hi lo = w.rdF (DNG_L_STAT n) hi lo := fun hi lo =>
    congrArg (bits · hi lo) (hrd _)
  have hflag : ∀ i, x.rdB (DNG_L_STAT n) i = w.rdB (DNG_L_STAT n) i := fun i => congrArg (bit · i) (hrd _)
  refine ⟨⟨⟨?_, ?_, (hfield 1 0).trans (hs.trans (dngState_congr hstat))⟩, hxmem.trans (hm.trans hmem),
    hxclove.trans (hv.trans hclove), (hfield 31 24).trans hq, (hfield 18 16).trans hd, (hflag 7).trans (hc.trans hclash),
    ?_, ?_⟩, (hflag 4).trans (h4.trans (congrArg (bit · 4) hstat)), ?_⟩
  · rw [hnew]; rfl
  · rw [hnew]; rfl
  · rw [hnew]; rfl
  · rw [hnew, ← hphase]; rfl
  · rw [hnew]; rfl

/-- The three last clauses are the branches' own. -/
theorem timeTaken_of {s u : State} {n : Nat} {f : DngFrame} (h : TimeHeard s u n f)
    (huntold : byteAt f.payload 11 / 16 % 2 = 1 → (s.link n).own = none → u.rdB (DNG_L_STAT n) 4 = false)
    (htold : ∀ o, byteAt f.payload 11 / 16 % 2 = 1 → (s.link n).own = some o → u.rdB (DNG_L_STAT n) 5 = formatDiffers o f ∧
      u.rdB (DNG_L_STAT n) 6 = blockDiffers o f ∧
      u.rdB (DNG_L_STAT n) 4 = (!formatDiffers o f && !blockDiffers o f && !timeClash s f))
    (hlost : s.rdB (DNG_L_STAT n) 4 = true → u.rdB (DNG_L_STAT n) 4 = false → NoneTied (u.link n)) :
    NumberKept s u.settle n ∧ TimeTaken s u.settle n f := by
  refine ⟨⟨h.number.rxSeq, h.number.ackDue, h.number.state⟩, h.mem, h.clove, h.quality, h.device, h.clash, h.qual, ?_, huntold,
    fun o ht ho => ?_, hlost⟩
  · refine h.phase.trans ?_
    unfold timePhase timePeer
    ring
  · have hformat : decide (o.1 ≠ byteAt f.payload 11 % 4 ∨ o.2.1 ≠ byteAt f.payload 11 / 4 % 4) = formatDiffers o f :=
      Bool.decide_or _ _
    dsimp only
    rw [hformat]
    exact htold o ht ho

theorem time_taken (s : State) (n : Nat) (f : DngFrame) : NumberKept s ((numberTaken s n).dngTime n f).settle n ∧
    TimeTaken s ((numberTaken s n).dngTime n f).settle n f := by
  obtain ⟨hheard, hflag, hown⟩ := timeHeard_spec s n f
  obtain ⟨hregs, hstc, -⟩ := numberTaken_rest s n
  obtain ⟨hdev, -⟩ := time_congr hregs hstc n f
  rw [dngTime_eq, hdev]
  generalize timeHeard (numberTaken s n) n f = w at *
  by_cases htick : byteAt f.payload 11 / 16 % 2 = 1
  · have hafter : ∀ i, StatBit i n w (w.updLink n (toldNumbers (timeNumbers f))) := fun i => statBit_told w n i _
    cases ho : (s.link n).own with
    | none =>
      rw [timeSettled_untold _ htick (hown.trans ho)]
      generalize w.updLink n (toldNumbers (timeNumbers f)) = v at *
      refine timeTaken_of ((hheard.step (hafter 4) (by omega) (by omega)).step (statBit_setAligned v n false) (by omega) (by omega))
        (fun _ _ => setAligned_flag v n false) (fun o _ h => ?_) (fun h _ => setAligned_lost ?_)
      · rw [ho] at h
        cases h
      · rw [(hafter 5).flag 4 (by omega), hflag, h]
    | some o =>
      rw [timeSettled_told _ htick (hown.trans ho)]
      unfold numbersShown
      generalize w.updLink n (toldNumbers (timeNumbers f)) = v at *
      have h5 := statBit_wrB v n 5 (formatDiffers o f)
      have hbit5 := rdB_wrB_same v (DNG_L_STAT n) (i := 5) (by omega) (formatDiffers o f)
      generalize v.wrB (DNG_L_STAT n) 5 (formatDiffers o f) = x at *
      have h6 := statBit_wrB x n 6 (blockDiffers o f)
      have hbit6 := rdB_wrB_same x (DNG_L_STAT n) (i := 6) (by omega) (blockDiffers o f)
      generalize x.wrB (DNG_L_STAT n) 6 (blockDiffers o f) = y at *
      change _ ∧ TimeTaken s (y.setAligned n (!formatDiffers o f && !blockDiffers o f && !timeClash s f)).settle n f
      have h4 := statBit_setAligned y n (!formatDiffers o f && !blockDiffers o f && !timeClash s f)
      have hbit4 := setAligned_flag y n (!formatDiffers o f && !blockDiffers o f && !timeClash s f)
      refine timeTaken_of ((((hheard.step (hafter 5) (by omega) (by omega)).step h5 (by omega) (by omega)).step h6 (by omega)
        (by omega)).step h4 (by omega) (by omega)) (fun _ h => ?_) (fun p _ h => ?_) (fun h hoff => ?_)
      · rw [ho] at h
        cases h
      · rw [ho] at h
        cases h
        exact ⟨(h4.flag 5 (by omega)).trans ((h6.flag 5 (by omega)).trans hbit5), (h4.flag 6 (by omega)).trans hbit6, hbit4⟩
      · have hfalse := hbit4.symm.trans hoff
        change NoneTied ((y.setAligned n (!formatDiffers o f && !blockDiffers o f && !timeClash s f)).link n)
        rw [hfalse]
        refine setAligned_lost ?_
        rw [h6.flag 4 (by omega), h5.flag 4 (by omega), (hafter 5).flag 4 (by omega), hflag, h]
  · rw [timeSettled_between _ htick]
    split
    · exact timeTaken_of (hheard.step (statBit_setAligned w n false) (by omega) (by omega)) (fun h => absurd h htick)
        (fun _ h => absurd h htick) (fun h _ => setAligned_lost (hflag.trans h))
    · refine timeTaken_of hheard (fun h => absurd h htick) (fun _ h => absurd h htick) (fun h hoff => ?_)
      rw [hflag, h] at hoff
      cases hoff

end Sys2Proof

namespace Sys2Proof

open Sys2Proof.Machine

/-! What the completion of a bus moves (R139 to R143, R319, R320). -/

/-- The addresses of the links' states. -/
def LinkStat (a : Nat) : Prop := ∃ m < 4, a = (DNG_L_STAT m).addr

/-- Registers other than the links' states, the links' lines, and the Matrix's work but for the cascade terms held. -/
structure BusMoved (s u : State) : Prop where
  only : u = { s with regs := u.regs, dng := u.dng, mtx := u.mtx }
  keeps : KeepsAt LinkStat s u
  ear : ∀ m, SameEar (s.link m) (u.link m)
  casc : u.mtx.casc = s.mtx.casc
  psum : ∀ b, s.mtx.psum.any (fun x => x.1 = b) = true → u.mtx.psum.any (fun x => x.1 = b) = true

namespace BusMoved

variable {s t u : State}

theorem refl (s : State) : BusMoved s s := ⟨rfl, .refl s, fun _ => .refl _, rfl, fun _ h => h⟩

theorem trans (h : BusMoved s t) (k : BusMoved t u) : BusMoved s u :=
  ⟨k.only.trans (congrArg (fun x : State => { x with regs := u.regs, dng := u.dng, mtx := u.mtx }) h.only :),
    h.keeps.trans k.keeps, fun m => (h.ear m).trans (k.ear m), k.casc.trans h.casc, fun b hb => k.psum b (h.psum b hb)⟩

theorem ite {c : Prop} [Decidable c] (h : BusMoved s t) (k : BusMoved s u) : BusMoved s (if c then t else u) := by
  split <;> assumption

theorem each {α : Type} {f : State → α → State} {l : List α} (h : ∀ s, ∀ x ∈ l, BusMoved s (f s x)) (s : State) :
    BusMoved s (s.each l f) := by
  induction l generalizing s with
  | nil => exact refl s
  | cons x l ih =>
    exact (h s x List.mem_cons_self).trans (ih (fun s y hy => h s y (List.mem_cons_of_mem _ hy)) (f s x))

theorem of_regs (h : RegsAlone LinkStat s u) : BusMoved s u := by
  have hdng : u.dng = s.dng := (congrArg State.dng h.only :)
  have hmtx : u.mtx = s.mtx := (congrArg State.mtx h.only :)
  refine ⟨?_, h.keeps, fun m => ?_, by rw [hmtx], fun b hb => by rw [hmtx]; exact hb⟩
  · rw [hdng, hmtx]
    exact h.only
  · rw [link_congr hdng m]
    exact .refl _

end BusMoved

theorem link_setLink_other (s : State) {n m : Nat} (h : m ≠ n) (l : Dng) : (s.setLink n l).link m = s.link m :=
  sget_sset_other _ _ _ _ h

theorem busMoved_setLink (s : State) (n : Nat) {l : Dng} (h : SameEar (s.link n) l) : BusMoved s (s.setLink n l) := by
  refine ⟨rfl, .of_regs rfl, fun m => ?_, rfl, fun _ h => h⟩
  by_cases he : m = n
  · subst he
    rw [link_setLink_same]
    exact h
  · rw [link_setLink_other s he]
    exact .refl _

/-- A register that is no link's state, by its address. -/
theorem not_linkStat {a : Nat} (h : 0x500E0000 ≤ a ∨ a % 0x100 ≠ 4) : ¬ LinkStat a := by
  rintro ⟨m, hm, e⟩
  simp only [DNG_L_STAT] at e
  omega

theorem busMoved_lineRun (s : State) (n : Nat) : BusMoved s (s.lineRun n) := by
  rw [lineRun_eq]
  have hline := busMoved_setLink s n (sameEar_linkNow s n)
  generalize s.setLink n (s.linkNow n) = t at *
  exact hline.trans (.of_regs ((RegsAlone.refl t).upd (not_linkStat (.inr (by simp only [DNG_L_RETRY_CNT]; omega))) _))

theorem sameEar_withFrame (f : DngOut) (l : Dng) : SameEar l (Dng.withFrame f l) := ⟨rfl, rfl, rfl, rfl, rfl, rfl, rfl⟩

theorem busMoved_dngSend (s : State) (n : Nat) (f : DngOut) : BusMoved s (s.dngSend n f) := by
  unfold State.dngSend
  have hrun := busMoved_lineRun s n
  refine .ite (.refl s) ?_
  dsimp only
  generalize s.lineRun n = t at *
  exact hrun.trans (busMoved_setLink t n (sameEar_withFrame _ _))

theorem busMoved_cascForward (s : State) (b : Nat) (p : List Int) : BusMoved s (s.cascForward b p) :=
  .each (fun s _ _ => .ite (busMoved_dngSend s _ _) (.refl s)) s

theorem busMoved_cascLate (s : State) (b : Nat) : BusMoved s (s.cascLate b) := by
  refine .ite (.each (fun t n _ => .ite (.of_regs ?_) (.refl t)) s) (.refl s)
  exact ((RegsAlone.refl t).count (not_linkStat (.inr (by simp only [DNG_L_CLATE_CNT]; omega)))).raise
    (not_linkStat (.inr (by simp only [DNG_L_INT]; omega))) _

/-- A bus's partial sums complete, with the fade and the hold of its cascade channel. -/
def summed (s : State) (b : Nat) (t : Nat × Int × List Int) (p : List Int) : State :=
  let s := s.setBus b { s.bus b with f := t.1, h := t.2.1 }
  { s with mtx := { s.mtx with psum := sins s.mtx.psum b p } }

/-- A term that has not come is flagged. -/
def termLost (s : State) (b : Nat) (missing : Bool) : State :=
  if missing then ((s.wrB (MXM_CLOST (b / 32)) (b % 32) true).raise MXM_INT 2#32).count MXM_CLOST_CNT else s

/-- Words that saturate are flagged. -/
def sumOver (s : State) (b n : Nat) : State :=
  if n = 0 then s else ((s.wrB (MXM_SAT (b / 32)) (b % 32) true).raise MXM_INT 1#32).countF MXM_SAT_CNT 31 0 n

theorem busFinish_eq {s : State} {b : Nat} (h : ¬ s.mtx.psum.any (fun x => x.1 = b) = true) :
    ∃ t p missing n, s.busFinish b = (sumOver (termLost (summed (s.cascLate b) b t p) b missing) b n).cascForward b p :=
  ⟨_, _, _, _, if_neg h⟩

theorem sins_any {α : Type} (m : List (Nat × α)) (k : Nat) (x : α) : (sins m k x).any (fun y => y.1 = k) = true := by
  induction m with
  | nil => simp [sins]
  | cons y m ih =>
    unfold sins
    split
    · simp
    · split
      · simp
      · rw [List.any_cons, ih, Bool.or_true]

theorem sins_any_kept {α : Type} {m : List (Nat × α)} (k : Nat) (x : α) {j : Nat} (h : m.any (fun y => y.1 = j) = true) :
    (sins m k x).any (fun y => y.1 = j) = true := by
  induction m with
  | nil => exact absurd h (by simp)
  | cons y m ih =>
    rw [List.any_cons, Bool.or_eq_true] at h
    unfold sins
    split
    · next e =>
      rw [e] at h
      rw [List.any_cons, Bool.or_eq_true]
      exact h
    · split
      · rw [List.any_cons, List.any_cons, Bool.or_eq_true, Bool.or_eq_true]
        exact .inr h
      · rw [List.any_cons, Bool.or_eq_true]
        exact h.imp_right ih

theorem summed_spec (s : State) (b : Nat) (t : Nat × Int × List Int) (p : List Int) : BusMoved s (summed s b t p) ∧
    (summed s b t p).mtx.psum.any (fun x => x.1 = b) = true :=
  ⟨⟨rfl, .of_regs rfl, fun _ => .refl _, rfl, fun _ h => sins_any_kept b p h⟩, sins_any _ _ _⟩

theorem busMoved_flags (s : State) (b : Nat) (missing : Bool) (n : Nat) : BusMoved s (sumOver (termLost s b missing) b n) := by
  have hmxm : ∀ a, 0x500E0000 ≤ a → ¬ LinkStat a := fun a h => not_linkStat (.inl h)
  have hlost : RegsAlone LinkStat s (termLost s b missing) :=
    .ite ((((RegsAlone.refl s).wrB (hmxm _ (by simp only [MXM_CLOST]; omega)) _ _).raise (hmxm _ (by decide)) _).count
      (hmxm _ (by decide))) (.refl s)
  refine .of_regs (hlost.trans (.ite (.refl _) ?_))
  generalize termLost s b missing = t
  exact (((RegsAlone.refl t).wrB (hmxm _ (by simp only [MXM_SAT]; omega)) _ _).raise (hmxm _ (by decide)) _).upd
    (hmxm _ (by decide)) _

theorem busFinish_spec (s : State) (b : Nat) : BusMoved s (s.busFinish b) ∧
    (s.busFinish b).mtx.psum.any (fun x => x.1 = b) = true := by
  by_cases h : s.mtx.psum.any (fun x => x.1 = b) = true
  · rw [show s.busFinish b = s from if_pos h]
    exact ⟨.refl s, h⟩
  · obtain ⟨t, p, missing, n, hfinish⟩ := busFinish_eq h
    rw [hfinish]
    have hlate := busMoved_cascLate s b
    generalize s.cascLate b = v at *
    obtain ⟨hsum, hdone⟩ := summed_spec v b t p
    generalize summed v b t p = w at *
    have hflags := busMoved_flags w b missing n
    generalize sumOver (termLost w b missing) b n = x at *
    have hforward := busMoved_cascForward x b p
    exact ⟨((hlate.trans hsum).trans hflags).trans hforward, (hflags.trans hforward).psum b hdone⟩

/-! CASC frames (R141, R143, R319, R320). -/

/-- The source ID of a CASC frame's channel. -/
def cascSource (n : Nat) (f : DngFrame) : Nat := 0x2400 + 256 * n + f.chan.toNat

/-- The frame's term is wanted, before the deadline. -/
def CascOpen (s : State) (n : Nat) (f : DngFrame) : Prop :=
  s.linkAligned n = true ∧ s.cascChan n f.chan.toNat = true ∧ f.block = s.rd SYS_FRM_BLOCK ∧
    s.mtx.dead = false ∧ s.frame.win ≠ .bus ∧ s.frame.win ≠ .tail

/-- The term held. -/
def cascHeld (s : State) (n : Nat) (f : DngFrame) : State :=
  { s with mtx := { s.mtx with casc := s.mtx.casc ++ [(cascSource n f, cascInts s.blk f.payload)] } }

/-- A bus that nothing else is missing of completes. -/
def busTried (s : State) (b : Nat) : State := if s.busWaits b then s else s.busFinish b

/-- The buses that take the term. -/
def cascTakers (s : State) (n : Nat) (f : DngFrame) : List Nat :=
  (upTo s.mtx.next).filter (fun b => (s.cascSrcs b).contains (cascSource n f))

theorem dngCasc_open {s : State} {n : Nat} {f : DngFrame} (h : CascOpen s n f) :
    s.dngCasc n f = (cascHeld s n f).each (cascTakers (cascHeld s n f) n f) busTried := by
  obtain ⟨halign, hchan, hblock, hdead, hbus, htail⟩ := h
  unfold State.dngCasc
  dsimp only
  rw [if_neg (by rw [halign, hchan]; decide), if_neg (by simp [hblock, hdead, hbus, htail])]
  rfl

theorem dngCasc_shut {s : State} {n : Nat} {f : DngFrame} (h : ¬ CascOpen s n f) : s.dngCasc n f = s := by
  unfold State.dngCasc
  dsimp only
  split
  · rfl
  · next hwanted =>
    split
    · rfl
    · next hopen =>
      refine absurd ?_ h
      have hboth : s.linkAligned n = true ∧ s.cascChan n f.chan.toNat = true := by simpa using hwanted
      have hrest : f.block = s.rd SYS_FRM_BLOCK ∧ s.mtx.dead = false ∧ s.frame.win ≠ .bus ∧ s.frame.win ≠ .tail := by
        simpa [and_assoc] using hopen
      exact ⟨hboth.1, hboth.2, hrest⟩

theorem busMoved_tried (s : State) (b : Nat) : BusMoved s (busTried s b) := .ite (.refl s) (busFinish_spec s b).1

/-- The cascade channels of a bus come from the Router and the links' bitmaps. -/
theorem cascSrcs_kept {s u : State} (h : BusMoved s u) (b : Nat) : u.cascSrcs b = s.cascSrcs b := by
  have hrouter : u.router = s.router := (congrArg State.router h.only :)
  have hsrc : u.cascSrc = s.cascSrc := by
    funext src
    rw [State.cascSrc, State.cascSrc, cascChan_congr (h.ear _).casc]
  unfold State.cascSrcs State.cascTerms State.sink
  rw [hrouter, hsrc]

/-- A bus that takes one channel alone, whose term is held, waits for nothing. -/
theorem busTried_done {s : State} {b src : Nat} (hsrcs : s.cascSrcs b = [src])
    (hheld : s.mtx.casc.any (fun x => x.1 = src) = true) : (busTried s b).mtx.psum.any (fun x => x.1 = b) = true := by
  have hmissing : s.cascMissing b = [] := by
    unfold State.cascMissing
    rw [hsrcs, List.filter_cons_of_neg (by simp [hheld]), List.filter_nil]
  have hready : s.busWaits b = false := by
    unfold State.busWaits
    rw [hmissing, List.any_nil, Bool.and_false]
  rw [busTried, if_neg (by rw [hready]; decide)]
  exact (busFinish_spec s b).2

/-- The buses that take that channel alone are complete. -/
theorem cascTakers_done (s : State) (n : Nat) (f : DngFrame) :
    ∀ b ∈ cascTakers s n f, (s.each (cascTakers s n f) busTried).cascSrcs b = [cascSource n f] →
      (s.each (cascTakers s n f) busTried).mtx.casc.any (fun x => x.1 = cascSource n f) = true →
        (s.each (cascTakers s n f) busTried).mtx.psum.any (fun x => x.1 = b) = true := by
  refine each_forall (Q := fun b t => t.cascSrcs b = [cascSource n f] →
    t.mtx.casc.any (fun x => x.1 = cascSource n f) = true → t.mtx.psum.any (fun x => x.1 = b) = true)
    (fun t b _ hsrcs hcasc => ?_) (fun t b _ c _ h hsrcs hcasc => ?_) s
  · have hmoved := busMoved_tried t b
    rw [cascSrcs_kept hmoved] at hsrcs
    rw [hmoved.casc] at hcasc
    exact busTried_done hsrcs hcasc
  · have hmoved := busMoved_tried t b
    rw [cascSrcs_kept hmoved] at hsrcs
    rw [hmoved.casc] at hcasc
    exact hmoved.psum c (h hsrcs hcasc)

theorem cascHeld_rest (s : State) (n : Nat) (f : DngFrame) : (cascHeld s n f).regs = s.regs ∧ (cascHeld s n f).dng = s.dng ∧
    (cascHeld s n f).mem = s.mem ∧ (cascHeld s n f).clove = s.clove ∧ (cascHeld s n f).router = s.router ∧
    (cascHeld s n f).mtx.next = s.mtx.next ∧
    (cascHeld s n f).mtx.casc = s.mtx.casc ++ [(cascSource n f, cascInts s.blk f.payload)] :=
  ⟨rfl, rfl, rfl, rfl, rfl, rfl, rfl⟩

/-- What a frame that has taken its number finds of the cascade. -/
theorem numberTaken_casc (s : State) (n : Nat) : (numberTaken s n).mtx = s.mtx ∧ (numberTaken s n).frame = s.frame ∧
    (numberTaken s n).router = s.router ∧ ∀ m c, (numberTaken s n).cascChan m c = s.cascChan m c := by
  refine ⟨rfl, rfl, rfl, fun m c => cascChan_congr ?_ c⟩
  by_cases he : m = n
  · subst he
    rw [link_numberTaken]
    rfl
  · exact congrArg Dng.casc (link_setLink_other s he _)

theorem cascOpen_congr {s t : State} {n : Nat} {f : DngFrame} (hregs : t.regs = s.regs) (hmtx : t.mtx = s.mtx)
    (hframe : t.frame = s.frame) (hchan : ∀ m c, t.cascChan m c = s.cascChan m c) : CascOpen t n f ↔ CascOpen s n f := by
  have hrd : ∀ r, t.rd r = s.rd r := State.rd_congr hregs
  have halign : t.linkAligned n = s.linkAligned n := by
    unfold State.linkAligned State.linkUp State.rdF State.rdB
    rw [hrd]
  unfold CascOpen
  rw [halign, hchan, hrd, hmtx, hframe]

theorem cascSrcs_congr {s t : State} (hrouter : t.router = s.router) (hchan : ∀ m c, t.cascChan m c = s.cascChan m c)
    (b : Nat) : t.cascSrcs b = s.cascSrcs b := by
  have hsrc : t.cascSrc = s.cascSrc := by
    funext src
    rw [State.cascSrc, State.cascSrc, hchan]
  unfold State.cascSrcs State.cascTerms State.sink
  rw [hrouter, hsrc]

theorem blk_congr {s t : State} (hregs : t.regs = s.regs) : t.blk = s.blk := by
  unfold State.blk
  rw [State.rdF, State.rd_congr hregs]
  rfl

theorem casc_taken (s : State) {n : Nat} (hn : n < 4) (f : DngFrame) : NumberKept s ((numberTaken s n).dngCasc n f).settle n ∧
    CascTaken s ((numberTaken s n).dngCasc n f).settle n f := by
  obtain ⟨hregs, -, hmem, hclove⟩ := numberTaken_rest s n
  obtain ⟨hmtx, hframe, hrouter, hchan⟩ := numberTaken_casc s n
  have hnumber := fun u : State => numberKept_of (s := s) (u := u) (n := n)
  generalize numberTaken s n = t at *
  have hopen : CascOpen t n f ↔ CascOpen s n f := cascOpen_congr hregs hmtx hframe hchan
  have hblk : t.blk = s.blk := blk_congr hregs
  by_cases h : CascOpen s n f
  · rw [dngCasc_open (hopen.2 h)]
    obtain ⟨hregs', hdng', hmem', hclove', hrouter', hnext', hcasc'⟩ := cascHeld_rest t n f
    generalize cascHeld t n f = v at *
    have hheld : v.mtx.casc.any (fun x => x.1 = cascSource n f) = true := by
      rw [hcasc', List.any_append, Bool.or_eq_true]
      exact .inr (by simp)
    have hsrcs : ∀ b, v.cascSrcs b = s.cascSrcs b := fun b => cascSrcs_congr (hrouter'.trans hrouter)
      (fun m c => (cascChan_congr (congrArg Dng.casc (link_congr hdng' m)) c).trans (hchan m c)) b
    have hdone := cascTakers_done v n f
    have hmoved : BusMoved v (v.each (cascTakers v n f) busTried) := .each (fun t b _ => busMoved_tried t b) v
    generalize hu : v.each (cascTakers v n f) busTried = u at *
    have hcasc : u.mtx.casc = s.mtx.casc ++ [(cascSource n f, cascInts s.blk f.payload)] := by
      rw [hmoved.casc, hcasc', hmtx, hblk]
    refine ⟨hnumber u.settle ?_ ?_, ?_, ?_, fun hn => absurd h hn, fun _ => ⟨hcasc, fun b hb hb' => ?_⟩⟩
    · have hear := hmoved.ear n
      rw [link_congr hdng' n] at hear
      exact ⟨hear.rxSeq, hear.ackDue⟩
    · exact (hmoved.keeps _ ⟨n, hn, rfl⟩).trans (State.rd_congr (hregs'.trans hregs) _)
    · exact ((congrArg State.mem hmoved.only :).trans hmem').trans hmem
    · exact ((congrArg State.clove hmoved.only :).trans hclove').trans hclove
    · have hmember : b ∈ cascTakers v n f := by
        refine List.mem_filter.2 ⟨List.mem_range.2 (by rw [hnext', hmtx]; exact hb), ?_⟩
        rw [hsrcs, hb']
        exact List.contains_iff_mem.2 List.mem_cons_self
      refine hdone b hmember ((cascSrcs_kept hmoved b).trans ((hsrcs b).trans hb')) ?_
      rw [hmoved.casc]
      exact hheld
  · rw [dngCasc_shut (mt hopen.1 h)]
    exact ⟨hnumber t.settle ⟨rfl, rfl⟩ (State.rd_congr hregs _), hmem, hclove, fun _ => ⟨hmtx, hregs⟩, fun ho => absurd ho h⟩

/-! A numbered frame in sequence (R314, R315). -/

/-- What a MIRROR frame does (R314). -/
theorem mirror_taken (s : State) (n : Nat) : NumberKept s (numberTaken s n).settle n ∧
    (numberTaken s n).settle.regs = s.regs ∧ (numberTaken s n).settle.ani = s.ani ∧
    (numberTaken s n).settle.clove = s.clove ∧ (numberTaken s n).settle.mem = s.mem := by
  obtain ⟨hregs, -, hmem, hclove⟩ := numberTaken_rest s n
  have hani : (numberTaken s n).ani = s.ani := rfl
  have hnumber := fun u : State => numberKept_of (s := s) (u := u) (n := n)
  generalize numberTaken s n = t at *
  exact ⟨hnumber t.settle ⟨rfl, rfl⟩ (State.rd_congr hregs _), hregs, hani, hclove, hmem⟩

theorem dongoReceives_next (s : State) (n : Fin 4) (bs : List Byte) (f : DngFrame) (hparse : dngParse bs = some f)
    (h : s.dngState n = 2) (hkind : Numbered f) (hseq : f.seq.toNat = (s.link n).rxSeq) :
    Gives (.dongoFrameReceive n bs) s fun u =>
    (u.link n).rxSeq = ((s.link n).rxSeq + 1) % 4096 ∧ (u.link n).ackDue = true ∧ u.dngState n = 2 ∧
    (f.kind = .audio → AudioTaken s u n f) ∧ (f.kind = .casc → CascTaken s u n f) ∧
    (f.kind = .time → TimeTaken s u n f) ∧ (f.kind = .event → EventTaken s u n f) ∧
    (f.kind = .mirror → u.regs = s.regs ∧ u.ani = s.ani ∧ u.clove = s.clove ∧ u.mem = s.mem) := by
  refine (gives_iff_of_done (t := s.dngReceive n bs) rfl).2 ?_
  have hact : s.dngReceive n bs = (numberTaken s n).dngAct n f := by
    rw [dngReceive_numbered h hparse hkind, if_pos hseq]
    rfl
  rw [hact, State.dngAct]
  rcases hkind with e | e | e | e | e
  · obtain ⟨hnumber, htaken⟩ := audio_taken s n f
    rw [e]
    exact ⟨hnumber.rxSeq, hnumber.ackDue, hnumber.state.trans h, fun _ => htaken, nofun, nofun, nofun, nofun⟩
  · obtain ⟨hnumber, htaken⟩ := casc_taken s n.isLt f
    rw [e]
    exact ⟨hnumber.rxSeq, hnumber.ackDue, hnumber.state.trans h, nofun, fun _ => htaken, nofun, nofun, nofun⟩
  · obtain ⟨hnumber, htaken⟩ := time_taken s n f
    rw [e]
    exact ⟨hnumber.rxSeq, hnumber.ackDue, hnumber.state.trans h, nofun, nofun, fun _ => htaken, nofun, nofun⟩
  · obtain ⟨hnumber, htaken⟩ := event_taken s n.isLt f
    rw [e]
    exact ⟨hnumber.rxSeq, hnumber.ackDue, hnumber.state.trans h, nofun, nofun, nofun, fun _ => htaken, nofun⟩
  · obtain ⟨hnumber, htaken⟩ := mirror_taken s n
    rw [e]
    exact ⟨hnumber.rxSeq, hnumber.ackDue, hnumber.state.trans h, nofun, nofun, nofun, nofun, fun _ => htaken⟩

/-- Settles O45: a frame reads back as it was formed (`dngParse_dngWire`), and each clause is that of the frame's kind and the
link's state. -/
theorem dongoReceives : Obligations.DongoReceives := by
  unfold Obligations.DongoReceives
  refine ⟨dngParse_dngWire, fun s n bs => ⟨dongoReceives_off s n bs, dongoReceives_bad s n bs, fun f hparse =>
    ⟨dongoReceives_echo_training s n bs f hparse, dongoReceives_echo_up s n bs f hparse, dongoReceives_hello s n bs f hparse,
      dongoReceives_next s n bs f hparse, dongoReceives_gap s n bs f hparse, fun g rest h hreplay => ?_⟩⟩⟩
  exact fun hk => ⟨dongoReceives_ack s n bs f hparse g rest h hreplay hk,
    dongoReceives_nak s n bs f hparse g rest h hreplay hk, dongoReceives_nak_down s n bs f hparse g rest h hreplay hk⟩

end Sys2Proof
